-- ==== Sys2Proof/Word.lean ====
section
/-! DEFINITION. The word types of the W6: 64-bit payloads and registers (R22, R57), 32-bit instruction words (R105), bytes (R161). -/

namespace Sys2Proof

/-- A 64-bit payload or register value (R22, R57). -/
abbrev Word := BitVec 64

/-- A 32-bit instruction, trigger, channel, route or descriptor word (R61, R64, R68, R105, R110). -/
abbrev IWord := BitVec 32

/-- A byte (R161). -/
abbrev Byte := BitVec 8

end Sys2Proof
end

