-- ==== Sys2Proof/Syntax.lean ====
section
/-! DEFINITION. The instructions and machine steps of the W6: one constructor of Instr per row of the opcode table. The first 217 are instruction words (R105 to R114) with their encoded fields; the others are the moves and device events of R93 and the system-level book, with the inputs each takes from outside as arguments. -/

namespace Sys2Proof

/-- The four inter-router ports of R19. -/
inductive Side where
  | north | east | south | west
  deriving DecidableEq, Repr

/-- A queue at a router that holds tokens in transit (R92): an outbound queue, a router input per VC, or a branch buffer of a fork (none is the local branch). -/
inductive HopQ where
  | out (ch : BitVec 5)
  | inq (port : Side) (vc : BitVec 5)
  | branch (cls : BitVec 6) (dir : Option Side)
  deriving DecidableEq, Repr

/-- A unit that issues (R24, R29, R223): an element, a sequencer, an AG, or a task of another module, with its launch serial and request id (R393). -/
inductive UnitId where
  | elem (e : Nat)
  | seq (g : Nat)
  | ag (g n : Nat)
  | remote (m serial rid : Nat)
  deriving DecidableEq, Repr

/-- What a request from another module asks for (R393). -/
inductive RemoteOp where
  | read
  | write (words : List (Option (BitVec 64)))
  | void (len : Nat)
  | absent
  deriving DecidableEq, Repr

/-- The chain and wave fields that a request to another module carries (R97, R99). -/
structure RemoteWave where
  chain : Nat
  seq : BitVec 8
  pred : BitVec 8
  succ : BitVec 8
  deriving DecidableEq, Repr

/-- How a request to another module is made: to a PL page, from outside any task, in a chain (R83, R97, R393), and under which key id where its leaf gives one (R387); a copy that carries metadata asks for ST and TAG with a sector's words, or brings them (R389). -/
structure RemoteAccess where
  pl : Bool := false
  outside : Bool := false
  wave : Option RemoteWave := none
  key : Option Nat := none
  carry : Bool := false
  sector : Option (BitVec 2 × BitVec 14) := none
  deriving DecidableEq, Repr

/-- TDISP states of a TDI (R381). -/
inductive TdiState where
  | unlocked | locked | run | error
  deriving DecidableEq, Repr

/-- The three sensors of a grove (R403). -/
inductive SensorKind where
  | temperature | voltage | current
  deriving DecidableEq, Repr

/-- A firmware image as the ROM meets it: its version counter, a name for its body, and whether its Ed448 signature and digest verify (R408). -/
structure Firmware where
  version : BitVec 32
  body : Nat
  verified : Bool
  deriving DecidableEq, Repr

/-- What a Zwitex peer assigns at stage 6 (R406): the module number, the domain hop table, and the time that the time base locks to. -/
structure Peer where
  number : Nat
  hops : List (Nat × Nat)
  time : BitVec 64 := 0
  deriving DecidableEq, Repr

/-- What the outside decides about one power-on (R406, R407): the stage that fails (0 for none), the groves whose self-test fails, the Zwitex peer if there is one, and the fabric image when the BOOTNET strap is set. -/
structure BootInput where
  failAt : Nat
  badGroves : List Nat
  peer : Option Peer
  net : Option Firmware
  deriving DecidableEq, Repr

/-- A register written from outside the instruction stream (R303, R379, R380, R383, R391, R409): a sequencer's system register at a level, the high ACK word, a context's reserve through PF0, the mailbox of a function, half of an MSI-X table entry of a function (0 is PF0, n is VF n), or the Berovo port of the route to a module, which the monitor sets. -/
inductive DevReg where
  | sys (g n : Nat) (supervisor : Bool)
  | ackHigh
  | reserve (ctx : Nat)
  | mailbox (function : Nat)
  | msix (function n : Nat) (high : Bool)
  | route (m : Nat)
  deriving DecidableEq, Repr

/-- Partition commands of the monitor (R376, R377, R413). -/
inductive PartitionCommand where
  | define (p row col rows cols : Nat) (granules keys : List Nat)
  | slotTable (p base len : Nat)
  | service (p : Nat) (event : Bool)
  | runtime (p g : Nat)
  | context (p ctx root boost : Nat)
  | freeContext (ctx : Nat)
  | remove (p : Nat)
  deriving DecidableEq, Repr

/-- The rows of the opcode table. Fields of an instruction word carry the table's names and widths; t is the trigger or guard entry. -/
inductive Instr where
  /-- ADD: Adds two 64-bit operands modulo 2^64 into d (R123). -/
  | add (t d a b : BitVec 6)
  /-- SUB: Subtracts b from a modulo 2^64 into d (R123). -/
  | sub (t d a b : BitVec 6)
  /-- MUL: Writes the low 64 bits of the product of a and b into d (R123). -/
  | mul (t d a b : BitVec 6)
  /-- MULH: Writes the high 64 bits of the signed 128-bit product into d (R123). -/
  | mulh (t d a b : BitVec 6)
  /-- MULHU: Writes the high 64 bits of the unsigned 128-bit product into d (R123). -/
  | mulhu (t d a b : BitVec 6)
  /-- DIV: Sequencer signed division rounded toward zero; division by zero gives all ones and sets DZ (R124). -/
  | div (t d a b : BitVec 6)
  /-- REM: Sequencer signed remainder with the sign of the dividend; division by zero returns a and sets DZ (R124). -/
  | rem (t d a b : BitVec 6)
  /-- ROTL: Rotates a left by the low six bits of b (R123). -/
  | rotl (t d a b : BitVec 6)
  /-- AND: Bitwise AND of a and b into d (R123). -/
  | and (t d a b : BitVec 6)
  /-- OR: Bitwise OR of a and b into d (R123). -/
  | or (t d a b : BitVec 6)
  /-- XOR: Bitwise XOR of a and b into d (R123). -/
  | xor (t d a b : BitVec 6)
  /-- ANDN: Writes a AND NOT b into d (R123). -/
  | andn (t d a b : BitVec 6)
  /-- ORN: Writes a OR NOT b into d (R123). -/
  | orn (t d a b : BitVec 6)
  /-- SHL: Shifts a left by the low six bits of b (R123). -/
  | shl (t d a b : BitVec 6)
  /-- SHR: Shifts a right logically by the low six bits of b (R123). -/
  | shr (t d a b : BitVec 6)
  /-- SAR: Shifts a right arithmetically by the low six bits of b (R123). -/
  | sar (t d a b : BitVec 6)
  /-- MIN: Writes the signed minimum of a and b (R123). -/
  | min (t d a b : BitVec 6)
  /-- MAX: Writes the signed maximum of a and b (R123). -/
  | max (t d a b : BitVec 6)
  /-- MINU: Writes the unsigned minimum of a and b (R123). -/
  | minu (t d a b : BitVec 6)
  /-- MAXU: Writes the unsigned maximum of a and b (R123). -/
  | maxu (t d a b : BitVec 6)
  /-- BFX: Extracts the bit field of a described by b, zero-extended (R125). -/
  | bfx (t d a b : BitVec 6)
  /-- BFI: Inserts the low bits of a into the bit field of d described by b (R125). -/
  | bfi (t d a b : BitVec 6)
  /-- MOV: Copies a into d with a fresh tag (R126). -/
  | mov (t d a : BitVec 6)
  /-- ABS: Writes the absolute value of a, wrapping at -2^63 (R126). -/
  | abs (t d a : BitVec 6)
  /-- CLZ: Counts leading zero bits of a (R126). -/
  | clz (t d a : BitVec 6)
  /-- CTZ: Counts trailing zero bits of a (R126). -/
  | ctz (t d a : BitVec 6)
  /-- POPC: Counts one bits of a (R126). -/
  | popc (t d a : BitVec 6)
  /-- SEL_P0_P3: Selects a or b into d by predicate p0-p3, consuming both sources (R128). -/
  | selP0P3 (t d a b : BitVec 6) (k : BitVec 2)
  /-- SEL_P4_P7: Selects a or b into d by predicate p4-p7, consuming both sources (R128). -/
  | selP4P7 (t d a b : BitVec 6) (k : BitVec 2)
  /-- CMP: Sets predicate pk to whether the condition holds between a and b (R129). -/
  | cmp (t : BitVec 6) (c k : BitVec 3) (a b : BitVec 6)
  /-- PAND: Sets pk to pi AND pj (R130). -/
  | pand (t : BitVec 6) (k i j : BitVec 3)
  /-- POR: Sets pk to pi OR pj (R130). -/
  | por (t : BitVec 6) (k i j : BitVec 3)
  /-- PXOR: Sets pk to pi XOR pj (R130). -/
  | pxor (t : BitVec 6) (k i j : BitVec 3)
  /-- PNOT: Sets pk to NOT pi (R130). -/
  | pnot (t : BitVec 6) (k i : BitVec 3)
  /-- PSET: Sets pk to the given value, 1 when omitted (R130). -/
  | pset (t : BitVec 6) (k : BitVec 3) (v : BitVec 1)
  /-- PMOV: Sets pk to bit 0 of source a (R130). -/
  | pmov (t : BitVec 6) (k : BitVec 3) (a : BitVec 6)
  /-- CMPI: Sets pk to whether the condition holds between a and an 8-bit immediate (R129). -/
  | cmpi (t : BitVec 6) (c k : BitVec 3) (a : BitVec 6) (i : BitVec 8)
  /-- ADDI: Adds a sign-extended 8-bit immediate to a (R127). -/
  | addi (t d a : BitVec 6) (i : BitVec 8)
  /-- SHLI: Shifts a left by an immediate count (R127). -/
  | shli (t d a n : BitVec 6)
  /-- SHRI: Shifts a right logically by an immediate count (R127). -/
  | shri (t d a n : BitVec 6)
  /-- SARI: Shifts a right arithmetically by an immediate count (R127). -/
  | sari (t d a n : BitVec 6)
  /-- EXT: Sign-extends a from its low n bits (R127). -/
  | extend (t d a n : BitVec 6)
  /-- MOVI: Writes a sign-extended 14-bit immediate into d (R127). -/
  | movi (t d : BitVec 6) (i : BitVec 14)
  /-- MOVH: Shifts d left by 14 and adds an unsigned 14-bit immediate (R127). -/
  | movh (t d : BitVec 6) (i : BitVec 14)
  /-- VADD_F32: Short-form FP32 lane add under RNE (R140). -/
  | vaddF32 (t d a b : BitVec 6)
  /-- VADD_BF16: Short-form BF16 lane add under RNE (R140). -/
  | vaddBf16 (t d a b : BitVec 6)
  /-- VADD_F16: Short-form FP16 lane add under RNE (R140). -/
  | vaddF16 (t d a b : BitVec 6)
  /-- VADD_I32: Short-form i32 lane add, wrapping (R140). -/
  | vaddI32 (t d a b : BitVec 6)
  /-- VSUB_F32: Short-form FP32 lane subtract (R140). -/
  | vsubF32 (t d a b : BitVec 6)
  /-- VSUB_BF16: Short-form BF16 lane subtract (R140). -/
  | vsubBf16 (t d a b : BitVec 6)
  /-- VSUB_F16: Short-form FP16 lane subtract (R140). -/
  | vsubF16 (t d a b : BitVec 6)
  /-- VSUB_I32: Short-form i32 lane subtract (R140). -/
  | vsubI32 (t d a b : BitVec 6)
  /-- VMUL_F32: Short-form FP32 lane multiply (R140). -/
  | vmulF32 (t d a b : BitVec 6)
  /-- VMUL_BF16: Short-form BF16 lane multiply (R140). -/
  | vmulBf16 (t d a b : BitVec 6)
  /-- VMUL_F16: Short-form FP16 lane multiply (R140). -/
  | vmulF16 (t d a b : BitVec 6)
  /-- VMUL_I32: Short-form i32 lane multiply keeping low bits (R140). -/
  | vmulI32 (t d a b : BitVec 6)
  /-- VMIN_F32: Short-form FP32 lane minimum (R141). -/
  | vminF32 (t d a b : BitVec 6)
  /-- VMIN_BF16: Short-form BF16 lane minimum (R141). -/
  | vminBf16 (t d a b : BitVec 6)
  /-- VMIN_F16: Short-form FP16 lane minimum (R141). -/
  | vminF16 (t d a b : BitVec 6)
  /-- VMIN_I32: Short-form i32 signed lane minimum (R141). -/
  | vminI32 (t d a b : BitVec 6)
  /-- VMAX_F32: Short-form FP32 lane maximum (R141). -/
  | vmaxF32 (t d a b : BitVec 6)
  /-- VMAX_BF16: Short-form BF16 lane maximum (R141). -/
  | vmaxBf16 (t d a b : BitVec 6)
  /-- VMAX_F16: Short-form FP16 lane maximum (R141). -/
  | vmaxF16 (t d a b : BitVec 6)
  /-- VMAX_I32: Short-form i32 signed lane maximum (R141). -/
  | vmaxI32 (t d a b : BitVec 6)
  /-- VDOT_BF16: Short-form exact BF16 dot product rounded once to FP32 (R145). -/
  | vdotBf16 (t d a b : BitVec 6)
  /-- VDOT_E4M3: Short-form E4M3 dot product rounded once to FP32 (R145). -/
  | vdotE4m3 (t d a b : BitVec 6)
  /-- VDOT_E5M2: Short-form E5M2 dot product rounded once to FP32 (R145). -/
  | vdotE5m2 (t d a b : BitVec 6)
  /-- VDOT_I8: Short-form i8 dot product as exact INT32 (R145). -/
  | vdotI8 (t d a b : BitVec 6)
  /-- VSUM_F32: Short-form FP32 horizontal sum into lane 0 (R146). -/
  | vsumF32 (t d a : BitVec 6)
  /-- VSUM_BF16: Short-form BF16 horizontal sum into lane 0 (R146). -/
  | vsumBf16 (t d a : BitVec 6)
  /-- VSUM_F16: Short-form FP16 horizontal sum into lane 0 (R146). -/
  | vsumF16 (t d a : BitVec 6)
  /-- VSUM_I32: Short-form i32 horizontal sum into lane 0 (R146). -/
  | vsumI32 (t d a : BitVec 6)
  /-- VABS_F32: Short-form FP32 lane absolute value (R142). -/
  | vabsF32 (t d a : BitVec 6)
  /-- VABS_BF16: Short-form BF16 lane absolute value (R142). -/
  | vabsBf16 (t d a : BitVec 6)
  /-- VABS_F16: Short-form FP16 lane absolute value (R142). -/
  | vabsF16 (t d a : BitVec 6)
  /-- VABS_I32: Short-form i32 lane absolute value (R142). -/
  | vabsI32 (t d a : BitVec 6)
  /-- VNEG_F32: Short-form FP32 lane negation (R142). -/
  | vnegF32 (t d a : BitVec 6)
  /-- VNEG_BF16: Short-form BF16 lane negation (R142). -/
  | vnegBf16 (t d a : BitVec 6)
  /-- VNEG_F16: Short-form FP16 lane negation (R142). -/
  | vnegF16 (t d a : BitVec 6)
  /-- VNEG_I32: Short-form i32 lane negation (R142). -/
  | vnegI32 (t d a : BitVec 6)
  /-- VSEL_8: Short-form 8-bit lane select by p0-p7 (R144). -/
  | vsel8 (t d a b : BitVec 6)
  /-- VSEL_16: Short-form 16-bit lane select by p0-p3 (R144). -/
  | vsel16 (t d a b : BitVec 6)
  /-- VSEL_32: Short-form 32-bit lane select by p0-p1 (R144). -/
  | vsel32 (t d a b : BitVec 6)
  /-- VSEL_64: Short-form 64-bit lane select by p0 (R144). -/
  | vsel64 (t d a b : BitVec 6)
  /-- VSPLAT_8: Short-form splat of 8-bit lane 0 to all lanes (R151). -/
  | vsplat8 (t d a : BitVec 6)
  /-- VSPLAT_16: Short-form splat of 16-bit lane 0 (R151). -/
  | vsplat16 (t d a : BitVec 6)
  /-- VSPLAT_32: Short-form splat of 32-bit lane 0 (R151). -/
  | vsplat32 (t d a : BitVec 6)
  /-- VSPLAT_64: Short-form splat of 64-bit lane 0 (R151). -/
  | vsplat64 (t d a : BitVec 6)
  /-- VRCPE_F32: Short-form FP32 reciprocal estimate (R147). -/
  | vrcpeF32 (t d a : BitVec 6)
  /-- VRCPE_F64: Short-form FP64 reciprocal estimate (R147). -/
  | vrcpeF64 (t d a : BitVec 6)
  /-- VRSQE_F32: Short-form FP32 reciprocal square root estimate (R147). -/
  | vrsqeF32 (t d a : BitVec 6)
  /-- VRSQE_F64: Short-form FP64 reciprocal square root estimate (R147). -/
  | vrsqeF64 (t d a : BitVec 6)
  /-- VEXP2_F32: Short-form FP32 bit-determined exp2 per lane (R147). -/
  | vexp2F32 (t d a : BitVec 6)
  /-- VDIV_F32: Short-form correctly rounded FP32 lane divide (R148). -/
  | vdivF32 (t d a b : BitVec 6)
  /-- VSCALE_F32: Short-form FP32 lane scale by 2^b (R148). -/
  | vscaleF32 (t d a b : BitVec 6)
  /-- VSCALE_BF16: Short-form BF16 lane scale by 2^b (R148). -/
  | vscaleBf16 (t d a b : BitVec 6)
  /-- VADD_F64: Short-form FP64 lane add (R140). -/
  | vaddF64 (t d a b : BitVec 6)
  /-- VSUB_F64: Short-form FP64 lane subtract (R140). -/
  | vsubF64 (t d a b : BitVec 6)
  /-- VMUL_F64: Short-form FP64 lane multiply (R140). -/
  | vmulF64 (t d a b : BitVec 6)
  /-- VADD_I16: Short-form i16 lane add (R140). -/
  | vaddI16 (t d a b : BitVec 6)
  /-- VSUB_I16: Short-form i16 lane subtract (R140). -/
  | vsubI16 (t d a b : BitVec 6)
  /-- VADD_I8: Short-form i8 lane add (R140). -/
  | vaddI8 (t d a b : BitVec 6)
  /-- VSUB_I8: Short-form i8 lane subtract (R140). -/
  | vsubI8 (t d a b : BitVec 6)
  /-- VADD_LONG: Long-form lane add with any lane type and rounding mode (R140). -/
  | vaddLong (t d a b : BitVec 6) (lt : BitVec 4) (rm : BitVec 3)
  /-- VSUB_LONG: Long-form lane subtract (R140). -/
  | vsubLong (t d a b : BitVec 6) (lt : BitVec 4) (rm : BitVec 3)
  /-- VMUL_LONG: Long-form lane multiply (R140). -/
  | vmulLong (t d a b : BitVec 6) (lt : BitVec 4) (rm : BitVec 3)
  /-- VFMA: Fused lane multiply-add x*y+z rounded once (R140). -/
  | vfma (t d a b c : BitVec 6) (lt : BitVec 4) (rm : BitVec 3)
  /-- VFMS: Fused lane z-x*y rounded once (R140). -/
  | vfms (t d a b c : BitVec 6) (lt : BitVec 4) (rm : BitVec 3)
  /-- VMIN_LONG: Long-form lane minimum (R141). -/
  | vminLong (t d a b : BitVec 6) (lt : BitVec 4)
  /-- VMAX_LONG: Long-form lane maximum (R141). -/
  | vmaxLong (t d a b : BitVec 6) (lt : BitVec 4)
  /-- VABS_LONG: Long-form lane absolute value (R142). -/
  | vabsLong (t d a : BitVec 6) (lt : BitVec 4)
  /-- VNEG_LONG: Long-form lane negation (R142). -/
  | vnegLong (t d a : BitVec 6) (lt : BitVec 4)
  /-- VCMP: Sets one predicate per lane from a lane comparison (R143). -/
  | vcmp (t d a b : BitVec 6) (lt : BitVec 4) (cc : BitVec 3)
  /-- VSEL_LONG: Long-form lane select by predicates (R144). -/
  | vselLong (t d a b : BitVec 6) (lt : BitVec 4)
  /-- VDOT_LONG: Long-form lane dot product with a rounding mode (R145). -/
  | vdotLong (t d a b : BitVec 6) (lt : BitVec 4) (rm : BitVec 3)
  /-- VSUM_LONG: Long-form horizontal lane sum (R146). -/
  | vsumLong (t d a : BitVec 6) (lt : BitVec 4) (rm : BitVec 3)
  /-- VRCPE_LONG: Long-form reciprocal estimate (R147). -/
  | vrcpeLong (t d a : BitVec 6) (lt : BitVec 4)
  /-- VRSQE_LONG: Long-form reciprocal square root estimate (R147). -/
  | vrsqeLong (t d a : BitVec 6) (lt : BitVec 4)
  /-- VEXP2_LONG: Long-form exp2 with the rounding mode applied to the final rounding (R147). -/
  | vexp2Long (t d a : BitVec 6) (lt : BitVec 4) (rm : BitVec 3)
  /-- VDIV_LONG: Long-form FP32 lane divide with a rounding mode (R148). -/
  | vdivLong (t d a b : BitVec 6) (lt : BitVec 4) (rm : BitVec 3)
  /-- VSCALE_LONG: Long-form lane scale by a power of two (R148). -/
  | vscaleLong (t d a b : BitVec 6) (lt : BitVec 4) (rm : BitVec 3)
  /-- VCVT: Widens the low lanes of a from type s to type t exactly (R149). -/
  | vcvt (t d a : BitVec 6) (lt st : BitVec 4)
  /-- VSHUF: Rearranges lanes of a by 4-bit selectors in b (R150). -/
  | vshuf (t d a b : BitVec 6) (lt : BitVec 4)
  /-- VPACK: Interleaves the low lanes of a and b (R151). -/
  | vpack (t d a b : BitVec 6) (lt : BitVec 4)
  /-- VUNPK: Separates even and odd lanes of a (R151). -/
  | vunpk (t d a : BitVec 6) (lt : BitVec 4)
  /-- VSPLAT_LONG: Long-form splat of lane 0 (R151). -/
  | vsplatLong (t d a : BitVec 6) (lt : BitVec 4)
  /-- DEQ: Writes the head payload of iN to d and consumes it (R154). -/
  | deq (t d a : BitVec 6)
  /-- PEEK: Writes the head payload of iN to d without consuming it (R154). -/
  | peek (t d a : BitVec 6)
  /-- SEND: Enqueues the value of a on oN with a fresh tag (R155). -/
  | send (t d a : BitVec 6)
  /-- FWD: Moves the head of iM to oN keeping its tag except class (R155). -/
  | fwd (t d a : BitVec 6)
  /-- TOSS: Consumes and discards the head of iN (R155). -/
  | toss (t a : BitVec 6)
  /-- MARK: Enqueues an end mark of rank k on oN (R156). -/
  | mark (t d b : BitVec 6)
  /-- GNEXT: Advances the strand's current generation modulo 16 (R157). -/
  | gnext (t : BitVec 6)
  /-- STEER_P0_P3: Sends the source to oT or oF by predicate p0-p3 (R158). -/
  | steerP0P3 (t d a b : BitVec 6) (k : BitVec 2)
  /-- STEER_P4_P7: Sends the source to oT or oF by predicate p4-p7 (R158). -/
  | steerP4P7 (t d a b : BitVec 6) (k : BitVec 2)
  /-- SELECT_P0_P3: Joins two arms consuming both heads and writing the one chosen by p0-p3 (R159). -/
  | selectP0P3 (t d a b : BitVec 6) (k : BitVec 2)
  /-- SELECT_P4_P7: Joins two arms consuming both heads and writing the one chosen by p4-p7 (R159). -/
  | selectP4P7 (t d a b : BitVec 6) (k : BitVec 2)
  /-- SELECT_MRG_P0_P3: Ordered merge taking only the head chosen by p0-p3 (R160). -/
  | selectMrgP0P3 (t d a b : BitVec 6) (k : BitVec 2)
  /-- SELECT_MRG_P4_P7: Ordered merge taking only the head chosen by p4-p7 (R160). -/
  | selectMrgP4P7 (t d a b : BitVec 6) (k : BitVec 2)
  /-- LD: Sends an 8-byte load of the word at a plus scaled offset (R163). -/
  | ld (t d a : BitVec 6) (i : BitVec 8)
  /-- ST: Sends an 8-byte store of d to the word at a plus scaled offset (R163). -/
  | st (t d a : BitVec 6) (i : BitVec 8)
  /-- LD_S: Sends a narrow sign-extending load of 1, 2 or 4 bytes (R163). -/
  | ldS (t d a s : BitVec 6)
  /-- LD_Z: Sends a narrow zero-extending load of 1, 2 or 4 bytes (R163). -/
  | ldZ (t d a s : BitVec 6)
  /-- ST_NARROW: Sends a narrow store of the low 1, 2 or 4 bytes of d (R163). -/
  | stNarrow (t d a s : BitVec 6)
  /-- ACAS: Atomic compare-and-swap on an MU word, returning the old value (R168). -/
  | acas (t d a b : BitVec 6)
  /-- LDG: Wave-ordered 8-byte load carrying SEQ, PRED and SUCC (R164). -/
  | ldg (t d a : BitVec 6) (seq pred succ : BitVec 8)
  /-- STG: Wave-ordered 8-byte store carrying SEQ, PRED and SUCC (R164). -/
  | stg (t d a : BitVec 6) (seq pred succ : BitVec 8)
  /-- TFULL: Sets the tile tag and every word of an operand-store buffer full (R166). -/
  | tfull (t a : BitVec 6)
  /-- TEMPTY: Sets the tile tag and every word of an operand-store buffer empty (R166). -/
  | tempty (t a : BitVec 6)
  /-- VOID: Marks a range empty, at once for bank words or at commit for global sectors (R167). -/
  | void (t a b : BitVec 6)
  /-- ACC: Contributes b to an AC word (R169). -/
  | acc (t a b : BitVec 6)
  /-- ACVT_GEN: Converts a space-relative value to a generic address (R172). -/
  | acvtGen (t d a b : BitVec 6)
  /-- ACVT_REL: Converts a generic address to its space-relative value (R172). -/
  | acvtRel (t d a b : BitVec 6)
  /-- AIN: Sets pk to whether a is a valid generic address in space n (R172). -/
  | ain (t : BitVec 6) (k : BitVec 3) (a b : BitVec 6)
  /-- AXCH: Atomic exchange on an MU word (R168). -/
  | axch (t d a b : BitVec 6)
  /-- AADD: Atomic integer add on an MU word (R168). -/
  | aadd (t d a b : BitVec 6)
  /-- AADDF: Atomic two-lane FP32 add on an MU word (R168). -/
  | aaddf (t d a b : BitVec 6)
  /-- AMIN: Atomic signed minimum (R168). -/
  | amin (t d a b : BitVec 6)
  /-- AMAX: Atomic signed maximum (R168). -/
  | amax (t d a b : BitVec 6)
  /-- AMINU: Atomic unsigned minimum (R168). -/
  | aminu (t d a b : BitVec 6)
  /-- AMAXU: Atomic unsigned maximum (R168). -/
  | amaxu (t d a b : BitVec 6)
  /-- AAND: Atomic AND (R168). -/
  | aand (t d a b : BitVec 6)
  /-- AOR: Atomic OR (R168). -/
  | aor (t d a b : BitVec 6)
  /-- FENCE_E: Fence of element scope (R173). -/
  | fenceE (t : BitVec 6)
  /-- FENCE_G: Fence of grove scope (R173). -/
  | fenceG (t : BitVec 6)
  /-- FENCE_T: Fence of task scope (R173). -/
  | fenceT (t : BitVec 6)
  /-- FENCE_M: Fence of module scope (R173). -/
  | fenceM (t : BitVec 6)
  /-- FENCE_D: Fence of domain scope (R173). -/
  | fenceD (t : BitVec 6)
  /-- BAR_ARRIVE: Arrives at a barrier word once earlier in-scope accesses are performed (R175). -/
  | barArrive (t a b : BitVec 6)
  /-- BAR_WAIT: Waits until the barrier word's phase differs from the recorded phase (R176). -/
  | barWait (t a b : BitVec 6)
  /-- AT: Schedules a time-base token on oN for when tb reaches a (R178). -/
  | atTb (t d a : BitVec 6)
  /-- EVSET: Sets an event bit of a context's event vector after module-scope accesses are performed (R315). -/
  | evset (t a : BitVec 6)
  /-- EVWAIT: Holds the sequencer until an event bit is 1 (R315). -/
  | evwait (t a : BitVec 6)
  /-- EVCLR: Clears an event bit (R315). -/
  | evclr (t a : BitVec 6)
  /-- CHKPT: Raises the last-checkpoint-passed value and marks readiness for a pending wave (R179). -/
  | chkpt (t : BitVec 6) (n : BitVec 14)
  /-- REFILL: Moves n packets from the context reserve into the task's balance (R194). -/
  | refill (t a : BitVec 6)
  /-- COMMIT: Records the user word and halts the lead sequencer (R195). -/
  | commit (t a : BitVec 6)
  /-- ABORT: Makes the task vanish with a user code (R196). -/
  | abort (t a : BitVec 6)
  /-- LCLD: Queues a load of one block of truth tables and wiring from a stream channel (R248). -/
  | lcld (t d a b : BitVec 6)
  /-- LCCTX: Queues a change of the active wiring context (R249). -/
  | lcctx (t a b : BitVec 6)
  /-- LCIN: Queues a write of a value to an input-slice register (R251). -/
  | lcin (t a b : BitVec 6)
  /-- LCEV: Queues a sweep of n groups of the active context (R250). -/
  | lcev (t a b : BitVec 6)
  /-- LCEV_REL: Queues a sweep that releases the intake batch when it retires (R250). -/
  | lcevRel (t a b : BitVec 6)
  /-- LCOUT: Queues a read of a slice, level entry or constant to d (R252). -/
  | lcout (t d a b : BitVec 6)
  /-- BPT: Transposes a as an 8x8 bit matrix (R253). -/
  | bpt (t d a : BitVec 6)
  /-- RACE_K: Arms a race round choosing the top k candidates (R289). -/
  | raceK (t d a b : BitVec 6)
  /-- PLACE: Requests the die placer to size expert strips from histogram words (R297). -/
  | place (t d a b : BitVec 6)
  /-- PLOAD: Starts a background preload of an image into an understory position (R264). -/
  | pload (t a b : BitVec 6)
  /-- PSWAP: Arms a plane swap at the next end mark of rank k or higher (R265). -/
  | pswap (t b : BitVec 6)
  /-- GCALL: Starts a region-wide grid call in exchange or push form and its freeze wave (R266). -/
  | gcall (t a b : BitVec 6)
  /-- GRET: Arms the return of the innermost grid call (R269). -/
  | gret (t a : BitVec 6)
  /-- SBIND: Writes an AG's staging base, channel, direction and sector flag (R225). -/
  | sbind (t a : BitVec 6) (ag : BitVec 9) (ch : BitVec 5) (inb sector : BitVec 1)
  /-- SPAT: Writes an AG's staging strides and counts (R225). -/
  | spat (t a b : BitVec 6) (ag : BitVec 9)
  /-- SGO: Queues an affine read or write stream on an AG (R226). -/
  | sgo (t : BitVec 6) (ag : BitVec 9) (k : BitVec 2) (push : BitVec 1) (pfifo : BitVec 4) (pop : BitVec 1) (qfifo : BitVec 4)
  /-- SWAIT: Holds the sequencer until every command queued on an AG has retired (R229). -/
  | swait (t : BitVec 6) (ag : BitVec 9)
  /-- SBAR: Holds the sequencer until every earlier stream command of the grove has retired (R229). -/
  | sbar (t : BitVec 6)
  /-- SCOPY: Queues a copy of b bytes from a to the staging base (R228). -/
  | scopy (t a b : BitVec 6) (ag : BitVec 9) (push : BitVec 1) (pfifo : BitVec 4) (pop : BitVec 1) (qfifo : BitVec 4)
  /-- SGATH: Queues a gather reading words at indices taken from iM (R227). -/
  | sgath (t : BitVec 6) (ag : BitVec 9) (ch : BitVec 5) (fwdend push : BitVec 1) (pfifo : BitVec 4) (pop : BitVec 1) (qfifo : BitVec 4)
  /-- SSCAT: Queues a scatter writing data tokens at indices taken from iM (R227). -/
  | sscat (t : BitVec 6) (ag : BitVec 9) (ch : BitVec 5) (push : BitVec 1) (pfifo : BitVec 4) (pop : BitVec 1) (qfifo : BitVec 4)
  /-- SISECT: Queues a sorted intersection on an AG pair (R231). -/
  | sisect (t d : BitVec 6) (ag : BitVec 9) (push : BitVec 1) (pfifo : BitVec 4) (pop : BitVec 1) (qfifo : BitVec 4)
  /-- SMERGE: Queues a sorted merge on an AG pair (R231). -/
  | smerge (t d : BitVec 6) (ag : BitVec 9) (push : BitVec 1) (pfifo : BitVec 4) (pop : BitVec 1) (qfifo : BitVec 4)
  /-- B: Branches the sequencer PC by a signed word offset (R132). -/
  | branch (t : BitVec 6) (o : BitVec 20)
  /-- CALL: Saves the return address in a15 and branches (R132). -/
  | call (t : BitVec 6) (o : BitVec 20)
  /-- NOP: Does nothing (R132). -/
  | nop (t : BitVec 6)
  /-- HALT: Halts the issuing strand or sequencer (R133). -/
  | halt (t : BitVec 6)
  /-- TRAP: Raises a software trap at task level or makes a monitor call at supervisor level (R313). -/
  | trap (t n : BitVec 6)
  /-- RET: Sets the sequencer PC to the value of a (R132). -/
  | ret (t a : BitVec 6)
  /-- WAIT: Holds the sequencer until the time base reaches a (R134). -/
  | wait (t a : BitVec 6)
  /-- LOOP: Decrements a and sets pk to whether it is nonzero (R132). -/
  | loopDec (t : BitVec 6) (k : BitVec 3) (a : BitVec 6)
  /-- SRET: Pops the head trap record and returns to the next record or to task level, resuming the unit (R310). -/
  | sret (t : BitVec 6)
  /-- MFSR: Reads system register n into d (R314). -/
  | mfsr (t d n : BitVec 6)
  /-- MTSR: Writes a into system register n (R314). -/
  | mtsr (t n a : BitVec 6)
  /-- TLBINV: Invalidates TLB entries and repatches extents covering an address across the region (R349). -/
  | tlbinv (t a : BitVec 6)
  /-- TLBINVA: Invalidates every TLB entry of the context and repatches every extent of the region (R349). -/
  | tlbinva (t : BitVec 6)
  /-- AGPAUSE: Pauses an AG at its next burst boundary (R350). -/
  | agpause (t a : BitVec 6)
  /-- AGPATCH: Rewalks an AG's extents and releases an agpause pause (R350). -/
  | agpatch (t a : BitVec 6)
  /-- FLTACK: Frees a fault record (R351). -/
  | fltack (t a : BitVec 6)
  /-- ILLEGAL_WORD: An illegal word selected or reached stops the unit and raises a class-0 cause (R115). -/
  | illegalWord (detail : BitVec 6)
  /-- SKIPPED_WORD: A sequencer word whose guard fails is skipped at no cost (R24). -/
  | skippedWord
  /-- TOKEN_HOP: A queue head moves to the next hop queue, branch buffers or window when room or credit exists (R93). -/
  | tokenHop (e : Nat) (q : HopQ) (parityBad : Bool)
  /-- TOKEN_DELIVER: A token at its destination router is appended to its inbound FIFO or marker place (R93). -/
  | tokenDeliver (e : Nat) (q : HopQ)
  /-- REQUEST_ADMIT: A memory request at its destination is admitted into the port queue when it has room (R93). -/
  | requestAdmit (r : Nat)
  /-- REQUEST_SERVE: An eligible queued request is served at the word or sector, or deferred (R78). -/
  | requestServe (r : Nat) (macBad : Bool)
  /-- DEFERRED_READ_WAKE: The oldest deferred read on a word that has become full takes its value (R79). -/
  | deferredReadWake (r : Nat)
  /-- REQUEST_REPLY: A load, atomic or wait reply arrives, releasing its pending destination or raising a target cause (R162). -/
  | requestReply (r : Nat)
  /-- WAVE_REQUEST_RELEASE: A held wave-ordered request is sent once its PRED request has been performed (R98). -/
  | waveRequestRelease (r : Nat)
  /-- FENCE_COMPLETE: A fence leaves the strand's fence set once every earlier access of its scope is performed (R101). -/
  | fenceComplete (u : UnitId) (n : Nat)
  /-- AT_EMIT: A pending at enqueues its token when the time base reaches its target (R178). -/
  | atEmit (e n : Nat)
  /-- SEQUENCER_WAIT_EXPIRE: A waiting sequencer resumes when tb reaches the target (R134). -/
  | sequencerWaitExpire (g : Nat)
  /-- ALLOWANCE_RECALL: Unspent grove allowances are recalled into the central count between issues (R187). -/
  | allowanceRecall (g : Nat)
  /-- DRY: A refused issue not covered by top-up makes the task dry, writes a dry record and raises a dry trap (R189). -/
  | dry (tag : Nat)
  /-- GRACE_EXPIRED: The grace window of a dry task expires and the task vanishes (R191). -/
  | graceExpired (tag : Nat)
  /-- BOOST_FALLBACK: The running boost charge reaches the allowance and the task continues at standard draught (R202). -/
  | boostFallback (tag : Nat)
  /-- CASK_POUR: A packet is poured into a grove's cask, and the casks are isolated after the last one (R398). -/
  | caskPour (g : Nat)
  /-- POUR_GRANT: A waiting pour is granted within the module draw limit (R400). -/
  | pourGrant (drawOk : Bool)
  /-- COMMIT_TASK: M11: all tentative state is published at once, refund computed and commit record written (R104). -/
  | commitTask (tag : Nat)
  /-- VANISH: M12: tentative state is discarded, banks reset, refund and vanish record written, dependents vanish (R198). -/
  | vanish (tag : Nat)
  /-- BANK_HANDOVER: M13: a HAND 2 bank passes to the next load once its mark is enqueued and its port is idle (R86). -/
  | bankHandover (e bank : Nat)
  /-- MATRIX_INTAKE: The matrix node takes one token from ACH into the A buffer (R214). -/
  | matrixIntake (e : Nat)
  /-- MATRIX_TILE_STEP: A matrix tile step starts when its buffers are ready and its cost available (R215). -/
  | matrixTileStep (e : Nat)
  /-- MATRIX_TILE_WRITE: The node writes or enqueues the finished output tile (R216). -/
  | matrixTileWrite (e : Nat)
  /-- CONVERTER_TOKEN: The converter narrows input elements and enqueues an output token (R219). -/
  | converterToken (e : Nat)
  /-- CORNER_TURN_COLLECT: The corner-turn node collects an input token into its block (R222). -/
  | cornerTurnCollect (e : Nat)
  /-- CORNER_TURN_EMIT: The corner-turn node emits its transposed block (R222). -/
  | cornerTurnEmit (e : Nat)
  /-- AG_ACCESS: M7: an AG produces one access of its active command, charging a burst at its start (R226). -/
  | agAccess (g ag : Nat)
  /-- STREAM_COMMAND_RETIRE: A stream command retires and pushes its sync FIFO token (R223). -/
  | streamCommandRetire (g ag : Nat)
  /-- SPARSE_SET_STEP: The sparse set unit takes keys and emits common or merged keys (R231). -/
  | sparseSetStep (g ag : Nat)
  /-- LC_INTAKE: A lookup-cell intake takes one token into the next slice (R245). -/
  | lcIntake (e : Nat) (b : Bool)
  /-- LC_LOAD_BLOCK: The array consumes a token of a queued lcld block (R248). -/
  | lcLoadBlock (e : Nat)
  /-- LC_SWEEP: A queued sweep starts when its batch is complete and its cost available (R242). -/
  | lcSweep (e : Nat)
  /-- LC_QUEUE_OP: The array executes a queued lcctx, lcin or lcout operation (R246). -/
  | lcQueueOp (e : Nat)
  /-- RACE_INTAKE: The race unit takes a key token as candidates (R286). -/
  | raceIntake (e : Nat) (b : Bool)
  /-- RACE_RELEASE: The race round releases its winners when every intake heads with an end mark (R288). -/
  | raceRelease (e : Nat)
  /-- PLACER_SIZING: The placer reads histogram words, sizes strips and writes FIRST and NSTRIP and the status (R295). -/
  | placerSizing (g : Nat)
  /-- PLACE_PRELOAD: The placer preloads a template plane into an expert strip's element (R296). -/
  | placePreload (g : Nat)
  /-- PLOAD_COMPLETE: A background preload ends and fills its understory position or faults (R264). -/
  | ploadComplete (e pos : Nat)
  /-- PLANE_SWAP: M10: an armed element swaps planes after passing its end mark once drained (R265). -/
  | planeSwap (e : Nat)
  /-- LOAD_CHANGE: M10 for a change of load once every element and sequencer has drained (R103). -/
  | loadChange (tag : Nat)
  /-- FREEZE_POINT: An element reaches its freeze point and enqueues freeze markers (R267). -/
  | freezePoint (e : Nat)
  /-- GRID_CALL_SWITCH: The switch moves ARG tokens, saves frozen frames and activates the callee (R268). -/
  | gridCallSwitch (tag : Nat)
  /-- GRID_RETURN: The armed return thaws the caller, keeps RES tokens and pops the understory (R269). -/
  | gridReturn (tag : Nat)
  /-- WAVE_ENTRY_POINT: A unit reaches its checkpoint or drain entry point and enqueues markers (R365). -/
  | waveEntryPoint (u : UnitId)
  /-- WAVE_POINT: An element with markers at every bound channel reaches its wave point (R366). -/
  | wavePoint (e : Nat)
  /-- WAVE_COMPLETE: The checkpoint or drain wave completes across the region (R367). -/
  | waveComplete (tag : Nat)
  /-- SUSPENSION: After the last save item is written the task's groves are released and a suspension record written (R372). -/
  | suspension (tag : Nat)
  /-- TASK_RESUME: A suspended task given a region is restored, charged a pour fee and resumed (R373). -/
  | taskResume (tag : Nat)
  /-- TAG_SCRUB: The scrubber rewrites a finished task's sectors and frees its tag (R374). -/
  | tagScrub (tag : Nat)
  /-- FORK_STALL: A fork router holding a full branch buffer for a watchdog interval raises fork-stall (R63). -/
  | forkStall (e : Nat) (cls : BitVec 6)
  /-- PROGRESS_STALL: A region with no progress for a watchdog interval raises progress-stall (R63). -/
  | progressStall (tag : Nat)
  /-- BARRIER_SHORT: A barrier wait deferred for a watchdog interval raises barrier-short (R177). -/
  | barrierShort (r : Nat)
  /-- TRAP_ENTRY: A task-level sequencer enters the supervisor handler for the head trap record (R308). -/
  | trapEntry (g : Nat)
  /-- TABLE_WALK: A TLB miss walks the context's tables and installs the leaf or faults (R340). -/
  | tableWalk (r victim : Nat)
  /-- SLOT_TABLE_READ: The scheduler reads the slot table, staging newly valid entries and measuring images (R320). -/
  | slotTableRead (p n : Nat)
  /-- SLOT_START: An entry's slot start arrives and the overrun policy and launch checks apply (R321). -/
  | slotStart (p n : Nat)
  /-- LAUNCH: A launch given a region takes budget, tag, configuration and pour fee and starts (R324). -/
  | launch (p n : Nat)
  /-- TIME_BASE_ADJUST: An IEEE 1588 correction slews or steps the time base, skipping passed slot starts (R319). -/
  | timeBaseAdjust (offset : Int)
  /-- HOST_WRITE: A host write is performed sector by sector from outside any task (R382). -/
  | hostWrite (vf addr : Nat) (data : List (BitVec 8)) (ide : Bool)
  /-- HOST_READ: A host read is performed after earlier writes from the same requester (R382). -/
  | hostRead (vf addr len : Nat) (ide : Bool)
  /-- TDI_STATE_CHANGE: A TDISP state change of a TDI alters BAR access and DMA rights (R381). -/
  | tdiStateChange (p : Nat) (st : TdiState)
  /-- IDE_KEY_PROGRAM: IDE_KM programs IDE stream keys over an SPDM session (R379). -/
  | ideKeyProgram (stream key : Nat)
  /-- GET_MEASUREMENTS: The SPDM responder returns measurement digests or the raw log (R384). -/
  | getMeasurements (index : Nat) (rawLog : Bool)
  /-- KEY_EXCHANGE: The SPDM responder establishes a session key (R384). -/
  | keyExchange (peer : Nat)
  /-- KEY_UPDATE: A Berovo port's keys and salts are replaced (R390). -/
  | keyUpdate (port : Nat) (tx : Bool) (key salt : Nat)
  /-- BEROVO_FRAME_RECEIVE: A Berovo frame arrives and is authenticated, forwarded or discarded (R390). -/
  | berovoFrameReceive (port : Nat) (header : BitVec 128) (payload : List (BitVec 128)) (tagOk : Bool)
  /-- CREDIT_RETURN: A receiver returns VC credit to its sender on VC 3 (R391). -/
  | creditReturn (port vc beats : Nat)
  /-- REMOTE_REQUEST: A request from another module's task is served, taking a proxy tag for an SA write (R393). -/
  | remoteRequest (src serial rid pa size : Nat) (op : RemoteOp) (how : RemoteAccess)
  /-- REMOTE_REPLY: A reply from another module is delivered or discarded (R393). -/
  | remoteReply (serial rid : Nat) (words : List (Option Word)) (cause : Nat)
  /-- RESOLVE: A resolve makes every sector under a proxy tag full or empty (R394). -/
  | resolve (src serial : Nat) (commit : Bool)
  /-- RESOLVE_ACK: A target's acknowledgement of a resolve arrives; the last lets the commit record be written (R394). -/
  | resolveAck (tag target : Nat)
  /-- REMOTE_ACCESS_TIMEOUT: A remote access with no reply in 1 ms raises remote module unreachable (R395). -/
  | remoteAccessTimeout (r : Nat)
  /-- SENSOR_SAMPLE: A sensor sample is taken, applying quarantine, substitution and draught caps (R403). -/
  | sensorSample (g : Nat) (kind : SensorKind) (code : Nat)
  /-- ELEMENT_GATE: An element at rest is gated when its predictor shows break-even (R402). -/
  | elementGate (e : Nat)
  /-- ELEMENT_WAKE: A gated element wakes after an arrival (R402). -/
  | elementWake (e : Nat)
  /-- GUARD_SUPPLY_SHORTFALL: The guard supply cannot cover a region, raising 0x1C7 and vanishing its tasks (R399). -/
  | guardSupplyShortfall (g : Nat)
  /-- SRAM_SOFT_ERROR: An uncorrectable element SRAM error raises 0x1C8 and retires the grove (R410). -/
  | sramSoftError (g : Nat)
  /-- RESET: The module runs its boot stages from power-on to ready (R406). -/
  | reset (boot : BootInput)
  /-- FEATURE_ACK: A write to ACK enables the acknowledged features and closes negotiation (R409). -/
  | featureAck (lo hi : Word)
  /-- FIRMWARE_UPDATE: A firmware image is written to the inactive slot, verified and marked active (R408). -/
  | firmwareUpdate (image : Firmware)
  /-- SUSPEND_REQUEST: SUSP OP 1 requests suspension of the grove's task and arms the wave (R363). -/
  | suspendRequest (g : Nat)
  /-- END_SUSPENDED_TASK: SUSP OP 2 ends the suspended task with the given tag (R363). -/
  | endSuspendedTask (g tag : Nat)
  /-- REGISTER_WRITE: A write to a system or device register with no row of its own (R303). -/
  | registerWrite (r : DevReg) (v : Word)
  /-- MONITOR_CALL_FEATURES: Monitor call 0 or 1 answers the enabled feature bits (R412). -/
  | monitorCallFeatures (g : Nat)
  /-- MONITOR_CALL_GROVE_MAP: Monitor call 2 answers a grove-map word (R412). -/
  | monitorCallGroveMap (g : Nat)
  /-- MONITOR_CALL_GUARD_DROPS: Monitor call 3 answers the partition's supervisor guard drops (R412). -/
  | monitorCallGuardDrops (g : Nat)
  /-- MONITOR_CALL_REPLACE_IMAGE: Monitor call 4 replaces the grove's supervisor image once no task holds it (R412). -/
  | monitorCallReplaceImage (g : Nat)
  /-- MONITOR_CALL_INVALID: Monitor calls 5-63 answer all ones with no effect (R412). -/
  | monitorCallInvalid (g : Nat)
  /-- ZWITEX_TIME: IEEE 1588 time arrives over Zwitex (R413). -/
  | zwitexTime (t : Nat)
  /-- ZWITEX_MODULE_NUMBER: Zwitex assigns the module number (R413). -/
  | zwitexModuleNumber (n : Nat)
  /-- ZWITEX_HOP_TABLE: Zwitex writes the domain hop table (R392). -/
  | zwitexHopTable (m hops : Nat)
  /-- ZWITEX_FIRMWARE_TRANSFER: Zwitex transfers a firmware image (R413). -/
  | zwitexFirmwareTransfer (image : Firmware)
  /-- ZWITEX_EVENT_LOG_READ: The operator reads the event log whole (R411). -/
  | zwitexEventLogRead
  /-- ZWITEX_QUARANTINE_CLEAR: A sensor quarantine is cleared (R413). -/
  | zwitexQuarantineClear (g : Nat) (kind : SensorKind)
  /-- ZWITEX_PARTITION_COMMAND: A partition command sets rectangle, granules, keys, slot table or service mode between tasks (R413). -/
  | zwitexPartitionCommand (c : PartitionCommand)
  /-- ZWITEX_LOST_MODULE: A source module is declared lost and its proxies resolve empty (R394). -/
  | zwitexLostModule (m : Nat)
  /-- GROVE_RESTORE: A signed operator command with passing self-test sets a retired grove back in service (R410). -/
  | groveRestore (g : Nat) (signed selfTest : Bool)
  /-- LINK_FAILURE: A Berovo link fails, so that no route to some module is up and traffic goes around the failed link (R395). -/
  | linkFailure (port : Nat)
  deriving DecidableEq, Repr

end Sys2Proof
end

