-- ==== Sys2Proof/Decode.lean ====
section
/-! DEFINITION. Encoder and decoder of the instruction words (R105 to R114), and the word fields they use. A word is assembled as T * 2^26 + OP * 2^20 + d * 2^14 + a * 2^8 + b * 2^2 + m, as the worked encodings of the encoding chapter state. -/

namespace Sys2Proof

/-- Bits lo to lo + len - 1 of a word, as an unsigned number. -/
def fld (w : IWord) (lo len : Nat) : Nat := w.toNat / 2 ^ lo % 2 ^ len

/-- The same field as a bit vector. -/
def fb (len : Nat) (w : IWord) (lo : Nat) : BitVec len := BitVec.ofNat len (w.toNat / 2 ^ lo)

/-- F-RRR and F-L first words (R105). -/
def asm (t op d a b m : Nat) : IWord :=
  BitVec.ofNat 32 (t * 2 ^ 26 + op * 2 ^ 20 + d * 2 ^ 14 + a * 2 ^ 8 + b * 2 ^ 2 + m)

/-- F-RRI words (R105). -/
def asmRRI (t op d a imm : Nat) : IWord :=
  BitVec.ofNat 32 (t * 2 ^ 26 + op * 2 ^ 20 + d * 2 ^ 14 + a * 2 ^ 8 + imm)

/-- F-RI words (R105). -/
def asmRI (t op d imm : Nat) : IWord :=
  BitVec.ofNat 32 (t * 2 ^ 26 + op * 2 ^ 20 + d * 2 ^ 14 + imm)

/-- F-J words (R105). -/
def asmJ (t op offset : Nat) : IWord :=
  BitVec.ofNat 32 (t * 2 ^ 26 + op * 2 ^ 20 + offset)

/-- The continuation word of a packed-lane long form (R109). -/
def asmV (vop lt rm cc st cx : Nat) : IWord :=
  BitVec.ofNat 32 (63 * 2 ^ 26 + vop * 2 ^ 21 + lt * 2 ^ 17 + rm * 2 ^ 14 + cc * 2 ^ 11 + st * 2 ^ 7 + cx)

/-- The continuation word of ldg and stg (R97). -/
def asmW (seq pred succ : Nat) : IWord :=
  BitVec.ofNat 32 (63 * 2 ^ 26 + seq * 2 ^ 16 + pred * 2 ^ 8 + succ)

/-- PUSH, PFIFO, POP and QFIFO as extension bits 25 to 16 (R109). -/
def flagBits (push pfifo pop qfifo : Nat) : Nat := push * 512 + pfifo * 32 + pop * 16 + qfifo

/-- The continuation word of a stream command (R109). -/
def asmS (flags agid sfld : Nat) : IWord :=
  BitVec.ofNat 32 (63 * 2 ^ 26 + flags * 2 ^ 16 + agid * 2 ^ 7 + sfld)

/-- Why a bit pattern is no instruction, by the row of R115 it falls under. -/
inductive Reject where
  /-- OP 0x00, 0x37, 0x3B or 0x3F (detail 0). -/
  | illegalOpcode
  /-- An unassigned minor, function, condition or shift kind (detail 1). -/
  | unassigned
  /-- A nonzero unused or reserved field (detail 4). -/
  | reservedField
  /-- T = 63 met as a first word (detail 6). -/
  | continuationFirst
  /-- An F-L first word without a continuation word (detail 6). -/
  | noContinuation
  /-- A packed-lane VOP of 23 to 31 (detail 7). -/
  | illegalVop
  /-- A fence scope above 4 (detail 8). -/
  | fenceScope
  /-- The d field of lcev above 1 (detail 8). -/
  | lcevField
  /-- Fewer bytes than a word. -/
  | truncated
  deriving DecidableEq, Repr

/-- The class-0 detail of a reject (R115). -/
def Reject.detail : Reject → Nat
  | .illegalOpcode => 0
  | .unassigned => 1
  | .reservedField => 4
  | .continuationFirst => 6
  | .noContinuation => 6
  | .illegalVop => 7
  | .fenceScope => 8
  | .lcevField => 8
  | .truncated => 6

/-- One-word rows of OP 0x00 to 0x0F, unused fields ignored (R111, R112). -/
def looseScalar (w0 : IWord) : Except Reject Instr :=
  match fld w0 20 6 with
  | 0x01 =>
    match fld w0 0 2 with
    | 0 => .ok (.add (fb 6 w0 26) (fb 6 w0 14) (fb 6 w0 8) (fb 6 w0 2))
    | 1 => .ok (.sub (fb 6 w0 26) (fb 6 w0 14) (fb 6 w0 8) (fb 6 w0 2))
    | 2 => .ok (.mul (fb 6 w0 26) (fb 6 w0 14) (fb 6 w0 8) (fb 6 w0 2))
    | _ => .ok (.mulh (fb 6 w0 26) (fb 6 w0 14) (fb 6 w0 8) (fb 6 w0 2))
  | 0x02 =>
    match fld w0 0 2 with
    | 0 => .ok (.mulhu (fb 6 w0 26) (fb 6 w0 14) (fb 6 w0 8) (fb 6 w0 2))
    | 1 => .ok (.div (fb 6 w0 26) (fb 6 w0 14) (fb 6 w0 8) (fb 6 w0 2))
    | 2 => .ok (.rem (fb 6 w0 26) (fb 6 w0 14) (fb 6 w0 8) (fb 6 w0 2))
    | _ => .ok (.rotl (fb 6 w0 26) (fb 6 w0 14) (fb 6 w0 8) (fb 6 w0 2))
  | 0x03 =>
    match fld w0 0 2 with
    | 0 => .ok (.and (fb 6 w0 26) (fb 6 w0 14) (fb 6 w0 8) (fb 6 w0 2))
    | 1 => .ok (.or (fb 6 w0 26) (fb 6 w0 14) (fb 6 w0 8) (fb 6 w0 2))
    | 2 => .ok (.xor (fb 6 w0 26) (fb 6 w0 14) (fb 6 w0 8) (fb 6 w0 2))
    | _ => .ok (.andn (fb 6 w0 26) (fb 6 w0 14) (fb 6 w0 8) (fb 6 w0 2))
  | 0x04 =>
    match fld w0 0 2 with
    | 0 => .ok (.orn (fb 6 w0 26) (fb 6 w0 14) (fb 6 w0 8) (fb 6 w0 2))
    | 1 => .ok (.shl (fb 6 w0 26) (fb 6 w0 14) (fb 6 w0 8) (fb 6 w0 2))
    | 2 => .ok (.shr (fb 6 w0 26) (fb 6 w0 14) (fb 6 w0 8) (fb 6 w0 2))
    | _ => .ok (.sar (fb 6 w0 26) (fb 6 w0 14) (fb 6 w0 8) (fb 6 w0 2))
  | 0x05 =>
    match fld w0 0 2 with
    | 0 => .ok (.min (fb 6 w0 26) (fb 6 w0 14) (fb 6 w0 8) (fb 6 w0 2))
    | 1 => .ok (.max (fb 6 w0 26) (fb 6 w0 14) (fb 6 w0 8) (fb 6 w0 2))
    | 2 => .ok (.minu (fb 6 w0 26) (fb 6 w0 14) (fb 6 w0 8) (fb 6 w0 2))
    | _ => .ok (.maxu (fb 6 w0 26) (fb 6 w0 14) (fb 6 w0 8) (fb 6 w0 2))
  | 0x06 =>
    match fld w0 0 2 with
    | 0 => .ok (.bfx (fb 6 w0 26) (fb 6 w0 14) (fb 6 w0 8) (fb 6 w0 2))
    | 1 => .ok (.bfi (fb 6 w0 26) (fb 6 w0 14) (fb 6 w0 8) (fb 6 w0 2))
    | _ => .error .unassigned
  | 0x07 =>
    if fld w0 0 2 = 0 then
      match fld w0 2 6 with
      | 0 => .ok (.mov (fb 6 w0 26) (fb 6 w0 14) (fb 6 w0 8))
      | 1 => .ok (.abs (fb 6 w0 26) (fb 6 w0 14) (fb 6 w0 8))
      | 2 => .ok (.clz (fb 6 w0 26) (fb 6 w0 14) (fb 6 w0 8))
      | 3 => .ok (.ctz (fb 6 w0 26) (fb 6 w0 14) (fb 6 w0 8))
      | 4 => .ok (.popc (fb 6 w0 26) (fb 6 w0 14) (fb 6 w0 8))
      | _ => .error .unassigned
    else .error .unassigned
  | 0x08 =>
    .ok (.selP0P3 (fb 6 w0 26) (fb 6 w0 14) (fb 6 w0 8) (fb 6 w0 2) (fb 2 w0 0))
  | 0x09 =>
    .ok (.selP4P7 (fb 6 w0 26) (fb 6 w0 14) (fb 6 w0 8) (fb 6 w0 2) (fb 2 w0 0))
  | 0x0A =>
    match fld w0 0 2 with
    | 0 => if fld w0 17 3 < 6 then .ok (.cmp (fb 6 w0 26) (fb 3 w0 17) (fb 3 w0 14) (fb 6 w0 8) (fb 6 w0 2)) else .error .unassigned
    | 1 =>
      match fld w0 17 3 with
      | 0 => .ok (.pand (fb 6 w0 26) (fb 3 w0 14) (fb 3 w0 8) (fb 3 w0 2))
      | 1 => .ok (.por (fb 6 w0 26) (fb 3 w0 14) (fb 3 w0 8) (fb 3 w0 2))
      | 2 => .ok (.pxor (fb 6 w0 26) (fb 3 w0 14) (fb 3 w0 8) (fb 3 w0 2))
      | 3 => .ok (.pnot (fb 6 w0 26) (fb 3 w0 14) (fb 3 w0 8))
      | 4 => .ok (.pset (fb 6 w0 26) (fb 3 w0 14) (fb 1 w0 2))
      | 5 => .ok (.pmov (fb 6 w0 26) (fb 3 w0 14) (fb 6 w0 8))
      | _ => .error .unassigned
    | _ => .error .unassigned
  | 0x0B =>
    if fld w0 17 3 < 6 then .ok (.cmpi (fb 6 w0 26) (fb 3 w0 17) (fb 3 w0 14) (fb 6 w0 8) (fb 8 w0 0)) else .error .unassigned
  | 0x0C =>
    .ok (.addi (fb 6 w0 26) (fb 6 w0 14) (fb 6 w0 8) (fb 8 w0 0))
  | 0x0D =>
    match fld w0 6 2 with
    | 0 => .ok (.shli (fb 6 w0 26) (fb 6 w0 14) (fb 6 w0 8) (fb 6 w0 0))
    | 1 => .ok (.shri (fb 6 w0 26) (fb 6 w0 14) (fb 6 w0 8) (fb 6 w0 0))
    | 2 => .ok (.sari (fb 6 w0 26) (fb 6 w0 14) (fb 6 w0 8) (fb 6 w0 0))
    | _ => .ok (.extend (fb 6 w0 26) (fb 6 w0 14) (fb 6 w0 8) (fb 6 w0 0))
  | 0x0E =>
    .ok (.movi (fb 6 w0 26) (fb 6 w0 14) (fb 14 w0 0))
  | 0x0F =>
    .ok (.movh (fb 6 w0 26) (fb 6 w0 14) (fb 14 w0 0))
  | _ => .error .illegalOpcode

/-- Packed-lane short forms, OP 0x10 to 0x1E (R113). -/
def looseLane (w0 : IWord) : Except Reject Instr :=
  match fld w0 20 6 with
  | 0x10 =>
    match fld w0 0 2 with
    | 0 => .ok (.vaddF32 (fb 6 w0 26) (fb 6 w0 14) (fb 6 w0 8) (fb 6 w0 2))
    | 1 => .ok (.vaddBf16 (fb 6 w0 26) (fb 6 w0 14) (fb 6 w0 8) (fb 6 w0 2))
    | 2 => .ok (.vaddF16 (fb 6 w0 26) (fb 6 w0 14) (fb 6 w0 8) (fb 6 w0 2))
    | _ => .ok (.vaddI32 (fb 6 w0 26) (fb 6 w0 14) (fb 6 w0 8) (fb 6 w0 2))
  | 0x11 =>
    match fld w0 0 2 with
    | 0 => .ok (.vsubF32 (fb 6 w0 26) (fb 6 w0 14) (fb 6 w0 8) (fb 6 w0 2))
    | 1 => .ok (.vsubBf16 (fb 6 w0 26) (fb 6 w0 14) (fb 6 w0 8) (fb 6 w0 2))
    | 2 => .ok (.vsubF16 (fb 6 w0 26) (fb 6 w0 14) (fb 6 w0 8) (fb 6 w0 2))
    | _ => .ok (.vsubI32 (fb 6 w0 26) (fb 6 w0 14) (fb 6 w0 8) (fb 6 w0 2))
  | 0x12 =>
    match fld w0 0 2 with
    | 0 => .ok (.vmulF32 (fb 6 w0 26) (fb 6 w0 14) (fb 6 w0 8) (fb 6 w0 2))
    | 1 => .ok (.vmulBf16 (fb 6 w0 26) (fb 6 w0 14) (fb 6 w0 8) (fb 6 w0 2))
    | 2 => .ok (.vmulF16 (fb 6 w0 26) (fb 6 w0 14) (fb 6 w0 8) (fb 6 w0 2))
    | _ => .ok (.vmulI32 (fb 6 w0 26) (fb 6 w0 14) (fb 6 w0 8) (fb 6 w0 2))
  | 0x13 =>
    match fld w0 0 2 with
    | 0 => .ok (.vminF32 (fb 6 w0 26) (fb 6 w0 14) (fb 6 w0 8) (fb 6 w0 2))
    | 1 => .ok (.vminBf16 (fb 6 w0 26) (fb 6 w0 14) (fb 6 w0 8) (fb 6 w0 2))
    | 2 => .ok (.vminF16 (fb 6 w0 26) (fb 6 w0 14) (fb 6 w0 8) (fb 6 w0 2))
    | _ => .ok (.vminI32 (fb 6 w0 26) (fb 6 w0 14) (fb 6 w0 8) (fb 6 w0 2))
  | 0x14 =>
    match fld w0 0 2 with
    | 0 => .ok (.vmaxF32 (fb 6 w0 26) (fb 6 w0 14) (fb 6 w0 8) (fb 6 w0 2))
    | 1 => .ok (.vmaxBf16 (fb 6 w0 26) (fb 6 w0 14) (fb 6 w0 8) (fb 6 w0 2))
    | 2 => .ok (.vmaxF16 (fb 6 w0 26) (fb 6 w0 14) (fb 6 w0 8) (fb 6 w0 2))
    | _ => .ok (.vmaxI32 (fb 6 w0 26) (fb 6 w0 14) (fb 6 w0 8) (fb 6 w0 2))
  | 0x15 =>
    match fld w0 0 2 with
    | 0 => .ok (.vdotBf16 (fb 6 w0 26) (fb 6 w0 14) (fb 6 w0 8) (fb 6 w0 2))
    | 1 => .ok (.vdotE4m3 (fb 6 w0 26) (fb 6 w0 14) (fb 6 w0 8) (fb 6 w0 2))
    | 2 => .ok (.vdotE5m2 (fb 6 w0 26) (fb 6 w0 14) (fb 6 w0 8) (fb 6 w0 2))
    | _ => .ok (.vdotI8 (fb 6 w0 26) (fb 6 w0 14) (fb 6 w0 8) (fb 6 w0 2))
  | 0x16 =>
    match fld w0 0 2 with
    | 0 => .ok (.vsumF32 (fb 6 w0 26) (fb 6 w0 14) (fb 6 w0 8))
    | 1 => .ok (.vsumBf16 (fb 6 w0 26) (fb 6 w0 14) (fb 6 w0 8))
    | 2 => .ok (.vsumF16 (fb 6 w0 26) (fb 6 w0 14) (fb 6 w0 8))
    | _ => .ok (.vsumI32 (fb 6 w0 26) (fb 6 w0 14) (fb 6 w0 8))
  | 0x17 =>
    match fld w0 0 2 with
    | 0 => .ok (.vabsF32 (fb 6 w0 26) (fb 6 w0 14) (fb 6 w0 8))
    | 1 => .ok (.vabsBf16 (fb 6 w0 26) (fb 6 w0 14) (fb 6 w0 8))
    | 2 => .ok (.vabsF16 (fb 6 w0 26) (fb 6 w0 14) (fb 6 w0 8))
    | _ => .ok (.vabsI32 (fb 6 w0 26) (fb 6 w0 14) (fb 6 w0 8))
  | 0x18 =>
    match fld w0 0 2 with
    | 0 => .ok (.vnegF32 (fb 6 w0 26) (fb 6 w0 14) (fb 6 w0 8))
    | 1 => .ok (.vnegBf16 (fb 6 w0 26) (fb 6 w0 14) (fb 6 w0 8))
    | 2 => .ok (.vnegF16 (fb 6 w0 26) (fb 6 w0 14) (fb 6 w0 8))
    | _ => .ok (.vnegI32 (fb 6 w0 26) (fb 6 w0 14) (fb 6 w0 8))
  | 0x19 =>
    match fld w0 0 2 with
    | 0 => .ok (.vsel8 (fb 6 w0 26) (fb 6 w0 14) (fb 6 w0 8) (fb 6 w0 2))
    | 1 => .ok (.vsel16 (fb 6 w0 26) (fb 6 w0 14) (fb 6 w0 8) (fb 6 w0 2))
    | 2 => .ok (.vsel32 (fb 6 w0 26) (fb 6 w0 14) (fb 6 w0 8) (fb 6 w0 2))
    | _ => .ok (.vsel64 (fb 6 w0 26) (fb 6 w0 14) (fb 6 w0 8) (fb 6 w0 2))
  | 0x1A =>
    match fld w0 0 2 with
    | 0 => .ok (.vsplat8 (fb 6 w0 26) (fb 6 w0 14) (fb 6 w0 8))
    | 1 => .ok (.vsplat16 (fb 6 w0 26) (fb 6 w0 14) (fb 6 w0 8))
    | 2 => .ok (.vsplat32 (fb 6 w0 26) (fb 6 w0 14) (fb 6 w0 8))
    | _ => .ok (.vsplat64 (fb 6 w0 26) (fb 6 w0 14) (fb 6 w0 8))
  | 0x1B =>
    match fld w0 0 2 with
    | 0 => .ok (.vrcpeF32 (fb 6 w0 26) (fb 6 w0 14) (fb 6 w0 8))
    | 1 => .ok (.vrcpeF64 (fb 6 w0 26) (fb 6 w0 14) (fb 6 w0 8))
    | 2 => .ok (.vrsqeF32 (fb 6 w0 26) (fb 6 w0 14) (fb 6 w0 8))
    | _ => .ok (.vrsqeF64 (fb 6 w0 26) (fb 6 w0 14) (fb 6 w0 8))
  | 0x1C =>
    match fld w0 0 2 with
    | 0 => .ok (.vexp2F32 (fb 6 w0 26) (fb 6 w0 14) (fb 6 w0 8))
    | 1 => .ok (.vdivF32 (fb 6 w0 26) (fb 6 w0 14) (fb 6 w0 8) (fb 6 w0 2))
    | 2 => .ok (.vscaleF32 (fb 6 w0 26) (fb 6 w0 14) (fb 6 w0 8) (fb 6 w0 2))
    | _ => .ok (.vscaleBf16 (fb 6 w0 26) (fb 6 w0 14) (fb 6 w0 8) (fb 6 w0 2))
  | 0x1D =>
    match fld w0 0 2 with
    | 0 => .ok (.vaddF64 (fb 6 w0 26) (fb 6 w0 14) (fb 6 w0 8) (fb 6 w0 2))
    | 1 => .ok (.vsubF64 (fb 6 w0 26) (fb 6 w0 14) (fb 6 w0 8) (fb 6 w0 2))
    | 2 => .ok (.vmulF64 (fb 6 w0 26) (fb 6 w0 14) (fb 6 w0 8) (fb 6 w0 2))
    | _ => .error .unassigned
  | 0x1E =>
    match fld w0 0 2 with
    | 0 => .ok (.vaddI16 (fb 6 w0 26) (fb 6 w0 14) (fb 6 w0 8) (fb 6 w0 2))
    | 1 => .ok (.vsubI16 (fb 6 w0 26) (fb 6 w0 14) (fb 6 w0 8) (fb 6 w0 2))
    | 2 => .ok (.vaddI8 (fb 6 w0 26) (fb 6 w0 14) (fb 6 w0 8) (fb 6 w0 2))
    | _ => .ok (.vsubI8 (fb 6 w0 26) (fb 6 w0 14) (fb 6 w0 8) (fb 6 w0 2))
  | _ => .error .illegalOpcode

/-- One-word rows of OP 0x20 to 0x3E (R111, R114). -/
def looseRest (w0 : IWord) : Except Reject Instr :=
  match fld w0 20 6 with
  | 0x20 =>
    match fld w0 0 2 with
    | 0 => .ok (.deq (fb 6 w0 26) (fb 6 w0 14) (fb 6 w0 8))
    | 1 => .ok (.peek (fb 6 w0 26) (fb 6 w0 14) (fb 6 w0 8))
    | 2 => .ok (.send (fb 6 w0 26) (fb 6 w0 14) (fb 6 w0 8))
    | _ => .ok (.fwd (fb 6 w0 26) (fb 6 w0 14) (fb 6 w0 8))
  | 0x21 =>
    match fld w0 0 2 with
    | 0 => .ok (.toss (fb 6 w0 26) (fb 6 w0 8))
    | 1 => .ok (.mark (fb 6 w0 26) (fb 6 w0 14) (fb 6 w0 2))
    | 2 => .ok (.gnext (fb 6 w0 26))
    | _ => .error .unassigned
  | 0x22 =>
    .ok (.steerP0P3 (fb 6 w0 26) (fb 6 w0 14) (fb 6 w0 8) (fb 6 w0 2) (fb 2 w0 0))
  | 0x23 =>
    .ok (.steerP4P7 (fb 6 w0 26) (fb 6 w0 14) (fb 6 w0 8) (fb 6 w0 2) (fb 2 w0 0))
  | 0x24 =>
    .ok (.selectP0P3 (fb 6 w0 26) (fb 6 w0 14) (fb 6 w0 8) (fb 6 w0 2) (fb 2 w0 0))
  | 0x25 =>
    .ok (.selectP4P7 (fb 6 w0 26) (fb 6 w0 14) (fb 6 w0 8) (fb 6 w0 2) (fb 2 w0 0))
  | 0x26 =>
    .ok (.selectMrgP0P3 (fb 6 w0 26) (fb 6 w0 14) (fb 6 w0 8) (fb 6 w0 2) (fb 2 w0 0))
  | 0x27 =>
    .ok (.selectMrgP4P7 (fb 6 w0 26) (fb 6 w0 14) (fb 6 w0 8) (fb 6 w0 2) (fb 2 w0 0))
  | 0x28 =>
    .ok (.ld (fb 6 w0 26) (fb 6 w0 14) (fb 6 w0 8) (fb 8 w0 0))
  | 0x29 =>
    .ok (.st (fb 6 w0 26) (fb 6 w0 14) (fb 6 w0 8) (fb 8 w0 0))
  | 0x2A =>
    match fld w0 0 2 with
    | 0 => .ok (.ldS (fb 6 w0 26) (fb 6 w0 14) (fb 6 w0 8) (fb 6 w0 2))
    | 1 => .ok (.ldZ (fb 6 w0 26) (fb 6 w0 14) (fb 6 w0 8) (fb 6 w0 2))
    | 2 => .ok (.stNarrow (fb 6 w0 26) (fb 6 w0 14) (fb 6 w0 8) (fb 6 w0 2))
    | _ => .ok (.acas (fb 6 w0 26) (fb 6 w0 14) (fb 6 w0 8) (fb 6 w0 2))
  | 0x2C =>
    match fld w0 0 2 with
    | 0 => .ok (.tfull (fb 6 w0 26) (fb 6 w0 8))
    | 1 => .ok (.tempty (fb 6 w0 26) (fb 6 w0 8))
    | 2 => .ok (.void (fb 6 w0 26) (fb 6 w0 8) (fb 6 w0 2))
    | _ => .ok (.acc (fb 6 w0 26) (fb 6 w0 8) (fb 6 w0 2))
  | 0x2D =>
    match fld w0 0 2 with
    | 0 => .ok (.acvtGen (fb 6 w0 26) (fb 6 w0 14) (fb 6 w0 8) (fb 6 w0 2))
    | 1 => .ok (.acvtRel (fb 6 w0 26) (fb 6 w0 14) (fb 6 w0 8) (fb 6 w0 2))
    | 2 => .ok (.ain (fb 6 w0 26) (fb 3 w0 14) (fb 6 w0 8) (fb 6 w0 2))
    | _ => .ok (.axch (fb 6 w0 26) (fb 6 w0 14) (fb 6 w0 8) (fb 6 w0 2))
  | 0x2E =>
    match fld w0 0 2 with
    | 0 => .ok (.aadd (fb 6 w0 26) (fb 6 w0 14) (fb 6 w0 8) (fb 6 w0 2))
    | 1 => .ok (.aaddf (fb 6 w0 26) (fb 6 w0 14) (fb 6 w0 8) (fb 6 w0 2))
    | 2 => .ok (.amin (fb 6 w0 26) (fb 6 w0 14) (fb 6 w0 8) (fb 6 w0 2))
    | _ => .ok (.amax (fb 6 w0 26) (fb 6 w0 14) (fb 6 w0 8) (fb 6 w0 2))
  | 0x2F =>
    match fld w0 0 2 with
    | 0 => .ok (.aminu (fb 6 w0 26) (fb 6 w0 14) (fb 6 w0 8) (fb 6 w0 2))
    | 1 => .ok (.amaxu (fb 6 w0 26) (fb 6 w0 14) (fb 6 w0 8) (fb 6 w0 2))
    | 2 => .ok (.aand (fb 6 w0 26) (fb 6 w0 14) (fb 6 w0 8) (fb 6 w0 2))
    | _ => .ok (.aor (fb 6 w0 26) (fb 6 w0 14) (fb 6 w0 8) (fb 6 w0 2))
  | 0x30 =>
    match fld w0 0 2 with
    | 0 =>
      match fld w0 2 6 with
      | 0 => .ok (.fenceE (fb 6 w0 26))
      | 1 => .ok (.fenceG (fb 6 w0 26))
      | 2 => .ok (.fenceT (fb 6 w0 26))
      | 3 => .ok (.fenceM (fb 6 w0 26))
      | 4 => .ok (.fenceD (fb 6 w0 26))
      | _ => .error .fenceScope
    | 1 => .ok (.barArrive (fb 6 w0 26) (fb 6 w0 8) (fb 6 w0 2))
    | 2 => .ok (.barWait (fb 6 w0 26) (fb 6 w0 8) (fb 6 w0 2))
    | _ => .ok (.atTb (fb 6 w0 26) (fb 6 w0 14) (fb 6 w0 8))
  | 0x31 =>
    match fld w0 0 2 with
    | 0 => .ok (.evset (fb 6 w0 26) (fb 6 w0 8))
    | 1 => .ok (.evwait (fb 6 w0 26) (fb 6 w0 8))
    | 2 => .ok (.evclr (fb 6 w0 26) (fb 6 w0 8))
    | _ => .error .unassigned
  | 0x32 =>
    .ok (.chkpt (fb 6 w0 26) (fb 14 w0 0))
  | 0x33 =>
    match fld w0 0 2 with
    | 0 => .ok (.refill (fb 6 w0 26) (fb 6 w0 8))
    | 1 => .ok (.commit (fb 6 w0 26) (fb 6 w0 8))
    | 2 => .ok (.abort (fb 6 w0 26) (fb 6 w0 8))
    | _ => .error .unassigned
  | 0x34 =>
    match fld w0 0 2 with
    | 0 => .ok (.lcld (fb 6 w0 26) (fb 6 w0 14) (fb 6 w0 8) (fb 6 w0 2))
    | 1 => .ok (.lcctx (fb 6 w0 26) (fb 6 w0 8) (fb 6 w0 2))
    | 2 => .ok (.lcin (fb 6 w0 26) (fb 6 w0 8) (fb 6 w0 2))
    | _ =>
      match fld w0 14 6 with
      | 0 => .ok (.lcev (fb 6 w0 26) (fb 6 w0 8) (fb 6 w0 2))
      | 1 => .ok (.lcevRel (fb 6 w0 26) (fb 6 w0 8) (fb 6 w0 2))
      | _ => .error .lcevField
  | 0x35 =>
    match fld w0 0 2 with
    | 0 => .ok (.lcout (fb 6 w0 26) (fb 6 w0 14) (fb 6 w0 8) (fb 6 w0 2))
    | 1 => .ok (.bpt (fb 6 w0 26) (fb 6 w0 14) (fb 6 w0 8))
    | 2 => .ok (.raceK (fb 6 w0 26) (fb 6 w0 14) (fb 6 w0 8) (fb 6 w0 2))
    | _ => .ok (.place (fb 6 w0 26) (fb 6 w0 14) (fb 6 w0 8) (fb 6 w0 2))
  | 0x36 =>
    match fld w0 0 2 with
    | 0 => .ok (.pload (fb 6 w0 26) (fb 6 w0 8) (fb 6 w0 2))
    | 1 => .ok (.pswap (fb 6 w0 26) (fb 6 w0 2))
    | 2 => .ok (.gcall (fb 6 w0 26) (fb 6 w0 8) (fb 6 w0 2))
    | _ => .ok (.gret (fb 6 w0 26) (fb 6 w0 8))
  | 0x3C =>
    .ok (.branch (fb 6 w0 26) (fb 20 w0 0))
  | 0x3D =>
    .ok (.call (fb 6 w0 26) (fb 20 w0 0))
  | 0x3E =>
    match fld w0 0 2 with
    | 0 =>
      match fld w0 2 6 with
      | 0 => .ok (.nop (fb 6 w0 26))
      | 1 => .ok (.halt (fb 6 w0 26))
      | 2 => .ok (.trap (fb 6 w0 26) (fb 6 w0 8))
      | 3 => .ok (.ret (fb 6 w0 26) (fb 6 w0 8))
      | 4 => .ok (.wait (fb 6 w0 26) (fb 6 w0 8))
      | 5 => .ok (.loopDec (fb 6 w0 26) (fb 3 w0 14) (fb 6 w0 8))
      | 6 => .ok (.sret (fb 6 w0 26))
      | _ => .error .unassigned
    | 1 => .ok (.mfsr (fb 6 w0 26) (fb 6 w0 14) (fb 6 w0 8))
    | 2 => .ok (.mtsr (fb 6 w0 26) (fb 6 w0 14) (fb 6 w0 8))
    | _ =>
      match fld w0 14 6 with
      | 0 => .ok (.tlbinv (fb 6 w0 26) (fb 6 w0 8))
      | 1 => .ok (.tlbinva (fb 6 w0 26))
      | 2 => .ok (.agpause (fb 6 w0 26) (fb 6 w0 8))
      | 3 => .ok (.agpatch (fb 6 w0 26) (fb 6 w0 8))
      | 4 => .ok (.fltack (fb 6 w0 26) (fb 6 w0 8))
      | _ => .error .unassigned
  | _ => .error .illegalOpcode

/-- The packed-lane long forms by VOP (R109). -/
def looseVop (w0 w1 : IWord) : Except Reject Instr :=
  match fld w1 21 5 with
  | 0 => .ok (.vaddLong (fb 6 w0 26) (fb 6 w0 14) (fb 6 w0 8) (fb 6 w0 2) (fb 4 w1 17) (fb 3 w1 14))
  | 1 => .ok (.vsubLong (fb 6 w0 26) (fb 6 w0 14) (fb 6 w0 8) (fb 6 w0 2) (fb 4 w1 17) (fb 3 w1 14))
  | 2 => .ok (.vmulLong (fb 6 w0 26) (fb 6 w0 14) (fb 6 w0 8) (fb 6 w0 2) (fb 4 w1 17) (fb 3 w1 14))
  | 3 => .ok (.vfma (fb 6 w0 26) (fb 6 w0 14) (fb 6 w0 8) (fb 6 w0 2) (fb 6 w1 0) (fb 4 w1 17) (fb 3 w1 14))
  | 4 => .ok (.vfms (fb 6 w0 26) (fb 6 w0 14) (fb 6 w0 8) (fb 6 w0 2) (fb 6 w1 0) (fb 4 w1 17) (fb 3 w1 14))
  | 5 => .ok (.vminLong (fb 6 w0 26) (fb 6 w0 14) (fb 6 w0 8) (fb 6 w0 2) (fb 4 w1 17))
  | 6 => .ok (.vmaxLong (fb 6 w0 26) (fb 6 w0 14) (fb 6 w0 8) (fb 6 w0 2) (fb 4 w1 17))
  | 7 => .ok (.vabsLong (fb 6 w0 26) (fb 6 w0 14) (fb 6 w0 8) (fb 4 w1 17))
  | 8 => .ok (.vnegLong (fb 6 w0 26) (fb 6 w0 14) (fb 6 w0 8) (fb 4 w1 17))
  | 9 => .ok (.vcmp (fb 6 w0 26) (fb 6 w0 14) (fb 6 w0 8) (fb 6 w0 2) (fb 4 w1 17) (fb 3 w1 11))
  | 10 => .ok (.vselLong (fb 6 w0 26) (fb 6 w0 14) (fb 6 w0 8) (fb 6 w0 2) (fb 4 w1 17))
  | 11 => .ok (.vdotLong (fb 6 w0 26) (fb 6 w0 14) (fb 6 w0 8) (fb 6 w0 2) (fb 4 w1 17) (fb 3 w1 14))
  | 12 => .ok (.vsumLong (fb 6 w0 26) (fb 6 w0 14) (fb 6 w0 8) (fb 4 w1 17) (fb 3 w1 14))
  | 13 => .ok (.vrcpeLong (fb 6 w0 26) (fb 6 w0 14) (fb 6 w0 8) (fb 4 w1 17))
  | 14 => .ok (.vrsqeLong (fb 6 w0 26) (fb 6 w0 14) (fb 6 w0 8) (fb 4 w1 17))
  | 15 => .ok (.vexp2Long (fb 6 w0 26) (fb 6 w0 14) (fb 6 w0 8) (fb 4 w1 17) (fb 3 w1 14))
  | 16 => .ok (.vdivLong (fb 6 w0 26) (fb 6 w0 14) (fb 6 w0 8) (fb 6 w0 2) (fb 4 w1 17) (fb 3 w1 14))
  | 17 => .ok (.vscaleLong (fb 6 w0 26) (fb 6 w0 14) (fb 6 w0 8) (fb 6 w0 2) (fb 4 w1 17) (fb 3 w1 14))
  | 18 => .ok (.vcvt (fb 6 w0 26) (fb 6 w0 14) (fb 6 w0 8) (fb 4 w1 17) (fb 4 w1 7))
  | 19 => .ok (.vshuf (fb 6 w0 26) (fb 6 w0 14) (fb 6 w0 8) (fb 6 w0 2) (fb 4 w1 17))
  | 20 => .ok (.vpack (fb 6 w0 26) (fb 6 w0 14) (fb 6 w0 8) (fb 6 w0 2) (fb 4 w1 17))
  | 21 => .ok (.vunpk (fb 6 w0 26) (fb 6 w0 14) (fb 6 w0 8) (fb 4 w1 17))
  | 22 => .ok (.vsplatLong (fb 6 w0 26) (fb 6 w0 14) (fb 6 w0 8) (fb 4 w1 17))
  | _ => .error .illegalVop

/-- Long instructions by OP and m (R109, R111). The minor is tested before the continuation word. -/
def looseLong (w0 w1 : IWord) : Except Reject Instr :=
  match fld w0 20 6, fld w0 0 2 with
  | 0x1F, 0 => looseVop w0 w1
  | 0x2B, 0 => .ok (.ldg (fb 6 w0 26) (fb 6 w0 14) (fb 6 w0 8) (fb 8 w1 16) (fb 8 w1 8) (fb 8 w1 0))
  | 0x2B, 1 => .ok (.stg (fb 6 w0 26) (fb 6 w0 14) (fb 6 w0 8) (fb 8 w1 16) (fb 8 w1 8) (fb 8 w1 0))
  | 0x38, 0 => .ok (.sbind (fb 6 w0 26) (fb 6 w0 8) (fb 9 w1 7) (fb 5 w1 0) (fb 1 w1 5) (fb 1 w1 6))
  | 0x38, 1 => .ok (.spat (fb 6 w0 26) (fb 6 w0 8) (fb 6 w0 2) (fb 9 w1 7))
  | 0x38, 2 => .ok (.sgo (fb 6 w0 26) (fb 9 w1 7) (fb 2 w1 0) (fb 1 w1 25) (fb 4 w1 21) (fb 1 w1 20) (fb 4 w1 16))
  | 0x38, 3 => .ok (.swait (fb 6 w0 26) (fb 9 w1 7))
  | 0x39, 0 => .ok (.sbar (fb 6 w0 26))
  | 0x39, 1 => .ok (.scopy (fb 6 w0 26) (fb 6 w0 8) (fb 6 w0 2) (fb 9 w1 7) (fb 1 w1 25) (fb 4 w1 21) (fb 1 w1 20) (fb 4 w1 16))
  | 0x39, 2 => .ok (.sgath (fb 6 w0 26) (fb 9 w1 7) (fb 5 w1 0) (fb 1 w1 5) (fb 1 w1 25) (fb 4 w1 21) (fb 1 w1 20) (fb 4 w1 16))
  | 0x39, 3 => .ok (.sscat (fb 6 w0 26) (fb 9 w1 7) (fb 5 w1 0) (fb 1 w1 25) (fb 4 w1 21) (fb 1 w1 20) (fb 4 w1 16))
  | 0x3A, 0 => .ok (.sisect (fb 6 w0 26) (fb 6 w0 14) (fb 9 w1 7) (fb 1 w1 25) (fb 4 w1 21) (fb 1 w1 20) (fb 4 w1 16))
  | 0x3A, 1 => .ok (.smerge (fb 6 w0 26) (fb 6 w0 14) (fb 9 w1 7) (fb 1 w1 25) (fb 4 w1 21) (fb 1 w1 20) (fb 4 w1 16))
  | _, _ => .error .unassigned

/-- Does this OP take a continuation word (R108)? -/
def isLongOp (op : Nat) : Bool :=
  op == 0x1F || op == 0x2B || op == 0x38 || op == 0x39 || op == 0x3A

/-- The instruction a word (and the word after it) holds when unused fields are ignored. -/
def decodeLoose (w0 w1 : IWord) : Except Reject Instr :=
  if fld w0 26 6 = 63 then .error .continuationFirst
  else if isLongOp (fld w0 20 6) then
    match looseLong w0 w1 with
    | .error .unassigned => .error .unassigned
    | r => if fld w1 26 6 = 63 then r else .error .noContinuation
  else if fld w0 20 6 < 0x10 then looseScalar w0
  else if fld w0 20 6 < 0x20 then looseLane w0
  else looseRest w0

/-- The words of an instruction, from the encoding tables (R105 to R114); none for the rows that are moves or events. -/
def encode : Instr → List IWord
  | .add t d a b => [asm t.toNat 0x01 d.toNat a.toNat b.toNat 0]
  | .sub t d a b => [asm t.toNat 0x01 d.toNat a.toNat b.toNat 1]
  | .mul t d a b => [asm t.toNat 0x01 d.toNat a.toNat b.toNat 2]
  | .mulh t d a b => [asm t.toNat 0x01 d.toNat a.toNat b.toNat 3]
  | .mulhu t d a b => [asm t.toNat 0x02 d.toNat a.toNat b.toNat 0]
  | .div t d a b => [asm t.toNat 0x02 d.toNat a.toNat b.toNat 1]
  | .rem t d a b => [asm t.toNat 0x02 d.toNat a.toNat b.toNat 2]
  | .rotl t d a b => [asm t.toNat 0x02 d.toNat a.toNat b.toNat 3]
  | .and t d a b => [asm t.toNat 0x03 d.toNat a.toNat b.toNat 0]
  | .or t d a b => [asm t.toNat 0x03 d.toNat a.toNat b.toNat 1]
  | .xor t d a b => [asm t.toNat 0x03 d.toNat a.toNat b.toNat 2]
  | .andn t d a b => [asm t.toNat 0x03 d.toNat a.toNat b.toNat 3]
  | .orn t d a b => [asm t.toNat 0x04 d.toNat a.toNat b.toNat 0]
  | .shl t d a b => [asm t.toNat 0x04 d.toNat a.toNat b.toNat 1]
  | .shr t d a b => [asm t.toNat 0x04 d.toNat a.toNat b.toNat 2]
  | .sar t d a b => [asm t.toNat 0x04 d.toNat a.toNat b.toNat 3]
  | .min t d a b => [asm t.toNat 0x05 d.toNat a.toNat b.toNat 0]
  | .max t d a b => [asm t.toNat 0x05 d.toNat a.toNat b.toNat 1]
  | .minu t d a b => [asm t.toNat 0x05 d.toNat a.toNat b.toNat 2]
  | .maxu t d a b => [asm t.toNat 0x05 d.toNat a.toNat b.toNat 3]
  | .bfx t d a b => [asm t.toNat 0x06 d.toNat a.toNat b.toNat 0]
  | .bfi t d a b => [asm t.toNat 0x06 d.toNat a.toNat b.toNat 1]
  | .mov t d a => [asm t.toNat 0x07 d.toNat a.toNat 0 0]
  | .abs t d a => [asm t.toNat 0x07 d.toNat a.toNat 1 0]
  | .clz t d a => [asm t.toNat 0x07 d.toNat a.toNat 2 0]
  | .ctz t d a => [asm t.toNat 0x07 d.toNat a.toNat 3 0]
  | .popc t d a => [asm t.toNat 0x07 d.toNat a.toNat 4 0]
  | .selP0P3 t d a b k => [asm t.toNat 0x08 d.toNat a.toNat b.toNat k.toNat]
  | .selP4P7 t d a b k => [asm t.toNat 0x09 d.toNat a.toNat b.toNat k.toNat]
  | .cmp t c k a b => [asm t.toNat 0x0A (c.toNat * 8 + k.toNat) a.toNat b.toNat 0]
  | .pand t k i j => [asm t.toNat 0x0A k.toNat i.toNat j.toNat 1]
  | .por t k i j => [asm t.toNat 0x0A (k.toNat + 8) i.toNat j.toNat 1]
  | .pxor t k i j => [asm t.toNat 0x0A (k.toNat + 16) i.toNat j.toNat 1]
  | .pnot t k i => [asm t.toNat 0x0A (k.toNat + 24) i.toNat 0 1]
  | .pset t k v => [asm t.toNat 0x0A (k.toNat + 32) 0 v.toNat 1]
  | .pmov t k a => [asm t.toNat 0x0A (k.toNat + 40) a.toNat 0 1]
  | .cmpi t c k a i => [asmRRI t.toNat 0x0B (c.toNat * 8 + k.toNat) a.toNat i.toNat]
  | .addi t d a i => [asmRRI t.toNat 0x0C d.toNat a.toNat i.toNat]
  | .shli t d a n => [asmRRI t.toNat 0x0D d.toNat a.toNat n.toNat]
  | .shri t d a n => [asmRRI t.toNat 0x0D d.toNat a.toNat (n.toNat + 64)]
  | .sari t d a n => [asmRRI t.toNat 0x0D d.toNat a.toNat (n.toNat + 128)]
  | .extend t d a n => [asmRRI t.toNat 0x0D d.toNat a.toNat (n.toNat + 192)]
  | .movi t d i => [asmRI t.toNat 0x0E d.toNat i.toNat]
  | .movh t d i => [asmRI t.toNat 0x0F d.toNat i.toNat]
  | .vaddF32 t d a b => [asm t.toNat 0x10 d.toNat a.toNat b.toNat 0]
  | .vaddBf16 t d a b => [asm t.toNat 0x10 d.toNat a.toNat b.toNat 1]
  | .vaddF16 t d a b => [asm t.toNat 0x10 d.toNat a.toNat b.toNat 2]
  | .vaddI32 t d a b => [asm t.toNat 0x10 d.toNat a.toNat b.toNat 3]
  | .vsubF32 t d a b => [asm t.toNat 0x11 d.toNat a.toNat b.toNat 0]
  | .vsubBf16 t d a b => [asm t.toNat 0x11 d.toNat a.toNat b.toNat 1]
  | .vsubF16 t d a b => [asm t.toNat 0x11 d.toNat a.toNat b.toNat 2]
  | .vsubI32 t d a b => [asm t.toNat 0x11 d.toNat a.toNat b.toNat 3]
  | .vmulF32 t d a b => [asm t.toNat 0x12 d.toNat a.toNat b.toNat 0]
  | .vmulBf16 t d a b => [asm t.toNat 0x12 d.toNat a.toNat b.toNat 1]
  | .vmulF16 t d a b => [asm t.toNat 0x12 d.toNat a.toNat b.toNat 2]
  | .vmulI32 t d a b => [asm t.toNat 0x12 d.toNat a.toNat b.toNat 3]
  | .vminF32 t d a b => [asm t.toNat 0x13 d.toNat a.toNat b.toNat 0]
  | .vminBf16 t d a b => [asm t.toNat 0x13 d.toNat a.toNat b.toNat 1]
  | .vminF16 t d a b => [asm t.toNat 0x13 d.toNat a.toNat b.toNat 2]
  | .vminI32 t d a b => [asm t.toNat 0x13 d.toNat a.toNat b.toNat 3]
  | .vmaxF32 t d a b => [asm t.toNat 0x14 d.toNat a.toNat b.toNat 0]
  | .vmaxBf16 t d a b => [asm t.toNat 0x14 d.toNat a.toNat b.toNat 1]
  | .vmaxF16 t d a b => [asm t.toNat 0x14 d.toNat a.toNat b.toNat 2]
  | .vmaxI32 t d a b => [asm t.toNat 0x14 d.toNat a.toNat b.toNat 3]
  | .vdotBf16 t d a b => [asm t.toNat 0x15 d.toNat a.toNat b.toNat 0]
  | .vdotE4m3 t d a b => [asm t.toNat 0x15 d.toNat a.toNat b.toNat 1]
  | .vdotE5m2 t d a b => [asm t.toNat 0x15 d.toNat a.toNat b.toNat 2]
  | .vdotI8 t d a b => [asm t.toNat 0x15 d.toNat a.toNat b.toNat 3]
  | .vsumF32 t d a => [asm t.toNat 0x16 d.toNat a.toNat 0 0]
  | .vsumBf16 t d a => [asm t.toNat 0x16 d.toNat a.toNat 0 1]
  | .vsumF16 t d a => [asm t.toNat 0x16 d.toNat a.toNat 0 2]
  | .vsumI32 t d a => [asm t.toNat 0x16 d.toNat a.toNat 0 3]
  | .vabsF32 t d a => [asm t.toNat 0x17 d.toNat a.toNat 0 0]
  | .vabsBf16 t d a => [asm t.toNat 0x17 d.toNat a.toNat 0 1]
  | .vabsF16 t d a => [asm t.toNat 0x17 d.toNat a.toNat 0 2]
  | .vabsI32 t d a => [asm t.toNat 0x17 d.toNat a.toNat 0 3]
  | .vnegF32 t d a => [asm t.toNat 0x18 d.toNat a.toNat 0 0]
  | .vnegBf16 t d a => [asm t.toNat 0x18 d.toNat a.toNat 0 1]
  | .vnegF16 t d a => [asm t.toNat 0x18 d.toNat a.toNat 0 2]
  | .vnegI32 t d a => [asm t.toNat 0x18 d.toNat a.toNat 0 3]
  | .vsel8 t d a b => [asm t.toNat 0x19 d.toNat a.toNat b.toNat 0]
  | .vsel16 t d a b => [asm t.toNat 0x19 d.toNat a.toNat b.toNat 1]
  | .vsel32 t d a b => [asm t.toNat 0x19 d.toNat a.toNat b.toNat 2]
  | .vsel64 t d a b => [asm t.toNat 0x19 d.toNat a.toNat b.toNat 3]
  | .vsplat8 t d a => [asm t.toNat 0x1A d.toNat a.toNat 0 0]
  | .vsplat16 t d a => [asm t.toNat 0x1A d.toNat a.toNat 0 1]
  | .vsplat32 t d a => [asm t.toNat 0x1A d.toNat a.toNat 0 2]
  | .vsplat64 t d a => [asm t.toNat 0x1A d.toNat a.toNat 0 3]
  | .vrcpeF32 t d a => [asm t.toNat 0x1B d.toNat a.toNat 0 0]
  | .vrcpeF64 t d a => [asm t.toNat 0x1B d.toNat a.toNat 0 1]
  | .vrsqeF32 t d a => [asm t.toNat 0x1B d.toNat a.toNat 0 2]
  | .vrsqeF64 t d a => [asm t.toNat 0x1B d.toNat a.toNat 0 3]
  | .vexp2F32 t d a => [asm t.toNat 0x1C d.toNat a.toNat 0 0]
  | .vdivF32 t d a b => [asm t.toNat 0x1C d.toNat a.toNat b.toNat 1]
  | .vscaleF32 t d a b => [asm t.toNat 0x1C d.toNat a.toNat b.toNat 2]
  | .vscaleBf16 t d a b => [asm t.toNat 0x1C d.toNat a.toNat b.toNat 3]
  | .vaddF64 t d a b => [asm t.toNat 0x1D d.toNat a.toNat b.toNat 0]
  | .vsubF64 t d a b => [asm t.toNat 0x1D d.toNat a.toNat b.toNat 1]
  | .vmulF64 t d a b => [asm t.toNat 0x1D d.toNat a.toNat b.toNat 2]
  | .vaddI16 t d a b => [asm t.toNat 0x1E d.toNat a.toNat b.toNat 0]
  | .vsubI16 t d a b => [asm t.toNat 0x1E d.toNat a.toNat b.toNat 1]
  | .vaddI8 t d a b => [asm t.toNat 0x1E d.toNat a.toNat b.toNat 2]
  | .vsubI8 t d a b => [asm t.toNat 0x1E d.toNat a.toNat b.toNat 3]
  | .vaddLong t d a b lt rm => [asm t.toNat 0x1F d.toNat a.toNat b.toNat 0, asmV 0 lt.toNat rm.toNat 0 0 0]
  | .vsubLong t d a b lt rm => [asm t.toNat 0x1F d.toNat a.toNat b.toNat 0, asmV 1 lt.toNat rm.toNat 0 0 0]
  | .vmulLong t d a b lt rm => [asm t.toNat 0x1F d.toNat a.toNat b.toNat 0, asmV 2 lt.toNat rm.toNat 0 0 0]
  | .vfma t d a b c lt rm => [asm t.toNat 0x1F d.toNat a.toNat b.toNat 0, asmV 3 lt.toNat rm.toNat 0 0 c.toNat]
  | .vfms t d a b c lt rm => [asm t.toNat 0x1F d.toNat a.toNat b.toNat 0, asmV 4 lt.toNat rm.toNat 0 0 c.toNat]
  | .vminLong t d a b lt => [asm t.toNat 0x1F d.toNat a.toNat b.toNat 0, asmV 5 lt.toNat 0 0 0 0]
  | .vmaxLong t d a b lt => [asm t.toNat 0x1F d.toNat a.toNat b.toNat 0, asmV 6 lt.toNat 0 0 0 0]
  | .vabsLong t d a lt => [asm t.toNat 0x1F d.toNat a.toNat 0 0, asmV 7 lt.toNat 0 0 0 0]
  | .vnegLong t d a lt => [asm t.toNat 0x1F d.toNat a.toNat 0 0, asmV 8 lt.toNat 0 0 0 0]
  | .vcmp t d a b lt cc => [asm t.toNat 0x1F d.toNat a.toNat b.toNat 0, asmV 9 lt.toNat 0 cc.toNat 0 0]
  | .vselLong t d a b lt => [asm t.toNat 0x1F d.toNat a.toNat b.toNat 0, asmV 10 lt.toNat 0 0 0 0]
  | .vdotLong t d a b lt rm => [asm t.toNat 0x1F d.toNat a.toNat b.toNat 0, asmV 11 lt.toNat rm.toNat 0 0 0]
  | .vsumLong t d a lt rm => [asm t.toNat 0x1F d.toNat a.toNat 0 0, asmV 12 lt.toNat rm.toNat 0 0 0]
  | .vrcpeLong t d a lt => [asm t.toNat 0x1F d.toNat a.toNat 0 0, asmV 13 lt.toNat 0 0 0 0]
  | .vrsqeLong t d a lt => [asm t.toNat 0x1F d.toNat a.toNat 0 0, asmV 14 lt.toNat 0 0 0 0]
  | .vexp2Long t d a lt rm => [asm t.toNat 0x1F d.toNat a.toNat 0 0, asmV 15 lt.toNat rm.toNat 0 0 0]
  | .vdivLong t d a b lt rm => [asm t.toNat 0x1F d.toNat a.toNat b.toNat 0, asmV 16 lt.toNat rm.toNat 0 0 0]
  | .vscaleLong t d a b lt rm => [asm t.toNat 0x1F d.toNat a.toNat b.toNat 0, asmV 17 lt.toNat rm.toNat 0 0 0]
  | .vcvt t d a lt st => [asm t.toNat 0x1F d.toNat a.toNat 0 0, asmV 18 lt.toNat 0 0 st.toNat 0]
  | .vshuf t d a b lt => [asm t.toNat 0x1F d.toNat a.toNat b.toNat 0, asmV 19 lt.toNat 0 0 0 0]
  | .vpack t d a b lt => [asm t.toNat 0x1F d.toNat a.toNat b.toNat 0, asmV 20 lt.toNat 0 0 0 0]
  | .vunpk t d a lt => [asm t.toNat 0x1F d.toNat a.toNat 0 0, asmV 21 lt.toNat 0 0 0 0]
  | .vsplatLong t d a lt => [asm t.toNat 0x1F d.toNat a.toNat 0 0, asmV 22 lt.toNat 0 0 0 0]
  | .deq t d a => [asm t.toNat 0x20 d.toNat a.toNat 0 0]
  | .peek t d a => [asm t.toNat 0x20 d.toNat a.toNat 0 1]
  | .send t d a => [asm t.toNat 0x20 d.toNat a.toNat 0 2]
  | .fwd t d a => [asm t.toNat 0x20 d.toNat a.toNat 0 3]
  | .toss t a => [asm t.toNat 0x21 0 a.toNat 0 0]
  | .mark t d b => [asm t.toNat 0x21 d.toNat 0 b.toNat 1]
  | .gnext t => [asm t.toNat 0x21 0 0 0 2]
  | .steerP0P3 t d a b k => [asm t.toNat 0x22 d.toNat a.toNat b.toNat k.toNat]
  | .steerP4P7 t d a b k => [asm t.toNat 0x23 d.toNat a.toNat b.toNat k.toNat]
  | .selectP0P3 t d a b k => [asm t.toNat 0x24 d.toNat a.toNat b.toNat k.toNat]
  | .selectP4P7 t d a b k => [asm t.toNat 0x25 d.toNat a.toNat b.toNat k.toNat]
  | .selectMrgP0P3 t d a b k => [asm t.toNat 0x26 d.toNat a.toNat b.toNat k.toNat]
  | .selectMrgP4P7 t d a b k => [asm t.toNat 0x27 d.toNat a.toNat b.toNat k.toNat]
  | .ld t d a i => [asmRRI t.toNat 0x28 d.toNat a.toNat i.toNat]
  | .st t d a i => [asmRRI t.toNat 0x29 d.toNat a.toNat i.toNat]
  | .ldS t d a s => [asm t.toNat 0x2A d.toNat a.toNat s.toNat 0]
  | .ldZ t d a s => [asm t.toNat 0x2A d.toNat a.toNat s.toNat 1]
  | .stNarrow t d a s => [asm t.toNat 0x2A d.toNat a.toNat s.toNat 2]
  | .acas t d a b => [asm t.toNat 0x2A d.toNat a.toNat b.toNat 3]
  | .ldg t d a seq pred succ => [asm t.toNat 0x2B d.toNat a.toNat 0 0, asmW seq.toNat pred.toNat succ.toNat]
  | .stg t d a seq pred succ => [asm t.toNat 0x2B d.toNat a.toNat 0 1, asmW seq.toNat pred.toNat succ.toNat]
  | .tfull t a => [asm t.toNat 0x2C 0 a.toNat 0 0]
  | .tempty t a => [asm t.toNat 0x2C 0 a.toNat 0 1]
  | .void t a b => [asm t.toNat 0x2C 0 a.toNat b.toNat 2]
  | .acc t a b => [asm t.toNat 0x2C 0 a.toNat b.toNat 3]
  | .acvtGen t d a b => [asm t.toNat 0x2D d.toNat a.toNat b.toNat 0]
  | .acvtRel t d a b => [asm t.toNat 0x2D d.toNat a.toNat b.toNat 1]
  | .ain t k a b => [asm t.toNat 0x2D k.toNat a.toNat b.toNat 2]
  | .axch t d a b => [asm t.toNat 0x2D d.toNat a.toNat b.toNat 3]
  | .aadd t d a b => [asm t.toNat 0x2E d.toNat a.toNat b.toNat 0]
  | .aaddf t d a b => [asm t.toNat 0x2E d.toNat a.toNat b.toNat 1]
  | .amin t d a b => [asm t.toNat 0x2E d.toNat a.toNat b.toNat 2]
  | .amax t d a b => [asm t.toNat 0x2E d.toNat a.toNat b.toNat 3]
  | .aminu t d a b => [asm t.toNat 0x2F d.toNat a.toNat b.toNat 0]
  | .amaxu t d a b => [asm t.toNat 0x2F d.toNat a.toNat b.toNat 1]
  | .aand t d a b => [asm t.toNat 0x2F d.toNat a.toNat b.toNat 2]
  | .aor t d a b => [asm t.toNat 0x2F d.toNat a.toNat b.toNat 3]
  | .fenceE t => [asm t.toNat 0x30 0 0 0 0]
  | .fenceG t => [asm t.toNat 0x30 0 0 1 0]
  | .fenceT t => [asm t.toNat 0x30 0 0 2 0]
  | .fenceM t => [asm t.toNat 0x30 0 0 3 0]
  | .fenceD t => [asm t.toNat 0x30 0 0 4 0]
  | .barArrive t a b => [asm t.toNat 0x30 0 a.toNat b.toNat 1]
  | .barWait t a b => [asm t.toNat 0x30 0 a.toNat b.toNat 2]
  | .atTb t d a => [asm t.toNat 0x30 d.toNat a.toNat 0 3]
  | .evset t a => [asm t.toNat 0x31 0 a.toNat 0 0]
  | .evwait t a => [asm t.toNat 0x31 0 a.toNat 0 1]
  | .evclr t a => [asm t.toNat 0x31 0 a.toNat 0 2]
  | .chkpt t n => [asmRI t.toNat 0x32 0 n.toNat]
  | .refill t a => [asm t.toNat 0x33 0 a.toNat 0 0]
  | .commit t a => [asm t.toNat 0x33 0 a.toNat 0 1]
  | .abort t a => [asm t.toNat 0x33 0 a.toNat 0 2]
  | .lcld t d a b => [asm t.toNat 0x34 d.toNat a.toNat b.toNat 0]
  | .lcctx t a b => [asm t.toNat 0x34 0 a.toNat b.toNat 1]
  | .lcin t a b => [asm t.toNat 0x34 0 a.toNat b.toNat 2]
  | .lcev t a b => [asm t.toNat 0x34 0 a.toNat b.toNat 3]
  | .lcevRel t a b => [asm t.toNat 0x34 1 a.toNat b.toNat 3]
  | .lcout t d a b => [asm t.toNat 0x35 d.toNat a.toNat b.toNat 0]
  | .bpt t d a => [asm t.toNat 0x35 d.toNat a.toNat 0 1]
  | .raceK t d a b => [asm t.toNat 0x35 d.toNat a.toNat b.toNat 2]
  | .place t d a b => [asm t.toNat 0x35 d.toNat a.toNat b.toNat 3]
  | .pload t a b => [asm t.toNat 0x36 0 a.toNat b.toNat 0]
  | .pswap t b => [asm t.toNat 0x36 0 0 b.toNat 1]
  | .gcall t a b => [asm t.toNat 0x36 0 a.toNat b.toNat 2]
  | .gret t a => [asm t.toNat 0x36 0 a.toNat 0 3]
  | .sbind t a ag ch inb sector => [asm t.toNat 0x38 0 a.toNat 0 0, asmS 0 ag.toNat (ch.toNat + inb.toNat * 32 + sector.toNat * 64)]
  | .spat t a b ag => [asm t.toNat 0x38 0 a.toNat b.toNat 1, asmS 0 ag.toNat 0]
  | .sgo t ag k push pfifo pop qfifo => [asm t.toNat 0x38 0 0 0 2, asmS (flagBits push.toNat pfifo.toNat pop.toNat qfifo.toNat) ag.toNat k.toNat]
  | .swait t ag => [asm t.toNat 0x38 0 0 0 3, asmS 0 ag.toNat 0]
  | .sbar t => [asm t.toNat 0x39 0 0 0 0, asmS 0 0 0]
  | .scopy t a b ag push pfifo pop qfifo => [asm t.toNat 0x39 0 a.toNat b.toNat 1, asmS (flagBits push.toNat pfifo.toNat pop.toNat qfifo.toNat) ag.toNat 0]
  | .sgath t ag ch fwdend push pfifo pop qfifo => [asm t.toNat 0x39 0 0 0 2, asmS (flagBits push.toNat pfifo.toNat pop.toNat qfifo.toNat) ag.toNat (ch.toNat + fwdend.toNat * 32)]
  | .sscat t ag ch push pfifo pop qfifo => [asm t.toNat 0x39 0 0 0 3, asmS (flagBits push.toNat pfifo.toNat pop.toNat qfifo.toNat) ag.toNat ch.toNat]
  | .sisect t d ag push pfifo pop qfifo => [asm t.toNat 0x3A d.toNat 0 0 0, asmS (flagBits push.toNat pfifo.toNat pop.toNat qfifo.toNat) ag.toNat 0]
  | .smerge t d ag push pfifo pop qfifo => [asm t.toNat 0x3A d.toNat 0 0 1, asmS (flagBits push.toNat pfifo.toNat pop.toNat qfifo.toNat) ag.toNat 0]
  | .branch t o => [asmJ t.toNat 0x3C o.toNat]
  | .call t o => [asmJ t.toNat 0x3D o.toNat]
  | .nop t => [asm t.toNat 0x3E 0 0 0 0]
  | .halt t => [asm t.toNat 0x3E 0 0 1 0]
  | .trap t n => [asm t.toNat 0x3E 0 n.toNat 2 0]
  | .ret t a => [asm t.toNat 0x3E 0 a.toNat 3 0]
  | .wait t a => [asm t.toNat 0x3E 0 a.toNat 4 0]
  | .loopDec t k a => [asm t.toNat 0x3E k.toNat a.toNat 5 0]
  | .sret t => [asm t.toNat 0x3E 0 0 6 0]
  | .mfsr t d n => [asm t.toNat 0x3E d.toNat n.toNat 0 1]
  | .mtsr t n a => [asm t.toNat 0x3E n.toNat a.toNat 0 2]
  | .tlbinv t a => [asm t.toNat 0x3E 0 a.toNat 0 3]
  | .tlbinva t => [asm t.toNat 0x3E 1 0 0 3]
  | .agpause t a => [asm t.toNat 0x3E 2 a.toNat 0 3]
  | .agpatch t a => [asm t.toNat 0x3E 3 a.toNat 0 3]
  | .fltack t a => [asm t.toNat 0x3E 4 a.toNat 0 3]
  | .illegalWord _ => []
  | .skippedWord => []
  | .tokenHop _ _ _ => []
  | .tokenDeliver _ _ => []
  | .requestAdmit _ => []
  | .requestServe _ _ => []
  | .deferredReadWake _ => []
  | .requestReply _ => []
  | .waveRequestRelease _ => []
  | .fenceComplete _ _ => []
  | .atEmit _ _ => []
  | .sequencerWaitExpire _ => []
  | .allowanceRecall _ => []
  | .dry _ => []
  | .graceExpired _ => []
  | .boostFallback _ => []
  | .caskPour _ => []
  | .pourGrant _ => []
  | .commitTask _ => []
  | .vanish _ => []
  | .bankHandover _ _ => []
  | .matrixIntake _ => []
  | .matrixTileStep _ => []
  | .matrixTileWrite _ => []
  | .converterToken _ => []
  | .cornerTurnCollect _ => []
  | .cornerTurnEmit _ => []
  | .agAccess _ _ => []
  | .streamCommandRetire _ _ => []
  | .sparseSetStep _ _ => []
  | .lcIntake _ _ => []
  | .lcLoadBlock _ => []
  | .lcSweep _ => []
  | .lcQueueOp _ => []
  | .raceIntake _ _ => []
  | .raceRelease _ => []
  | .placerSizing _ => []
  | .placePreload _ => []
  | .ploadComplete _ _ => []
  | .planeSwap _ => []
  | .loadChange _ => []
  | .freezePoint _ => []
  | .gridCallSwitch _ => []
  | .gridReturn _ => []
  | .waveEntryPoint _ => []
  | .wavePoint _ => []
  | .waveComplete _ => []
  | .suspension _ => []
  | .taskResume _ => []
  | .tagScrub _ => []
  | .forkStall _ _ => []
  | .progressStall _ => []
  | .barrierShort _ => []
  | .trapEntry _ => []
  | .tableWalk _ _ => []
  | .slotTableRead _ _ => []
  | .slotStart _ _ => []
  | .launch _ _ => []
  | .timeBaseAdjust _ => []
  | .hostWrite _ _ _ _ => []
  | .hostRead _ _ _ _ => []
  | .tdiStateChange _ _ => []
  | .ideKeyProgram _ _ => []
  | .getMeasurements _ _ => []
  | .keyExchange _ => []
  | .keyUpdate _ _ _ _ => []
  | .berovoFrameReceive _ _ _ _ => []
  | .creditReturn _ _ _ => []
  | .remoteRequest _ _ _ _ _ _ _ => []
  | .remoteReply _ _ _ _ => []
  | .resolve _ _ _ => []
  | .resolveAck _ _ => []
  | .remoteAccessTimeout _ => []
  | .sensorSample _ _ _ => []
  | .elementGate _ => []
  | .elementWake _ => []
  | .guardSupplyShortfall _ => []
  | .sramSoftError _ => []
  | .reset _ => []
  | .featureAck _ _ => []
  | .firmwareUpdate _ => []
  | .suspendRequest _ => []
  | .endSuspendedTask _ _ => []
  | .registerWrite _ _ => []
  | .monitorCallFeatures _ => []
  | .monitorCallGroveMap _ => []
  | .monitorCallGuardDrops _ => []
  | .monitorCallReplaceImage _ => []
  | .monitorCallInvalid _ => []
  | .zwitexTime _ => []
  | .zwitexModuleNumber _ => []
  | .zwitexHopTable _ _ => []
  | .zwitexFirmwareTransfer _ => []
  | .zwitexEventLogRead => []
  | .zwitexQuarantineClear _ _ => []
  | .zwitexPartitionCommand _ => []
  | .zwitexLostModule _ => []
  | .groveRestore _ _ _ => []
  | .linkFailure _ => []

/-- The instruction of two consecutive words (R105 to R116). A word whose unused or reserved fields are not zero is rejected: its fields do not encode back to it (R106). -/
def decode (w0 w1 : IWord) : Except Reject Instr :=
  match decodeLoose w0 w1 with
  | .error r => .error r
  | .ok i => if encode i = [w0] ∨ encode i = [w0, w1] then .ok i else .error .reservedField

/-- A little-endian word (R161) at the head of a byte list. -/
def wordOfBytes : List Byte → Option (IWord × List Byte)
  | b0 :: b1 :: b2 :: b3 :: rest =>
    some (BitVec.ofNat 32 (b0.toNat + b1.toNat * 2 ^ 8 + b2.toNat * 2 ^ 16 + b3.toNat * 2 ^ 24), rest)
  | _ => none

/-- The instruction at the head of a byte list and the bytes after it; total on any bytes. -/
def decodeBytes (bs : List Byte) : Except Reject (Instr × List Byte) :=
  match wordOfBytes bs with
  | none => .error .truncated
  | some (w0, rest) =>
    match wordOfBytes rest with
    | none =>
      match decode w0 0 with
      | .error r => .error r
      | .ok i => .ok (i, rest)
    | some (w1, rest2) =>
      match decode w0 w1 with
      | .error r => .error r
      | .ok i => .ok (i, if isLongOp (fld w0 20 6) then rest2 else rest)

/-- The n lowest bytes of a number, lowest first. -/
def bytesOfNat : Nat → Nat → List Byte
  | 0, _ => []
  | n + 1, w => BitVec.ofNat 8 w :: bytesOfNat n (w / 256)

/-- The instruction read from bits numbered as the opcode table numbers them: eight bytes, lowest first, the bits above nbits zero. -/
def decodeTableWord (nbits w : Nat) : Option Instr :=
  match decodeBytes (bytesOfNat 8 (w % 2 ^ nbits)) with
  | .ok (i, _) => some i
  | .error _ => none

end Sys2Proof
end

