-- ==== Sys2Proof/Config.lean ====
section
/-! DEFINITION. What an implementation fixes and what the spec leaves open: constants and free values. A constant declared opaque has no body, so nothing can be proved from its value; each is named in the assumption log. -/

namespace Sys2Proof

/-- One move of the reference machine (R93): an element's arbiter selects and fires a slot, a sequencer considers its next word, or a move or event of the opcode table's event rows takes place. -/
inductive Move where
  | fire (e : Nat)
  | issue (g : Nat)
  | ev (i : Instr)
  deriving DecidableEq, Repr, Inhabited

/-- The unit and place a word instruction issues from: slot n of strand k of element e, or the word at an address of sequencer g. -/
inductive Cur where
  | slot (e : Nat) (k : BitVec 2) (n : Nat)
  | word (g : Nat) (addr : Nat)
  deriving DecidableEq, Repr

namespace Config

/-- The move taken when none is chosen from outside: any move (R91). Free value, assumption 1. -/
opaque freeMove : Nat → Move
/-- Nanoseconds that pass at a move (R3, R319). Free value, assumption 2. -/
opaque freeElapsed : Nat → Nat
/-- Places an outbound queue has beyond one (R92 gives no number). Free value, assumption 7. -/
opaque outboundPlaces : Nat
/-- What gen, strand and eid read as in a sequencer (R22 and R107 give no value). Free value, assumption 6. -/
opaque seqOperand : Nat → BitVec 6 → Word
/-- Guard drops of a supervisor word (R183, R412 give no number). Free value, assumption 8. -/
opaque guardDrops : Nat → Nat
/-- Which of the free tags a launch takes (R324 says no more). Free value, assumption 13. -/
opaque tagChoice : Nat → Nat
/-- Leakage power of an element at its grove's voltage, by move: P_leak(V) of R402 (fixed by the part). Free value, assumption 8. -/
opaque leakage : Nat → Nat → Nat
/-- Energy that gating an element and waking it takes, by element: E_sleep + E_wake of R402 (fixed by the part). Free value, assumption 8. -/
opaque gatingEnergy : Nat → Nat
/-- Which TLB entry a fill replaces that no walk move makes, by move and address (R341: not architected). Free value, assumption 7. -/
opaque tlbVictim : Nat → Nat → Nat
/-- The module at the other end of a Berovo port (R390 and R391 do not say how it is known). Free value, assumption 30. -/
opaque peerModule : Nat → Nat
/-- Drops of charge that the guard supply pays at a move for leakage, retention, physical draw, walks, scrubs, waves, gating and longer routes (R399 gives no amounts). Free value, assumption 8. -/
opaque guardDraw : Nat → Nat
/-- Is a pour within the module's draw limit (R400: a measured draw)? Free value, assumption 8. -/
opaque drawOk : Nat → Bool
/-- Value of a sensor's raw code in thousandths of its unit (R403 gives no code). Free value, assumption 8. -/
opaque sensorMilli : SensorKind → Nat → Int
/-- The Berovo port of the route to a module until the monitor sets another (R391). Free value, assumption 8. -/
opaque linkRoute : Nat → Nat
/-- Hops that a frame of the module's own starts with (R390 gives none). Free value, assumption 8. -/
opaque linkTtl : Nat → BitVec 8
/-- Page of host memory that the host's IOMMU gives a 4 KiB page of a VF's requester ID (R379). Free value, assumption 9. -/
opaque hostPage : Nat → Nat → Nat
/-- The XTS key and the MAC key that the generator makes for a key id at a move (R387). Free value, assumption 9. -/
opaque freshKey : Nat → Nat → BitVec 512 × BitVec 256
/-- The identity chain of certificate slot 0, and the signature under a slot's key of a message (R384). Free values, assumption 9. -/
opaque identityChain : List Byte
opaque signature : Nat → List Byte → List Byte
/-- The features 0 to 6 that the device offers (R409 leaves them to the part). Free value, assumption 8. -/
opaque offered : BitVec 7
/-- Bytes of an image that is measured by name: 0 the boot ROM, 1 the monitor, n + 2 the firmware body n (R385). Free value, assumption 9. -/
opaque imageBytes : Nat → List Byte
/-- Bytes that a partition's configuration is measured as (R384). Free value, assumption 9. -/
opaque configBytes : List Nat → List Byte
/-- Supervisor image that the monitor writes into the groves of a partition, as its words and its guards (R24, R302). Free value, assumption 10. -/
opaque monitorImage : Nat → List (Nat × BitVec 32) × List (Nat × BitVec 32)
/-- The word of another module's memory that its reply brings to a read from outside any task, by move, module and physical address; none where no reply comes within 1 ms (R395). Free value, assumption 30. -/
opaque remoteWord : Nat → Nat → Nat → Option (BitVec 64)
/-- A word that the device alone writes and reads, by move: of the in-flight record of a spilled frame (R258), or of a save area past the words its header gives (R370). Free value, assumption 23. -/
opaque flightWord : Nat → Nat → BitVec 64
/-- Packets of a reserve that a sum takes past 48 bits (R181 gives no such sum). Free value, assumption 30. -/
opaque reserveSum : Nat → BitVec 48
/-- The alias key of measurements 1 to 3 (R384). Free value, assumption 9. -/
opaque aliasKey : BitVec 512 → BitVec 512 → BitVec 512 → Nat
/-- The key of an SPDM session with a peer (R384). Free value, assumption 9. -/
opaque sessionKey : Nat → Nat → Nat

end Config
end Sys2Proof
end

