-- ==== Sys2Proof/Machine/Fp.lean ====
section
/-! DEFINITION. Number formats and exact arithmetic (R36 to R56): values of the formats, exact sums and products, one rounding, the stochastic draw, the estimates and exp2. Encodings are natural numbers below 2 to the format's width; flags are the six bits of R54. -/

namespace Sys2Proof.Machine

/-- The flag bits of R54. -/
abbrev Flags := BitVec 6

namespace Flag
/-- Invalid. -/
def iv : Flags := 1
/-- Divide-by-zero. -/
def dz : Flags := 2
/-- Overflow. -/
def of : Flags := 4
/-- Underflow. -/
def uf : Flags := 8
/-- Inexact. -/
def ix : Flags := 16
/-- Saturate. -/
def sa : Flags := 32
end Flag

/-- How a format treats its top exponent field (R36). -/
inductive Specials where
  /-- Infinities and NaNs as IEEE 754-2019. -/
  | ieee
  /-- Every encoding finite but the one with all ones (E4M3). -/
  | oneNan
  /-- No infinity and no NaN. -/
  | none
  deriving DecidableEq, Repr

/-- A floating-point format (R36). -/
structure FpFormat where
  expBits : Nat
  manBits : Nat
  bias : Nat
  specials : Specials
  deriving DecidableEq, Repr

namespace FpFormat
def f32 : FpFormat := ⟨8, 23, 127, .ieee⟩
def bf16 : FpFormat := ⟨8, 7, 127, .ieee⟩
def f16 : FpFormat := ⟨5, 10, 15, .ieee⟩
def f64 : FpFormat := ⟨11, 52, 1023, .ieee⟩
def e4m3 : FpFormat := ⟨4, 3, 7, .oneNan⟩
def e5m2 : FpFormat := ⟨5, 2, 15, .ieee⟩
def e3m2 : FpFormat := ⟨3, 2, 3, .none⟩
def e2m3 : FpFormat := ⟨2, 3, 1, .none⟩
def e2m1 : FpFormat := ⟨2, 1, 1, .none⟩

/-- Width in bits. -/
def width (f : FpFormat) : Nat := 1 + f.expBits + f.manBits
/-- The sign bit's weight. -/
def signBit (f : FpFormat) : Nat := 2 ^ (f.expBits + f.manBits)
/-- Exponent of the smallest quantum: the value of encoding 1 is 2 to this. -/
def quantum (f : FpFormat) : Int := 1 - (f.bias : Int) - f.manBits
/-- Encoding of the largest finite magnitude (R36). -/
def maxFinite (f : FpFormat) : Nat :=
  match f.specials with
  | .ieee => (2 ^ f.expBits - 1) * 2 ^ f.manBits - 1
  | .oneNan => f.signBit - 2
  | .none => f.signBit - 1
/-- Encoding of +infinity where the format has one. -/
def inf (f : FpFormat) : Nat := (2 ^ f.expBits - 1) * 2 ^ f.manBits
/-- The canonical NaN (R37); zero in a format without NaN (R42). -/
def nan (f : FpFormat) : Nat :=
  match f.specials with
  | .ieee => f.inf + 2 ^ (f.manBits - 1)
  | .oneNan => f.signBit - 1
  | .none => 0
end FpFormat

/-- The exact value of an encoding: (-1)^neg times m times 2^e when finite. -/
inductive FpVal where
  | nan (signalling : Bool)
  | inf (neg : Bool)
  | fin (neg : Bool) (m : Nat) (e : Int)
  deriving DecidableEq, Repr

/-- Value of an encoding (R36); under flush a subnormal reads as the zero of its sign (R43). -/
def fpRead (f : FpFormat) (flush : Bool) (x : Nat) : FpVal :=
  let neg := x / f.signBit % 2 == 1
  let mag := x % f.signBit
  let ex := mag / 2 ^ f.manBits
  let man := mag % 2 ^ f.manBits
  let finite : FpVal :=
    if ex = 0 then .fin neg (if flush then 0 else man) f.quantum
    else .fin neg (man + 2 ^ f.manBits) (f.quantum + (ex - 1 : Nat))
  match f.specials with
  | .ieee =>
    if ex + 1 = 2 ^ f.expBits then
      if man = 0 then .inf neg else .nan (man < 2 ^ (f.manBits - 1))
    else finite
  | .oneNan => if mag + 1 = f.signBit then .nan false else finite
  | .none => finite

/-- Invalid for a signalling NaN input (R37). -/
def FpVal.inputFlag : FpVal → Flags
  | .nan true => Flag.iv
  | _ => 0

def FpVal.isNan : FpVal → Bool
  | .nan _ => true
  | _ => false

def FpVal.neg : FpVal → FpVal
  | .nan s => .nan s
  | .inf n => .inf (!n)
  | .fin n m e => .fin (!n) m e

/-- Parameters of one rounding: mode (R40), the draw R of R41, the flush bit (R43) and the saturate bit (R42). -/
structure Rounding where
  mode : Nat
  draw : Nat := 0
  flush : Bool := false
  sat : Bool := false
  deriving DecidableEq, Repr

/-- Does a quotient with the given odd bit and remainder r of D round away from zero (R40, R41)? A mode of 5 to 7, which only a plane image in memory can hold, rounds as the stochastic mode does (assumption 27). -/
def roundsUp (mode draw : Nat) (neg odd : Bool) (r d : Nat) : Bool :=
  if r = 0 then false
  else match mode with
    | 0 => decide (2 * r > d) || (decide (2 * r = d) && odd)
    | 1 => false
    | 2 => neg
    | 3 => !neg
    | _ => decide (draw < r * 2 ^ 32 / d)

/-- n/d times 2^s as a quotient and a remainder with its divisor. -/
def scaledDiv (n d : Nat) (s : Int) : Nat × Nat × Nat :=
  let num := n * 2 ^ s.toNat
  let den := d * 2 ^ (-s).toNat
  (num / den, num % den, den)

/-- Exponent L with 2^L ≤ n/d < 2^(L+1), for positive n and d. -/
def log2Ratio (n d : Nat) : Int :=
  let l : Int := (Nat.log2 n : Int) - (Nat.log2 d : Int)
  if d * 2 ^ l.toNat ≤ n * 2 ^ (-l).toNat then l else l - 1

/-- Overflowed result (R42): the encoding of its magnitude and the flags; E4M3 without saturation gives its NaN. -/
def overflowed (f : FpFormat) (r : Rounding) (neg : Bool) : Nat × Flags :=
  let sgn := if neg then f.signBit else 0
  if r.sat || f.specials == .none then (sgn + f.maxFinite, Flag.of ||| Flag.ix ||| Flag.sa)
  else if f.specials == .oneNan then (f.nan, Flag.iv ||| Flag.ix)
  else
    let toInf := match r.mode with
      | 0 => true
      | 1 => false
      | 2 => neg
      | 3 => !neg
      | _ => true
    (sgn + (if toInf then f.inf else f.maxFinite), Flag.of ||| Flag.ix)

/-- Rounds the nonzero or zero magnitude n/d times 2^e once to the format (R40 to R43). -/
def fpRound (f : FpFormat) (r : Rounding) (neg : Bool) (n d : Nat) (e : Int) : Nat × Flags :=
  let sgn := if neg then f.signBit else 0
  if n = 0 then (sgn, 0)
  else
    let ex := log2Ratio n d + e
    let q := max (ex - f.manBits) f.quantum
    let (k, rem, den) := scaledDiv n d (e - q)
    let k' := if roundsUp r.mode r.draw neg (k % 2 == 1) rem den then k + 1 else k
    let enc := (q - f.quantum).toNat * 2 ^ f.manBits + k'
    if enc > f.maxFinite then overflowed f r neg
    else
      let inexact := rem != 0
      -- the result with the exponent range unbounded (R43): below the normal range or not
      let (ku, ru, du) := scaledDiv n d (e - (ex - f.manBits))
      let ku' := if roundsUp r.mode r.draw neg (ku % 2 == 1) ru du then ku + 1 else ku
      let tiny := ex < f.quantum + f.manBits &&
        !(ex == f.quantum + f.manBits - 1 && decide (ku' ≥ 2 ^ (f.manBits + 1)))
      let fl := (if inexact then Flag.ix else 0) ||| (if tiny && inexact then Flag.uf else 0)
      if r.flush && decide (enc < 2 ^ f.manBits) then (sgn, Flag.uf ||| Flag.ix)
      else (sgn + enc, fl)

/-- Narrows a value to a format (R42). -/
def fpWrite (f : FpFormat) (r : Rounding) : FpVal → Nat × Flags
  | .nan _ => (f.nan, if f.specials == .none then Flag.iv else 0)
  | .inf neg =>
    let sgn := if neg then f.signBit else 0
    if r.sat || f.specials == .none then (sgn + f.maxFinite, Flag.sa)
    else if f.specials == .oneNan then (f.nan, Flag.iv)
    else (sgn + f.inf, 0)
  | .fin neg m e => fpRound f r neg m 1 e

/-- Exact product of two values with its flags (R37). -/
def fpMul : FpVal → FpVal → FpVal × Flags
  | .nan _, _ => (.nan false, 0)
  | _, .nan _ => (.nan false, 0)
  | .inf a, .inf b => (.inf (a != b), 0)
  | .inf a, .fin b m _ => if m = 0 then (.nan false, Flag.iv) else (.inf (a != b), 0)
  | .fin a m _, .inf b => if m = 0 then (.nan false, Flag.iv) else (.inf (a != b), 0)
  | .fin a m e, .fin b n g => (.fin (a != b) (m * n) (e + g), 0)

/-- Least exponent among the finite terms. -/
def minExp : List FpVal → Int → Int
  | [], acc => acc
  | .fin _ _ e :: ts, acc => minExp ts (min e acc)
  | _ :: ts, acc => minExp ts acc

/-- Sum of the finite terms in units of 2^base, base being at most every exponent. -/
def sumAt (base : Int) : List FpVal → Int
  | [] => 0
  | .fin neg m e :: ts =>
    (if neg then -((m * 2 ^ (e - base).toNat : Nat) : Int) else ((m * 2 ^ (e - base).toNat : Nat) : Int)) + sumAt base ts
  | _ :: ts => sumAt base ts

def isZeroOf (neg : Bool) : FpVal → Bool
  | .fin n m _ => m == 0 && n == neg
  | _ => false

/-- Exact sum of terms (R45, R47): specials first, then the exact value, and the sign of an exact zero. A NaN term decides before infinities of both signs do, which then raise no invalid (assumption 27). -/
def fpSum (mode : Nat) (ts : List FpVal) : FpVal × Flags :=
  if ts.any FpVal.isNan then (.nan false, 0)
  else if ts.contains (.inf false) && ts.contains (.inf true) then (.nan false, Flag.iv)
  else if ts.contains (.inf false) then (.inf false, 0)
  else if ts.contains (.inf true) then (.inf true, 0)
  else
    let base := minExp ts 0
    let s := sumAt base ts
    if s = 0 then
      if mode = 2 then (.fin (!ts.all (isZeroOf false)) 0 0, 0)
      else (.fin (ts.all (isZeroOf true)) 0 0, 0)
    else (.fin (s < 0) s.natAbs base, 0)

/-- The draw R of R41. -/
def stochasticDraw (seed : Word) (eid : Word) (pos lane : Nat) : Nat :=
  let k0 : Word := seed ^^^ (eid * 0x9E3779B97F4A7C15) ^^^ BitVec.ofNat 64 (pos * 256 + lane)
  let k1 : Word := (k0 ^^^ (k0 >>> 30)) * 0xBF58476D1CE4E5B9
  let k2 : Word := (k1 ^^^ (k1 >>> 27)) * 0x94D049BB133111EB
  let k3 : Word := k2 ^^^ (k2 >>> 31)
  k3.toNat / 2 ^ 32

/-- Quotient of two values with the special cases of R148. -/
def fpDiv (f : FpFormat) (r : Rounding) : FpVal → FpVal → Nat × Flags
  | .nan _, _ => (f.nan, 0)
  | _, .nan _ => (f.nan, 0)
  | .inf _, .inf _ => (f.nan, Flag.iv)
  | .inf a, .fin b _ _ => fpWrite f r (.inf (a != b))
  | .fin a _ _, .inf b => ((if a != b then f.signBit else 0), 0)
  | .fin a m e, .fin b n g =>
    if n = 0 then
      if m = 0 then (f.nan, Flag.iv) else ((if a != b then f.signBit else 0) + f.inf, Flag.dz)
    else fpRound f r (a != b) m n (e - g)

/-- Multiplication by 2^k, k clamped to where every format has over- or underflowed in the same way (R148). -/
def fpScale (k : Int) : FpVal → FpVal
  | .fin neg m e => .fin neg m (e + max (-8192) (min 8192 k))
  | v => v

/-- Largest number of at most the given bits whose test holds, the test being downward closed. -/
def bitSearch (test : Nat → Bool) : Nat → Nat → Nat
  | 0, acc => acc
  | b + 1, acc => bitSearch test b (if test (acc + 2 ^ b) then acc + 2 ^ b else acc)

/-- round9(256/(2i+1)) in units of 2^-9 (R51). -/
def recip9 (i : Nat) : Nat := (2 * 131072 + (2 * i + 1)) / (2 * (2 * i + 1))

/-- round9(1/sqrt((2i+1) 2^t / 256)) in units of 2^-9 (R51): the largest k with (2k-1)^2 (2i+1) 2^t at most 2^28. -/
def rsqrt9 (i t : Nat) : Nat :=
  bitSearch (fun k => decide ((2 * k - 1) * (2 * k - 1) * ((2 * i + 1) * 2 ^ t) ≤ 2 ^ 28)) 10 0

/-- Reciprocal estimate of a lane (R51). -/
def fpRecipEst (f : FpFormat) (flush : Bool) (x : Nat) : Nat × Flags :=
  match fpRead f flush x with
  | .nan s => (f.nan, if s then Flag.iv else 0)
  | .inf neg => ((if neg then f.signBit else 0), 0)
  | .fin neg m e =>
    if m = 0 then ((if neg then f.signBit else 0) + f.inf, Flag.dz)
    else
      let l := Nat.log2 m
      let i := m * 128 / 2 ^ l
      let (k, g) : Nat × Int := if i = 128 then (1, 0) else (recip9 i, -9)
      let (y, fl) := fpRound f { mode := 0, flush := flush } neg k 1 (g - (e + l))
      (y, fl &&& ~~~Flag.ix)

/-- Reciprocal square root estimate of a lane (R51). -/
def fpRsqrtEst (f : FpFormat) (flush : Bool) (x : Nat) : Nat × Flags :=
  match fpRead f flush x with
  | .nan s => (f.nan, if s then Flag.iv else 0)
  | .inf neg => if neg then (f.nan, Flag.iv) else (0, 0)
  | .fin neg m e =>
    if m = 0 then ((if neg then f.signBit else 0) + f.inf, Flag.dz)
    else if neg then (f.nan, Flag.iv)
    else
      let l := Nat.log2 m
      let i := m * 128 / 2 ^ l
      let ex : Int := e + l
      let t := (ex % 2).toNat
      let (k, g) : Nat × Int := if i = 128 ∧ t = 0 then (1, 0) else (rsqrt9 i t, -9)
      let (y, fl) := fpRound f { mode := 0, flush := flush } false k 1 (g - ex / 2)
      (y, fl &&& ~~~Flag.ix)

/-- round(2^(j/64), FP32, RNE) in units of 2^-23 (R52): the largest k with (2k-1)^64 at most 2^(64*24+j). -/
def exp2Table (j : Nat) : Nat :=
  bitSearch (fun k => decide ((2 * k - 1) ^ 64 ≤ 2 ^ (64 * 24 + j))) 25 0

/-- exp2 of an FP32 lane (R52). -/
def fpExp2 (r : Rounding) (x : Nat) : Nat × Flags :=
  match fpRead .f32 r.flush x with
  | .nan s => (FpFormat.f32.nan, if s then Flag.iv else 0)
  | .inf neg => (if neg then 0 else FpFormat.f32.inf, 0)
  | .fin neg m e =>
    let sh := (-e).toNat
    let a := m * 2 ^ e.toNat
    let num : Int := if neg then -(a : Int) else a
    let one : Int := ((2 ^ sh : Nat) : Int)
    if num ≥ 128 * one then (FpFormat.f32.inf, Flag.of ||| Flag.ix)
    else if num < -150 * one then (0, Flag.uf ||| Flag.ix)
    else
      let n := num / one
      let fr := (num % one).toNat
      if fr = 0 ∧ n ≥ -149 then fpRound .f32 { r with sat := false } false 1 1 n
      else
        let j := fr * 64 / 2 ^ sh
        let tn := fr * 64 - j * 2 ^ sh
        let s := sh + 6
        let p := 2 ^ (3 * s + 28) +
          tn * (0xB17218 * 2 ^ (2 * s + 4) + tn * (0xF5FDF0 * 2 ^ (s + 2) + tn * 0xE35847))
        let (y, fl) := fpRound .f32 { r with sat := false } false (exp2Table j * p) 1 (n - 23 - (3 * s + 28 : Nat))
        (y, fl ||| Flag.ix)

/-- Rounds the exact value n/d times 2^e to an integer and clamps it (R50, R42). -/
def fpToInt (lo hi : Int) (r : Rounding) : FpVal → Int × Flags
  | .nan _ => (0, Flag.iv)
  | .inf neg => (if neg then lo else hi, Flag.sa)
  | .fin neg m e =>
    let (k, rem, den) := scaledDiv m 1 e
    let k' := if roundsUp r.mode r.draw neg (k % 2 == 1) rem den then k + 1 else k
    let v : Int := if neg then -(k' : Int) else k'
    let fl := if rem = 0 then 0 else Flag.ix
    if v < lo then (lo, fl ||| Flag.sa) else if v > hi then (hi, fl ||| Flag.sa) else (v, fl)

/-- Format of a floating-point format code 0x0 to 0x8 or of the elements of an MX code (R36). -/
def formatOfCode (c : Nat) : Option FpFormat :=
  match c with
  | 0 => some .f32
  | 1 => some .bf16
  | 2 => some .f16
  | 3 => some .f64
  | 4 => some .e4m3
  | 5 => some .e5m2
  | 6 => some .e3m2
  | 7 => some .e2m3
  | 8 => some .e2m1
  | 12 => some .e4m3
  | 13 => some .e3m2
  | 14 => some .e2m3
  | 15 => some .e2m1
  | _ => none

/-- Bits of one element of a format code (R36). -/
def formatWidth (c : Nat) : Nat :=
  match c with
  | 0 => 32
  | 1 => 16
  | 2 => 16
  | 3 => 64
  | 4 => 8
  | 5 => 8
  | 6 => 6
  | 7 => 6
  | 8 => 4
  | 9 => 8
  | 10 => 4
  | 11 => 3
  | 12 => 8
  | 13 => 6
  | 14 => 6
  | _ => 4

/-- Does a format code carry an E8M0 scale (R39)? -/
def hasE8M0 (c : Nat) : Bool := c ≥ 12
/-- Does a format code carry an FP16 scale (R39)? -/
def hasF16Scale (c : Nat) : Bool := c == 10 || c == 11

/-- Two's complement value of the low w bits of x, for positive w. -/
def signedOf (w x : Nat) : Int :=
  let y := x % 2 ^ w
  if y ≥ 2 ^ (w - 1) then (y : Int) - ((2 ^ w : Nat) : Int) else y

/-- An integer as an exact value (an integer zero is +0, R39). -/
def fpOfInt (i : Int) : FpVal := .fin (i < 0) i.natAbs 0

/-- Value of an element of a format code under its group's raw scale (R39); scale 0 stands where the format has none. Flags are those of forming the value. -/
def scaledElement (c scale x : Nat) : FpVal × Flags :=
  if hasE8M0 c then
    match formatOfCode c with
    | some f =>
      if scale = 0xFF then (.nan false, 0)
      else (fpScale ((scale : Int) - 127) (fpRead f false x), 0)
    | none => (.nan false, 0)
  else if hasF16Scale c then
    let v := signedOf (formatWidth c) x
    match fpRead .f16 false scale with
    | .nan s => (.nan false, if s then Flag.iv else 0)
    | .inf neg => if v = 0 then (.nan false, Flag.iv) else (.inf (neg != decide (v < 0)), 0)
    | sc => fpMul (fpOfInt v) sc
  else if c = 9 then (fpOfInt (signedOf 8 x), 0)
  else
    match formatOfCode c with
    | some f => let v := fpRead f false x; (match v with | .nan _ => .nan false | w => w, v.inputFlag)
    | none => (.nan false, 0)

end Sys2Proof.Machine
end

