-- ==== Sys2Proof/Machine/Map.lean ====
section
/-! DEFINITION. Sparse tables and the byte memory: lists sorted by key, read with a default. Every table of the state that most runs leave nearly empty is one of these. -/

namespace Sys2Proof.Machine

/-- A table from numbers: a list sorted by key. -/
abbrev SMap (α : Type) := List (Nat × α)

/-- The entry of a key, if listed. -/
def mfind {α : Type} : SMap α → Nat → Option α
  | [], _ => none
  | (k, v) :: t, i => if i = k then some v else mfind t i

/-- The entry of a key, or the default. -/
def mget {α : Type} (d : α) (m : SMap α) (i : Nat) : α := (mfind m i).getD d

/-- Sets an entry, keeping the order. -/
def mset {α : Type} : SMap α → Nat → α → SMap α
  | [], i, x => [(i, x)]
  | (k, v) :: t, i, x => if i < k then (i, x) :: (k, v) :: t else if i = k then (i, x) :: t else (k, v) :: mset t i x

/-- Removes an entry. -/
def merase {α : Type} : SMap α → Nat → SMap α
  | [], _ => []
  | (k, v) :: t, i => if i = k then merase t i else (k, v) :: merase t i

/-- Changes an entry. -/
def mmod {α : Type} (d : α) (m : SMap α) (i : Nat) (f : α → α) : SMap α := mset m i (f (mget d m i))

/-- The byte memory of the whole module. -/
abbrev Memory := List Host.Cell

/-- What an address that the list does not hold reads as: zero (R75 for element banks; assumption 3 for HBM and host memory). -/
def unlistedByte : Byte := 0

/-- Reads one byte. -/
def byteAt : Memory → Nat → Byte
  | [], _ => unlistedByte
  | (k, v) :: t, a => if a = k then v else byteAt t a

/-- Writes one byte, keeping addresses rising and listing no byte equal to what an unlisted address reads as. -/
def setByte : Memory → Nat → Byte → Memory
  | [], a, b => if b = unlistedByte then [] else [(a, b)]
  | (k, v) :: t, a, b =>
    if a < k then (if b = unlistedByte then (k, v) :: t else (a, b) :: (k, v) :: t)
    else if a = k then (if b = unlistedByte then t else (a, b) :: t)
    else (k, v) :: setByte t a b

/-- Are the addresses of a memory rising above a bound, with no listed byte equal to what an unlisted one reads as? -/
def memoryAbove : Option Nat → Memory → Bool
  | _, [] => true
  | none, (k, v) :: t => v != unlistedByte && memoryAbove (some k) t
  | some lo, (k, v) :: t => decide (lo < k) && v != unlistedByte && memoryAbove (some k) t

/-- The canonical form of a memory. -/
def Memory.wf (m : Memory) : Bool := memoryAbove none m

/-- n bytes from an address, as a little-endian number (R161). -/
def readBytes (m : Memory) (a : Nat) : Nat → Nat
  | 0 => 0
  | n + 1 => (byteAt m a).toNat + 256 * readBytes m (a + 1) n

/-- Writes the n low bytes of a number, lowest first (R161). -/
def writeBytes (m : Memory) (a v : Nat) : Nat → Memory
  | 0 => m
  | n + 1 => writeBytes (setByte m a (BitVec.ofNat 8 v)) (a + 1) (v / 256) n

/-- The 64-bit word at an address. -/
def wordAt (m : Memory) (a : Nat) : Word := BitVec.ofNat 64 (readBytes m a 8)

/-- Writes a 64-bit word. -/
def setWord (m : Memory) (a : Nat) (v : Word) : Memory := writeBytes m a v.toNat 8

/-- Writes a list of bytes from an address on. -/
def setBytes (m : Memory) (a : Nat) : List Byte → Memory
  | [] => m
  | b :: bs => setBytes (setByte m a b) (a + 1) bs

/-- Clears n bytes from an address on. -/
def clearBytes (m : Memory) (a n : Nat) : Memory := m.filter (fun c => decide (c.1 < a) || decide (a + n ≤ c.1))

/-- Entry i of a register file. -/
def reg {n : Nat} (r : Vector Word n) (i : Nat) : Word := r[i]?.getD 0

/-- Bits lo to lo + len - 1 of a number. -/
def bits (x lo len : Nat) : Nat := x / 2 ^ lo % 2 ^ len

end Sys2Proof.Machine
end

