-- ==== Sys2Proof/Machine/State.lean ====
section
/-! DEFINITION. The state of the module: everything the spec gives the machine (R92 and the rules each field names), the reasons a step can stop, and the state after reset. Every structure's default values are its values at reset. -/

namespace Sys2Proof.Machine

/-- Sixteen 64-bit registers (R22, R24). -/
abbrev Regs := Vector Word 16
/-- Sixteen zero registers. -/
def Regs.zero : Regs := Vector.replicate 16 0

/-- A token: payload and tag (R57). The field tid is the model's own: it names the enqueue the token is a copy of, for R72; 0 for primed tokens and markers. -/
structure Token where
  payload : Word := 0
  gen : BitVec 4 := 0
  mark : BitVec 3 := 0
  frame : BitVec 2 := 0
  pres : Bool := true
  cls : BitVec 6 := 0
  tid : Nat := 0
  deriving DecidableEq, Repr

/-- A strand: registers, predicates, current generation and configuration bits (R22, R43, R56, R257). -/
structure Strand where
  w : Regs := Regs.zero
  p : BitVec 8 := 0
  gen : BitVec 4 := 0
  halted : Bool := false
  flush : Bool := false
  traps : Flags := 0
  deriving DecidableEq, Repr

/-- A node descriptor of four words (R110). -/
structure Desc where
  w0 : IWord := 0
  w1 : IWord := 0
  w2 : IWord := 0
  w3 : IWord := 0
  deriving DecidableEq, Repr

/-- Where a value that arrives after its firing goes (R162); plane is a preload into an understory position (R264), hist the placer, for its accesses to histogram words (R297). -/
inductive Dest where
  | hist
  | none
  | reg (code : BitVec 6)
  | chan (ch : BitVec 5)
  | plane (pos : Nat)
  deriving DecidableEq, Repr

/-- Position of a matrix node (R214 to R216): the intake's open run, its next word and whether it discards; the buffers in rotation to fill, to read and to write; taken-in tiles not yet read; the output tile and its next step, the last step's rounded results, the steps made; the tile being written; the end mark due after NT tiles. -/
structure MatrixState where
  runOpen : Bool := false
  fill : Nat := 0
  discard : Bool := false
  aFill : Nat := 0
  aLeft : Nat := 0
  aRead : Nat := 0
  bRead : Nat := 0
  cFill : Nat := 0
  tile : Nat := 0
  step : Nat := 0
  acc : List Nat := []
  done : Nat := 0
  gen : BitVec 4 := 0
  writing : Bool := false
  output : List Word := []
  outFirst : Bool := false
  eos : Option Token := none
  ended : Bool := false
  deriving DecidableEq, Repr

/-- Position of a converter node (R219, R220): the partial payload, the MX group and tile, tokens formed and not yet enqueued, and the output index. -/
structure ConvState where
  held : Nat := 0
  bitsHeld : Nat := 0
  gen : BitVec 4 := 0
  group : List Nat := []
  scales : List Nat := []
  elems : List Nat := []
  output : List Token := []
  index : Nat := 0
  deriving DecidableEq, Repr

/-- Position of a corner-turn node (R222). -/
structure TurnState where
  block : List Token := []
  emitting : Bool := false
  output : List Token := []
  after : Option Token := none
  deriving DecidableEq, Repr

/-- The race unit of a C element (R286 to R289): the round armed, as (k, destination, strand, generation, identity of the reserved place), its candidates as (index, key), the tokens each intake has taken in it, whether it has met a race cause; the end mark due after its result, as (channel, strand, generation); whether the unit has finished. -/
structure RaceState where
  armed : Option (Nat × Dest × BitVec 2 × BitVec 4 × Nat) := none
  cands : List (Nat × Nat) := []
  takenA : Nat := 0
  takenB : Nat := 0
  overRange : Bool := false
  eos : Option (BitVec 5 × BitVec 2 × BitVec 4) := none
  finished : Bool := false
  deriving DecidableEq, Repr

/-- Positions of the nodes of a plane (R214 to R222, R286). -/
structure Nodes where
  matrix : MatrixState := {}
  conv : ConvState := {}
  turn : TurnState := {}
  race : RaceState := {}
  deriving DecidableEq, Repr

/-- A plane: the configuration and the strand state of an element (R255 to R257). An empty plane has FMT zero and every field at these values. fresh says that its primed tokens (queue) have not been queued yet (R265); nodes keeps the positions of its nodes while it is not active. -/
structure Plane where
  present : Bool := false
  callx : Bool := false
  armk : BitVec 2 := 0
  arb : BitVec 2 := 0
  pool : SMap IWord := []
  strandMap : Word := 0
  trig : SMap IWord := []
  chan : SMap IWord := []
  route : SMap IWord := []
  node : SMap Desc := []
  sreg : Vector Word 8 := Vector.replicate 8 0
  strands : Vector Strand 4 := Vector.replicate 4 {}
  queue : SMap (List Token) := []
  arg : BitVec 32 := 0
  res : BitVec 32 := 0
  fresh : Bool := false
  nodes : Nodes := {}
  deriving DecidableEq, Repr

/-- An empty pool slot (R108). -/
def emptySlot : IWord := 0xFC000000
/-- A channel entry at reset: DEPTH 2 (R64). -/
def emptyChan : IWord := 0x00020000

/-- Decode state of an inbound channel (R66): the run in progress, undecoded bits, the unpaired element, the elements emitted, the header tokens still due and whether the rest of the run is discarded. -/
structure DecodeRun where
  isOpen : Bool := false
  bitsHeld : Nat := 0
  held : Nat := 0
  pending : Option Nat := none
  count : Nat := 0
  header : Nat := 0
  skip : Bool := false
  last : Token := {}
  deriving DecidableEq, Repr

/-- The atomics of R168. -/
inductive AtomicOp where
  | add | addf | min | max | minu | maxu | and | or | xchg | cas
  deriving DecidableEq, Repr

/-- What a request does at its target (R161 to R176, R225 to R228). -/
inductive ReqKind where
  | load (signed : Bool)
  | store
  | atomic (op : AtomicOp)
  | contribute
  | tagFull
  | tagEmpty
  | void (len : Nat)
  | arrive (present : Bool)
  | wait (phase : BitVec 16)
  | absent
  deriving DecidableEq, Repr

/-- The unit a request is served by (R98); host memory under the requester ID of a VF (R379). -/
inductive Target where
  | bank (e b : Nat)
  | hbm (pa : Nat)
  | host (vf addr : Nat)
  | module (m : Nat) (pa : Nat)
  deriving DecidableEq, Repr

/-- How far a request has come (R93): waiting for a request of its chain with the SEQ that PRED names to fire, for the PRED request to be performed (R98), for the phase that its strand's arrival joins (R176), for its translation, on its way, in the port queue, in the deferred list, answered, failed with a cause, or held after its cause was raised until its unit resumes (R232, R352). -/
inductive Stage where
  | held
  | after (pred : Nat)
  | joining
  | xlate
  | sent
  | queued
  | deferred
  | done (value : Word) (flags : Flags)
  | failed (cause : Nat)
  | stopped (cause : Nat)
  deriving DecidableEq, Repr

/-- Wave fields of a request (R97). -/
structure Wave where
  seq : BitVec 8
  pred : BitVec 8
  succ : BitVec 8
  deriving DecidableEq, Repr

/-- The request of a chain that PRED names, once it is known (R98): its identity, and its destination where that is known. -/
structure PredRef where
  req : Nat
  target : Option Target
  deriving DecidableEq, Repr

/-- What a void has still to reach (R84, R393): a sector that is tentative, or the part of it that another module is to answer for under a request id. -/
inductive Left where
  | sector (n : Nat)
  | remote (rid : Nat)
  deriving DecidableEq, Repr

def Left.isRemote : Left → Bool
  | .remote _ => true
  | .sector _ => false

/-- ST and TAG of an HBM sector (R83). -/
structure SectorMeta where
  st : BitVec 2 := 0
  tag : BitVec 14 := 0
  deriving DecidableEq, Repr

/-- A memory request from its firing to its reply (R161, R162). -/
structure Req where
  src : UnitId
  strand : BitVec 2 := 0
  slot : Nat := 0
  supervisor : Bool := false
  tag : Nat := 0
  kind : ReqKind
  addr : Nat
  size : Nat := 8
  data : Word := 0
  cmp : Word := 0
  dest : Dest := .none
  gen : BitVec 4 := 0
  wave : Option Wave := none
  pred : Option PredRef := none
  target : Target := .bank 0 0
  scope : BitVec 3 := 0
  /-- Page attribute of a translated access: a PL page (R83); and its key id, none where no leaf gives one (R387). -/
  pl : Bool := false
  key : Option Nat := none
  /-- Base and size of the pages that a translated access goes through (R349); size 0 while there are none. -/
  page : Nat := 0
  pageSize : Nat := 0
  /-- The memory that a translated void reaches, with lengths: the translation it carries (R349). -/
  parts : List (Target × Nat) := []
  /-- Identity of the token whose place was reserved. -/
  tid : Nat := 0
  stage : Stage := .sent
  word : IWord := 0
  /-- Position of an AG access in its command; 0 for others. -/
  pos : Nat := 0
  /-- Words of a 64-byte sector access (R161, R225): those to write, or those read; none is not written. -/
  sectorWords : List (Option Word) := []
  /-- A supervisor copy between SA pages carries each sector's ST and TAG (R389): asked for by a read, and the metadata read or to be written. -/
  carry : Bool := false
  sectorMeta : Option SectorMeta := none
  /-- What a void has still to reach; none before it is first served. -/
  left : Option (List Left) := none
  /-- Id of a request to another module (R393). -/
  rid : Nat := 0
  /-- Chain of a request from another module, as its message names it (R99). -/
  chain : Nat := 0
  since : Nat := 0
  /-- A commit or vanish has resolved the sector that it waits on: it wakes in any order (R104). -/
  anyOrder : Bool := false
  deriving DecidableEq, Repr

/-- A port: queued and deferred requests, oldest first, and the last served SEQ of each chain (R75, R79, R92, R99). -/
structure Port where
  queue : List Nat := []
  deferred : List Nat := []
  chains : SMap (BitVec 8) := []
  deriving DecidableEq, Repr

/-- Presence and AC count of a bank word (R75, R78). spent is how many contributions have been taken. -/
structure WordMeta where
  full : Bool := false
  spent : Nat := 0
  deriving DecidableEq, Repr

/-- Run-time state of a buffer window: tile tags and rotation (R80), FIFO head and fill (R81), line-buffer words appended (R82). -/
structure WinState where
  tags : BitVec 4 := 0
  head : Nat := 0
  count : Nat := 0
  appended : Nat := 0
  deriving DecidableEq, Repr

/-- Owner of a bank (R85 to R88): no one, a task, a context, or the successor of the load with a launch serial. -/
inductive Owner where
  | free
  | held (tag : Nat)
  | openPark (ctx : Nat)
  | keptPark (ctx : Nat)
  | reserved (serial : Nat)
  deriving DecidableEq, Repr

/-- Ownership state of a bank: owner, whether its holder wrote it, whether it was claimed, and from an open park, whether its HAND 2 mark has been enqueued (R86). -/
structure Bank where
  owner : Owner := .free
  written : Bool := false
  claimed : Bool := false
  wasOpen : Bool := false
  marked : Bool := false
  deriving DecidableEq, Repr

/-- A pending at (R178). -/
structure PendingAt where
  ch : BitVec 5
  target : Word
  strand : BitVec 2
  gen : BitVec 4
  tid : Nat
  deriving DecidableEq, Repr

/-- A fence fired and not complete: its scope and the earlier requests it waits for (R101). -/
structure Fence where
  strand : BitVec 2
  scope : BitVec 3
  waits : List Nat
  deriving DecidableEq, Repr

/-- Barrier record of a strand or sequencer: the word and the phase joined, and the arrival that joined it (R175). -/
structure BarRec where
  word : Nat
  phase : BitVec 16
  req : Nat := 0
  deriving DecidableEq, Repr

/-- The most recently fired wave-ordered request of a chain, kept for R98; its destination, where that is known. -/
structure ChainRec where
  strand : BitVec 2
  gen : BitVec 4
  seq : BitVec 8
  target : Option Target
  req : Nat
  deriving DecidableEq, Repr

/-- A queued lookup-cell array operation (R246). -/
inductive LcOp where
  | load (pos : BitVec 6) (ch : BitVec 5) (taken : Nat) (bad : Bool)
  | ctx (k : BitVec 3)
  | sweep (n : Nat) (rel : Bool)
  | put (v : Word) (x : BitVec 8)
  | out (dest : Dest) (sel : BitVec 10) (gen : BitVec 4) (tid : Nat)
  deriving DecidableEq, Repr

/-- The selector word with every selector 0x300, the reset value of a wiring entry (R239, R241). -/
def resetWiring : Word := 0x0C0300C0300C0300

/-- The lookup-cell array of a C element (R239), its queued operations with the strand and slot they fired from (R246): unlisted slices, levels and tables are zero, unlisted wiring is resetWiring. -/
structure LcArray where
  slices : SMap Word := []
  level : SMap Word := []
  table : SMap Word := []
  wiring : SMap Word := []
  context : BitVec 3 := 0
  countA : Nat := 0
  countB : Nat := 0
  queue : List (LcOp × BitVec 2 × Nat) := []
  deriving DecidableEq, Repr

/-- Staging state of an AG, written by sbind and spat (R223, R225). -/
structure Staging where
  base : Word := 0
  ch : BitVec 5 := 0
  inbound : Bool := false
  sector : Bool := false
  strides : Word := 0
  counts : Word := 0
  deriving DecidableEq, Repr

/-- Kinds of queued stream command (R226 to R231). -/
inductive AgKind where
  | affine (marks : BitVec 2)
  | gather (ch : BitVec 5) (fwdend : Bool)
  | scatter (ch : BitVec 5)
  | copy (src : Word) (len : Nat)
  | set (merge : Bool) (first : Bool) (d : BitVec 6)
  deriving DecidableEq, Repr

/-- A patched page extent of an AG (R343): virtual and physical base, size and leaf. -/
structure Extent where
  va : Nat
  pa : Nat
  size : Nat
  leaf : Word
  deriving DecidableEq, Repr

/-- A queued stream command with its staged pattern and its position (R223): next access, accesses charged, tokens enqueued, replies held for pattern order, whether it has ended, its place in the grove's issue order, the keys and closing phase of a sparse set command, the metadata that a copy carries (R389), the accesses whose burst has been checked, the extents that they were checked under (R345), and the pairs that a scatter has collected of a burst, as (address, value), none for a pair that writes nothing (R345). -/
structure AgCmd where
  kind : AgKind
  stage : Staging
  push : Option (BitVec 4) := none
  pop : Option (BitVec 4) := none
  started : Bool := false
  order : Nat := 0
  tag : Nat := 0
  supervisor : Bool := false
  next : Nat := 0
  charged : Nat := 0
  sent : Nat := 0
  replies : SMap (Option Word) := []
  index : Option Token := none
  buffer : List (Option Word) := []
  ended : Bool := false
  key : Option Word := none
  last : Option Word := none
  exhausted : Bool := false
  count : Nat := 0
  phase : Nat := 0
  metas : SMap SectorMeta := []
  checked : Nat := 0
  leaves : List Extent := []
  pairs : List (Option (Word × Word)) := []
  deriving DecidableEq, Repr

/-- An AG: staging, queue of at most four commands, extents, pause and stop (R223, R343, R350). -/
structure Ag where
  staging : Staging := {}
  queue : List AgCmd := []
  extents : List Extent := []
  paused : Bool := false
  stopped : Bool := false
  deriving DecidableEq, Repr

/-- An outstanding token or reserved place (R72): the producing element, channel and class, the copies left (0 for a place), its generation, and its strand, 4 for a node or AG. -/
structure Outst where
  elem : Nat
  ch : BitVec 5
  copies : Nat
  gen : BitVec 4
  strand : BitVec 3
  cls : BitVec 6
  deriving DecidableEq, Repr

/-- What a freeze or a save keeps of an element beside its plane (R258): withdrawn requests with their identities, pending at targets, fences, chain records, outstanding tokens of the element (R72), whether an armed swap's mark has passed, decode runs, node positions and AG queues. -/
structure InFlight where
  reqs : List (Nat × Req) := []
  ats : List PendingAt := []
  fences : List Fence := []
  chains : List ChainRec := []
  outst : SMap Outst := []
  passed : Bool := false
  decode : SMap DecodeRun := []
  matrix : MatrixState := {}
  conv : ConvState := {}
  turn : TurnState := {}
  race : RaceState := {}
  ags : SMap Ag := []
  deriving DecidableEq, Repr

/-- A frozen frame: the frozen plane and its in-flight record (R258). -/
structure Frame where
  plane : Plane := {}
  flight : InFlight := {}
  deriving DecidableEq, Repr

/-- An understory position (R259). -/
inductive Under where
  | empty
  | plane (p : Plane)
  | frame (f : Frame)
  deriving DecidableEq, Repr

/-- A background preload (R264): its position, the image reference, the strand, slot and word of its pload, whether its cost has been taken, and the sectors of a memory image that have arrived. -/
structure Preload where
  pos : Nat
  image : Word
  strand : BitVec 2 := 0
  slot : Nat := 0
  word : IWord := 0
  free : Bool := false
  started : Bool := false
  sectors : SMap (List (Option Word)) := []
  deriving DecidableEq, Repr

/-- An element (R19 to R22 and the rules its fields name). -/
structure Elem where
  active : Plane := {}
  under : Vector Under 3 := Vector.replicate 3 .empty
  preloads : List Preload := []
  cellar : List Frame := []
  sticky : Vector Flags 4 := Vector.replicate 4 0
  matrixSticky : Flags := 0
  convSticky : Flags := 0
  barrier : Vector (Option BarRec) 4 := Vector.replicate 4 none
  fences : List Fence := []
  ats : List PendingAt := []
  chains : List ChainRec := []
  decode : SMap DecodeRun := []
  stopped : Bool := false
  /-- Nodes, intakes and array queue stopped by a cause, by descriptor slot (R307). -/
  nodeStops : List Nat := []
  /-- The router stopped by a cause, and the classes whose fork is (R307). -/
  routerStopped : Bool := false
  forkStops : List Nat := []
  passed : Bool := false
  lc : LcArray := {}
  matrix : MatrixState := {}
  conv : ConvState := {}
  turn : TurnState := {}
  race : RaceState := {}
  /-- Tokens consumed per strand and channel, and firings per slot, since task start (R41). -/
  taken : SMap Nat := []
  firings : SMap Nat := []
  /-- Freeze point or wave point reached, and entry point reached (R267, R365, R366). -/
  frozen : Bool := false
  entered : Bool := false
  /-- Requests withdrawn at the point, in their order (R180). -/
  withdrawn : List (Nat × Req) := []
  /-- A slot has issued the gcall of the freeze wave in progress (R266, R267). -/
  called : Bool := false
  /-- How many of the element's parts of a switch or return have had their cost taken (R270). -/
  partPaid : Nat := 0
  /-- Segment at which the element is ready for a pending checkpoint wave (R179). -/
  chkptAt : Option (BitVec 14) := none
  /-- Channels of a halted element at which a wave marker has arrived (R133). -/
  markSeen : BitVec 32 := 0
  /-- Gating predictor: last four idle intervals, whether the element is resting, since when, and gated (R402). -/
  idles : List Nat := []
  resting : Bool := false
  idleSince : Nat := 0
  gated : Bool := false
  /-- When something arrived at it since it came to rest. -/
  arrived : Option Nat := none
  deriving DecidableEq, Repr

/-- A sequencer register bank (R302). hold is what the sequencer waits for after an issued word. -/
inductive Hold where
  | none
  | time (target : Word)
  | streams (ag : Nat)
  | monitor (n : BitVec 6)
  deriving DecidableEq, Repr

structure SeqBank where
  w : Regs := Regs.zero
  a : Regs := Regs.zero
  p : BitVec 8 := 0
  guard : SMap IWord := []
  barrier : Option BarRec := none
  hold : Hold := .none
  deriving DecidableEq, Repr

/-- A unit a cause stopped, as a trap record names it for resume (R310): an element's slots, one of its nodes by descriptor slot, an AG, a sequencer's task program, a router, a fork by its class, or nothing that can resume. -/
inductive Stopped where
  | elem (e : Nat)
  | node (e slot : Nat)
  | ag (g n : Nat)
  | seq (g : Nat)
  | router (e : Nat)
  | fork (e : Nat) (c : BitVec 6)
  | none
  deriving DecidableEq, Repr

/-- A trap record (R309). -/
structure TrapRec where
  cause : Nat
  src : Nat
  str : Nat := 0
  slot : Nat := 0
  eid : Word := 0
  addr : Word := 0
  info : Word := 0
  word : IWord := 0
  wordAddr : Nat := 0
  tb : Word := 0
  serial : Nat := 0
  tag : Nat := 0
  bal : Nat := 0
  unit : Stopped := .none
  deriving DecidableEq, Repr

/-- A fault record (R346). -/
structure FaultRec where
  valid : Bool := false
  va : Word := 0
  fields : Word := 0
  leaf : Word := 0
  words : Word := 0
  unit : Stopped := .none
  req : Nat := 0
  deriving DecidableEq, Repr

/-- A TLB entry (R341). -/
structure TlbEntry where
  ctx : Nat
  va : Nat
  size : Nat
  leaf : Word
  deriving DecidableEq, Repr

/-- An outstanding place (R294 to R298): its operands, its word for a trap record, its place in the order of arrival, and the earlier requests of the sequencer that it waits for; the histogram words read so far, the request in progress, and, after sizing, the words still to write, the status and the elements still to preload, each with the value of its s7. -/
structure Place where
  header : Word
  hist : Word
  d : BitVec 6
  supervisor : Bool
  word : IWord := 0
  wordAddr : Nat := 0
  order : Nat := 0
  waits : List Nat := []
  reads : List Word := []
  req : Option Nat := none
  writes : List Word := []
  sized : Option (Word × List (Nat × Nat)) := none
  deriving DecidableEq, Repr

/-- A sensor's state (R403, R404). -/
structure Sensor where
  code : Nat := 0
  same : Nat := 0
  deviant : Nat := 0
  quarantined : Bool := false
  deriving DecidableEq, Repr

/-- A grove: its sequencer (R24, R302 to R304), its share of the meter (R187), translation (R341, R346), AGs and sync FIFOs (R90, R223), sensors and cask (R397 to R404). -/
structure Grove where
  pc : Nat := 0
  halted : Bool := true
  taskBank : SeqBank := {}
  superBank : SeqBank := {}
  imem : SMap IWord := []
  level : BitVec 2 := 0
  intrap : Bool := false
  thalt : Bool := false
  sflt : Bool := false
  svec : BitVec 14 := 12288
  sbase : BitVec 15 := 12288
  epc : BitVec 14 := 0
  tr : Vector Word 8 := Vector.replicate 8 0
  /-- The unit that the head record in TR0 to TR7 names. -/
  handling : Option TrapRec := none
  sticky : Flags := 0
  strapen : Flags := 0
  task : Option Nat := none
  ctxno : BitVec 16 := 0
  regionIndex : Nat := 0
  region : Word := 0
  argblk : Word := 0
  cellar : Word := 0
  cellarn : Word := 0
  frsel : BitVec 3 := 0
  frovf : Bool := false
  faults : Vector FaultRec 8 := Vector.replicate 8 {}
  suspState : BitVec 2 := 0
  suspTag : BitVec 14 := 0
  savea : Word := 0
  tlb : List TlbEntry := []
  allowance : Nat := 0
  traps : List TrapRec := []
  waitingTraps : List TrapRec := []
  ags : SMap Ag := []
  nextOrder : Nat := 0
  fifos : SMap Nat := []
  /-- Inbound channels, as m-index * 32 + channel, whose write stream has not delivered its end mark (R27). -/
  exits : List Nat := []
  fences : List Fence := []
  chains : List ChainRec := []
  place : Option Place := none
  /-- Completion condition of tlbinv: requests translated under a removed entry (R349). -/
  tlbWait : List Nat := []
  /-- AG that agpause waits for (R350). -/
  pauseWait : Option Nat := none
  /-- Address of the task-level word whose cost was taken when a translation cause stopped it at issue: its retry takes none (R352). -/
  prepaid : Option Nat := none
  /-- The sequencer has issued the checkpoint of a pending wave; it has reached its entry point (R365). -/
  entered : Bool := false
  atPoint : Bool := false
  /-- Requests of the sequencer withdrawn at its point (R180). -/
  withdrawn : List (Nat × Req) := []
  chkptAt : Option (BitVec 14) := none
  stopped : Bool := false
  steps : Nat := 0
  segments : Nat := 0
  /-- Drops in the cask: those poured less those taken (R203, R397), and the guard margin beside them (R398). -/
  held : Int := 0
  margin : Nat := 0
  isolated : Bool := true
  temperature : Sensor := {}
  voltage : Sensor := {}
  current : Sensor := {}
  capped : Bool := false
  hot : Bool := false
  cool : Nat := 0
  /-- Runtime grove of its partition (R301). -/
  runtime : Bool := false
  pendingImage : Option Word := none
  deriving DecidableEq, Repr

/-- The waves of R267 and R364. -/
inductive WaveKind where
  | freeze (exchange : Bool) (image : Nat)
  | checkpoint
  | drain
  deriving DecidableEq, Repr

/-- A refused issue (R189): the unit and the cost it could not take. -/
structure Refused where
  grove : Nat
  cost : Nat
  deriving DecidableEq, Repr

/-- Dry state of a task: its blocked cost and the end of its grace window (R189 to R192). -/
structure Dry where
  blocked : Nat
  deadline : Nat
  deriving DecidableEq, Repr

/-- A meter-plan segment (R200). -/
structure Segment where
  drops : Nat
  dep : Bool := false
  deriving DecidableEq, Repr

/-- An item of a checkpoint's live list (R369). -/
inductive LiveItem where
  | el (g e : Nat)
  | rng (g e bank off len : Nat)
  | lc (g e : Nat)
  deriving DecidableEq, Repr

/-- One .data reservation of a load image. -/
structure DataItem where
  g : Nat
  e : Nat
  offset : Nat
  full : Bool
  values : List Word
  count : Nat
  deriving DecidableEq, Repr

/-- A stream binding known at load: the AG, as region grove * 512 + AG, its base, the range of virtual addresses it can reach, and whether it writes them (R343, R344). -/
structure Binding where
  ag : Nat
  base : Nat
  va : Nat
  len : Nat
  write : Bool
  deriving DecidableEq, Repr

/-- A load image as the loader reads it (R26, R120): configuration of every element and sequencer of the region, data, plan, checkpoints. Its byte layout is not in the spec, and neither is what a pour plan holds, which R26 names: an image has none, and casks are poured by the budget and R398 alone (assumption 10). -/
structure LoadImage where
  rows : Nat := 0
  cols : Nat := 0
  /-- Plane k of region element g * 256 + e, at key (g * 256 + e) * 4 + k. -/
  planes : SMap Plane := []
  programs : SMap (List IWord) := []
  guards : SMap (SMap IWord) := []
  data : List DataItem := []
  /-- Lines of the meter plan, as the image gives them, each with its segment number (R200). -/
  meter : SMap Segment := []
  chkpts : SMap (List LiveItem) := []
  /-- The bound recorded for each unit and segment on the words it issues between checkpoints; none where the record is absent (R371). -/
  issueBounds : List (Option Nat) := []
  /-- Images k that a `.plane k` line of the load marks as call images (R262). -/
  calls : List Nat := []
  /-- Outbound channels that a `.route` line binds to a class (R62), as (region element * 4 + plane) * 32 + channel. -/
  bound : List Nat := []
  /-- Bindings of GLOBAL streams known at load (R343, R344). -/
  bindings : List Binding := []
  /-- Outbound channels whose stream is to be narrowed (R48), numbered as those of bound. -/
  narrowed : List Nat := []
  deriving DecidableEq, Repr, Inhabited

/-- Segments of a load's meter plan in the order of their numbers (R200). -/
def LoadImage.plan (i : LoadImage) : List Segment := (List.range i.meter.length).map (fun k => mget { drops := 0 } i.meter k)

/-- A supervisor image: the words of a grove's instruction memory and the guards of its supervisor bank (R24, R302). -/
structure SuperImage where
  words : SMap IWord := []
  guards : SMap IWord := []
  deriving DecidableEq, Repr, Inhabited

/-- The load image and the supervisor image that a run of bytes holds, none where it holds none, and the lengths in bytes that they give themselves. The spec gives the loader's checks and no byte layout: free values, assumption 10. -/
opaque imageLength : (Nat → Byte) → Nat
opaque readImage : (Nat → Byte) → Option LoadImage
opaque readSuper : (Nat → Byte) → SuperImage
opaque superLength : (Nat → Byte) → Nat

/-- A slot-table entry as read (R322). -/
structure Entry where
  w : Vector Word 8 := Vector.replicate 8 0
  deriving DecidableEq, Repr, Inhabited

/-- What a suspension saves of a task's units (R368): the groves it held, the banks it claimed and wrote, its sequencers and AGs by region index, its listed elements by region element number, the cellars, lookup-cell arrays and bank ranges, and the outstanding tokens of its elements. -/
structure Saved where
  held : List Nat := []
  lost : List (Nat × Nat) := []
  groves : SMap Grove := []
  elems : SMap Elem := []
  cellars : SMap (List Frame) := []
  arrays : SMap LcArray := []
  banks : List (LiveItem × List (Word × WordMeta) × List (Nat × WinState)) := []
  outst : SMap Outst := []
  deriving DecidableEq, Repr

/-- A task (R27, R28 and the rules its fields name). -/
structure Task where
  serial : Nat := 0
  ctx : Nat := 0
  part : Nat := 0
  entryIndex : Nat := 0
  /-- Slot start of the launch (R326, R373). -/
  due0 : Nat := 0
  entry : Entry := {}
  image : LoadImage := {}
  /-- Groves of the region by region index; empty while suspended. -/
  groves : List Nat := []
  rows : Nat := 1
  cols : Nat := 1
  seed : Word := 0
  /-- Base of the cellar and its length in frames per element, as read at launch (R260, R323). -/
  cellar : Word := 0
  cellarn : Word := 0
  central : Nat := 0
  issued : Nat := 0
  refilled : Nat := 0
  topped : Nat := 0
  steps : SMap Nat := []
  boostDrops : Nat := 0
  boosting : Bool := false
  fellBack : Bool := false
  segment : Nat := 0
  user : Word := 0
  /-- Launched, and its configuration not yet in effect (R103). -/
  starting : Bool := false
  refusals : List Refused := []
  dry : Option Dry := none
  producers : List Nat := []
  sectors : List Nat := []
  wave : Option WaveKind := none
  /-- A suspension has been requested (R363): its wave is armed, with the save area it is to use. -/
  armedWave : Bool := false
  saveArea : Word := 0
  /-- The checkpoint or drain wave has completed (R367). -/
  waveDone : Bool := false
  /-- A pour fee of a resume that is not taken yet (R373). -/
  feeDue : Nat := 0
  depth : Nat := 0
  /-- Depths of calls whose return is armed (R269). -/
  returning : List Nat := []
  successor : Option Nat := none
  due : Bool := false
  superseded : Bool := false
  suspended : Option Saved := none
  resolving : List Nat := []
  /-- Commit record held until every resolve is acknowledged (R394). -/
  record : List Word := []
  tstart : Nat := 0
  packets : Nat := 0
  poured : Nat := 0
  /-- When a unit last made progress, and whether a progress-stall has been raised since (R63). -/
  progress : Nat := 0
  stalled : Bool := false
  deriving DecidableEq, Repr

/-- State of a tag (R374). proxy names the source module and serial of a proxy tag (R394). -/
inductive TagState where
  | free
  | live
  | committed
  | vanished
  | proxy (src serial : Nat)
  deriving DecidableEq, Repr

/-- Packets drawn, packets refunded, drops forfeited and boost drops used, as counted at each commit and vanish (R383). -/
structure Totals where
  drawn : Nat := 0
  refunded : Nat := 0
  forfeited : Nat := 0
  boostUsed : Nat := 0
  deriving DecidableEq, Repr

/-- MSI-X table and pending bits of a function (R380), in PCI Express's own layout: an entry's message address in bits 63:0, its data in bits 95:64, its mask in bit 96, set at reset (assumption 30). -/
structure Msix where
  table : SMap (BitVec 128) := []
  pending : BitVec 256 := 0
  deriving DecidableEq, Repr

/-- A context (R28, R330, R337, R315). shown is its reserve as PF0 sees it: that of the last commit or vanish, and what the host has added since (R383). -/
structure Ctx where
  part : Nat := 0
  reserve : Nat := 0
  shown : Nat := 0
  boost : Nat := 0
  root : Nat := 0
  events : BitVec 256 := 0
  log : Option (Nat × Nat) := none
  totals : Totals := {}
  deriving DecidableEq, Repr

/-- A partition (R376, R377, R381). -/
structure Part where
  row : Nat := 0
  col : Nat := 0
  rows : Nat := 0
  cols : Nat := 0
  granules : List Nat := []
  keys : List Nat := []
  tableBase : Nat := 0
  tableLen : Nat := 0
  service : Bool := false
  tdi : TdiState := .unlocked
  guard : Nat := 0
  totals : Totals := {}
  msix : Msix := {}
  /-- Supervisor image the monitor gave the partition. -/
  image : SuperImage := {}
  deriving DecidableEq, Repr

/-- A launch that is due: its slot start, the entry and image as staged for it, whether it still awaits events (R326, R329), and the launch serial of the predecessor that it is the successor of (R328). -/
structure Due where
  start : Nat
  entry : Entry
  image : LoadImage
  blocked : Bool := false
  pred : Option Nat := none
  deriving DecidableEq, Repr

/-- What the scheduler holds for a slot-table entry (R320, R321, R326, R327): the time of the read that staging waits on, the entry and image as staged, whether it has slot starts to come and the next of them, whether its one start has come and V is still as first read, what a later read of the entry found, the pending launch, the deferred launch, and the running instance. -/
structure Staged where
  soon : Option Nat := none
  entry : Entry := {}
  image : LoadImage := {}
  valid : Bool := false
  start : Nat := 0
  spent : Bool := false
  next : Option Entry := none
  pending : Option Due := none
  deferred : Option Due := none
  running : Option Nat := none
  deriving DecidableEq, Repr

/-- A message to another module (R390 to R394): what a frame of the module's own carries. -/
inductive LinkMsg where
  | request (pa serial rid size : Nat) (op : RemoteOp) (how : RemoteAccess)
  | reply (serial rid : Nat) (words : List (Option Word)) (cause : Nat)
  | resolve (serial : Nat) (commit : Bool)
  | resolveAck (serial : Nat)
  | credit (vc beats : Nat)
  deriving DecidableEq, Repr

/-- A message that waits for credit in a window queue (R92, R391): its module, its beats, and what it says. -/
structure Waiting where
  dest : Nat
  beats : Nat
  msg : LinkMsg
  deriving DecidableEq, Repr

/-- The algorithms of the SPDM responder (R384). -/
inductive SpdmAlgorithm where
  | ed448 | sha3x512 | secp384r1 | aes256gcm
  deriving DecidableEq, Repr

/-- What leaves the module (R322, R332, R384, R390): messages to the host, the operator, SPDM requesters and other modules. A message to another module leaves in a frame with its header and its first payload beat. -/
inductive Output where
  | msix (part vec : Nat) (address : Word) (data : BitVec 32)
  | readData (data : List Byte)
  | unsupported
  | poisoned
  | measurement (index : Nat) (digest : BitVec 512) (signature : List Byte)
  | measurementLog (entries : List (List Word))
  | session (peer key : Nat) (algorithms : List SpdmAlgorithm) (slot0 : List Byte) (slot1 : Nat)
  | frame (port : Nat) (header : BitVec 128) (payload : List (BitVec 128))
  | message (port : Nat) (header beat : BitVec 128) (msg : LinkMsg)
  | eventLog (entries : List (List Word))
  deriving DecidableEq, Repr

/-- A Berovo port (R390, R391). -/
structure BerovoPort where
  up : Bool := false
  txKey : Nat := 0
  rxKey : Nat := 0
  txSalt : Nat := 0
  rxSalt : Nat := 0
  txSeq : Nat := 0
  /-- Frames sent under the key in use (R390). -/
  txFrames : Nat := 0
  /-- Beats of VC 3 taken in, whose credit is returned with the next credit (R391; assumption 30). -/
  owed : Nat := 0
  /-- Least SEQ that is accepted next. -/
  rxSeq : Nat := 0
  /-- Beats granted on a VC and not used; unlisted is the whole grant. -/
  credit : SMap Nat := []
  /-- Window queue of a VC (R92): messages that wait for credit, oldest first. -/
  window : SMap (List Waiting) := []
  discarded : Nat := 0
  deriving DecidableEq, Repr

/-- A write from outside any task that waits for a sector to resolve (R83): a record with the MSI-X message that follows it, a skipped slot start, the header of a log that is bound, a V bit to clear. -/
inductive DeviceOp where
  | record (c : Nat) (words : List Word) (signal : Option (Nat × Nat))
  | skip (c : Nat)
  | header (c : Nat)
  | clearV (p n : Nat)
  deriving DecidableEq, Repr

/-- A firmware slot (R408). -/
structure FwSlot where
  image : Firmware := ⟨0, 0, true⟩
  active : Bool := false
  failedBoots : Nat := 0
  deriving DecidableEq, Repr

/-- The state of the module. The fields agenda, moveNo, cur, nextReq and nextTok are the model's own (assumptions 1 and 2). -/
structure State where
  /-- Moves chosen from outside, next first. -/
  agenda : List Move := []
  /-- Number of moves taken: the argument of the free values. -/
  moveNo : Nat := 0
  cur : Cur := .word 0 0
  nextReq : Nat := 1
  nextTok : Nat := 1
  tb : Word := 0
  elems : SMap Elem := []
  groves : SMap Grove := []
  mem : Memory := []
  words : SMap WordMeta := []
  sectors : SMap SectorMeta := []
  /-- Pending voids by tag, as ranges of HBM (R84, R92): those of its task, and those of sectors that were tentative under it. -/
  voids : SMap (List (Nat × Nat)) := []
  /-- Writes from outside any task that wait, oldest first (R83). -/
  waiting : List DeviceOp := []
  windows : SMap WinState := []
  banks : SMap Bank := []
  /-- Tokens in outbound queues, hop queues and branch buffers (R92), by queueKey. -/
  fabric : SMap (List Token) := []
  /-- Outstanding tokens (R72), by identity. -/
  outst : SMap Outst := []
  reqs : SMap Req := []
  ports : SMap Port := []
  tasks : SMap Task := []
  tags : SMap TagState := []
  ctxs : SMap Ctx := []
  parts : SMap Part := []
  staged : SMap Staged := []
  serial : Nat := 0
  /-- What has passed into the guard supply, less what it has paid, in drops (R399). -/
  guardPool : Int := 0
  /-- Counts of the whole module (R383). -/
  totals : Totals := {}
  stage : BitVec 4 := 0
  err : Bool := false
  offer : Word := 0
  ack : Word := 0
  ackHigh : Word := 0
  negotiated : Bool := false
  moduleNo : Nat := 0
  hops : SMap Nat := []
  /-- Groves out of service: the zero bits of the grove map (R410). -/
  retired : List Nat := []
  eventLog : List (List Word) := []
  measures : SMap (BitVec 512) := []
  measureLog : List (List Word) := []
  aliasKey : Nat := 0
  slotA : FwSlot := { active := true }
  slotB : FwSlot := {}
  fuse : BitVec 32 := 0
  running : BitVec 32 := 0
  ideKeys : SMap Nat := []
  /-- Keys of the SPDM sessions, by peer (R384). -/
  sessions : SMap Nat := []
  /-- XTS key and MAC key of the key ids in use (R387). -/
  keys : SMap (BitVec 512 × BitVec 256) := []
  /-- Key id that a sector was last written under, 64 where that key has been destroyed; unlisted is one that every key reads (R387; assumption 9). -/
  sectorKeys : SMap Nat := []
  /-- Sectors whose MAC has been found not to match, and that have not been written since (R388). -/
  badMacs : List Nat := []
  /-- MSI-X of PF0 (R380). -/
  msix : Msix := {}
  /-- Berovo ports of the routes that the monitor has set, by module (R391). -/
  routes : SMap Nat := []
  /-- Parts of host writes received and not performed, by VF, each in one sector: its BAR address and bytes, the oldest first (R382). -/
  hostQueue : SMap (List (Nat × List Byte)) := []
  berovo : SMap BerovoPort := []
  pours : List Nat := []
  outputs : List Output := []
  /-- Replies from other modules that named no outstanding request (R393). -/
  lateReplies : Nat := 0
  /-- Request ids that timed out, with their serials: a reply under one is discarded (R395). -/
  staleRids : List (Nat × Nat) := []
  /-- When a full branch buffer last moved a token or became full (R63), by queueKey. -/
  branchSince : SMap Nat := []
  deriving DecidableEq, Repr

/-- Reasons the machine stops with a fault. -/
inductive Fault where
  /-- A page-table walk or a request from another module leaves the HBM of the module (tableWalk of a context whose root lies outside it; remoteRequest): the spec gives such an address no memory. Safe. -/
  | noSuchMemory (pa : Nat)
  deriving DecidableEq, Repr

/-- Reasons an instruction has no meaning in the model. -/
inductive Refusal where
  /-- Raised by Dispatch's arms for instructions not reached yet. Safe. -/
  | notModelled (mnemonic : String)
  deriving DecidableEq, Repr

/-- The module right after reset: every field at the default its structure names. -/
def State.reset : State := {}

end Sys2Proof.Machine
end

