-- ==== Sys2Proof/Machine/Ops.lean ====
section
/-! DEFINITION. Named operations over the state: where elements and groves lie (R18, R19, R22), and reading and writing the parts of the state. -/

namespace Sys2Proof.Machine

/-- Module columns of the element array (R18). -/
def moduleCols : Nat := 896
/-- Elements of the module (R2, R18). -/
def moduleElems : Nat := 688128
/-- Groves of the module (R18). -/
def moduleGroves : Nat := 2688
def elemRow (e : Nat) : Nat := e / moduleCols
def elemCol (e : Nat) : Nat := e % moduleCols
/-- C element or M element (R18). -/
def isC (e : Nat) : Bool := (elemRow e + elemCol e) % 2 == 0
/-- Module grove index of an element (R18). -/
def groveOf (e : Nat) : Nat := elemRow e / 16 * 56 + elemCol e / 16
/-- Die of an element (R18). -/
def dieOf (e : Nat) : Nat := 4 * (elemRow e / 256) + elemCol e / 224
/-- Element row * 16 + col of its grove (R73). -/
def elemInGrove (e : Nat) : Nat := elemRow e % 16 * 16 + elemCol e % 16
/-- The element at grove-local index n of a grove (R73). -/
def elemAt (g n : Nat) : Nat := (g / 56 * 16 + n / 16) * moduleCols + (g % 56 * 16 + n % 16)
/-- The M element of m-index x in a grove (R73). -/
def mElem (g x : Nat) : Nat := elemAt g (x / 8 * 16 + (x % 8 * 2 + (if x / 8 % 2 = 0 then 1 else 0)))
/-- The m-index of an M element (R73). -/
def mIndex (e : Nat) : Nat := elemInGrove e / 16 * 8 + elemInGrove e % 16 / 2
/-- Does the element carry a converter node (R21)? -/
def hasConverter (e : Nat) : Bool :=
  let r := elemInGrove e / 16
  let c := elemInGrove e % 16
  r % 4 == 1 && (c == 4 || c == 12)

/-- An element wakes: it rests no more and is not gated, and its predictor has the interval up to the arrival that woke it (R402). -/
def Elem.wakes (x : Elem) (tb : Nat) : Elem :=
  if x.resting then
    let l := x.idles ++ [x.arrived.getD tb - x.idleSince]
    { x with resting := false, gated := false, arrived := none, idles := l.drop (l.length - 4) }
  else x

/-- What the gating predictor keeps of an element whose task leaves it or comes to it (R402). -/
def Elem.predictor (x : Elem) : Elem := { idles := x.idles, resting := x.resting, idleSince := x.idleSince, gated := x.gated, arrived := x.arrived }

/-- An element with the predictor of another (R402). -/
def Elem.withPredictor (x y : Elem) : Elem := { x with idles := y.idles, resting := y.resting, idleSince := y.idleSince, gated := y.gated, arrived := y.arrived }

/-- The neighbour of an element on a side, if the module has one (R19). -/
def neighbour (e : Nat) : Side → Option Nat
  | .north => if elemRow e = 0 then none else some (e - moduleCols)
  | .south => if elemRow e = 767 then none else some (e + moduleCols)
  | .west => if elemCol e = 0 then none else some (e - 1)
  | .east => if elemCol e = 895 then none else some (e + 1)

/-- The side a token that leaves on a side arrives at. -/
def opposite : Side → Side
  | .north => .south
  | .south => .north
  | .east => .west
  | .west => .east

namespace State

def elem (s : State) (e : Nat) : Elem := mget {} s.elems e
def setElem (s : State) (e : Nat) (x : Elem) : State := { s with elems := mset s.elems e x }
def modElem (s : State) (e : Nat) (f : Elem → Elem) : State := s.setElem e (f (s.elem e))
def grove (s : State) (g : Nat) : Grove := mget {} s.groves g
def setGrove (s : State) (g : Nat) (x : Grove) : State := { s with groves := mset s.groves g x }
def modGrove (s : State) (g : Nat) (f : Grove → Grove) : State := s.setGrove g (f (s.grove g))
def task? (s : State) (t : Nat) : Option Task := mfind s.tasks t
def task (s : State) (t : Nat) : Task := mget {} s.tasks t
def setTask (s : State) (t : Nat) (x : Task) : State := { s with tasks := mset s.tasks t x }
/-- Changes a task that exists. -/
def modTask (s : State) (t : Nat) (f : Task → Task) : State :=
  match mfind s.tasks t with
  | some x => s.setTask t (f x)
  | none => s
def ctx (s : State) (c : Nat) : Ctx := mget {} s.ctxs c
def modCtx (s : State) (c : Nat) (f : Ctx → Ctx) : State := { s with ctxs := mmod {} s.ctxs c f }
def part (s : State) (p : Nat) : Part := mget {} s.parts p
def modPart (s : State) (p : Nat) (f : Part → Part) : State := { s with parts := mmod {} s.parts p f }
def port (s : State) (p : Nat) : Port := mget {} s.ports p
def modPort (s : State) (p : Nat) (f : Port → Port) : State := { s with ports := mmod {} s.ports p f }
def bank (s : State) (b : Nat) : Bank := mget {} s.banks b
def modBank (s : State) (b : Nat) (f : Bank → Bank) : State := { s with banks := mmod {} s.banks b f }
def window (s : State) (w : Nat) : WinState := mget {} s.windows w
def modWindow (s : State) (w : Nat) (f : WinState → WinState) : State := { s with windows := mmod {} s.windows w f }
def wordMeta (s : State) (w : Nat) : WordMeta := mget {} s.words w
def setWordMeta (s : State) (w : Nat) (m : WordMeta) : State := { s with words := mset s.words w m }
def sector (s : State) (n : Nat) : SectorMeta := mget {} s.sectors n
def setSector (s : State) (n : Nat) (m : SectorMeta) : State := { s with sectors := mset s.sectors n m }
def tokens (s : State) (k : Nat) : List Token := mget [] s.fabric k
def setTokens (s : State) (k : Nat) (q : List Token) : State := { s with fabric := mset s.fabric k q }
def req? (s : State) (r : Nat) : Option Req := mfind s.reqs r
def setReq (s : State) (r : Nat) (x : Req) : State := { s with reqs := mset s.reqs r x }
def dropReq (s : State) (r : Nat) : State := { s with reqs := merase s.reqs r }
def modReq (s : State) (r : Nat) (f : Req → Req) : State :=
  match mfind s.reqs r with
  | some x => s.setReq r (f x)
  | none => s
/-- Something arrives at an element: the first arrival ends its idle interval (R402). -/
def noteArrival (s : State) (e : Nat) : State :=
  if (s.elem e).resting && (s.elem e).arrived.isNone then s.modElem e (fun x => { x with arrived := some s.tb.toNat }) else s
/-- Appends what leaves the module. -/
def emit (s : State) (o : Output) : State := { s with outputs := s.outputs ++ [o] }
/-- The task that holds a grove (R25). -/
def taskOfGrove (s : State) (g : Nat) : Option Nat := (s.grove g).task
/-- The task that holds an element's grove. -/
def taskOfElem (s : State) (e : Nat) : Option Nat := s.taskOfGrove (groveOf e)
/-- The partition whose rectangle holds a grove (R376), if any. -/
def partOfGrove (s : State) (g : Nat) : Option Nat :=
  (s.parts.find? (fun p => decide (p.2.row ≤ g / 56) && decide (g / 56 < p.2.row + p.2.rows) &&
    decide (p.2.col ≤ g % 56) && decide (g % 56 < p.2.col + p.2.cols))).map (fun p => p.1)

end State

/-- eid of an element (R22). -/
def eidOf (s : State) (e : Nat) : Word :=
  BitVec.ofNat 64 (s.moduleNo % 2 ^ 13 * 2 ^ 24 + dieOf e * 2 ^ 20 + elemRow e * 2 ^ 10 + elemCol e)

/-- The region groves of a task, with their region indices. -/
def Task.indexed (t : Task) : List (Nat × Nat) := t.groves.zipIdx
/-- Elements of a grove. -/
def groveElems (g : Nat) : List Nat := (List.range 256).map (elemAt g)
/-- Elements of a list of groves. -/
def regionElems (gs : List Nat) : List Nat := gs.flatMap groveElems

/-- Sets field k of a four-entry vector. -/
def setAt {α : Type} {n : Nat} (v : Vector α n) (i : Nat) (x : α) : Vector α n := v.setIfInBounds i x

/-- A strand of a plane. -/
def Plane.strand (p : Plane) (k : Nat) : Strand := p.strands[k]?.getD {}
def Plane.setStrand (p : Plane) (k : Nat) (x : Strand) : Plane := { p with strands := setAt p.strands k x }
def Plane.slotWord (p : Plane) (n : Nat) : IWord := mget emptySlot p.pool n
def Plane.chanWord (p : Plane) (n : Nat) : IWord := mget emptyChan p.chan n
def Plane.routeWord (p : Plane) (n : Nat) : IWord := mget 0 p.route n
def Plane.desc (p : Plane) (n : Nat) : Desc := mget {} p.node n
def Plane.fifo (p : Plane) (n : Nat) : List Token := mget [] p.queue n
def Plane.setFifo (p : Plane) (n : Nat) (q : List Token) : Plane := { p with queue := mset p.queue n q }
/-- Strand that owns a pool slot (R108). -/
def Plane.slotStrand (p : Plane) (n : Nat) : Nat := bits p.strandMap.toNat (2 * n) 2

/-- Field lo to lo + len - 1 of a configuration word. -/
def wbits (w : IWord) (lo len : Nat) : Nat := bits w.toNat lo len

/-- Fields of a channel entry (R64). -/
def chanClass (w : IWord) : Nat := wbits w 26 6
def chanFstr (w : IWord) : Nat := wbits w 24 2
def chanDepth (w : IWord) : Nat := wbits w 16 8
def chanSreg (w : IWord) : Nat := wbits w 6 3
def chanFmt (w : IWord) : Nat := wbits w 2 4
def chanDec (w : IWord) : Bool := wbits w 1 1 == 1

/-- Fields of a route entry (R61). -/
def routeLim (w : IWord) : Nat := wbits w 17 8
def routeValid (w : IWord) : Bool := wbits w 16 1 == 1
def routeDch (w : IWord) : Nat := wbits w 5 5
/-- The non-local ports of FAN, in its bit order from bit 4 (R61). -/
def routeSides (w : IWord) : List Side :=
  (if wbits w 4 1 = 1 then [Side.north] else []) ++ (if wbits w 3 1 = 1 then [Side.east] else []) ++
  (if wbits w 2 1 = 1 then [Side.south] else []) ++ (if wbits w 1 1 = 1 then [Side.west] else [])
def routeLocal (w : IWord) : Bool := wbits w 0 1 == 1
/-- All branches of FAN; none is the local port. -/
def routeBranches (w : IWord) : List (Option Side) :=
  (routeSides w).map some ++ (if routeLocal w then [none] else [])
/-- Bit of a branch in FAN (R61). -/
def branchBit : Option Side → Nat
  | some .north => 16
  | some .east => 8
  | some .south => 4
  | some .west => 2
  | none => 1

/-- First descriptor slot of a kind, with the descriptor (R110). -/
def Plane.findDesc (p : Plane) (kind : Nat) : Option (Nat × Desc) :=
  (p.node.find? (fun d => wbits d.2.w0 28 4 == kind)).map (fun d => (d.1, d.2))

/-- Field of a trigger entry (R68); entry 0 always holds. -/
def Plane.trigWord (p : Plane) (n : Nat) : IWord := mget 0 p.trig n

/-- Sequencer register bank of the level (R302). -/
def Grove.bank (g : Grove) : SeqBank := if g.level = 0 then g.taskBank else g.superBank
def Grove.setBank (g : Grove) (b : SeqBank) : Grove :=
  if g.level = 0 then { g with taskBank := b } else { g with superBank := b }
def Grove.ag (g : Grove) (n : Nat) : Ag := mget {} g.ags n
def Grove.setAg (g : Grove) (n : Nat) (a : Ag) : Grove := { g with ags := mset g.ags n a }

/-- Number of a unit in the order of trap records and scopes: its grove. -/
def groveOfUnit : UnitId → Nat
  | .elem e => groveOf e
  | .seq g => g
  | .ag g _ => g
  | .remote _ _ _ => moduleGroves

/-- Unit and grove of the word that is issuing. -/
def curUnit : Cur → UnitId
  | .slot e _ _ => .elem e
  | .word g _ => .seq g

/-- Strand of the issuing slot; 0 for a sequencer. -/
def curStrand : Cur → BitVec 2
  | .slot _ k _ => k
  | .word _ _ => 0

/-- Is the issuing unit a sequencer at supervisor level? -/
def State.supervising (s : State) : Bool :=
  match s.cur with
  | .slot _ _ _ => false
  | .word g _ => (s.grove g).level != 0

end Sys2Proof.Machine
end

