-- ==== Sys2Proof/Machine/Translate.lean ====
section
/-! DEFINITION. Address spaces and translation: where bank, HBM and host bytes lie in the byte memory, page-table walks (R336 to R340), leaf checks (R342), the grove TLB (R341), and device writes from outside any task (R83, R330, R331). -/

namespace Sys2Proof.Machine

/-- Bytes of an element's banks (R73). -/
def elemBytes : Nat := 0x60000
/-- Where element SRAM starts in the byte memory. -/
def sramBase : Nat := 2 ^ 52
/-- Where host memory starts in the byte memory. -/
def hostBase : Nat := 2 ^ 56
/-- End of HBM: 1,536 granules of 1 GiB (R376). -/
def hbmEnd : Nat := 1536 * 2 ^ 30
/-- Byte-memory address of an offset of an element (R73). -/
def bankAddr (e off : Nat) : Nat := sramBase + e * elemBytes + off
/-- Number of the 64-bit bank word at an offset of an element. -/
def bankWord (e off : Nat) : Nat := (e * elemBytes + off) / 8

/-- Fields of a table entry (R338). -/
def pteType (e : Word) : Nat := bits e.toNat 62 2
def leafR (e : Word) : Bool := e.getLsbD 61
def leafW (e : Word) : Bool := e.getLsbD 60
def leafPL (e : Word) : Bool := e.getLsbD 59
def leafHost (e : Word) : Bool := e.getLsbD 58
def leafKey (e : Word) : Nat := bits e.toNat 52 6
def leafMod (e : Word) : Nat := bits e.toNat 39 13
def leafPfn (e : Word) : Nat := bits e.toNat 0 32
def pteNext (e : Word) : Nat := bits e.toNat 0 36

/-- Index of an address at a level (R336). -/
def levelIndex (v : Nat) : Nat → Nat
  | 1 => bits v 42 10
  | 2 => bits v 30 12
  | 3 => bits v 22 8
  | _ => bits v 16 6
/-- Page size of a leaf at a level (R336). -/
def levelSize : Nat → Nat
  | 2 => 2 ^ 30
  | 3 => 2 ^ 22
  | _ => 2 ^ 16
/-- Alignment of a table of a level (R337). -/
def tableAlign : Nat → Nat
  | 1 => 0x2000
  | 2 => 0x8000
  | _ => 0x1000

/-- Is an enabled feature bit set (R409)? -/
def featureOn (s : State) (b : Nat) : Bool := s.ack.getLsbD b

/-- Is a physical address in a granule of the partition (R376)? -/
def inPartition (s : State) (p pa : Nat) : Bool := (s.part p).granules.contains (pa / 2 ^ 30)

/-- Is a nonzero-type entry malformed at its level (R339, R376, R409)? -/
def malformed (s : State) (p level : Nat) (e : Word) : Bool :=
  if pteType e = 1 then
    level == 4 || bits e.toNat 36 26 != 0 || pteNext e * 2 ^ 12 % tableAlign (level + 1) != 0 ||
      !inPartition s p (pteNext e * 2 ^ 12)
  else if pteType e = 2 then
    level == 1 || bits e.toNat 32 7 != 0 ||
      (level == 2 && bits e.toNat 0 14 != 0) || (level == 3 && bits e.toNat 0 6 != 0) ||
      (leafHost e && !leafPL e) || !(s.part p).keys.contains (leafKey e) || leafMod e > 4607 ||
      (leafHost e && !featureOn s 5) || (leafMod e != s.moduleNo && !featureOn s 1) ||
      (!leafHost e && leafMod e == s.moduleNo && !inPartition s p (leafPfn e * 2 ^ 16))
  else true

/-- The table key of a partition: the lowest of its key ids (R377). -/
def tableKey (x : Part) : Nat := x.keys.foldl min 64

/-- Key id of a sector whose key has been destroyed: no key reads it (R387). -/
def deadKey : Nat := 64

/-- Does a read of a sector under a key id fail its MAC (R387, R388)? -/
def macFails (s : State) (n : Nat) (key : Option Nat) : Bool :=
  s.badMacs.contains n || (match mfind s.sectorKeys n, key with
    | none, _ => false
    | some k, none => k == deadKey
    | some k, some k' => k == deadKey || k != k')

/-- A sector's MAC is found not to match (R388). -/
def noteBadMac (s : State) (n : Nat) : State := { s with badMacs := if s.badMacs.contains n then s.badMacs else s.badMacs ++ [n] }

/-- The walk from a level on (R340), under the partition's table key (R337): the leaf and its page size, or the cause, 0x1C9 where the MAC of a table's sector does not match (R388). -/
def walkFrom (s : State) (p v : Nat) : Nat → Nat → Nat → Except Nat (Word × Nat)
  | 0, _, _ => .error 0x0C4
  | fuel + 1, level, t =>
    let a := t + 8 * levelIndex v level
    let e := wordAt s.mem a
    if macFails s (a / 64) (some (tableKey (s.part p))) then .error 0x1C9
    else if pteType e = 0 then .error 0x0C0
    else if malformed s p level e then .error 0x0C4
    else if pteType e = 2 then .ok (e, levelSize level)
    else walkFrom s p v fuel (level + 1) (pteNext e * 2 ^ 12)

/-- Walks a context's tables for an address (R340). No table maps an address past the 52 bits of R336. -/
def walk (s : State) (c v : Nat) : Except Nat (Word × Nat) :=
  if 2 ^ 52 ≤ v then .error 0x0C0 else walkFrom s (s.ctx c).part v 4 1 (s.ctx c).root

/-- Denial of an access by its leaf (R342): outside is an access from outside any task. -/
def leafDenies (leaf : Word) (write outside : Bool) : Option Nat :=
  if write then
    if !leafW leaf then some 0x0C1 else if leafPL leaf && !outside then some 0x0C1 else none
  else if leafR leaf then none else some 0x0C2

/-- Physical address of an address under its leaf (R342). -/
def leafPhys (leaf : Word) (size v : Nat) : Nat := leafPfn leaf * 2 ^ 16 + v % size

/-- The unit an address of a partition reaches through its leaf (R98, R342): host memory under the requester ID of the partition's VF (R379). -/
def leafTarget (s : State) (p : Nat) (leaf : Word) (size v : Nat) : Target :=
  if leafHost leaf then .host (p + 1) (leafPhys leaf size v)
  else if leafMod leaf = s.moduleNo then .hbm (leafPhys leaf size v)
  else .module (leafMod leaf) (leafPhys leaf size v)

/-- Byte-memory address of an I/O address of a VF, as the host's IOMMU translates it (R379). -/
def hostAddr (vf a : Nat) : Nat := hostBase + Config.hostPage vf (a / 4096) * 4096 + a % 4096

/-- The TLB entry of a grove that covers an address of a context (R341). -/
def tlbFind (s : State) (g c v : Nat) : Option TlbEntry :=
  (s.grove g).tlb.find? (fun t => t.ctx == c && decide (t.va ≤ v) && decide (v < t.va + t.size))

/-- Installs a leaf, in place of entry victim when all 96 are used (R341). -/
def tlbFill (s : State) (g victim : Nat) (t : TlbEntry) : State :=
  s.modGrove g (fun x => { x with tlb := if x.tlb.length < 96 then x.tlb ++ [t] else x.tlb.set (victim % 96) t })

/-- Translation through the TLB, walking and filling on a miss (R341). Which of 96 used entries such a fill replaces, made for an AG's extent, for a page of a void or for a cost, is the model's free value Config.tlbVictim, as R341 leaves it open (assumption 7). -/
def translate (s : State) (g c v : Nat) : State × Except Nat (Word × Nat) :=
  match tlbFind s g c v with
  | some t => (s, .ok (t.leaf, t.size))
  | none =>
    match walk s c v with
    | .error k => (s, .error k)
    | .ok (leaf, size) => (tlbFill s g (Config.tlbVictim s.moveNo v) { ctx := c, va := v / size * size, size := size, leaf := leaf }, .ok (leaf, size))

/-- The value of a tag's sectors (R374): does ST 2 under the tag read as tentative, full or empty? -/
inductive SectorView where
  | empty | full | tentative (tag : Nat)
  deriving DecidableEq, Repr

def SectorView.isTentative : SectorView → Bool
  | .tentative _ => true
  | _ => false

/-- How a sector reads (R83, R374). -/
def sectorView (s : State) (n : Nat) : SectorView :=
  let m := s.sector n
  if m.st = 1 then .full
  else if m.st = 2 then
    match mget TagState.free s.tags m.tag.toNat with
    | .committed => .full
    | .vanished => .empty
    | _ => .tentative m.tag.toNat
  else .empty

/-- Whole grant of a VC in beats (R391). -/
def vcGrant : Nat := 512

/-- Frames that one key of a port and direction serves (R390). -/
def keyLife : Nat := 2 ^ 32

/-- Messages at the head of a window queue that the credit and the frames that the key still serves let go, those that stay, and the credit left (R390, R391). -/
def windowHead : Nat → Nat → List Waiting → List Waiting × List Waiting × Nat
  | _, credit, [] => ([], [], credit)
  | 0, credit, q => ([], q, credit)
  | frames + 1, credit, w :: q =>
    if w.beats ≤ credit then
      let (ws, rest, c) := windowHead frames (credit - w.beats) q
      (w :: ws, rest, c)
    else ([], w :: q, credit)

/-- The header of a frame of the module's own (R390): its destination and source, its VC, its payload beats less 1, its hops left and its counter. -/
def frHeader (dest src vc nb ttl seq : Nat) : BitVec 128 :=
  BitVec.ofNat 128 (dest % 2 ^ 13 * 2 ^ 115 + src % 2 ^ 13 * 2 ^ 102 + vc % 8 * 2 ^ 99 + nb % 32 * 2 ^ 94 + ttl % 2 ^ 8 * 2 ^ 80 + seq % 2 ^ 64)

/-- The first payload beat of a message: the launch serial in bits 127:96, and the 14-bit request id (R393), whose place the model chooses (assumption 30). -/
def firstBeat : LinkMsg → BitVec 128
  | .request _ serial rid _ _ _ => BitVec.ofNat 128 (serial % 2 ^ 32 * 2 ^ 96 + rid % 2 ^ 14)
  | .reply serial rid _ _ => BitVec.ofNat 128 (serial % 2 ^ 32 * 2 ^ 96 + rid % 2 ^ 14)
  | .resolve serial _ => BitVec.ofNat 128 (serial % 2 ^ 32 * 2 ^ 96)
  | .resolveAck serial => BitVec.ofNat 128 (serial % 2 ^ 32 * 2 ^ 96)
  | .credit _ _ => 0

/-- The frames in which messages leave a port on a VC, numbered from a counter (R390). -/
def frames (s : State) (port vc seq : Nat) : List Waiting → List Output
  | [] => []
  | w :: ws => .message port (frHeader w.dest s.moduleNo vc (w.beats - 3) (Config.linkTtl w.dest).toNat seq) (firstBeat w.msg) w.msg :: frames s port vc (seq + 1) ws

/-- Messages leave a port on a VC while the credit lasts, and while its key serves (R92, R390, R391). -/
def drainWindow (s : State) (port vc : Nat) : State :=
  let x := mget {} s.berovo port
  if !x.up then s
  else
    let (ws, rest, c) := windowHead (min (keyLife - x.txFrames) (mget [] x.window vc).length) (mget vcGrant x.credit vc) (mget [] x.window vc)
    { s with
      outputs := s.outputs ++ frames s port vc x.txSeq ws
      berovo := mset s.berovo port { x with window := mset x.window vc rest, credit := mset x.credit vc c, txSeq := x.txSeq + ws.length, txFrames := x.txFrames + ws.length } }

/-- The Berovo port of the route to a module (R391). -/
def linkRoute (s : State) (m : Nat) : Nat := mget (Config.linkRoute m) s.routes m

/-- Is the route to a module up (R342, R395)? -/
def routeUp (s : State) (m : Nat) : Bool := (mget {} s.berovo (linkRoute s m)).up

/-- A message joins a window queue of a port and leaves within its credit (R92, R391). -/
def sendPort (s : State) (port vc : Nat) (w : Waiting) : State :=
  drainWindow { s with berovo := mmod {} s.berovo port (fun x => { x with window := mmod [] x.window vc (· ++ [w]) }) } port vc

/-- A message to a module goes by its route (R391). -/
def sendLink (s : State) (m vc beats : Nat) (msg : LinkMsg) : State := sendPort s (linkRoute s m) vc { dest := m, beats := beats, msg := msg }

/-- Empties a sector; the reads that wait on it wait for a later write, in their order (R79, R84, R92). -/
def emptySector (s : State) (n : Nat) : State :=
  { s.setSector n {} with reqs := s.reqs.map (fun r => match r.2.stage, r.2.target with
    | .deferred, .hbm pa => if pa / 64 = n then (r.1, { r.2 with anyOrder := false }) else r
    | _, _ => r) }

/-- A sector has been written, under a key id where a leaf gives one: its MAC is made afresh (R387, R388). -/
def writtenUnder (s : State) (n : Nat) (key : Option Nat) : State :=
  { s with
    badMacs := s.badMacs.filter (· != n)
    sectorKeys := match key with
      | some k => mset s.sectorKeys n k
      | none => merase s.sectorKeys n }

/-- May the device reach host memory for the partition of a VF: not while its TDI is locked or in error, and in RUN on its IDE stream only, which has a key (R379, R381)? -/
def dmaOpen (s : State) (vf : Nat) : Bool :=
  match mfind s.parts (vf - 1) with
  | none => true
  | some p => match p.tdi with
    | .unlocked => true
    | .run => (mfind s.ideKeys vf).isSome
    | _ => false

/-- Where an access from outside any task goes: its target, and the key id and PL attribute of its leaf; none and SA where no leaf gives them. -/
structure DevicePlace where
  target : Target
  key : Option Nat := none
  pl : Bool := false
  deriving DecidableEq, Repr

/-- A physical address of HBM that the device reaches without a leaf. -/
def hbmPlace (pa : Nat) : DevicePlace := { target := .hbm pa }

/-- Does a place in an SA page read as an empty sector (R83)? -/
def placeEmpty (s : State) (p : DevicePlace) : Bool :=
  match p.target with
  | .hbm pa => !p.pl && sectorView s (pa / 64) == .empty
  | _ => false

/-- Writes a word of HBM, of host memory or of another module from outside any task; an HBM sector becomes full, and one that was empty reads as zero where nothing is written (R83). whole says that the other words of the sector are written too: a write of part of a sector that fails its MAC leaves it failing (R388). The write to another module crosses under serial 0 and request id 0, which no task's request uses (R393; assumption 30). -/
def deviceWrite (s : State) (whole : Bool) (p : DevicePlace) (v : Word) : State :=
  match p.target with
  | .hbm pa =>
    let n := pa / 64
    let empty := placeEmpty s p
    let s := if empty then { s with mem := clearBytes s.mem (n * 64) 64 } else s
    let s := if whole || empty || !macFails s n p.key then writtenUnder s n p.key else noteBadMac s n
    { s with mem := setWord s.mem pa v, sectors := mset s.sectors n { st := 1, tag := 0 } }
  | .host vf a => { s with mem := setWord s.mem (hostAddr vf a) v }
  | .module m pa => sendLink s m 0 4 (.request pa 0 0 8 (.write [some v]) { pl := p.pl, outside := true, key := p.key })
  | .bank _ _ => s

/-- Reads a word of HBM, of host memory or of another module from outside any task; an empty sector reads as zero (R83). What another module answers is a free value (R393; assumption 30). -/
def deviceRead (s : State) (p : DevicePlace) : Word :=
  match p.target with
  | .hbm pa => if placeEmpty s p then 0 else wordAt s.mem pa
  | .host vf a => wordAt s.mem (hostAddr vf a)
  | .module m pa => (Config.remoteWord s.moveNo m pa).getD 0
  | .bank _ _ => 0

/-- Does an access from outside any task wait at a place: an HBM sector that is tentative under a task's tag (R83), or host memory that the TDI's state keeps from the device (R381)? -/
def deviceHeld (s : State) (p : DevicePlace) : Bool :=
  match p.target with
  | .hbm pa => !p.pl && (sectorView s (pa / 64)).isTentative
  | .host vf _ => !dmaOpen s vf
  | _ => false

/-- The machine check that a read from outside any task meets at a place: a reserved state, or a MAC that does not match (R83, R387, R388). -/
def deviceCheck (s : State) (p : DevicePlace) : Option Nat :=
  match p.target with
  | .hbm pa => if (s.sector (pa / 64)).st = 3 then some 0x1C6 else if !placeEmpty s p && macFails s (pa / 64) p.key then some 0x1C9 else none
  | _ => none

/-- Does a read of a word from outside any task meet 0x0C5: its module cannot be reached, or answers not within 1 ms (R342, R395)? -/
def deviceLost (s : State) (p : DevicePlace) : Bool :=
  match p.target with
  | .module m pa => !routeUp s m || (Config.remoteWord s.moveNo m pa).isNone
  | _ => false

/-- Place of a virtual address for a device access, by a walk (R331, R342). -/
def deviceTarget (s : State) (c v : Nat) (write : Bool) : Except Nat DevicePlace :=
  match walk s c v with
  | .error k => .error k
  | .ok (leaf, size) =>
    match leafDenies leaf write true with
    | some k => .error k
    | none => .ok { target := leafTarget s (s.ctx c).part leaf size v, key := some (leafKey leaf), pl := leafPL leaf }

/-- Places of n successive words; the first cause met otherwise. -/
def deviceTargets (s : State) (c v : Nat) : Nat → Except Nat (List DevicePlace)
  | 0 => .ok []
  | n + 1 =>
    match deviceTarget s c v true with
    | .error k => .error k
    | .ok t =>
      match deviceTargets s c (v + 8) n with
      | .error k => .error k
      | .ok ts => .ok (t :: ts)

/-- Are all eight words of the HBM sector of a place among some places? -/
def wholeSector (ts : List DevicePlace) (p : DevicePlace) : Bool :=
  match p.target with
  | .hbm pa => (List.range 8).all (fun i => ts.any (fun t => t.target == .hbm (pa / 64 * 64 + 8 * i)))
  | _ => false

/-- Writes words to places. -/
def deviceWrites (s : State) (ts : List DevicePlace) (ws : List Word) : State :=
  (ts.zip ws).foldl (fun s x => deviceWrite s (wholeSector ts x.1) x.1 x.2) s

/-- Appends an event-log entry, keeping the last 65,536 (R411). -/
def logEvent (s : State) (kind cause p g : Nat) (detail : Word) : State :=
  let e0 : Word := BitVec.ofNat 64 (kind * 2 ^ 56 + cause * 2 ^ 47 + p % 64 * 2 ^ 41 + g % 4096 * 2 ^ 29)
  let log := s.eventLog ++ [[e0, s.tb, detail, 0]]
  { s with eventLog := log.drop (log.length - 65536) }

/-- Physical address of an entry of a partition's slot table (R320). -/
def entryAddr (s : State) (p n : Nat) : Nat := (s.part p).tableBase + 64 * n

/-- Places of n words of a log, which lie in HBM of this module or in host memory (R331): one that the tables have since moved to another module is denied (assumption 30). -/
def logTargets (s : State) (c v n : Nat) : Except Nat (List DevicePlace) :=
  match deviceTargets s c v n with
  | .error k => .error k
  | .ok ts => if ts.all (fun t => match t.target with
      | .module _ _ => false
      | _ => true) then .ok ts else .error 0x0C1

/-- Where a record goes in a log of a size whose header reads as given: the offset of its first word, how many words fit, the new header (R330). -/
structure RecordPlace where
  start : Nat
  words : List Word
  header : List Word

def recordPlace (size : Nat) (h : List Word) (words : List Word) : RecordPlace :=
  let room := (size - 64) / 8
  let ws := words.take room
  let woff := (h.getD 0 0).toNat
  let wrap := decide (woff + 8 * ws.length > size)
  let start := if wrap then 64 else woff
  { start := start, words := ws
    header := [BitVec.ofNat 64 (start + 8 * ws.length), h.getD 1 0 + (if wrap then 1 else 0), h.getD 2 0, h.getD 3 0 + (if words.length > room then 1 else 0)] }

/-- What a write from outside any task comes to: what it reads and writes, or the cause it meets, or nothing to do for want of a log. -/
inductive DevicePlan where
  | none
  | denied (cause : Nat)
  | writes (places : List DevicePlace) (words : List Word)

/-- Plans a record of a context: its words, then the header (R330). -/
def planRecord (s : State) (c : Nat) (words : List Word) : DevicePlan :=
  match (s.ctx c).log with
  | none => .none
  | some (base, size) => match logTargets s c base 4 with
    | .error k => .denied k
    | .ok hs => match hs.findSome? (deviceCheck s) with
      | some k => .denied k
      | none =>
      let r := recordPlace size (hs.map (deviceRead s)) words
      match logTargets s c (base + r.start) r.words.length with
      | .error k => .denied k
      | .ok ts => .writes (ts ++ hs) (r.words ++ r.header)

/-- Plans a write from outside any task (R321, R327, R330). -/
def planOp (s : State) : DeviceOp → DevicePlan
  | .record c words _ => planRecord s c words
  | .skip c => match (s.ctx c).log with
    | none => .none
    | some (base, _) => match logTargets s c (base + 16) 1 with
      | .error _ => .none
      | .ok ts => match ts.findSome? (deviceCheck s) with
        | some k => .denied k
        | none => .writes ts (ts.map (fun t => deviceRead s t + 1))
  | .header c => match (s.ctx c).log with
    | none => .none
    | some (base, _) => match logTargets s c base 8 with
      | .error _ => .none
      | .ok ts => .writes ts [64, 0, 0, 0, 0, 0, 0, 0]
  | .clearV p n =>
    let t := hbmPlace (entryAddr s p n)
    .writes [t] [deviceRead s t &&& ~~~((1 : Word) <<< 63)]

/-- The context whose log a write touches. -/
def opCtx : DeviceOp → Option Nat
  | .record c _ _ => some c
  | .skip c => some c
  | .header c => some c
  | .clearV _ _ => none

/-- Entry of an MSI-X table; one that nothing has written is masked (R380; assumption 30). -/
def Msix.entry (x : Msix) (n : Nat) : BitVec 128 := mget ((1 : BitVec 128) <<< 96) x.table n
def Msix.masked (x : Msix) (n : Nat) : Bool := (x.entry n).getLsbD 96
def Msix.address (x : Msix) (n : Nat) : Word := (x.entry n).setWidth 64
def Msix.data (x : Msix) (n : Nat) : BitVec 32 := (x.entry n >>> 64).setWidth 32

/-- A vector of a partition's VF is signalled: its message leaves, or its bit is pending while its entry is masked; without feature 0 there is no VF (R330, R380, R409). -/
def signal (s : State) (p vec : Nat) : State :=
  let x := (s.part p).msix
  if !featureOn s 0 then s
  else if x.masked vec then s.modPart p (fun y => { y with msix := { y.msix with pending := y.msix.pending ||| ((1 : BitVec 256) <<< vec) } })
  else s.emit (.msix p vec (x.address vec) (x.data vec))

/-- What follows a record whose words and WOFF have been written: its MSI-X message (R330). -/
def afterOp (s : State) : DeviceOp → State
  | .record _ _ (some (p, vec)) => signal s p vec
  | _ => s

/-- A record that a translation or permission cause keeps from its log is dropped, with an event-log entry (R331); a machine check is logged as one too (R388). -/
def dropRecord (s : State) (k : Nat) (o : DeviceOp) : State :=
  let s := if k / 64 = 7 then logEvent s 1 k 0 0 0 else s
  match o with
  | .record c words _ => logEvent s 6 k (s.ctx c).part 0 (BitVec.ofNat 64 (bits (words.headD 0).toNat 56 8))
  | _ => s

/-- Makes a write from outside any task; it waits while a sector it touches is tentative, and behind the writes to its log that wait (R83, R330, R331). -/
def deviceDo (s : State) (o : DeviceOp) : State :=
  match planOp s o with
  | .none => s
  | .denied k => dropRecord s k o
  | .writes ts ws =>
    if ts.any (deviceHeld s) || s.waiting.any (fun w => w == o || (opCtx w).isSome && opCtx w == opCtx o) then { s with waiting := s.waiting ++ [o] }
    else afterOp (deviceWrites s ts ws) o

/-- The writes from outside any task that wait are tried again, in their order (R83). -/
def retryWaiting (s : State) : State := s.waiting.foldl deviceDo { s with waiting := [] }

/-- Does a request wait on a sector that is tentative under a tag (R83)? -/
def waitsOnTag (s : State) (t : Nat) (q : Req) : Bool :=
  match q.stage, q.target with
  | .deferred, .hbm pa => sectorView s (pa / 64) == .tentative t
  | _, _ => false

/-- Gives a tag another state; the requests that waited for its sectors and can go on now wake in any order (R104): all of them where it commits, and those from outside any task, which read an empty sector as zero, where it does not. The writes that waited for them are made (R83, R374). -/
def setTagState (s : State) (t : Nat) (v : TagState) : State :=
  let free := s.reqs.map (fun r => if waitsOnTag s t r.2 && (v == .committed || r.2.supervisor) then (r.1, { r.2 with anyOrder := true }) else r)
  retryWaiting { s with tags := mset s.tags t v, reqs := free }

/-- Appends a record of an entry to its context's completion log, with the entry's MSI-X message after it (R322, R330). -/
def logRecord (s : State) (c p : Nat) (e : Entry) (words : List Word) : State :=
  deviceDo s (.record c words (if (reg e.w 0).getLsbD 51 then some (p, bits (reg e.w 5).toNat 0 8) else none))

/-- Increments SKIPS of a context's log (R327). -/
def countSkip (s : State) (c : Nat) : State := deviceDo s (.skip c)

end Sys2Proof.Machine
end

