-- ==== Sys2Proof/Machine/Meter.lean ====
section
/-! DEFINITION. The meter (R181 to R205): balance, taking a cost, refusal, refill, the plan's projection and the shortfall record; bank ownership at task end (R86 to R88); vanish (R198) and commit (R104, R197). -/

namespace Sys2Proof.Machine

/-- Is a tag that of a running, dry or suspended task (R374)? -/
def isLive (s : State) (t : Nat) : Bool := mget TagState.free s.tags t == .live

/-- Allowances of a list of groves, summed. -/
def allowances (s : State) : List Nat → Nat
  | [] => 0
  | g :: gs => (s.grove g).allowance + allowances s gs

/-- A task's balance in drops: central count plus every allowance (R187). -/
def balance (s : State) (t : Nat) : Nat := (s.task t).central + allowances s (s.task t).groves

/-- Empties the allowances of a list of groves. -/
def dropAllowances (s : State) : List Nat → State
  | [] => s
  | g :: gs => dropAllowances (s.modGrove g (fun x => { x with allowance := 0 })) gs

/-- Recalls every allowance of a task into its central count (R187). -/
def gather (s : State) (t : Nat) : State :=
  let b := balance s t
  (dropAllowances s (s.task t).groves).modTask t (fun x => { x with central := b })

/-- Can a unit of a grove issue at a cost (R32, R187, R189)? A grove without a task pays nothing. -/
def canPay (s : State) (g cost : Nat) : Bool :=
  match s.taskOfGrove g with
  | none => true
  | some t => (s.task t).dry.isNone && (s.task t).refusals.isEmpty && decide (cost ≤ balance s t)

/-- The running charge of a task's boost drops (R202). -/
def boostCharge (x : Task) : Nat := (x.boostDrops + 3) / 4

/-- Adds drops taken at boost; a task whose running charge has reached the boost allowance goes on at standard draught (R202). -/
def addBoost (allowance cost : Nat) (x : Task) : Task :=
  if !x.boosting then x
  else
    let x := { x with boostDrops := x.boostDrops + cost }
    if allowance ≤ boostCharge x then { x with boosting := false, fellBack := true } else x

/-- Counts a cost as taken in a grove (R199, R202, R203), and the step as progress (R63). -/
def countCost (s : State) (t g cost : Nat) : State :=
  let boosted := if (s.grove g).capped || (s.grove g).hot then 0 else cost
  (s.modGrove g (fun x => { x with held := x.held - (cost : Int) })).modTask t (fun x => addBoost (s.ctx x.ctx).boost boosted { x with
    progress := s.tb.toNat
    issued := x.issued + cost
    steps := mmod 0 x.steps (s.grove g).regionIndex (· + 1) })

/-- A step in a grove that costs nothing is progress of its task too (R63). -/
def noteStep (s : State) (g : Nat) : State :=
  match s.taskOfGrove g with
  | some t => s.modTask t (fun x => { x with progress := s.tb.toNat })
  | none => s

/-- Drops of a cask's guard margin: the charge of 4 segments, a packet each (R398). -/
def guardMargin : Nat := 4 * 16

/-- Joins a grove's cask to the supply with some more segments; the guard supply charges its margin (R397, R398). -/
def joinCask (n : Nat) (s : State) (g : Nat) : State :=
  let x := s.grove g
  { s.setGrove g { x with segments := min 256 (x.segments + n), isolated := false, margin := guardMargin } with
    guardPool := s.guardPool - ((guardMargin - x.margin : Nat) : Int) }

/-- Enables cask segments in every grove of a task for n packets that it may hold, and joins the casks to the supply (R186, R397). -/
def enableSegments (s : State) (t n : Nat) : State :=
  let gs := (s.task t).groves
  gs.foldl (joinCask ((n + gs.length - 1) / gs.length)) s

/-- Drops in the casks of some groves are spent on their pour fee (R185): 32 in each. -/
def spendFee (s : State) (gs : List Nat) : State := gs.foldl (fun s g => s.modGrove g (fun x => { x with held := x.held - 32 })) s

/-- Fill level of a grove: the drops held for it over its cask's capacity, 16 drops a segment, at most 1 (R203, R397). -/
def fillLevel (x : Grove) : Rat := min 1 (max 0 ((x.held : Rat) / (16 * x.segments : Nat)))

/-- Has a grove stopped at the floor of its cask, with a pour that waits for its grant (R203, R400)? -/
def atFloor (s : State) (g : Nat) : Bool := decide ((s.grove g).held ≤ 0) && s.pours.contains g

/-- Takes a cost that canPay allows from a grove's allowance, drawing a chunk or recalling as R187 says. -/
def pay (s : State) (g cost : Nat) : State :=
  match s.taskOfGrove g with
  | none => s
  | some t =>
    let a := (s.grove g).allowance
    let c := (s.task t).central
    let s := countCost s t g cost
    if cost ≤ a then s.modGrove g (fun x => { x with allowance := a - cost })
    else if cost - a ≤ c then
      let draw := max (cost - a) (min 256 c)
      (s.modGrove g (fun x => { x with allowance := a + draw - cost })).modTask t (fun x => { x with central := c - draw })
    else
      let s := gather s t
      s.modTask t (fun x => { x with central := x.central - cost })

/-- Records a refused issue (R189); a task already refused or dry is left as it is. -/
def refuse (s : State) (g cost : Nat) : State :=
  match s.taskOfGrove g with
  | none => s
  | some t =>
    if balance s t < cost ∧ (s.task t).dry.isNone then
      s.modTask t (fun x => { x with refusals := if x.refusals.contains ⟨g, cost⟩ then x.refusals else x.refusals ++ [⟨g, cost⟩] })
    else s

/-- Smallest cost among the refused issues (R189). -/
def blockedCost (x : Task) : Nat :=
  match x.dry with
  | some d => d.blocked
  | none => match x.refusals with
    | [] => 0
    | r :: rs => rs.foldl (fun m q => min m q.cost) r.cost

/-- Starts the counts of full branch buffers afresh, of those that mine selects by key (R63). -/
def restartBranches (s : State) (mine : Nat → Bool) : State :=
  let full := s.fabric.filter (fun q => decide (256 ≤ q.1 % 4096) && q.2.length == 16 && mine q.1)
  let since : SMap Nat := full.foldl (fun m q => mset m q.1 s.tb.toNat) s.branchSince
  { s with branchSince := since }

/-- Starts a task's watchdog counts afresh (R63). -/
def restartWatch (s : State) (t : Nat) : State :=
  (restartBranches s (fun k => (s.task t).groves.contains (groveOf (k / 4096)))).modTask t (fun x => { x with progress := s.tb.toNat, stalled := false })

/-- Is a task suspended: a save of it is kept, and it has been given no groves (R373, R378)? -/
def suspendedNow (x : Task) : Bool := x.suspended.isSome && x.groves.isEmpty

/-- Adds drops to a task; a dry task leaves the dry state when its balance reaches the blocked cost (R192). -/
def addDrops (s : State) (t g drops : Nat) : State :=
  let s := if (s.task t).dry.isSome || (s.grove g).task != some t then s.modTask t (fun x => { x with central := x.central + drops })
    else s.modGrove g (fun x => { x with allowance := x.allowance + drops })
  match (s.task t).dry with
  | some d => if d.blocked ≤ balance s t then restartWatch (s.modTask t (fun x => { x with dry := none, refusals := [] })) t else s
  | none => s

/-- Cost of the plan segments numbered above the current one, and whether one from the current on is data-dependent (R200). -/
def planRest (x : Task) : Nat × Bool :=
  ((x.image.plan.drop (x.segment + 1)).foldl (fun a p => a + p.drops) 0,
    x.image.plan.isEmpty || (x.image.plan.drop x.segment).any (fun p => p.dep))

/-- DEF of R199: blocked cost less the balance, 0 when no issue is refused. -/
def deficit (s : State) (t : Nat) : Nat := blockedCost (s.task t) - balance s t
/-- PROJ of R200. -/
def projection (s : State) (t : Nat) : Nat := (deficit s t + (planRest (s.task t)).1 + 15) / 16

/-- The shortfall record of kind dry or vanish (R199). -/
def shortfall (s : State) (t kind cause ucode ngrove : Nat) : List Word :=
  let x := s.task t
  let lb := if (planRest x).2 then 1 else 0
  let n := BitVec.ofNat 64
  [n (kind * 2 ^ 56 + cause * 2 ^ 47 + lb * 2 ^ 46 + ngrove * 2 ^ 32 + t), n (x.serial * 2 ^ 32 + ucode % 65536 * 65536 + x.segment % 65536),
    n (balance s t), n (deficit s t), n (projection s t % 2 ^ 48), n (x.refilled % 2 ^ 48), n (x.topped % 2 ^ 48), n x.issued] ++
  ((List.range ngrove).map (fun g => n (mget 0 x.steps g)))

/-- Clears a bank to zero and empty, window states included (R86). -/
def resetBank (s : State) (b : Nat) : State :=
  let e := b / 6
  let off := b % 6 * 0x10000
  let lo := e * elemBytes + off
  { s with
    mem := clearBytes s.mem (bankAddr e off) 0x10000
    words := s.words.filter (fun w => decide (w.1 < lo / 8) || decide (lo / 8 + 0x2000 ≤ w.1))
    windows := s.windows.filter (fun w => decide (w.1 < lo) || decide (lo + 0x10000 ≤ w.1)) }

/-- Makes a bank free, zero and empty. -/
def freeBank (s : State) (b : Nat) : State := { resetBank s b with banks := merase s.banks b }

/-- Packets of a context's reserve after some are added (R181). -/
def addReserve (reserve n : Nat) : Nat := if reserve + n < 2 ^ 48 then reserve + n else (Config.reserveSum (reserve + n)).toNat

/-- Field HAND of a bank's windows in a plane, if it has any (R76, R77). -/
def bankHand (p : Plane) (b : Nat) : Option Nat :=
  (p.node.find? (fun d => wbits d.2.w0 28 4 == 6 && wbits d.2.w1 0 19 / 0x10000 == b)).map (fun d => wbits d.2.w0 10 2)

/-- Banks held by a task. -/
def heldBanks (s : State) (t : Nat) : List Nat :=
  (s.banks.filter (fun b => b.2.owner == .held t)).map (fun b => b.1)

/-- Slot-table entry key: partition and index. -/
def entryKey (p n : Nat) : Nat := p * 4096 + n

/-- A claimed bank that its holder did not write, returned to the park it was taken from (R86). -/
def returnedPark (k : Bank) (c : Nat) : Bank := { owner := if k.wasOpen then .openPark c else .keptPark c }

/-- What becomes of a vanished task's bank (R86, R88). One handed to it under HAND 1 that it neither wrote nor claimed is reset and made free (assumption 30). -/
def vanishBank (t : Nat) (s : State) (b : Nat) : State :=
  let k := s.bank b
  if k.written then freeBank s b
  else if k.claimed then s.modBank b (fun _ => returnedPark k (s.task t).ctx)
  else freeBank s b

/-- What becomes of a committing task's bank (R86, R88). next is the owner that a bank for the successor goes to, if there is one; a HAND 2 bank whose mark was never enqueued goes with those of HAND 1 (assumption 30). -/
def commitBank (t : Nat) (next : Option Owner) (s : State) (b : Nat) : State :=
  let c := (s.task t).ctx
  match bankHand (s.elem (b / 6)).active (b % 6) with
  | none => s.modBank b (fun _ => { owner := .openPark c })
  | some h =>
    match next with
    | some o => if h = 0 then s.modBank b (fun _ => { owner := .keptPark c }) else s.modBank b (fun _ => { owner := o })
    | none => s.modBank b (fun _ => { owner := .keptPark c })

/-- Takes a grove from a task: its sequencer and AGs reset, a handler's swait over, trap records removed, the pour that it waits for dropped, and the residue of its isolated cask passed to the guard supply (R198, R311, R372, R399, R400). The model's own choice (assumption 8): what a cask holds that is not isolated goes back with the packets that have not been poured. -/
def releaseGrove (t : Nat) (s : State) (g : Nat) : State :=
  let x := s.grove g
  let s := s.setGrove g { x with
    task := none, taskBank := {}
    halted := if x.level = 0 then true else x.halted
    thalt := if x.level = 0 then x.thalt else true
    allowance := 0, ags := [], fifos := [], fences := x.fences.filter (fun f => f.strand != 0), place := none, suspState := 0, entered := false, prepaid := none
    chkptAt := none, exits := [], stopped := false, segments := 0, held := 0, margin := 0, isolated := true, sticky := 0, atPoint := false, withdrawn := [], chains := x.chains.filter (fun c => c.strand != 0)
    traps := x.traps.filter (fun r => r.tag != t), waitingTraps := x.waitingTraps.filter (fun r => r.tag != t)
    handling := x.handling.map (fun r => if r.tag = t then { r with unit := .none } else r)
    superBank := { x.superBank with hold := match x.superBank.hold with
      | .streams _ => .none
      | h => h } }
  { s with guardPool := s.guardPool + (if x.isolated then x.held else 0) + x.margin, pours := s.pours.filter (· != g) }

/-- Number of a unit in the keys of its chains: an element, then a sequencer. -/
def chainUnit : UnitId → Nat
  | .elem e => e
  | .seq g => moduleElems + g
  | _ => 2 ^ 22

/-- Grove of a unit by its number in the keys of chains. -/
def chainGrove (u : Nat) : Nat := if u < moduleElems then groveOf u else u - moduleElems

/-- Discards the tokens, requests, chains and element state of a list of groves for a task; an element's gating predictor stays (R402). -/
def discardUnits (t : Nat) (gs : List Nat) (s : State) : State :=
  let gone := s.reqs.filter (fun r => r.2.tag == t && !r.2.supervisor)
  let isGone (r : Nat) : Bool := gone.any (fun q => q.1 == r)
  { s with
    elems := s.elems.filterMap (fun e =>
      if !gs.contains (groveOf e.1) then some e else if e.2.predictor = {} then none else some (e.1, e.2.predictor))
    fabric := s.fabric.filter (fun q => !gs.contains (groveOf (q.1 / 4096)))
    reqs := s.reqs.filter (fun r => !isGone r.1)
    ports := s.ports.map (fun p => (p.1, { p.2 with
      queue := p.2.queue.filter (fun r => !isGone r), deferred := p.2.deferred.filter (fun r => !isGone r)
      chains := p.2.chains.filter (fun c => !gs.contains (chainGrove (c.1 / 64))) }))
    outst := s.outst.filter (fun o => !gs.contains (groveOf o.2.elem)) }

/-- What a task's boost is charged in the end: at most its context's allowance (R202). -/
def boostSettled (s : State) (x : Task) : Nat := min (boostCharge x) (s.ctx x.ctx).boost

/-- The counts of a context, a partition or the module after a task has ended with a balance and a boost charge (R383). -/
def Totals.add (n : Totals) (x : Task) (b charge : Nat) : Totals :=
  { drawn := n.drawn + x.packets + x.refilled + x.topped, refunded := n.refunded + b / 16, forfeited := n.forfeited + b % 16, boostUsed := n.boostUsed + charge }

/-- Takes drops out of the casks of some groves, as far as they hold them. -/
def drainCasks : List Nat → Nat → State → State
  | [], _, s => s
  | g :: gs, n, s =>
    let d := min n (s.grove g).held.toNat
    drainCasks gs (n - d) (s.modGrove g (fun x => { x with held := x.held - (d : Int) }))

/-- Refund of whole packets, forfeit of the fraction and settling of boost; the forfeited drops pass out of the task's casks into the guard supply (R197, R202, R399), and PF0 sees the counts (R383). -/
def settle (s : State) (t : Nat) : State :=
  let s := gather s t
  let x := s.task t
  let b := x.central
  let charge := boostSettled s x
  let s := s.modCtx x.ctx (fun c => { c with reserve := addReserve c.reserve (b / 16), shown := addReserve c.reserve (b / 16), boost := c.boost - charge, totals := c.totals.add x b charge })
  let s := drainCasks x.groves (b % 16) s
  let s := s.modPart x.part (fun p => { p with totals := p.totals.add x b charge })
  { s with guardPool := s.guardPool + (b % 16 : Nat), totals := s.totals.add x b charge, staleRids := s.staleRids.filter (fun r => r.1 != x.serial) }

/-- Are the events that an entry awaits all 1 (R329)? An entry without EVT awaits none. -/
def eventsMet (s : State) (e : Entry) : Bool :=
  let w7 := (reg e.w 7).toNat
  !(reg e.w 0).getLsbD 52 ||
    (List.range 16).all (fun b => bits w7 (48 + b) 1 == 0 || (s.ctx (bits (reg e.w 0).toNat 32 16)).events.getLsbD (16 * bits w7 28 4 + b))

/-- A deferred launch becomes pending: its events are tested then (R327, R329). -/
def becomesPending (s : State) (d : Due) : Due := { d with blocked := !eventsMet s d.entry }

/-- The task of an entry's instance has ended: a deferred launch becomes pending, unless one is pending already (R327). -/
def entryEnded (s : State) (k t : Nat) : State :=
  match mfind s.staged k with
  | none => s
  | some e => if e.running = some t then { s with staged := mset s.staged k { e with running := none, deferred := if e.pending.isSome then e.deferred else none, pending := e.pending.or (e.deferred.map (becomesPending s)) } } else s

/-- The banks held for the successor of the load with a launch serial are reset when reset holds, else parked (R88). -/
def parkReserved (s : State) (c serial : Nat) (reset : Bool) : State :=
  let bs := (s.banks.filter (fun b => b.2.owner == .reserved serial)).map (fun b => b.1)
  bs.foldl (fun s b => if reset then freeBank s b else s.modBank b (fun _ => { owner := .keptPark c })) s

/-- Has the load with a launch serial vanished? -/
def loadVanished (s : State) (serial : Nat) : Bool := s.tasks.any (fun x => x.2.serial == serial && mget TagState.free s.tags x.1 == .vanished)

/-- A launch that is due is dropped: the banks held for it are parked, or reset where its predecessor has vanished (R86, R88). -/
def parkFor (s : State) (d : Due) : State :=
  match d.pred with
  | some n => parkReserved s (bits (reg d.entry.w 0).toNat 32 16) n (loadVanished s n)
  | none => s

/-- Is a launch the successor of the load with a launch serial? -/
def followsLoad (serial : Nat) (d : Option Due) : Bool := match d with
  | some d => d.pred == some serial
  | none => false

/-- Entry key of a task's successor (R328). -/
def successorKey (x : Task) : Option Nat :=
  let n := bits (reg x.entry.w 7).toNat 0 13
  if n = 0 then none else some (entryKey x.part (n - 1))

/-- A task vanishes (M12, R198): the record, the refund, the banks, and every unit of its region. A successor that is due and not launched launches as its dependent, and vanishes with it (R85, R334). -/
def vanishTask (s : State) (t cause ucode : Nat) : State :=
  if !isLive s t then s
  else
    let x := s.task t
    let record := shortfall s t 3 cause ucode (x.rows * x.cols)
    let s := settle s t
    let s := (heldBanks s t).foldl (vanishBank t) s
    let s := discardUnits t x.groves s
    let s := x.groves.foldl (releaseGrove t) s
    let s := x.resolving.foldl (fun s m => sendLink s m 2 3 (.resolve x.serial false)) s
    let s := setTagState { s with voids := merase s.voids t } t .vanished
    let s := s.modTask t (fun y => { y with groves := [], central := 0, dry := none, refusals := [], wave := none, suspended := none })
    entryEnded (logRecord s x.ctx x.part x.entry record) (entryKey x.part x.entryIndex) t

/-- Counts a slot start of an entry as skipped, in its context's log (R327). -/
def skipStart (s : State) (e : Entry) : State := countSkip s (bits (reg e.w 0).toNat 32 16)

/-- An earlier running instance of an entry is superseded: it vanishes at its next checkpoint, or at once where its load has none (R327) or it is suspended (R373). -/
def supersede (s : State) (t : Nat) : State :=
  if (s.task t).image.chkpts.isEmpty || suspendedNow (s.task t) then vanishTask s t 0x107 0 else s.modTask t (fun x => { x with superseded := true })

/-- Launches that wait for events wait no longer once their events are all 1 (R329). -/
def wakeEntries (s : State) : State :=
  let wake (d : Due) : Due := if d.blocked && eventsMet s d.entry then { d with blocked := false } else d
  { s with staged := s.staged.map (fun e => (e.1, { e.2 with pending := e.2.pending.map wake, deferred := e.2.deferred.map wake })) }

/-- A launch of an entry is due, at a slot start or for the predecessor with launch serial pred: the overrun policy (R327, R328). The banks held for a launch that is dropped are parked (R88). -/
def entryDue (s : State) (k start : Nat) (pred : Option Nat) : State :=
  match (mfind s.staged k).filter Staged.valid with
  | none => s
  | some e =>
    let w0 := (reg e.entry.w 0).toNat
    let due : Due := { start := start, entry := e.entry, image := e.image, blocked := !eventsMet s e.entry, pred := pred }
    let put (s : State) (f : Staged → Staged) : State := { s with staged := mmod {} s.staged k f }
    let becomes (s : State) : State := put s (fun e => { e with pending := some due })
    if e.pending.isNone && e.running.isNone then becomes s
    else match bits w0 53 2 with
      | 1 => if e.deferred.isSome then skipStart (parkFor s due) e.entry else put s (fun e => { e with deferred := some due })
      | 2 =>
        let dropped := e.pending.toList ++ e.deferred.toList
        let s := put (dropped.foldl (fun s d => skipStart (parkFor s d) e.entry) s) (fun e => { e with pending := none, deferred := none })
        becomes (match e.running with
          | some t => supersede s t
          | none => s)
      | _ => skipStart (parkFor s due) e.entry

/-- The owner that a bank for a task's successor goes to at its commit, if it has one that is launched, due or about to be (R86, R88). -/
def nextOwner (s : State) (x : Task) : Option Owner :=
  match successorKey x, x.successor with
  | some _, some t => if isLive s t then some (.held t) else none
  | some k, none => match mfind s.staged k with
    | some e => if (!x.due && e.valid) || (x.due && (followsLoad x.serial e.pending || followsLoad x.serial e.deferred)) then some (.reserved x.serial) else none
    | none => none
  | none, _ => none

/-- The commit record (R332). -/
def commitRecord (s : State) (t : Nat) (flags : Flags) : List Word :=
  let x := s.task t
  let b := balance s t
  let n := BitVec.ofNat 64
  let bfb := if x.fellBack then 1 else 0
  [n (2 ^ 56 + bfb * 2 ^ 46 + x.rows * x.cols * 2 ^ 32 + t), n (x.serial * 2 ^ 32 + x.entryIndex % 65536 * 65536 + x.segment % 65536),
    n b, x.user, n (b / 16 % 2 ^ 48), n (x.refilled % 2 ^ 48), n (x.topped % 2 ^ 48), n x.issued, n (boostSettled s x * 65536 + flags.toNat), n x.tstart, s.tb, 0]

/-- OR of the sticky registers of a region (R55, R332). -/
def regionFlags (s : State) (gs : List Nat) : Flags :=
  let els := s.elems.foldl (fun a e => if gs.contains (groveOf e.1) then
    e.2.sticky.toList.foldl (· ||| ·) (a ||| e.2.matrixSticky ||| e.2.convSticky) else a) (0 : Flags)
  gs.foldl (fun a g => a ||| (s.grove g).sticky) els

/-- Notes a pending void of a range under a tag (R84). -/
def addVoid (s : State) (t pa len : Nat) : State := { s with voids := mmod [] s.voids t (· ++ [(pa, len)]) }

/-- Empties sectors that are full, or tentative under the tag (R84, R104). A sector tentative under another tag is emptied when that tag resolves full: it becomes a pending void of that tag. -/
def voidSectors (t n : Nat) : Nat → State → State
  | 0, s => s
  | k + 1, s =>
    let s := match sectorView s n with
      | .tentative t' => if t' = t then emptySector s n else addVoid s t' (n * 64) 64
      | _ => emptySector s n
    voidSectors t (n + 1) k s

/-- A tag resolves full: its pending voids take effect, and its other sectors become full (R84, R104, R394). -/
def commitTag (s : State) (t : Nat) : State :=
  let s' := (mget [] s.voids t).foldl (fun s v => voidSectors t (v.1 / 64) (v.2 / 64) s) { s with voids := merase s.voids t }
  setTagState s' t .committed

/-- A task commits (M11, R104, R197): its sectors become full, its pending voids take effect, its banks pass on or are parked, and the record is written, at once or when every resolve has been acknowledged (R394). -/
def commitNow (s : State) (t : Nat) : State :=
  let x := s.task t
  let record := commitRecord s t (regionFlags s x.groves)
  let s := settle s t
  let s := (heldBanks s t).foldl (commitBank t (nextOwner s x)) s
  let s := discardUnits t x.groves s
  let s := x.groves.foldl (releaseGrove t) s
  let s := x.resolving.foldl (fun s m => sendLink s m 2 3 (.resolve x.serial true)) s
  let s := commitTag s t
  let w7 := (reg x.entry.w 7).toNat
  let evs := (List.range 16).foldl (fun (m : BitVec 256) b => if bits w7 (32 + b) 1 = 1 then m ||| ((1 : BitVec 256) <<< (16 * bits w7 28 4 + b)) else m) 0
  let s := if (reg x.entry.w 0).getLsbD 52 then wakeEntries (s.modCtx x.ctx (fun c => { c with events := c.events ||| evs })) else s
  let s := match successorKey x with
    | some k => if x.due then s else entryDue s k s.tb.toNat (some x.serial)
    | none => s
  let s := s.modTask t (fun y => { y with groves := [], central := 0, refusals := [], wave := none })
  let s := if x.resolving.isEmpty then logRecord s x.ctx x.part x.entry record
    else s.modTask t (fun y => { y with record := record })
  entryEnded s (entryKey x.part x.entryIndex) t

end Sys2Proof.Machine
end

