-- ==== Sys2Proof/Machine/Traps.lean ====
section
/-! DEFINITION. Raising a cause (R171, R306, R307, R312), machine checks (R306), fault records (R346, R347), taking a trap (R308) and returning from one (R310). -/

namespace Sys2Proof.Machine

/-- Completes a record with what the raising move fixes: time base, serial, tag and balance (R309). -/
def stamp (s : State) (g : Nat) (r : TrapRec) : TrapRec :=
  match s.taskOfGrove g with
  | some t => { r with tb := s.tb, serial := (s.task t).serial, tag := t, bal := balance s t }
  | none => { r with tb := s.tb }

/-- The eight words of a trap record, as TR0 to TR7 (R309). -/
def trapWords (r : TrapRec) : Vector Word 8 :=
  let n := BitVec.ofNat 64
  #v[n (r.cause * 2 ^ 55 + r.src * 2 ^ 52 + r.str * 2 ^ 50 + r.slot * 2 ^ 45 + r.eid.toNat % 2 ^ 37), r.addr, r.info,
    n (r.word.toNat + (if r.src = 1 then r.wordAddr * 2 ^ 32 else 0)), r.tb, n (r.serial * 2 ^ 32 + r.tag), n r.bal, 0]

/-- Queues a trap record at a grove, or has it wait when sixteen are queued (R307). -/
def queueTrap (s : State) (g : Nat) (r : TrapRec) : State :=
  s.modGrove g (fun x => if x.traps.length < 16 ∧ x.waitingTraps = [] then { x with traps := x.traps ++ [stamp s g r] }
    else { x with waitingTraps := x.waitingTraps ++ [stamp s g r] })

/-- Moves waiting records into places that have freed (R307). -/
def admitTraps (x : Grove) : Grove :=
  let room := 16 - x.traps.length
  { x with traps := x.traps ++ x.waitingTraps.take room, waitingTraps := x.waitingTraps.drop room }

/-- A machine check: logged, and the task vanishes with the cause (R306, R411). -/
def machineCheck (s : State) (g cause : Nat) (detail : Word) : State :=
  let s := logEvent s 1 cause ((s.partOfGrove g).getD 0) g detail
  match s.taskOfGrove g with
  | some t => vanishTask s t cause 0
  | none => s

/-- A cause raised by a supervisor-level word (R312). The word has no effect; the sequencer continues at the next word, which the caller sees to. -/
def supervisorCause (s : State) (g cause : Nat) : State :=
  machineCheck (s.modGrove g (fun x => { x with sflt := true })) g 0x1CA (BitVec.ofNat 64 cause)

/-- Stops the unit that a record names (R307). -/
def stopUnit (s : State) : Stopped → State
  | .elem e => s.modElem e (fun x => { x with stopped := true })
  | .node e slot => s.modElem e (fun x => { x with nodeStops := if x.nodeStops.contains slot then x.nodeStops else x.nodeStops ++ [slot] })
  | .ag g n => s.modGrove g (fun x => x.setAg n { x.ag n with stopped := true })
  | .seq g => s.modGrove g (fun x => { x with stopped := true })
  | .router e => s.modElem e (fun x => { x with routerStopped := true })
  | .fork e c => s.modElem e (fun x => { x with forkStops := if x.forkStops.contains c.toNat then x.forkStops else x.forkStops ++ [c.toNat] })
  | .none => s

/-- Raises a cause: 0x1C4 and above at the monitor (R306), another at the supervisor vector (R307). -/
def raise (s : State) (g : Nat) (r : TrapRec) : State :=
  if 0x1C4 ≤ r.cause then machineCheck s g r.cause r.addr else queueTrap (stopUnit s r.unit) g r

/-- The word of a slot of a plane and the word of the slot after it; slot 31 has none after it (R108). -/
def Plane.slotPair (p : Plane) (n : Nat) : IWord × IWord := (p.slotWord n, if n ≥ 31 then 0 else p.slotWord (n + 1))

/-- The words of an element slot. -/
def slotWords (s : State) (e n : Nat) : IWord × IWord := (s.elem e).active.slotPair n

/-- Raises a cause at an element slot (R307, R309). -/
def raiseSlot (s : State) (e k n cause : Nat) (addr info : Word) : State :=
  raise s (groveOf e) { cause := cause, src := 0, str := k, slot := n, eid := eidOf s e &&& 0x1FFFFFFFFF, addr := addr, info := info, word := (slotWords s e n).1, unit := .elem e }

/-- Raises a cause at a node of an element (SRC 3). -/
def raiseNode (s : State) (e slot cause : Nat) : State :=
  raise s (groveOf e) { cause := cause, src := 3, slot := slot, eid := eidOf s e &&& 0x1FFFFFFFFF, unit := .node e slot }

/-- Raises a cause at an AG (SRC 2). -/
def raiseAg (s : State) (g n cause : Nat) (addr : Word) : State :=
  raise s g { cause := cause, src := 2, str := n % 4, eid := eidOf s (mElem g (n / 4)) &&& 0x1FFFFFFFFF, addr := addr, unit := .ag g n }

/-- Raises a cause of a router (SRC 4). -/
def raiseRouter (s : State) (e cause : Nat) : State :=
  raise s (groveOf e) { cause := cause, src := 4, eid := eidOf s e &&& 0x1FFFFFFFFF, unit := .router e }

/-- Raises a cause of the fork of a class at a router (SRC 4), with the mask of its full branches (R63). -/
def raiseFork (s : State) (e : Nat) (c : BitVec 6) (cause : Nat) (mask : Word) : State :=
  raise s (groveOf e) { cause := cause, src := 4, eid := eidOf s e &&& 0x1FFFFFFFFF, info := mask, unit := .fork e c }

/-- Raises a cause at a sequencer word at a word address: to the supervisor vector from task level, to the monitor from supervisor level (R307, R312). -/
def raiseSeq (s : State) (g addr cause : Nat) (a info : Word) (word : IWord) : State :=
  if (s.grove g).level = 0 then
    raise s g { cause := cause, src := 1, eid := eidOf s (elemAt g 0) &&& 0x1FFFFFFFFF, addr := a, info := info, word := word, wordAddr := addr, unit := .seq g }
  else supervisorCause s g cause

/-- Fault-record kind of a unit and direction (R346). -/
def faultKind (u : UnitId) (write : Bool) : Nat :=
  match u with
  | .elem _ => if write then 1 else 0
  | .seq _ => 2
  | .ag _ _ => if write then 4 else 3
  | .remote _ _ _ => 2

/-- Updates a grove's fault records for a class-3 cause at a virtual address (R347). -/
def recordFault (s : State) (g kind cause va c : Nat) : State :=
  let x := s.grove g
  let f0 := kind * 2 ^ 60 + cause * 2 ^ 51 + c * 2 ^ 32
  let block := va / 2 ^ 22
  let bit : Word := (1 : Word) <<< (va / 2 ^ 16 % 64)
  let same (r : FaultRec) : Bool := r.valid && r.fields.toNat / 2 ^ 8 * 2 ^ 8 % 2 ^ 63 == f0 && r.va.toNat == block
  let recs := x.faults.toList
  match recs.findIdx? same with
  | some i =>
    let r := recs.getD i {}
    let n := if r.fields.toNat % 256 < 255 then r.fields + 1 else r.fields
    s.setGrove g { x with faults := setAt x.faults i { r with fields := n, leaf := r.leaf ||| bit } }
  | none =>
    match recs.findIdx? (fun r => !r.valid) with
    | some i => s.setGrove g { x with faults := setAt x.faults i { valid := true, va := BitVec.ofNat 64 block, fields := BitVec.ofNat 64 (f0 + 1), leaf := bit, words := s.tb } }
    | none => s.setGrove g { x with frovf := true }

/-- Taking a trap: a sequencer at task level enters the handler for the head record (R308). The word that a wait or swait holds it at is abandoned, and is the next word to be considered, held as before. -/
def enterHandler (s : State) (g : Nat) : State :=
  let x := s.grove g
  match x.traps with
  | [] => s
  | r :: _ =>
    s.setGrove g { x with
      epc := BitVec.ofNat 14 x.pc
      thalt := x.halted
      halted := false
      level := 1
      intrap := true
      sflt := false
      handling := some r
      tr := trapWords r
      pc := x.svec.toNat }

/-- May a sequencer enter a handler: task level, a record queued, no handler running, not in a runtime grove (R301, R308)? -/
def canEnter (x : Grove) : Bool := x.level == 0 && !x.intrap && !x.traps.isEmpty

/-- Does any queued or waiting record name a unit? -/
def stillNamed (x : Grove) (u : Stopped) : Bool := (x.traps ++ x.waitingTraps).any (fun r => r.unit == u)

/-- The stage at which a stopped request is sent again: a translation that failed is made afresh (R352). -/
def resentStage (q : Req) : Stage :=
  match q.stage, q.target with
  | .stopped k, .bank _ _ => if k / 64 = 3 then .xlate else .sent
  | .stopped _, _ => .xlate
  | g, _ => g

/-- A stopped request as it is sent again; one that is translated afresh goes through no page yet. -/
def resent (q : Req) : Req :=
  match q.stage with
  | .stopped _ => if resentStage q = .xlate then { q with stage := .xlate, pageSize := 0 } else { q with stage := resentStage q }
  | _ => q

/-- Sends a unit's stopped requests again, without a second cost (R232, R352). No tlbinv waits for one of them any more: the translation it carried is gone (R349). -/
def resend (s : State) (u : UnitId) : State :=
  let again (r : Nat) : Bool := match s.req? r with
    | some q => q.src == u && resent q != q
    | none => false
  { s with
    reqs := s.reqs.map (fun r => (r.1, if r.2.src = u then resent r.2 else r.2))
    groves := s.groves.map (fun g => (g.1, { g.2 with tlbWait := g.2.tlbWait.filter (fun r => !again r) })) }

/-- The AGs that a resume starts: the named one, and its partner in a sparse set command, which a sort-order cause stopped with it (R231). -/
def resumedAgs (s : State) (g n : Nat) : List Nat :=
  let partner := if n % 2 = 0 then n + 1 else n - 1
  match ((s.grove g).ag n).queue with
  | c :: _ => match c.kind with
    | .set _ _ _ => if stillNamed (s.grove g) (.ag g partner) then [n] else [n, partner]
    | _ => [n]
  | [] => [n]

/-- Lets a stopped unit go on (R310). A unit that another queued record names stays stopped until that record is popped (assumption 12). -/
def resumeUnit (s : State) (g : Nat) (u : Stopped) : State :=
  if stillNamed (s.grove g) u then s
  else match u with
    | .elem e => resend (s.modElem e (fun x => { x with stopped := false })) (.elem e)
    | .node e slot => s.modElem e (fun x => { x with nodeStops := x.nodeStops.filter (· != slot) })
    | .ag g n => resend ((resumedAgs s g n).foldl (fun s m => s.modGrove g (fun x => x.setAg m { x.ag m with stopped := false })) s) (.ag g n)
    | .seq g => resend (s.modGrove g (fun x => { x with stopped := false })) (.seq g)
    | .router e => s.modElem e (fun x => { x with routerStopped := false })
    | .fork e c => s.modElem e (fun x => { x with forkStops := x.forkStops.filter (· != c.toNat) })
    | .none => s

/-- The watchdog interval that a stall cause named starts afresh at sret: the fork's, or the region's (R310). -/
def restartStall (s : State) (r : TrapRec) : State :=
  match r.unit with
  | .fork e c => restartBranches s (fun k => k / 4096 == e && decide (256 ≤ k % 4096) && (k % 4096 - 256) / 8 == c.toNat)
  | _ => if r.cause = 0x144 then s.modTask r.tag (fun x => { x with progress := s.tb.toNat, stalled := false }) else s

/-- Returning from a trap: sret at supervisor level (R310), with the PC already past the word. -/
def returnFromTrap (s : State) (g : Nat) : State :=
  let x := s.grove g
  match x.handling with
  | none => machineCheck (s.setGrove g { x with sflt := true }) g 0x1C4 0
  | some r =>
    let rest := match x.traps with
      | h :: t => if h.tag = r.tag ∧ h.cause = r.cause ∧ h.unit = r.unit ∧ h.tb = r.tb then t else h :: t
      | [] => []
    let x := admitTraps { x with traps := rest }
    let x := match x.traps with
      | h :: _ => { x with handling := some h, tr := trapWords h, pc := x.svec.toNat }
      | [] => { x with handling := none, intrap := false, level := 0, pc := x.epc.toNat, halted := x.thalt }
    let s := resumeUnit (s.setGrove g x) g (if isLive s r.tag then r.unit else .none)
    if isLive s r.tag then restartStall s r else s

end Sys2Proof.Machine
end

