-- ==== Sys2Proof/Machine/Channels.lean ====
section
/-! DEFINITION. Tokens, channels and routes: queue names (R92), visible heads (R69, R70), trigger tests (R68), room and outstanding tokens (R72), enqueueing (R55, R59), consuming, decoding (R66) and delivery (R58, R65, R70, R133), hops (R60 to R63) and path surcharges (R121, R183). -/

namespace Sys2Proof.Machine

def sideCode : Side → Nat
  | .north => 0
  | .east => 1
  | .south => 2
  | .west => 3
/-- Key of a queue of an element's router in the fabric table. -/
def queueKey (e : Nat) : HopQ → Nat
  | .out ch => e * 4096 + ch.toNat
  | .inq p vc => e * 4096 + 32 + sideCode p * 32 + vc.toNat
  | .branch c d => e * 4096 + 256 + c.toNat * 8 + (match d with
    | some x => sideCode x
    | none => 4)

/-- The side that a code stands for. -/
def sideOf (n : Nat) : Side := if n = 0 then .north else if n = 1 then .east else if n = 2 then .south else .west

/-- The queue of an element's router that a key in the fabric table stands for. -/
def hopOf (k : Nat) : HopQ :=
  let n := k % 4096
  if n < 32 then .out (BitVec.ofNat 5 n)
  else if n < 256 then .inq (sideOf ((n - 32) / 32)) (BitVec.ofNat 5 n)
  else .branch (BitVec.ofNat 6 ((n - 256) / 8)) (if (n - 256) % 8 < 4 then some (sideOf ((n - 256) % 8)) else none)

/-- A checkpoint, drain or freeze marker (R58). -/
def Token.isWave (t : Token) : Bool := t.mark == 4 || t.mark == 5 || t.mark == 6
/-- An end mark (R58). -/
def Token.isEnd (t : Token) : Bool := t.mark == 1 || t.mark == 2 || t.mark == 3
/-- A data token, present or absent (R68). -/
def Token.isData (t : Token) : Bool := t.mark == 0

/-- The visible head of an inbound queue: an end mark of rank 1 or 2 needs a token behind it (R70). -/
def visibleHead : List Token → Option Token
  | [] => none
  | [t] => if t.mark = 1 ∨ t.mark = 2 then none else some t
  | t :: _ => some t

/-- Visible head of a channel of an element. -/
def headOf (s : State) (e ch : Nat) : Option Token := visibleHead ((s.elem e).active.fifo ch)

/-- A head that a slot may consume: visible and no wave marker (R69). -/
def sourceHead (s : State) (e ch : Nat) : Option Token :=
  match headOf s e ch with
  | some t => if t.isWave then none else some t
  | none => none

/-- Does an outstanding token count on an outbound channel: one of its class that the channel enqueued, or that a channel of another plane did, for the lowest channel of the class (R72, R265)? -/
def countsOn (p : Plane) (ch : Nat) (o : Outst) : Bool :=
  let cls (n : Nat) : Nat := chanClass (p.chanWord n)
  o.cls.toNat == cls ch && (o.ch.toNat == ch || (cls o.ch.toNat != o.cls.toNat && !(List.range ch).any (fun n => cls n == cls ch)))

/-- Outstanding tokens and reserved places of an outbound channel (R72). -/
def outstanding (s : State) (e ch : Nat) : Nat :=
  (s.outst.filter (fun o => o.2.elem == e && countsOn (s.elem e).active ch o.2)).length
/-- Places of an outbound channel reserved and not yet filled (R162). -/
def reserved (s : State) (e ch : Nat) : Nat :=
  (s.outst.filter (fun o => o.2.elem == e && o.2.ch.toNat == ch && o.2.copies == 0)).length

/-- Route entry that a channel's tokens take at the element's own router (R61, R64). -/
def routeOfChan (s : State) (e ch : Nat) : IWord :=
  let p := (s.elem e).active
  p.routeWord (chanClass (p.chanWord ch))

/-- Is a token, by its identity, the last unconsumed copy of one of a channel's tokens (R72)? -/
def lastCopyOf (s : State) (e ch tid : Nat) : Bool :=
  match mfind s.outst tid with
  | some o => o.elem == e && countsOn (s.elem e).active ch o && o.copies == 1
  | none => false

/-- Room of an outbound channel for a firing that consumes the tokens with the given identities (R29, R72, R92). -/
def hasRoom (s : State) (e ch : Nat) (consumed : List Nat) : Bool :=
  let lim := routeLim (routeOfChan s e ch)
  let back := (consumed.filter (lastCopyOf s e ch)).length
  let space := match s.tokens (queueKey e (.out (BitVec.ofNat 5 ch))), reserved s e ch with
    | [], 0 => true
    | q, r => decide (q.length + r ≤ Config.outboundPlaces)
  space && (lim == 0 || decide (outstanding s e ch - back < lim))

/-- One channel test of a trigger entry, for a firing that would consume the given tokens (R68, R72). -/
def channelTest (s : State) (e k : Nat) (eaten : List Nat) (code ch : Nat) : Bool :=
  match code with
  | 0 => true
  | 5 => hasRoom s e ch eaten
  | _ =>
    match headOf s e ch with
    | none => false
    | some t =>
      match code with
      | 1 => true
      | 2 => t.isData && t.gen == ((s.elem e).active.strand k).gen
      | 3 => t.isEnd
      | 4 => t.mark != 0
      | 6 => t.isData
      | _ => t.isWave

/-- Predicate part of a trigger or guard entry (R68). -/
def predicatesHold (p : BitVec 8) (w : IWord) : Bool :=
  let mask := BitVec.ofNat 8 (wbits w 24 8)
  p &&& mask == BitVec.ofNat 8 (wbits w 16 8) &&& mask

/-- Does a trigger entry hold for a strand and a firing that would consume the given tokens (R68)? -/
def triggerHolds (s : State) (e k t : Nat) (eaten : List Nat) : Bool :=
  if t = 63 then false
  else if t = 0 then true
  else
    let p := (s.elem e).active
    let w := p.trigWord t
    predicatesHold (p.strand k).p w && channelTest s e k eaten (wbits w 8 3) (wbits w 11 5) && channelTest s e k eaten (wbits w 0 3) (wbits w 3 5)

/-- Notes that a firing or node of an element has consumed an end mark, to forward it or not, for an armed swap (R265). -/
def notePassed (t : Token) (x : Elem) : Elem :=
  if x.active.armk != 0 && t.isEnd && decide (x.active.armk.toNat ≤ t.mark.toNat) then { x with passed := true } else x

/-- A copy of a token is consumed (R72). -/
def consumeCopy (s : State) (tid : Nat) : State :=
  match mfind s.outst tid with
  | none => s
  | some o => if o.copies ≤ 1 then { s with outst := merase s.outst tid } else { s with outst := mset s.outst tid { o with copies := o.copies - 1 } }

/-- A copy of a token has become n copies (R63, R66). -/
def splitCopy (s : State) (tid n : Nat) : State :=
  if n = 0 then consumeCopy s tid
  else match mfind s.outst tid with
    | none => s
    | some o => { s with outst := mset s.outst tid { o with copies := o.copies + (n - 1) } }

/-- A rank-3 mark that leaves an inbound channel, consumed or discarded, is the end mark of the exit stream on it (R27). -/
def endExit (s : State) (e ch : Nat) (t : Token) : State :=
  if t.mark = 3 ∧ ¬isC e then s.modGrove (groveOf e) (fun x => { x with exits := x.exits.filter (· != mIndex e * 32 + ch) }) else s

/-- Takes the head of an inbound channel, for a strand (R41, R69) or, with none, for a node. -/
def takeHead (s : State) (e ch : Nat) (k : Option Nat) : State :=
  match (s.elem e).active.fifo ch with
  | [] => s
  | t :: rest =>
    let s := s.modElem e (fun x => notePassed t { x with
      active := x.active.setFifo ch rest
      taken := match k with
        | some k => mmod 0 x.taken (k * 32 + ch) (· + 1)
        | none => x.taken })
    consumeCopy (endExit s e ch t) t.tid

/-- OR of the sticky registers of an element (R55). -/
def elemFlags (x : Elem) : Flags := x.sticky.toList.foldl (· ||| ·) (x.matrixSticky ||| x.convSticky)

/-- Marks the HAND 2 banks whose HCH is a channel on which a rank-3 mark is enqueued (R76, R86). -/
def noteHandMark (s : State) (e ch : Nat) : State :=
  (s.elem e).active.node.foldl (fun s d =>
    if wbits d.2.w0 28 4 = 6 ∧ wbits d.2.w0 10 2 = 2 ∧ wbits d.2.w3 16 5 = ch then
      s.modBank (e * 6 + wbits d.2.w1 0 19 / 0x10000) (fun b => { b with marked := true })
    else s) s

/-- Status bits of R55 that a rank-3 mark takes as an element enqueues it. -/
def withStatus (x : Elem) (t : Token) : Token :=
  if t.mark = 3 then { t with payload := t.payload ||| (elemFlags x).setWidth 64 } else t

/-- Appends a token to an outbound channel under a token identity (R55, R59). -/
def enqueueAs (s : State) (e ch : Nat) (k : Nat) (t : Token) (tid : Nat) : State :=
  let x := s.elem e
  let t := withStatus x { t with cls := BitVec.ofNat 6 (chanClass (x.active.chanWord ch)), tid := tid }
  let key := queueKey e (.out (BitVec.ofNat 5 ch))
  let s := if t.mark = 3 then noteHandMark s e ch else s
  let s := { s with fabric := mset s.fabric key (s.tokens key ++ [t]) }
  if tid = 0 then s else { s with outst := mset s.outst tid { elem := e, ch := BitVec.ofNat 5 ch, copies := 1, gen := t.gen, strand := BitVec.ofNat 3 k, cls := t.cls } }

/-- Enqueues a token of a strand or node on an outbound channel. -/
def enqueue (s : State) (e ch k : Nat) (t : Token) : State :=
  let s' := enqueueAs s e ch k t s.nextTok
  { s' with nextTok := s.nextTok + 1 }

/-- Reserves a place of an outbound channel (R162): the state and the identity its token will have. -/
def reservePlace (s : State) (e ch k : Nat) (gen : BitVec 4) : State × Nat :=
  let cls := BitVec.ofNat 6 (chanClass ((s.elem e).active.chanWord ch))
  ({ s with outst := mset s.outst s.nextTok { elem := e, ch := BitVec.ofNat 5 ch, copies := 0, gen := gen, strand := BitVec.ofNat 3 k, cls := cls }, nextTok := s.nextTok + 1 }, s.nextTok)

/-- Enqueues one marker on each distinct valid route class of an element's channel entries (R267). -/
def enqueueMarkers (s : State) (e : Nat) (mark : BitVec 3) : State :=
  let p := (s.elem e).active
  let chans := (List.range 32).filter (fun ch =>
    routeValid (p.routeWord (chanClass (p.chanWord ch))) &&
    !(List.range ch).any (fun c => chanClass (p.chanWord c) == chanClass (p.chanWord ch)))
  chans.foldl (fun s ch => enqueueAs s e ch 0 { mark := mark } 0) s

/-- Channels that a node reads (R67, R71): matrix intake, converter, corner turn, cell intakes, race intakes. -/
def nodeReads (d : Desc) : List Nat :=
  let w := d.w0
  match wbits w 28 4 with
  | 1 => if wbits w 13 1 = 1 then [wbits d.w1 18 5] else []
  | 2 => [wbits w 8 5]
  | 3 => [wbits w 22 5]
  | 4 => (if wbits w 27 1 = 1 then [wbits w 22 5] else []) ++ (if wbits w 19 1 = 1 then [wbits w 14 5] else [])
  | 5 => wbits w 22 5 :: (if wbits w 27 1 = 1 then [wbits w 17 5] else [])
  | _ => []

/-- Channels a plane's nodes read. -/
def nodeChannels (p : Plane) : List Nat := p.node.flatMap (fun d => nodeReads d.2)

/-- Channels that the queued write streams and scatters of an element's AGs read (R133, R226, R228); a copy reads none, whatever its staging was bound to. The model's own choice (assumption 30): a write stream that is bound and has no command queued reads no channel yet, and the index channel of a gather is not counted here. -/
def agChannels (s : State) (e : Nat) : List Nat :=
  let g := s.grove (groveOf e)
  if isC e then [] else
  (List.range 4).flatMap (fun n => (g.ag (mIndex e * 4 + n)).queue.flatMap (fun c =>
    match c.kind with
      | .scatter ch => (if c.stage.inbound then [c.stage.ch.toNat] else []) ++ [ch.toNat]
      | .copy _ _ => []
      | _ => if c.stage.inbound then [c.stage.ch.toNat] else []))

/-- Strands that own a slot of a plane: a slot that holds no empty word (R133). -/
def owningStrands (p : Plane) : List Nat :=
  (List.range 4).filter (fun k => (List.range 32).any (fun n => p.slotStrand n == k && wbits (p.slotWord n) 26 6 != 63))

/-- Has every strand that owns a slot halted, at least one owning a slot (R133)? -/
def allHalted (p : Plane) : Bool :=
  !(owningStrands p).isEmpty && (owningStrands p).all (fun k => (p.strand k).halted)

/-- Is a freeze wave in progress in the region of an element's task (R266)? -/
def freezesHere (s : State) (e : Nat) : Bool :=
  match s.taskOfElem e with
  | some t => match (s.task t).wave with
    | some (.freeze _ _) => true
    | _ => false
  | none => false

/-- Is an element past its entry point, to a wave that waits for no freeze wave: it fires nothing more (R364, R365)? -/
def pastEntry (s : State) (e : Nat) : Bool := (s.elem e).entered && !freezesHere s e

/-- Does an element discard what arrives at a channel (R133)? -/
def discards (s : State) (e ch : Nat) : Bool :=
  let p := (s.elem e).active
  allHalted p && !(nodeChannels p).contains ch && !(agChannels s e).contains ch

/-- Discards what waits in the channels of a halted element that nothing reads; a wave marker counts as seen (R133). -/
def discardQueued (s : State) (e : Nat) : State :=
  (List.range 32).foldl (fun s ch =>
    if discards s e ch then
      let q := (s.elem e).active.fifo ch
      let s := q.foldl (fun s t => if t.isWave then s else consumeCopy (endExit s e ch t) t.tid) s
      s.modElem e (fun x => { x with
        active := x.active.setFifo ch []
        markSeen := if q.any Token.isWave then x.markSeen ||| ((1 : BitVec 32) <<< ch) else x.markSeen })
    else s) s

/-- Slots in use of an inbound queue: wave markers take none (R65). -/
def slotsUsed (q : List Token) : Nat := (q.filter (fun t => !t.isWave)).length

/-- Room for n more tokens at an inbound channel (R65, R66). -/
def inboundRoom (s : State) (e ch n : Nat) : Bool :=
  let p := (s.elem e).active
  decide (slotsUsed (p.fifo ch) + n ≤ chanDepth (p.chanWord ch))

/-- Puts a token into an inbound FIFO: markers merge with a held marker of their wave (R65, R267), an end mark with a last queued end mark of lower rank and equal generation (R70). -/
def appendToken (s : State) (e ch : Nat) (t : Token) : State :=
  let q := (s.elem e).active.fifo ch
  let put (q : List Token) (s : State) : State := s.modElem e (fun x => { x with active := x.active.setFifo ch q })
  if t.isWave then
    if q.any (fun u => u.mark == t.mark) then s else put (q ++ [t]) s
  else
    match q.getLast? with
    | some u =>
      if t.isEnd && u.isEnd && decide (u.mark.toNat < t.mark.toNat) && u.gen == t.gen then
        consumeCopy (put (q.dropLast ++ [{ u with mark := t.mark, payload := u.payload ||| (t.payload &&& 63) }]) s) t.tid
      else put (q ++ [t]) s
    | none => put [t] s

/-- Does a channel decode (R66)? -/
def decodes (w : IWord) : Bool :=
  chanDec w && !(chanFmt w ≤ 3 || chanFmt w == 9)

/-- Slots that must be free to admit a payload of a format (R66). -/
def decodeRoom (fmt : Nat) : Nat :=
  match fmt with
  | 4 => 4
  | 5 => 4
  | 6 => 6
  | 7 => 6
  | 8 => 8
  | 10 => 8
  | 11 => 11
  | 12 => 4
  | 13 => 6
  | 14 => 6
  | _ => 8

/-- Raw scale of group j from the scale registers of a channel (R39, R66). -/
def decodeScale (p : Plane) (fmt sreg j : Nat) : Nat :=
  if hasE8M0 fmt then bits (p.sreg[sreg]?.getD 0).toNat (8 * j) 8
  else bits (p.sreg[sreg + j / 4]?.getD 0).toNat (16 * (j % 4)) 16

/-- FP32 value of element q of a run, with its flags (R66). -/
def decodeElement (p : Plane) (fmt sreg q raw : Nat) : Nat × Flags :=
  let (v, f) := scaledElement fmt (decodeScale p fmt sreg (q / 32)) raw
  let (x, f') := fpWrite .f32 { mode := 0 } v
  (x, f ||| f')

/-- Elements that a run's held bits complete: decoded tokens, flags and the run after them (R66). -/
def decodeBits (p : Plane) (fmt sreg : Nat) (t : Token) : Nat → DecodeRun → List Token → Flags → DecodeRun × List Token × Flags
  | 0, r, out, f => (r, out, f)
  | fuel + 1, r, out, f =>
    let w := formatWidth fmt
    if r.bitsHeld < w then (r, out, f)
    else if r.count ≥ 256 then ({ r with skip := true }, out, f)
    else
      let (x, g) := decodeElement p fmt sreg r.count (r.held % 2 ^ w)
      let r' := { r with held := r.held / 2 ^ w, bitsHeld := r.bitsHeld - w, count := r.count + 1 }
      match r.pending with
      | none => decodeBits p fmt sreg t fuel { r' with pending := some x } out (f ||| g)
      | some y => decodeBits p fmt sreg t fuel { r' with pending := none }
          (out ++ [{ t with payload := BitVec.ofNat 64 (y + x * 2 ^ 32), frame := 0, mark := 0 }]) (f ||| g)

/-- Tokens that closing a run emits: its unpaired element with lane 1 zero (R66). -/
def closeRun (r : DecodeRun) : List Token :=
  match r.pending with
  | some y => [{ r.last with payload := BitVec.ofNat 64 y, frame := 0, mark := 0 }]
  | none => []

/-- Appends decoded tokens, whose payload's copy has become as many copies. -/
def appendDecoded (s : State) (e ch tid : Nat) (ts : List Token) : State :=
  ts.foldl (fun s t => appendToken s e ch t) (splitCopy s tid ts.length)

/-- Is a data token a header token of a decode channel (R39, R66): a head where no run is open and the header is not complete, and for an FP16 scale source the middle token after it? The next data token after a complete header, a head too, begins the run. -/
def isHeader (fmt : Nat) (r : DecodeRun) (t : Token) : Bool :=
  (hasE8M0 fmt || hasF16Scale fmt) && !r.isOpen && r.header != 2 && (t.frame == 1 || (r.header == 1 && t.frame == 2))

/-- Appends what closing a run emits: each token is a further copy of the payload whose element it holds (R66, R72). The model's own choice (assumption 30): a payload whose emitted tokens have all been consumed is no longer outstanding, and the token of an element that is still unpaired then is not counted when it is emitted. -/
def appendClosed (s : State) (e ch : Nat) (ts : List Token) : State :=
  ts.foldl (fun s u => appendToken (splitCopy s u.tid 2) e ch u) s

/-- A data token arrives at a decode channel (R66). The model's own choices (assumption 30): a middle or tail token where no run is open begins one; a head token in the open run of a scaled format is data of it; a head or single token that ends an open run with no tail has that run's unpaired element emitted before its own, for which no slot is tested beyond those of its own format (R66), so that the FIFO may hold one token more than DEPTH. -/
def decodeData (s : State) (e ch : Nat) (t : Token) : State :=
  let x := s.elem e
  let w := x.active.chanWord ch
  let fmt := chanFmt w
  let sreg := chanSreg w
  let r := mget {} x.decode ch
  let put (r : DecodeRun) (s : State) : State := s.modElem e (fun x => { x with decode := mset x.decode ch r })
  let latch (i : Nat) (s : State) : State :=
    s.modElem e (fun x => { x with active := { x.active with sreg := setAt x.active.sreg i t.payload } })
  let scaled := hasE8M0 fmt || hasF16Scale fmt
  if isHeader fmt r t then
    if t.frame = 1 then consumeCopy (put { header := if hasE8M0 fmt then 2 else 1 } (latch sreg s)) t.tid
    else consumeCopy (put { header := 2 } (latch (sreg + 1) s)) t.tid
  else
    let restart := !r.isOpen || t.frame == 0 || (t.frame == 1 && !scaled)
    let before := if r.isOpen && restart then closeRun r else []
    let r := if restart then { isOpen := true, last := t } else r
    let ends := t.frame == 0 || t.frame == 3
    if r.skip then
      consumeCopy (put (if ends then {} else r) s) t.tid
    else
      let r := { r with held := r.held + t.payload.toNat * 2 ^ r.bitsHeld, bitsHeld := r.bitsHeld + 64, last := t }
      let (r, out, f) := decodeBits x.active fmt sreg t 32 r [] 0
      let tooLong := r.skip
      let out := out ++ (if ends && !tooLong then closeRun r else [])
      let s := put (if ends then {} else r) s
      let s := s.modElem e (fun x => { x with sticky := setAt x.sticky (chanFstr w) ((x.sticky[chanFstr w]?.getD 0) ||| f) })
      let s := appendDecoded (appendClosed s e ch before) e ch t.tid out
      if tooLong then raiseRouter s e 0x146 else s

/-- A token arrives at an inbound channel: none when it must wait for room (R58, R65, R66, R133). The model's own choices (assumption 30): the causes 0x141 and 0x146 of an arrival are the router's that delivers it; a wave marker emits a pending element whatever room there is; an absent token is no part of a run, so that one with FRAME tail or single is queued and leaves an open run open. A marker that ends no run leaves a header as it is. -/
def arrive (s : State) (e ch : Nat) (t : Token) : Option State :=
  let w := (s.elem e).active.chanWord ch
  if t.mark = 7 then some (raiseRouter (consumeCopy s t.tid) e 0x141)
  else if discards s e ch then
    if t.isWave then some (s.modElem e (fun x => { x with markSeen := x.markSeen ||| ((1 : BitVec 32) <<< ch) }))
    else some (consumeCopy (endExit s e ch t) t.tid)
  else if decodes w && t.isData && t.pres then
    if isHeader (chanFmt w) (mget {} (s.elem e).decode ch) t || inboundRoom s e ch (decodeRoom (chanFmt w)) then some (decodeData s e ch t) else none
  else
    let r := mget {} (s.elem e).decode ch
    let tail := if decodes w && !t.isData then closeRun r else []
    let merges := match ((s.elem e).active.fifo ch).getLast? with
      | some u => t.isEnd && u.isEnd && decide (u.mark.toNat < t.mark.toNat) && u.gen == t.gen && tail.isEmpty
      | none => false
    if t.isWave || merges || inboundRoom s e ch (tail.length + 1) then
      let s := if decodes w && !t.isData && r.isOpen then s.modElem e (fun x => { x with decode := merase x.decode ch }) else s
      some (appendToken (appendClosed s e ch tail) e ch t)
    else none

/-- Tokens a router input holds: 2 inside a grove, 8 at a grove border, 32 at a die border (R23, R65, R92). -/
def hopCapacity (e n : Nat) : Nat := if dieOf e ≠ dieOf n then 32 else if groveOf e ≠ groveOf n then 8 else 2

/-- Moves a token over the link from an element to its neighbour, when the next queue has room (R60, R62, R65). The model's own choices (assumption 30): the link's grove is that of the router that receives; at the edge of the module's array, where a side of FAN has no neighbour, the copy is discarded and 0x142 raised at the router. -/
def crossLink (s : State) (e : Nat) (side : Side) (vc : Nat) (t : Token) (parityBad : Bool) : Option State :=
  match neighbour e side with
  | none => some (raiseRouter (consumeCopy s t.tid) e 0x142)
  | some n =>
    let key := queueKey n (.inq (opposite side) (BitVec.ofNat 5 vc))
    if hopCapacity e n ≤ (s.tokens key).length then none
    else some (if parityBad then machineCheck (consumeCopy s t.tid) (groveOf n) 0x1C5 0 else s.setTokens key (s.tokens key ++ [t]))

/-- Puts a copy in a branch buffer; one that becomes full is watched from then (R63). -/
def pushBranch (s : State) (k : Nat) (t : Token) : State :=
  let q := s.tokens k ++ [t]
  let s := s.setTokens k q
  if q.length = 16 then { s with branchSince := mset s.branchSince k s.tb.toNat } else s

/-- Takes the head of a router queue; a branch buffer that moves a token is watched afresh (R63). -/
def popQueue (s : State) (k : Nat) (q : HopQ) (rest : List Token) : State :=
  let s := s.setTokens k rest
  match q with
  | .branch _ _ => { s with branchSince := merase s.branchSince k }
  | _ => s

/-- Places a copy in every branch buffer of a fork, when all have room (R63). -/
def forkToken (s : State) (e : Nat) (bs : List (Option Side)) (t : Token) : Option State :=
  if bs.all (fun b => decide ((s.tokens (queueKey e (.branch t.cls b))).length < 16)) then
    some (bs.foldl (fun s b => pushBranch s (queueKey e (.branch t.cls b)) t) (splitCopy s t.tid bs.length))
  else none

/-- Is a router stopped on a cause or at its grove's floor, or a fork that would move or take the token (R307, R400)? -/
def routerHeld (s : State) (e : Nat) (q : HopQ) : Bool :=
  let x := s.elem e
  x.routerStopped || atFloor s (groveOf e) || (match q with
    | .branch c _ => x.forkStops.contains c.toNat
    | _ => match s.tokens (queueKey e q) with
      | t :: _ => x.forkStops.contains t.cls.toNat
      | [] => false)

/-- One hop of a queue's head (M2); the state is left as it is when the head cannot move. -/
def hop (s : State) (e : Nat) (q : HopQ) (parityBad : Bool) : State :=
  let key := queueKey e q
  match s.tokens key with
  | [] => s
  | t :: rest =>
    let entry := (s.elem e).active.routeWord t.cls.toNat
    let popped := popQueue s key q rest
    let moved : Option State := if routerHeld s e q then none else match q with
      | .branch _ none => none
      | .branch _ (some side) => crossLink popped e side (routeDch entry) t parityBad
      | _ =>
        if !routeValid entry || (routeBranches entry).isEmpty then some (raiseRouter (consumeCopy popped t.tid) e 0x142)
        else match routeBranches entry with
          | [none] => none
          | [some side] => crossLink popped e side (routeDch entry) t parityBad
          | bs => forkToken popped e bs t
    moved.getD s

/-- Delivery of a queue's head into its inbound channel (M3); unchanged when it is not at its local port or finds no room. -/
def deliver (s : State) (e : Nat) (q : HopQ) : State :=
  let key := queueKey e q
  match s.tokens key with
  | [] => s
  | t :: rest =>
    let entry := (s.elem e).active.routeWord t.cls.toNat
    let atLocal := match q with
      | .branch _ d => d == none
      | _ => routeValid entry && routeBranches entry == [none]
    if atLocal && !routerHeld s e q then ((arrive (popQueue s key q rest) e (routeDch entry) t).map (fun u => u.noteArrival e)).getD s else s

/-- Surcharges of the border links of a class's fan-out tree, from a worklist of routers (R121, R183). The model's own choice (assumption 30): where branches meet again at a router, the links beyond it are charged for each copy that crosses them. -/
def treeCost (s : State) (c : Nat) : Nat → List Nat → Nat → Nat
  | 0, _, acc => acc
  | _, [], acc => acc
  | fuel + 1, e :: es, acc =>
    let entry := (s.elem e).active.routeWord c
    let steps := if routeValid entry then (routeSides entry).filterMap (fun d => neighbour e d) else []
    let cost := steps.foldl (fun a n => a + (if groveOf e ≠ groveOf n then 4 else 0) + (if dieOf e ≠ dieOf n then 32 else 0)) 0
    treeCost s c fuel (steps ++ es) (acc + cost)

/-- Surcharge of an enqueue on an outbound channel. -/
def pathCost (s : State) (e ch : Nat) : Nat :=
  treeCost s (chanClass ((s.elem e).active.chanWord ch)) moduleElems [e] 0

end Sys2Proof.Machine
end

