-- ==== Sys2Proof/Machine/Ports.lean ====
section
/-! DEFINITION. Memory requests (R161, R162): addresses and their classes (R73), ports (R92), sending, wave holds (R97 to R99), and what serving a request does at a bank word (R78 to R82, R165 to R176) and at a sector (R83, R84). -/

namespace Sys2Proof.Machine

/-- What a generic address names (R73). -/
inductive AddrClass where
  | bank (e off : Nat)
  | global (va : Nat)
  deriving DecidableEq, Repr

/-- Region groves of the task a unit issues for. -/
def unitRegion (s : State) (u : UnitId) : List Nat :=
  match s.taskOfGrove (groveOfUnit u) with
  | some t => (s.task t).groves
  | none => []

/-- Resolves a generic address for a unit; none is the aperture cause (R73). -/
def resolveAddr (s : State) (u : UnitId) (a : Nat) : Option AddrClass :=
  let hi := a / 2 ^ 52
  let v := a % 2 ^ 52
  if hi = 0 then some (.global a)
  else if hi = 0xFF0 then
    match u with
    | .elem e => if v < elemBytes then some (.bank e v) else none
    | _ => none
  else if hi = 0xFF1 then
    if v < 128 * elemBytes then some (.bank (mElem (groveOfUnit u) (v / elemBytes)) (v % elemBytes)) else none
  else if hi = 0xFF2 then
    match (unitRegion s u)[v / (256 * elemBytes)]? with
    | some g => some (.bank (elemAt g (v / elemBytes % 256)) (v % elemBytes))
    | none => none
  else none

/-- Key of the port that serves a target (R92, R98). -/
def portOf : Target → Nat
  | .bank e off => e * 6 + off / 0x10000
  | .hbm pa => 2 ^ 23 + bits pa 12 9
  | .host _ _ => 2 ^ 24
  | .module m _ => 2 ^ 25 + m

/-- Distance between two numbers. -/
def dist (a b : Nat) : Nat := (a - b) + (b - a)

/-- Border surcharge between two groves (R161). -/
def borderCost (g h : Nat) : Nat :=
  4 * (dist (g / 56) (h / 56) + dist (g % 56) (h % 56)) +
  32 * (dist (g / 56 / 16) (h / 56 / 16) + dist (g % 56 / 14) (h % 56 / 14))

/-- Context of a unit's accesses: that of its grove's task. -/
def unitCtx (s : State) (u : UnitId) : Nat :=
  match s.taskOfGrove (groveOfUnit u) with
  | some t => (s.task t).ctx
  | none => (s.grove (groveOfUnit u)).ctxno.toNat

/-- Partition of a unit's context. -/
def unitPart (s : State) (u : UnitId) : Nat := (s.ctx (unitCtx s u)).part

/-- Leaf that a grove would translate an address by: its TLB's, or a walk's. -/
def leafOf (s : State) (u : UnitId) (va : Nat) : Except Nat (Word × Nat) :=
  match tlbFind s (groveOfUnit u) (unitCtx s u) va with
  | some t => .ok (t.leaf, t.size)
  | none => walk s (unitCtx s u) va

/-- Berovo hops of an access by its leaf (R161, R392). -/
def leafHops (s : State) (u : UnitId) (va : Nat) : Nat :=
  match leafOf s u va with
  | .ok (leaf, _) => if leafHost leaf || leafMod leaf == s.moduleNo then 0 else mget 0 s.hops (leafMod leaf)
  | .error _ => 0

/-- Cost of a memory instruction by the class of its target (R161); none is no target, charged at the lowest row the unit can pay. -/
def accessCost (s : State) (u : UnitId) (atomic : Bool) (c : Option AddrClass) : Nat :=
  let low := match u with
    | .elem _ => if atomic then 4 else 2
    | _ => if atomic then 4 else 3
  match c with
  | none => low
  | some (.global va) => if atomic then 4 else 320 + 256 * leafHops s u va
  | some (.bank e _) =>
    match u with
    | .elem x => if x = e then (if atomic then 4 else 2) else (if atomic then 4 else 3) + borderCost (groveOf x) (groveOf e)
    | _ => (if atomic then 4 else 3) + borderCost (groveOfUnit u) (groveOf e)

/-- Fence scope of an access to a bank from a unit: 0 its own element, 1 its grove, 2 its region (R100). -/
def bankScope (u : UnitId) (e : Nat) : BitVec 3 :=
  match u with
  | .elem x => if x = e then 0 else if groveOf x = groveOf e then 1 else 2
  | _ => if groveOfUnit u = groveOf e then 1 else 2

/-- Fence scope of a translated target (R100). -/
def targetScope (u : UnitId) : Target → BitVec 3
  | .bank e _ => bankScope u e
  | .hbm _ => 3
  | _ => 4

/-- Has a request been performed (R94)? Unlisted requests have. One that met a cause at its target has been served there; one that has a translation cause reached no target. -/
def performed (s : State) (r : Nat) : Bool :=
  match s.req? r with
  | none => true
  | some q => match q.stage with
    | .done _ _ => true
    | .failed k => k / 64 != 3
    | _ => false

/-- The chain of a request: its unit, strand and generation (R97). -/
def sameChain (a b : Req) : Bool := a.src == b.src && a.strand == b.strand && a.gen == b.gen && b.wave.isSome

/-- Kept chain records of a unit (R98). -/
def chainsOf (s : State) : UnitId → List ChainRec
  | .elem e => (s.elem e).chains
  | .seq g => (s.grove g).chains
  | .ag _ _ => []
  | .remote _ _ _ => []

/-- The destination of a request, once it is known: a GLOBAL access has none before its translation. -/
def Req.destination (q : Req) : Option Target := if decide (3 ≤ q.scope.toNat) && q.pageSize == 0 then none else some q.target

/-- The request of a chain that PRED names, if the unit keeps it: an outstanding one, or the chain's most recently fired one (R98). -/
def findPred (s : State) (q : Req) (r : Nat) (p : BitVec 8) : Option PredRef :=
  let live := (s.reqs.filter (fun x => x.1 != r && sameChain q x.2 && (match x.2.wave with
    | some w => w.seq == p
    | none => false))).getLast?
  match live with
  | some x => some ⟨x.1, x.2.destination⟩
  | none => ((chainsOf s q.src).find? (fun c => c.strand == q.strand && c.gen == q.gen && c.seq == p)).map (fun c => ⟨c.req, c.target⟩)

/-- A translated request is sent, or held for its chain (R98): while no request has fired that PRED names it waits for that; one whose PRED request has another destination unit waits until that is performed, and goes with PRED 0xFF. -/
def chainStage (s : State) (q : Req) : Req :=
  match q.wave with
  | none => { q with stage := .sent }
  | some w =>
    if w.pred = 0xFF then { q with stage := .sent }
    else match q.pred with
      | none => { q with stage := .held }
      | some p =>
        if p.target.map portOf = some (portOf q.target) then { q with stage := .sent }
        else if performed s p.req then { q with stage := .sent, wave := some { w with pred := 0xFF } }
        else { q with stage := .after p.req }

/-- Sends a request whose destination is known, or holds it for its chain (R98). -/
def sendReq (s : State) (r : Nat) : State :=
  match s.req? r with
  | none => s
  | some q => s.setReq r (chainStage s q)

/-- Looks again at a request held for its chain (R98). An absent request whose destination was to be that of a PRED request that has ended without one has none. -/
def resendReq (s : State) (r : Nat) : State :=
  match s.req? r with
  | none => s
  | some q => match q.stage with
    | .held => sendReq s r
    | .after p =>
      if q.destination.isSome then sendReq s r
      else if performed s p then s.setReq r { q with stage := .done 0 0 }
      else s
    | _ => s

/-- Is a request a write, for its leaf check (R342)? -/
def isWrite : ReqKind → Bool
  | .load _ => false
  | .wait _ => false
  | .absent => false
  | _ => true

/-- Is a request an absent one whose destination is to be that of one of a list of requests (R164)? -/
def goesWith (known : List Nat) (q : Req) : Bool :=
  q.kind == .absent && q.destination.isNone && (match q.pred with
    | some p => known.contains p.req
    | none => false)

/-- The requests that take a destination which some of them have just got: those and, each after the one it follows, the absent ones that go with them (R98, R164). -/
def learners : List (Nat × Req) → List Nat → List Nat
  | [], known => known
  | x :: xs, known => learners xs (if goesWith known x.2 then known ++ [x.1] else known)

/-- A request that follows one of a list in its chain learns its destination; an absent request without one of its own goes there (R98, R164). -/
def learnPred (known : List Nat) (t : Target) (page size : Nat) (q : Req) : Req :=
  match q.pred with
  | some p =>
    if !known.contains p.req then q
    else if goesWith known q then { q with pred := some ⟨p.req, some t⟩, target := t, page := page, pageSize := size }
    else { q with pred := some ⟨p.req, some t⟩ }
  | none => q

/-- Records a request's target where its chain keeps it (R98). -/
def retarget (s : State) (u : UnitId) (r : Nat) (t : Target) (page size : Nat) : State :=
  let known := learners s.reqs [r]
  let fix (l : List ChainRec) : List ChainRec := l.map (fun c => if known.contains c.req then { c with target := some t } else c)
  let s := { s with reqs := s.reqs.map (fun x => (x.1, learnPred known t page size x.2)) }
  match u with
  | .elem e => s.modElem e (fun x => { x with chains := fix x.chains })
  | .seq g => s.modGrove g (fun x => { x with chains := fix x.chains })
  | _ => s

/-- The parts of a range of virtual addresses that lie in one 64 KiB page each, as (address, length). -/
def pageParts (va len : Nat) : List (Nat × Nat) :=
  (List.range ((va % 2 ^ 16 + len + 2 ^ 16 - 1) / 2 ^ 16)).map (fun i =>
    let lo := max va ((va / 2 ^ 16 + i) * 2 ^ 16)
    (lo, min (va + len) ((va / 2 ^ 16 + i + 1) * 2 ^ 16) - lo))

/-- The ranges of HBM that are the cellar of a task, with their lengths (R260). -/
def cellarParts (s : State) (x : Task) : List (Nat × Nat) :=
  if x.cellarn = 0 then []
  else (pageParts x.cellar.toNat (x.cellarn.toNat * (256 * (x.rows * x.cols)) * 0x1000)).filterMap (fun p => match walk s x.ctx p.1 with
    | .error _ => none
    | .ok (leaf, size) => match leafTarget s (s.ctx x.ctx).part leaf size p.1 with
      | .hbm pa => some (pa, p.2)
      | _ => none)

/-- Does a range of a target meet the cellar of a live task, by whatever addresses it is reached (R260)? -/
def inCellar (s : State) (t : Target) (len : Nat) : Bool :=
  match t with
  | .hbm pa => s.tasks.any (fun x => isLive s x.1 && (cellarParts s x.2).any (fun p => decide (p.1 < pa + len) && decide (pa < p.1 + p.2)))
  | _ => false

/-- The denial of a task's access that meets a cellar, as where the page gave no permission (R260; assumption 23). -/
def cellarDenies (s : State) (t : Target) (len : Nat) (write outside : Bool) : Option Nat :=
  if !outside && inCellar s t len then some (if write then 0x0C1 else 0x0C2) else none

/-- The denial of a void at a part of its range by its leaf: one that touches a PL page is denied at any level (R84, R342). -/
def voidDenies (s : State) (q : Req) (t : Target) (len : Nat) (leaf : Word) : Option Nat :=
  if leafPL leaf then some 0x0C1 else (leafDenies leaf true q.supervisor).or (cellarDenies s t len true q.supervisor)

/-- Translates the parts of a void's range through the TLB (R341, R349): the memory that they reach with their lengths, or the first cause met. -/
def voidWalk (q : Req) : State → List (Nat × Nat) → State × Except Nat (List (Target × Nat))
  | s, [] => (s, .ok [])
  | s, x :: xs => match translate s (groveOfUnit q.src) (unitCtx s q.src) x.1 with
    | (s, .error k) => (s, .error k)
    | (s, .ok (leaf, size)) =>
      let t := leafTarget s (unitPart s q.src) leaf size x.1
      match voidDenies s q t x.2 leaf with
      | some k => (s, .error k)
      | none => match voidWalk q s xs with
        | (s, .ok ts) => (s, .ok ((t, x.2) :: ts))
        | r => r

/-- The parts of the memory that a void reaches, with their lengths, under the translation it carries (R349); one from another module names its range itself. -/
def voidParts (q : Req) (len : Nat) : List (Target × Nat) :=
  match q.src with
  | .remote _ _ _ => [(q.target, len)]
  | _ => q.parts

/-- What a request's translation comes to beyond the leaf of its address: the memory that a void reaches, or the cause that a leaf gives (R83, R84, R342); an absent request has none (R164). -/
def requestParts (s : State) (q : Req) (leaf : Word) (size : Nat) : State × Except Nat (List (Target × Nat)) :=
  match q.kind with
  | .absent => (s, .ok [])
  | .void len => voidWalk q s (pageParts q.addr len)
  | _ => match (leafDenies leaf (isWrite q.kind) q.supervisor).or (cellarDenies s (leafTarget s (unitPart s q.src) leaf size q.addr) q.size (isWrite q.kind) q.supervisor) with
    | some k => (s, .error k)
    | none => (s, .ok [])

/-- Gives a request its translation: its target and send, or its cause (R171, R342). The model's own choice (assumption 30): a void over pages of several destinations has the fence scope of the leaf of its first address (R100). -/
def translated (s : State) (r : Nat) (leaf : Word) (size : Nat) : State :=
  match s.req? r with
  | none => s
  | some q => match requestParts s q leaf size with
    | (s, .error k) => s.setReq r { q with stage := .failed k }
    | (s, .ok parts) =>
      let t := leafTarget s (unitPart s q.src) leaf size q.addr
      let span := match q.kind with
        | .void _ => max size (2 ^ 22)
        | _ => size
      let page := q.addr / span * span
      sendReq (retarget (s.setReq r { q with target := t, scope := targetScope q.src t, pl := leafPL leaf, key := some (leafKey leaf), page := page, pageSize := span, parts := parts }) q.src r t page span) r

/-- A request that waits for one of its chain with a SEQ to fire takes the one that does as its PRED request (R98). -/
def takePred (r : Nat) (q : Req) (seq : BitVec 8) (x : Nat × Req) : Nat × Req :=
  match x.2.wave with
  | some w => if x.1 ≠ r ∧ x.2.pred = none ∧ w.pred = seq ∧ seq ≠ 0xFF ∧ sameChain q x.2 then (x.1, { x.2 with pred := some ⟨r, q.destination⟩ }) else x
  | none => x

/-- Records the chain's most recently fired request (R98). -/
def noteChain (s : State) (r : Nat) (q : Req) : State :=
  match q.wave with
  | none => s
  | some w =>
    let s := { s with reqs := s.reqs.map (takePred r q w.seq) }
    let c : ChainRec := { strand := q.strand, gen := q.gen, seq := w.seq, target := q.destination, req := r }
    let keep (l : List ChainRec) : List ChainRec := l.filter (fun x => !(x.strand == q.strand && x.gen == q.gen)) ++ [c]
    match q.src with
    | .elem e => s.modElem e (fun x => { x with chains := keep x.chains })
    | .seq g => s.modGrove g (fun x => { x with chains := keep x.chains })
    | .ag _ _ => s
    | .remote _ _ _ => s

/-- Is an arrival of a strand at a bank word outstanding, its reply not delivered (R176)? -/
def arriving (s : State) (u : UnitId) (k : BitVec 2) (w : Nat) : Bool :=
  s.reqs.any (fun r => r.2.src == u && r.2.strand == k && (match r.2.kind, r.2.target with
    | .arrive _, .bank e off => bankWord e off == w
    | _, _ => false))

/-- Barrier record of a strand or sequencer level (R175). -/
def barRecord (s : State) (u : UnitId) (k : BitVec 2) : Option BarRec :=
  match u with
  | .elem e => (s.elem e).barrier[k.toNat]?.getD none
  | .seq g => if k = 0 then (s.grove g).taskBank.barrier else (s.grove g).superBank.barrier
  | _ => none

/-- P of R176: the joined phase when the record names the word, else 0. -/
def joinedPhase (s : State) (u : UnitId) (k : BitVec 2) (w : Nat) : BitVec 16 :=
  match barRecord s u k with
  | some r => if r.word = w then r.phase else 0
  | none => 0

/-- A bar.wait takes the phase it waits for to the bank, unless an arrival of its strand at the word is outstanding: it is then held at the element (R176). -/
def joinWait (s : State) (q : Req) : Req :=
  match q.target, q.kind with
  | .bank e off, .wait _ =>
    if arriving s q.src q.strand (bankWord e off) then { q with stage := .joining }
    else { q with kind := .wait (joinedPhase s q.src q.strand (bankWord e off)), stage := .sent }
  | _, _ => q

/-- Looks again at the waits of a strand that an arrival's end may let go (R176). -/
def releaseJoins (s : State) (u : UnitId) (k : BitVec 2) : State :=
  { s with reqs := s.reqs.map (fun r => (r.1, if r.2.src = u ∧ r.2.strand = k ∧ r.2.stage = .joining then joinWait s r.2 else r.2)) }

/-- Adds a request whose address class is known: a bank request is sent, a global one is translated by a TLB hit or waits for a walk. -/
def addReq (s : State) (q : Req) (c : AddrClass) : State :=
  let r := s.nextReq
  let s := { s with nextReq := r + 1 }
  let q := match q.wave with
    | some w => { q with pred := findPred s q r w.pred }
    | none => q
  match c with
  | .bank e off =>
    let q := { q with target := .bank e off, scope := bankScope q.src e, since := s.tb.toNat }
    match q.kind with
    | .wait _ => s.setReq r (joinWait s q)
    | _ => noteChain (sendReq (s.setReq r q) r) r q
  | .global va =>
    let q := { q with addr := va, scope := 3, since := s.tb.toNat, stage := .xlate }
    let s := s.setReq r q
    match tlbFind s (groveOfUnit q.src) (unitCtx s q.src) va with
    | some t =>
      let s := translated s r t.leaf t.size
      noteChain s r ((s.req? r).getD q)
    | none => noteChain s r q

/-- Is a request one that no strand waits for: a sector of a background preload (R264), or an access of the placer (R297)? -/
def inBackground (q : Req) : Bool :=
  match q.dest with
  | .plane _ => true
  | .hist => true
  | _ => false

/-- Is a request an arrival that has been performed? Its reply is no part of it (R162). -/
def arrived (q : Req) : Bool :=
  match q.kind, q.stage with
  | .arrive _, .done _ _ => true
  | _, _ => false

/-- Requests a unit has outstanding (R162). -/
def outstandingReqs (s : State) (u : UnitId) : Nat := (s.reqs.filter (fun r => r.2.src == u && !inBackground r.2 && !arrived r.2)).length

/-- The buffer window of a plane that holds an offset (R76). -/
def windowOf (p : Plane) (off : Nat) : Option Desc :=
  (p.node.find? (fun d => wbits d.2.w0 28 4 == 6 && decide (wbits d.2.w1 0 19 ≤ off) && decide (off < wbits d.2.w1 0 19 + wbits d.2.w2 0 19))).map (fun d => d.2)

/-- Fields of a window descriptor (R76). -/
def winNo (d : Desc) : Nat := wbits d.w0 25 3
def winMode (d : Desc) : Nat := wbits d.w0 23 2
def winOrg (d : Desc) : Nat := wbits d.w0 20 3
def winBufs (d : Desc) : Nat := wbits d.w0 18 2 + 1
def winAcn (d : Desc) : Nat := wbits d.w0 12 6
def winBase (d : Desc) : Nat := wbits d.w1 0 19
def winLen (d : Desc) : Nat := wbits d.w2 0 19
def winLine (d : Desc) : Nat := wbits d.w3 0 16
/-- Bytes of one buffer of an operand-store window (R80). -/
def bufBytes (d : Desc) : Nat := winLen d / winBufs d
/-- Key of a window's run-time state. -/
def winKey (e : Nat) (d : Desc) : Nat := e * elemBytes + winBase d

/-- The window number an intake node of an element takes exclusively (R214), if any. -/
def intakeWindow (p : Plane) : Option Nat :=
  match p.findDesc 1 with
  | some (_, d) => if wbits d.w0 13 1 = 1 then some (wbits d.w1 29 3) else none
  | none => none

/-- Sets the presence of n words of a bank from an offset. -/
def setPresence (s : State) (e off : Nat) (full : Bool) : Nat → State
  | 0 => s
  | n + 1 => setPresence (s.setWordMeta (bankWord e off) { full := full, spent := 0 }) e (off + 8) full n

/-- Are n words of a bank from an offset all full? -/
def allFull (s : State) (e off : Nat) : Nat → Bool
  | 0 => true
  | n + 1 => (s.wordMeta (bankWord e off)).full && allFull s e (off + 8) n

/-- Notes that a bank's holder has changed something in it (R86). -/
def noteWritten (s : State) (e off : Nat) : State :=
  s.modBank (e * 6 + off / 0x10000) (fun b => { b with written := true })

/-- Tag bit of a buffer. -/
def tagBit (n : Nat) : BitVec 4 := (1 : BitVec 4) <<< n

/-- After a store: the buffer's tag becomes full when its last empty word is written (R80). -/
def fillTag (s : State) (e : Nat) (d : Desc) (off : Nat) : State :=
  let i := (off - winBase d) / bufBytes d
  if allFull s e (winBase d + i * bufBytes d) (bufBytes d / 8) then
    s.modWindow (winKey e d) (fun w => { w with tags := w.tags ||| tagBit i })
  else s

/-- Sets a buffer's tag and its words (R80, R166). -/
def setTag (s : State) (e : Nat) (d : Desc) (i : Nat) (full : Bool) : State :=
  let s := setPresence s e (winBase d + i * bufBytes d) full (bufBytes d / 8)
  s.modWindow (winKey e d) (fun w => { w with tags := if full then w.tags ||| tagBit i else w.tags &&& ~~~tagBit i })

/-- What serving a request comes to (R78, R83): it is answered, it joins the deferred list, at once or with what a void has still to reach, it waits at the head of the queue, or it fails with a cause. -/
inductive Served where
  | ok (s : State) (value : Word) (flags : Flags)
  | defer
  | part (s : State) (left : List Left)
  | wait
  | fail (cause : Nat)

/-- The bytes of a load from its word (R161, R163). -/
def loadValue (q : Req) (off : Nat) (w : Word) : Word :=
  let x := bits w.toNat (8 * (off % 8)) (8 * q.size)
  match q.kind with
  | .load true => BitVec.ofInt 64 (signedOf (8 * q.size) x)
  | _ => BitVec.ofNat 64 x

/-- New value and flags of an atomic (R168). -/
def atomicResult (op : AtomicOp) (old b c : Word) : Word × Flags :=
  match op with
  | .add => (old + b, 0)
  | .addf =>
    let lane (j : Nat) : Nat × Flags :=
      let x := fpRead .f32 false (bits old.toNat (32 * j) 32)
      let y := fpRead .f32 false (bits b.toNat (32 * j) 32)
      let (v, f) := fpSum 0 [x, y]
      let (e, g) := fpWrite .f32 { mode := 0 } v
      (e, f ||| g ||| x.inputFlag ||| y.inputFlag)
    (BitVec.ofNat 64 ((lane 0).1 + (lane 1).1 * 2 ^ 32), (lane 0).2 ||| (lane 1).2)
  | .min => (if old.slt b then old else b, 0)
  | .max => (if b.slt old then old else b, 0)
  | .minu => (if old.ult b then old else b, 0)
  | .maxu => (if b.ult old then old else b, 0)
  | .and => (old &&& b, 0)
  | .or => (old ||| b, 0)
  | .xchg => (b, 0)
  | .cas => (if old = c then b else old, 0)

/-- An arrival's effect on a barrier word (R175). -/
def barrierArrive (w : Word) (present : Bool) : Word :=
  let x := w.toNat
  let count := bits x 0 12 + 1
  let expect := bits x 12 12
  let presn := (bits x 24 12 + (if present then 1 else 0)) % 4096
  if count ≥ expect then
    BitVec.ofNat 64 ((bits x 48 16 + 1) % 65536 * 2 ^ 48 + presn * 2 ^ 36 + expect * 2 ^ 12)
  else BitVec.ofNat 64 (bits x 48 16 * 2 ^ 48 + bits x 36 12 * 2 ^ 36 + presn * 2 ^ 24 + expect * 2 ^ 12 + count)

/-- The word of a bank at an offset. -/
def bankValue (s : State) (e off : Nat) : Word := wordAt s.mem (bankAddr e (off / 8 * 8))

/-- Writes a bank word and its presence; its bank counts as written where that changes the word, its presence or its AC count (R86). -/
def putWord (s : State) (e off : Nat) (v : Word) (m : WordMeta) : State :=
  let t := { s with mem := setWord s.mem (bankAddr e (off / 8 * 8)) v }.setWordMeta (bankWord e off) m
  if bankValue s e off = v ∧ s.wordMeta (bankWord e off) = m then t else noteWritten t e off

/-- Voids n words of a bank (R165, R167). -/
def voidWords (s : State) (e off : Nat) : Nat → State
  | 0 => s
  | n + 1 => voidWords (putWord s e off 0 {}) e (off + 8) n

/-- Resets the FIFO and line-buffer windows that a void covers (R167). -/
def voidWindows (s : State) (e off len : Nat) : State :=
  (s.elem e).active.node.foldl (fun s d =>
    if wbits d.2.w0 28 4 = 6 ∧ winOrg d.2 ≥ 2 ∧ off ≤ winBase d.2 ∧ winBase d.2 + winLen d.2 ≤ off + len then
      let w := s.window (winKey e d.2)
      if w.head = 0 ∧ w.count = 0 ∧ w.appended = 0 then s
      else noteWritten (s.modWindow (winKey e d.2) (fun w => { w with head := 0, count := 0, appended := 0 })) e (winBase d.2)
    else s) s

/-- A request at a word of plain organisation, or an operand-store word (R78, R165, R168, R174 to R176). mode is 0 SA, 1 AC, 2 MU. -/
def servePlain (s : State) (q : Req) (e off mode acn : Nat) : Served :=
  let m := s.wordMeta (bankWord e off)
  let w := bankValue s e off
  match q.kind with
  | .load _ => if mode = 2 || m.full then .ok s (loadValue q off w) 0 else .defer
  | .store =>
    if q.size < 8 then
      if mode ≠ 2 then .fail 0x084
      else
        let t := { s with mem := writeBytes s.mem (bankAddr e off) (q.data.toNat % 2 ^ (8 * q.size)) q.size }
        .ok (putWord t e off (bankValue t e off) { full := true } |> fun u => if bankValue s e off = bankValue t e off then u else noteWritten u e off) 0 0
    else if mode = 1 then .fail 0x082
    else if mode = 0 && m.full then .fail 0x083
    else .ok (putWord s e off q.data { full := true }) 0 0
  | .atomic op =>
    if mode ≠ 2 || isC e then .fail 0x082
    else
      let (v, f) := atomicResult op w q.data q.cmp
      .ok (putWord s e off v { full := true }) w f
  | .contribute =>
    if mode ≠ 1 || isC e then .fail 0x082
    else if m.full then .fail 0x085
    else
      let spent := m.spent + 1
      .ok (putWord s e off (w + q.data) (if spent ≥ acn then { full := true, spent := 0 } else { full := false, spent := spent })) 0 0
  | .arrive present =>
    if mode ≠ 2 || isC e then .fail 0x082
    else if bits w.toNat 12 12 = 0 then .fail 0x089
    else .ok (putWord s e off (barrierArrive w present) { full := true }) (BitVec.ofNat 64 (bits w.toNat 48 16)) 0
  | .wait phase =>
    if mode ≠ 2 || isC e then .fail 0x082
    else if bits w.toNat 48 16 = phase.toNat then .defer else .ok s 0 0
  | .absent => .ok s 0 0
  | .void _ => .ok s 0 0
  | .tagFull => .fail 0x082
  | .tagEmpty => .fail 0x082

/-- A request at a FIFO window (R81). -/
def serveFifo (s : State) (q : Req) (e off : Nat) (d : Desc) : Served :=
  let k := winKey e d
  let w := s.window k
  let cap := winLen d / 8
  if off / 8 * 8 ≠ winBase d then .fail 0x087
  else match q.kind with
    | .load _ =>
      if q.size < 8 then .fail 0x084
      else if w.count = 0 then .defer
      else
        let o := winBase d + w.head * 8
        let v := bankValue s e o
        let s := putWord s e o 0 {}
        .ok (noteWritten (s.modWindow k (fun w => { w with head := (w.head + 1) % cap, count := w.count - 1 })) e off) v 0
    | .store =>
      if q.size < 8 then .fail 0x084
      else if w.count ≥ cap then .wait
      else
        let s := putWord s e (winBase d + (w.head + w.count) % cap * 8) q.data { full := true }
        .ok (noteWritten (s.modWindow k (fun w => { w with count := w.count + 1 })) e off) 0 0
    | .absent => .ok s 0 0
    | _ => .fail 0x082

/-- A request at a line-buffer window (R82). -/
def serveLine (s : State) (q : Req) (e off : Nat) (d : Desc) : Served :=
  let k := winKey e d
  let w := s.window k
  let line := winLine d
  let lines := winLen d / (8 * line)
  let idx := (off - winBase d) / 8
  let j := idx / line
  let x := idx % line
  match q.kind with
  | .load _ =>
    if j ≥ lines then .fail 0x087
    else
      let complete := w.appended / line
      let present := if w.appended % line = 0 then lines else lines - 1
      if j < complete ∧ j < present then
        .ok s (loadValue q off (bankValue s e (winBase d + ((complete - 1 - j) % lines * line + x) * 8))) 0
      else .defer
  | .store =>
    if q.size < 8 then (if j ≥ lines then .fail 0x087 else .fail 0x084)
    else
      let n := w.appended / line
      let o := winBase d + (n % lines * line + w.appended % line) * 8
      let s := if w.appended % line = 0 then setPresence s e (winBase d + n % lines * line * 8) false line else s
      .ok (noteWritten ((putWord s e o q.data { full := true }).modWindow k (fun w => { w with appended := w.appended + 1 })) e off) 0 0
  | .absent => .ok s 0 0
  | _ => if j ≥ lines then .fail 0x087 else .fail 0x082

/-- A request at an operand-store window (R80, R166); a barrier word is of plain organisation (R174). -/
def serveTiled (s : State) (q : Req) (e off : Nat) (d : Desc) : Served :=
  let i := (off - winBase d) / bufBytes d
  let full := (s.window (winKey e d)).tags.getLsbD i
  match q.kind with
  | .tagFull => .ok (if full then s else noteWritten (setTag s e d i true) e off) 0 0
  | .tagEmpty => .ok (if full then noteWritten (setTag s e d i false) e off else s) 0 0
  | .store =>
    if full then .wait
    else match servePlain s q e off (winMode d) (winAcn d) with
      | .ok s v f => .ok (fillTag s e d off) v f
      | r => r
  | .contribute =>
    match servePlain s q e off (winMode d) (winAcn d) with
    | .ok s v f => .ok (fillTag s e d off) v f
    | r => r
  | .atomic _ =>
    match servePlain s q e off (winMode d) (winAcn d) with
    | .ok s v f => .ok (fillTag s e d off) v f
    | r => r
  | .arrive _ => .fail 0x082
  | .wait _ => .fail 0x082
  | _ => servePlain s q e off (winMode d) (winAcn d)

/-- May a request use a bank (R85, R86)? A request from outside any task may use any bank that is not parked. -/
def ownsBank (s : State) (q : Req) (b : Nat) : Bool :=
  match (s.bank b).owner with
  | .held t => q.supervisor || t == q.tag
  | .free => q.supervisor
  | _ => false

/-- Banks of an element that a request touches: a void, those of its range (R167); another, that of its word. -/
def banksOf (q : Req) (off : Nat) : List Nat :=
  match q.kind with
  | .void len => (List.range 6).filter (fun b => decide (off / 0x10000 ≤ b) && decide (b * 0x10000 < off + len))
  | _ => [off / 0x10000]

/-- Does a void of a range touch the window that an intake node takes exclusively (R214)? -/
def voidsIntake (p : Plane) (off len : Nat) : Bool :=
  match intakeWindow p with
  | some n => p.node.any (fun d => wbits d.2.w0 28 4 == 6 && winNo d.2 == n && decide (winBase d.2 < off + len) && decide (off < winBase d.2 + winLen d.2))
  | none => false

/-- What serving a request comes to, a supervisor's being no write by the bank's holder (R86). -/
def Served.byHolder (s : State) (q : Req) : Served → Served
  | .ok t v f => .ok (if q.supervisor then { t with banks := s.banks } else t) v f
  | x => x

/-- Serves a request at an offset of an element (M5, R78 to R82). The model's own choice (assumption 30): a FIFO or line-buffer window that a memory-form plane image puts in a C element is served as in an M element (R20, R264). -/
def serveBank (s : State) (q : Req) (e off : Nat) : Served :=
  Served.byHolder s q <|
  if !(banksOf q off).all (fun b => ownsBank s q (e * 6 + b)) then (if q.kind = .absent then .ok s 0 0 else .fail 0x088)
  else match q.kind with
    | .void len =>
      if voidsIntake (s.elem e).active off len then .fail 0x082
      else .ok (voidWindows (voidWords s e off (len / 8)) e off len) 0 0
    | _ =>
      match windowOf (s.elem e).active off with
      | none => servePlain s q e off 2 0
      | some d =>
        if intakeWindow (s.elem e).active = some (winNo d) then (if q.kind = .absent then .ok s 0 0 else .fail 0x082)
        else match winOrg d with
          | 0 => servePlain s q e off (winMode d) (winAcn d)
          | 1 => serveTiled s q e off d
          | 2 => serveFifo s q e off d
          | _ => serveLine s q e off d

/-- Is the task a dependent of another (R85)? -/
def dependsOn (s : State) (t p : Nat) : Bool := (s.task t).producers.contains p

/-- Writes the words of a sector access that are to be written. -/
def putWords (m : Memory) (a : Nat) : List (Option Word) → Memory
  | [] => m
  | some w :: ws => putWords (setWord m a w) (a + 8) ws
  | none :: ws => putWords m (a + 8) ws

/-- The bytes of memory after a store: those of its size, or the words of a sector access. -/
def storedBytes (m : Memory) (a : Nat) (q : Req) : Memory :=
  if q.size = 64 then putWords m a q.sectorWords else writeBytes m a (q.data.toNat % 2 ^ (8 * q.size)) q.size

/-- Writes bytes of an HBM sector, which opens as zero when it was empty (R83). -/
def putSector (s : State) (pa : Nat) (q : Req) (m : SectorMeta) (empty : Bool) : State :=
  let s := if empty then { s with mem := clearBytes s.mem (pa / 64 * 64) 64 } else s
  { writtenUnder s (pa / 64) q.key with mem := storedBytes s.mem pa q }.setSector (pa / 64) m

/-- Numbers of the sectors of a range of HBM. -/
def sectorsOf (pa len : Nat) : List Nat := (List.range (len / 64)).map (fun i => pa / 64 + i)

/-- Is a request id in use for an access to another module, or one that timed out under a serial (R393, R395)? -/
def ridUsed (s : State) (serial i : Nat) : Bool :=
  s.reqs.any (fun r => r.2.rid == i || (r.2.left.getD []).contains (.remote i)) || s.staleRids.contains (serial, i)

/-- Free 14-bit request ids for a serial (R393). -/
def freeRids (s : State) (serial n : Nat) : List Nat := (((List.range 16384).drop 1).filter (fun i => !ridUsed s serial i)).take n

/-- Beats of a request to another module: header, tag, a beat of serial and id, and the words it carries (R390, R393; assumption 30). -/
def requestBeats : RemoteOp → Nat
  | .write ws => 3 + (ws.length + 1) / 2
  | _ => 3

/-- The chain of a request in a message to another module (R97, R99). -/
def remoteWave (q : Req) : Option RemoteWave := q.wave.map (fun w => { chain := chainUnit q.src * 64 + q.strand.toNat * 16 + q.gen.toNat, seq := w.seq, pred := w.pred, succ := w.succ })

/-- Sends a request to another module, under its task's serial and a request id (R393), with the key id of its leaf and what a copy carries of its sector (R387, R389). -/
def sendRequest (s : State) (q : Req) (m pa rid : Nat) (op : RemoteOp) : State :=
  sendLink s m 0 (requestBeats op) (.request pa (s.task q.tag).serial rid q.size op { pl := q.pl, outside := q.supervisor, wave := remoteWave q, key := q.key, carry := q.carry, sector := q.sectorMeta.map (fun x => (x.st, x.tag)) })

/-- A task has marked sectors of another module: its module resolves them there when the task ends (R394). -/
def addResolving (s : State) (q : Req) (m : Nat) : State :=
  if q.supervisor then s else s.modTask q.tag (fun x => { x with resolving := if x.resolving.contains m then x.resolving else x.resolving ++ [m] })

/-- Empties those of a list of sectors that are empty or full (R84). -/
def emptySectors (s : State) (ns : List Nat) : State := ns.foldl (fun s n => if (sectorView s n).isTentative then s else emptySector s n) s

/-- Serves a void of global memory (R84): in a task it is pending until the commit, at each module it reaches; outside a task it empties at once the sectors that are empty or full, and waits on those that are tentative. -/
def serveVoid (s : State) (q : Req) (len : Nat) : Served :=
  let finish (s : State) (left : List Left) : Served := if left.isEmpty then .ok s 0 0 else .part s left
  let waits (ns : List Nat) : List Left := (ns.filter (fun n => (sectorView s n).isTentative)).map Left.sector
  match q.left with
  | some left =>
    let ns := left.filterMap (fun l => match l with
      | .sector n => some n
      | .remote _ => none)
    finish (emptySectors s ns) (waits ns ++ left.filter (fun l => match l with
      | .remote _ => true
      | .sector _ => false))
  | none =>
    let parts := voidParts q len
    let here := parts.filterMap (fun p => match p.1 with
      | .hbm pa => some (pa, p.2)
      | _ => none)
    let away := parts.filterMap (fun p => match p.1 with
      | .module m pa => some (m, pa, p.2)
      | _ => none)
    if away.any (fun a => !routeUp s a.1) then .fail 0x0C5
    else if (freeRids s (s.task q.tag).serial away.length).length < away.length then .wait
    else
      let rids := freeRids s (s.task q.tag).serial away.length
      let s := (away.zip rids).foldl (fun s a => addResolving (sendRequest s q a.1.1 a.1.2.1 a.2 (.void a.1.2.2)) q a.1.1) s
      let ns := here.flatMap (fun p => sectorsOf p.1 p.2)
      if q.supervisor then finish (emptySectors s ns) (waits ns ++ rids.map Left.remote)
      else finish (here.foldl (fun s p => addVoid s q.tag p.1 p.2) s) (rids.map Left.remote)

/-- The denial of a request of another module's task that meets a cellar of this one (R260; assumption 23). -/
def remoteDenies (s : State) (q : Req) (pa : Nat) : Option Nat :=
  match q.src, q.kind with
  | .remote _ _ _, .absent => none
  | .remote _ _ _, .void len => cellarDenies s (.hbm pa) len true q.supervisor
  | .remote _ _ _, _ => cellarDenies s (.hbm pa) q.size (isWrite q.kind) q.supervisor
  | _, _ => none

/-- Serves a request at an HBM sector (M5, R83, R84). The model's own choice (assumption 30): a read of another module's task, which no message says is a dependent, defers on a sector that is tentative under the proxy tag of its producer (R85, R393). A word of a copy that carries its sector's metadata is written where the sector has taken that metadata already (R389). -/
def serveHbm (s : State) (q : Req) (pa : Nat) : Served :=
  let n := pa / 64
  let value : Word := loadValue q pa (wordAt s.mem (pa / 8 * 8))
  let tent : SectorMeta := { st := 2, tag := BitVec.ofNat 14 q.tag }
  let store (s : State) (m : SectorMeta) (empty : Bool) : Served :=
    let s := putSector s pa q m empty
    .ok (if m.st = 2 then s.modTask m.tag.toNat (fun x => { x with sectors := if x.sectors.contains n then x.sectors else x.sectors ++ [n] }) else s) 0 0
  match remoteDenies s q pa with
  | some k => .fail k
  | none => match q.kind with
  | .load _ =>
    if q.pl || q.carry then .ok s value 0
    else match sectorView s n with
      | .full => .ok s value 0
      | .empty => if q.supervisor then .ok s 0 0 else .defer
      | .tentative t => if !q.supervisor && (t == q.tag || dependsOn s q.tag t) then .ok s value 0 else .defer
  | .store =>
    if q.supervisor then
      match sectorView s n with
      | .tentative _ => if q.size < 64 && q.sectorMeta == some (s.sector n) then store s (s.sector n) false else .defer
      | .empty => store s (q.sectorMeta.getD { st := 1 }) true
      | .full => store s (q.sectorMeta.getD { st := 1 }) false
    else match sectorView s n with
      | .empty => store s tent true
      | .full => .fail 0x083
      | .tentative t => if t = q.tag then store s tent false else .defer
  | .void len => serveVoid s q len
  | .absent => .ok s 0 0
  | _ => .fail 0x082

/-- Serves a request at host memory, under the requester ID of a VF (R342, R379, R381). -/
def serveHost (s : State) (q : Req) (vf a : Nat) : Served :=
  if !dmaOpen s vf then .wait
  else match q.kind with
  | .load _ => .ok s (loadValue q a (wordAt s.mem (hostAddr vf (a / 8 * 8)))) 0
  | .store => .ok { s with mem := storedBytes s.mem (hostAddr vf a) q } 0 0
  | .absent => .ok s 0 0
  | _ => .fail 0x0C1

/-- Serves a request at its target; one to another module is answered by a remote reply (R393). -/
def serveAt (s : State) (q : Req) : Served :=
  match q.target with
  | .bank e off => serveBank s q e off
  | .hbm pa => serveHbm s q pa
  | .host vf a => serveHost s q vf a
  | .module _ _ => match q.kind with
    | .void len => serveVoid s q len
    | _ => .defer

/-- Key of a request's chain at its destination (R97, R99): by unit, strand and generation, and by serial where it comes from another module. -/
def chainKey (q : Req) : Nat :=
  match q.src with
  | .remote _ serial _ => serial * 2 ^ 40 + q.chain
  | u => chainUnit u * 64 + q.strand.toNat * 16 + q.gen.toNat

/-- Where a chain's last served SEQ is kept (R98, R99): at the port that serves it, and for the requests of another module at this module. -/
def chainPort (q : Req) : Nat :=
  match q.src with
  | .remote m _ _ => 2 ^ 26 + m
  | _ => portOf q.target

/-- Is a queued request eligible in its chain (R99)? One to another module is ordered there. -/
def waveEligible (s : State) (q : Req) : Bool :=
  match q.wave, q.target with
  | none, _ => true
  | _, .module _ _ => true
  | some w, _ => w.pred == 0xFF || mfind (s.port (chainPort q)).chains (chainKey q) == some w.pred

/-- Have a strand's accesses before an arrival, within its scope, been performed (R102, R175)? -/
def earlierDone (s : State) (q : Req) (r : Nat) : Bool :=
  match q.kind with
  | .arrive _ => s.reqs.all (fun x => !(x.2.src == q.src && x.2.strand == q.strand && decide (x.1 < r) &&
      decide (x.2.scope.toNat ≤ q.scope.toNat) && x.2.supervisor == q.supervisor) || performed s x.1)
  | _ => true

def eligible (s : State) (r : Nat) : Bool :=
  match s.req? r with
  | some q => waveEligible s q && earlierDone s q r
  | none => false

/-- Advances a chain at the port that served its request (R99). -/
def noteServed (s : State) (q : Req) : State :=
  match q.wave, q.target with
  | none, _ => s
  | _, .module _ _ => s
  | some w, _ => s.modPort (chainPort q) (fun p => { p with
      chains := if w.succ = 0xFF then merase p.chains (chainKey q) else mset p.chains (chainKey q) w.seq })

/-- Does a request end when it is performed, with no reply (R162)? -/
def noReply (q : Req) : Bool :=
  (match q.src with
    | .remote _ _ _ => false
    | _ => true) && match q.kind with
  | .load _ => false
  | .atomic _ => false
  | .arrive _ => false
  | .wait _ => false
  | .absent => q.dest == .none
  | _ => true

/-- The eight words that a sector read takes at its target (R225); zero where a read from outside any task meets an empty sector. -/
def sectorRead (s : State) (q : Req) : List (Option Word) :=
  (List.range 8).map (fun i => some (match q.target with
    | .hbm pa => if !q.pl && !q.carry && sectorView s (pa / 64) == .empty then 0 else wordAt s.mem (pa + 8 * i)
    | .host vf a => wordAt s.mem (hostAddr vf (a + 8 * i))
    | _ => 0))

/-- The metadata that a carrying read takes with its sector (R389). -/
def carriedMeta (s : State) (q : Req) : Option SectorMeta :=
  match q.carry, q.target with
  | true, .hbm pa => some (s.sector (pa / 64))
  | _, _ => none

/-- A reply arrives at the unit that made the request, for an element one more arrival (R402). -/
def replyArrives (s : State) (q : Req) : State :=
  match q.src with
  | .elem e => s.noteArrival e
  | _ => s

/-- A request has been performed with a value: it ends, or its reply is on its way. -/
def finishReq (s : State) (r : Nat) (q : Req) (v : Word) (f : Flags) : State :=
  let q := if q.size = 64 ∧ ¬noReply q ∧ q.sectorWords.isEmpty then { q with sectorWords := sectorRead s q } else q
  let q := if q.carry then { q with sectorMeta := carriedMeta s q } else q
  let s := noteServed s q
  if noReply q then s.dropReq r
  else replyArrives (s.setReq r { q with stage := .done v f }) q

/-- A request has met a cause where it was served, and its reply says so (R171). -/
def failReq (s : State) (r : Nat) (q : Req) (cause : Nat) : State :=
  replyArrives (s.setReq r { q with stage := .failed cause }) q

/-- Takes a request out of its port's queue and deferred list. -/
def leavePort (s : State) (r : Nat) (q : Req) : State :=
  s.modPort (portOf q.target) (fun p => { p with queue := p.queue.filter (· != r), deferred := p.deferred.filter (· != r) })

/-- Is a read from the deferred list of a port answerable now (R79)? Deferred stores are those that met a tentative sector (R83). -/
def wakeable (s : State) (r : Nat) : Bool :=
  match s.req? r with
  | none => false
  | some q => match q.target, serveAt s q with
    | .module _ _, .ok _ _ _ => q.left.isSome
    | .module _ _, .part _ l => q.left.isSome && some l != q.left
    | .module _ _, _ => false
    | _, .defer => false
    | _, .wait => false
    | _, .part _ l => some l != q.left
    | _, _ => true

/-- Has a port's deferred list room for a request (R79)? What another module answers waits in no list of this one. -/
def deferRoom (s : State) (q : Req) : Bool :=
  match q.target with
  | .module _ _ => true
  | _ => decide ((s.port (portOf q.target)).deferred.length < 64)

/-- A request joins its port's deferred list (R79); any kind of request that would take a 65th entry meets the overflow cause (assumption 30). -/
def deferReq (s : State) (r : Nat) (q : Req) : State :=
  if deferRoom s q then
    ((leavePort s r q).modPort (portOf q.target) (fun p => { p with deferred := p.deferred ++ [r] })).setReq r { q with stage := .deferred, since := s.tb.toNat }
  else failReq (leavePort s r q) r q 0x086

/-- Applies an outcome of serving to a request that leaves its port. A request that meets a cause counts as served in its chain, the overflow cause apart; a deferred one counts once it is answered (assumption 30). -/
def applyServed (s : State) (r : Nat) (q : Req) (o : Served) : State :=
  match o with
  | .ok s v f => finishReq (leavePort s r q) r q v f
  | .fail k => failReq (leavePort (noteServed s q) r q) r q k
  | .wait => s
  | .part s' l =>
    if q.left.isSome then s'.setReq r { q with left := some l } else if deferRoom s q then deferReq s' r { q with left := some l } else deferReq s r q
  | .defer => deferReq s r q

end Sys2Proof.Machine
end

