-- ==== Sys2Proof/Machine/Flags.lean ====
section
/-! DEFINITION. Arithmetic flags of the issuing unit (R54, R56, R124), and raising a cause at the word that is issuing (R307, R312). -/

namespace Sys2Proof.Machine

/-- The word at an address of a grove's instruction memory; unwritten words are zero (assumption 5). -/
def imemWord (s : State) (g a : Nat) : IWord := mget 0 (s.grove g).imem (a % 16384)

/-- Words from an address to the next word of the program (R108, R131). -/
def stride (s : State) (g a : Nat) : Nat :=
  if fld (imemWord s g a) 26 6 != 63 && isLongOp (fld (imemWord s g a) 20 6) && fld (imemWord s g (a + 1)) 26 6 == 63 then 2 else 1

/-- Moves a sequencer's PC past the word at an address (R131). -/
def pastWord (s : State) (g a : Nat) : State :=
  s.modGrove g (fun x => { x with pc := (a + stride s g a) % 16384 })

/-- Raises a cause of the issuing word, which has no effect: the unit stops at it (R307), or at supervisor level the monitor is told and the next word follows (R312). -/
def causeAt (s : State) (cause : Nat) (addr info : Word) : State :=
  match s.cur with
  | .slot e k n => raiseSlot s e k.toNat n cause addr info
  | .word g a =>
    if (s.grove g).level = 0 then raiseSeq s g a cause addr info (imemWord s g a)
    else supervisorCause (pastWord s g a) g cause

/-- Number of the lowest flag set (R56). -/
def lowestFlag (f : Flags) : Nat :=
  if f.getLsbD 0 then 0 else if f.getLsbD 1 then 1 else if f.getLsbD 2 then 2
  else if f.getLsbD 3 then 3 else if f.getLsbD 4 then 4 else 5

/-- The trap enables of the issuing strand or sequencer (R56, R124). -/
def trapEnables (s : State) : Flags :=
  match s.cur with
  | .slot e k _ => ((s.elem e).active.strand k.toNat).traps
  | .word g _ => (s.grove g).strapen

/-- ORs flags into the sticky register of the issuing strand or sequencer (R54, R124). -/
def orSticky (s : State) (f : Flags) : State :=
  match s.cur with
  | .slot e k _ => s.modElem e (fun x => { x with sticky := setAt x.sticky k.toNat ((x.sticky[k.toNat]?.getD 0) ||| f) })
  | .word g _ => s.modGrove g (fun x => { x with sticky := x.sticky ||| f })

/-- The class-1 cause of an enabled flag, raised after the instruction has completed (R56, R124). -/
def flagCause (s : State) (f : Flags) : State :=
  let c := 0x040 + lowestFlag (f &&& trapEnables s)
  match s.cur with
  | .slot e k n => raiseSlot s e k.toNat n c 0 (f.setWidth 64)
  | .word g a => raiseSeq s g a c 0 (f.setWidth 64) (imemWord s g a)

/-- Flags raised by an instruction that has completed (R54, R56). -/
def raiseFlags (s : State) (f : Flags) : State :=
  if f = 0 then s
  else if f &&& trapEnables s = 0 then orSticky s f
  else flagCause (orSticky s f) f

end Sys2Proof.Machine
end

