-- ==== Sys2Proof/Machine/Operands.lean ====
section
/-! DEFINITION. Operands of the issuing word (R107): which codes each instruction names and how, the class-0 details of R115, readiness (R29, R69, R92, R101, R162), costs (R161, R183), reading and writing operands (R59, R69, R121), and issue (R32, R115, R121). -/

namespace Sys2Proof.Machine

/-- Units of an instruction (R111). -/
inductive UnitReq where
  | any | elem | cElem | seq
  deriving DecidableEq, Repr

/-- Kind of the issuing unit. -/
inductive UnitKind where
  | cElem | mElem | seq
  deriving DecidableEq, Repr

/-- How a word uses a field that holds operand codes (R107, R112, R153): a source; an inbound channel consumed, read and left, or consumed later by the array; an outbound channel; the two outputs of steer and the two sources of select.mrg with their predicate; a destination; a register or 16; a register that can be read back, with scale registers or without. -/
inductive Opnd where
  | src (c : BitVec 6)
  | inb (c : BitVec 6)
  | peek (c : BitVec 6)
  | stream (c : BitVec 6)
  | out (c : BitVec 6)
  | steer (t f : BitVec 6) (k : Nat)
  | merge (a b : BitVec 6) (k : Nat)
  | dst (c : BitVec 6)
  | dstReg (c : BitVec 6)
  | rw (c : BitVec 6)
  | rws (c : BitVec 6)
  deriving DecidableEq, Repr

/-- What beside its operands an instruction waits for (R29, R101, R162, R175 to R178, R223, R246, R263, R289, R315, R375). -/
inductive Wait where
  | none
  | access
  | at
  | gnext
  | array
  | race
  | place
  | pload
  | call
  | link
  | stream
  | queue (ag : Nat)
  | pair (ag : Nat)
  | sbar
  | patch (a : BitVec 6)
  | evset
  | evwait (a : BitVec 6)
  | tlb (a : Option (BitVec 6))
  deriving DecidableEq, Repr

/-- The memory access an instruction makes: its address operand and offset, whether it pays the atomic column of R161 and the PRED of a wave-ordered access; its size, whether it is defined on banks only (R161, R166), whether it writes, the operand without which it sends nothing, and the operand that gives the length of a range. -/
structure Access where
  addr : BitVec 6
  off : Word
  atomic : Bool
  pred : Option (BitVec 8)
  size : Nat := 8
  bankOnly : Bool := false
  write : Bool := false
  data : Option (BitVec 6) := none
  len : Option (BitVec 6) := none
  deriving DecidableEq, Repr

/-- What the encoding chapter and an instruction's own rule fix about its issue. cost excludes an access and the surcharges of outbound destinations. -/
structure Sig where
  unit : UnitReq := .any
  opnds : List Opnd := []
  details : List Nat := []
  cost : Nat := 0
  mem : Option Access := none
  wait : Wait := .none
  privileged : Bool := false
  free : Bool := false
  deriving DecidableEq, Repr

/-- Lane width of an LT code (R109, R136). -/
def laneWidth (lt : Nat) : Nat :=
  match lt with
  | 0 => 8
  | 1 => 16
  | 2 => 32
  | 3 => 16
  | 4 => 16
  | 5 => 32
  | 6 => 64
  | _ => 8

/-- Is an LT code an integer type (R109)? -/
def laneIsInt (lt : Nat) : Bool := lt ≤ 2

/-- The destinations of a widening conversion by its source type (R149). -/
def cvtTargets (st : Nat) : List Nat :=
  match st with
  | 7 => [3, 4, 5]
  | 8 => [3, 4, 5]
  | 3 => [5, 6]
  | 4 => [5, 6]
  | 5 => [6]
  | 0 => [1, 2, 3, 4, 5]
  | 1 => [2, 5]
  | 2 => [6]
  | _ => []

/-- LT codes a VOP accepts (R139, R149). -/
def laneTypes (vop st : Nat) : List Nat :=
  match vop with
  | 3 => [3, 4, 5, 6]
  | 4 => [3, 4, 5, 6]
  | 10 => [0, 1, 2, 6]
  | 11 => [0, 3, 4, 7, 8]
  | 13 => [5, 6]
  | 14 => [5, 6]
  | 15 => [5]
  | 16 => [5]
  | 17 => [3, 4, 5, 6]
  | 18 => cvtTargets st
  | 19 => [0, 1, 2, 6]
  | 20 => [0, 1, 2]
  | 21 => [0, 1, 2]
  | 22 => [0, 1, 2, 6]
  | _ => [0, 1, 2, 3, 4, 5, 6]

/-- Detail 7 of a packed-lane word (R138). -/
def laneDetails (vop lt st cc rm : Nat) : List Nat :=
  if (laneTypes vop st).contains lt && decide (rm ≤ 4) && (decide (cc ≤ 5) || (cc == 6 && !laneIsInt lt)) then [] else [7]

/-- Details of vcmp: its d field holds a predicate (3), and its lanes end at p7 (8) (R138). -/
def vcmpDetails (d lt cc : Nat) : List Nat :=
  laneDetails 9 lt 0 cc 0 ++ (if d ≥ 8 then [3] else []) ++ (if d % 8 + 64 / laneWidth lt > 8 then [8] else [])

/-- Costs of the packed-lane instructions (R139). -/
def laneCost (vop lt st : Nat) : Nat :=
  let by3 (i f d : Nat) : Nat := if laneIsInt lt then i else if lt = 6 then d else f
  match vop with
  | 2 => by3 3 4 8
  | 3 => by3 0 5 10
  | 4 => by3 0 5 10
  | 10 => 2
  | 11 => by3 3 5 5
  | 12 => by3 3 3 6
  | 13 => by3 0 4 8
  | 14 => by3 0 4 8
  | 15 => 6
  | 16 => 12
  | 17 => by3 0 4 8
  | 18 => if laneIsInt lt && laneIsInt st then 2 else if lt = 6 then 6 else 3
  | 19 => 2
  | 20 => 2
  | 21 => 2
  | 22 => 2
  | _ => by3 2 3 6

/-- Detail 8 where a raw number is out of range (R115). -/
def rawDetail (inRange : Bool) : List Nat := if inRange then [] else [8]

/-- Detail 7 of a wave SEQ (R97). -/
def seqDetail (seq : Nat) : List Nat := if seq = 0xFF then [7] else []

/-- The issue rules of every instruction (R111 to R114, R121 to R179, R193, R224, R247, R263, R289, R297, R313 to R315, R348). Rows that are no words have none. -/
def wordSig : Instr → Sig
  | .add _ d a b => { opnds := [.dst d, .src a, .src b], cost := 1 }
  | .sub _ d a b => { opnds := [.dst d, .src a, .src b], cost := 1 }
  | .mul _ d a b => { opnds := [.dst d, .src a, .src b], cost := 2 }
  | .mulh _ d a b => { opnds := [.dst d, .src a, .src b], cost := 2 }
  | .mulhu _ d a b => { opnds := [.dst d, .src a, .src b], cost := 2 }
  | .div _ d a b => { unit := .seq, opnds := [.dst d, .src a, .src b], cost := 8 }
  | .rem _ d a b => { unit := .seq, opnds := [.dst d, .src a, .src b], cost := 8 }
  | .rotl _ d a b => { opnds := [.dst d, .src a, .src b], cost := 1 }
  | .and _ d a b => { opnds := [.dst d, .src a, .src b], cost := 1 }
  | .or _ d a b => { opnds := [.dst d, .src a, .src b], cost := 1 }
  | .xor _ d a b => { opnds := [.dst d, .src a, .src b], cost := 1 }
  | .andn _ d a b => { opnds := [.dst d, .src a, .src b], cost := 1 }
  | .orn _ d a b => { opnds := [.dst d, .src a, .src b], cost := 1 }
  | .shl _ d a b => { opnds := [.dst d, .src a, .src b], cost := 1 }
  | .shr _ d a b => { opnds := [.dst d, .src a, .src b], cost := 1 }
  | .sar _ d a b => { opnds := [.dst d, .src a, .src b], cost := 1 }
  | .min _ d a b => { opnds := [.dst d, .src a, .src b], cost := 1 }
  | .max _ d a b => { opnds := [.dst d, .src a, .src b], cost := 1 }
  | .minu _ d a b => { opnds := [.dst d, .src a, .src b], cost := 1 }
  | .maxu _ d a b => { opnds := [.dst d, .src a, .src b], cost := 1 }
  | .bfx _ d a b => { opnds := [.dst d, .src a, .src b], cost := 1 }
  | .bfi _ d a b => { opnds := [.rws d, .src a, .src b], cost := 1 }
  | .mov _ d a => { opnds := [.dst d, .src a], cost := 1 }
  | .abs _ d a => { opnds := [.dst d, .src a], cost := 1 }
  | .clz _ d a => { opnds := [.dst d, .src a], cost := 1 }
  | .ctz _ d a => { opnds := [.dst d, .src a], cost := 1 }
  | .popc _ d a => { opnds := [.dst d, .src a], cost := 1 }
  | .selP0P3 _ d a b _ => { opnds := [.dst d, .src a, .src b], cost := 1 }
  | .selP4P7 _ d a b _ => { opnds := [.dst d, .src a, .src b], cost := 1 }
  | .cmp _ _ _ a b => { opnds := [.src a, .src b], cost := 1 }
  | .pand _ _ _ _ => { cost := 1 }
  | .por _ _ _ _ => { cost := 1 }
  | .pxor _ _ _ _ => { cost := 1 }
  | .pnot _ _ _ => { cost := 1 }
  | .pset _ _ _ => { cost := 1 }
  | .pmov _ _ a => { opnds := [.src a], cost := 1 }
  | .cmpi _ _ _ a _ => { opnds := [.src a], cost := 1 }
  | .addi _ d a _ => { opnds := [.dst d, .src a], cost := 1 }
  | .shli _ d a _ => { opnds := [.dst d, .src a], cost := 1 }
  | .shri _ d a _ => { opnds := [.dst d, .src a], cost := 1 }
  | .sari _ d a _ => { opnds := [.dst d, .src a], cost := 1 }
  | .extend _ d a _ => { opnds := [.dst d, .src a], cost := 1 }
  | .movi _ d _ => { opnds := [.dst d], cost := 1 }
  | .movh _ d _ => { opnds := [.rw d], cost := 1 }
  | .vaddF32 _ d a b => { unit := .cElem, opnds := [.dst d, .src a, .src b], details := laneDetails 0 5 0 0 0, cost := laneCost 0 5 0 }
  | .vaddBf16 _ d a b => { unit := .cElem, opnds := [.dst d, .src a, .src b], details := laneDetails 0 4 0 0 0, cost := laneCost 0 4 0 }
  | .vaddF16 _ d a b => { unit := .cElem, opnds := [.dst d, .src a, .src b], details := laneDetails 0 3 0 0 0, cost := laneCost 0 3 0 }
  | .vaddI32 _ d a b => { unit := .cElem, opnds := [.dst d, .src a, .src b], details := laneDetails 0 2 0 0 0, cost := laneCost 0 2 0 }
  | .vsubF32 _ d a b => { unit := .cElem, opnds := [.dst d, .src a, .src b], details := laneDetails 1 5 0 0 0, cost := laneCost 1 5 0 }
  | .vsubBf16 _ d a b => { unit := .cElem, opnds := [.dst d, .src a, .src b], details := laneDetails 1 4 0 0 0, cost := laneCost 1 4 0 }
  | .vsubF16 _ d a b => { unit := .cElem, opnds := [.dst d, .src a, .src b], details := laneDetails 1 3 0 0 0, cost := laneCost 1 3 0 }
  | .vsubI32 _ d a b => { unit := .cElem, opnds := [.dst d, .src a, .src b], details := laneDetails 1 2 0 0 0, cost := laneCost 1 2 0 }
  | .vmulF32 _ d a b => { unit := .cElem, opnds := [.dst d, .src a, .src b], details := laneDetails 2 5 0 0 0, cost := laneCost 2 5 0 }
  | .vmulBf16 _ d a b => { unit := .cElem, opnds := [.dst d, .src a, .src b], details := laneDetails 2 4 0 0 0, cost := laneCost 2 4 0 }
  | .vmulF16 _ d a b => { unit := .cElem, opnds := [.dst d, .src a, .src b], details := laneDetails 2 3 0 0 0, cost := laneCost 2 3 0 }
  | .vmulI32 _ d a b => { unit := .cElem, opnds := [.dst d, .src a, .src b], details := laneDetails 2 2 0 0 0, cost := laneCost 2 2 0 }
  | .vminF32 _ d a b => { unit := .cElem, opnds := [.dst d, .src a, .src b], details := laneDetails 5 5 0 0 0, cost := laneCost 5 5 0 }
  | .vminBf16 _ d a b => { unit := .cElem, opnds := [.dst d, .src a, .src b], details := laneDetails 5 4 0 0 0, cost := laneCost 5 4 0 }
  | .vminF16 _ d a b => { unit := .cElem, opnds := [.dst d, .src a, .src b], details := laneDetails 5 3 0 0 0, cost := laneCost 5 3 0 }
  | .vminI32 _ d a b => { unit := .cElem, opnds := [.dst d, .src a, .src b], details := laneDetails 5 2 0 0 0, cost := laneCost 5 2 0 }
  | .vmaxF32 _ d a b => { unit := .cElem, opnds := [.dst d, .src a, .src b], details := laneDetails 6 5 0 0 0, cost := laneCost 6 5 0 }
  | .vmaxBf16 _ d a b => { unit := .cElem, opnds := [.dst d, .src a, .src b], details := laneDetails 6 4 0 0 0, cost := laneCost 6 4 0 }
  | .vmaxF16 _ d a b => { unit := .cElem, opnds := [.dst d, .src a, .src b], details := laneDetails 6 3 0 0 0, cost := laneCost 6 3 0 }
  | .vmaxI32 _ d a b => { unit := .cElem, opnds := [.dst d, .src a, .src b], details := laneDetails 6 2 0 0 0, cost := laneCost 6 2 0 }
  | .vdotBf16 _ d a b => { unit := .cElem, opnds := [.dst d, .src a, .src b], details := laneDetails 11 4 0 0 0, cost := laneCost 11 4 0 }
  | .vdotE4m3 _ d a b => { unit := .cElem, opnds := [.dst d, .src a, .src b], details := laneDetails 11 7 0 0 0, cost := laneCost 11 7 0 }
  | .vdotE5m2 _ d a b => { unit := .cElem, opnds := [.dst d, .src a, .src b], details := laneDetails 11 8 0 0 0, cost := laneCost 11 8 0 }
  | .vdotI8 _ d a b => { unit := .cElem, opnds := [.dst d, .src a, .src b], details := laneDetails 11 0 0 0 0, cost := laneCost 11 0 0 }
  | .vsumF32 _ d a => { unit := .cElem, opnds := [.dst d, .src a], details := laneDetails 12 5 0 0 0, cost := laneCost 12 5 0 }
  | .vsumBf16 _ d a => { unit := .cElem, opnds := [.dst d, .src a], details := laneDetails 12 4 0 0 0, cost := laneCost 12 4 0 }
  | .vsumF16 _ d a => { unit := .cElem, opnds := [.dst d, .src a], details := laneDetails 12 3 0 0 0, cost := laneCost 12 3 0 }
  | .vsumI32 _ d a => { unit := .cElem, opnds := [.dst d, .src a], details := laneDetails 12 2 0 0 0, cost := laneCost 12 2 0 }
  | .vabsF32 _ d a => { unit := .cElem, opnds := [.dst d, .src a], details := laneDetails 7 5 0 0 0, cost := laneCost 7 5 0 }
  | .vabsBf16 _ d a => { unit := .cElem, opnds := [.dst d, .src a], details := laneDetails 7 4 0 0 0, cost := laneCost 7 4 0 }
  | .vabsF16 _ d a => { unit := .cElem, opnds := [.dst d, .src a], details := laneDetails 7 3 0 0 0, cost := laneCost 7 3 0 }
  | .vabsI32 _ d a => { unit := .cElem, opnds := [.dst d, .src a], details := laneDetails 7 2 0 0 0, cost := laneCost 7 2 0 }
  | .vnegF32 _ d a => { unit := .cElem, opnds := [.dst d, .src a], details := laneDetails 8 5 0 0 0, cost := laneCost 8 5 0 }
  | .vnegBf16 _ d a => { unit := .cElem, opnds := [.dst d, .src a], details := laneDetails 8 4 0 0 0, cost := laneCost 8 4 0 }
  | .vnegF16 _ d a => { unit := .cElem, opnds := [.dst d, .src a], details := laneDetails 8 3 0 0 0, cost := laneCost 8 3 0 }
  | .vnegI32 _ d a => { unit := .cElem, opnds := [.dst d, .src a], details := laneDetails 8 2 0 0 0, cost := laneCost 8 2 0 }
  | .vsel8 _ d a b => { unit := .cElem, opnds := [.dst d, .src a, .src b], details := laneDetails 10 0 0 0 0, cost := laneCost 10 0 0 }
  | .vsel16 _ d a b => { unit := .cElem, opnds := [.dst d, .src a, .src b], details := laneDetails 10 1 0 0 0, cost := laneCost 10 1 0 }
  | .vsel32 _ d a b => { unit := .cElem, opnds := [.dst d, .src a, .src b], details := laneDetails 10 2 0 0 0, cost := laneCost 10 2 0 }
  | .vsel64 _ d a b => { unit := .cElem, opnds := [.dst d, .src a, .src b], details := laneDetails 10 6 0 0 0, cost := laneCost 10 6 0 }
  | .vsplat8 _ d a => { unit := .cElem, opnds := [.dst d, .src a], details := laneDetails 22 0 0 0 0, cost := laneCost 22 0 0 }
  | .vsplat16 _ d a => { unit := .cElem, opnds := [.dst d, .src a], details := laneDetails 22 1 0 0 0, cost := laneCost 22 1 0 }
  | .vsplat32 _ d a => { unit := .cElem, opnds := [.dst d, .src a], details := laneDetails 22 2 0 0 0, cost := laneCost 22 2 0 }
  | .vsplat64 _ d a => { unit := .cElem, opnds := [.dst d, .src a], details := laneDetails 22 6 0 0 0, cost := laneCost 22 6 0 }
  | .vrcpeF32 _ d a => { unit := .cElem, opnds := [.dst d, .src a], details := laneDetails 13 5 0 0 0, cost := laneCost 13 5 0 }
  | .vrcpeF64 _ d a => { unit := .cElem, opnds := [.dst d, .src a], details := laneDetails 13 6 0 0 0, cost := laneCost 13 6 0 }
  | .vrsqeF32 _ d a => { unit := .cElem, opnds := [.dst d, .src a], details := laneDetails 14 5 0 0 0, cost := laneCost 14 5 0 }
  | .vrsqeF64 _ d a => { unit := .cElem, opnds := [.dst d, .src a], details := laneDetails 14 6 0 0 0, cost := laneCost 14 6 0 }
  | .vexp2F32 _ d a => { unit := .cElem, opnds := [.dst d, .src a], details := laneDetails 15 5 0 0 0, cost := laneCost 15 5 0 }
  | .vdivF32 _ d a b => { unit := .cElem, opnds := [.dst d, .src a, .src b], details := laneDetails 16 5 0 0 0, cost := laneCost 16 5 0 }
  | .vscaleF32 _ d a b => { unit := .cElem, opnds := [.dst d, .src a, .src b], details := laneDetails 17 5 0 0 0, cost := laneCost 17 5 0 }
  | .vscaleBf16 _ d a b => { unit := .cElem, opnds := [.dst d, .src a, .src b], details := laneDetails 17 4 0 0 0, cost := laneCost 17 4 0 }
  | .vaddF64 _ d a b => { unit := .cElem, opnds := [.dst d, .src a, .src b], details := laneDetails 0 6 0 0 0, cost := laneCost 0 6 0 }
  | .vsubF64 _ d a b => { unit := .cElem, opnds := [.dst d, .src a, .src b], details := laneDetails 1 6 0 0 0, cost := laneCost 1 6 0 }
  | .vmulF64 _ d a b => { unit := .cElem, opnds := [.dst d, .src a, .src b], details := laneDetails 2 6 0 0 0, cost := laneCost 2 6 0 }
  | .vaddI16 _ d a b => { unit := .cElem, opnds := [.dst d, .src a, .src b], details := laneDetails 0 1 0 0 0, cost := laneCost 0 1 0 }
  | .vsubI16 _ d a b => { unit := .cElem, opnds := [.dst d, .src a, .src b], details := laneDetails 1 1 0 0 0, cost := laneCost 1 1 0 }
  | .vaddI8 _ d a b => { unit := .cElem, opnds := [.dst d, .src a, .src b], details := laneDetails 0 0 0 0 0, cost := laneCost 0 0 0 }
  | .vsubI8 _ d a b => { unit := .cElem, opnds := [.dst d, .src a, .src b], details := laneDetails 1 0 0 0 0, cost := laneCost 1 0 0 }
  | .vaddLong _ d a b lt rm => { unit := .cElem, opnds := [.dst d, .src a, .src b], details := laneDetails 0 lt.toNat 0 0 rm.toNat, cost := laneCost 0 lt.toNat 0 }
  | .vsubLong _ d a b lt rm => { unit := .cElem, opnds := [.dst d, .src a, .src b], details := laneDetails 1 lt.toNat 0 0 rm.toNat, cost := laneCost 1 lt.toNat 0 }
  | .vmulLong _ d a b lt rm => { unit := .cElem, opnds := [.dst d, .src a, .src b], details := laneDetails 2 lt.toNat 0 0 rm.toNat, cost := laneCost 2 lt.toNat 0 }
  | .vfma _ d a b c lt rm => { unit := .cElem, opnds := [.dst d, .src a, .src b, .src c], details := laneDetails 3 lt.toNat 0 0 rm.toNat, cost := laneCost 3 lt.toNat 0 }
  | .vfms _ d a b c lt rm => { unit := .cElem, opnds := [.dst d, .src a, .src b, .src c], details := laneDetails 4 lt.toNat 0 0 rm.toNat, cost := laneCost 4 lt.toNat 0 }
  | .vminLong _ d a b lt => { unit := .cElem, opnds := [.dst d, .src a, .src b], details := laneDetails 5 lt.toNat 0 0 0, cost := laneCost 5 lt.toNat 0 }
  | .vmaxLong _ d a b lt => { unit := .cElem, opnds := [.dst d, .src a, .src b], details := laneDetails 6 lt.toNat 0 0 0, cost := laneCost 6 lt.toNat 0 }
  | .vabsLong _ d a lt => { unit := .cElem, opnds := [.dst d, .src a], details := laneDetails 7 lt.toNat 0 0 0, cost := laneCost 7 lt.toNat 0 }
  | .vnegLong _ d a lt => { unit := .cElem, opnds := [.dst d, .src a], details := laneDetails 8 lt.toNat 0 0 0, cost := laneCost 8 lt.toNat 0 }
  | .vcmp _ d a b lt cc => { unit := .cElem, opnds := [.src a, .src b], details := vcmpDetails d.toNat lt.toNat cc.toNat, cost := laneCost 9 lt.toNat 0 }
  | .vselLong _ d a b lt => { unit := .cElem, opnds := [.dst d, .src a, .src b], details := laneDetails 10 lt.toNat 0 0 0, cost := laneCost 10 lt.toNat 0 }
  | .vdotLong _ d a b lt rm => { unit := .cElem, opnds := [.dst d, .src a, .src b], details := laneDetails 11 lt.toNat 0 0 rm.toNat, cost := laneCost 11 lt.toNat 0 }
  | .vsumLong _ d a lt rm => { unit := .cElem, opnds := [.dst d, .src a], details := laneDetails 12 lt.toNat 0 0 rm.toNat, cost := laneCost 12 lt.toNat 0 }
  | .vrcpeLong _ d a lt => { unit := .cElem, opnds := [.dst d, .src a], details := laneDetails 13 lt.toNat 0 0 0, cost := laneCost 13 lt.toNat 0 }
  | .vrsqeLong _ d a lt => { unit := .cElem, opnds := [.dst d, .src a], details := laneDetails 14 lt.toNat 0 0 0, cost := laneCost 14 lt.toNat 0 }
  | .vexp2Long _ d a lt rm => { unit := .cElem, opnds := [.dst d, .src a], details := laneDetails 15 lt.toNat 0 0 rm.toNat, cost := laneCost 15 lt.toNat 0 }
  | .vdivLong _ d a b lt rm => { unit := .cElem, opnds := [.dst d, .src a, .src b], details := laneDetails 16 lt.toNat 0 0 rm.toNat, cost := laneCost 16 lt.toNat 0 }
  | .vscaleLong _ d a b lt rm => { unit := .cElem, opnds := [.dst d, .src a, .src b], details := laneDetails 17 lt.toNat 0 0 rm.toNat, cost := laneCost 17 lt.toNat 0 }
  | .vcvt _ d a lt st => { unit := .cElem, opnds := [.dst d, .src a], details := laneDetails 18 lt.toNat st.toNat 0 0, cost := laneCost 18 lt.toNat st.toNat }
  | .vshuf _ d a b lt => { unit := .cElem, opnds := [.dst d, .src a, .src b], details := laneDetails 19 lt.toNat 0 0 0, cost := laneCost 19 lt.toNat 0 }
  | .vpack _ d a b lt => { unit := .cElem, opnds := [.dst d, .src a, .src b], details := laneDetails 20 lt.toNat 0 0 0, cost := laneCost 20 lt.toNat 0 }
  | .vunpk _ d a lt => { unit := .cElem, opnds := [.dst d, .src a], details := laneDetails 21 lt.toNat 0 0 0, cost := laneCost 21 lt.toNat 0 }
  | .vsplatLong _ d a lt => { unit := .cElem, opnds := [.dst d, .src a], details := laneDetails 22 lt.toNat 0 0 0, cost := laneCost 22 lt.toNat 0 }
  | .deq _ d a => { unit := .elem, opnds := [.dstReg d, .inb a], cost := 1 }
  | .peek _ d a => { unit := .elem, opnds := [.dstReg d, .peek a], cost := 1 }
  | .send _ d a => { unit := .elem, opnds := [.out d, .src a], cost := 1 }
  | .fwd _ d a => { unit := .elem, opnds := [.out d, .inb a], cost := 1 }
  | .toss _ a => { unit := .elem, opnds := [.inb a], cost := 1 }
  | .mark _ d b => { unit := .elem, opnds := [.out d], details := rawDetail (1 ≤ b.toNat && b.toNat ≤ 3), cost := 1 }
  | .gnext _ => { unit := .elem, cost := 1, wait := .gnext }
  | .steerP0P3 _ d a b k => { unit := .elem, opnds := [.steer d b k.toNat, .src a], cost := 1 }
  | .steerP4P7 _ d a b k => { unit := .elem, opnds := [.steer d b (k.toNat + 4), .src a], cost := 1 }
  | .selectP0P3 _ d a b _ => { unit := .elem, opnds := [.dst d, .src a, .src b], cost := 1 }
  | .selectP4P7 _ d a b _ => { unit := .elem, opnds := [.dst d, .src a, .src b], cost := 1 }
  | .selectMrgP0P3 _ d a b k => { unit := .elem, opnds := [.dst d, .merge a b k.toNat], cost := 1 }
  | .selectMrgP4P7 _ d a b k => { unit := .elem, opnds := [.dst d, .merge a b (k.toNat + 4)], cost := 1 }
  | .ld _ d a i => { opnds := [.dst d, .src a], cost := 0, mem := some { addr := a, off := (BitVec.signExtend 64 i * 8), atomic := false, pred := none }, wait := .access }
  | .st _ d a i => { opnds := [.src d, .src a], cost := 0, mem := some { addr := a, off := (BitVec.signExtend 64 i * 8), atomic := false, pred := none, write := true, data := some d }, wait := .access }
  | .ldS _ d a s => { opnds := [.dst d, .src a], details := rawDetail (s.toNat < 3), cost := 0, mem := some { addr := a, off := 0, atomic := false, pred := none, size := 2 ^ s.toNat }, wait := .access }
  | .ldZ _ d a s => { opnds := [.dst d, .src a], details := rawDetail (s.toNat < 3), cost := 0, mem := some { addr := a, off := 0, atomic := false, pred := none, size := 2 ^ s.toNat }, wait := .access }
  | .stNarrow _ d a s => { opnds := [.src d, .src a], details := rawDetail (s.toNat < 3), cost := 0, mem := some { addr := a, off := 0, atomic := false, pred := none, size := 2 ^ s.toNat, write := true, data := some d }, wait := .access }
  | .acas _ d a b => { opnds := [.rw d, .src a, .src b], cost := 0, mem := some { addr := a, off := 0, atomic := true, pred := none, bankOnly := true, data := some b }, wait := .access }
  | .ldg _ d a seq pred _ => { opnds := [.dst d, .src a], details := seqDetail seq.toNat, cost := 0, mem := some { addr := a, off := 0, atomic := false, pred := some pred }, wait := .access }
  | .stg _ d a seq pred _ => { opnds := [.src d, .src a], details := seqDetail seq.toNat, cost := 0, mem := some { addr := a, off := 0, atomic := false, pred := some pred, write := true }, wait := .access }
  | .tfull _ a => { opnds := [.src a], cost := 0, mem := some { addr := a, off := 0, atomic := false, pred := none, bankOnly := true }, wait := .access }
  | .tempty _ a => { opnds := [.src a], cost := 0, mem := some { addr := a, off := 0, atomic := false, pred := none, bankOnly := true }, wait := .access }
  | .void _ a b => { opnds := [.src a, .src b], cost := 0, mem := some { addr := a, off := 0, atomic := false, pred := none, data := some b, len := some b }, wait := .access }
  | .acc _ a b => { opnds := [.src a, .src b], cost := 0, mem := some { addr := a, off := 0, atomic := true, pred := none, bankOnly := true, data := some b }, wait := .access }
  | .acvtGen _ d a b => { opnds := [.dst d, .src a], details := rawDetail (b.toNat ≤ 3), cost := 1 }
  | .acvtRel _ d a b => { opnds := [.dst d, .src a], details := rawDetail (b.toNat ≤ 3), cost := 1 }
  | .ain _ _ a b => { opnds := [.src a], details := rawDetail (b.toNat ≤ 3), cost := 1 }
  | .axch _ d a b => { opnds := [.dst d, .src a, .src b], cost := 0, mem := some { addr := a, off := 0, atomic := true, pred := none, bankOnly := true, data := some b }, wait := .access }
  | .aadd _ d a b => { opnds := [.dst d, .src a, .src b], cost := 0, mem := some { addr := a, off := 0, atomic := true, pred := none, bankOnly := true, data := some b }, wait := .access }
  | .aaddf _ d a b => { opnds := [.dst d, .src a, .src b], cost := 0, mem := some { addr := a, off := 0, atomic := true, pred := none, bankOnly := true, data := some b }, wait := .access }
  | .amin _ d a b => { opnds := [.dst d, .src a, .src b], cost := 0, mem := some { addr := a, off := 0, atomic := true, pred := none, bankOnly := true, data := some b }, wait := .access }
  | .amax _ d a b => { opnds := [.dst d, .src a, .src b], cost := 0, mem := some { addr := a, off := 0, atomic := true, pred := none, bankOnly := true, data := some b }, wait := .access }
  | .aminu _ d a b => { opnds := [.dst d, .src a, .src b], cost := 0, mem := some { addr := a, off := 0, atomic := true, pred := none, bankOnly := true, data := some b }, wait := .access }
  | .amaxu _ d a b => { opnds := [.dst d, .src a, .src b], cost := 0, mem := some { addr := a, off := 0, atomic := true, pred := none, bankOnly := true, data := some b }, wait := .access }
  | .aand _ d a b => { opnds := [.dst d, .src a, .src b], cost := 0, mem := some { addr := a, off := 0, atomic := true, pred := none, bankOnly := true, data := some b }, wait := .access }
  | .aor _ d a b => { opnds := [.dst d, .src a, .src b], cost := 0, mem := some { addr := a, off := 0, atomic := true, pred := none, bankOnly := true, data := some b }, wait := .access }
  | .fenceE _ => { cost := 1 }
  | .fenceG _ => { cost := 1 }
  | .fenceT _ => { cost := 1 }
  | .fenceM _ => { cost := 1 }
  | .fenceD _ => { cost := 1 }
  | .barArrive _ a b => { opnds := [.src a, .src b], cost := 0, mem := some { addr := a, off := 0, atomic := true, pred := none, bankOnly := true }, wait := .access }
  | .barWait _ a b => { opnds := [.src a, .src b], cost := 0, mem := some { addr := a, off := 0, atomic := false, pred := none, bankOnly := true }, wait := .access }
  | .atTb _ d a => { unit := .elem, opnds := [.out d, .src a], cost := 1, wait := .at }
  | .evset _ a => { unit := .seq, opnds := [.src a], cost := 0, wait := .evset, privileged := true }
  | .evwait _ a => { unit := .seq, opnds := [.src a], cost := 0, wait := .evwait a, privileged := true }
  | .evclr _ a => { unit := .seq, opnds := [.src a], cost := 0, privileged := true }
  | .chkpt _ _ => { cost := 1 }
  | .refill _ a => { opnds := [.src a], cost := 1 }
  | .commit _ a => { unit := .seq, opnds := [.src a], cost := 0 }
  | .abort _ a => { opnds := [.src a], cost := 0, free := true }
  | .lcld _ d _ b => { unit := .cElem, opnds := [.stream d, .src b], cost := 128, wait := .array }
  | .lcctx _ a b => { unit := .cElem, opnds := [.src b], details := rawDetail (a.toNat ≤ 7), cost := 2, wait := .array }
  | .lcin _ a b => { unit := .cElem, opnds := [.src a, .src b], cost := 1, wait := .array }
  | .lcev _ a b => { unit := .cElem, opnds := [.src b], details := rawDetail (1 ≤ a.toNat && a.toNat ≤ 8), cost := 0, wait := .array }
  | .lcevRel _ a b => { unit := .cElem, opnds := [.src b], details := rawDetail (1 ≤ a.toNat && a.toNat ≤ 8), cost := 0, wait := .array }
  | .lcout _ d a b => { unit := .cElem, opnds := [.dst d, .src a, .src b], cost := 1, wait := .array }
  | .bpt _ d a => { unit := .cElem, opnds := [.dst d, .src a], cost := 2 }
  | .raceK _ d a b => { unit := .elem, opnds := [.dst d, .src a], details := rawDetail (1 ≤ b.toNat && b.toNat ≤ 8), cost := 1, wait := .race }
  | .place _ d a b => { unit := .seq, opnds := [.dst d, .src a, .src b], cost := 32, wait := .place }
  | .pload _ _ b => { opnds := [.src b], cost := 1, wait := .pload }
  | .pswap _ b => { details := rawDetail (1 ≤ b.toNat && b.toNat ≤ 3), cost := 1 }
  | .gcall _ a b => { opnds := [.src a, .src b], cost := 1, wait := .call }
  | .gret _ a => { opnds := [.src a], cost := 1, wait := .call }
  | .sbind _ a _ _ _ _ => { unit := .seq, opnds := [.src a], cost := 1, wait := .stream }
  | .spat _ a b _ => { unit := .seq, opnds := [.src a, .src b], cost := 1, wait := .stream }
  | .sgo _ ag _ _ _ _ _ => { unit := .seq, cost := 1, wait := .queue ag.toNat }
  | .swait _ _ => { unit := .seq, cost := 1, wait := .stream }
  | .sbar _ => { unit := .seq, cost := 1, wait := .sbar }
  | .scopy _ a b ag _ _ _ _ => { unit := .seq, opnds := [.src a, .src b], cost := 1, wait := .queue ag.toNat }
  | .sgath _ ag _ _ _ _ _ _ => { unit := .seq, cost := 1, wait := .queue ag.toNat }
  | .sscat _ ag _ _ _ _ _ => { unit := .seq, cost := 1, wait := .queue ag.toNat }
  | .sisect _ d ag _ _ _ _ => { unit := .seq, opnds := [.rw d], cost := 1, wait := .pair ag.toNat }
  | .smerge _ d ag _ _ _ _ => { unit := .seq, opnds := [.rw d], cost := 1, wait := .pair ag.toNat }
  | .branch _ _ => { unit := .seq, cost := 1 }
  | .call _ _ => { unit := .seq, cost := 1, wait := .link }
  | .nop _ => { cost := 1 }
  | .halt _ => { cost := 1 }
  | .trap _ _ => { cost := 1 }
  | .ret _ a => { unit := .seq, opnds := [.src a], cost := 1 }
  | .wait _ a => { unit := .seq, opnds := [.src a], cost := 1 }
  | .loopDec _ _ a => { unit := .seq, opnds := [.rw a], cost := 1 }
  | .sret _ => { unit := .seq, cost := 0, privileged := true }
  | .mfsr _ d _ => { unit := .seq, opnds := [.dst d], cost := 1 }
  | .mtsr _ _ a => { unit := .seq, opnds := [.src a], cost := 1 }
  | .tlbinv _ a => { unit := .seq, opnds := [.src a], cost := 0, wait := .tlb (some a), privileged := true }
  | .tlbinva _ => { unit := .seq, cost := 0, wait := .tlb none, privileged := true }
  | .agpause _ a => { unit := .seq, opnds := [.src a], cost := 0, privileged := true }
  | .agpatch _ a => { unit := .seq, opnds := [.src a], cost := 0, privileged := true, wait := .patch a }
  | .fltack _ a => { unit := .seq, opnds := [.src a], cost := 0, privileged := true }
  | .illegalWord _ => {}
  | .skippedWord => {}
  | .tokenHop _ _ _ => {}
  | .tokenDeliver _ _ => {}
  | .requestAdmit _ => {}
  | .requestServe _ _ => {}
  | .deferredReadWake _ => {}
  | .requestReply _ => {}
  | .waveRequestRelease _ => {}
  | .fenceComplete _ _ => {}
  | .atEmit _ _ => {}
  | .sequencerWaitExpire _ => {}
  | .allowanceRecall _ => {}
  | .dry _ => {}
  | .graceExpired _ => {}
  | .boostFallback _ => {}
  | .caskPour _ => {}
  | .pourGrant _ => {}
  | .commitTask _ => {}
  | .vanish _ => {}
  | .bankHandover _ _ => {}
  | .matrixIntake _ => {}
  | .matrixTileStep _ => {}
  | .matrixTileWrite _ => {}
  | .converterToken _ => {}
  | .cornerTurnCollect _ => {}
  | .cornerTurnEmit _ => {}
  | .agAccess _ _ => {}
  | .streamCommandRetire _ _ => {}
  | .sparseSetStep _ _ => {}
  | .lcIntake _ _ => {}
  | .lcLoadBlock _ => {}
  | .lcSweep _ => {}
  | .lcQueueOp _ => {}
  | .raceIntake _ _ => {}
  | .raceRelease _ => {}
  | .placerSizing _ => {}
  | .placePreload _ => {}
  | .ploadComplete _ _ => {}
  | .planeSwap _ => {}
  | .loadChange _ => {}
  | .freezePoint _ => {}
  | .gridCallSwitch _ => {}
  | .gridReturn _ => {}
  | .waveEntryPoint _ => {}
  | .wavePoint _ => {}
  | .waveComplete _ => {}
  | .suspension _ => {}
  | .taskResume _ => {}
  | .tagScrub _ => {}
  | .forkStall _ _ => {}
  | .progressStall _ => {}
  | .barrierShort _ => {}
  | .trapEntry _ => {}
  | .tableWalk _ _ => {}
  | .slotTableRead _ _ => {}
  | .slotStart _ _ => {}
  | .launch _ _ => {}
  | .timeBaseAdjust _ => {}
  | .hostWrite _ _ _ _ => {}
  | .hostRead _ _ _ _ => {}
  | .tdiStateChange _ _ => {}
  | .ideKeyProgram _ _ => {}
  | .getMeasurements _ _ => {}
  | .keyExchange _ => {}
  | .keyUpdate _ _ _ _ => {}
  | .berovoFrameReceive _ _ _ _ => {}
  | .creditReturn _ _ _ => {}
  | .remoteRequest _ _ _ _ _ _ _ => {}
  | .remoteReply _ _ _ _ => {}
  | .resolve _ _ _ => {}
  | .resolveAck _ _ => {}
  | .remoteAccessTimeout _ => {}
  | .sensorSample _ _ _ => {}
  | .elementGate _ => {}
  | .elementWake _ => {}
  | .guardSupplyShortfall _ => {}
  | .sramSoftError _ => {}
  | .reset _ => {}
  | .featureAck _ _ => {}
  | .firmwareUpdate _ => {}
  | .suspendRequest _ => {}
  | .endSuspendedTask _ _ => {}
  | .registerWrite _ _ => {}
  | .monitorCallFeatures _ => {}
  | .monitorCallGroveMap _ => {}
  | .monitorCallGuardDrops _ => {}
  | .monitorCallReplaceImage _ => {}
  | .monitorCallInvalid _ => {}
  | .zwitexTime _ => {}
  | .zwitexModuleNumber _ => {}
  | .zwitexHopTable _ _ => {}
  | .zwitexFirmwareTransfer _ => {}
  | .zwitexEventLogRead => {}
  | .zwitexQuarantineClear _ _ => {}
  | .zwitexPartitionCommand _ => {}
  | .zwitexLostModule _ => {}
  | .groveRestore _ _ _ => {}
  | .linkFailure _ => {}

/-- Kind of the issuing unit (R18). -/
def curKind : Cur → UnitKind
  | .slot e _ _ => if isC e then .cElem else .mElem
  | .word _ _ => .seq

/-- Details of a source code (R107, R115). -/
def srcDetails (u : UnitKind) (c : BitVec 6) : List Nat :=
  if u = .seq ∧ ((24 ≤ c.toNat ∧ c.toNat < 32) ∨ 48 ≤ c.toNat) then [2] else []

/-- Is a code a register that can be read back (R112, R125)? scale admits s0 to s7. -/
def readable (u : UnitKind) (scale : Bool) (c : BitVec 6) : Bool :=
  decide (c.toNat < 16) ||
  (if u = .seq then decide (32 ≤ c.toNat) && decide (c.toNat < 48) else scale && decide (24 ≤ c.toNat) && decide (c.toNat < 32))

/-- Details of one use of a field (R107, R115, R153). -/
def opndDetails (u : UnitKind) : Opnd → List Nat
  | .src c => srcDetails u c
  | .inb c => if c.toNat < 32 then [3] else []
  | .peek c => if c.toNat < 32 then [3] else []
  | .stream c => if c.toNat < 32 then [3] else []
  | .out c => if c.toNat < 32 then [3] else []
  | .steer t f _ => if t.toNat < 32 ∨ f.toNat < 32 then [3] else []
  | .merge a b _ => srcDetails u a ++ srcDetails u b
  | .dst c => srcDetails u c ++ (if 17 ≤ c.toNat ∧ c.toNat ≤ 23 then [3] else [])
  | .dstReg c => srcDetails u c ++ (if readable u true c || c == 16 then [] else [3])
  | .rw c => srcDetails u c ++ (if readable u false c then [] else [3])
  | .rws c => srcDetails u c ++ (if readable u true c then [] else [3])

/-- Detail 5 where the unit does not run the instruction (R111, R115). -/
def unitDetails (u : UnitKind) : UnitReq → List Nat
  | .any => []
  | .elem => if u = .seq then [5] else []
  | .cElem => if u = .cElem then [] else [5]
  | .seq => if u = .seq then [] else [5]

/-- All class-0 details of an instruction in a unit but those of its unused fields. -/
def sigDetails (u : UnitKind) (g : Sig) : List Nat :=
  g.opnds.flatMap (opndDetails u) ++ g.details ++ unitDetails u g.unit

/-- The lowest-numbered detail, if any applies (R115). -/
def lowest : List Nat → Option Nat
  | [] => none
  | d :: ds => some (ds.foldl min d)

/-- Details of the operand fields that the packed-lane long forms share, for a word that names none of them: d a destination, a and b sources (R107, R138). -/
def laneOperands (u : UnitKind) (w0 : IWord) : List Nat :=
  unitDetails u .cElem ++ [Opnd.dst (fb 6 w0 14), .src (fb 6 w0 8), .src (fb 6 w0 2)].flatMap (opndDetails u)

/-- Details of a word that decodes to no instruction. -/
def rejectDetails (u : UnitKind) (w0 w1 : IWord) (r : Reject) : List Nat :=
  r.detail :: (match r with
    | .noContinuation =>
      if fld w0 20 6 = 0x1F then laneOperands u w0
      else match looseLong w0 0xFC000000 with
        | .ok i => sigDetails u (wordSig i) ++ (if (encode i).head? = some w0 then [] else [4])
        | .error _ => []
    | .illegalVop => laneOperands u w0 ++ (if fld w1 0 14 = 0 then [] else [4])
    | .fenceScope => if fld w0 8 12 = 0 then [] else [4]
    | .lcevField => sigDetails u (wordSig (.lcev 0 (fb 6 w0 8) (fb 6 w0 2)))
    | _ => [])

/-- The detail that a word and the word after it raise in a unit, if they are illegal (R115). -/
def wordDetail (u : UnitKind) (w0 w1 : IWord) : Option Nat :=
  match decodeLoose w0 w1 with
  | .error r => lowest (rejectDetails u w0 w1 r)
  | .ok i => lowest (sigDetails u (wordSig i) ++ (if encode i = [w0] ∨ encode i = [w0, w1] then [] else [4]))

/-- The strand a word issues for. A sequencer's supervisor words are kept apart from its task words as strand 1: the banks of R302 share no state. -/
def issueStrand (s : State) : BitVec 2 :=
  match s.cur with
  | .slot _ k _ => k
  | .word g _ => if (s.grove g).level = 0 then 0 else 1

/-- Predicates of the issuing strand or sequencer bank. -/
def curPreds (s : State) : BitVec 8 :=
  match s.cur with
  | .slot e k _ => ((s.elem e).active.strand k.toNat).p
  | .word g _ => (s.grove g).bank.p

/-- Predicate k of the issuing unit. -/
def pred (s : State) (k : Nat) : Bool := (curPreds s).getLsbD k

/-- Sets predicate k of the issuing unit. -/
def setPred (s : State) (k : Nat) (v : Bool) : State :=
  let put (p : BitVec 8) : BitVec 8 := if v then p ||| ((1 : BitVec 8) <<< k) else p &&& ~~~((1 : BitVec 8) <<< k)
  match s.cur with
  | .slot e k' _ => s.modElem e (fun x => { x with active := x.active.setStrand k'.toNat { x.active.strand k'.toNat with p := put (x.active.strand k'.toNat).p } })
  | .word g _ => s.modGrove g (fun x => x.setBank { x.bank with p := put x.bank.p })

/-- The inbound channel a code names in the issuing unit. -/
def chanOf (s : State) (c : BitVec 6) : Option Nat :=
  match s.cur with
  | .slot _ _ _ => if 32 ≤ c.toNat then some (c.toNat - 32) else none
  | .word _ _ => none

/-- Element of the issuing slot; a sequencer's first element otherwise. -/
def curElem (s : State) : Nat :=
  match s.cur with
  | .slot e _ _ => e
  | .word g _ => elemAt g 0

/-- Grove of the issuing unit. -/
def curGrove (s : State) : Nat := groveOfUnit (curUnit s.cur)

/-- Head of an inbound channel of the issuing element. -/
def curHead (s : State) (ch : Nat) : Option Token := sourceHead s (curElem s) ch

/-- Value of the operands 16 to 23 (R22, R188). The model's own choice (assumption 6): gauge and seed read 0 in a sequencer whose grove no task holds, where R22 and R188, which speak of a task's, give no value. -/
def special (s : State) (c : BitVec 6) : Word :=
  match c.toNat with
  | 16 => 0
  | 17 => 1
  | 18 => match s.cur with
    | .slot e k _ => ((s.elem e).active.strand k.toNat).gen.setWidth 64
    | .word _ _ => Config.seqOperand s.moveNo c
  | 19 => match s.cur with
    | .slot _ k _ => k.setWidth 64
    | .word _ _ => Config.seqOperand s.moveNo c
  | 20 => match s.cur with
    | .slot e _ _ => eidOf s e
    | .word _ _ => Config.seqOperand s.moveNo c
  | 21 => s.tb
  | 22 => match s.taskOfGrove (curGrove s) with
    | some t => if s.supervising then BitVec.ofNat 64 (balance s t)
      else BitVec.ofNat 64 ((s.grove (curGrove s)).allowance + (s.task t).central)
    | none => 0
  | _ => match s.taskOfGrove (curGrove s) with
    | some t => (s.task t).seed
    | none => 0

/-- Value of a source that is no channel (R107). -/
def regVal (s : State) (c : BitVec 6) : Word :=
  if 16 ≤ c.toNat ∧ c.toNat ≤ 23 then special s c
  else match s.cur with
    | .slot e k _ =>
      if c.toNat < 16 then reg ((s.elem e).active.strand k.toNat).w c.toNat else reg (s.elem e).active.sreg (c.toNat - 24)
    | .word g _ =>
      if c.toNat < 16 then reg (s.grove g).bank.w c.toNat else reg (s.grove g).bank.a (c.toNat - 32)

/-- Value of a source, none being an absent token (R69, R121). -/
def srcVal (s : State) (c : BitVec 6) : Option Word :=
  match chanOf s c with
  | none => some (regVal s c)
  | some ch => match curHead s ch with
    | some t => if t.pres then some t.payload else none
    | none => none

/-- Value of a source, 0 for an absent one. -/
def valOf (s : State) (c : BitVec 6) : Word := (srcVal s c).getD 0

/-- Inbound channels that one use of a field consumes. -/
def opndEats (s : State) : Opnd → List Nat
  | .src c => (chanOf s c).toList
  | .inb c => (chanOf s c).toList
  | .merge a b k => (chanOf s (if pred s k then a else b)).toList
  | _ => []

/-- Inbound channels that the word consumes, each once (R107). -/
def eats (s : State) (g : Sig) : List Nat := (g.opnds.flatMap (opndEats s)).dedup

/-- Inbound channels whose heads the word needs (R29, R154). -/
def needsHeads (s : State) (g : Sig) : List Nat :=
  eats s g ++ g.opnds.flatMap (fun o => match o with
    | .peek c => (chanOf s c).toList
    | _ => [])

/-- Inbound channels that one use of a field names as sources, consumed or not (R69). -/
def opndNames (s : State) : Opnd → List Nat
  | .src c => (chanOf s c).toList
  | .inb c => (chanOf s c).toList
  | .peek c => (chanOf s c).toList
  | .stream c => (chanOf s c).toList
  | .merge a b _ => (chanOf s a).toList ++ (chanOf s b).toList
  | _ => []

/-- Does a wave marker head a channel of the issuing element (R69)? -/
def markerAt (s : State) (ch : Nat) : Bool := match headOf s (curElem s) ch with
  | some t => t.isWave
  | none => false

/-- Outbound channels of one use of a field; steer needs only the chosen one (R158). -/
def opndOuts (s : State) : Opnd → List Nat
  | .out c => (chanOf s c).toList
  | .dst c => (chanOf s c).toList
  | .steer t f k => (chanOf s (if pred s k then t else f)).toList
  | _ => []

/-- Outbound channels the word enqueues on. -/
def outs (s : State) (g : Sig) : List Nat := g.opnds.flatMap (opndOuts s)

/-- Is a code a register of the issuing unit that can be pending (R162)? -/
def isRegister (s : State) (c : BitVec 6) : Bool := readable (curKind s.cur) true c

/-- Register codes a word reads or writes. -/
def opndRegs (s : State) (o : Opnd) : List (BitVec 6) :=
  (match o with
    | .src c => [c]
    | .merge a b _ => [a, b]
    | .dst c => [c]
    | .dstReg c => [c]
    | .rw c => [c]
    | .rws c => [c]
    | _ => []).filter (isRegister s)

/-- Frames that an element keeps in its understory and its cellar (R259). -/
def keptFrames (x : Elem) : List Frame :=
  x.under.toList.filterMap (fun u => match u with
    | .frame f => some f
    | _ => none) ++ x.cellar

/-- Stream commands of a grove that have not retired, each with its AG: those in the AGs' queues, and those that frames of its elements keep (R229, R258). -/
def commandsOf (s : State) (g : Nat) : List (Nat × AgCmd) :=
  let queued (m : SMap Ag) : List (Nat × AgCmd) := m.flatMap (fun a => a.2.queue.map (fun c => (a.1, c)))
  queued (s.grove g).ags ++ s.elems.flatMap (fun e => if groveOf e.1 = g then (keptFrames e.2).flatMap (fun f => queued f.flight.ags) else [])

/-- Has every stream command of a grove retired (R90, R229)? -/
def streamsRetired (s : State) (g : Nat) : Bool := (commandsOf s g).isEmpty

/-- Has every command of an AG retired (R229)? -/
def agRetired (s : State) (g n : Nat) : Bool := !(commandsOf s g).any (fun c => c.1 == n)

/-- Registers of the issuing strand that a request, an array read or a race round will write (R162, R252, R288). -/
def pendingRegs (s : State) : List (BitVec 6) :=
  let u := curUnit s.cur
  let k := issueStrand s
  let code (d : Dest) : List (BitVec 6) := match d with
    | .reg c => [c]
    | _ => []
  s.reqs.flatMap (fun r => if r.2.src = u ∧ r.2.strand = k then code r.2.dest else []) ++
  (match s.cur with
    | .slot e _ _ =>
      (s.elem e).lc.queue.flatMap (fun o => match o.1 with
        | .out d _ _ _ => if o.2.1 = k then code d else []
        | _ => []) ++
      (match (s.elem e).race.armed with
        | some (_, d, k', _, _) => if k' = k then code d else []
        | none => [])
    | .word g _ =>
      let sup := (s.grove g).level != 0
      (match (s.grove g).place with
        | some p => if p.supervisor = sup then [p.d] else []
        | none => []) ++
      (commandsOf s g).flatMap (fun c => match c.2.kind with
        | .set _ true d => if c.2.supervisor = sup then [d] else []
        | _ => []))

/-- The generic address of an access; none when its address source is absent (R161, R163). -/
def accessAddr (s : State) (m : Access) : Option Word := (srcVal s m.addr).map (· + m.off)

/-- The class of the address of an access, if it has a target (R73). -/
def accessClass (s : State) (m : Access) : Option AddrClass :=
  match accessAddr s m with
  | some a => resolveAddr s (curUnit s.cur) a.toNat
  | none => none

/-- Generation of the issuing strand; a sequencer has one chain. -/
def curGen (s : State) : BitVec 4 :=
  match s.cur with
  | .slot e k _ => ((s.elem e).active.strand k.toNat).gen
  | .word _ _ => 0

/-- The unit that the address of a wave-ordered access names, where it is in a window and translates without a cause (R164). -/
def addressTarget (s : State) (m : Access) : Option Target :=
  match accessClass s m with
  | some (.bank e off) => some (.bank e off)
  | some (.global va) => match leafOf s (curUnit s.cur) va with
    | .ok (leaf, size) => if (leafDenies leaf m.write s.supervising).isNone then some (leafTarget s (unitPart s (curUnit s.cur)) leaf size va) else none
    | .error _ => none
  | none => none

/-- The request that the PRED of an absent request names, if the unit keeps it (R98, R164). -/
def absentPred (s : State) (p : BitVec 8) : Option PredRef :=
  if p = 0xFF then none
  else findPred s { src := curUnit s.cur, strand := issueStrand s, gen := curGen s, kind := .absent, addr := 0, wave := some ⟨0, p, 0⟩ } s.nextReq p

/-- Destination of an absent wave-ordered request (R164); none while it is that of a PRED request whose translation is not known. -/
def absentTarget (s : State) (m : Access) (p : BitVec 8) : Option Target :=
  match addressTarget s m, absentPred s p with
  | some t, _ => some t
  | none, some r => r.target
  | none, none => some (.bank (curElem s) 0)

/-- Cost of an access that goes to a known target (R161). -/
def targetCost (s : State) (atomic : Bool) (t : Target) : Nat :=
  match t with
  | .bank e off => accessCost s (curUnit s.cur) atomic (some (.bank e off))
  | .module m _ => 320 + 256 * mget 0 s.hops m
  | _ => 320

/-- Is the access that a word would make absent, and sent nevertheless to keep its chain (R164)? -/
def isAbsent (s : State) (g : Sig) : Bool :=
  g.opnds.any (fun o => match o with
    | .src c => (srcVal s c).isNone
    | _ => false)

/-- The address of the request whose translation gives an absent request its destination: that of the first request before it in its chain that is not such a one itself (R164). -/
def awaitedAddr (s : State) : Nat → Nat → Option Nat
  | 0, _ => none
  | fuel + 1, r => match s.req? r with
    | none => none
    | some q => if q.kind = .absent ∧ q.destination = none then q.pred.bind (fun p => awaitedAddr s fuel p.req) else some q.addr

/-- Cost of a word's access. -/
def memCost (s : State) (g : Sig) (m : Access) : Nat :=
  match m.pred with
  | some p =>
    if isAbsent s g then match absentTarget s m p with
      | some t => targetCost s m.atomic t
      | none => accessCost s (curUnit s.cur) m.atomic (((absentPred s p).bind (fun r => awaitedAddr s s.reqs.length r.req)).map .global)
    else accessCost s (curUnit s.cur) m.atomic (accessClass s m)
  | none => accessCost s (curUnit s.cur) m.atomic (accessClass s m)

/-- Was the cost of the word at hand taken when a translation cause stopped it at issue (R352)? -/
def prepaid (s : State) : Bool :=
  match s.cur with
  | .slot _ _ _ => false
  | .word g a => (s.grove g).prepaid == some a

/-- Whole cost of issuing a word (R32, R121, R161, R183); nothing at supervisor level, nor on a retry after a translation cause (R352). -/
def wordCost (s : State) (g : Sig) : Nat :=
  if s.supervising || prepaid s then 0
  else g.cost + (match g.mem with
      | some m => memCost s g m
      | none => 0) + (outs s g).foldl (fun n ch => n + pathCost s (curElem s) ch) 0

/-- Fence scope of an address (R100); a translated one takes it from its leaf. The model's own choice (assumption 30): an address that no leaf translates has module scope, until its cause. -/
def classScope (s : State) : AddrClass → Nat
  | .bank e _ => (bankScope (curUnit s.cur) e).toNat
  | .global va => match leafOf s (curUnit s.cur) va with
    | .ok (leaf, size) => (targetScope (curUnit s.cur) (leafTarget s (unitPart s (curUnit s.cur)) leaf size va)).toNat
    | .error _ => 3

/-- Pending fences of the issuing strand or sequencer level. -/
def curFences (s : State) : List Fence :=
  (match s.cur with
    | .slot e _ _ => (s.elem e).fences
    | .word g _ => (s.grove g).fences).filter (fun f => f.strand == issueStrand s)

/-- Requests of the issuing strand or sequencer level. -/
def strandReqs (s : State) : List (Nat × Req) :=
  s.reqs.filter (fun r => r.2.src == curUnit s.cur && r.2.strand == issueStrand s && !inBackground r.2)

/-- Is a bar.wait unanswered? -/
def isWait (q : Req) : Bool :=
  match q.kind with
  | .wait _ => true
  | _ => false

/-- Does a pending fence or wait hold back an access of a scope (R101, R102, R176)? -/
def scopeHeld (s : State) (scope : Nat) : Bool :=
  (curFences s).any (fun f => decide (scope ≤ f.scope.toNat)) ||
  (strandReqs s).any (fun r => isWait r.2 && decide (scope ≤ r.2.scope.toNat))

/-- The cause that an address raises at issue: aperture (R73), alignment (R74, R163), or mode mismatch where the instruction is not defined on GLOBAL (R161, R166). -/
def addressCause (s : State) (a : Word) (size : Nat) (bankOnly : Bool) : Option Nat :=
  match resolveAddr s (curUnit s.cur) a.toNat with
  | none => some 0x080
  | some c =>
    if a.toNat % size ≠ 0 then some 0x081
    else match c with
      | .global _ => if bankOnly then some 0x082 else none
      | .bank _ _ => none

/-- Last address of a window (R73). -/
def windowEnd (a : Word) : Nat :=
  match a.toNat / 2 ^ 52 with
  | 0 => 2 ^ 52
  | 0xFF0 => elemBytes
  | 0xFF1 => 128 * elemBytes
  | _ => 2 ^ 52

/-- Where the window of a generic address ends for the issuing unit, past its base (R73). -/
def windowStop (s : State) (a : Word) : Nat :=
  if a.toNat / 2 ^ 52 = 0xFF2 then (unitRegion s (curUnit s.cur)).length * (256 * elemBytes) else windowEnd a

/-- The cause of a range of len bytes from an address (R167): aperture when it leaves its window, alignment when it is misaligned, leaves its element, or leaves its 4 MiB block. -/
def rangeCause (s : State) (a : Word) (len : Nat) : Option Nat :=
  match resolveAddr s (curUnit s.cur) a.toNat with
  | none => some 0x080
  | some c =>
    let v := a.toNat % 2 ^ 52
    if v + len > windowStop s a then some 0x080
    else match c with
      | .bank _ off => if a.toNat % 8 ≠ 0 ∨ len % 8 ≠ 0 ∨ off + len > elemBytes then some 0x081 else none
      | .global va => if va % 64 ≠ 0 ∨ len % 64 ≠ 0 ∨ va % 2 ^ 22 + len > 2 ^ 22 then some 0x081 else none

/-- Does the firing of an access send a request: none where it raises a cause at issue, where an absent source leaves it nothing to send, and for a range of no bytes (R69, R162, R164, R167)? -/
def accessSends (s : State) (g : Sig) (m : Access) : Bool :=
  match accessAddr s m with
  | none => m.pred.isSome
  | some a =>
    if m.pred.isSome && isAbsent s g then true
    else match m.data.map (srcVal s), m.len with
      | some none, _ => false
      | some (some n), some _ => n != 0 && (rangeCause s a n.toNat).isNone
      | _, _ => (addressCause s a m.size m.bankOnly).isNone

/-- May the access of a word go out (R101, R162)? The model's own choice (assumption 30): an absent access whose address is present is one of its address's scope for a pending fence or wait; one without an address is of no scope and goes out. -/
def accessReady (s : State) (g : Sig) : Bool :=
  match g.mem with
  | none => true
  | some m => (!accessSends s g m || decide (outstandingReqs s (curUnit s.cur) < 32)) && (match accessClass s m with
    | none => true
    | some c => !scopeHeld s (classScope s c))

/-- Is a wave in progress in the region of the issuing unit's task (R271)? -/
def waveRunning (s : State) : Bool :=
  match s.taskOfGrove (curGrove s) with
  | some t => (s.task t).wave.isSome
  | none => false

/-- Is a freeze wave in progress in the region (R266)? -/
def freezing (s : State) : Bool :=
  match s.taskOfGrove (curGrove s) with
  | some t => match (s.task t).wave with
    | some (.freeze _ _) => true
    | _ => false
  | none => false

/-- Are all accesses of an issuing sequencer within a scope performed, those of its task among them (R101, R315)? -/
def scopeClear (s : State) (scope : Nat) : Bool :=
  s.reqs.all (fun r => r.2.src != curUnit s.cur || decide (scope < r.2.scope.toNat) || performed s r.1)

/-- Context number that an event instruction names (R315). -/
def eventCtx (v : Word) : Nat := bits v.toNat 32 16
/-- Event number that an event instruction names (R315). -/
def eventBit (v : Word) : Nat := bits v.toNat 0 8
/-- Is a context one of the partition of the issuing sequencer (R315)? -/
def ctxHere (s : State) (c : Nat) : Bool :=
  match s.partOfGrove (curGrove s), mfind s.ctxs c with
  | some p, some x => x.part == p
  | _, _ => false

/-- Free places of an AG's command queue (R223). -/
def agRoom (s : State) (n : Nat) : Bool := decide (((s.grove (curGrove s)).ag n).queue.length < 4)

/-- Are the command queues of a grove's AGs empty (R269)? -/
def streamsDone (x : Grove) : Bool := x.ags.all (fun a => a.2.queue.isEmpty)

/-- Is an AG between two bursts, or stopped at one (R349, R353)? A scatter that has ended is so once its pairs are written. -/
def atBoundary (a : Ag) : Bool :=
  a.stopped || (match a.queue with
    | c :: _ => c.pairs.isEmpty && (c.ended || decide (c.charged ≤ c.next))
    | [] => true)

/-- Has a pause that agpause asked for been reached (R350)? -/
def pauseDone (x : Grove) : Bool :=
  match x.pauseWait with
  | some n => !(x.ag n).paused || atBoundary (x.ag n)
  | none => true

/-- The groves that tlbinv and tlbinva act on (R349). -/
def tlbGroves (s : State) : List Nat :=
  match s.taskOfGrove (curGrove s) with
  | some t => (s.task t).groves
  | none => [curGrove s]

/-- Is an AG without an extent that covers an address, or without any where none is named, or between two bursts (R349)? The extents that the burst at hand was checked under are its own too (R345). -/
def tlbPaused (va : Option Nat) (a : Ag) : Bool :=
  atBoundary a || !(a.extents ++ a.queue.flatMap AgCmd.leaves).any (fun x => match va with
    | some v => decide (x.va ≤ v) && decide (v < x.va + x.size)
    | none => true)

/-- The further conditions of an instruction's own rule. -/
def waitMet (s : State) (g : Sig) : Bool :=
  match g.wait with
  | .none => true
  | .access => accessReady s g
  | .at => decide ((s.elem (curElem s)).ats.length < 4)
  | .gnext => match s.cur with
    | .slot e k _ =>
      let old := ((s.elem e).active.strand k.toNat).gen - 7
      !s.outst.any (fun o => o.2.elem == e && o.2.strand == k.setWidth 3 && o.2.gen == old)
    | .word _ _ => true
  | .array => decide ((s.elem (curElem s)).lc.queue.length < 4)
  | .race => (s.elem (curElem s)).race.armed.isNone && !(s.elem (curElem s)).race.finished
  | .place => (s.grove (curGrove s)).place.isNone
  | .pload => true
  | .call => (curFences s).isEmpty && !(strandReqs s).any (fun r => isWait r.2) && !waveRunning s
  | .link => !(pendingRegs s).contains 47
  | .stream => !freezing s
  | .queue n => !freezing s && agRoom s n
  | .pair n => !freezing s && agRoom s n && (n % 2 == 1 || agRoom s (n + 1))
  | .sbar => !freezing s && streamsRetired s (curGrove s)
  | .evset => scopeClear s 3
  | .patch a => atBoundary ((s.grove (curGrove s)).ag ((valOf s a).toNat % 512))
  | .tlb a => (tlbGroves s).all (fun g => (s.grove g).ags.all (fun x => tlbPaused (a.map (fun c => (valOf s c).toNat % 2 ^ 52)) x.2))
  | .evwait a =>
    let v := valOf s a
    !ctxHere s (eventCtx v) || (s.ctx (eventCtx v)).events.getLsbD (eventBit v)

/-- May a legal word issue as far as its operands and its own rule go (R29, R162)? -/
def wordReady (s : State) (g : Sig) : Bool :=
  (needsHeads s g).all (fun ch => (curHead s ch).isSome) && !(g.opnds.flatMap (opndNames s)).any (markerAt s) &&
  (outs s g).all (fun ch => hasRoom s (curElem s) ch ((eats s g).filterMap (fun c => (curHead s c).map Token.tid))) &&
  (g.opnds.flatMap (opndRegs s)).all (fun c => !(pendingRegs s).contains c) &&
  waitMet s g

/-- Consumes the channels of a word (R69, R107). -/
def consume (s : State) (chs : List Nat) : State :=
  match s.cur with
  | .slot e k _ => chs.foldl (fun s ch => takeHead s e ch (some k.toNat)) s
  | .word _ _ => s

/-- Moves the issuing unit on: the arbiter's pointer, the slot's firing count and the end of a rest (R30, R41, R402), or the PC (R131). -/
def advance (s : State) (i : Instr) : State :=
  match s.cur with
  | .slot e k n => s.modElem e (fun x => { x.wakes s.tb.toNat with
      active := { x.active with arb := k + 1 }, firings := mmod 0 x.firings n (· + 1) })
  | .word g a => s.modGrove g (fun x => { x with pc := (a + (encode i).length) % 16384, prepaid := if x.level = 0 then none else x.prepaid })

/-- Moves only the arbiter's pointer past a selected strand (R30). -/
def advanceArb (s : State) : State :=
  match s.cur with
  | .slot e k _ => s.modElem e (fun x => { x with active := { x.active with arb := k + 1 } })
  | .word _ _ => s

/-- Takes a word's cost (R32, R184); supervisor words pay nothing: they draw on the guard supply, and are counted per partition (R183, R399, R412). -/
def payWord (s : State) (cost : Nat) : State :=
  if s.supervising then
    let s := match s.taskOfGrove (curGrove s) with
      | some t => s.modTask t (fun x => { x with progress := s.tb.toNat })
      | none => s
    let n := Config.guardDrops s.moveNo
    let s := { s with guardPool := s.guardPool - (n : Int) }
    match s.partOfGrove (curGrove s) with
    | some p => s.modPart p (fun x => { x with guard := x.guard + n })
    | none => s
  else if prepaid s then noteStep s (curGrove s)
  else pay s (curGrove s) cost

/-- Can the cost of a word be taken (R32, R189)? abort issues at any balance (R196), supervisor words at any time. -/
def affordable (s : State) (g : Sig) : Bool := s.supervising || g.free || canPay s (curGrove s) (wordCost s g)

/-- Is a word the first word of a long instruction: F-L, and no continuation itself (R108, R309)? -/
def isFirstLong (w : IWord) : Bool := fld w 26 6 != 63 && isLongOp (fld w 20 6)

/-- INFO of a class-0 cause: the continuation word of an F-L first word (R309). -/
def contInfo (s : State) : Word :=
  match s.cur with
  | .slot e _ n => let (w0, w1) := slotWords s e n; if isFirstLong w0 then w1.setWidth 64 else 0
  | .word g a => if isFirstLong (imemWord s g a) then (imemWord s g (a + 1)).setWidth 64 else 0

/-- Is the issuing unit's task dry, and the word not a supervisor's (R189)? -/
def dryHere (s : State) : Bool :=
  !s.supervising && (match s.taskOfGrove (curGrove s) with
    | some t => (s.task t).dry.isSome
    | none => false)

/-- A class-0 cause at the issuing word: no effect and no cost (R115). While the task is dry its units do not come to the word (R189). -/
def raiseIllegal (s : State) (detail : Nat) : State := if dryHere s then s else causeAt (advanceArb s) detail 0 (contInfo s)

/-- What a word's effect comes to: the state after it with the flags it raised, or a cause raised at issue with its address and INFO, the word having no effect (R15, R163). -/
inductive Effect where
  | done (s : State) (flags : Flags)
  | cause (code : Nat) (addr info : Word)

/-- Is the word legal, privileged enough, ready and paid for? -/
def issuable (s : State) (i : Instr) : Bool :=
  (lowest (sigDetails (curKind s.cur) (wordSig i))).isNone && !((wordSig i).privileged && !s.supervising) &&
  wordReady s (wordSig i) && affordable s (wordSig i)

/-- The state that a word's effect starts from: cost taken, PC or arbiter moved, channels consumed (R32, R121). -/
def issued (s : State) (i : Instr) : State :=
  consume (advance (payWord s (wordCost s (wordSig i))) i) (eats s (wordSig i))

/-- Notes that the word at hand has paid and was stopped by a translation cause, so that its retry pays nothing (R352). -/
def keepPaid (s : State) (c : Nat) : State :=
  match s.cur with
  | .slot _ _ _ => s
  | .word g a => if c / 64 = 3 ∧ ¬s.supervising then s.modGrove g (fun x => { x with prepaid := some a }) else s

/-- Ends a word's issue. -/
def conclude (s : State) (i : Instr) : Effect → State
  | .done t f => if s.supervising && f &&& trapEnables s != 0 then causeAt s (0x040 + lowestFlag (f &&& trapEnables s)) 0 0 else raiseFlags t f
  | .cause c a info => causeAt (keepPaid (advanceArb (payWord s (wordCost s (wordSig i)))) c) c a info

/-- A word that is not issuable: an illegal word (R115), a missing level (R316), a word that waits (R29, R162), a refused issue (R189). -/
def notIssued (s : State) (i : Instr) : State :=
  let g := wordSig i
  match lowest (sigDetails (curKind s.cur) g) with
  | some d => raiseIllegal s d
  | none =>
    if g.privileged && !s.supervising then (if dryHere s then s else causeAt s 0x1C0 0 0)
    else if wordReady s g then refuse s (curGrove s) (wordCost s g)
    else s

/-- Issues a word with an effect, which gets the state before the issue and the state it starts from. -/
def issueWord (i : Instr) (s : State) (effect : State → State → Effect) : Host.Outcome State Fault Refusal :=
  .next (if issuable s i then conclude s i (effect s (issued s i)) else notIssued s i)

/-- A fresh data token of the issuing strand (R59). -/
def freshToken (s : State) (v : Word) : Token := { payload := v, gen := curGen s }

/-- An absent data token of the issuing strand (R69). -/
def absentToken (s : State) : Token := { gen := curGen s, pres := false }

/-- Enqueues a token on an outbound channel of the issuing element. -/
def sendToken (s : State) (c : BitVec 6) (t : Token) : State :=
  match s.cur, chanOf s c with
  | .slot e k _, some ch => enqueue s e ch k.toNat t
  | _, _ => s

/-- Writes a register of the issuing unit; code 16 and codes that name none discard (R107). -/
def writeReg (s : State) (c : BitVec 6) (v : Word) : State :=
  match s.cur with
  | .slot e k _ =>
    if c.toNat < 16 then s.modElem e (fun x => { x with active := x.active.setStrand k.toNat { x.active.strand k.toNat with w := setAt (x.active.strand k.toNat).w c.toNat v } })
    else if 24 ≤ c.toNat ∧ c.toNat < 32 then s.modElem e (fun x => { x with active := { x.active with sreg := setAt x.active.sreg (c.toNat - 24) v } })
    else s
  | .word g _ =>
    if c.toNat < 16 then s.modGrove g (fun x => x.setBank { x.bank with w := setAt x.bank.w c.toNat v })
    else if 32 ≤ c.toNat ∧ c.toNat < 48 then s.modGrove g (fun x => x.setBank { x.bank with a := setAt x.bank.a (c.toNat - 32) v })
    else s

/-- Writes a result, none being absent: a register is written or left, an outbound channel receives a token (R69, R121). -/
def writeDst (s : State) (c : BitVec 6) (v : Option Word) : State :=
  match chanOf s c with
  | some _ => sendToken s c (match v with
      | some x => freshToken s x
      | none => absentToken s)
  | none => match v with
    | some x => writeReg s c x
    | none => s

/-- Sources a, b and c of a computation; none when one is absent (R69). -/
def src1 (s : State) (a : BitVec 6) : Option Word := srcVal s a
def src2 (s : State) (a b : BitVec 6) : Option (Word × Word) :=
  match srcVal s a, srcVal s b with
  | some x, some y => some (x, y)
  | _, _ => none

/-- A word that computes one value of one source (R121). -/
def compute1 (i : Instr) (s : State) (d a : BitVec 6) (f : Word → Word) : Host.Outcome State Fault Refusal :=
  issueWord i s (fun s0 s1 => .done (writeDst s1 d ((src1 s0 a).map f)) 0)

/-- A word that computes one value of two sources (R121). -/
def compute2 (i : Instr) (s : State) (d a b : BitVec 6) (f : Word → Word → Word) : Host.Outcome State Fault Refusal :=
  issueWord i s (fun s0 s1 => .done (writeDst s1 d ((src2 s0 a b).map (fun x => f x.1 x.2))) 0)

end Sys2Proof.Machine
end

