-- ==== Sys2Proof/Machine/Extents.lean ====
section
/-! DEFINITION. Address-generator extents (R343 to R345): finding, patching and walking them again, and the memory-management instructions (R348 to R351). -/

namespace Sys2Proof.Machine

/-- The M element of an AG (R223). -/
def agElem (g n : Nat) : Nat := mElem g (n / 4)

/-- The extent of an AG that covers an address. -/
def extentAt (a : Ag) (va : Nat) : Option Extent := a.extents.find? (fun x => decide (x.va ≤ va) && decide (va < x.va + x.size))

/-- Are two extents adjacent, physically contiguous and alike in every other field (R343)? -/
def joins (x y : Extent) : Bool := x.va + x.size == y.va && x.pa + x.size == y.pa && x.leaf >>> 32 == y.leaf >>> 32

/-- Adds an extent as the most recently used one: joined to the neighbour below and the neighbour above where they are alike, and in place of the least recently used where eight are held without those. -/
def addExtent (l : List Extent) (x : Extent) : List Extent :=
  let low := l.find? (fun y => joins y x)
  let high := l.find? (fun y => joins x y)
  let y := match low with
    | some y => { y with size := y.size + x.size }
    | none => x
  let z := match high with
    | some z => { y with size := y.size + z.size }
    | none => y
  let rest := l.filter (fun w => some w != low && some w != high)
  (if rest.length < 8 then rest else rest.drop 1) ++ [z]

/-- The extent of one leaf. -/
def leafExtent (leaf : Word) (size va : Nat) : Extent :=
  { va := va / size * size, pa := leafPhys leaf size (va / size * size), size := size, leaf := leaf }

/-- The unit an address of a partition reaches through an extent. -/
def extentTarget (s : State) (p : Nat) (x : Extent) (va : Nat) : Target :=
  let pa := x.pa + (va - x.va)
  if leafHost x.leaf then .host (p + 1) pa else if leafMod x.leaf = s.moduleNo then .hbm pa else .module (leafMod x.leaf) pa

/-- Finds or patches the extent of an address through the grove's TLB (R343). -/
def patchExtent (s : State) (g n va : Nat) : State × Except Nat Extent :=
  match extentAt ((s.grove g).ag n) va with
  | some x => (s.modGrove g (fun y => y.setAg n { y.ag n with extents := (y.ag n).extents.filter (· != x) ++ [x] }), .ok x)
  | none =>
    match translate s g (unitCtx s (.ag g n)) va with
    | (s, .error k) => (s, .error k)
    | (s, .ok (leaf, size)) =>
      let x := leafExtent leaf size va
      (s.modGrove g (fun y => y.setAg n { y.ag n with extents := addExtent (y.ag n).extents x }), .ok x)

/-- Translates an AG access and checks it against its extent (R342). -/
def agTranslate (s : State) (g n va : Nat) (write sup : Bool) : State × Except Nat (Target × Extent) :=
  match patchExtent s g n va with
  | (s, .error k) => (s, .error k)
  | (s, .ok x) =>
    let t := extentTarget s (unitPart s (.ag g n)) x va
    match (leafDenies x.leaf write sup).or (cellarDenies s t 8 write sup) with
    | some k => (s, .error k)
    | none => (s, .ok (t, x))

/-- What the check of some writes has found: the extents of the addresses permitted, and the first cause with its address. -/
structure WriteCheck where
  leaves : List Extent := []
  denied : Option (Nat × Nat) := none
  deriving DecidableEq, Repr

/-- Adds what the check of one more address finds. -/
def WriteCheck.add (c : WriteCheck) (va : Nat) : Except Nat (Target × Extent) → WriteCheck
  | .ok (_, x) => { c with leaves := if c.leaves.contains x then c.leaves else c.leaves ++ [x] }
  | .error k => { c with denied := c.denied.or (some (k, va)) }

/-- Checks every address of a write (R344, R345): the extents they go through, and the cause and address when one is denied, which is 0x0C3 where another is permitted. -/
def checkWrites (s : State) (g n : Nat) (sup : Bool) (vas : List Nat) : State × WriteCheck :=
  let (s, c) := vas.foldl (fun (acc : State × WriteCheck) va =>
    let r := agTranslate acc.1 g n va true sup
    (r.1, acc.2.add va r.2)) (s, {})
  (s, { c with denied := c.denied.map (fun b => (if c.leaves.isEmpty then b.1 else 0x0C3, b.2)) })

/-- Does an extent fall under a tlbinv of an address, if any? -/
def extentHit (va : Option Nat) (x : Extent) : Bool :=
  match va with
  | some v => decide (x.va ≤ v) && decide (v < x.va + x.size)
  | none => true

/-- The check of a command's burst is made afresh where an extent it went through has been walked again: the AG stands stopped in it, or between two bursts (R345, R349). -/
def uncheck (va : Option Nat) (c : AgCmd) : AgCmd := if c.leaves.any (extentHit va) then { c with checked := min c.checked c.next, leaves := [] } else c

/-- Drops the extent of an AG that covers an address (R352). -/
def dropExtent (s : State) (g n va : Nat) : State := s.modGrove g (fun x => x.setAg n { x.ag n with extents := (x.ag n).extents.filter (fun e => !extentHit (some va) e) })

/-- Walks a range of addresses again, leaf by leaf; none when a page fails or the leaves do not form one extent. -/
def walkRange (s : State) (c stop : Nat) : Nat → Nat → Option Extent → Option Extent
  | 0, _, acc => acc
  | fuel + 1, va, acc =>
    if va ≥ stop then acc
    else match walk s c va with
      | .error _ => none
      | .ok (leaf, size) =>
        if !leafR leaf && !leafW leaf then none
        else
          let x := leafExtent leaf size va
          let next := x.va + x.size
          match acc with
          | none => walkRange s c stop fuel next (some x)
          | some y => if joins y x then walkRange s c stop fuel next (some { y with size := y.size + x.size }) else none

/-- The extents of an AG after those covering an address, or all, are walked again (R349, R350). -/
def rewalkExtents (s : State) (c : Nat) (va : Option Nat) (l : List Extent) : List Extent :=
  l.filterMap (fun x =>
    if extentHit va x then walkRange s c (x.va + x.size) (x.size / 2 ^ 16) x.va none else some x)

/-- Does a TLB entry fall under a tlbinv: its context, if any, and its address, if any? -/
def tlbHit (c va : Option Nat) (t : TlbEntry) : Bool :=
  (match c with
    | some k => t.ctx == k
    | none => true) && (match va with
    | some v => decide (t.va ≤ v) && decide (v < t.va + t.size)
    | none => true)

/-- Requests of a grove's units that were translated under an entry or extent that covers an address, or under any, and are on their way (R349). One that its unit has been stopped for carries no translation any more: it is translated again when it is sent again (R352). -/
def translatedReqs (s : State) (g : Nat) (va : Option Nat) : List Nat :=
  (s.reqs.filter (fun r => groveOfUnit r.2.src == g && r.2.pageSize != 0 && !performed s r.1 && (match r.2.stage with
    | .xlate => false
    | .failed _ => false
    | .stopped _ => false
    | _ => true) && (match va with
    | some v => decide (r.2.page ≤ v) && decide (v < r.2.page + r.2.pageSize)
    | none => true))).map (fun r => r.1)

/-- tlbinv and tlbinva on one grove (R349). -/
def invalidateGrove (c va : Option Nat) (s : State) (g : Nat) : State :=
  let x := s.grove g
  let k := c.getD x.ctxno.toNat
  let s' := s.setGrove g { x with
    tlb := x.tlb.filter (fun t => !tlbHit c va t)
    ags := x.ags.map (fun a => (a.1, { a.2 with extents := rewalkExtents s k va a.2.extents, queue := a.2.queue.map (uncheck va) })) }
  s'.modGrove (curGrove s) (fun y => { y with tlbWait := y.tlbWait ++ translatedReqs s g va })

/-- tlbinv and tlbinva (R349): the issuing sequencer goes on once the requests translated before have been performed. -/
def invalidate (s0 s1 : State) (va : Option Nat) : State :=
  let c := (s0.taskOfGrove (curGrove s0)).map (fun t => (s0.task t).ctx)
  (tlbGroves s0).foldl (invalidateGrove c va) (s1.modGrove (curGrove s0) (fun x => { x with tlbWait := [] }))

/-- tlbinv (R349). -/
def execTlbinv (t a : BitVec 6) (s : State) : Host.Outcome State Fault Refusal :=
  issueWord (.tlbinv t a) s (fun s0 s1 => .done (invalidate s0 s1 (some ((valOf s0 a).toNat % 2 ^ 52))) 0)

/-- tlbinva (R349). -/
def execTlbinva (t : BitVec 6) (s : State) : Host.Outcome State Fault Refusal :=
  issueWord (.tlbinva t) s (fun s0 s1 => .done (invalidate s0 s1 none) 0)

/-- AG that an AGID operand names (R348). -/
def agidOf (v : Word) : Nat := v.toNat % 512

/-- agpause: the AG starts no further burst, and the sequencer holds until it is between bursts (R350). -/
def execAgpause (t a : BitVec 6) (s : State) : Host.Outcome State Fault Refusal :=
  issueWord (.agpause t a) s (fun s0 s1 =>
    let n := agidOf (valOf s0 a)
    .done (s1.modGrove (curGrove s0) (fun x => { x.setAg n { x.ag n with paused := true } with pauseWait := some n })) 0)

/-- agpatch: the AG's extents are walked again and its pause is released (R350). As tlbinv does, it issues between the AG's bursts, so that no burst is written under two leaves (R345, R355). -/
def execAgpatch (t a : BitVec 6) (s : State) : Host.Outcome State Fault Refusal :=
  issueWord (.agpatch t a) s (fun s0 s1 =>
    let n := agidOf (valOf s0 a)
    let g := curGrove s0
    .done (s1.modGrove g (fun x => { x.setAg n { x.ag n with
      paused := false, extents := rewalkExtents s0 (unitCtx s0 (.ag g n)) none (x.ag n).extents, queue := (x.ag n).queue.map (uncheck none) } with pauseWait := none })) 0)

/-- fltack: the selected fault record returns to reset (R351). -/
def execFltack (t a : BitVec 6) (s : State) : Host.Outcome State Fault Refusal :=
  issueWord (.fltack t a) s (fun s0 s1 =>
    .done (s1.modGrove (curGrove s0) (fun x => { x with faults := setAt x.faults ((valOf s0 a).toNat % 8) {} })) 0)

end Sys2Proof.Machine
end

