-- ==== Sys2Proof/Machine/Streams.lean ====
section
/-! DEFINITION. Stream commands (R223 to R231): staging, queueing and its checks, and swait and sbar. -/

namespace Sys2Proof.Machine

/-- Signed byte stride q of a staging state (R225). -/
def strideOf (g : Staging) (q : Nat) : Int := signedOf 16 (bits g.strides.toNat (16 * q) 16)
/-- Count q of a staging state (R225). -/
def countOf (g : Staging) (q : Nat) : Nat := bits g.counts.toNat (16 * q) 16 + 1
/-- Words of an affine pattern. -/
def patternWords (g : Staging) : Nat := countOf g 0 * countOf g 1 * countOf g 2 * countOf g 3
/-- Is a generic address in the GLOBAL window (R73)? -/
def isGlobal (a : Word) : Bool := a.toNat / 2 ^ 52 == 0
/-- Does a binding access whole sectors (R225)? -/
def bySector (g : Staging) : Bool := g.sector && isGlobal g.base

/-- Address of word i of an affine pattern, i0 fastest (R89). -/
def patternAddr (g : Staging) (i : Nat) : Word :=
  let c0 := countOf g 0
  let c1 := countOf g 1
  let c2 := countOf g 2
  let off : Int := (i % c0 : Nat) * strideOf g 0 + (i / c0 % c1 : Nat) * strideOf g 1 +
    (i / (c0 * c1) % c2 : Nat) * strideOf g 2 + (i / (c0 * c1 * c2) : Nat) * strideOf g 3
  g.base + BitVec.ofInt 64 off

/-- The bank of an element that an address of an AG names, in SHARED or CLUSTER form (R225). -/
def ownBank (s : State) (g n : Nat) (a : Word) : Option Nat :=
  match resolveAddr s (.ag g n) a.toNat with
  | some (.bank e off) => if e = agElem g n then some off else none
  | _ => none

/-- Is an address one that an AG can start from: GLOBAL, or in its own element's banks (R225, R228)? -/
def reachable (s : State) (g n : Nat) (a : Word) : Bool := isGlobal a || (ownBank s g n a).isSome

/-- Do a staging state's limits hold (R225)? -/
def stagingOk (s : State) (g n : Nat) (x : Staging) : Bool :=
  x.base.toNat % 8 == 0 && (List.range 4).all (fun q => strideOf x q % 8 == 0) && reachable s g n x.base &&
  (!x.sector || x.base.toNat % 64 == 0) && (!bySector x || (strideOf x 0 == 8 && countOf x 0 % 8 == 0))

/-- First and last byte addresses of an affine pattern (R344). -/
def patternSpan (g : Staging) : Int × Int :=
  (List.range 4).foldl (fun (acc : Int × Int) q =>
    let d := strideOf g q * ((countOf g q : Int) - 1)
    (acc.1 + min 0 d, acc.2 + max 0 d)) ((g.base.toNat : Int), (g.base.toNat : Int) + 7)

/-- One address in every page from one address to another. -/
def spanPages (lo hi : Nat) : List Nat :=
  (List.range (hi / 2 ^ 16 + 1 - lo / 2 ^ 16)).map (fun i => max lo ((lo / 2 ^ 16 + i) * 2 ^ 16))

/-- Raises a translation cause of a stream command at its issue, with a fault record of kind 5 (R344, R346). -/
def commandFault (s : State) (k va : Nat) : State := recordFault s (curGrove s) 5 k va (unitCtx s (curUnit s.cur))

/-- Queues a command on an AG, in the issue order of its grove (R90, R223). -/
def queueCmd (s : State) (g n : Nat) (c : AgCmd) : State :=
  s.modGrove g (fun x => x.setAg n { x.ag n with queue := (x.ag n).queue ++ [{ c with order := x.nextOrder }] })

/-- Counts a command issued in a grove. -/
def nextCommand (s : State) (g : Nat) : State := s.modGrove g (fun x => { x with nextOrder := x.nextOrder + 1 })

/-- A command of the issuing sequencer over an AG's staging state, with its sync-FIFO flags. -/
def newCmd (s : State) (n : Nat) (kind : AgKind) (push : BitVec 1) (pfifo : BitVec 4) (pop : BitVec 1) (qfifo : BitVec 4) : AgCmd :=
  { kind := kind, stage := ((s.grove (curGrove s)).ag n).staging, push := if push = 1 then some pfifo else none
    pop := if pop = 1 then some qfifo else none, tag := (s.taskOfGrove (curGrove s)).getD 0, supervisor := s.supervising }

/-- spat: the staging strides and counts (R225). -/
def execSpat (t a b : BitVec 6) (ag : BitVec 9) (s : State) : Host.Outcome State Fault Refusal :=
  issueWord (.spat t a b ag) s (fun s0 s1 =>
    .done (s1.modGrove (curGrove s0) (fun x => x.setAg ag.toNat { x.ag ag.toNat with
      staging := { (x.ag ag.toNat).staging with strides := valOf s0 a, counts := valOf s0 b } })) 0)

/-- Queues a command whose GLOBAL writes over an address span have been checked, or raises the cause (R344). -/
def queueChecked (s1 : State) (g n : Nat) (c : AgCmd) (span : Option (Nat × Nat)) : Effect :=
  match span with
  | none => .done (nextCommand (queueCmd s1 g n c) g) 0
  | some (lo, hi) =>
    match checkWrites s1 g n c.supervisor (spanPages lo hi) with
    | (s, { denied := none, .. }) => .done (nextCommand (queueCmd s g n c) g) 0
    | (_, { denied := some (k, va), .. }) => .cause k (BitVec.ofNat 64 va) 0

/-- The span of addresses that an affine write stream over GLOBAL can write; none for another stream. -/
def writeSpan (x : Staging) : Option (Nat × Nat) :=
  if x.inbound && isGlobal x.base then some ((patternSpan x).1.toNat, (patternSpan x).2.toNat) else none

/-- Gives a class-3 cause raised at a stream command's issue its fault record (R344, R346). -/
def withRecord (s0 : State) (o : Host.Outcome State Fault Refusal) (effect : Effect) : Host.Outcome State Fault Refusal :=
  match effect, o with
  | .cause k va _, .next s => if k / 64 = 3 && !s0.supervising then .next (commandFault { s with cur := s0.cur } k va.toNat) else .next s
  | _, o => o

/-- Issues a stream command. -/
def streamWord (i : Instr) (s : State) (effect : State → State → Effect) : Host.Outcome State Fault Refusal :=
  if issuable s i then withRecord s (issueWord i s effect) (effect s (issued s i)) else issueWord i s effect

/-- sbind: the staging base, channel and direction; a GLOBAL base is translated and its extent patched (R225, R343). -/
def execSbind (t a : BitVec 6) (ag : BitVec 9) (ch : BitVec 5) (inb sector : BitVec 1) (s : State) : Host.Outcome State Fault Refusal :=
  streamWord (.sbind t a ag ch inb sector) s (fun s0 s1 =>
    let g := curGrove s0
    let n := ag.toNat
    let v := valOf s0 a
    let put (s : State) : State := s.modGrove g (fun x => x.setAg n { x.ag n with
      staging := { (x.ag n).staging with base := v, ch := ch, inbound := inb == 1, sector := sector == 1 } })
    if isGlobal v then
      match patchExtent s1 g n v.toNat with
      | (s, .ok _) => .done (put s) 0
      | (_, .error k) => .cause k v 0
    else .done (put s1) 0)

/-- sgo (R226). -/
def execSgo (t : BitVec 6) (ag : BitVec 9) (k : BitVec 2) (push : BitVec 1) (pfifo : BitVec 4) (pop : BitVec 1) (qfifo : BitVec 4) (s : State) : Host.Outcome State Fault Refusal :=
  streamWord (.sgo t ag k push pfifo pop qfifo) s (fun s0 s1 =>
    let g := curGrove s0
    let n := ag.toNat
    let c := newCmd s0 n (.affine k) push pfifo pop qfifo
    if !stagingOk s0 g n c.stage || (c.stage.inbound && k != 0) then .cause 0x14C 0 0
    else queueChecked s1 g n c (writeSpan c.stage))

/-- swait (R229). -/
def execSwait (t : BitVec 6) (ag : BitVec 9) (s : State) : Host.Outcome State Fault Refusal :=
  issueWord (.swait t ag) s (fun s0 s1 =>
    let g := curGrove s0
    .done (if agRetired s0 g ag.toNat then s1
      else s1.modGrove g (fun x => x.setBank { x.bank with hold := .streams ag.toNat })) 0)

/-- sbar: it issues once every earlier stream command of the grove has retired (R90). -/
def execSbar (t : BitVec 6) (s : State) : Host.Outcome State Fault Refusal :=
  issueWord (.sbar t) s (fun _ s1 => .done s1 0)

/-- Do the limits of a copy to a staging base hold (R225, R228)? -/
def copyOk (s : State) (g n : Nat) (src : Word) (dst : Staging) (len : Nat) : Bool :=
  decide (8 ≤ len) && decide (len ≤ 2 ^ 24) && len % 8 == 0 && src.toNat % 8 == 0 && reachable s g n src && stagingOk s g n dst

/-- scopy (R228); its GLOBAL source is patched and every GLOBAL page it writes is checked at issue (R343, R344). -/
def execScopy (t a b : BitVec 6) (ag : BitVec 9) (push : BitVec 1) (pfifo : BitVec 4) (pop : BitVec 1) (qfifo : BitVec 4) (s : State) : Host.Outcome State Fault Refusal :=
  streamWord (.scopy t a b ag push pfifo pop qfifo) s (fun s0 s1 =>
    let g := curGrove s0
    let n := ag.toNat
    let src := valOf s0 a
    let len := (valOf s0 b).toNat
    let c := newCmd s0 n (.copy src len) push pfifo pop qfifo
    if !copyOk s0 g n src c.stage len then .cause 0x14C 0 0
    else
      let patched := if isGlobal src then patchExtent s1 g n src.toNat else (s1, .ok { va := 0, pa := 0, size := 0, leaf := 0 })
      match patched with
      | (_, .error k) => .cause k src 0
      | (s, .ok _) => queueChecked s g n c
          (if isGlobal c.stage.base then some (c.stage.base.toNat, c.stage.base.toNat + len - 1) else none))

/-- sgath (R227). -/
def execSgath (t : BitVec 6) (ag : BitVec 9) (ch : BitVec 5) (fwdend push : BitVec 1) (pfifo : BitVec 4) (pop : BitVec 1) (qfifo : BitVec 4) (s : State) : Host.Outcome State Fault Refusal :=
  streamWord (.sgath t ag ch fwdend push pfifo pop qfifo) s (fun s0 s1 =>
    let g := curGrove s0
    let n := ag.toNat
    let c := newCmd s0 n (.gather ch (fwdend == 1)) push pfifo pop qfifo
    if !stagingOk s0 g n c.stage || c.stage.inbound then .cause 0x14C 0 0 else queueChecked s1 g n c none)

/-- sscat (R227). -/
def execSscat (t : BitVec 6) (ag : BitVec 9) (ch : BitVec 5) (push : BitVec 1) (pfifo : BitVec 4) (pop : BitVec 1) (qfifo : BitVec 4) (s : State) : Host.Outcome State Fault Refusal :=
  streamWord (.sscat t ag ch push pfifo pop qfifo) s (fun s0 s1 =>
    let g := curGrove s0
    let n := ag.toNat
    let c := newCmd s0 n (.scatter ch) push pfifo pop qfifo
    if !stagingOk s0 g n c.stage || !c.stage.inbound then .cause 0x14C 0 0 else queueChecked s1 g n c none)

/-- The sparse set descriptor of an AG pair (R230). -/
def pairDesc (s : State) (g n : Nat) : Option Desc :=
  if n % 2 = 1 then none
  else ((s.elem (agElem g n)).active.node.find? (fun d => wbits d.2.w0 28 4 == 7 && wbits d.2.w0 27 1 == n % 4 / 2)).map (fun d => d.2)

/-- sisect and smerge: the command takes a place in both queues of the pair; its flags stand with the first AG's copy (R90, R231). -/
def pairWord (i : Instr) (s : State) (d : BitVec 6) (ag : BitVec 9) (merge : Bool) (push : BitVec 1) (pfifo : BitVec 4) (pop : BitVec 1) (qfifo : BitVec 4) : Host.Outcome State Fault Refusal :=
  streamWord i s (fun s0 s1 =>
    let g := curGrove s0
    let n := ag.toNat
    let a := newCmd s0 n (.set merge true d) push pfifo pop qfifo
    let b := newCmd s0 (n + 1) (.set merge false d) 0 0 0 0
    if (pairDesc s0 g n).isNone then .cause 0x14E 0 0
    else if !stagingOk s0 g n a.stage || !stagingOk s0 g (n + 1) b.stage || a.stage.inbound || b.stage.inbound then .cause 0x14C 0 0
    else .done (nextCommand (queueCmd (queueCmd s1 g n a) g (n + 1) b) g) 0)

/-- sisect (R231). -/
def execSisect (t d : BitVec 6) (ag : BitVec 9) (push : BitVec 1) (pfifo : BitVec 4) (pop : BitVec 1) (qfifo : BitVec 4) (s : State) : Host.Outcome State Fault Refusal :=
  pairWord (.sisect t d ag push pfifo pop qfifo) s d ag false push pfifo pop qfifo

/-- smerge (R231). -/
def execSmerge (t d : BitVec 6) (ag : BitVec 9) (push : BitVec 1) (pfifo : BitVec 4) (pop : BitVec 1) (qfifo : BitVec 4) (s : State) : Host.Outcome State Fault Refusal :=
  pairWord (.smerge t d ag push pfifo pop qfifo) s d ag true push pfifo pop qfifo

end Sys2Proof.Machine
end

