-- ==== Sys2Proof/Machine/AgMoves.lean ====
section
/-! DEFINITION. Moves of the address generators (R90, R223 to R233): starting and charging, accesses, enqueueing, the sparse set unit, retiring. -/

namespace Sys2Proof.Machine

/-- The head command of an AG. -/
def headCmd (s : State) (g n : Nat) : Option AgCmd := ((s.grove g).ag n).queue.head?

/-- Changes the head command of an AG. -/
def modHead (s : State) (g n : Nat) (f : AgCmd → AgCmd) : State :=
  s.modGrove g (fun x => x.setAg n { x.ag n with queue := match (x.ag n).queue with
    | c :: cs => f c :: cs
    | [] => [] })

/-- Requests of an AG that have not been performed. -/
def agPending (s : State) (g n : Nat) : Bool := s.reqs.any (fun r => r.2.src == .ag g n && !performed s r.1)

/-- Requests of an AG, answered ones whose reply is on its way among them. -/
def agRequests (s : State) (g n : Nat) : Bool := s.reqs.any (fun r => r.2.src == .ag g n)

/-- Bytes of one access of a copy's source and destination (R228). -/
def copyUnit (a : Word) (len : Nat) : Nat := if isGlobal a && a.toNat % 64 == 0 && len % 64 == 0 then 64 else 8

/-- Reads that a copy makes before its writes: it buffers the whole length (R228). -/
def copyReads (src : Word) (len : Nat) : Nat := len / copyUnit src len

/-- Accesses of a command; none where an end mark ends it (R227). -/
def totalAccesses (c : AgCmd) : Option Nat :=
  match c.kind with
  | .affine _ => some (if bySector c.stage then patternWords c.stage / 8 else patternWords c.stage)
  | .set _ _ _ => some (if bySector c.stage then patternWords c.stage / 8 else patternWords c.stage)
  | .copy src len => some (copyReads src len + len / copyUnit c.stage.base len)
  | _ => none

/-- Has a command made its last access? -/
def accessesMade (c : AgCmd) : Bool :=
  c.ended || (match totalAccesses c with
    | some n => decide (n ≤ c.next)
    | none => false)

/-- Bytes of access i of a command. -/
def accessSize (c : AgCmd) (i : Nat) : Nat :=
  match c.kind with
  | .affine _ => if bySector c.stage then 64 else 8
  | .set _ _ _ => if bySector c.stage then 64 else 8
  | .copy src len => if i < copyReads src len then copyUnit src len else copyUnit c.stage.base len
  | _ => 8

/-- Does access i of a command write? -/
def accessWrites (c : AgCmd) (i : Nat) : Bool :=
  match c.kind with
  | .affine _ => c.stage.inbound
  | .scatter _ => true
  | .copy src len => decide (copyReads src len ≤ i)
  | _ => false

/-- Address of access i of a command whose pattern fixes it. -/
def plannedAddr (c : AgCmd) (i : Nat) : Word :=
  match c.kind with
  | .copy src len =>
    if i < copyReads src len then src + BitVec.ofNat 64 (i * copyUnit src len)
    else c.stage.base + BitVec.ofNat 64 ((i - copyReads src len) * copyUnit c.stage.base len)
  | _ => if bySector c.stage then patternAddr c.stage (8 * i) else patternAddr c.stage i

/-- Cost of one access of an AG (R161, R183, R225): its own element's banks, or GLOBAL. -/
def agAccessCost (s : State) (g n : Nat) (size : Nat) (a : Word) : Nat :=
  if isGlobal a then (if size = 64 then 1280 else 320) + 256 * leafHops s (.ag g n) a.toNat else 2

/-- Accesses of a command from i to the end of its burst (R223). -/
def burstAccesses (c : AgCmd) (i : Nat) : List Nat :=
  let stop := (i / 16 + 1) * 16
  let stop := match totalAccesses c with
    | some n => min stop n
    | none => stop
  (List.range (stop - i)).map (· + i)

/-- Cost of the burst that starts at access i. An indexed command's accesses are charged at the class of its base. -/
def burstCost (s : State) (g n : Nat) (c : AgCmd) (i : Nat) : Nat :=
  (burstAccesses c i).foldl (fun m j => m + (match totalAccesses c with
    | some _ => agAccessCost s g n (accessSize c j) (plannedAddr c j)
    | none => agAccessCost s g n 8 c.stage.base)) 0

/-- A cause raised by an AG access, with its fault record and its extent dropped for a translation cause (R232, R347, R352). -/
def agFault (s : State) (g n k : Nat) (a : Word) (write : Bool) : State :=
  let s := if k / 64 = 3 then
      dropExtent (recordFault s g (faultKind (.ag g n) write) k a.toNat (unitCtx s (.ag g n))) g n a.toNat
    else s
  raiseAg s g n k a

/-- Does a command take the data that it writes from a channel: a write stream or a scatter (R226, R227)? A copy reads memory, whatever its staging was bound to (R228). -/
def takesData (c : AgCmd) : Bool :=
  match c.kind with
  | .affine _ => c.stage.inbound
  | .scatter _ => true
  | _ => false

/-- Channels that a command takes tokens from: of a write stream its data, of a gather its indices, of a scatter both (R226, R227). -/
def cmdReads (c : AgCmd) : List Nat :=
  (if takesData c then [c.stage.ch.toNat] else []) ++ (match c.kind with
    | .gather ch _ => [ch.toNat]
    | .scatter ch => [ch.toNat]
    | _ => [])

/-- Does a command take tokens, so that a wave stops it at the marker in its channel and not at a burst boundary (R365, R366)? -/
def readsChannel (c : AgCmd) : Bool := !(cmdReads c).isEmpty

/-- Is a checkpoint or drain wave in progress over a grove (R365)? -/
def waveHere (s : State) (g : Nat) : Bool :=
  match (s.taskOfGrove g).bind (fun t => (s.task t).wave) with
  | some .checkpoint => true
  | some .drain => true
  | _ => false

/-- Does a checkpoint or drain wave let an AG go on at its element's point: a write stream or scatter, up to the marker in its channel (R366)? -/
def drainsOn (s : State) (g : Nat) (c : AgCmd) : Bool := takesData c && waveHere s g

/-- Bank of its own element that an address of an AG lies in, as a port (R90). -/
def portAt (s : State) (g n : Nat) (a : Word) : Option Nat := (ownBank s g n a).map (· / 0x10000)

/-- Has a command no access more to make? A sparse set command reads nothing after its merge has ended (R231). -/
def noneLeft (s : State) (g n : Nat) (c : AgCmd) : Bool :=
  accessesMade c || (match c.kind with
    | .set _ true _ => c.phase != 0
    | .set _ false _ => (match headCmd s g (n - 1) with
      | some a => a.phase != 0
      | none => true)
    | _ => false)

/-- Has a command accesses to a port to make, from its access i on (R90)? An indexed command is bound to the port of its base; the accesses it makes elsewhere are known only as it makes them (assumption 30). -/
def reachesPort (s : State) (g n : Nat) (c : AgCmd) (i p : Nat) : Bool :=
  match totalAccesses c with
  | some t => (List.range (t - i)).any (fun j => portAt s g n (plannedAddr c (i + j)) == some p)
  | none => portAt s g n c.stage.base == some p

/-- Bank ports that a command is bound to (R90). -/
def boundPorts (s : State) (g n : Nat) (c : AgCmd) : List Nat := (List.range 6).filter (reachesPort s g n c 0)

/-- The commands of a grove that were issued before a command of an AG and could access its element's banks, with their AGs (R90). -/
def earlierCmds (s : State) (g n order : Nat) : List (Nat × AgCmd) :=
  (s.grove g).ags.flatMap (fun a => if a.1 / 4 = n / 4 then (a.2.queue.filter (fun d => decide (d.order < order))).map (fun d => (a.1, d)) else [])

/-- Has an earlier command all its accesses to a port performed (R90)? -/
def portDone (s : State) (g p : Nat) (d : Nat × AgCmd) : Bool :=
  (noneLeft s g d.1 d.2 || !reachesPort s g d.1 d.2 d.2.next p) &&
  !(d.2.started && s.reqs.any (fun r => r.2.src == .ag g d.1 && (match r.2.target with
    | .bank _ off => off / 0x10000 == p
    | _ => false) && !performed s r.1))

/-- May the head command of an AG access an address: has each earlier command its accesses to that port performed (R90)? -/
def portFree (s : State) (g n : Nat) (c : AgCmd) (a : Word) : Bool :=
  match portAt s g n a with
  | some p => (earlierCmds s g n c.order).all (portDone s g p)
  | none => true

/-- May a command issue from its queue as far as the port scoreboard goes: is each earlier command on a common port issued (R90)? -/
def portsClear (s : State) (g n : Nat) (c : AgCmd) : Bool :=
  (earlierCmds s g n c.order).all (fun d => d.2.started || !(boundPorts s g d.1 d.2).any (fun p => (boundPorts s g n c).contains p))

/-- Takes the cost of the burst of the next access if it is not taken (R184, R223): the state, and whether it is taken. -/
def payBurst (s : State) (g n : Nat) (c : AgCmd) : State × Bool :=
  if c.next < c.charged then (s, true)
  else if ((s.grove g).ag n).paused || (!readsChannel c && (s.grove g).atPoint) then (s, false)
  else
    let cost := burstCost s g n c c.next
    let s' := modHead s g n (fun c => { c with charged := c.next + (burstAccesses c c.next).length })
    if c.supervisor then (s', true)
    else if canPay s g cost then (pay s' g cost, true)
    else (refuse s g cost, false)

/-- Checks the GLOBAL writes of a burst before its first access, and keeps the extents that they go through; one that is denied stops the AG there, and no write of the burst is made (R345). -/
def checkBurst (s : State) (g n : Nat) (c : AgCmd) (writes : List Word) : State × Bool :=
  if c.next < c.checked then (s, true)
  else match checkWrites s g n c.supervisor ((writes.filter isGlobal).map BitVec.toNat) with
    | (s, { denied := some (k, va), .. }) => (agFault s g n k (BitVec.ofNat 64 va) true, false)
    | (s, { denied := none, leaves }) => (modHead s g n (fun c => { c with checked := c.charged, leaves := leaves }), true)

/-- The writes of the burst of the next access of a command whose pattern fixes them (R345). -/
def burstWrites (c : AgCmd) : List Word := ((burstAccesses c c.next).filter (accessWrites c)).map (plannedAddr c)

/-- Starts the burst of the next access if it has not started, and holds an access, at an address or of a token that takes none, for its port (R90, R184, R223, R345): the state, and whether the access may be made. -/
def startBurst (s : State) (g n : Nat) (c : AgCmd) (a : Option Word) : State × Bool :=
  if !(match a with
    | some a => portFree s g n c a
    | none => true) then (s, false)
  else match payBurst s g n c with
    | (s, false) => (s, false)
    | (s, true) => if (totalAccesses c).isNone then (s, true) else
      match headCmd s g n with
      | some c => checkBurst s g n c (burstWrites c)
      | none => (s, false)

/-- Target of one AG access with the extent it goes through, or its cause (R225, R232, R342). -/
def agTarget (s : State) (g n : Nat) (a : Word) (write sup : Bool) : State × Except Nat (Target × Option Extent) :=
  if a.toNat % 8 ≠ 0 then (s, .error 0x081)
  else match resolveAddr s (.ag g n) a.toNat with
  | none => (s, .error 0x080)
  | some (.bank e off) => (s, if e = agElem g n then .ok (.bank e off, none) else .error 0x080)
  | some (.global va) =>
    match agTranslate s g n va write sup with
    | (s, .ok (t, x)) => (s, .ok (t, some x))
    | (s, .error k) => (s, .error k)

/-- Target of the next access of a command: a write of a checked burst goes through the extent that it was checked under (R345, R355). -/
def accessTarget (s : State) (g n : Nat) (c : AgCmd) (a : Word) : State × Except Nat (Target × Option Extent) :=
  match (if accessWrites c c.next && decide (c.next < c.checked) && isGlobal a && a.toNat % 8 == 0 then c.leaves.find? (extentHit (some a.toNat)) else none) with
  | some x => (s, .ok (extentTarget s (unitPart s (.ag g n)) x a.toNat, some x))
  | none => agTarget s g n a (accessWrites c c.next) c.supervisor

/-- Is access i of a command part of a supervisor copy between two SA pages, both of whole sectors at 64-aligned addresses, which carries sector metadata (R389)? Where the length is no multiple of 64, the words of the sectors that are copied whole carry it. -/
def carriesMeta (s : State) (g n : Nat) (c : AgCmd) (i : Nat) : Bool :=
  match c.kind with
  | .copy src len =>
    let off := (if i < copyReads src len then i * copyUnit src len else (i - copyReads src len) * copyUnit c.stage.base len) / 64 * 64
    let sa (a : Word) : Bool := isGlobal a && a.toNat % 64 == 0 && (match leafOf s (.ag g n) (a.toNat + off) with
      | .ok (leaf, _) => !leafPL leaf
      | .error _ => false)
    c.supervisor && decide (off + 64 ≤ len) && sa src && sa c.stage.base
  | _ => false

/-- The metadata that a write of such a copy carries. -/
def metaToWrite (c : AgCmd) (i : Nat) : Option SectorMeta :=
  match c.kind with
  | .copy src len => mfind c.metas (i - copyReads src len)
  | _ => none

/-- Makes one access of the head command, which is progress (R63): its request is sent, or its cause stops the AG (R232). The second value says whether it was made. -/
def makeAccess (s : State) (g n : Nat) (c : AgCmd) (a : Word) (words : List (Option Word)) : State × Bool :=
  let write := accessWrites c c.next
  match accessTarget s g n c a with
  | (s, .error k) => (agFault s g n k a write, false)
  | (s, .ok (t, x)) =>
    let q : Req :=
      { src := .ag g n, supervisor := c.supervisor, tag := c.tag, kind := (if write then .store else .load false)
        addr := a.toNat, size := accessSize c c.next, data := (words.headD none).getD 0, sectorWords := words, target := t
        scope := targetScope (.ag g n) t, pl := (x.map (fun x => leafPL x.leaf)).getD false, key := x.map (fun x => leafKey x.leaf), page := (x.map Extent.va).getD 0, pageSize := (x.map Extent.size).getD 0
        pos := c.next, since := s.tb.toNat
        carry := !write && carriesMeta s g n c c.next, sectorMeta := (if write && carriesMeta s g n c c.next then metaToWrite c c.next else none) }
    let r := s.nextReq
    (noteStep (modHead (sendReq ({ s with nextReq := r + 1 }.setReq r q) r) g n (fun c => { c with next := c.next + 1 })) g, true)

/-- The AGs whose queues a command heads: one, or the pair of a sparse set command. -/
def cmdAgs (n : Nat) (c : AgCmd) : List Nat :=
  match c.kind with
  | .set _ true _ => [n, n + 1]
  | .set _ false _ => [n - 1, n]
  | _ => [n]

/-- Starts the head command of an AG when it heads every queue it is in, its ports are clear and its sync-FIFO token is there (R90, R223, R231). A command of a pair has its flags in the first AG's copy. -/
def startCmd (s : State) (g n : Nat) : State :=
  match headCmd s g n, ((headCmd s g n).map (cmdAgs n)).bind (fun l => headCmd s g (l.headD n)) with
  | some d, some c =>
    if d.started then s
    else
      let heads := (cmdAgs n d).all (fun m => match headCmd s g m with
        | some x => x.order == d.order && portsClear s g m x
        | none => false)
      let tokens := match c.pop with
        | some f => decide (0 < mget 0 (s.grove g).fifos f.toNat)
        | none => true
      if heads && tokens then
        let s := match c.pop with
          | some f => s.modGrove g (fun x => { x with fifos := mset x.fifos f.toNat (mget 0 x.fifos f.toNat - 1) })
          | none => s
        (cmdAgs n d).foldl (fun s m => modHead s g m (fun x => { x with started := true })) s
      else s
  | _, _ => s

/-- Rank of the mark that a read stream adds after word i of its pattern, counted from 1 (R226); 0 is none. -/
def addedMark (k c0 c1 total i : Nat) : Nat :=
  if k = 0 then 0
  else if i = total then 3
  else if k ≠ 2 then 0
  else if i % (c0 * c1) = 0 then 2
  else if i % c0 = 0 then 1 else 0

/-- Frame of word i of a read stream, counted from 1 (R57, R226): single 0, head 1, middle 2, tail 3. -/
def wordFrame (k c0 i : Nat) : Nat :=
  if k ≠ 3 ∨ c0 = 1 then 0 else if i % c0 = 1 then 1 else if i % c0 = 0 then 3 else 2

/-- The token that the head command enqueues next on its outbound channel, and the command after it (R226, R227). -/
def nextToken (c : AgCmd) : Option (Token × AgCmd) :=
  match c.kind with
  | .affine k =>
    if c.stage.inbound then none
    else match c.index with
      | some t => some (t, { c with index := none })
      | none => match mfind c.replies c.sent with
        | none => none
        | some w =>
          let i := c.sent + 1
          let m := addedMark k.toNat (countOf c.stage 0) (countOf c.stage 1) (patternWords c.stage) i
          some ({ payload := w.getD 0, frame := BitVec.ofNat 2 (wordFrame k.toNat (countOf c.stage 0) i) },
            { c with sent := i, replies := merase c.replies c.sent, index := if m = 0 then none else some { mark := BitVec.ofNat 3 m } })
  | .gather _ _ =>
    match mfind c.replies c.sent with
    | some w => some (match w with
      | some v => { payload := v }
      | none => { pres := false }, { c with sent := c.sent + 1, replies := merase c.replies c.sent })
    | none =>
      if c.ended && c.sent == c.next then c.index.map (fun t => (t, { c with index := none })) else none
  | _ => none

/-- Does a checkpoint or drain wave let a read command go on at its element's point: up to the first burst boundary after its grove's sequencer has reached its entry point (R365)? -/
def readsOn (s : State) (g n : Nat) (c : AgCmd) : Bool :=
  !takesData c && waveHere s g && (!(s.grove g).atPoint || !atBoundary ((s.grove g).ag n) || (nextToken c).isSome)

/-- May an AG move: not stopped (R232), its command started, and its element not at its freeze or wave point unless the wave lets it run to its own (R233, R365, R366)? -/
def agRuns (s : State) (g n : Nat) : Bool :=
  !((s.grove g).ag n).stopped && !atFloor s g && (match headCmd s g n with
    | some c => c.started && (!(s.elem (agElem g n)).frozen || drainsOn s g c || readsOn s g n c)
    | none => false)

/-- Enqueues the next token of the head command, if it has one and room (R226). -/
def agEnqueue (s : State) (g n : Nat) (c : AgCmd) : Option State :=
  match nextToken c with
  | none => none
  | some (t, c') =>
    let e := agElem g n
    if hasRoom s e c.stage.ch.toNat [] then some (noteStep (enqueue (modHead s g n (fun _ => c')) e c.stage.ch.toNat 4 t) g) else none

/-- One read access of a pattern or copy. -/
def readStep (s : State) (g n : Nat) (c : AgCmd) : State :=
  if accessesMade c then s
  else match startBurst s g n c (some (plannedAddr c c.next)) with
    | (s, false) => s
    | (s, true) => match headCmd s g n with
      | some c => (makeAccess s g n c (plannedAddr c c.next) []).1
      | none => s

/-- Words that write access i of a copy moves, once its reads have been answered (R228). -/
def copyWords (c : AgCmd) (i : Nat) : List (Option Word) :=
  match c.kind with
  | .copy src len =>
    let u := copyUnit c.stage.base len / 8
    (List.range u).map (fun j => (mget none c.replies ((i - copyReads src len) * u + j)))
  | _ => []

/-- One access of a copy: its reads, then its writes. -/
def copyStep (s : State) (g n : Nat) (c : AgCmd) : State :=
  if accessesMade c then s
  else if !accessWrites c c.next then readStep s g n c
  else if agRequests s g n && !(match c.kind with
      | .copy src len => decide (copyReads src len < c.next)
      | _ => false) then s
  else match startBurst s g n c (some (plannedAddr c c.next)) with
    | (s, false) => s
    | (s, true) => match headCmd s g n with
      | some c => (makeAccess s g n c (plannedAddr c c.next) (copyWords c c.next)).1
      | none => s

/-- An AG takes the head of a channel. It is no firing and no node, so a mark that it consumes moves no armed swap (R265). -/
def agTake (s : State) (e ch : Nat) : State :=
  let passed := (s.elem e).passed
  (takeHead s e ch none).modElem e (fun x => { x with passed := passed })

/-- Takes a token of a write stream's channel; the stream owes its end mark from its first data or absent token on (R27), and taking a token is progress (R63). -/
def takeToken (s : State) (g e ch : Nat) (t : Token) : State :=
  let s := noteStep (agTake s e ch) g
  let k := mIndex e * 32 + ch
  if t.isData then s.modGrove g (fun x => { x with exits := if x.exits.contains k then x.exits else x.exits ++ [k] }) else s

/-- Writes the words a sector write stream has collected (R225, R226); where every token was absent nothing is written. -/
def flushSector (s : State) (g n : Nat) : State × Bool :=
  match headCmd s g n with
  | none => (s, false)
  | some c =>
    if c.buffer.all Option.isNone then (modHead s g n (fun c => { c with buffer := [], next := c.next + 1 }), true)
    else match makeAccess s g n c (plannedAddr c c.next) c.buffer with
    | (s, true) => (modHead s g n (fun c => { c with buffer := [] }), true)
    | r => r

/-- One token of an affine write stream (R226). A sector write is made when its eight words are taken, or at the end mark. -/
def writeStep (s : State) (g n : Nat) (c : AgCmd) : State :=
  let e := agElem g n
  let ch := c.stage.ch.toNat
  if accessesMade c then s
  else if bySector c.stage && c.buffer.length == 8 then (flushSector s g n).1
  else match headOf s e ch with
    | none => s
    | some t =>
      if t.isWave then s
      else if t.mark = 3 then
        let finish (s : State) : State := modHead (takeToken s g e ch t) g n (fun c => { c with ended := true })
        if c.buffer.isEmpty then finish s
        else match flushSector s g n with
          | (s, true) => finish s
          | (s, false) => s
      else if t.isEnd then takeToken s g e ch t
      else match startBurst s g n c (if t.pres then some (plannedAddr c c.next) else none) with
        | (s, false) => s
        | (s, true) =>
          let w := if t.pres then some t.payload else none
          if bySector c.stage then
            let s := modHead (takeToken s g e ch t) g n (fun c => { c with buffer := c.buffer ++ [w] })
            if c.buffer.length = 7 then (flushSector s g n).1 else s
          else match w, headCmd s g n with
            | some _, some c =>
              match makeAccess s g n c (plannedAddr c c.next) [w] with
              | (s, true) => takeToken s g e ch t
              | (s, false) => s
            | _, _ => modHead (takeToken s g e ch t) g n (fun c => { c with next := c.next + 1 })

/-- Address that an index names (R227). -/
def indexed (c : AgCmd) (t : Token) : Word := c.stage.base + 8 * t.payload

/-- One index of a gather (R227). -/
def gatherStep (s : State) (g n : Nat) (c : AgCmd) (ch : BitVec 5) (fwdend : Bool) : State :=
  let e := agElem g n
  if c.ended then s
  else match headOf s e ch.toNat with
    | none => s
    | some t =>
      if t.isWave then s
      else if t.mark = 3 then modHead (noteStep (agTake s e ch.toNat) g) g n (fun c => { c with ended := true, index := if fwdend then some t else none })
      else if t.isEnd then noteStep (agTake s e ch.toNat) g
      else match startBurst s g n c (if t.pres then some (indexed c t) else none) with
        | (s, false) => s
        | (s, true) => match headCmd s g n with
          | none => s
          | some c =>
            if t.pres then
              match makeAccess s g n c (indexed c t) [] with
              | (s, true) => agTake s e ch.toNat
              | (s, false) => s
            else modHead (noteStep (agTake s e ch.toNat) g) g n (fun c => { c with replies := mset c.replies c.next none, next := c.next + 1 })

/-- Writes the first of the pairs that a scatter has collected; before the first of a burst, all its addresses are checked (R345). -/
def flushPair (s : State) (g n : Nat) (c : AgCmd) : State :=
  match c.pairs with
  | [] => s
  | none :: ps => noteStep (modHead s g n (fun c => { c with pairs := ps, next := c.next + 1 })) g
  | some (a, v) :: ps =>
    if portFree s g n c a then
      match checkBurst s g n c (c.pairs.filterMap (fun p => p.map (fun p => p.1))) with
      | (s, false) => s
      | (s, true) => match makeAccess s g n c a [some v] with
        | (s, true) => modHead s g n (fun c => { c with pairs := ps })
        | (s, false) => s
    else s

/-- Are the pairs that a scatter has collected to be written: into the banks each at once, and into GLOBAL memory those of a burst together, once the burst or the command has all of its pairs (R227, R345)? -/
def pairsDue (c : AgCmd) : Bool := !c.pairs.isEmpty && (c.ended || !isGlobal c.stage.base || decide (c.charged ≤ c.next + c.pairs.length))

/-- One pair of a scatter (R227). -/
def scatterStep (s : State) (g n : Nat) (c : AgCmd) (ch : BitVec 5) : State :=
  let e := agElem g n
  let dch := c.stage.ch.toNat
  if pairsDue c then flushPair s g n c
  else if c.ended then s
  else match headOf s e ch.toNat, headOf s e dch with
    | some i, some d =>
      if i.isWave || d.isWave then s
      else if i.isEnd && i.mark != 3 then noteStep (agTake s e ch.toNat) g
      else if d.isEnd && d.mark != 3 then takeToken s g e dch d
      else if i.mark = 3 then
        if d.mark = 3 then modHead (takeToken (agTake s e ch.toNat) g e dch d) g n (fun c => { c with ended := true })
        else raiseAg s g n 0x14D 0
      else if d.mark = 3 then s
      else if !c.pairs.isEmpty && decide (c.next + c.pairs.length < c.charged) then collect s i d c
      else match payBurst s g n c with
        | (s, false) => s
        | (s, true) => match headCmd s g n with
          | none => s
          | some c => collect s i d c
    | _, _ => s
where
  /-- Takes a pair of tokens. -/
  collect (s : State) (i d : Token) (c : AgCmd) : State :=
    let e := agElem g n
    modHead (takeToken (agTake s e ch.toNat) g e c.stage.ch.toNat d) g n (fun c =>
      { c with pairs := c.pairs ++ [if i.pres && d.pres then some (indexed c i, d.payload) else none] })

/-- Does a stream of a sparse set command want its next key read (R231)? -/
def wantsKey (s : State) (g n : Nat) (c : AgCmd) : Bool :=
  match c.kind with
  | .set merge first _ =>
    c.key.isNone && !c.exhausted && (mfind c.replies c.sent).isNone && !agRequests s g n &&
    (if first then c.phase == 0
     else match headCmd s g (n - 1) with
       | some a => a.phase == 0 && (a.key.isSome || (a.exhausted && merge))
       | none => false)
  | _ => false

/-- One access of the head command of an AG. -/
def agStep (s : State) (g n : Nat) (c : AgCmd) : State :=
  match c.kind with
  | .affine _ => if c.stage.inbound then writeStep s g n c else readStep s g n c
  | .gather ch fwdend => gatherStep s g n c ch fwdend
  | .scatter ch => scatterStep s g n c ch
  | .copy _ _ => copyStep s g n c
  | .set _ _ _ => if wantsKey s g n c then readStep s g n c else s

/-- agAccess: the head command starts, enqueues a token that is due, or makes an access (M7, R223 to R228). -/
def execAgAccess (g ag : Nat) (s : State) : Host.Outcome State Fault Refusal :=
  .next (
    let s := startCmd s g ag
    if agRuns s g ag then
      match headCmd s g ag with
      | none => s
      | some c => match agEnqueue s g ag c with
        | some s => s
        | none => agStep s g ag c
    else s)

/-- Keys that a reply of a sector or word read gives, from its position on. -/
def replyWords (q : Req) (v : Word) : List (Option Word) := if q.size = 64 then q.sectorWords else [some v]

/-- Stores the words of a read in the command it belongs to, from the word its access starts at. -/
def storeReply (s : State) (g n : Nat) (q : Req) (v : Word) : State :=
  modHead s g n (fun c =>
    let first := if q.size = 64 then 8 * q.pos else q.pos
    { c with metas := (match q.sectorMeta with
        | some m => mset c.metas q.pos m
        | none => c.metas), replies := (replyWords q v).zipIdx.foldl (fun m w => mset m (first + w.2) w.1) c.replies })

/-- A stream of a sparse set command takes its next key, or finds its list exhausted: none when nothing can be taken, and the second value when the keys are out of order (R231). -/
def takeKey (c : AgCmd) : Option (AgCmd × Bool) :=
  if c.key.isSome || c.exhausted then none
  else match mfind c.replies c.sent with
    | some w =>
      let v := w.getD 0
      let bad := match c.last with
        | some u => v.ule u
        | none => false
      some ({ c with key := some v, last := some v, sent := c.sent + 1, replies := merase c.replies c.sent }, bad)
    | none => if accessesMade c && decide (patternWords c.stage ≤ c.sent) then some ({ c with exhausted := true }, false) else none

/-- Emits a token of a sparse set command at a cost, if it has room and the cost (R231). -/
def emitKey (s : State) (g n : Nat) (och : Nat) (sup : Bool) (t : Token) (cost : Nat) : Option State :=
  let e := agElem g n
  let cost := if t.isData then cost + pathCost s e och else 0
  if !hasRoom s e och [] then none
  else if sup || cost = 0 then some (enqueue s e och 4 t)
  else if canPay s g cost then some (enqueue (pay s g cost) e och 4 t)
  else none

/-- The refusal of a sparse set unit's emit, if it has room but not the cost. -/
def refuseEmit (s : State) (g n och : Nat) (sup : Bool) (cost : Nat) : State :=
  if hasRoom s (agElem g n) och [] && !sup then refuse s g (cost + pathCost s (agElem g n) och) else s

/-- A step of the merge of two key lists, both keys being there or their lists exhausted (R231). -/
def mergeStep (s : State) (g n : Nat) (d : Desc) (merge : Bool) (a b : AgCmd) : State :=
  let och := wbits d.w0 22 5
  let drop (x y : Bool) (s : State) : State :=
    modHead (modHead s g n (fun c => { c with key := if x then none else c.key })) g (n + 1) (fun c => { c with key := if y then none else c.key })
  let emit (v : Word) (x y : Bool) : State :=
    match emitKey s g n och a.supervisor { payload := v } 1 with
    | some s => noteStep (drop x y (modHead s g n (fun c => { c with count := c.count + 1 }))) g
    | none => refuseEmit s g n och a.supervisor 1
  match a.key, b.key with
  | some x, some y =>
    if x = y then emit x true true
    else if x.ult y then (if merge then emit x true false else noteStep (drop true false s) g)
    else (if merge then emit y false true else noteStep (drop false true s) g)
  | some x, none => if merge then emit x true false else modHead s g n (fun c => { c with phase := 1 })
  | none, some y => if merge then emit y false true else modHead s g n (fun c => { c with phase := 1 })
  | none, none => modHead s g n (fun c => { c with phase := 1 })

/-- The closing tokens of a sparse set command: the count, and end.3, each an advance of the unit (R63, R231). -/
def closeSet (s : State) (g n : Nat) (d : Desc) (a : AgCmd) : State :=
  let och := wbits d.w0 22 5
  if a.phase = 1 then
    if wbits d.w0 21 1 = 1 then
      match emitKey s g n och a.supervisor { payload := BitVec.ofNat 64 a.count } 1 with
      | some s => noteStep (modHead s g n (fun c => { c with phase := 2 })) g
      | none => refuseEmit s g n och a.supervisor 1
    else modHead s g n (fun c => { c with phase := 2 })
  else if a.phase = 2 then
    match emitKey s g n och a.supervisor { mark := 3 } 0 with
    | some s => noteStep (modHead s g n (fun c => { c with phase := 3 })) g
    | none => s
  else s

/-- Takes the key of one stream; a key out of order stops both AGs of the pair (R231). -/
def takeStep (s : State) (g n m : Nat) (c : AgCmd) : Option State :=
  match takeKey c with
  | none => none
  | some (c', bad) =>
    some (if bad then raiseAg (stopUnit s (.ag g (if m = n then n + 1 else n))) g m 0x14F 0 else noteStep (modHead s g m (fun _ => c')) g)

/-- sparseSetStep: the sparse set unit takes a key, compares and emits, or closes (R231). ag is the first AG of the pair. -/
def execSparseSetStep (g ag : Nat) (s : State) : Host.Outcome State Fault Refusal :=
  .next (
    let s := startCmd s g ag
    if agRuns s g ag && agRuns s g (ag + 1) then
      match headCmd s g ag, headCmd s g (ag + 1), pairDesc s g ag with
      | some a, some b, some d =>
        match a.kind with
        | .set merge true _ =>
          if a.phase = 0 then
            match takeStep s g ag ag a with
            | some s => s
            | none =>
              if a.key.isNone && !a.exhausted then s
              else if a.exhausted && !merge then modHead s g ag (fun c => { c with phase := 1 })
              else match takeStep s g ag (ag + 1) b with
                | some s => s
                | none => if b.key.isNone && !b.exhausted then s else mergeStep s g ag d merge a b
          else closeSet s g ag d a
        | _ => s
      | _, _, _ => s
    else s)

/-- Has the head command of an AG done everything (R223)? -/
def cmdDone (s : State) (g n : Nat) (c : AgCmd) : Bool :=
  !agRequests s g n && (match c.kind with
    | .affine _ => accessesMade c && (c.stage.inbound || (c.index.isNone && c.sent == patternWords c.stage)) && c.buffer.isEmpty
    | .gather _ _ => c.ended && c.sent == c.next && c.index.isNone
    | .scatter _ => c.ended && c.pairs.isEmpty
    | .copy _ _ => accessesMade c
    | .set _ first _ => first && c.phase == 3)

/-- Writes the result register of a sparse set command in the bank of its level (R231). -/
def setResult (s : State) (g : Nat) (c : AgCmd) (d : BitVec 6) : State :=
  let put (b : SeqBank) : SeqBank :=
    if d.toNat < 16 then { b with w := setAt b.w d.toNat (BitVec.ofNat 64 c.count) }
    else if 32 ≤ d.toNat ∧ d.toNat < 48 then { b with a := setAt b.a (d.toNat - 32) (BitVec.ofNat 64 c.count) }
    else b
  s.modGrove g (fun x => if c.supervisor then { x with superBank := put x.superBank } else { x with taskBank := put x.taskBank })

/-- streamCommandRetire: the head command leaves its queue and pushes its sync-FIFO token when that has room (R90, R223); a sequencer that waits for the AG goes on (R229). In a halted element the tokens that only this command was to read are discarded (R133). -/
def execStreamCommandRetire (g ag : Nat) (s : State) : Host.Outcome State Fault Refusal :=
  .next (match headCmd s g ag with
    | none => s
    | some c =>
      let room := match c.push with
        | some f => decide (mget 0 (s.grove g).fifos f.toNat < 15)
        | none => true
      if c.started && cmdDone s g ag c && (cmdAgs ag c).all (fun m => !agRequests s g m) && room then
        let s := match c.push with
          | some f => s.modGrove g (fun x => { x with fifos := mset x.fifos f.toNat (mget 0 x.fifos f.toNat + 1) })
          | none => s
        let s := (cmdAgs ag c).foldl (fun s m => s.modGrove g (fun x => x.setAg m { x.ag m with queue := (x.ag m).queue.drop 1 })) s
        let s := match c.kind with
          | .set _ _ d => setResult s g c d
          | _ => s
        let wake (b : SeqBank) : SeqBank := match b.hold with
          | .streams n => if agRetired s g n then { b with hold := .none } else b
          | _ => b
        discardQueued (s.modGrove g (fun x => { x with taskBank := wake x.taskBank, superBank := wake x.superBank })) (agElem g ag)
      else s)

end Sys2Proof.Machine
end

