-- ==== Sys2Proof/Machine/Memory.lean ====
section
/-! DEFINITION. Memory instructions (R161 to R167, R172): sending one access, its causes at issue, its absent form, and addresses in spaces. -/

namespace Sys2Proof.Machine

/-- The first word of the issuing instruction. -/
def curWord (s : State) : IWord :=
  match s.cur with
  | .slot e _ n => (s.elem e).active.slotWord n
  | .word g a => imemWord s g a

/-- Slot or word address of the issuing instruction. -/
def curSlot : Cur → Nat
  | .slot _ _ n => n
  | .word _ a => a

/-- A request of the issuing instruction (R161). -/
def newReq (s : State) (kind : ReqKind) (addr : Word) (size : Nat) : Req :=
  { src := curUnit s.cur, strand := issueStrand s, slot := curSlot s.cur, supervisor := s.supervising
    tag := (s.taskOfGrove (curGrove s)).getD 0, kind := kind, addr := addr.toNat, size := size, gen := curGen s, word := curWord s }

/-- A destination that a reply fills: an outbound channel's place is reserved (R162); code 16 discards. -/
def replyDest (s0 s1 : State) (d : BitVec 6) : State × Dest × Nat :=
  match s0.cur, chanOf s0 d with
  | .slot e k _, some ch =>
    let (s, tid) := reservePlace s1 e ch k.toNat (curGen s0)
    (s, .chan (BitVec.ofNat 5 ch), tid)
  | _, _ => (s1, if isRegister s0 d then .reg d else .none, 0)

/-- Sends one access, or raises its cause at issue. build makes the request from one with its address and size. -/
def access (s0 s1 : State) (a : Word) (size : Nat) (bankOnly : Bool) (kind : ReqKind) (build : Req → Req) : Effect :=
  match addressCause s0 a size bankOnly, resolveAddr s0 (curUnit s0.cur) a.toNat with
  | some k, _ => .cause k a 0
  | none, some c => .done (addReq s1 (build (newReq s0 kind a size)) c) 0
  | none, none => .cause 0x080 a 0

/-- A load (R161 to R163): without an address no request is sent and R69 gives the destination. -/
def loadOp (i : Instr) (s : State) (d a : BitVec 6) (off : Word) (size : Nat) (signed : Bool) : Host.Outcome State Fault Refusal :=
  issueWord i s (fun s0 s1 => match srcVal s0 a with
    | none => .done (writeDst s1 d none) 0
    | some v =>
      let (s2, dest, tid) := replyDest s0 s1 d
      access s0 s2 (v + off) size false (.load signed) (fun q => { q with dest := dest, tid := tid }))

/-- A store of the low bytes of a source (R161, R163). -/
def storeOp (i : Instr) (s : State) (d a : BitVec 6) (off : Word) (size : Nat) : Host.Outcome State Fault Refusal :=
  issueWord i s (fun s0 s1 => match srcVal s0 a, srcVal s0 d with
    | some v, some x => access s0 s1 (v + off) size false .store (fun q => { q with data := x })
    | _, _ => .done s1 0)

/-- Offset of the F-RRI memory forms (R163). -/
def wordOffset (i : BitVec 8) : Word := i.signExtend 64 * 8

/-- Bytes of a size code (R163). -/
def narrowSize (c : BitVec 6) : Nat := 2 ^ c.toNat

/-- ld (R163). -/
def execLd (t d a : BitVec 6) (i : BitVec 8) (s : State) : Host.Outcome State Fault Refusal :=
  loadOp (.ld t d a i) s d a (wordOffset i) 8 false

/-- st (R163). -/
def execSt (t d a : BitVec 6) (i : BitVec 8) (s : State) : Host.Outcome State Fault Refusal :=
  storeOp (.st t d a i) s d a (wordOffset i) 8

/-- ld.sb, ld.sh, ld.sw (R163). -/
def execLdS (t d a c : BitVec 6) (s : State) : Host.Outcome State Fault Refusal :=
  loadOp (.ldS t d a c) s d a 0 (narrowSize c) true

/-- ld.zb, ld.zh, ld.zw (R163). -/
def execLdZ (t d a c : BitVec 6) (s : State) : Host.Outcome State Fault Refusal :=
  loadOp (.ldZ t d a c) s d a 0 (narrowSize c) false

/-- st.b, st.h, st.w (R163). -/
def execStNarrow (t d a c : BitVec 6) (s : State) : Host.Outcome State Fault Refusal :=
  storeOp (.stNarrow t d a c) s d a 0 (narrowSize c)

/-- Sends an absent request to its destination (R99, R164); where that is the unknown one of its PRED request, it waits for that one. A page of no memory stands for the translation that it has no use for. -/
def sendAbsent (s : State) (q : Req) (t : Option Target) (p : Option PredRef) : State :=
  let r := s.nextReq
  let s := { s with nextReq := r + 1 }
  let q := { q with pred := p, since := s.tb.toNat }
  match t, p with
  | some t, _ =>
    let q := { q with target := t, scope := targetScope q.src t, page := 2 ^ 52, pageSize := 1 }
    noteChain (sendReq (s.setReq r q) r) r q
  | none, some p =>
    let q := { q with scope := 3, stage := .after p.req }
    noteChain (s.setReq r q) r q
  | none, none => s

/-- Absent form of a wave-ordered access (R164). -/
def absentAccess (s0 s1 : State) (a : BitVec 6) (write : Bool) (w : Wave) (dest : Dest) (tid : Nat) : Effect :=
  .done (sendAbsent s1 { newReq s0 .absent (valOf s0 a) 8 with wave := some w, dest := dest, tid := tid }
    (absentTarget s0 { addr := a, off := 0, atomic := false, pred := some w.pred, write := write } w.pred) (absentPred s0 w.pred)) 0

/-- ldg (R164). -/
def execLdg (t d a : BitVec 6) (seq pred succ : BitVec 8) (s : State) : Host.Outcome State Fault Refusal :=
  issueWord (.ldg t d a seq pred succ) s (fun s0 s1 =>
    let (s2, dest, tid) := replyDest s0 s1 d
    match srcVal s0 a with
    | none => absentAccess s0 s2 a false ⟨seq, pred, succ⟩ dest tid
    | some v => access s0 s2 v 8 false (.load false) (fun q => { q with wave := some ⟨seq, pred, succ⟩, dest := dest, tid := tid }))

/-- stg (R164). -/
def execStg (t d a : BitVec 6) (seq pred succ : BitVec 8) (s : State) : Host.Outcome State Fault Refusal :=
  issueWord (.stg t d a seq pred succ) s (fun s0 s1 =>
    match srcVal s0 a, srcVal s0 d with
    | some v, some x => access s0 s1 v 8 false .store (fun q => { q with wave := some ⟨seq, pred, succ⟩, data := x })
    | _, _ => absentAccess s0 s1 a true ⟨seq, pred, succ⟩ .none 0)

/-- A tile-tag operation (R166). -/
def tagOp (i : Instr) (s : State) (a : BitVec 6) (kind : ReqKind) : Host.Outcome State Fault Refusal :=
  issueWord i s (fun s0 s1 => match srcVal s0 a with
    | some v => access s0 s1 v 8 true kind id
    | none => .done s1 0)

/-- tfull (R166). -/
def execTfull (t a : BitVec 6) (s : State) : Host.Outcome State Fault Refusal := tagOp (.tfull t a) s a .tagFull

/-- tempty (R166). -/
def execTempty (t a : BitVec 6) (s : State) : Host.Outcome State Fault Refusal := tagOp (.tempty t a) s a .tagEmpty

/-- void (R167). -/
def execVoid (t a b : BitVec 6) (s : State) : Host.Outcome State Fault Refusal :=
  issueWord (.void t a b) s (fun s0 s1 => match srcVal s0 a, srcVal s0 b with
    | some v, some n => match rangeCause s0 v n.toNat with
      | some k => .cause k v 0
      | none => if n = 0 then .done s1 0 else access s0 s1 v 8 false (.void n.toNat) id
    | _, _ => .done s1 0)

/-- acc (R169). -/
def execAcc (t a b : BitVec 6) (s : State) : Host.Outcome State Fault Refusal :=
  issueWord (.acc t a b) s (fun s0 s1 => match srcVal s0 a, srcVal s0 b with
    | some v, some x => access s0 s1 v 8 true .contribute (fun q => { q with data := x })
    | _, _ => .done s1 0)

/-- First generic address of a space (R172). -/
def spaceBase (n : Nat) : Nat :=
  match n with
  | 0 => 0xFF0 * 2 ^ 52
  | 1 => 0xFF1 * 2 ^ 52
  | 2 => 0xFF2 * 2 ^ 52
  | _ => 0

/-- Number of relative values of a space that are valid for the issuing unit (R172). -/
def spaceSize (s : State) (n : Nat) : Nat :=
  match n with
  | 0 => match s.cur with
    | .slot _ _ _ => elemBytes
    | .word _ _ => 0
  | 1 => 128 * elemBytes
  | 2 => (unitRegion s (curUnit s.cur)).length * (256 * elemBytes)
  | _ => 2 ^ 52

/-- Is a generic address within a space, and valid (R172)? -/
def inSpace (s : State) (n : Nat) (a : Word) : Bool :=
  decide (spaceBase n ≤ a.toNat) && decide (a.toNat - spaceBase n < spaceSize s n)

/-- Conversion between a relative value and a generic address: it raises the aperture cause where the value is not valid (R172). -/
def convert (i : Instr) (s : State) (d a : BitVec 6) (ok : State → Word → Bool) (f : Word → Word) : Host.Outcome State Fault Refusal :=
  issueWord i s (fun s0 s1 => match srcVal s0 a with
    | none => .done (writeDst s1 d none) 0
    | some v => if ok s0 v then .done (writeDst s1 d (some (f v))) 0 else .cause 0x080 v 0)

/-- acvt.gen (R172). -/
def execAcvtGen (t d a b : BitVec 6) (s : State) : Host.Outcome State Fault Refusal :=
  convert (.acvtGen t d a b) s d a (fun s v => decide (v.toNat < spaceSize s b.toNat)) (fun v => v + BitVec.ofNat 64 (spaceBase b.toNat))

/-- acvt.rel (R172). -/
def execAcvtRel (t d a b : BitVec 6) (s : State) : Host.Outcome State Fault Refusal :=
  convert (.acvtRel t d a b) s d a (fun s v => inSpace s b.toNat v) (fun v => v - BitVec.ofNat 64 (spaceBase b.toNat))

/-- ain (R172); with an absent source the predicate is unchanged (R69). -/
def execAin (t : BitVec 6) (k : BitVec 3) (a b : BitVec 6) (s : State) : Host.Outcome State Fault Refusal :=
  issueWord (.ain t k a b) s (fun s0 s1 => match srcVal s0 a with
    | none => .done s1 0
    | some v => .done (setPred s1 k.toNat (inSpace s0 b.toNat v)) 0)

end Sys2Proof.Machine
end

