-- ==== Sys2Proof/Machine/Atomics.lean ====
section
/-! DEFINITION. Atomics (R168). -/

namespace Sys2Proof.Machine

/-- An atomic: its word, operand and, for acas, comparand (R168). -/
def atomicOp (i : Instr) (s : State) (d a b : BitVec 6) (op : AtomicOp) (cmp : State → Word) : Host.Outcome State Fault Refusal :=
  issueWord i s (fun s0 s1 => match srcVal s0 a, srcVal s0 b with
    | some v, some x =>
      let (s2, dest, tid) := replyDest s0 s1 d
      access s0 s2 v 8 true (.atomic op) (fun q => { q with data := x, cmp := cmp s0, dest := dest, tid := tid })
    | _, _ => .done (writeDst s1 d none) 0)

/-- aadd (R168). -/
def execAadd (t d a b : BitVec 6) (s : State) : Host.Outcome State Fault Refusal :=
  atomicOp (.aadd t d a b) s d a b .add (fun _ => 0)

/-- aaddf (R168). -/
def execAaddf (t d a b : BitVec 6) (s : State) : Host.Outcome State Fault Refusal :=
  atomicOp (.aaddf t d a b) s d a b .addf (fun _ => 0)

/-- amin (R168). -/
def execAmin (t d a b : BitVec 6) (s : State) : Host.Outcome State Fault Refusal :=
  atomicOp (.amin t d a b) s d a b .min (fun _ => 0)

/-- amax (R168). -/
def execAmax (t d a b : BitVec 6) (s : State) : Host.Outcome State Fault Refusal :=
  atomicOp (.amax t d a b) s d a b .max (fun _ => 0)

/-- aminu (R168). -/
def execAminu (t d a b : BitVec 6) (s : State) : Host.Outcome State Fault Refusal :=
  atomicOp (.aminu t d a b) s d a b .minu (fun _ => 0)

/-- amaxu (R168). -/
def execAmaxu (t d a b : BitVec 6) (s : State) : Host.Outcome State Fault Refusal :=
  atomicOp (.amaxu t d a b) s d a b .maxu (fun _ => 0)

/-- aand (R168). -/
def execAand (t d a b : BitVec 6) (s : State) : Host.Outcome State Fault Refusal :=
  atomicOp (.aand t d a b) s d a b .and (fun _ => 0)

/-- aor (R168). -/
def execAor (t d a b : BitVec 6) (s : State) : Host.Outcome State Fault Refusal :=
  atomicOp (.aor t d a b) s d a b .or (fun _ => 0)

/-- axch (R168). -/
def execAxch (t d a b : BitVec 6) (s : State) : Host.Outcome State Fault Refusal :=
  atomicOp (.axch t d a b) s d a b .xchg (fun _ => 0)

/-- acas: the comparand is register d at issue (R168). -/
def execAcas (t d a b : BitVec 6) (s : State) : Host.Outcome State Fault Refusal :=
  atomicOp (.acas t d a b) s d a b .cas (fun s => regVal s d)

end Sys2Proof.Machine
end

