-- ==== Sys2Proof/Machine/Requests.lean ====
section
/-! DEFINITION. Moves of memory requests (M4 to M6, M9): admission (R96, R99), serving (R78 to R84), waking (R79), replies and target causes (R162, R171), wave holds (R98), fences (R101), at (R178), table walks (R340, R341), remote requests (R393, R395) and the barrier watchdog (R177). -/

namespace Sys2Proof.Machine

/-- Does a request's target lie in a bank? -/
def inBank (q : Req) : Bool :=
  match q.target with
  | .bank _ _ => true
  | _ => false

/-- Is an earlier request of the same unit to the same bank port still on its way (R96)? -/
def pathBlocked (s : State) (r : Nat) (q : Req) : Bool :=
  inBank q && s.reqs.any (fun x => decide (x.1 < r) && x.2.src == q.src && x.2.stage == .sent && inBank x.2 && portOf x.2.target == portOf q.target)

/-- Room of a port for a request: at most 15 ineligible ones, the sixteenth place for an eligible one (R92, R99). -/
def portRoom (s : State) (r : Nat) (q : Req) : Bool :=
  let l := (s.port (portOf q.target)).queue
  decide (l.length < 16) && (eligible s r || decide ((l.filter (fun x => !eligible s x)).length < 15))

/-- Has the grove of a request's bank stopped at the floor of its cask (R400)? -/
def portStopped (s : State) (q : Req) : Bool :=
  match q.target with
  | .bank e _ => atFloor s (groveOf e)
  | _ => false

/-- A request arrives at its port; one at a bank port is something that arrives at its element (R402). -/
def joinPort (s : State) (r : Nat) (q : Req) : State :=
  let s := (s.modPort (portOf q.target) (fun p => { p with queue := p.queue ++ [r] })).setReq r { q with stage := .queued }
  match q.target with
  | .bank e _ => s.noteArrival e
  | _ => s

/-- requestAdmit (M4). -/
def execRequestAdmit (r : Nat) (s : State) : Host.Outcome State Fault Refusal :=
  .next (match s.req? r with
    | some q => if q.stage = .sent ∧ ¬pathBlocked s r q ∧ portRoom s r q ∧ ¬portStopped s q then joinPort s r q else s
    | none => s)

/-- The request that a port serves next: its first eligible one, when no deferred read can be answered (R79, R96, R99). The model's own choice (assumption 30): a deferred store or void that can go is made before new requests too. -/
def nextServed (s : State) (p : Nat) : Option Nat :=
  if (s.port p).deferred.any (wakeable s) then none else (s.port p).queue.find? (eligible s)

/-- What a request asks of another module (R393). -/
def remoteOp (q : Req) : RemoteOp :=
  match q.kind with
  | .store => .write (if q.size = 64 then q.sectorWords else [some q.data])
  | .absent => .absent
  | _ => .read

/-- A request fails at another module; an absent one, which raises no cause, ends (R164, R395). -/
def failRemote (s : State) (r : Nat) (q : Req) (cause : Nat) : State :=
  let q := { q with rid := 0, left := none }
  if q.kind = .absent then finishReq s r q 0 0 else failReq s r q cause

/-- A request to another module leaves under a request id, for which it waits, or fails when no route to it is up (R393, R395). Sectors of SA pages that a task writes there are resolved when it ends (R394). -/
def sendRemote (s : State) (r : Nat) (q : Req) (m pa : Nat) : State :=
  let waiting := s
  let s := leavePort s r q
  if !routeUp s m then failRemote s r q 0x0C5
  else if (freeRids s (s.task q.tag).serial 1).isEmpty then waiting
  else
    let rid := (freeRids s (s.task q.tag).serial 1).headD 0
    let s := sendRequest (s.setReq r { q with stage := .deferred, since := s.tb.toNat, rid := rid }) q m pa rid (remoteOp q)
    if q.kind = .store ∧ ¬q.pl then addResolving s q m else s

/-- Is a request a read of HBM? -/
def readsHbm (q : Req) : Bool :=
  match q.target, q.kind with
  | .hbm _, .load _ => true
  | _, _ => false

/-- Is a request one from another module? -/
def fromAway (q : Req) : Bool :=
  match q.src with
  | .remote _ _ _ => true
  | _ => false

/-- A machine check at a sector: the reading task vanishes (R83, R388); a supervisor's access fails with it, and so does one from another module, whose reply says so. -/
def sectorCheck (s : State) (r : Nat) (q : Req) (cause pa : Nat) : State :=
  if q.supervisor || fromAway q then
    failReq (leavePort (logEvent s 1 cause ((s.partOfGrove (groveOfUnit q.src)).getD 0) (groveOfUnit q.src) (BitVec.ofNat 64 pa)) r q) r q cause
  else machineCheck s (groveOfUnit q.src) cause (BitVec.ofNat 64 pa)

/-- Does a request's element sleep, gated until the request wakes it (R402)? -/
def asleep (s : State) (q : Req) : Bool :=
  match q.target with
  | .bank e _ => (s.elem e).gated
  | _ => false

/-- Does an access read the bytes of its sector: a read, and a store that leaves some of a sector that is not empty (R387, R388)? -/
def readsSector (s : State) (q : Req) (pa : Nat) : Bool :=
  match q.kind with
  | .load _ => sectorView s (pa / 64) != .empty || q.pl
  | .store => q.size != 64 && sectorView s (pa / 64) != .empty
  | _ => false

/-- Serves a request at a target of this module, with the machine checks of its sector: a reserved state (R83), or a MAC that does not match, as macBad says that it is found or as it is kept (R387, R388). -/
def serveChecked (s : State) (r : Nat) (q : Req) (macBad : Bool) : State :=
  match q.target with
  | .hbm pa =>
    if (s.sector (pa / 64)).st = 3 && q.kind != .absent then sectorCheck s r q 0x1C6 pa
    else if macBad && readsHbm q then sectorCheck (noteBadMac s (pa / 64)) r q 0x1C9 pa
    else if readsSector s q pa && macFails s (pa / 64) q.key then sectorCheck s r q 0x1C9 pa
    else applyServed s r q (serveAt s q)
  | _ => applyServed s r q (serveAt s q)

/-- requestServe (M5): macBad says that the read's sector fails its MAC (R388). -/
def execRequestServe (r : Nat) (macBad : Bool) (s : State) : Host.Outcome State Fault Refusal :=
  .next (match s.req? r with
    | none => s
    | some q =>
      if q.stage = .queued ∧ nextServed s (portOf q.target) = some r ∧ ¬asleep s q ∧ ¬portStopped s q then
        match q.target with
        | .module m pa => match q.kind with
          | .void _ => applyServed s r q (serveAt s q)
          | _ => sendRemote s r q m pa
        | _ => serveChecked s r q macBad
      else s)

/-- Do two requests wait on one word, a bank word or a sector, whose deferred reads are answered in order (R79, R92, R93)? Those that a commit or vanish has made eligible are so in any order (R104). -/
def sameWord (a b : Req) : Bool :=
  match a.target, b.target with
  | .bank e off, .bank e' off' => bankWord e off == bankWord e' off'
  | .hbm pa, .hbm pa' => pa / 64 == pa' / 64 && !isWrite a.kind && !isWrite b.kind && !(a.anyOrder && b.anyOrder)
  | _, _ => false

/-- Is an older deferred request on the same word to be answered first (R79)? -/
def wakesAfter (s : State) (r : Nat) (q : Req) : Bool :=
  ((s.port (portOf q.target)).deferred.takeWhile (· != r)).any (fun x => wakeable s x && (match s.req? x with
    | some y => sameWord y q
    | none => false))

/-- deferredReadWake (M6): a deferred request whose wait is over takes its value, with the checks of its sector (R79, R83, R104, R388). -/
def execDeferredReadWake (r : Nat) (s : State) : Host.Outcome State Fault Refusal :=
  .next (match s.req? r with
    | none => s
    | some q => if q.stage = .deferred ∧ wakeable s r ∧ ¬wakesAfter s r q ∧ ¬portStopped s q then serveChecked s r q false else s)

/-- Writes a register of a unit's strand or bank, for a reply (R162). -/
def putReg (s : State) (q : Req) (c : BitVec 6) (v : Word) : State :=
  match q.src with
  | .elem e => { writeReg { s with cur := .slot e q.strand q.slot } c v with cur := s.cur }
  | .seq g =>
    let put (b : SeqBank) : SeqBank :=
      if c.toNat < 16 then { b with w := setAt b.w c.toNat v } else if 32 ≤ c.toNat ∧ c.toNat < 48 then { b with a := setAt b.a (c.toNat - 32) v } else b
    s.modGrove g (fun x => if q.supervisor then { x with superBank := put x.superBank } else { x with taskBank := put x.taskBank })
  | _ => s

/-- Is an earlier load of the element that names the same channel outstanding (R162)? -/
def replyBlocked (s : State) (r : Nat) (q : Req) : Bool :=
  match q.dest with
  | .chan ch => s.reqs.any (fun x => decide (x.1 < r) && x.2.src == q.src && x.2.dest == .chan ch)
  | _ => false

/-- Raises a cause at the unit that made a request (R171): addr and info as the record holds them. -/
def raiseAt (s : State) (q : Req) (cause : Nat) (addr info : Word) : State :=
  match q.src with
  | .elem e => raise s (groveOf e) { cause := cause, src := 0, str := q.strand.toNat, slot := q.slot, eid := eidOf s e &&& 0x1FFFFFFFFF, addr := addr, info := info, word := q.word, unit := .elem e }
  | .seq g =>
    if q.supervisor then supervisorCause s g cause
    else raise s g { cause := cause, src := 1, eid := eidOf s (elemAt g 0) &&& 0x1FFFFFFFFF, addr := addr, info := info, word := q.word, wordAddr := q.slot, unit := .seq g }
  | .ag g n => raiseAg s g n cause addr
  | .remote _ _ _ => s

/-- Flags that return with a reply (R56, R168). -/
def replyFlags (s : State) (q : Req) (f : Flags) : State :=
  if f = 0 then s
  else
    let (s, enables) := match q.src with
      | .elem e => (s.modElem e (fun x => { x with sticky := setAt x.sticky q.strand.toNat ((x.sticky[q.strand.toNat]?.getD 0) ||| f) }),
          ((s.elem e).active.strand q.strand.toNat).traps)
      | .seq g => (s.modGrove g (fun x => { x with sticky := x.sticky ||| f }), (s.grove g).strapen)
      | _ => (s, 0)
    if f &&& enables = 0 then s else raiseAt s q (0x040 + lowestFlag (f &&& enables)) 0 (f.setWidth 64)

/-- Keeps the phase that an arrival joined as the barrier record of its strand or sequencer, unless a later arrival's is kept already (R175). -/
def setRecord (s : State) (r : Nat) (q : Req) (phase : BitVec 16) : State :=
  let later : Bool := match barRecord s q.src q.strand with
    | some b => decide (r < b.req)
    | none => false
  match later, q.target with
  | false, .bank e off =>
    let b : BarRec := { word := bankWord e off, phase := phase, req := r }
    match q.src with
    | .elem x => s.modElem x (fun y => { y with barrier := setAt y.barrier q.strand.toNat (some b) })
    | .seq g => s.modGrove g (fun x => if q.supervisor then { x with superBank := { x.superBank with barrier := some b } }
        else { x with taskBank := { x.taskBank with barrier := some b } })
    | _ => s
  | _, _ => s

/-- Delivers the value of a load, atomic or absent request to its destination (R162, R164). -/
def deliverReply (s : State) (q : Req) (v : Word) : State :=
  let absent := q.kind == .absent
  match q.dest, q.src with
  | .reg c, _ => if absent then s else putReg s q c v
  | .plane pos, .elem e =>
    let put (l : Preload) : Preload := if l.pos = pos ∧ l.started then { l with sectors := mset l.sectors q.pos (replyWords q v) } else l
    s.modElem e (fun x => { x with preloads := x.preloads.map put })
  | .hist, .seq g => s.modGrove g (fun x => { x with place := x.place.map (fun p => { p with reads := p.reads ++ [v], req := none }) })
  | .chan ch, .elem e => enqueueAs s e ch.toNat q.strand.toNat (if absent then { gen := q.gen, pres := false } else { payload := v, gen := q.gen }) q.tid
  | _, _ => s

/-- A reply to another module leaves on VC 1 (R390, R393). -/
def sendReply (s : State) (m serial rid : Nat) (words : List (Option Word)) (cause : Nat) : State :=
  sendLink s m 1 (3 + (words.length + 1) / 2) (.reply serial rid words cause)

/-- ST and TAG as a reply to another module carries them behind its words (R83, R389). -/
def metaWord (m : SectorMeta) : Word := BitVec.ofNat 64 (m.st.toNat * 2 ^ 14 + m.tag.toNat)

/-- The sector metadata that a word of a reply gives (R389). -/
def wordMeta (w : Word) : SectorMeta := { st := BitVec.ofNat 2 (bits w.toNat 14 2), tag := BitVec.ofNat 14 (bits w.toNat 0 14) }

/-- The words of a reply to another module: what was read, and for a copy that carries it the metadata of its sector (R389, R393). -/
def replyTo (q : Req) (v : Word) : List (Option Word) :=
  if noReply q then [] else replyWords q v ++ (q.sectorMeta.filter (fun _ => q.carry)).toList.map (fun m => some (metaWord m))

/-- A reply arrives (R162, R175, R223, R393). -/
def answer (s : State) (r : Nat) (q : Req) (v : Word) (f : Flags) : State :=
  let s := s.dropReq r
  match q.src with
  | .ag g n => storeReply s g n q v
  | .remote m serial rid => sendReply s m serial rid (replyTo q v) 0
  | _ => match q.kind with
    | .arrive _ => releaseJoins (setRecord s r q (v.setWidth 16)) q.src q.strand
    | .wait _ => s
    | _ => replyFlags (deliverReply s q v) q f

/-- A preload ends whose sector met a cause: its position is free for another, and its other sectors are asked for no more (R171, R264). -/
def dropPreload (s : State) (e pos : Nat) : State :=
  let mine := s.reqs.filter (fun r => r.2.src == .elem e && r.2.dest == .plane pos)
  (mine.foldl (fun s r => (leavePort s r.1 r.2).dropReq r.1) s).modElem e (fun x => { x with preloads := x.preloads.eraseP (fun l => l.pos == pos && l.started) })

/-- Releases what a request kept for its reply (R171): the place it reserved; for a sector of a preload, the preload; for an access of the placer, the place instruction, which leaves d unchanged (R297). -/
def releasePlace (s : State) (q : Req) : State :=
  match q.dest, q.src with
  | .hist, .seq g => s.modGrove g (fun x => { x with place := none })
  | .plane pos, .elem e => dropPreload s e pos
  | _, _ => if q.tid = 0 then s else { s with outst := merase s.outst q.tid }

/-- A cause that arose at a target reaches the requester (R171, R232, R347). A translation cause keeps the request for the retry; an AG's extent for it goes, to be patched again (R352). -/
def targetCause (s : State) (r : Nat) (q : Req) (k : Nat) : State :=
  let a := BitVec.ofNat 64 q.addr
  let streams := match q.src with
    | .ag _ _ => true
    | _ => false
  let retried := streams || (!q.supervisor && k / 64 == 3)
  let s := if retried then s.setReq r { q with stage := .stopped k } else releasePlace (s.dropReq r) q
  let s := if k / 64 = 3 ∧ (streams ∨ ¬q.supervisor) then
      recordFault s (groveOfUnit q.src) (faultKind q.src (isWrite q.kind)) k q.addr (unitCtx s q.src)
    else s
  let s := match q.src with
    | .ag g n => if k / 64 = 3 then dropExtent s g n q.addr else s
    | _ => s
  match q.src with
  | .remote m serial rid => sendReply (s.dropReq r) m serial rid [] k
  | _ => raiseAt (releaseJoins s q.src q.strand) q k a 0

/-- requestReply (R162, R171). -/
def execRequestReply (r : Nat) (s : State) : Host.Outcome State Fault Refusal :=
  .next (match s.req? r with
    | none => s
    | some q => match q.stage with
      | .done v f => if replyBlocked s r q then s else answer s r q v f
      | .failed k => targetCause s r q k
      | _ => s)

/-- waveRequestRelease: a held request is sent when its chain lets it (R98). -/
def execWaveRequestRelease (r : Nat) (s : State) : Host.Outcome State Fault Refusal :=
  .next (resendReq s r)

/-- Is a fence complete (R101)? -/
def fenceDone (s : State) (f : Fence) : Bool :=
  f.waits.all (fun r => performed s r || (match s.req? r with
    | some q => decide (f.scope.toNat < q.scope.toNat)
    | none => true))

/-- Removes entry n of a list of fences, if it is complete. -/
def dropFence (s : State) (l : List Fence) (n : Nat) : List Fence :=
  match l[n]? with
  | some f => if fenceDone s f then l.eraseIdx n else l
  | none => l

/-- fenceComplete (M9, R101). A unit with withdrawn requests keeps its fences until they are sent again (R180). -/
def execFenceComplete (u : UnitId) (n : Nat) (s : State) : Host.Outcome State Fault Refusal :=
  .next (match u with
    | .elem e => if (s.elem e).withdrawn.isEmpty then s.modElem e (fun x => { x with fences := dropFence s x.fences n }) else s
    | .seq g => if (s.grove g).withdrawn.isEmpty then s.modGrove g (fun x => { x with fences := dropFence s x.fences n }) else s
    | _ => s)

/-- atEmit: a pending at enqueues its token once the time base has reached its target (R178). -/
def execAtEmit (e n : Nat) (s : State) : Host.Outcome State Fault Refusal :=
  .next (match (s.elem e).ats[n]? with
    | some p =>
      if !s.tb.ult p.target && !(s.elem e).frozen && !atFloor s (groveOf e) then
        enqueueAs (s.modElem e (fun x => { x with ats := x.ats.eraseIdx n })) e p.ch.toNat p.strand.toNat { payload := p.target, gen := p.gen } p.tid
      else s
    | none => s)

/-- A retried access of an AG patches its extent again (R352). -/
def patchBack (s : State) (q : Req) (leaf : Word) (size : Nat) : State :=
  match q.src with
  | .ag g n => if (extentAt ((s.grove g).ag n) q.addr).isSome then s
    else s.modGrove g (fun x => x.setAg n { x.ag n with extents := addExtent (x.ag n).extents (leafExtent leaf size q.addr) })
  | _ => s

/-- tableWalk: a request that waits for its translation takes it from the TLB, or from a walk that installs its leaf or fails (R340, R341). victim is the entry a fill replaces. -/
def execTableWalk (r victim : Nat) (s : State) : Host.Outcome State Fault Refusal :=
  match s.req? r with
  | none => .next s
  | some q =>
    if q.stage ≠ .xlate then .next s
    else
      let g := groveOfUnit q.src
      let c := unitCtx s q.src
      match tlbFind s g c q.addr with
      | some t => .next (translated (patchBack s q t.leaf t.size) r t.leaf t.size)
      | none =>
        if hbmEnd ≤ (s.ctx c).root then .fault (.noSuchMemory (s.ctx c).root)
        else match walk s c q.addr with
          | .error k => .next (s.setReq r { q with stage := .failed k })
          | .ok (leaf, size) =>
            .next (translated (patchBack (tlbFill s g victim { ctx := c, va := q.addr / size * size, size := size, leaf := leaf }) q leaf size) r leaf size)

/-- The request ids that a request has timed out under: no other access takes one until its reply has come and been discarded (R393, R395). -/
def staleIds (s : State) (q : Req) : State :=
  let ids := (if q.rid = 0 then [] else [q.rid]) ++ (q.left.getD []).filterMap (fun l => match l with
    | .remote i => some i
    | .sector _ => none)
  { s with staleRids := s.staleRids ++ ids.map (fun i => ((s.task q.tag).serial, i)) }

/-- remoteAccessTimeout: 1 ms without a reply from another module (R395). -/
def execRemoteAccessTimeout (r : Nat) (s : State) : Host.Outcome State Fault Refusal :=
  .next (match s.req? r with
    | some q => match q.target, q.stage with
      | .module _ _, .deferred => if q.since + 1000000 ≤ s.tb.toNat then failRemote (leavePort (staleIds s q) r q) r q 0x0C5 else s
      | _, _ => if q.stage = .deferred ∧ (q.left.getD []).any Left.isRemote ∧ q.since + 1000000 ≤ s.tb.toNat then failRemote (leavePort (staleIds s q) r q) r q 0x0C5 else s
    | none => s)

/-- Does a request await the reply of another module under a request id (R393)? -/
def awaits (q : Req) (rid : Nat) : Bool :=
  q.stage == .deferred && (match q.left, q.target with
    | some l, _ => l.contains (.remote rid)
    | none, .module _ _ => q.rid == rid
    | none, _ => false)

/-- The outstanding request that a reply from another module names: of a live task, or of supervisor code in a grove without one, which has tag and serial 0 (R393). -/
def awaited (s : State) (serial rid : Nat) : Option (Nat × Req) := s.reqs.find? (fun r => awaits r.2 rid && (r.2.tag == 0 || isLive s r.2.tag) && (s.task r.2.tag).serial == serial)

/-- The answer of another module to its part of a void; the void ends with its last part (R84, R393). -/
def answerVoid (s : State) (r : Nat) (q : Req) (rid : Nat) : State :=
  let l := (q.left.getD []).filter (· != .remote rid)
  if l.isEmpty then finishReq (leavePort s r q) r q 0 0 else s.setReq r { q with left := some l }

/-- remoteReply: delivered, or discarded and counted (R393). cause is nonzero when the target raised one. Request id 0 is that of the device's own writes, which nothing waits for. -/
def execRemoteReply (serial rid : Nat) (words : List (Option Word)) (cause : Nat) (s : State) : Host.Outcome State Fault Refusal :=
  .next (match awaited s serial rid with
    | none => if rid = 0 then s else { s with lateReplies := s.lateReplies + 1, staleRids := s.staleRids.filter (· != (serial, rid)) }
    | some (r, q) =>
      if cause ≠ 0 then failRemote (leavePort s r q) r q cause
      else if q.left.isSome then answerVoid s r q rid
      else
        let v := loadValue q q.addr ((words.headD none).getD 0)
        if noReply q then s.dropReq r else (replyArrives · q) <| s.setReq r { q with stage := .done v 0, sectorWords := if q.size = 64 then words.take 8 else [], sectorMeta := if q.carry then (words.getLast?.bind id).map wordMeta else none })

/-- Watchdog interval of a task's load in nanoseconds (R63, R322). -/
def watchdog (x : Task) : Nat := 1000 * bits (reg x.entry.w 0).toNat 16 16

/-- barrierShort: a wait deferred for one whole watchdog interval (R177). -/
def execBarrierShort (r : Nat) (s : State) : Host.Outcome State Fault Refusal :=
  .next (match s.req? r with
    | some q => match q.kind, q.stage, q.target with
      | .wait _, .deferred, .bank e off =>
        if q.since + watchdog (s.task q.tag) ≤ s.tb.toNat ∧ (s.task q.tag).dry.isNone then
          let w := (bankValue s e off).toNat
          raiseAt (s.setReq r { q with since := s.tb.toNat }) q 0x145 0 (BitVec.ofNat 64 (bits w 12 12 * 4096 + bits w 0 12))
        else s
      | _, _, _ => s
    | none => s)

end Sys2Proof.Machine
end

