-- ==== Sys2Proof/Machine/Engines.lean ====
section
/-! DEFINITION. Engine steps (M8): the matrix node (R211 to R216), converters (R218 to R220) and corner-turn nodes (R221, R222). -/

namespace Sys2Proof.Machine

/-- May a node of an element move: its task is running and not dry, its element not at a freeze or wave point or gated, the node not stopped, its grove not at the floor (R189, R233, R307, R400, R402)? -/
def nodeRuns (s : State) (e slot : Nat) : Bool :=
  !(s.elem e).frozen && !(s.elem e).gated && !(s.elem e).nodeStops.contains slot && !atFloor s (groveOf e) && (match s.taskOfElem e with
    | some t => (s.task t).dry.isNone
    | none => false)

/-- Does an element carry the node that a descriptor of a kind configures (R20, R21)? -/
def carriesNode (e kind : Nat) : Bool :=
  match kind with
  | 1 => isC e
  | 2 => hasConverter e
  | 3 => !isC e
  | 4 => isC e
  | 5 => isC e
  | 7 => !isC e
  | _ => true

/-- The node of a kind that the active plane of an element configures, where the element carries one (R20, R21, R110). -/
def nodeOf (s : State) (e kind : Nat) : Option (Nat × Desc) := if carriesNode e kind then (s.elem e).active.findDesc kind else none

/-- May an intake of a lookup cell or a race unit take a token: the node runs, and its element is not past its entry point (R365)? -/
def intakeRuns (s : State) (e slot : Nat) : Bool := nodeRuns s e slot && !pastEntry s e

/-- May another node take input: it runs, its element is not past its entry point (R365), and its plane has not passed the mark of an armed swap (R265; assumption 30)? -/
def nodeTakes (s : State) (e slot : Nat) : Bool := intakeRuns s e slot && !(s.elem e).passed

/-- Is a wave marker at the head of a channel? -/
def waveAtHead (s : State) (e ch : Nat) : Bool :=
  match headOf s e ch with
  | some t => t.isWave
  | none => false

/-- May a node look at the head of its channel: it may take it, or a wave marker closes what the node holds of a payload, a tile or a block (R219, R220, R222)? -/
def nodeLooks (s : State) (e slot ch : Nat) : Bool := nodeTakes s e slot || (nodeRuns s e slot && waveAtHead s e ch)

/-- Notes that an engine of an element has advanced (R63). -/
def noteAdvance (s : State) (e : Nat) : State := noteStep s (groveOf e)

/-- The state after a move of an engine from s to t, which is progress when it changes anything (R63). -/
def advanced (s t : State) (e : Nat) : State := if t = s then s else noteAdvance t e

/-- Takes the cost of a step before its effect; a step whose cost is not available is a refused issue (R184, R189). -/
def paidStep (s : State) (e cost : Nat) (effect : State → State) : State :=
  if canPay s (groveOf e) cost then effect (pay s (groveOf e) cost) else refuse s (groveOf e) cost

/-- Seed of the task of an element (R22). -/
def seedOf (s : State) (e : Nat) : Word :=
  match s.taskOfElem e with
  | some t => (s.task t).seed
  | none => 0

/-- Enqueues a token of a node, if its channel has room. -/
def nodeEnqueue (s : State) (e ch : Nat) (t : Token) : Option State :=
  if hasRoom s e ch [] then some (enqueue s e ch 4 t) else none

/-- The window of a plane with a number (R76). -/
def windowNo (p : Plane) (n : Nat) : Desc :=
  match p.node.find? (fun d => wbits d.2.w0 28 4 == 6 && winNo d.2 == n) with
  | some d => d.2
  | none => {}

/-- Fields of a matrix descriptor (R211). -/
def mxClass (d : Desc) : Nat := wbits d.w0 25 3
def mxAfmt (d : Desc) : Nat := wbits d.w0 21 4
def mxBfmt (d : Desc) : Nat := wbits d.w0 17 4
def mxRound (d : Desc) : Nat := wbits d.w0 14 3
def mxIntake (d : Desc) : Bool := wbits d.w0 13 1 == 1
def mxOutChan (d : Desc) : Bool := wbits d.w0 12 1 == 1
def mxKeepA (d : Desc) : Bool := wbits d.w0 11 1 == 1
def mxKeepB (d : Desc) : Bool := wbits d.w0 10 1 == 1
def mxAch (d : Desc) : Nat := wbits d.w1 18 5
def mxOch (d : Desc) : Nat := wbits d.w1 13 5
def mxLastStep (d : Desc) : Nat := wbits d.w2 16 12
def mxTiles (d : Desc) : Nat := wbits d.w2 0 16
def mxAwin (p : Plane) (d : Desc) : Desc := windowNo p (wbits d.w1 29 3)
def mxBwin (p : Plane) (d : Desc) : Desc := windowNo p (wbits d.w1 26 3)
def mxCwin (p : Plane) (d : Desc) : Desc := windowNo p (wbits d.w1 23 3)

/-- K of a tile step (R213). -/
def mxK (cls : Nat) : Nat :=
  match cls with
  | 3 => 8
  | 4 => 4
  | _ => 32
/-- Cost of a tile step (R183). -/
def mxCost (cls : Nat) : Nat :=
  match cls with
  | 0 => 1280
  | 1 => 640
  | 2 => 512
  | 3 => 1280
  | _ => 2560
/-- Header words of a tile (R213). -/
def headerWords (fmt : Nat) : Nat := if hasE8M0 fmt then 1 else if hasF16Scale fmt then 2 else 0

/-- Byte offset of a word of a buffer of a window. -/
def bufOff (w : Desc) (buf word : Nat) : Nat := winBase w + buf * bufBytes w + 8 * word
/-- Is a buffer's tag full? -/
def bufFull (s : State) (e : Nat) (w : Desc) (buf : Nat) : Bool := (s.window (winKey e w)).tags.getLsbD buf
/-- Changes the matrix position of an element. -/
def modMatrix (s : State) (e : Nat) (f : MatrixState → MatrixState) : State := s.modElem e (fun x => { x with matrix := f x.matrix })

/-- Does the task of an element hold the bank of a window, so that its nodes may access it (R85, R86)? -/
def ownsWindow (s : State) (e : Nat) (w : Desc) : Bool :=
  match s.taskOfElem e with
  | some t => (s.bank (e * 6 + winBase w / 0x10000)).owner == .held t
  | none => false

/-- An access of a node to the windows of a list: the ownership cause where the task holds one of their banks no more (R86). -/
def owning (s : State) (e slot : Nat) (ws : List Desc) (access : State) : State :=
  if ws.all (ownsWindow s e) then access else raiseNode s e slot 0x088

/-- Writes a buffer word as a node does (R86). -/
def putBuffer (s : State) (e : Nat) (w : Desc) (buf word : Nat) (v : Word) : State :=
  putWord s e (bufOff w buf word) v { full := true }

/-- Writes zero to the n words of a buffer from one on. -/
def zeroBuffer (e : Nat) (w : Desc) (buf : Nat) : Nat → Nat → State → State
  | _, 0, s => s
  | word, n + 1, s => zeroBuffer e w buf (word + 1) n (putBuffer s e w buf word 0)

/-- Closes the run that is open: the buffer's remaining words are zero and its tag full (R214). -/
def closeIntake (s : State) (e : Nat) (w : Desc) : State :=
  let m := (s.elem e).matrix
  let s := zeroBuffer e w m.aFill m.fill (bufBytes w / 8 - m.fill) s
  modMatrix (setTag s e w m.aFill true) e (fun m => { m with runOpen := false, fill := 0, aFill := (m.aFill + 1) % winBufs w, aLeft := m.aLeft + 1 })

/-- A data token at the intake whose run is open, or has just opened (R214). -/
def intakeData (s : State) (e slot ch : Nat) (w : Desc) (t : Token) : State :=
  let m := (s.elem e).matrix
  let ends := t.frame == 0 || t.frame == 3
  let s := takeHead s e ch none
  if bufBytes w / 8 ≤ m.fill then
    raiseNode (modMatrix (closeIntake s e w) e (fun m => { m with discard := !ends, gen := t.gen })) e slot 0x149
  else
    let s := modMatrix (putBuffer s e w m.aFill m.fill (if t.pres then t.payload else 0)) e (fun m => { m with runOpen := true, fill := m.fill + 1, gen := t.gen })
    if ends then closeIntake s e w else s

/-- One move of the intake (R214). -/
def intakeStep (s : State) (e slot : Nat) (d : Desc) : State :=
  let m := (s.elem e).matrix
  let ch := mxAch d
  let w := mxAwin (s.elem e).active d
  match headOf s e ch with
  | none => s
  | some t =>
    if t.isWave then s
    else if t.mark ≠ 0 then
      let close (s : State) : State := modMatrix s e (fun m => { m with discard := false })
      let rest (s : State) : State := if t.mark = 3 then s else takeHead s e ch none
      if m.runOpen then owning s e slot [w] (rest (close (closeIntake s e w))) else rest (close s)
    else
      let opens := t.frame == 0 || t.frame == 1
      if m.discard && !opens then modMatrix (takeHead s e ch none) e (fun m => { m with discard := t.frame != 3 })
      else if m.runOpen && opens then owning s e slot [w] (closeIntake s e w)
      else if m.runOpen then owning s e slot [w] (intakeData s e slot ch w t)
      else if !opens then raiseNode (takeHead s e ch none) e slot 0x148
      else if bufFull s e w m.aFill then s
      else owning s e slot [w] <| intakeData (modMatrix s e (fun m => { m with discard := false })) e slot ch w t

/-- matrixIntake (R214). -/
def execMatrixIntake (e : Nat) (s : State) : Host.Outcome State Fault Refusal :=
  .next (match nodeOf s e 1 with
    | some (slot, d) => if nodeTakes s e slot && mxIntake d && !(s.elem e).matrix.ended then advanced s (intakeStep s e slot d) e else s
    | none => s)

/-- The words of a buffer as one number, the first word lowest. -/
def bufferValue (s : State) (e : Nat) (w : Desc) (buf : Nat) : Nat := readBytes s.mem (bankAddr e (bufOff w buf 0)) (bufBytes w)

/-- The values of the elements of a tile, with the flags of forming them (R39, R213). -/
def tileValues (cls fmt k tile : Nat) : List FpVal × Flags :=
  let h := headerWords fmt
  let w := formatWidth fmt
  let one (n : Nat) : FpVal × Flags :=
    let raw := bits tile (64 * h + w * n) w
    if cls = 2 then (fpOfInt (signedOf w raw), 0)
    else
      let g := n / k
      let scale := if hasE8M0 fmt then bits tile (8 * g) 8 else bits tile (16 * g) 16
      scaledElement fmt scale raw
  let vs := (List.range (8 * k)).map one
  (vs.map (fun v => v.1), vs.foldl (fun f v => f ||| v.2) 0)

/-- Products of row i of A and column j of B. -/
def tileProducts (k i j : Nat) (a b : List FpVal) : List (FpVal × Flags) :=
  List.zipWith fpMul ((a.drop (i * k)).take k) ((b.drop (j * k)).take k)

/-- One output element of a tile step from its products and its addend (R45): its encoding and flags. -/
def tileElement (cls : Nat) (r : Rounding) (ps : List (FpVal × Flags)) (c : Nat) : Nat × Flags :=
  let pf := ps.foldl (fun f p => f ||| p.2) (0 : Flags)
  let ts := ps.map (fun p => p.1)
  match cls with
  | 2 =>
    let x := sumAt 0 ts + signedOf 32 c
    let v := max (-(2 ^ 31)) (min (2 ^ 31 - 1) x)
    ((BitVec.ofInt 32 v).toNat, if v = x then 0 else Flag.sa)
  | 4 =>
    ts.foldl (fun (acc : Nat × Flags) p =>
      let (v, f) := fpSum r.mode [p, fpRead .f64 false acc.1]
      let (x, g) := fpWrite .f64 r v
      (x, acc.2 ||| f ||| g)) (c, pf)
  | _ =>
    let (v, f) := fpSum r.mode (ts ++ [fpRead .f32 false c])
    let (x, g) := fpWrite .f32 r v
    (x, pf ||| f ||| g)

/-- The 64 results of a tile step, with their flags. A descriptor of a memory-form plane image whose pair or CLS is outside the table runs with the formats it names (R44, R264; assumption 27). -/
def tileStep (s : State) (e : Nat) (d : Desc) : List Nat × Flags :=
  let m := (s.elem e).matrix
  let p := (s.elem e).active
  let cls := mxClass d
  let k := mxK cls
  let (a, fa) := tileValues cls (mxAfmt d) k (bufferValue s e (mxAwin p d) m.aRead)
  let (b, fb) := tileValues cls (mxBfmt d) k (bufferValue s e (mxBwin p d) m.bRead)
  let one (n : Nat) : Nat × Flags :=
    let r : Rounding := { mode := mxRound d, draw := stochasticDraw (seedOf s e) (eidOf s e) m.done n }
    tileElement cls r (tileProducts k (n / 8) (n % 8) a b) (if m.step = 0 then 0 else m.acc.getD n 0)
  let rs := (List.range 64).map one
  (rs.map (fun r => r.1), rs.foldl (fun f r => f ||| r.2) (fa ||| fb))

/-- The words of an output tile (R213). -/
def tileWords (cls : Nat) (acc : List Nat) : List Word :=
  if cls = 4 then acc.map (BitVec.ofNat 64)
  else (List.range 32).map (fun n => BitVec.ofNat 64 (acc.getD (2 * n) 0 + acc.getD (2 * n + 1) 0 * 2 ^ 32))

/-- Empties an operand buffer after its last read (R80). -/
def emptyBuffer (s : State) (e : Nat) (w : Desc) (buf : Nat) (keep : Bool) : State :=
  if keep then s else noteWritten (setTag s e w buf false) e (winBase w)

/-- Do the buffers of the next tile step let it start (R215)? -/
def stepReady (s : State) (e : Nat) (d : Desc) : Bool :=
  let m := (s.elem e).matrix
  let p := (s.elem e).active
  !m.ended && !m.writing && m.eos.isNone && bufFull s e (mxAwin p d) m.aRead && bufFull s e (mxBwin p d) m.bRead &&
    (m.step != 0 || mxOutChan d || !bufFull s e (mxCwin p d) m.cFill)

/-- The effect of a tile step whose cost has been taken (R215). -/
def makeStep (s : State) (e : Nat) (d : Desc) : State :=
  let p := (s.elem e).active
  let m := (s.elem e).matrix
  let (acc, f) := tileStep s e d
  let last := m.step == mxLastStep d
  let s := emptyBuffer (emptyBuffer s e (mxAwin p d) m.aRead (mxKeepA d)) e (mxBwin p d) m.bRead (mxKeepB d)
  s.modElem e (fun x => { x with
    matrixSticky := x.matrixSticky ||| f
    matrix := { x.matrix with
      aRead := (m.aRead + 1) % winBufs (mxAwin p d), bRead := (m.bRead + 1) % winBufs (mxBwin p d), aLeft := m.aLeft - 1
      step := if last then 0 else m.step + 1, acc := acc, done := m.done + 1
      writing := last, outFirst := last, output := if last then tileWords (mxClass d) acc else [] } })

/-- matrixTileStep (R215). -/
def execMatrixTileStep (e : Nat) (s : State) : Host.Outcome State Fault Refusal :=
  .next (match nodeOf s e 1 with
    | some (slot, d) =>
      if nodeTakes s e slot && stepReady s e d then
        owning s e slot [mxAwin (s.elem e).active d, mxBwin (s.elem e).active d] (paidStep s e (mxCost (mxClass d)) (fun s => makeStep s e d))
      else s
    | none => s)

/-- Writes the words of an output tile into a CWIN buffer. -/
def writeTile (e : Nat) (w : Desc) (buf : Nat) : Nat → List Word → State → State
  | _, [], s => setTag s e w buf true
  | n, v :: vs, s => writeTile e w buf (n + 1) vs (putBuffer s e w buf n v)

/-- Counts an output tile that has been written; the node ends after NT of them, with end.3 first where it writes to a channel (R216). -/
def tileDone (s : State) (e : Nat) (d : Desc) : State :=
  modMatrix s e (fun m =>
    let fin := mxTiles d != 0 && m.tile + 1 == mxTiles d
    { m with
      tile := m.tile + 1, writing := false, output := []
      ended := fin && !mxOutChan d
      eos := if fin && mxOutChan d then some { mark := 3, gen := if mxIntake d then m.gen else 0 } else none })

/-- Writes or enqueues the next part of an output tile (R216). -/
def outputStep (s : State) (e slot : Nat) (d : Desc) : State :=
  let m := (s.elem e).matrix
  if mxOutChan d then
    match m.output with
    | [] => tileDone s e d
    | v :: rest =>
      let t : Token := { payload := v, gen := if mxIntake d then m.gen else 0, frame := if m.outFirst then 1 else if rest.isEmpty then 3 else 2 }
      match nodeEnqueue (modMatrix s e (fun m => { m with output := rest, outFirst := false })) e (mxOch d) t with
      | some s => if rest.isEmpty then tileDone s e d else s
      | none => s
  else
    let w := mxCwin (s.elem e).active d
    owning s e slot [w] (tileDone (modMatrix (writeTile e w m.cFill 0 m.output s) e (fun m => { m with cFill := (m.cFill + 1) % winBufs w })) e d)

/-- The end of the input stream, once no taken-in tile is left to read: tile-short in a tile with steps outstanding, else the mark is forwarded or consumed and the node ends (R214, R216). -/
def endOfStream (s : State) (e slot : Nat) (d : Desc) : State :=
  let m := (s.elem e).matrix
  match headOf s e (mxAch d) with
  | some t =>
    if t.mark = 3 ∧ ¬m.runOpen ∧ m.aLeft = 0 then
      if m.step ≠ 0 then raiseNode (modMatrix s e (fun m => { m with step := 0, acc := [] })) e slot 0x14A
      else
        let s' := modMatrix (takeHead s e (mxAch d) none) e (fun m => { m with ended := true })
        if mxOutChan d then (nodeEnqueue s' e (mxOch d) t).getD s else s'
    else s
  | none => s

/-- matrixTileWrite: an output tile, the mark of an ended node, or the end of the input stream (R214, R216). -/
def execMatrixTileWrite (e : Nat) (s : State) : Host.Outcome State Fault Refusal :=
  .next (match nodeOf s e 1 with
    | some (slot, d) =>
      let m := (s.elem e).matrix
      if !nodeRuns s e slot || m.ended then s
      else if m.writing then advanced s (outputStep s e slot d) e
      else match m.eos with
        | some t => advanced s ((nodeEnqueue (modMatrix s e (fun m => { m with eos := none, ended := true })) e (mxOch d) t).getD s) e
        | none => if mxIntake d && nodeTakes s e slot then advanced s (endOfStream s e slot d) e else s
    | none => s)

/-- Fields of a converter descriptor (R218). -/
def cvIn (d : Desc) : Nat := wbits d.w0 24 4
def cvOut (d : Desc) : Nat := wbits d.w0 20 4
def cvRound (d : Desc) : Nat := wbits d.w0 17 3
def cvSat (d : Desc) : Bool := wbits d.w0 16 1 == 1
def cvGroups (d : Desc) : Nat := wbits d.w0 13 3 + 1
def cvIch (d : Desc) : Nat := wbits d.w0 8 5
def cvOch (d : Desc) : Nat := wbits d.w0 3 5

/-- One rounding of a converter's output element of a given index (R41, R42). -/
def cvRounding (s : State) (e : Nat) (d : Desc) (sat : Bool) (index : Nat) : Rounding :=
  { mode := cvRound d, sat := sat, draw := stochasticDraw (seedOf s e) (eidOf s e) index 0 }

/-- Converts one element for a format that is not MX (R219, R50). -/
def convertElement (s : State) (e : Nat) (d : Desc) (index : Nat) (v : FpVal) : Nat × Flags :=
  if cvOut d = 9 then
    let (p, f) := fpMul v (fpRead .f32 false d.w1.toNat)
    let (x, g) := fpToInt (-128) 127 (cvRounding s e d false index) p
    ((BitVec.ofInt 8 x).toNat, f ||| g ||| v.inputFlag)
  else match formatOfCode (cvOut d) with
    | some f =>
      let (x, g) := fpWrite f (cvRounding s e d (cvSat d) index) v
      (x, g ||| v.inputFlag)
    | none => (0, 0)

/-- The exponent of the largest magnitude of a list of values, none when all are zero. -/
def maxExponent : List FpVal → Option Int
  | [] => none
  | .fin _ m e :: vs =>
    if m = 0 then maxExponent vs
    else
      let x : Int := e + Nat.log2 m
      match maxExponent vs with
      | some y => some (max x y)
      | none => some x
  | _ :: vs => maxExponent vs

/-- emax of an MX element format (R49). -/
def mxEmax (code : Nat) : Int :=
  match code with
  | 12 => 8
  | 13 => 4
  | _ => 2

/-- Is a value infinite? -/
def isInf : FpVal → Bool
  | .inf _ => true
  | _ => false

/-- Scale, elements and flags of a group of 32 values (R49). index is that of its first element. -/
def mxGroup (s : State) (e : Nat) (d : Desc) (index : Nat) (vs : List FpVal) : Nat × List Nat × Flags :=
  let inFlags := vs.foldl (fun f v => f ||| v.inputFlag) (0 : Flags)
  if vs.any (fun v => v.isNan || isInf v) then
    (0xFF, vs.map (fun _ => 0), inFlags ||| (if vs.any isInf then Flag.iv else 0))
  else match formatOfCode (cvOut d) with
    | none => (0, [], 0)
    | some f =>
      match maxExponent vs with
      | none => (0, vs.map (fun v => (fpWrite f { mode := 0 } v).1), 0)
      | some x =>
        let ex := max (-127) (min 127 (x - mxEmax (cvOut d)))
        let rs := vs.zipIdx.map (fun v => fpWrite f (cvRounding s e d true (index + v.2)) (fpScale (-ex) v.1))
        ((ex + 127).toNat, rs.map (fun r => r.1), rs.foldl (fun g r => g ||| r.2) 0)

/-- Packs elements of a width into payloads, the last padded with zero (R38). -/
def packWords (w : Nat) (xs : List Nat) : List Word :=
  let all := xs.foldr (fun x a => x + a * 2 ^ w) 0
  (List.range ((w * xs.length + 63) / 64)).map (fun i => BitVec.ofNat 64 (all / 2 ^ (64 * i)))

/-- Tokens of an MX tile (R220). -/
def mxTile (code : Nat) (gen : BitVec 4) (scales elems : List Nat) : List Token :=
  let header : Token := { payload := BitVec.ofNat 64 (scales.foldr (fun x a => x + a * 256) 0), gen := gen, frame := 1 }
  let ws := packWords (formatWidth code) elems
  header :: ws.zipIdx.map (fun w => { payload := w.1, gen := gen, frame := if w.2 + 1 = ws.length then 3 else 2 })

/-- Ends an MX group whose 32 elements are known, and its tile when that has all its groups or is closed (R220). -/
def endGroup (s : State) (e : Nat) (d : Desc) (gen : BitVec 4) (closing : Bool) (c : ConvState) : ConvState × Flags :=
  let (c, f) : ConvState × Flags :=
    if c.group.isEmpty then (c, 0)
    else
      let zeros := List.replicate (32 - c.group.length) 0
      match formatOfCode (cvIn d) with
      | none => (c, 0)
      | some fi =>
        let (sc, es, f) := mxGroup s e d c.index ((c.group ++ zeros).map (fpRead fi false))
        ({ c with group := [], scales := c.scales ++ [sc], elems := c.elems ++ es, index := c.index + 32 }, f)
  if !c.scales.isEmpty && (closing || c.scales.length == cvGroups d) then
    ({ c with scales := [], elems := [], output := c.output ++ mxTile (cvOut d) gen c.scales c.elems }, f)
  else (c, f)

/-- Takes one input element (R219, R220). -/
def convertLane (s : State) (e : Nat) (d : Desc) (gen : BitVec 4) (raw : Nat) (c : ConvState) : ConvState × Flags :=
  if hasE8M0 (cvOut d) then
    let c := { c with group := c.group ++ [raw] }
    if c.group.length = 32 then endGroup s e d gen false c else (c, 0)
  else match formatOfCode (cvIn d) with
    | none => (c, 0)
    | some fi =>
      let (x, f) := convertElement s e d c.index (fpRead fi false raw)
      let all := c.held + x * 2 ^ c.bitsHeld
      let n := c.bitsHeld + formatWidth (cvOut d)
      let c := { c with index := c.index + 1 }
      if 64 ≤ n then
        ({ c with held := all / 2 ^ 64, bitsHeld := n - 64, output := c.output ++ [{ payload := BitVec.ofNat 64 all, gen := gen }] }, f)
      else ({ c with held := all, bitsHeld := n }, f)

/-- Takes the lanes of a payload in order (R219). -/
def convertLanes (s : State) (e : Nat) (d : Desc) (gen : BitVec 4) : List Nat → ConvState × Flags → ConvState × Flags
  | [], c => c
  | x :: xs, c =>
    let (c', f) := convertLane s e d gen x c.1
    convertLanes s e d gen xs (c', c.2 ||| f)

/-- Closes a partial payload or tile before a mark or an absent token (R219, R220). -/
def closePartial (s : State) (e : Nat) (d : Desc) (c : ConvState) : ConvState × Flags :=
  if hasE8M0 (cvOut d) then endGroup s e d c.gen true c
  else if c.bitsHeld = 0 then (c, 0)
  else ({ c with held := 0, bitsHeld := 0, output := c.output ++ [{ payload := BitVec.ofNat 64 c.held, gen := c.gen }] }, 0)

/-- Stores a converter's position and the flags it raised. -/
def putConv (s : State) (e : Nat) (c : ConvState × Flags) : State :=
  s.modElem e (fun x => { x with conv := c.1, convSticky := x.convSticky ||| c.2 })

/-- A converter takes a token; a wave marker stays for its wave (R69, R219). -/
def convertToken (s : State) (e : Nat) (d : Desc) : State :=
  let c := (s.elem e).conv
  match headOf s e (cvIch d) with
  | none => s
  | some t =>
    if t.isWave then putConv s e (closePartial s e d c)
    else if t.mark ≠ 0 ∨ ¬t.pres then
      let (c, f) := closePartial s e d c
      putConv (takeHead s e (cvIch d) none) e ({ c with output := c.output ++ [{ t with tid := 0 }] }, f)
    else
      let w := formatWidth (cvIn d)
      let lanes := (List.range (64 / w)).map (fun j => bits t.payload.toNat (w * j) w)
      putConv (takeHead s e (cvIch d) none) e (convertLanes s e d t.gen lanes ({ c with gen := t.gen }, 0))

/-- converterToken: a token that is due is enqueued at its cost, or the next input token is taken (R219, R220). -/
def execConverterToken (e : Nat) (s : State) : Host.Outcome State Fault Refusal :=
  .next (match nodeOf s e 2 with
    | some (slot, d) =>
      match (s.elem e).conv.output with
      | t :: rest =>
        if nodeRuns s e slot && hasRoom s e (cvOch d) [] then
          paidStep s e 2 (fun s => enqueue (s.modElem e (fun x => { x with conv := { x.conv with output := rest } })) e (cvOch d) 4 t)
        else s
      | [] => if nodeLooks s e slot (cvIch d) then advanced s (convertToken s e d) e else s
    | none => s)

/-- Fields of a corner-turn descriptor (R221). -/
def ctBit (d : Desc) : Bool := wbits d.w0 27 1 == 1
def ctIch (d : Desc) : Nat := wbits d.w0 22 5
def ctOch (d : Desc) : Nat := wbits d.w0 17 5

/-- Changes the corner-turn position of an element. -/
def modTurn (s : State) (e : Nat) (f : TurnState → TurnState) : State := s.modElem e (fun x => { x with turn := f x.turn })

/-- Completes a block with zero tokens (R222). -/
def padBlock (b : List Token) : List Token :=
  match b with
  | [] => []
  | t :: _ => b ++ List.replicate (64 - b.length) { gen := t.gen }

/-- A block is complete: one whose data tokens differ in GEN is discarded with a cause (R222). -/
def completeBlock (s : State) (e slot : Nat) (b : List Token) (after : Option Token) : State :=
  if b.all (fun t => t.gen == (b.headD {}).gen) then modTurn s e (fun _ => { block := b, after := after })
  else raiseNode (modTurn s e (fun _ => { after := after })) e slot 0x14B

/-- The node takes a token (R222). -/
def collectToken (s : State) (e slot : Nat) (d : Desc) : State :=
  let b := (s.elem e).turn.block
  match headOf s e (ctIch d) with
  | none => s
  | some t =>
    if t.isWave then (if b.isEmpty then s else completeBlock s e slot (padBlock b) none)
    else if t.mark ≠ 0 then completeBlock (takeHead s e (ctIch d) none) e slot (padBlock b) (some t)
    else
      let b := b ++ [if t.pres then t else { t with payload := 0 }]
      let s := takeHead s e (ctIch d) none
      if b.length = 64 then completeBlock s e slot b none else modTurn s e (fun x => { x with block := b })

/-- cornerTurnCollect (R222). -/
def execCornerTurnCollect (e : Nat) (s : State) : Host.Outcome State Fault Refusal :=
  .next (match nodeOf s e 3 with
    | some (slot, d) =>
      let x := (s.elem e).turn
      if nodeLooks s e slot (ctIch d) && !x.emitting && decide (x.block.length < 64) && x.after.isNone then advanced s (collectToken s e slot d) e else s
    | none => s)

/-- Payload m of a transposed block (R222). -/
def turnedPayload (bit : Bool) (b : List Token) (m : Nat) : Word :=
  let p (n : Nat) : Word := (b.getD n {}).payload
  if bit then (List.range 64).foldl (fun w n => if (p n).getLsbD m then w ||| ((1 : Word) <<< n) else w) 0
  else p (8 * (m % 8) + m / 8)

/-- The output tokens of a block (R222). -/
def turnedBlock (bit : Bool) (b : List Token) : List Token :=
  (List.range 64).map (fun m => { payload := turnedPayload bit b m, gen := (b.headD {}).gen })

/-- cornerTurnEmit: the emission of a block starts at its cost, goes on token by token, and its mark follows (R222). -/
def execCornerTurnEmit (e : Nat) (s : State) : Host.Outcome State Fault Refusal :=
  .next (match nodeOf s e 3 with
    | some (slot, d) =>
      let x := (s.elem e).turn
      if !nodeRuns s e slot then s
      else if x.emitting then
        match x.output with
        | [] => advanced s (modTurn s e (fun x => { x with emitting := false })) e
        | t :: rest => advanced s ((nodeEnqueue (modTurn s e (fun x => { x with output := rest, emitting := !rest.isEmpty })) e (ctOch d) t).getD s) e
      else if x.block.length = 64 then
        paidStep s e 8 (fun s => modTurn s e (fun x => { x with block := [], emitting := true, output := turnedBlock (ctBit d) x.block }))
      else match x.after with
        | some t => advanced s ((nodeEnqueue (modTurn s e (fun x => { x with after := none })) e (ctOch d) t).getD s) e
        | none => s
    | none => s)

end Sys2Proof.Machine
end

