-- ==== Sys2Proof/Machine/Cells.lean ====
section
/-! DEFINITION. The lookup-cell array (R239 to R253): its instructions, its intakes, and the operations of its queue. -/

namespace Sys2Proof.Machine

/-- Strand and slot of the issuing slot. -/
def firedFrom (s : State) : BitVec 2 × Nat := (curStrand s.cur, curSlot s.cur)

/-- Changes the array of an element. -/
def modArray (s : State) (e : Nat) (f : LcArray → LcArray) : State := s.modElem e (fun x => { x with lc := f x.lc })

/-- Appends an operation of the issuing slot to the array's queue (R246). -/
def pushOp (s0 s1 : State) (o : LcOp) : State :=
  let (k, n) := firedFrom s0
  modArray s1 (curElem s0) (fun x => { x with queue := x.queue ++ [(o, k, n)] })

/-- An array operation whose guard is read and not tested: it is queued unless the guard is absent (R247). -/
def guardedOp (i : Instr) (s : State) (g : BitVec 6) (o : State → LcOp) : Host.Outcome State Fault Refusal :=
  issueWord i s (fun s0 s1 => .done (if (srcVal s0 g).isSome then pushOp s0 s1 (o s0) else s1) 0)

/-- lcld (R248). -/
def execLcld (t d a b : BitVec 6) (s : State) : Host.Outcome State Fault Refusal :=
  guardedOp (.lcld t d a b) s b (fun s0 => .load a (BitVec.ofNat 5 ((chanOf s0 d).getD 0)) 0 false)

/-- lcctx (R249). -/
def execLcctx (t a b : BitVec 6) (s : State) : Host.Outcome State Fault Refusal :=
  guardedOp (.lcctx t a b) s b (fun _ => .ctx (a.setWidth 3))

/-- lcev (R250). -/
def execLcev (t a b : BitVec 6) (s : State) : Host.Outcome State Fault Refusal :=
  guardedOp (.lcev t a b) s b (fun _ => .sweep a.toNat false)

/-- lcev.rel (R250). -/
def execLcevRel (t a b : BitVec 6) (s : State) : Host.Outcome State Fault Refusal :=
  guardedOp (.lcevRel t a b) s b (fun _ => .sweep a.toNat true)

/-- lcin: an absent value or index queues nothing (R251). -/
def execLcin (t a b : BitVec 6) (s : State) : Host.Outcome State Fault Refusal :=
  issueWord (.lcin t a b) s (fun s0 s1 => .done (match src2 s0 a b with
    | some (v, x) => pushOp s0 s1 (.put v (x.setWidth 8))
    | none => s1) 0)

/-- lcout: a register destination is pending, an outbound one reserves its place, until the operation retires (R252). -/
def execLcout (t d a b : BitVec 6) (s : State) : Host.Outcome State Fault Refusal :=
  issueWord (.lcout t d a b) s (fun s0 s1 => .done (match srcVal s0 b, srcVal s0 a with
    | none, _ => s1
    | some _, none => writeDst s1 d none
    | some _, some x =>
      match chanOf s0 d with
      | some ch =>
        let (s2, tid) := reservePlace s1 (curElem s0) ch (curStrand s0.cur).toNat (curGen s0)
        pushOp s0 s2 (.out (.chan (BitVec.ofNat 5 ch)) (x.setWidth 10) (curGen s0) tid)
      | none => pushOp s0 s1 (.out (if isRegister s0 d then .reg d else .none) (x.setWidth 10) (curGen s0) 0)) 0)

/-- Transpose of an 8 by 8 bit matrix (R253). -/
def transpose8 (a : Word) : Word :=
  (List.range 64).foldl (fun w n => if a.getLsbD (8 * (n % 8) + n / 8) then w ||| ((1 : Word) <<< n) else w) 0

/-- bpt (R253). -/
def execBpt (t d a : BitVec 6) (s : State) : Host.Outcome State Fault Refusal :=
  compute1 (.bpt t d a) s d a transpose8

/-- An intake of the array's descriptor: enabled, its channel, its first slice (R243). -/
def intakeOf (p : Plane) (b : Bool) : Option (Nat × Nat) :=
  match p.findDesc 4 with
  | none => none
  | some (_, d) =>
    if b then (if wbits d.w0 19 1 = 1 then some (wbits d.w0 14 5, 64 * wbits d.w0 12 2) else none)
    else (if wbits d.w0 27 1 = 1 then some (wbits d.w0 22 5, 64 * wbits d.w0 20 2) else none)

/-- Slices that an intake has taken of the batch. -/
def intakeCount (a : LcArray) (b : Bool) : Nat := if b then a.countB else a.countA
/-- Sets the count of an intake. -/
def setCount (a : LcArray) (b : Bool) (n : Nat) : LcArray := if b then { a with countB := n } else { a with countA := n }

/-- Is a batch complete: every enabled intake has its 64 slices (R245)? -/
def batchComplete (x : Elem) : Bool :=
  [false, true].all (fun b => match intakeOf x.active b with
    | some _ => intakeCount x.lc b == 64
    | none => true)

/-- Writes zero to the slices from one on. -/
def zeroSlices (a : LcArray) (i : Nat) : Nat → LcArray
  | 0 => a
  | n + 1 => zeroSlices { a with slices := mset a.slices i 0 } (i + 1) n

/-- An intake takes a token (R245). -/
def takeSlice (s : State) (e ch base : Nat) (b : Bool) (t : Token) : State :=
  let n := intakeCount (s.elem e).lc b
  modArray (takeHead s e ch none) e (fun a =>
    if t.mark = 0 then setCount { a with slices := mset a.slices (base + n) (if t.pres then t.payload else 0) } b (n + 1)
    else if n = 0 then a
    else setCount (zeroSlices a (base + n) (64 - n)) b 64)

/-- lcIntake: an intake takes one token into the next slice (R245). -/
def execLcIntake (e : Nat) (b : Bool) (s : State) : Host.Outcome State Fault Refusal :=
  .next (match nodeOf s e 4, intakeOf (s.elem e).active b with
    | some (slot, _), some (ch, base) =>
      match headOf s e ch with
      | some t =>
        if intakeRuns s e slot && !t.isWave && decide (intakeCount (s.elem e).lc b < 64) && !batchComplete (s.elem e) then
          noteAdvance (takeSlice s e ch base b t) e
        else s
      | none => s
    | _, _ => s)

/-- May the array execute the operation at the head of its queue (R246, R307)? -/
def arrayRuns (s : State) (e : Nat) : Bool := nodeRuns s e 32 && !(s.elem e).stopped

/-- Removes the head of the queue: the operation retires, or ends with a cause. -/
def retireOp (s : State) (e : Nat) : State := modArray s e (fun a => { a with queue := a.queue.drop 1 })

/-- An operation raises a cause at the array: it has no effect, and the element stops (R246). -/
def arrayCause (s : State) (e : Nat) (k : BitVec 2) (n cause : Nat) : State :=
  raise (retireOp s e) (groveOf e) { cause := cause, src := 0, str := k.toNat, slot := n, eid := eidOf s e &&& 0x1FFFFFFFFF, unit := .elem e }

/-- Is a selector reserved (R241)? -/
def badSelector (x : Nat) : Bool := decide (0x302 ≤ x)

/-- Is a wiring word bad: reserved bits, or a reserved selector (R248)? -/
def badWiring (w : Word) : Bool :=
  bits w.toNat 60 4 != 0 || [0, 1, 2, 3, 4, 5].any (fun j => badSelector (bits w.toNat (10 * j) 10))

/-- Key of an entry of a context. -/
def cellKey (k c : Nat) : Nat := k * 512 + c

/-- Writes entry n of a block, tables and wiring alternating (R248). -/
def putEntry (a : LcArray) (pos n : Nat) (v : Word) : LcArray :=
  let key := cellKey (pos / 8) (64 * (pos % 8) + n / 2)
  if n % 2 = 0 then { a with table := mset a.table key v } else { a with wiring := mset a.wiring key v }

/-- Writes zero to the entries of a block from one on. -/
def zeroEntries (a : LcArray) (pos i : Nat) : Nat → LcArray
  | 0 => a
  | n + 1 => zeroEntries (putEntry a pos i 0) pos (i + 1) n

/-- Replaces the head of the queue. -/
def setHeadOp (a : LcArray) (o : LcOp) (k : BitVec 2) (n : Nat) : LcArray := { a with queue := (o, k, n) :: a.queue.drop 1 }

/-- The block of a load ends (R248). -/
def endBlock (s : State) (e : Nat) (k : BitVec 2) (n : Nat) (bad : Bool) : State :=
  if bad then arrayCause s e k n 0x150 else retireOp s e

/-- The array takes a token of a block (R248). -/
def blockToken (s : State) (e : Nat) (k : BitVec 2) (n : Nat) (pos : BitVec 6) (ch : BitVec 5) (taken : Nat) (bad : Bool) (t : Token) : State :=
  let s := takeHead s e ch.toNat none
  if t.mark ≠ 0 then
    endBlock (if bad then s else modArray s e (fun a => zeroEntries a pos.toNat taken (128 - taken))) e k n bad
  else
    let v := if t.pres then t.payload else 0
    let bad' := bad || (taken % 2 == 1 && badWiring v)
    let s := if bad' then s else modArray s e (fun a => putEntry a pos.toNat taken v)
    if taken + 1 = 128 then endBlock s e k n bad'
    else modArray s e (fun a => setHeadOp a (.load pos ch (taken + 1) bad') k n)

/-- lcLoadBlock: the array takes a token of the block at the head of its queue (R248). -/
def execLcLoadBlock (e : Nat) (s : State) : Host.Outcome State Fault Refusal :=
  .next (match (s.elem e).lc.queue with
    | (.load pos ch taken bad, k, n) :: _ =>
      match headOf s e ch.toNat with
      | some t => if arrayRuns s e && !t.isWave then advanced s (blockToken s e k n pos ch taken bad t) e else s
      | none => s
    | _ => s)

/-- Value that a selector names (R241). -/
def selected (a : LcArray) (x : Nat) : Word :=
  if x < 0x100 then mget 0 a.slices x
  else if x < 0x300 then mget 0 a.level (x - 0x100)
  else if x = 0x301 then BitVec.allOnes 64 else 0

/-- Output of cell c of the active context (R242). -/
def cellOutput (a : LcArray) (c : Nat) : Word :=
  let w := (mget resetWiring a.wiring (cellKey a.context.toNat c)).toNat
  let t := mget 0 a.table (cellKey a.context.toNat c)
  let vs := [0, 1, 2, 3, 4, 5].map (fun j => selected a (bits w (10 * j) 10))
  (List.range 64).foldl (fun out b =>
    let i := vs.zipIdx.foldl (fun n v => if v.1.getLsbD b then n + 2 ^ v.2 else n) 0
    if t.getLsbD i then out ||| ((1 : Word) <<< b) else out) 0

/-- A sweep of n groups: every cell reads the levels as they were before it (R242). -/
def sweep (a : LcArray) (n : Nat) : LcArray :=
  { a with level := (List.range (64 * n)).foldl (fun l c => mset l c (cellOutput a c)) a.level }

/-- lcSweep: a sweep at the head of the queue starts when its batch is complete and its cost available (R242, R245, R250). -/
def execLcSweep (e : Nat) (s : State) : Host.Outcome State Fault Refusal :=
  .next (match (s.elem e).lc.queue with
    | (.sweep n rel, _, _) :: _ =>
      if arrayRuns s e && batchComplete (s.elem e) then
        paidStep s e (8 * n) (fun s => modArray s e (fun a =>
          let a' := sweep { a with queue := a.queue.drop 1 } n
          if rel then { a' with countA := 0, countB := 0 } else a'))
      else s
    | _ => s)

/-- Does a slice lie in the range of an enabled intake (R251)? -/
def intakeSlice (p : Plane) (x : Nat) : Bool :=
  [false, true].any (fun b => match intakeOf p b with
    | some (_, base) => decide (base ≤ x) && decide (x < base + 64)
    | none => false)

/-- An lcout retires with a value (R252). -/
def putOut (s : State) (e : Nat) (k : BitVec 2) (n : Nat) (d : Dest) (gen : BitVec 4) (tid : Nat) (v : Word) : State :=
  match d with
  | .reg c => { writeReg { s with cur := .slot e k n } c v with cur := s.cur }
  | .chan ch => enqueueAs s e ch.toNat k.toNat { payload := v, gen := gen } tid
  | _ => s

/-- lcQueueOp: the array executes a queued lcctx, lcin or lcout (R246, R249, R251, R252). -/
def execLcQueueOp (e : Nat) (s : State) : Host.Outcome State Fault Refusal :=
  .next (match (s.elem e).lc.queue with
    | (o, k, n) :: _ =>
      if !arrayRuns s e then s
      else match o with
        | .ctx c => advanced s (modArray (retireOp s e) e (fun a => { a with context := c })) e
        | .put v x =>
          if intakeSlice (s.elem e).active x.toNat then arrayCause s e k n 0x151
          else advanced s (modArray (retireOp s e) e (fun a => { a with slices := mset a.slices x.toNat v })) e
        | .out d sel gen tid =>
          if badSelector sel.toNat then
            let s := if tid = 0 then s else { s with outst := merase s.outst tid }
            arrayCause s e k n 0x151
          else advanced s (putOut (retireOp s e) e k n d gen tid (selected (s.elem e).lc sel.toNat)) e
        | _ => s
    | [] => s)

end Sys2Proof.Machine
end

