-- ==== Sys2Proof/Machine/Fetch.lean ====
section
/-! DEFINITION. Selecting what a move does: the next move (R91, R93), the arbiter of an element (R29, R30), the sequencer's fetch (R24, R116, R131, R302), and placing one instruction where the next step fetches it. -/

namespace Sys2Proof.Machine

/-- The time base after some nanoseconds have passed: it never decreases, so it stays at its greatest value once it has reached it (R319). -/
def laterTime (tb : Word) (n : Nat) : Word := BitVec.ofNat 64 (min (2 ^ 64 - 1) (tb.toNat + n))

/-- The next move, and the state with the move counted, its time passed, and what the guard supply pays in that time (R399; assumptions 1, 2 and 8). -/
def nextMove (s : State) : Move × State :=
  let s' := { s with
    moveNo := s.moveNo + 1
    tb := laterTime s.tb (Config.freeElapsed s.moveNo)
    guardPool := s.guardPool - (Config.guardDraw s.moveNo : Int) }
  match s.agenda with
  | m :: rest => (m, { s' with agenda := rest })
  | [] => (Config.freeMove s.moveNo, s')

/-- Is a row a move of its own (R93)? Words are issued by fire and issue moves, and so are illegal and skipped words. -/
def isMove (i : Instr) : Bool :=
  match i with
  | .illegalWord _ => false
  | .skippedWord => false
  | _ => (encode i).isEmpty

/-- What a fetched word comes to: an instruction, or an illegal word with its detail. -/
def readWords (u : UnitKind) (w0 w1 : IWord) : Instr :=
  match wordDetail u w0 w1 with
  | some d => .illegalWord (BitVec.ofNat 6 d)
  | none => match decode w0 w1 with
    | .ok i => i
    | .error r => .illegalWord (BitVec.ofNat 6 r.detail)

/-- The instruction that a slot of a plane holds, in an element of a kind. -/
def planeInstr (p : Plane) (u : UnitKind) (n : Nat) : Instr := readWords u (p.slotPair n).1 (p.slotPair n).2

/-- The instruction a slot holds. -/
def slotInstr (s : State) (e n : Nat) : Instr := planeInstr (s.elem e).active (curKind (.slot e 0 n)) n

/-- Is a slot of a strand ready (R29, R68, R116)? An illegal word is ready whenever its trigger entry holds. -/
def slotReady (s : State) (e k n : Nat) : Bool :=
  let w := (s.elem e).active.slotWord n
  let s := { s with cur := .slot e (BitVec.ofNat 2 k) n }
  if fld w 26 6 = 63 then false
  else match slotInstr s e n with
    | .illegalWord _ => triggerHolds s e k (fld w 26 6) []
    | i =>
      let g := wordSig i
      triggerHolds s e k (fld w 26 6) ((eats s g).filterMap (fun c => (curHead s c).map Token.tid)) && wordReady s g

/-- The lowest-numbered ready slot of a strand (R30). A slot that holds the continuation of the slot before it has T = 63 and is never ready. -/
def readySlot (s : State) (e k : Nat) : Option Nat :=
  (List.range 32).find? (fun n => (s.elem e).active.slotStrand n == k && slotReady s e k n)

/-- May an element's slots fire: not stopped (R307), frozen (R267, R365, R366), past its gcall (R266) or past its entry point to a wave that waits for no freeze wave (R364, R365), past the mark of an armed swap (R265), gated (R402), in a grove at the floor (R400), or between tasks? -/
def mayFire (s : State) (e : Nat) : Bool :=
  let x := s.elem e
  !x.stopped && !x.frozen && !x.gated && !atFloor s (groveOf e) && !x.called && !pastEntry s e && !x.passed && (s.taskOfElem e).isSome

/-- The strand and slot that an element's arbiter selects (R30). -/
def selectSlot (s : State) (e : Nat) : Option (BitVec 2 × Nat) :=
  if mayFire s e then
    [0, 1, 2, 3].findSome? (fun i =>
      let k := ((s.elem e).active.arb.toNat + i) % 4
      if ((s.elem e).active.strand k).halted then none
      else (readySlot s e k).map (fun n => (BitVec.ofNat 2 k, n)))
  else none

/-- Is a request no longer one that tlbinv waits for: performed, or stopped on a cause without the translation it carried (R349)? -/
def tlbSettled (s : State) (r : Nat) : Bool :=
  performed s r || (match s.req? r with
    | some q => (match q.stage with
      | .failed _ => true
      | .stopped _ => true
      | _ => false)
    | none => true)

/-- May a sequencer consider its next word: not halted, stopped or waiting (R133, R134, R229, R307, R313, R349, R350, R365), nor, at task level, at the floor (R400)? -/
def mayIssue (s : State) (g : Nat) : Bool :=
  let x := s.grove g
  !x.halted && !(x.level == 0 && (x.stopped || x.entered || x.atPoint || atFloor s g)) && x.bank.hold == .none && x.tlbWait.all (tlbSettled s) && pauseDone x

/-- Does the guard of a word hold (R24)? -/
def guardHolds (x : Grove) (t : Nat) : Bool :=
  t == 0 || predicatesHold x.bank.p (mget 0 x.bank.guard t)

/-- What the word at a sequencer's PC comes to (R24, R116). -/
def seqInstr (s : State) (g : Nat) : Instr :=
  let x := s.grove g
  let w0 := imemWord s g x.pc
  if fld w0 26 6 = 63 then .illegalWord 6
  else if guardHolds x (fld w0 26 6) then readWords .seq w0 (imemWord s g (x.pc + 1))
  else .skippedWord

/-- A task-level fetch at or above SBASE (R302). -/
def fetchDenied (x : Grove) : Bool := x.level == 0 && decide (x.sbase.toNat ≤ x.pc)

/-- Tag of the task that stands for the load of a placed instruction. -/
def placedTag : Nat := 1

/-- A present data token with a payload of 8, and a channel that takes it and sends on a class that ends at the element itself. -/
def placedToken : Token := { payload := 8 }

/-- The words of an instruction whose bits are numbered as the opcode table numbers them. -/
def placedWords (nbits w : Nat) : IWord × IWord :=
  (BitVec.ofNat 32 (w % 2 ^ nbits), BitVec.ofNat 32 (w % 2 ^ nbits / 2 ^ 32))

/-- A task that holds grove 0 with balance to spare. -/
def placedTask (s : State) : State :=
  { s with
    tasks := mset s.tasks placedTag { groves := [0], central := 2 ^ 40 }
    tags := mset s.tags placedTag .live }

/-- An instruction for an element, in slot 0 of c(0,0) with its continuation in slot 1, every inbound channel holding one token. -/
def placeSlot (s : State) (w0 w1 : IWord) : State :=
  let s := (placedTask s).modGrove 0 (fun x => { x with task := some placedTag })
  let queue := (List.range 32).map (fun c => (c, [placedToken]))
  let s := s.setElem 0 { active := { present := true, pool := [(0, w0), (1, w1)], queue := queue } }
  { s with agenda := [.fire 0] }

/-- An instruction for a sequencer, at the PC of grove 0: at supervisor level where it needs that level. -/
def placeWord (s : State) (w0 w1 : IWord) (supervisor : Bool) : State :=
  let s := (placedTask s).modGrove 0 (fun x => { x with
    task := some placedTag, halted := false, level := if supervisor then 1 else 0
    imem := mset (mset x.imem x.pc w0) ((x.pc + 1) % 16384) w1 })
  { s with agenda := [.issue 0] }

/-- Places an instruction where the next step fetches it: on an element if elements run it, on a sequencer otherwise. -/
def placeInstr (s : State) (nbits w : Nat) : State :=
  let (w0, w1) := placedWords nbits w
  match decodeLoose w0 w1 with
  | .ok i => if (wordSig i).unit = .seq then placeWord s w0 w1 (wordSig i).privileged else placeSlot s w0 w1
  | .error _ => placeSlot s w0 w1

end Sys2Proof.Machine
end

