-- ==== Sys2Proof/Machine/Planes.lean ====
section
/-! DEFINITION. Planes and grid calls (R255 to R272): plane images, preloads, swaps, the freeze wave, the switch and the return; what a unit must have finished before a freeze or wave point (R180, R233, R267, R366). -/

namespace Sys2Proof.Machine

/-- Causes of class 6 (R272). -/
def swapSource : Nat := 0x180
def swapArmed : Nat := 0x181
def preloadTarget : Nat := 0x182
def imageInvalid : Nat := 0x183
def callDepth : Nat := 0x184
def cellarFull : Nat := 0x185
def callUnderflow : Nat := 0x186
def channelOverflow : Nat := 0x187
def cellarFault : Nat := 0x188

/-- Field of n bytes at an offset of an image held as one little-endian number. -/
def imgField (x off n : Nat) : Nat := bits x (8 * off) (8 * n)

/-- The token in slot q of an image (R57, R255). -/
def imgToken (x q : Nat) : Token :=
  let t := imgField x (0xA88 + 2 * q) 2
  { payload := BitVec.ofNat 64 (imgField x (0x688 + 8 * q) 8), gen := BitVec.ofNat 4 (bits t 12 4), mark := BitVec.ofNat 3 (bits t 9 3)
    frame := BitVec.ofNat 2 (bits t 7 2), pres := bits t 6 1 == 1, cls := BitVec.ofNat 6 (bits t 0 6) }

/-- Tokens queued in channel n of an image: those after the tokens of lower channels (R255). -/
def imgQueue (x n : Nat) : List Token :=
  let first := (List.range n).foldl (fun a c => a + imgField x (0x668 + c) 1) 0
  (List.range (imgField x (0x668 + n) 1)).map (fun i => imgToken x (first + i))

/-- Strand k of an image (R255, R257). -/
def imgStrand (x k : Nat) : Strand :=
  let c := imgField x (0x648 + 8 * k) 8
  { w := Vector.ofFn (fun j => BitVec.ofNat 64 (imgField x (0x448 + 128 * k + 8 * j.val) 8))
    p := BitVec.ofNat 8 (bits c 0 8), gen := BitVec.ofNat 4 (bits c 8 4), halted := bits c 16 1 == 1
    flush := bits c 17 1 == 1, traps := BitVec.ofNat 6 (bits c 18 6) }

/-- The plane that a 3 KiB image holds (R255, R256). -/
def imgPlane (x : Nat) : Plane :=
  let h := imgField x 0x88 8
  if bits h 56 8 = 0 then {}
  else
    let w32 (off n : Nat) : SMap IWord := (List.range n).map (fun i => (i, BitVec.ofNat 32 (imgField x (off + 4 * i) 4)))
    let d (n i : Nat) : IWord := BitVec.ofNat 32 (imgField x (0x308 + 16 * n + 4 * i) 4)
    { present := true
      callx := bits h 6 1 == 1
      armk := BitVec.ofNat 2 (bits h 4 2)
      arb := BitVec.ofNat 2 (bits h 0 2)
      pool := w32 0 32
      strandMap := BitVec.ofNat 64 (imgField x 0x80 8)
      trig := (List.range 62).map (fun i => (i + 1, BitVec.ofNat 32 (imgField x (0x90 + 4 * i) 4)))
      chan := w32 0x188 32
      route := w32 0x208 64
      node := (List.range 16).map (fun n => (n, { w0 := d n 0, w1 := d n 1, w2 := d n 2, w3 := d n 3 }))
      sreg := Vector.ofFn (fun k => BitVec.ofNat 64 (imgField x (0x408 + 8 * k.val) 8))
      strands := Vector.ofFn (fun k => imgStrand x k.val)
      queue := (List.range 32).map (fun n => (n, imgQueue x n))
      arg := BitVec.ofNat 32 (bits (imgField x 0xB88 8) 32 32)
      res := BitVec.ofNat 32 (bits (imgField x 0xB88 8) 0 32)
      fresh := true }

/-- Tag bits[23:8] of a token (R57, R255). -/
def tagBits (t : Token) : Nat := t.gen.toNat * 2 ^ 12 + t.mark.toNat * 2 ^ 9 + t.frame.toNat * 2 ^ 7 + (if t.pres then 2 ^ 6 else 0) + t.cls.toNat

/-- The strand control word (R257). -/
def strandWord (k : Strand) : Nat :=
  k.traps.toNat * 2 ^ 18 + (if k.flush then 2 ^ 17 else 0) + (if k.halted then 2 ^ 16 else 0) + k.gen.toNat * 2 ^ 8 + k.p.toNat

/-- Header word of a plane, or of the frame made of it (R256). -/
def headerWord (p : Plane) (frozen : Bool) : Nat :=
  if p.present then 2 ^ 56 + (if frozen then 2 ^ 7 else 0) + (if p.callx then 2 ^ 6 else 0) + p.armk.toNat * 2 ^ 4 + p.arb.toNat else 0

/-- The 3 KiB image of a plane, as one little-endian number (R255). -/
def planeNumber (p : Plane) (frozen : Bool) : Nat :=
  let at' (off v : Nat) : Nat := v * 2 ^ (8 * off)
  let sum (n : Nat) (f : Nat → Nat) : Nat := (List.range n).foldl (fun a i => a + f i) 0
  let tokens := (List.range 32).flatMap p.fifo
  sum 32 (fun n => at' (4 * n) (p.slotWord n).toNat) + at' 0x80 p.strandMap.toNat + at' 0x88 (headerWord p frozen) +
  sum 62 (fun i => at' (0x90 + 4 * i) (p.trigWord (i + 1)).toNat) + sum 32 (fun n => at' (0x188 + 4 * n) (p.chanWord n).toNat) +
  sum 64 (fun c => at' (0x208 + 4 * c) (p.routeWord c).toNat) +
  sum 16 (fun n => at' (0x308 + 16 * n) (p.desc n).w0.toNat + at' (0x30C + 16 * n) (p.desc n).w1.toNat +
    at' (0x310 + 16 * n) (p.desc n).w2.toNat + at' (0x314 + 16 * n) (p.desc n).w3.toNat) +
  sum 8 (fun k => at' (0x408 + 8 * k) (reg p.sreg k).toNat) +
  sum 4 (fun k => sum 16 (fun j => at' (0x448 + 128 * k + 8 * j) (reg (p.strand k).w j).toNat) + at' (0x648 + 8 * k) (strandWord (p.strand k))) +
  sum 32 (fun n => at' (0x668 + n) (p.fifo n).length) +
  tokens.zipIdx.foldl (fun a t => a + at' (0x688 + 8 * t.2) t.1.payload.toNat + at' (0xA88 + 2 * t.2) (tagBits t.1)) 0 +
  at' 0xB88 (p.arg.toNat * 2 ^ 32 + p.res.toNat)

/-- Does a plane keep the limits of R65? -/
def depthsHold (p : Plane) : Bool :=
  let ds := (List.range 32).map (fun n => chanDepth (p.chanWord n))
  ds.all (fun d => decide (2 ≤ d)) && decide (ds.foldl (· + ·) 0 ≤ 128)

/-- Has a node descriptor a reserved field that is not zero, or a reserved KIND (R76, R110, R211, R218, R221, R230, R243, R285)? -/
def reservedNode (d : Desc) : Bool :=
  let rest (w : IWord) : Bool := w != 0
  match wbits d.w0 28 4 with
  | 0 => rest d.w0 || rest d.w1 || rest d.w2 || rest d.w3
  | 1 => wbits d.w0 0 10 != 0 || wbits d.w1 0 13 != 0 || wbits d.w2 28 4 != 0 || rest d.w3
  | 2 => wbits d.w0 0 3 != 0 || rest d.w2 || rest d.w3
  | 3 => wbits d.w0 0 17 != 0 || rest d.w1 || rest d.w2 || rest d.w3
  | 4 => wbits d.w0 0 12 != 0 || rest d.w1 || rest d.w2 || rest d.w3
  | 5 => rest d.w1 || rest d.w2 || rest d.w3
  | 6 => wbits d.w0 0 9 != 0 || wbits d.w1 19 13 != 0 || wbits d.w2 19 13 != 0 || wbits d.w3 21 11 != 0
  | 7 => wbits d.w0 0 21 != 0 || rest d.w1 || rest d.w2 || rest d.w3
  | _ => true

/-- Is a loaded image invalid: FMT, FROZEN, R65 or a reserved field (R264)? -/
def imgBad (x : Nat) : Bool :=
  let h := imgField x 0x88 8
  decide (1 < bits h 56 8) || bits h 7 1 == 1 || bits h 8 48 != 0 || bits h 2 2 != 0 ||
  (bits h 56 8 == 1 && (!depthsHold (imgPlane x) || (imgPlane x).node.any (fun d => reservedNode d.2))) ||
  (List.range 32).any (fun n => bits (imgField x (0x188 + 4 * n) 4) 9 7 != 0 || bits (imgField x (0x188 + 4 * n) 4) 0 1 != 0) ||
  (List.range 64).any (fun c => bits (imgField x (0x208 + 4 * c) 4) 25 7 != 0) ||
  (List.range 4).any (fun k => bits (imgField x (0x648 + 8 * k) 8) 24 40 != 0 || bits (imgField x (0x648 + 8 * k) 8) 12 4 != 0) ||
  imgField x 0xB90 112 != 0

/-- Cache form of an image reference: the plane number it names (R262). -/
def cacheImage (v : Word) : Option Nat :=
  let k := v.toNat - 2 ^ 62
  if 2 ^ 62 < v.toNat ∧ k ≤ 3 then some k else none

/-- Is a value a memory-form image reference (R262)? -/
def memoryImage (v : Word) : Bool := decide (v.toNat < 2 ^ 52) && v.toNat % 64 == 0

/-- Plane k of the running load in an element (R262): empty where the load has none. -/
def loadPlane (s : State) (e k : Nat) : Plane :=
  match s.taskOfElem e with
  | some t => mget {} (s.task t).image.planes (((s.grove (groveOf e)).regionIndex * 256 + elemInGrove e) * 4 + k)
  | none => {}

/-- Entry k (1 to 3) of an element's understory (R259). -/
def underAt (x : Elem) (k : Nat) : Under := x.under[k - 1]?.getD .empty
/-- Sets entry k of an understory. -/
def setUnder (x : Elem) (k : Nat) (u : Under) : Elem := { x with under := setAt x.under (k - 1) u }

/-- Does position k hold a frozen frame? -/
def holdsFrame (x : Elem) (k : Nat) : Bool :=
  match underAt x k with
  | .frame _ => true
  | _ => false

/-- Does position 1 hold a preloaded plane, or is one being loaded there (R265)? -/
def canArm (x : Elem) : Bool :=
  (match underAt x 1 with
    | .plane _ => true
    | _ => false) || x.preloads.any (fun l => l.pos == 1)

/-- Starts the preload of an image into a position of an element, for the issuing pload. -/
def addPreload (s0 s : State) (e pos : Nat) (v : Word) (free : Bool) : State :=
  s.modElem e (fun x => { x with preloads := x.preloads ++ [{ pos := pos, image := v, strand := issueStrand s0, slot := curSlot s0.cur, word := curWord s0, free := free }] })

/-- Elements of a grove that a sequencer's preload of image k concerns: those with that image or with anything in the position. -/
def preloadElems (s : State) (g pos k : Nat) : List Nat :=
  (groveElems g).filter (fun e => (loadPlane s e k).present || underAt (s.elem e) pos != .empty || (s.elem e).preloads.any (fun l => l.pos == pos))

/-- Does position k of an element of a grove hold the frame of a call: of one that the state does not list, which configures nothing, as calls have pushed one (R266, R268)? -/
def groveFrames (s : State) (g k : Nat) : Bool :=
  let depth := ((s.taskOfGrove g).map (fun t => (s.task t).depth)).getD 0
  (groveElems g).any (fun e => match mfind s.elems e with
    | some x => holdsFrame x k
    | none => decide (k ≤ depth))

/-- pload (R264). -/
def execPload (t a b : BitVec 6) (s : State) : Host.Outcome State Fault Refusal :=
  issueWord (.pload t a b) s (fun s0 s1 => match srcVal s0 b with
    | none => .done s1 0
    | some v =>
      let pos := a.toNat
      match s0.cur with
      | .slot e _ _ =>
        if pos = 0 ∨ 3 < pos ∨ holdsFrame (s0.elem e) pos then .cause preloadTarget 0 0
        else if (cacheImage v).isSome || memoryImage v then .done (addPreload s0 s1 e pos v false) 0
        else .cause imageInvalid 0 0
      | .word g _ =>
        if pos = 0 ∨ 3 < pos ∨ groveFrames s0 g pos ∨ memoryImage v then .cause preloadTarget 0 0
        else match cacheImage v with
          | some k => .done ((preloadElems s0 g pos k).foldl (fun s e => addPreload s0 s e pos v s0.supervising) s1) 0
          | none => .cause imageInvalid 0 0)

/-- Arms a swap in an element. -/
def armSwap (s : State) (e k : Nat) : State :=
  s.modElem e (fun x => { x with active := { x.active with armk := BitVec.ofNat 2 k }, passed := false })

/-- pswap (R265). -/
def execPswap (t b : BitVec 6) (s : State) : Host.Outcome State Fault Refusal :=
  issueWord (.pswap t b) s (fun s0 s1 => match s0.cur with
    | .slot e _ _ =>
      if !canArm (s0.elem e) then .cause swapSource 0 0
      else if (s0.elem e).active.armk ≠ 0 then .cause swapArmed 0 0
      else .done (armSwap s1 e b.toNat) 0
    | .word g _ =>
      .done (((groveElems g).filter (fun e => canArm (s0.elem e) && (s0.elem e).active.armk == 0)).foldl (fun s e => armSwap s e b.toNat) s1) 0)

/-- Task and cellar length of the issuing unit's grove. -/
def callTask (s : State) : Option (Nat × Nat) :=
  (s.taskOfGrove (curGrove s)).map (fun t => (t, (s.grove (curGrove s)).cellarn.toNat))

/-- The cause that a call meets at issue (R266). -/
def callCause (x : Task) (l : Nat) (a : BitVec 6) (v : Word) : Option Nat :=
  if a = 16 then (if x.depth ≠ 0 then some swapSource else none)
  else if (cacheImage v).isNone then some imageInvalid
  else if 255 ≤ x.depth then some callDepth
  else if l + 3 < x.depth + 1 then some cellarFull
  else none

/-- gcall: the freeze wave starts, and the issuing element fires nothing more until the thaw (R266). -/
def execGcall (t a b : BitVec 6) (s : State) : Host.Outcome State Fault Refusal :=
  issueWord (.gcall t a b) s (fun s0 s1 => match srcVal s0 b, srcVal s0 a, callTask s0 with
    | some _, some v, some (k, l) =>
      match callCause (s0.task k) l a v with
      | some c => .cause c 0 0
      | none =>
        let s := s1.modTask k (fun x => { x with wave := some (.freeze (a == 16) ((cacheImage v).getD 0)) })
        .done (match s0.cur with
          | .slot e _ _ => s.modElem e (fun x => { x with called := true })
          | .word _ _ => s) 0
    | _, _, _ => .done s1 0)

/-- Arms the return of a task's innermost call (R269). -/
def armReturn (x : Task) : Task := { x with returning := if x.returning.contains x.depth then x.returning else x.returning ++ [x.depth] }

/-- Is the return of a task's innermost call armed (R269)? -/
def returnArmed (x : Task) : Bool := x.returning.contains x.depth

/-- gret: arms the return of the innermost call (R269). -/
def execGret (t a : BitVec 6) (s : State) : Host.Outcome State Fault Refusal :=
  issueWord (.gret t a) s (fun s0 s1 => match srcVal s0 a, callTask s0 with
    | some _, some (k, _) =>
      if (s0.task k).depth = 0 then .cause callUnderflow 0 0 else .done (s1.modTask k armReturn) 0
    | _, _ => .done s1 0)

/-- Elements of a region that the state lists. -/
def listedElems (s : State) (gs : List Nat) : List Nat := (s.elems.filter (fun e => gs.contains (groveOf e.1))).map (fun e => e.1)

/-- A configuration whose routes and channels are traced: the active plane of each element, the element on each side of another, and the kind of each (R62, R71). -/
structure Net where
  plane : Nat → Plane
  next : Nat → Side → Option Nat
  kind : Nat → UnitKind

/-- The configuration that is active in the elements. -/
def State.net (s : State) : Net := { plane := fun e => (s.elem e).active, next := neighbour, kind := fun e => curKind (.slot e 0 0) }

/-- The inbound channels that a class's path delivers into, from a worklist of routers (R61, R62). -/
def classDests (f : Net) (c : Nat) : Nat → List Nat → List (Nat × Nat) → List (Nat × Nat)
  | 0, _, acc => acc
  | _, [], acc => acc
  | fuel + 1, e :: es, acc =>
    let entry := (f.plane e).routeWord c
    if routeValid entry then
      classDests f c fuel ((routeSides entry).filterMap (f.next e) ++ es) (if routeLocal entry then (e, routeDch entry) :: acc else acc)
    else classDests f c fuel es acc

/-- Channels that an outbound channel of an element delivers into. -/
def chanDests (f : Net) (e ch : Nat) : List (Nat × Nat) := classDests f (chanClass ((f.plane e).chanWord ch)) moduleElems [e] []

/-- Bound channels of a region: those that some route delivers into (R267). -/
def boundChannels (s : State) (gs : List Nat) : List (Nat × Nat) :=
  ((listedElems s gs).flatMap (fun e => (List.range 32).flatMap (fun ch => chanDests s.net e ch))).dedup

/-- Inbound and outbound channels of an instruction's fields, whatever its predicates are (R71). -/
def staticChannels (g : Sig) : List Nat × List Nat :=
  let c (x : BitVec 6) : List Nat := if 32 ≤ x.toNat then [x.toNat - 32] else []
  (g.opnds.flatMap (fun o => match o with
    | .src a => c a
    | .inb a => c a
    | .stream a => c a
    | .merge a b _ => c a ++ c b
    | _ => []),
   g.opnds.flatMap (fun o => match o with
    | .out a => c a
    | .dst a => c a
    | .steer a b _ => c a ++ c b
    | _ => []))

/-- The slots of a plane that hold words, and the instructions in them. -/
def planeWords (p : Plane) (u : UnitKind) : List (Nat × Instr) :=
  ((List.range 32).filter (fun n => wbits (p.slotWord n) 26 6 != 63)).map (fun n => (n, planeInstr p u n))

/-- Outbound channels that receive what a lookup-cell array, or a race unit, puts out: those that the instructions of the plane name (R252, R288). -/
def unitOuts (is : List (Nat × Instr)) (race : Bool) : List Nat :=
  is.flatMap (fun i => match race, i.2 with
    | false, .lcout _ _ _ _ => (staticChannels (wordSig i.2)).2
    | true, .raceK _ _ _ _ => (staticChannels (wordSig i.2)).2
    | _, _ => [])

/-- Channels that a node enqueues what it has read on (R71). -/
def nodeWrites (is : List (Nat × Instr)) (d : Desc) : List Nat :=
  match wbits d.w0 28 4 with
  | 1 => if mxOutChan d then [mxOch d] else []
  | 2 => [cvOch d]
  | 3 => [ctOch d]
  | 4 => unitOuts is false
  | 5 => unitOuts is true
  | _ => []

/-- Channels that a lookup-cell array reads blocks from: those of the plane's lcld words (R248). -/
def cellReads (is : List (Nat × Instr)) : List Nat :=
  is.flatMap (fun i => match i.2 with
    | .lcld _ _ _ _ => (staticChannels (wordSig i.2)).1
    | _ => [])

/-- Consumer and producer channels of every slot and node of an element, and of its lookup-cell array, which reads blocks too (R71, R248). -/
def elemEdges (f : Net) (e : Nat) : List (List Nat × List Nat) :=
  let p := f.plane e
  let is := planeWords p (f.kind e)
  (cellReads is, unitOuts is false) :: (is.map (fun i => staticChannels (wordSig i.2)) ++ p.node.map (fun d => (nodeReads d.2, nodeWrites is d.2)))

/-- Successors of an inbound channel in the channel graph (R71). -/
def chanNext (f : Net) (v : Nat × Nat) : List (Nat × Nat) :=
  (elemEdges f v.1).flatMap (fun x => if x.1.contains v.2 then x.2.flatMap (fun ch => chanDests f v.1 ch) else [])

/-- Channels reachable in the channel graph from a worklist. -/
def chanReach (f : Net) : Nat → List (Nat × Nat) → List (Nat × Nat) → List (Nat × Nat)
  | 0, _, seen => seen
  | _, [], seen => seen
  | fuel + 1, v :: vs, seen => if seen.contains v then chanReach f fuel vs seen else chanReach f fuel (chanNext f v ++ vs) (v :: seen)

/-- Does an inbound channel lie on a cycle of R71? -/
def inCycle (f : Net) (v : Nat × Nat) : Bool := (chanReach f (32 * moduleElems) (chanNext f v) []).contains v

/-- Does an inbound channel lie on a cycle of the active configuration (R71)? -/
def onCycle (s : State) (v : Nat × Nat) : Bool := inCycle s.net v

/-- Does a channel hold a wave's marker at its head, or count as holding it (R133, R267)? -/
def holdsMarker (s : State) (mark : BitVec 3) (v : Nat × Nat) : Bool :=
  (match headOf s v.1 v.2 with
    | some t => t.mark == mark
    | none => false) || (discards s v.1 v.2 && (s.elem v.1).markSeen.getLsbD v.2)

/-- Does a channel hold a wave's marker, at its head or behind other tokens, or count as holding it (R133, R268)? -/
def containsMarker (s : State) (mark : BitVec 3) (v : Nat × Nat) : Bool :=
  ((s.elem v.1).active.fifo v.2).any (fun t => t.mark == mark) || (discards s v.1 v.2 && (s.elem v.1).markSeen.getLsbD v.2)

/-- Can some unit of an element take tokens from a channel: a slot of a strand that has not halted, a node, a queued block load, an AG command? -/
def takesFrom (s : State) (e ch : Nat) : Bool :=
  let p := (s.elem e).active
  (planeWords p (curKind (.slot e 0 0))).any (fun i => !(p.strand (p.slotStrand i.1)).halted && (staticChannels (wordSig i.2)).1.contains ch) ||
    (nodeChannels p).contains ch || (agChannels s e).contains ch || (s.elem e).lc.queue.any (fun o => match o.1 with
      | .load _ c _ _ => c.toNat == ch
      | _ => false)

/-- Has a wave's marker come to a channel as a wave asks: to its head (R267, R366), or, where no unit of the plane takes tokens from it, behind the tokens that stay queued, such as the arguments of a callee (assumption 31)? -/
def markerCame (s : State) (mark : BitVec 3) (v : Nat × Nat) : Bool :=
  holdsMarker s mark v || (containsMarker s mark v && !takesFrom s v.1 v.2)

/-- Elements that the markers of an element reach, by channels on no cycle. -/
def fedElems (s : State) (e : Nat) : List Nat :=
  (((List.range 32).flatMap (chanDests s.net e)).filter (fun v => !onCycle s v)).map (fun v => v.1)

/-- Elements that markers reach from a worklist of elements, each passing them on. -/
def markerReach (s : State) : Nat → List Nat → List Nat → List Nat
  | 0, _, seen => seen
  | _, [], seen => seen
  | fuel + 1, e :: es, seen => if seen.contains e then markerReach s fuel es seen else markerReach s fuel (fedElems s e ++ es) (e :: seen)

/-- Elements that enqueue markers which reach a channel. -/
def feeders (s : State) (gs : List Nat) (v : Nat × Nat) : List Nat :=
  (listedElems s gs).filter (fun e => (List.range 32).any (fun ch => (chanDests s.net e ch).contains v))

/-- Do the markers of a channel come only from elements that wait for the channel's own element, or from that element (assumption 31)? -/
def fedBack (s : State) (gs : List Nat) (v : Nat × Nat) : Bool :=
  let after := markerReach s (moduleElems * 32) [v.1] []
  (feeders s gs v).all after.contains

/-- Does an element's point await a wave's marker on a channel: a bound one on no cycle of channels (R267, R366), or of elements (assumption 31)? -/
def awaitsMarker (s : State) (gs : List Nat) (v : Nat × Nat) : Bool := !onCycle s v && !fedBack s gs v

/-- Have all bound channels of an element on which a marker is awaited a wave's marker (R267, R366)? -/
def markersIn (s : State) (gs : List Nat) (mark : BitVec 3) (e : Nat) : Bool :=
  (boundChannels s gs).all (fun v => v.1 != e || markerCame s mark v || !awaitsMarker s gs v)

/-- Has every engine of an element completed its steps: no tile being written, no token formed and not enqueued, no block being emitted, no array operation queued, no end mark due after a race result, and no partial payload or block that a marker closes (R103, R219, R222, R233, R240, R288)? -/
def enginesDone (s : State) (e : Nat) : Bool :=
  let x := s.elem e
  let closes (kind : Nat) (ich : Desc → Nat) (idle : Bool) : Bool := match x.active.findDesc kind with
    | some (_, d) => idle || !waveAtHead s e (ich d)
    | none => true
  !x.matrix.writing && x.matrix.eos.isNone && x.race.eos.isNone && x.conv.output.isEmpty && !x.turn.emitting && x.turn.after.isNone &&
    decide (x.turn.block.length < 64) && x.lc.queue.isEmpty &&
    closes 2 cvIch (x.conv.bitsHeld == 0 && x.conv.group.isEmpty && x.conv.scales.isEmpty) && closes 3 ctIch x.turn.block.isEmpty

/-- Is no engine step of an element in progress, and no tile step that could start (R133, R215; assumption 14)? -/
def stepsRest (s : State) (e : Nat) : Bool :=
  enginesDone s e && (match nodeOf s e 1 with
    | some (_, d) => !stepReady s e d
    | none => true)

/-- Have the engines of an element nothing left to do, and has it no at pending (R133, R178)? -/
def enginesRest (s : State) (e : Nat) : Bool := stepsRest s e && (s.elem e).ats.isEmpty

/-- Is a request one of an element or of its AGs? -/
def ofElement (e : Nat) (q : Req) : Bool :=
  match q.src with
  | .elem x => x == e
  | .ag g n => mElem g (n / 4) == e
  | _ => false

/-- Is a request one of a sequencer's task program? -/
def ofSequencer (g : Nat) (q : Req) : Bool := q.src == .seq g && !q.supervisor

/-- May a request be withdrawn: a load or wait still deferred at a bank or an HBM channel, or held back behind one in its chain (R180)? -/
def withdrawable (s : State) (q : Req) : Bool :=
  let read := match q.kind with
    | .load _ => true
    | .wait _ => true
    | .absent => true
    | _ => false
  read && (match q.stage, q.target with
    | .deferred, .module _ _ => false
    | .deferred, _ => true
    | .held, _ => true
    | .after _, _ => true
    | .queued, _ => !waveEligible s q
    | _, _ => false)

/-- Have all requests of a unit been performed and answered, but those that are withdrawn (R180)? A stopped request is kept where the wave takes units stopped on class-3 causes (R353). -/
def requestsSettled (s : State) (mine : Req → Bool) (stopped : Bool) : Bool :=
  s.reqs.all (fun r => !mine r.2 || withdrawable s r.2 || (stopped && (match r.2.stage with
    | .stopped _ => true
    | _ => false)))

/-- A withdrawn request as the save keeps it: one whose PRED request has been performed follows nothing any more (R98, R99, R180). -/
def withdrawn (s : State) (q : Req) : Req :=
  match q.wave with
  | none => q
  | some w => if q.stage = .deferred ∨ (q.pred.map (fun p => performed s p.req)).getD false then { q with wave := some { w with pred := 0xFF } } else q

/-- Withdraws the requests of a unit that are left: out of their ports and of the table of requests. -/
def takeBack (s : State) (mine : Req → Bool) : State × List (Nat × Req) :=
  let qs := (s.reqs.filter (fun r => mine r.2)).map (fun r => (r.1, withdrawn s r.2))
  (qs.foldl (fun s r => (leavePort s r.1 r.2).dropReq r.1) s, qs)

/-- A chain record as a frame or a save keeps it: one whose request has been performed orders nothing at a destination any more (R98, R99). -/
def keptChain (qs : List (Nat × Req)) (c : ChainRec) : ChainRec := if qs.any (fun q => q.1 == c.req) then c else { c with target := none }

/-- A withdrawn request as it is sent again: to its bank, or through a translation made afresh. One that was stopped on a cause, or held for its chain without a translation, stays so, and an absent one goes where it went. -/
def sentAgain (q : Req) : Req :=
  match q.stage, q.target, q.kind with
  | .stopped _, _, _ => q
  | .held, _, .absent => q
  | .after _, _, .absent => q
  | .held, _, _ => if q.pageSize = 0 then q else { q with stage := .xlate, pageSize := 0 }
  | .after _, _, _ => if q.pageSize = 0 then q else { q with stage := .xlate, pageSize := 0 }
  | _, _, .absent => { q with stage := .sent }
  | _, .bank _ _, _ => { q with stage := .sent }
  | _, _, _ => { q with stage := .xlate, pageSize := 0 }

/-- Sends withdrawn requests again, without a second cost; they meet their words as they are now (R180). -/
def giveBack (s : State) (qs : List (Nat × Req)) : State := { s with reqs := qs.foldl (fun m r => mset m r.1 (sentAgain r.2)) s.reqs }

/-- Does a wave marker head a channel that the head command of an AG reads (R366)? -/
def agHeld (s : State) (g n : Nat) (c : AgCmd) : Bool :=
  let marked (ch : Nat) : Bool := waveAtHead s (agElem g n) ch
  match c.kind with
  | .affine _ => c.stage.inbound && marked c.stage.ch.toNat
  | .gather ch _ => marked ch.toNat
  | .scatter ch => marked ch.toNat || marked c.stage.ch.toNat
  | _ => false

/-- Is an AG paused: stopped, or between bursts or at a marker, with no token due (R233, R366)? -/
def agPaused (s : State) (g n : Nat) : Bool :=
  let a := (s.grove g).ag n
  a.stopped || (match a.queue with
    | c :: _ => (atBoundary a || agHeld s g n c) && (nextToken c).isNone
    | [] => true)

/-- Are the AGs of an element paused (R233)? -/
def agsPaused (s : State) (e : Nat) : Bool := isC e || (List.range 4).all (fun n => agPaused s (groveOf e) (mIndex e * 4 + n))

/-- Elements of a region whose AGs hold commands. -/
def commandElems (s : State) (gs : List Nat) : List Nat :=
  gs.flatMap (fun g => ((s.grove g).ags.filter (fun a => !a.2.queue.isEmpty)).map (fun a => agElem g a.1))

/-- Elements of a region that a wave concerns: the listed ones and those whose AGs hold commands. -/
def waveElems (s : State) (gs : List Nat) : List Nat := (listedElems s gs ++ commandElems s gs).dedup

/-- Does an element take part in a wave: it configures something, or its AGs hold commands (R233)? -/
def takesPart (s : State) (e : Nat) : Bool :=
  (s.elem e).active.present || (!isC e && (List.range 4).any (fun n => !((s.grove (groveOf e)).ag (mIndex e * 4 + n)).queue.isEmpty))

/-- Is an element at its freeze or wave point? One that configures nothing and runs no stream has none. -/
def atPoint (s : State) (e : Nat) : Bool := (s.elem e).frozen || !takesPart s e

/-- Is a record of a task queued at a grove (R317)? causes in class 3 do not count where they are let by. -/
def recordQueued (x : Grove) (t : Nat) (class3 : Bool) : Bool :=
  (x.traps ++ x.waitingTraps).any (fun r => r.tag == t && !(class3 && r.cause / 64 == 3))

/-- Is every hop queue, window queue and branch buffer of a region empty (R268)? -/
def fabricEmpty (s : State) (gs : List Nat) : Bool :=
  s.fabric.all (fun q => q.2.isEmpty || !gs.contains (groveOf (q.1 / 4096)))

/-- Stops an element at its freeze or wave point: requests left are withdrawn, and it enqueues the wave's markers. -/
def reachPoint (s : State) (e : Nat) (mark : BitVec 3) : State :=
  let (s, qs) := takeBack s (ofElement e)
  enqueueMarkers (s.modElem e (fun x => { x with frozen := true, withdrawn := qs })) e mark

/-- freezePoint: an element reaches its freeze point, at the cost of its freeze: none where its plane is empty and only its AGs pause (R233, R267, R270). -/
def execFreezePoint (e : Nat) (s : State) : Host.Outcome State Fault Refusal :=
  .next (match s.taskOfElem e with
    | none => s
    | some t =>
      let x := s.elem e
      match (s.task t).wave with
      | some (.freeze _ _) =>
        let gs := (s.task t).groves
        if takesPart s e && !x.frozen && !x.stopped && x.nodeStops.isEmpty && (s.task t).dry.isNone && !recordQueued (s.grove (groveOf e)) t false &&
            (x.called || markersIn s gs 6 e) && enginesDone s e && agsPaused s e && requestsSettled s (ofElement e) false then
          if x.active.present then paidStep s e 48 (fun s => reachPoint s e 6) else reachPoint s e 6
        else s
      | _ => s)

/-- Raises a cause at an element that no slot of it raises (R268, R269, R272). -/
def raiseElem (s : State) (e cause : Nat) (addr : Word) : State :=
  raise s (groveOf e) { cause := cause, src := 0, eid := eidOf s e &&& 0x1FFFFFFFFF, addr := addr, unit := .elem e }

/-- Do the tokens queued in some channel of a plane exceed its DEPTH? -/
def overfull (p : Plane) : Bool := (List.range 32).any (fun n => decide (chanDepth (p.chanWord n) < slotsUsed (p.fifo n)))

/-- Raises channel-overflow at an element whose active plane is over full. -/
def checkDepths (s : State) (e : Nat) : State := if overfull (s.elem e).active then raiseElem s e channelOverflow 0 else s

/-- Takes the cost of the next part of a region's switch or return that is not taken yet; none when all are (R184, R270). An element's parts are listed with their costs, in order. -/
def payPart (s : State) (t : Nat) (parts : List (Nat × List Nat)) : Option State :=
  match parts.find? (fun p => decide ((s.elem p.1).partPaid < p.2.length)) with
  | none => none
  | some (e, costs) =>
    some (if (s.task t).dry.isSome then s
      else paidStep s e (costs.getD (s.elem e).partPaid 0) (fun s => s.modElem e (fun x => { x with partPaid := x.partPaid + 1 })))

/-- Virtual address of spilled frame j of an element (R260). -/
def cellarAddr (s : State) (t e j : Nat) : Nat :=
  let x := s.grove (groveOf e)
  x.cellar.toNat + (j * (256 * (s.task t).groves.length) + x.regionIndex * 256 + elemInGrove e) * 0x1000

/-- May a frame be moved at an address of a context: a spill, which writes, or a fill, which reads, at an HBM leaf of this module that lets it (R261)? -/
def cellarPage (s : State) (c va : Nat) (write : Bool) : Bool :=
  match walk s c va with
  | .ok (leaf, _) => (if write then leafW leaf else leafR leaf) && !leafHost leaf && leafMod leaf == s.moduleNo
  | .error _ => false

/-- The element whose frame to move meets a translation or permission cause, with the frame's address (R261). -/
def cellarBlocked (s : State) (t : Nat) (moves : List (Nat × Nat)) (write : Bool) : Option (Nat × Nat) :=
  (moves.map (fun m => (m.1, cellarAddr s t m.1 m.2))).find? (fun m => !cellarPage s (s.task t).ctx m.2 write)

/-- Places of the 512 words of a frame that is spilled, for a write from outside any task (R258, R261). -/
def frameTargets (s : State) (t e j : Nat) : List DevicePlace :=
  match deviceTargets s (s.task t).ctx (cellarAddr s t e j) 512 with
  | .ok ts => ts
  | .error _ => []

/-- Writes a word of a spilled frame, which leaves its sector's state as it is (R260, R261; assumption 23). -/
def spillWord (s : State) (p : DevicePlace) (v : Word) : State :=
  match p.target with
  | .hbm pa => { writtenUnder s (pa / 64) p.key with mem := setWord s.mem pa v }
  | _ => s

/-- Writes a spilled frame: its image, and an in-flight record that the device alone reads, a free value (R258, R260; assumption 23). -/
def writeFrame (s : State) (t e j : Nat) (f : Frame) : State :=
  let n := planeNumber f.plane true
  ((frameTargets s t e j).zip ((List.range 384).map (fun i => BitVec.ofNat 64 (n / 2 ^ (64 * i))) ++ (List.range 128).map (Config.flightWord s.moveNo))).foldl
    (fun s w => spillWord s w.1 w.2) s

/-- Does the write of a frame wait for a sector to resolve (R83)? -/
def cellarHeld (s : State) (t : Nat) (moves : List (Nat × Nat)) : Bool := moves.any (fun m => (frameTargets s t m.1 m.2).any (deviceHeld s))

/-- Is a plane's frame empty, so that it moves free of charge (R270)? -/
def frameEmpty (f : Frame) : Bool := !f.plane.present

/-- The frame that a push into an understory spills, if any (R259). -/
def spilled (x : Elem) : Option Frame :=
  match underAt x 3 with
  | .frame f => some f
  | _ => none

/-- What the AGs of an element keep in a frame: their queues (R258). -/
def savedQueues (s : State) (e : Nat) : SMap Ag :=
  if isC e then [] else
  let x := s.grove (groveOf e)
  (List.range 4).map (fun n => (mIndex e * 4 + n, { queue := (x.ag (mIndex e * 4 + n)).queue }))

/-- Replaces the queues of an element's AGs; staging, extents and FIFOs stay (R258). -/
def putQueues (s : State) (e : Nat) (m : SMap Ag) : State :=
  if isC e then s else
  s.modGrove (groveOf e) (fun x => (List.range 4).foldl (fun x n =>
    let a := mIndex e * 4 + n
    if (x.ag a).queue.isEmpty && (mget {} m a).queue.isEmpty then x else x.setAg a { x.ag a with queue := (mget {} m a).queue }) x)

/-- Outstanding tokens that an element has produced (R72). -/
def outstOf (s : State) (e : Nat) : SMap Outst := s.outst.filter (fun o => o.2.elem == e)
/-- Replaces the outstanding tokens that an element has produced. -/
def putOutst (s : State) (e : Nat) (m : SMap Outst) : State :=
  { s with outst := m.foldl (fun l o => mset l o.1 o.2) (s.outst.filter (fun o => o.2.elem != e)) }

/-- The frozen frame of an element, its queues without markers (R258, R268). -/
def frozenFrame (s : State) (e : Nat) (exchange : Bool) : Frame :=
  let x := s.elem e
  { plane := { x.active with callx := exchange, fresh := false, queue := x.active.queue.map (fun q => (q.1, q.2.filter (fun t => !t.isWave))) }
    flight :=
      { reqs := x.withdrawn, ats := x.ats, fences := x.fences, chains := x.chains.map (keptChain x.withdrawn), outst := outstOf s e, passed := x.passed
        decode := x.decode, matrix := x.matrix, conv := x.conv, turn := x.turn, race := x.race, ags := savedQueues s e } }

/-- The positions of the nodes of an element whose plane has become active: the plane's own, but what counts since task start, and a race unit that has finished, are the element's (R41, R286). -/
def takeNodes (x : Elem) (n : Nodes) : Elem :=
  { x with
    matrix := { n.matrix with done := x.matrix.done }, conv := { n.conv with index := x.conv.index }, turn := n.turn
    race := { n.race with finished := x.race.finished || n.race.finished } }

/-- An element with a plane made active, and nothing of the outgoing one in flight. -/
def activate (x : Elem) (p : Plane) : Elem :=
  { takeNodes x p.nodes with
    active := { p with fresh := false, nodes := {} }, withdrawn := [], ats := [], fences := [], chains := [], decode := []
    frozen := false, entered := false, called := false, passed := false, markSeen := 0, nodeStops := [], partPaid := 0 }

/-- Tokens of the channels of a mask, with their channels. -/
def maskedTokens (p : Plane) (mask : BitVec 32) : List (Nat × List Token) :=
  ((List.range 32).filter (fun n => mask.getLsbD n)).map (fun n => (n, p.fifo n))

/-- The tokens have passed to another plane, and count as consumed (R72). -/
def passTokens (s : State) (ts : List Token) : State := ts.foldl (fun s t => consumeCopy s t.tid) s

/-- Queues lists of tokens behind those of a plane's channels. -/
def appendQueues (p : Plane) (qs : List (Nat × List Token)) : Plane :=
  qs.foldl (fun p q => p.setFifo q.1 (p.fifo q.1 ++ q.2.map (fun t => { t with tid := 0 }))) p

/-- Primed tokens that a plane queues when it becomes active: none after the first time (R265). -/
def primed (p : Plane) : SMap (List Token) := if p.fresh then p.queue else []

/-- The callee of an element in a call (R266). -/
def calleeOf (s : State) (e : Nat) (exchange : Bool) (k : Nat) : Plane :=
  if exchange then
    match underAt (s.elem e) 1 with
    | .plane p => p
    | _ => {}
  else { loadPlane s e k with fresh := true }

/-- The tokens that a switch moves into the callee of an element count as consumed (R72, R268). -/
def passArgs (exchange : Bool) (k : Nat) (s : State) (e : Nat) : State :=
  passTokens s ((maskedTokens (s.elem e).active (calleeOf s e exchange k).arg).flatMap (fun q => q.2.filter (fun t => !t.isWave)))

/-- The switch of an element (R268). -/
def switchElem (exchange : Bool) (k : Nat) (s : State) (e : Nat) : State :=
  let x := s.elem e
  let callee := calleeOf s e exchange k
  let f := frozenFrame s e exchange
  let args := maskedTokens f.plane callee.arg
  let f := { f with plane := args.foldl (fun (p : Plane) q => p.setFifo q.1 []) f.plane }
  let y := if exchange then setUnder x 1 (.frame f)
    else { x with
      under := #v[.frame f, underAt x 1, underAt x 2]
      cellar := x.cellar ++ (spilled x).toList
      preloads := (x.preloads.map (fun l => { l with pos := l.pos + 1 })).filter (fun l => decide (l.pos ≤ 3)) }
  let callee := appendQueues { callee with queue := [] } (args ++ primed callee)
  checkDepths (discardQueued (putOutst (putQueues (s.setElem e (activate y callee)) e []) e []) e) e

/-- Parts of a switch with their costs (R270): the callee's, and the spill of a frame. -/
def switchParts (s : State) (es : List Nat) (exchange : Bool) (k : Nat) : List (Nat × List Nat) :=
  es.map (fun e => (e, (if (calleeOf s e exchange k).present then [if exchange then 16 else 24] else []) ++
    (if exchange then [] else match spilled (s.elem e) with
      | some f => if frameEmpty f then [] else [81920]
      | none => [])))

/-- Elements that a switch to call image k concerns: the listed ones and those with a plane k. -/
def switchElems (s : State) (gs : List Nat) (exchange : Bool) (k : Nat) : List Nat :=
  if exchange then listedElems s gs else (gs.flatMap groveElems).filter (fun e => (mfind s.elems e).isSome || (loadPlane s e k).present)

/-- The frames that a push call's switch spills, with the places in their cellars. -/
def switchMoves (s : State) (es : List Nat) (exchange : Bool) : List (Nat × Nat × Frame) :=
  if exchange then [] else es.filterMap (fun e => match spilled (s.elem e) with
    | some f => if frameEmpty f then none else some (e, (s.elem e).cellar.length, f)
    | none => none)

/-- May the switch take place (R268)? -/
def switchReady (s : State) (t : Nat) : Bool :=
  let gs := (s.task t).groves
  (waveElems s gs).all (fun e => atPoint s e && !(s.elem e).stopped) &&
    fabricEmpty s gs && (boundChannels s gs).all (containsMarker s 6) && gs.all (fun g => !recordQueued (s.grove g) t false)

/-- gridCallSwitch: the parts of the switch are charged one by one, and then the switch is one move (R268, R270). It stops with a dry task (R205), and waits while a sector that a spill writes is tentative (R83). -/
def execGridCallSwitch (t : Nat) (s : State) : Host.Outcome State Fault Refusal :=
  .next (match (s.task t).wave with
    | some (.freeze exchange k) =>
      if !isLive s t || (s.task t).dry.isSome || !switchReady s t then s
      else
        let es := switchElems s (s.task t).groves exchange k
        match payPart s t (switchParts s es exchange k) with
        | some s => s
        | none =>
          let moves := switchMoves s es exchange
          let places := moves.map (fun m => (m.1, m.2.1))
          match cellarBlocked s t places true with
          | some (e, va) => raiseElem s e cellarFault (BitVec.ofNat 64 va)
          | none =>
            if cellarHeld s t places then s
            else
              let s := moves.foldl (fun s m => writeFrame s t m.1 m.2.1 m.2.2) s
              (es.foldl (switchElem exchange k) (es.foldl (passArgs exchange k) s)).modTask t (fun x => { x with wave := none, depth := x.depth + 1 })
    | _ => s)

/-- Is no slot of an element ready (R269)? -/
def noneReady (s : State) (e : Nat) : Bool :=
  [0, 1, 2, 3].all (fun k => ((s.elem e).active.strand k).halted || (readySlot s e k).isNone)

/-- Is a request as a return asks: performed, or of no task, or of another (R269)? One that a cause holds at its stopped unit is not. -/
def returnLets (s : State) (t : Nat) (r : Nat × Req) : Bool := r.2.tag != t || r.2.supervisor || performed s r.1

/-- May the armed return of a task take place (R269)? -/
def returnReady (s : State) (t : Nat) : Bool :=
  let x := s.task t
  returnArmed x && x.wave.isNone && fabricEmpty s x.groves && s.reqs.all (returnLets s t) &&
    (listedElems s x.groves).all (fun e => noneReady s e && stepsRest s e) &&
    x.groves.all (fun g => streamsDone (s.grove g))

/-- The frame that a return thaws in an element. -/
def thawFrame (x : Elem) : Frame :=
  match underAt x 1 with
  | .frame f => f
  | _ => {}

/-- The frame that a push call's return fills from the cellar (R259). -/
def filled (x : Elem) : Option Frame := if (thawFrame x).plane.callx then none else x.cellar.getLast?

/-- The return of an element (R269). -/
def returnElem (s : State) (e : Nat) : State :=
  let x := s.elem e
  let f := thawFrame x
  let kept := maskedTokens x.active x.active.res
  let s := putOutst s e f.flight.outst
  let y := if f.plane.callx then setUnder x 1 .empty
    else { x with
      under := #v[underAt x 2, underAt x 3, (match filled x with
        | some c => .frame c
        | none => .empty)]
      cellar := x.cellar.dropLast
      preloads := (x.preloads.filter (fun l => decide (1 < l.pos))).map (fun l => { l with pos := l.pos - 1 }) }
  let thawed : Nodes := { matrix := f.flight.matrix, conv := f.flight.conv, turn := f.flight.turn, race := f.flight.race }
  let z := { activate y (appendQueues { f.plane with callx := false, nodes := thawed } kept) with
    ats := f.flight.ats, fences := f.flight.fences, chains := f.flight.chains, passed := f.flight.passed, decode := f.flight.decode }
  checkDepths (discardQueued (giveBack (putQueues (s.setElem e z) e f.flight.ags) f.flight.reqs) e) e

/-- A performed request of a returning element: its reply finds no register or channel of the callee any more; a sector of a preload goes with its position (R264, R269). -/
def returnReq (s : State) (gs : List Nat) (q : Req) : Req :=
  match q.src, q.stage, q.dest with
  | .elem e, _, .plane k => if !gs.contains (groveOf e) || (thawFrame (s.elem e)).plane.callx then q else if k ≤ 1 then { q with dest := .none } else { q with dest := .plane (k - 1) }
  | .elem e, .done _ _, _ => if gs.contains (groveOf e) then { q with dest := .none, tid := 0 } else q
  | _, _, _ => q

/-- The replies that are on their way to the callee planes of a region (R269). -/
def dropReplies (s : State) (gs : List Nat) : State := { s with reqs := s.reqs.map (fun r => (r.1, returnReq s gs r.2)) }

/-- Parts of a return with their costs (R270): the thaw, and the fill of a frame. -/
def returnParts (s : State) (es : List Nat) : List (Nat × List Nat) :=
  es.map (fun e => (e, (if frameEmpty (thawFrame (s.elem e)) then [] else [48]) ++ (match filled (s.elem e) with
    | some f => if frameEmpty f then [] else [81920]
    | none => [])))

/-- gridReturn: the parts of the return are charged one by one, and then the return is one move (R269, R270). -/
def execGridReturn (t : Nat) (s : State) : Host.Outcome State Fault Refusal :=
  .next (if !isLive s t || (s.task t).dry.isSome || !returnReady s t then s
    else
      let es := listedElems s (s.task t).groves
      match payPart s t (returnParts s es) with
      | some s => s
      | none =>
        let moves := es.filterMap (fun e => match filled (s.elem e) with
          | some f => if frameEmpty f then none else some (e, (s.elem e).cellar.length - 1)
          | none => none)
        match cellarBlocked s t moves false with
        | some (e, va) => raiseElem s e cellarFault (BitVec.ofNat 64 va)
        | none => (es.foldl returnElem (dropReplies s (s.task t).groves)).modTask t (fun x => { x with returning := x.returning.filter (· != x.depth), depth := x.depth - 1 }))

/-- May an armed element swap now: it has passed its mark, and the outgoing plane's work, that of its AGs too, is done (R103, R240, R265)? The model's own choice (assumption 30): a request that has been performed holds the swap until its reply has been delivered. -/
def swapReady (s : State) (e : Nat) : Bool :=
  let x := s.elem e
  x.active.armk != 0 && x.passed && !x.frozen && !x.stopped && enginesDone s e && x.race.armed.isNone &&
    s.reqs.all (fun r => !ofElement e r.2) && !x.preloads.any (fun l => l.pos == 1) && !holdsFrame x 1

/-- The swap of the active plane with position 1 (R265): the outgoing plane keeps the positions of its nodes, and the lookup-cell array its state but for the intake counts (R240). -/
def swapPlanes (s : State) (e : Nat) : State :=
  let x := s.elem e
  let incoming := match underAt x 1 with
    | .plane p => p
    | _ => {}
  let outgoing := { x.active with armk := 0, queue := [], fresh := false, nodes := { matrix := x.matrix, conv := x.conv, turn := x.turn, race := x.race } }
  let next := appendQueues { incoming with queue := x.active.queue } (primed incoming)
  checkDepths (discardQueued (s.setElem e { takeNodes (setUnder x 1 (.plane outgoing)) incoming.nodes with
    active := { next with armk := 0, fresh := false, nodes := {} }, passed := false
    lc := { x.lc with countA := 0, countB := 0 } }) e) e

/-- planeSwap (M10, R265), at its cost where the incoming plane is nonempty (R270). -/
def execPlaneSwap (e : Nat) (s : State) : Host.Outcome State Fault Refusal :=
  .next (if swapReady s e && nodeRuns s e 32 then
      match underAt (s.elem e) 1 with
      | .plane p => if p.present then paidStep s e 16 (fun s => swapPlanes s e) else swapPlanes s e
      | _ => swapPlanes s e
    else s)

/-- Ends a preload: its position takes a plane, or becomes empty. -/
def endPreload (s : State) (e : Nat) (l : Preload) (u : Under) : State :=
  s.modElem e (fun x => { setUnder x l.pos u with preloads := x.preloads.erase l })

/-- Cost of a preload from memory: 48 sector accesses (R270). -/
def memoryPreloadCost (s : State) (e : Nat) (v : Word) : Nat :=
  (List.range 48).foldl (fun n i => n + 1280 + 256 * leafHops s (.elem e) (v.toNat + 64 * i)) 0

/-- The reads of a memory image: 48 sectors, translated and answered as global loads are. -/
def readSectors (s : State) (e : Nat) (l : Preload) : State :=
  (List.range 48).foldl (fun s i =>
    addReq s { src := .elem e, strand := l.strand, slot := l.slot, word := l.word, tag := (s.taskOfElem e).getD 0, kind := .load false
               addr := l.image.toNat + 64 * i, size := 64, dest := .plane l.pos, pos := i }
      (.global (l.image.toNat + 64 * i))) s

/-- The image that the arrived sectors of a preload make up. -/
def preloadedImage (l : Preload) : Nat :=
  (List.range 384).foldr (fun i a =>
    (((mget [] l.sectors (i / 8)).getD (i % 8) none).getD 0).toNat + a * 2 ^ 64) 0

/-- Starts a preload whose cost is taken. -/
def startPreload (s : State) (e : Nat) (l : Preload) : State :=
  let started : Preload := { l with started := true }
  let s := s.modElem e (fun x => { x with preloads := x.preloads.map (fun m => if m = l then started else m) })
  if (cacheImage l.image).isSome then s else readSectors s e started

/-- ploadComplete: the oldest preload of a position starts at its cost, or ends (R264, R270). The model's own choice (assumption 30): a preload of position 1 that an exchange call finds unfinished waits while the caller's frame is there, and goes on after the return. -/
def execPloadComplete (e pos : Nat) (s : State) : Host.Outcome State Fault Refusal :=
  .next (match (s.elem e).preloads.find? (fun l => l.pos == pos) with
    | none => s
    | some l =>
      if (s.elem e).stopped || holdsFrame (s.elem e) pos then s
      else match cacheImage l.image with
        | some k =>
          let p := loadPlane s e k
          if l.started then endPreload s e l (if p.present then .plane { p with fresh := true } else .empty)
          else if l.free || !p.present then startPreload s e l
          else if nodeRuns s e 32 then paidStep s e 24 (fun s => startPreload s e l) else s
        | none =>
          if !l.started then (if nodeRuns s e 32 then paidStep s e (memoryPreloadCost s e l.image) (fun s => startPreload s e l) else s)
          else if l.sectors.length < 48 then s
          else if imgBad (preloadedImage l) then raiseElem (endPreload s e l .empty) e imageInvalid 0
          else endPreload s e l (if (imgPlane (preloadedImage l)).present then .plane (imgPlane (preloadedImage l)) else .empty))

end Sys2Proof.Machine
end

