-- ==== Sys2Proof/Machine/Sync.lean ====
section
/-! DEFINITION. Fences, barriers, at, chkpt and the event instructions (R100 to R102, R173 to R179, R315). -/

namespace Sys2Proof.Machine

/-- Requests of the issuing strand or sequencer level that a fence fired now waits for (R101). -/
def fenceWaits (s : State) : List Nat := ((strandReqs s).filter (fun r => !performed s r.1)).map (fun r => r.1)

/-- Adds a fence to the fence set of the issuing strand or sequencer level, over its unperformed requests (R101). -/
def addFence (s : State) (scope : Nat) : State :=
  let f : Fence := { strand := issueStrand s, scope := BitVec.ofNat 3 scope, waits := fenceWaits s }
  match s.cur with
  | .slot e _ _ => s.modElem e (fun x => { x with fences := x.fences ++ [f] })
  | .word g _ => s.modGrove g (fun x => { x with fences := x.fences ++ [f] })

/-- A fence of a scope (R173). -/
def fenceOp (i : Instr) (s : State) (scope : Nat) : Host.Outcome State Fault Refusal :=
  issueWord i s (fun _ s1 => .done (addFence s1 scope) 0)

/-- fence.e (R173). -/
def execFenceE (t : BitVec 6) (s : State) : Host.Outcome State Fault Refusal := fenceOp (.fenceE t) s 0
/-- fence.g (R173). -/
def execFenceG (t : BitVec 6) (s : State) : Host.Outcome State Fault Refusal := fenceOp (.fenceG t) s 1
/-- fence.t (R173). -/
def execFenceT (t : BitVec 6) (s : State) : Host.Outcome State Fault Refusal := fenceOp (.fenceT t) s 2
/-- fence.m (R173). -/
def execFenceM (t : BitVec 6) (s : State) : Host.Outcome State Fault Refusal := fenceOp (.fenceM t) s 3
/-- fence.d (R173). -/
def execFenceD (t : BitVec 6) (s : State) : Host.Outcome State Fault Refusal := fenceOp (.fenceD t) s 4

/-- bar.arrive: the guard is never tested, and an absent one makes the arrival absent (R175). -/
def execBarArrive (t a b : BitVec 6) (s : State) : Host.Outcome State Fault Refusal :=
  issueWord (.barArrive t a b) s (fun s0 s1 => match srcVal s0 a with
    | some v => access s0 s1 v 8 true (.arrive (srcVal s0 b).isSome) id
    | none => .done s1 0)

/-- bar.wait: the request takes the joined phase as it leaves the element (R176). -/
def execBarWait (t a b : BitVec 6) (s : State) : Host.Outcome State Fault Refusal :=
  issueWord (.barWait t a b) s (fun s0 s1 => match srcVal s0 a with
    | some v => access s0 s1 v 8 true (.wait 0) id
    | none => .done s1 0)

/-- at: a place of the channel is reserved until the time base reaches the target (R178). -/
def execAtTb (t d a : BitVec 6) (s : State) : Host.Outcome State Fault Refusal :=
  issueWord (.atTb t d a) s (fun s0 s1 => match srcVal s0 a, s0.cur, chanOf s0 d with
    | some v, .slot e k _, some ch =>
      let (s2, tid) := reservePlace s1 e ch k.toNat (curGen s0)
      let p : PendingAt := { ch := BitVec.ofNat 5 ch, target := v, strand := k, gen := curGen s0, tid := tid }
      .done (s2.modElem e (fun x => { x with ats := x.ats ++ [p] })) 0
    | _, _, _ => .done (writeDst s1 d none) 0)

/-- An event instruction: a context outside the sequencer's partition raises 0x1C3 (R315). -/
def eventOp (i : Instr) (s : State) (a : BitVec 6) (f : BitVec 256 → BitVec 256 → BitVec 256) : Host.Outcome State Fault Refusal :=
  issueWord i s (fun s0 s1 =>
    let v := valOf s0 a
    if ctxHere s0 (eventCtx v) then
      .done (wakeEntries (s1.modCtx (eventCtx v) (fun c => { c with events := f c.events ((1 : BitVec 256) <<< eventBit v) }))) 0
    else .cause 0x1C3 0 0)

/-- evset (R315). -/
def execEvset (t a : BitVec 6) (s : State) : Host.Outcome State Fault Refusal := eventOp (.evset t a) s a (fun x m => x ||| m)
/-- evwait: it issues once its bit is 1 (R315). -/
def execEvwait (t a : BitVec 6) (s : State) : Host.Outcome State Fault Refusal := eventOp (.evwait t a) s a (fun x _ => x)
/-- evclr (R315). -/
def execEvclr (t a : BitVec 6) (s : State) : Host.Outcome State Fault Refusal := eventOp (.evclr t a) s a (fun x m => x &&& ~~~m)

/-- Is a checkpoint or drain wave armed or in progress for a task (R364, R365)? -/
def wavePending (x : Task) : Bool :=
  x.armedWave || (match x.wave with
    | some .checkpoint => true
    | some .drain => true
    | _ => false)

/-- chkpt: the last checkpoint passed, the end of a superseded task (R327), and the entry point of a pending wave (R179, R365). -/
def execChkpt (t : BitVec 6) (n : BitVec 14) (s : State) : Host.Outcome State Fault Refusal :=
  issueWord (.chkpt t n) s (fun s0 s1 => .done (match s0.taskOfGrove (curGrove s0) with
    | none => s1
    | some k =>
      let s := s1.modTask k (fun x => { x with segment := max x.segment (n.toNat + 1) })
      if (s.task k).superseded then vanishTask s k 0x107 0
      else if wavePending (s.task k) && !s0.supervising then
        match s0.cur with
        | .slot e _ _ => s.modElem e (fun x => { x with chkptAt := some n, entered := true })
        | .word g _ => s.modGrove g (fun x => { x with chkptAt := some n, entered := true })
      else s) 0)

end Sys2Proof.Machine
end

