-- ==== Sys2Proof/Machine/Registers.lean ====
section
/-! DEFINITION. System registers (R303, R304, R346, R362), suspension requests (R363), mfsr and mtsr (R314). -/

namespace Sys2Proof.Machine

/-- Bytes of a live-list item in the save area (R369). -/
def itemBytes : LiveItem → Nat
  | .el _ _ => 8192
  | .rng _ _ _ _ len => (9 * len / 8 + 63) / 64 * 64
  | .lc _ _ => 73728

/-- SAVESZ of a task (R369): 0 when its load declares no checkpoint. -/
def saveSize (x : Task) : Nat :=
  if x.image.chkpts.isEmpty then 0
  else 4096 + 65536 * (x.rows * x.cols) +
    x.image.chkpts.foldl (fun m c => max m (c.2.foldl (fun n i => n + itemBytes i) 0)) 0

/-- Do n bytes from an address lie in writable PL pages of a context (R363), in its partition's HBM (R376)? -/
def savable (s : State) (c va n : Nat) : Bool :=
  (pageParts va n).all (fun p => match walk s c p.1 with
    | .ok (leaf, _) => leafPL leaf && leafW leaf && !leafHost leaf && leafMod leaf == s.moduleNo
    | .error _ => false)

/-- Is a wave armed or in progress for a task (R362, R363)? -/
def waving (x : Task) : Bool :=
  x.armedWave || (match x.wave with
    | some .checkpoint => true
    | some .drain => true
    | _ => false)

/-- May the task of a grove be suspended now (R363, R409)? -/
def suspendable (s : State) (g : Nat) : Option Nat :=
  match s.taskOfGrove g with
  | none => none
  | some t =>
    let x := s.task t
    if featureOn s 3 ∧ saveSize x ≠ 0 ∧ ¬waving x ∧ savable s x.ctx (s.grove g).savea.toNat (saveSize x) then some t else none

/-- Forgets the checkpoints that the units of some groves have issued. -/
def clearChkpts (s : State) (gs : List Nat) : State :=
  let s := gs.foldl (fun s g => s.modGrove g (fun x => { x with chkptAt := none })) s
  { s with elems := s.elems.map (fun e => if gs.contains (groveOf e.1) then (e.1, { e.2 with chkptAt := none }) else e) }

/-- Does an element's plane hold a chkpt (R365)? -/
def holdsChkpt (s : State) (e : Nat) : Bool :=
  (List.range 32).any (fun n => wbits ((s.elem e).active.slotWord n) 26 6 != 63 && (match slotInstr s e n with
    | .chkpt _ _ => true
    | _ => false))

/-- Is an element at rest (R133)? Wave markers are no tokens of the program's. -/
def elemRests (s : State) (e : Nat) : Bool :=
  noneReady s e && (s.elem e).active.queue.all (fun q => q.2.all Token.isWave) && enginesRest s e && s.reqs.all (fun r => r.2.src != .elem e || performed s r.1)

/-- Is an element whose plane holds chkpt halted, or at rest (R133, R365)? -/
def entersAtOnce (s : State) (e : Nat) : Bool := holdsChkpt s e && (allHalted (s.elem e).active || elemRests s e)

/-- The elements of some groves that are at their entry point at once when a wave is armed: what arrives afterwards does not undo it (R365). -/
def enterResting (s : State) (gs : List Nat) : State := ((listedElems s gs).filter (entersAtOnce s)).foldl (fun s e => s.modElem e (fun x => { x with entered := true })) s

/-- SUSP OP 1: requests suspension of the task of a grove and arms its wave, or is refused (R363, R364). -/
def requestSuspension (s : State) (g : Nat) : State :=
  match suspendable s g with
  | none => s.modGrove g (fun x => { x with suspState := 2 })
  | some t =>
    let a := (s.grove g).savea
    let gs := (s.task t).groves
    (gs.foldl (fun s g => s.modGrove g (fun x => { x with suspState := 1 })) (enterResting (clearChkpts s gs) gs)).modTask t
      (fun x => { x with armedWave := true, saveArea := a })

/-- SUSP OP 2: ends a suspended task of a context of the grove's partition, or is refused (R363, R378, R409). A request that is accepted is no refused one: STATE 2 goes back to 1 while a wave is armed or in progress for the grove's own task, and else to 0 (R362). -/
def endSuspended (s : State) (g tag : Nat) : State :=
  let x := s.task tag
  let own := match s.taskOfGrove g with
    | some t => waving (s.task t)
    | none => false
  if featureOn s 3 ∧ isLive s tag ∧ suspendedNow x ∧ s.partOfGrove g = some (s.ctx x.ctx).part then
    vanishTask (s.modGrove g (fun x => { x with suspState := if x.suspState = 2 then (if own then 1 else 0) else x.suspState })) tag 0x108 0
  else s.modGrove g (fun x => { x with suspState := 2 })

/-- Registers with no task-level access (R303, R346, R362). -/
def taskDenied (n : Nat) : Bool := [1, 2, 3, 5, 6, 7, 8, 9, 10, 11, 12, 20, 21, 22, 23, 24, 25, 26, 27, 28, 29, 30].contains n

/-- STATUS (R304). -/
def statusWord (x : Grove) : Word :=
  BitVec.ofNat 64 (x.traps.length * 256 + (if x.sflt then 16 else 0) + (if x.thalt then 8 else 0) + (if x.intrap then 4 else 0) + x.level.toNat)

/-- PART (R362); zero where no partition holds the grove. -/
def partWord (s : State) (g : Nat) : Word :=
  match s.partOfGrove g with
  | none => 0
  | some n =>
    let p := s.part n
    BitVec.ofNat 64 (n * 2 ^ 58 + p.granules.length * 2 ^ 36 + p.rows * 2 ^ 24 + p.cols * 2 ^ 16 + p.row * 2 ^ 8 + p.col)

/-- The fault record that FRSEL selects (R346). -/
def selectedRecord (x : Grove) : FaultRec := x.faults[x.frsel.toNat]?.getD {}

/-- Value of a system register (R303, R346, R362). Unassigned numbers read as zero. -/
def readSys (s : State) (g n : Nat) : Word :=
  let x := s.grove g
  let w := BitVec.ofNat 64
  let r := selectedRecord x
  match n with
  | 0 => statusWord x
  | 1 => x.svec.setWidth 64
  | 2 => x.sbase.setWidth 64
  | 3 => x.epc.setWidth 64
  | 13 => x.sticky.setWidth 64
  | 14 => x.strapen.setWidth 64
  | 15 => match x.task with
    | some t => w ((s.task t).serial * 2 ^ 32 + t)
    | none => 0
  | 16 => x.ctxno.setWidth 64
  | 17 => w (g * 2 ^ 12 + x.regionIndex)
  | 18 => x.region
  | 19 => x.argblk
  | 20 => x.cellar
  | 21 => x.cellarn
  | 22 => match x.task with
    | some t => w (bits (s.ctx (s.task t).ctx).root 12 36 * 4096)
    | none => 0
  | 23 => w ((if x.frovf then 256 else 0) + x.frsel.toNat)
  | 24 => if r.valid then r.fields ||| ((1 : Word) <<< 63) else 0
  | 25 => r.va <<< 22
  | 26 => r.leaf
  | 27 => r.words
  | 28 => w (x.suspTag.toNat * 2 ^ 50 + x.suspState.toNat * 4)
  | 29 => x.savea
  | 30 => match x.task with
    | some t => w (saveSize (s.task t))
    | none => 0
  | 31 => partWord s g
  | _ => if 5 ≤ n ∧ n ≤ 12 then reg x.tr (n - 5) else 0

/-- Writes a system register; read-only and unassigned ones have no effect (R303, R346, R362). -/
def writeSys (s : State) (g n : Nat) (supervisor : Bool) (v : Word) : State :=
  if n = 14 then s.modGrove g (fun x => { x with strapen := v.setWidth 6 })
  else if !supervisor then s
  else match n with
    | 1 => s.modGrove g (fun x => { x with svec := v.setWidth 14 })
    | 3 => s.modGrove g (fun x => { x with epc := v.setWidth 14 })
    | 23 => s.modGrove g (fun x => { x with frsel := v.setWidth 3, frovf := x.frovf && !v.getLsbD 8 })
    | 28 =>
      let s := s.modGrove g (fun x => { x with suspTag := BitVec.ofNat 14 (bits v.toNat 50 14) })
      match bits v.toNat 0 2 with
      | 1 => requestSuspension s g
      | 2 => endSuspended s g (bits v.toNat 50 14)
      | _ => s
    | 29 => s.modGrove g (fun x => { x with savea := BitVec.ofNat 64 (bits v.toNat 12 40 * 2 ^ 12) })
    | _ => s

/-- mfsr (R314). -/
def execMfsr (t d n : BitVec 6) (s : State) : Host.Outcome State Fault Refusal :=
  issueWord (.mfsr t d n) s (fun s0 s1 =>
    if taskDenied n.toNat && !s0.supervising then .cause 0x1C0 0 0
    else .done (writeDst s1 d (some (readSys s0 (curGrove s0) n.toNat))) 0)

/-- mtsr (R314). -/
def execMtsr (t n a : BitVec 6) (s : State) : Host.Outcome State Fault Refusal :=
  issueWord (.mtsr t n a) s (fun s0 s1 =>
    if taskDenied n.toNat && !s0.supervising then .cause 0x1C0 0 0
    else .done (writeSys s1 (curGrove s0) n.toNat s0.supervising (valOf s0 a)) 0)

end Sys2Proof.Machine
end

