-- ==== Sys2Proof/Machine/Keccak.lean ====
section
/-! DEFINITION. The digests of the device: SHAKE256 with 512 bits of output and SHA3-512 (R2, R384, R385). The spec names the two functions; their definition is that of FIPS 202 (PRESUMED, assumption 9). -/

namespace Sys2Proof.Machine

/-- The 25 lanes of a Keccak state, lane x + 5 y at that place. -/
abbrev Lanes := Vector (BitVec 64) 25

def lane (a : Lanes) (x y : Nat) : BitVec 64 := a.getD (x % 5 + 5 * (y % 5)) 0

/-- A state whose lane (x, y) is f x y. -/
def lanesOf (f : Nat → Nat → BitVec 64) : Lanes := Vector.ofFn (fun i => f (i.val % 5) (i.val / 5))

/-- Offsets by which the step ρ turns the lanes. -/
def laneTurns : List Nat := [0, 1, 62, 28, 27, 36, 44, 6, 55, 20, 3, 10, 43, 25, 39, 41, 45, 15, 21, 8, 18, 2, 61, 56, 14]

/-- Constants of the step ι. -/
def roundConstants : List (BitVec 64) :=
  [0x0000000000000001, 0x0000000000008082, 0x800000000000808A, 0x8000000080008000, 0x000000000000808B, 0x0000000080000001,
   0x8000000080008081, 0x8000000000008009, 0x000000000000008A, 0x0000000000000088, 0x0000000080008009, 0x000000008000000A] ++
  [0x000000008000808B, 0x800000000000008B, 0x8000000000008089, 0x8000000000008003, 0x8000000000008002, 0x8000000000000080,
   0x000000000000800A, 0x800000008000000A, 0x8000000080008081, 0x8000000000008080, 0x0000000080000001, 0x8000000080008008]

/-- The parity of a column of a state. -/
def columnParity (a : Lanes) (x : Nat) : BitVec 64 := lane a x 0 ^^^ lane a x 1 ^^^ lane a x 2 ^^^ lane a x 3 ^^^ lane a x 4

/-- The step θ. -/
def theta (a : Lanes) : Lanes := lanesOf (fun x y => lane a x y ^^^ columnParity a (x + 4) ^^^ (columnParity a (x + 1)).rotateLeft 1)

/-- The steps ρ and π. -/
def rhoPi (a : Lanes) : Lanes :=
  lanesOf (fun x y => (lane a (x + 3 * y) x).rotateLeft (laneTurns.getD ((x + 3 * y) % 5 + 5 * x) 0))

/-- The steps χ and ι. -/
def chiIota (rc : BitVec 64) (a : Lanes) : Lanes :=
  lanesOf (fun x y => lane a x y ^^^ (~~~lane a (x + 1) y &&& lane a (x + 2) y) ^^^ (if x = 0 ∧ y = 0 then rc else 0))

/-- The permutation of 24 rounds. -/
def keccak (a : Lanes) : Lanes := roundConstants.foldl (fun a rc => chiIota rc (rhoPi (theta a))) a

/-- Lane i of a block of bytes, lowest byte first. -/
def blockLane (block : List Byte) (i : Nat) : BitVec 64 :=
  ((block.drop (8 * i)).take 8).foldr (fun b v => (v <<< 8) ||| b.setWidth 64) 0

/-- A message with its suffix and padding, a whole number of blocks. -/
def padded (rate : Nat) (suffix : Byte) (m : List Byte) : List Byte :=
  let n := rate - m.length % rate
  m ++ (if n = 1 then [suffix ||| 0x80] else suffix :: List.replicate (n - 2) 0 ++ [0x80])

/-- The first 512 bits of a sponge's output, lowest byte first, for a rate of at least 64 bytes. -/
def sponge512 (rate : Nat) (suffix : Byte) (m : List Byte) : BitVec 512 :=
  let bytes := padded rate suffix m
  let a := (List.range (bytes.length / rate)).foldl (fun a k =>
    let block := (bytes.drop (k * rate)).take rate
    keccak (lanesOf (fun x y => lane a x y ^^^ blockLane block (x + 5 * y)))) (Vector.replicate 25 0)
  (List.range 8).foldr (fun i v => (v <<< 64) ||| (a.getD i 0).setWidth 512) 0

/-- SHAKE256 with 512 bits of output (R385). -/
def shake512 (m : List Byte) : BitVec 512 := sponge512 136 0x1F m

/-- SHA3-512 (R384). -/
def sha3 (m : List Byte) : BitVec 512 := sponge512 72 0x06 m

end Sys2Proof.Machine
end

