-- ==== Sys2Proof/Machine/Race.lean ====
section
/-! DEFINITION. Expert routing: the race unit (R285 to R289) and the placer (R294 to R298). -/

namespace Sys2Proof.Machine

/-- The race cause and the place-area cause of class 5. -/
def raceCause : Nat := 0x152
def placeArea : Nat := 0x153

/-- Fields of a race descriptor (R285). -/
def rcIntakeB (d : Desc) : Bool := wbits d.w0 27 1 == 1
def rcPair (d : Desc) : Bool := wbits d.w0 16 1 == 1
def rcChan (d : Desc) (b : Bool) : Nat := if b then wbits d.w0 17 5 else wbits d.w0 22 5
def rcBase (d : Desc) (b : Bool) : Nat := if b then wbits d.w0 0 8 else wbits d.w0 8 8
/-- The enabled intakes of a race unit; true is intake B. -/
def rcIntakes (d : Desc) : List Bool := if rcIntakeB d then [false, true] else [false]

/-- Changes the race unit of an element. -/
def modRace (s : State) (e : Nat) (f : RaceState → RaceState) : State := s.modElem e (fun x => { x with race := f x.race })

/-- race.k: a round is armed, a register destination pending and an outbound place reserved until its release (R288, R289). The model's own choice (assumption 30): one whose guard is absent arms nothing, and sends nothing on an outbound destination either. -/
def execRaceK (t d a b : BitVec 6) (s : State) : Host.Outcome State Fault Refusal :=
  issueWord (.raceK t d a b) s (fun s0 s1 =>
    if (nodeOf s0 (curElem s0) 5).isNone then .cause raceCause 0 0
    else match srcVal s0 a with
      | none => .done s1 0
      | some _ =>
        let (s2, dest, tid) := replyDest s0 s1 d
        .done (modRace s2 (curElem s0) (fun r => { r with
          armed := some (b.toNat, dest, curStrand s0.cur, curGen s0, tid), cands := [], takenA := 0, takenB := 0, overRange := false })) 0)

/-- The candidates that a data token gives, as (index, key) (R286). -/
def candidates (d : Desc) (b : Bool) (q : Nat) (t : Token) : List (Nat × Nat) :=
  let v := t.payload.toNat
  if !t.pres then []
  else if rcPair d then [(rcBase d b + 2 * q, bits v 0 32), (rcBase d b + 2 * q + 1, bits v 32 32)]
  else [(bits v 32 8, bits v 0 32)]

/-- A candidate joins the round, unless its index or its number is over the range (R286). -/
def addCandidate (r : RaceState) (c : Nat × Nat) : RaceState :=
  if r.overRange then r
  else if 255 < c.1 ∨ 256 ≤ r.cands.length then { r with overRange := true }
  else { r with cands := r.cands ++ [c] }

/-- An intake takes a data token of the round (R286). -/
def takeCandidate (s : State) (e slot : Nat) (d : Desc) (b : Bool) (t : Token) : State :=
  let r := (s.elem e).race
  let n := if b then r.takenB else r.takenA
  let r' := (candidates d b n t).foldl addCandidate (if b then { r with takenB := n + 1 } else { r with takenA := n + 1 })
  let s := modRace (takeHead s e (rcChan d b) none) e (fun _ => r')
  if r'.overRange then raiseNode s e slot raceCause else s

/-- raceIntake: an intake takes a data token, at 2 drops (R286). -/
def execRaceIntake (e : Nat) (b : Bool) (s : State) : Host.Outcome State Fault Refusal :=
  .next (match nodeOf s e 5 with
    | some (slot, d) =>
      match headOf s e (rcChan d b) with
      | some t =>
        let r := (s.elem e).race
        if intakeRuns s e slot && (rcIntakes d).contains b && r.armed.isSome && !r.overRange && t.isData then
          paidStep s e 2 (fun s => takeCandidate s e slot d b t)
        else s
      | none => s
    | none => s)

/-- Order of an FP32 key: numbers by value, every NaN below minus infinity (R287). -/
def keyOrder (k : Nat) : Int :=
  let m := bits k 0 31
  if 0x7F800000 < m then -(2 ^ 32) else if bits k 31 1 = 1 then -(m : Int) else m

/-- Does one candidate rank above another (R287)? -/
def outranks (a b : Nat × Nat) : Bool := decide (keyOrder b.2 < keyOrder a.2) || (keyOrder a.2 == keyOrder b.2 && decide (a.1 < b.1))

/-- Inserts a candidate into a ranking. -/
def insertRanked (c : Nat × Nat) : List (Nat × Nat) → List (Nat × Nat)
  | [] => [c]
  | x :: xs => if outranks c x then c :: x :: xs else x :: insertRanked c xs

/-- The indices of the winners of a round, in rank order (R287). -/
def winners (k : Nat) (cs : List (Nat × Nat)) : List Nat := ((cs.foldl (fun l c => insertRanked c l) []).take k).map (fun c => c.1)

/-- The result word of a round with winners; none without (R287). -/
def raceResult (ws : List Nat) : Option Word :=
  match ws.getLast? with
  | none => none
  | some z => some ((List.range 8).foldl (fun w j => w ||| BitVec.ofNat 64 (ws.getD j z * 2 ^ (8 * j))) 0)

/-- The result of a round goes to its destination (R288). -/
def putResult (s : State) (e : Nat) (d : Dest) (k : BitVec 2) (gen : BitVec 4) (tid : Nat) (v : Option Word) : State :=
  match d, v with
  | .reg c, some x => { writeReg { s with cur := .slot e k 0 } c x with cur := s.cur }
  | .chan ch, some x => enqueueAs s e ch.toNat k.toNat { payload := x, gen := gen } tid
  | .chan ch, none => enqueueAs s e ch.toNat k.toNat { gen := gen, pres := false } tid
  | _, _ => s

/-- The marks at the heads of the enabled intakes, if every one has a visible end mark (R286). -/
def roundMarks (s : State) (e : Nat) (d : Desc) : Option (List Token) :=
  let hs := (rcIntakes d).filterMap (fun b => headOf s e (rcChan d b))
  if hs.length = (rcIntakes d).length ∧ hs.all Token.isEnd then some hs else none

/-- A round is released (R286, R288). -/
def releaseRound (s : State) (e : Nat) (d : Desc) (marks : List Token) (k : Nat) (dest : Dest) (st : BitVec 2) (gen : BitVec 4) (tid : Nat) : State :=
  let last := marks.any (fun t => t.mark == 3)
  let v := raceResult (winners k (s.elem e).race.cands)
  let s := (rcIntakes d).foldl (fun s b => takeHead s e (rcChan d b) none) s
  let s := modRace s e (fun _ => {
    finished := last
    eos := match dest with
      | .chan ch => if last then some (ch, st, gen) else none
      | _ => none })
  putResult s e dest st gen tid v

/-- raceRelease: the round is released, or the end mark due after its result is enqueued (R286, R288). -/
def execRaceRelease (e : Nat) (s : State) : Host.Outcome State Fault Refusal :=
  .next (match nodeOf s e 5 with
    | none => s
    | some (slot, d) =>
      if !nodeRuns s e slot then s
      else match (s.elem e).race.eos with
        | some (ch, k, gen) =>
          if hasRoom s e ch.toNat [] then advanced s (enqueue (modRace s e (fun r => { r with eos := none })) e ch.toNat k.toNat { mark := 3, gen := gen }) e else s
        | none => match (s.elem e).race.armed, roundMarks s e d with
          | some (k, dest, st, gen, tid), some marks => advanced s (releaseRound s e d marks k dest st gen tid) e
          | _, _ => s)

/-- Fields of a place header (R294). -/
def plExperts (h : Word) : Nat := bits h.toNat 56 8 + 1
def plRow (h : Word) : Nat := bits h.toNat 50 6
def plCol (h : Word) : Nat := bits h.toNat 44 6
def plHeight (h : Word) : Nat := bits h.toNat 38 6
def plWidth (h : Word) : Nat := bits h.toNat 32 6
def plImage (h : Word) : Nat := bits h.toNat 30 2

/-- Rows and columns of the region of the task of a grove. -/
def regionShape (s : State) (g : Nat) : Nat × Nat :=
  match s.taskOfGrove g with
  | some t => ((s.task t).rows, (s.task t).cols)
  | none => (1, 1)

/-- Is a header's area outside the region, empty, or its reserved field nonzero (R297)? -/
def badArea (s : State) (g : Nat) (h : Word) : Bool :=
  let (rows, cols) := regionShape s g
  plHeight h == 0 || plWidth h == 0 || decide (rows < plRow h + plHeight h) || decide (cols < plCol h + plWidth h) || bits h.toNat 0 30 != 0

/-- Do n histogram words from a generic address run past the window that it lies in (R73, R297)? -/
def pastWindow (s : State) (a : Word) (n : Nat) : Bool := decide (windowStop s a < a.toNat % 2 ^ 52 + 8 * n)

/-- place: the request is handed to the placer of the die, behind the earlier accesses of the sequencer as behind a fence.t; d is pending until it finishes (R294, R297). -/
def execPlace (t d a b : BitVec 6) (s : State) : Host.Outcome State Fault Refusal :=
  issueWord (.place t d a b) s (fun s0 s1 =>
    let h := valOf s0 a
    let v := valOf s0 b
    let g := curGrove s0
    if badArea s0 g h then .cause placeArea 0 0
    else match addressCause s0 v 8 false with
      | none =>
        if pastWindow s0 v (plExperts h) then .cause placeArea 0 0
        else
          let p : Place :=
            { header := h, hist := v, d := d, supervisor := s0.supervising, word := curWord s0, wordAddr := curSlot s0.cur, order := s0.moveNo, waits := fenceWaits s0 }
          .done (addFence (s1.modGrove g (fun x => { x with place := some p })) 2) 0
      | some k => .cause k v 0)

/-- Is a place the first of those that the placer of its die has been given (R294)? -/
def placeFirst (s : State) (g : Nat) (p : Place) : Bool :=
  s.groves.all (fun x => match x.2.place with
    | some q => x.1 == g || dieOf (elemAt x.1 0) != dieOf (elemAt g 0) || decide (p.order ≤ q.order)
    | none => true)

/-- Have the accesses of the issuing sequencer before a place, within task scope, been performed (R101, R297)? -/
def placeFenced (s : State) (p : Place) : Bool := fenceDone s { strand := 0, scope := 2, waits := p.waits }

/-- The placer sends an access to histogram word n, as one of the sequencer's (R94, R163, R297). -/
def histAccess (s : State) (g : Nat) (p : Place) (n : Nat) (kind : ReqKind) (v : Word) : State :=
  let a := p.hist + BitVec.ofNat 64 (8 * n)
  let q : Req :=
    { src := .seq g, strand := if p.supervisor then 1 else 0, slot := p.wordAddr, supervisor := p.supervisor, tag := (s.taskOfGrove g).getD 0
      kind := kind, addr := a.toNat, data := v, dest := .hist, word := p.word }
  match resolveAddr s (.seq g) a.toNat with
  | some c => (addReq s q c).modGrove g (fun x => { x with place := some { p with req := some s.nextReq } })
  | none => s

/-- The region grove at a row and column of the region of a grove's task. -/
def regionGrove (s : State) (g row col : Nat) : Nat :=
  (unitRegion s (.seq g)).getD (row * (regionShape s g).2 + col) g

/-- The clearing strips of an area, counted from its left (R295). -/
def clearingStrips (s : State) (g : Nat) (h : Word) : List Nat :=
  (List.range (plWidth h)).filter (fun c => (List.range (plHeight h)).all (fun r => !s.retired.contains (regionGrove s g (plRow h + r) (plCol h + c))))

/-- The number of strips of each expert, from the counts and the number of clearing strips (R295). -/
def allot (ns : List Nat) (strips : Nat) : List Nat :=
  let total := ns.foldl (· + ·) 0
  let z := (ns.filter (· != 0)).length
  if total = 0 ∨ strips < z then ns.map (fun _ => 0)
  else
    let f := strips - z
    let left := f - ns.foldl (fun a n => a + f * n / total) 0
    ns.zipIdx.map (fun n =>
      let before := (ns.zipIdx.filter (fun m => m.1 != 0 && (decide (f * n.1 % total < f * m.1 % total) || (f * m.1 % total == f * n.1 % total && decide (m.2 < n.2))))).length
      if n.1 = 0 then 0 else 1 + f * n.1 / total + (if before < left then 1 else 0))

/-- The strips of each expert: consecutive clearing strips in ascending experts (R295). -/
def dealStrips : List Nat → List Nat → List (List Nat)
  | [], _ => []
  | a :: as, strips => strips.take a :: dealStrips as (strips.drop a)

/-- A histogram word with its FIRST and NSTRIP written, by the table of R294 (assumption 21). -/
def sizedWord (v : Word) (strips : List Nat) : Word :=
  (v &&& ~~~0xFFFF00000000) ||| BitVec.ofNat 64 (strips.headD 0 * 2 ^ 40 + strips.length * 2 ^ 32)

/-- Elements that a placement preloads, with the values of their s7: those with a template plane, strip by strip (R296). -/
def placeTargets (s : State) (g : Nat) (h : Word) (deal : List (List Nat)) : List (Nat × Nat) :=
  if plImage h = 0 then []
  else deal.zipIdx.flatMap (fun x => x.1.zipIdx.flatMap (fun c => (List.range (plHeight h)).flatMap (fun r =>
    let source := regionGrove s g (plRow h + r) (plCol h)
    let target := regionGrove s g (plRow h + r) (plCol h + c.1)
    ((List.range 256).filter (fun n => (loadPlane s (elemAt source n) (plImage h)).present)).map (fun n => (elemAt target n, x.2 + 256 * c.2)))))

/-- The placer ends with a cause of class 6 at the sequencer: nothing is placed, and d is unchanged (R296, R297). -/
def placeCause (s : State) (g : Nat) (p : Place) (cause : Nat) : State :=
  let s := s.modGrove g (fun x => { x with place := none })
  if p.supervisor then supervisorCause s g cause
  else raise s g { cause := cause, src := 1, eid := eidOf s (elemAt g 0) &&& 0x1FFFFFFFFF, word := p.word, wordAddr := p.wordAddr, unit := .seq g }

/-- Writes a register of a level of a sequencer. -/
def putSeqReg (s : State) (g : Nat) (supervisor : Bool) (c : BitVec 6) (v : Word) : State :=
  putReg s { src := .seq g, supervisor := supervisor, kind := .absent, addr := 0 } c v

/-- The placer finishes: d receives the status (R298). -/
def placeDone (s : State) (g : Nat) (p : Place) (status : Word) : State :=
  putSeqReg (s.modGrove g (fun x => { x with place := none })) g p.supervisor p.d status

/-- The status of a place (R298). -/
def placeStatus (z strips : Nat) : Word := BitVec.ofNat 64 ((if strips < z then 2 ^ 63 else 0) + z * 2 ^ 32 + strips)

/-- Sizing, once all histogram words are read (R295 to R297). -/
def sizePlace (s : State) (g : Nat) (p : Place) : State :=
  let ns := p.reads.map (fun v => bits v.toNat 0 32)
  let strips := clearingStrips s g p.header
  let deal := dealStrips (allot ns strips.length) strips
  let status := placeStatus (ns.filter (· != 0)).length strips.length
  let targets := placeTargets s g p.header deal
  if targets.any (fun x => holdsFrame (s.elem x.1) 1) then placeCause s g p preloadTarget
  else s.modGrove g (fun x => { x with place := some { p with writes := List.zipWith sizedWord p.reads deal, sized := some (status, targets) } })

/-- Has the access that the placer has in progress been performed and answered? -/
def histIdle (s : State) (p : Place) : Bool := match p.req with
  | some r => (s.req? r).isNone
  | none => true

/-- placerSizing: the placer reads the next histogram word, or sizes the strips, or writes FIRST and NSTRIP of the next word, and the status after the last where nothing is to be preloaded (R294, R295, R297, R298). -/
def execPlacerSizing (g : Nat) (s : State) : Host.Outcome State Fault Refusal :=
  .next (match (s.grove g).place with
    | none => s
    | some p =>
      if !placeFirst s g p || !placeFenced s p || !histIdle s p then s
      else match p.sized with
        | none => if p.reads.length < plExperts p.header then histAccess s g p p.reads.length (.load false) 0 else sizePlace s g p
        | some (status, targets) => match p.writes with
          | v :: vs => histAccess s g { p with writes := vs } (plExperts p.header - p.writes.length) .store v
          | [] => if targets.isEmpty then placeDone s g p status else s)

/-- The template element of a target: the same place in the area's first strip (R296). -/
def templateOf (s : State) (g : Nat) (h : Word) (e : Nat) : Nat :=
  let row := (s.grove (groveOf e)).regionIndex / (regionShape s g).2
  elemAt (regionGrove s g row (plCol h)) (elemInGrove e)

/-- The plane that the placer copies to a target (R296). -/
def placedPlane (s : State) (g : Nat) (h : Word) (e v : Nat) : Plane :=
  let p := loadPlane s (templateOf s g h e) (plImage h)
  { p with sreg := setAt p.sreg 7 (BitVec.ofNat 64 v), fresh := true }

/-- The placer has preloaded the first of its targets; after the last it finishes. -/
def nextTarget (s : State) (g : Nat) (p : Place) (status : Word) (rest : List (Nat × Nat)) : State :=
  if rest.isEmpty then placeDone s g p status else s.modGrove g (fun x => { x with place := some { p with sized := some (status, rest) } })

/-- placePreload: the placer preloads its next target, at 24 drops from the allowance of the target's grove (R296). -/
def execPlacePreload (g : Nat) (s : State) : Host.Outcome State Fault Refusal :=
  .next (match (s.grove g).place with
    | some p => match p.sized with
      | some (status, (e, v) :: rest) =>
        if !p.writes.isEmpty || !histIdle s p then s else
        let put (s : State) : State := nextTarget (s.modElem e (fun x => setUnder x 1 (.plane (placedPlane s g p.header e v)))) g p status rest
        if holdsFrame (s.elem e) 1 then s
        else if p.supervisor then put s else paidStep s e 24 put
      | _ => s
    | none => s)

end Sys2Proof.Machine
end

