-- ==== Sys2Proof/Machine/Loader.lean ====
section
/-! DEFINITION. The loader's checks of a load image (R19 to R24, R40, R44, R48, R62, R65 to R67, R71, R77, R107, R110, R137, R179, R200, R212, R213, R218, R221, R230, R244, R262, R285, R302, R369, R371, R375). Region element g * 256 + e stands for element e of region grove g. -/

namespace Sys2Proof.Machine

/-- The element of grove 0 at a region element's place in its grove: one of the same kind, with the same nodes (R18, R21). -/
def localElem (n : Nat) : Nat := elemAt 0 (n % 256)

/-- The element of a region number. -/
def regionElem (gs : List Nat) (n : Nat) : Nat := elemAt (gs.getD (n / 256) 0) (n % 256)

/-- Plane k of a region element in a load image. -/
def imagePlane (i : LoadImage) (n k : Nat) : Plane := mget {} i.planes (n * 4 + k)

/-- Descriptors of a kind in a plane (R110). -/
def descsOf (p : Plane) (kind : Nat) : List Desc := (p.node.map (fun d => d.2)).filter (fun d => wbits d.w0 28 4 == kind)

/-- Window descriptors of the planes of a region element (R76). -/
def imageWindows (i : LoadImage) (n : Nat) : List Desc := [0, 1, 2, 3].flatMap (fun k => descsOf (imagePlane i n k) 6)

/-- Fields HAND and CLAIM, and the bank, of a window (R76). -/
def winHand (d : Desc) : Nat := wbits d.w0 10 2
def winClaim (d : Desc) : Bool := wbits d.w0 9 1 == 1
def winBank (d : Desc) : Nat := winBase d / 0x10000

/-- Does a relation hold of two members of a list, one before the other? -/
def somePair {α : Type} (r : α → α → Bool) : List α → Bool
  | [] => false
  | x :: xs => xs.any (r x) || somePair r xs

/-- Is a window at fault by itself (R76, R77)? c says that it is in a C element. -/
def windowBad (c : Bool) (d : Desc) : Bool :=
  winBase d % 8 != 0 || winLen d == 0 || winLen d % 8 != 0 || decide (6 ≤ winBank d) || (winBase d + winLen d - 1) / 0x10000 != winBank d ||
  winMode d == 3 || decide (4 ≤ winOrg d) || winHand d == 3 || (winMode d == 1) == (winAcn d == 0) ||
  (winOrg d == 1 && winLen d % (8 * winBufs d) != 0) || (winOrg d == 3 && winLen d % (8 * winLine d) != 0) ||
  (c && (winMode d == 1 || winOrg d == 2 || winOrg d == 3))

/-- Are two windows of a plane at odds: of one number, overlapping, or of one bank with different HAND or CLAIM (R77)? -/
def windowsClash (x y : Desc) : Bool :=
  winNo x == winNo y || (decide (winBase x < winBase y + winLen y) && decide (winBase y < winBase x + winLen x)) ||
  (winBank x == winBank y && (winHand x != winHand y || winClaim x != winClaim y))

/-- Are the windows of a plane at fault (R77)? The model's own choice (assumption 30): windows of different planes are not held against each other. -/
def windowsBad (c : Bool) (p : Plane) : Bool :=
  let ws := descsOf p 6
  decide (8 < ws.length) || ws.any (windowBad c) || somePair windowsClash ws

/-- Is a pair of formats one of a matrix class (R44)? -/
def pairOk (cls a b : Nat) : Bool :=
  match cls with
  | 0 => [1, 2].contains a && ([10, 11, 15].contains b || b == a)
  | 1 => [4, 5, 12].contains a && ([4, 5, 6, 7, 8, 10, 11].contains b || decide (12 ≤ b))
  | 2 => a == 9 && [9, 10].contains b
  | 3 => a == 0 && b == 0
  | 4 => a == 3 && b == 3
  | _ => false

/-- Bytes of a tile of an operand (R213). -/
def tileBytes (cls fmt : Nat) : Nat := 8 * (headerWords fmt + if 3 ≤ cls then 32 else 4 * formatWidth fmt)

/-- The operand-store window of a plane with a number, if it has one. -/
def opstore (p : Plane) (n : Nat) : Option Desc := (descsOf p 6).find? (fun d => winNo d == n && winOrg d == 1)

/-- Is a matrix descriptor at fault (R212)? -/
def matrixBad (p : Plane) (d : Desc) : Bool :=
  let cls := mxClass d
  let named : List (Nat × Nat) :=
    [(wbits d.w1 29 3, tileBytes cls (mxAfmt d)), (wbits d.w1 26 3, tileBytes cls (mxBfmt d))] ++
    (if mxOutChan d then [] else [(wbits d.w1 23 3, if cls = 4 then 512 else 256)])
  let found := named.map (fun n => (opstore p n.1, n.2))
  !pairOk cls (mxAfmt d) (mxBfmt d) || decide (4 < mxRound d) ||
  found.any (fun f => match f.1 with
    | some w => bufBytes w != f.2
    | none => true) ||
  somePair (fun x y => winBank x == winBank y) (found.filterMap (fun f => f.1)) ||
  (!mxIntake d && mxAch d != 0) || (!mxOutChan d && mxOch d != 0)

/-- Is a converter descriptor at fault (R218)? -/
def converterBad (d : Desc) : Bool :=
  let qs := d.w1.toNat
  decide (3 < cvIn d) || cvOut d == 10 || cvOut d == 11 || (!hasE8M0 (cvOut d) && cvGroups d != 1) ||
  (if cvOut d = 9 then decide (0x7F800000 ≤ qs) || qs == 0 else qs != 0) || decide (4 < cvRound d)

/-- Is a lookup-cell descriptor at fault (R244)? -/
def cellsBad (d : Desc) : Bool :=
  let on (b : Nat) : Bool := wbits d.w0 b 1 == 1
  (on 27 && on 19 && (wbits d.w0 22 5 == wbits d.w0 14 5 || wbits d.w0 20 2 == wbits d.w0 12 2)) ||
  (!on 27 && (wbits d.w0 22 5 != 0 || wbits d.w0 20 2 != 0)) || (!on 19 && (wbits d.w0 14 5 != 0 || wbits d.w0 12 2 != 0))

/-- Is a race descriptor at fault (R285)? -/
def raceBad (d : Desc) : Bool :=
  (rcIntakeB d && rcChan d false == rcChan d true) || (!rcPair d && (rcBase d false != 0 || rcBase d true != 0)) || (!rcIntakeB d && rcChan d true != 0)

/-- Are the node descriptors of a plane at fault (R20, R21, R67, R110, R211, R218, R221, R230, R244, R285)? e is an element of the same kind. -/
def nodesBad (e : Nat) (p : Plane) : Bool :=
  p.node.any (fun d => reservedNode d.2 || !carriesNode e (wbits d.2.w0 28 4)) ||
  [1, 2, 3, 4, 5].any (fun k => decide (1 < (descsOf p k).length)) || somePair (fun x y => wbits x.w0 27 1 == wbits y.w0 27 1) (descsOf p 7) ||
  (nodeChannels p).any (fun ch => chanDec (p.chanWord ch)) ||
  (descsOf p 1).any (matrixBad p) || (descsOf p 2).any converterBad || (descsOf p 4).any cellsBad || (descsOf p 5).any raceBad

/-- Are the inbound channels of a plane at fault (R65, R66)? -/
def channelsBad (p : Plane) : Bool :=
  !depthsHold p || (List.range 32).any (fun ch =>
    let w := p.chanWord ch
    decodes w && (decide (chanDepth w < decodeRoom (chanFmt w)) || (hasF16Scale (chanFmt w) && chanSreg w % 2 == 1)))

/-- Scale registers that an instruction writes, as its destination or by an insertion (R107, R125, R153). -/
def scaleWrites (i : Instr) : List Nat :=
  let scale (d : BitVec 6) : List Nat := if 24 ≤ d.toNat ∧ d.toNat < 32 then [d.toNat - 24] else []
  (wordSig i).opnds.flatMap (fun o => match o with
    | .dst d => scale d
    | .dstReg d => scale d
    | .rws d => scale d
    | _ => [])

/-- Does a decode channel of a plane read a scale register (R107)? -/
def scaleRead (p : Plane) (k : Nat) : Bool :=
  (List.range 32).any (fun ch =>
    let w := p.chanWord ch
    chanDec w && (chanSreg w == k || (hasF16Scale (chanFmt w) && chanSreg w + 1 == k)))

/-- Strands that issue gnext on a plane (R375). -/
def generations (p : Plane) (is : List (Nat × Instr)) : List Nat :=
  (is.filter (fun i => match i.2 with
    | .gnext _ => true
    | _ => false)).map (fun i => p.slotStrand i.1)

/-- Segments that the checkpoints of some instructions name (R179). -/
def segmentsOf (is : List Instr) : List Nat :=
  is.filterMap (fun i => match i with
    | .chkpt _ n => some n.toNat
    | _ => none)

/-- Is an instruction one that the loader admits in C elements only: packed-lane, lookup-cell or race (R20)? -/
def cellOnly (i : Instr) : Bool :=
  (wordSig i).unit == .cElem || (match i with
    | .raceK _ _ _ _ => true
    | _ => false)

/-- Are the words of a plane at fault (R20, R107, R137, R179, R375)? -/
def wordsBad (i : LoadImage) (e : Nat) (p : Plane) : Bool :=
  let is := planeWords p .cElem
  let gens := generations p is
  (!isC e && is.any (fun x => cellOnly x.2)) || (cellReads is).any (fun ch => chanDec (p.chanWord ch)) || is.any (fun x => (scaleWrites x.2).any (scaleRead p)) ||
  (segmentsOf (is.map (fun x => x.2))).any (fun n => (mfind i.chkpts n).isNone) ||
  is.any (fun x => gens.contains (p.slotStrand x.1) && (staticChannels (wordSig x.2)).2.any (fun ch => routeLim (p.routeWord (chanClass (p.chanWord ch))) == 0))

/-- Is a plane of a region element at fault by itself? -/
def planeBad (i : LoadImage) (n : Nat) (p : Plane) : Bool :=
  let e := localElem n
  p.present && (channelsBad p || nodesBad e p || windowsBad (isC e) p || wordsBad i e p)

/-- Row and column of a region element in its region (R18, R25). -/
def regionCell (cols n : Nat) : Nat × Nat := (n / 256 / cols * 16 + n % 256 / 16, n / 256 % cols * 16 + n % 16)

/-- The region element at a row and column. -/
def regionAt (cols r c : Nat) : Nat := (r / 16 * cols + c / 16) * 256 + r % 16 * 16 + c % 16

/-- The neighbour of a region element on a side; none outside the region (R62). -/
def regionNext (rows cols n : Nat) (d : Side) : Option Nat :=
  let (r, c) := regionCell cols n
  match d with
  | .north => if r = 0 then none else some (regionAt cols (r - 1) c)
  | .south => if r + 1 < 16 * rows then some (regionAt cols (r + 1) c) else none
  | .west => if c = 0 then none else some (regionAt cols r (c - 1))
  | .east => if c + 1 < 16 * cols then some (regionAt cols r (c + 1)) else none

/-- A configuration of a load: the number of the plane that is active in each region element. -/
abbrev Choice := Nat → Nat

/-- The planes of a configuration, joined as the region joins them. -/
def imageNet (i : LoadImage) (f : Choice) : Net :=
  { plane := fun n => imagePlane i n (f n), next := regionNext i.rows i.cols, kind := fun n => if isC (localElem n) then .cElem else .mElem }

/-- The configuration of a swap to image k (R262). -/
def swapChoice (i : LoadImage) (k : Nat) : Choice := fun n => if (imagePlane i n k).present then k else 0

/-- The configurations that a load is checked in (R262). -/
def choices (i : LoadImage) : List Choice :=
  (fun _ => 0) :: (([1, 2, 3].filter (fun k => i.planes.any (fun p => p.1 % 4 == k && p.2.present))).map (swapChoice i) ++ i.calls.map (fun k _ => k))

/-- Outbound channels that a configuration binds to a class, with their elements (R62). -/
def boundOf (i : LoadImage) (f : Choice) : List (Nat × Nat) :=
  i.bound.filterMap (fun b => if f (b / 128) = b / 32 % 4 then some (b / 128, b % 32) else none)

/-- Outbound channels that a unit of an element enqueues on: its slots, its nodes, a sparse set unit (R71, R230). -/
def writtenChans (f : Net) (n : Nat) : List Nat :=
  (elemEdges f n).flatMap (fun x => x.2) ++ (descsOf (f.plane n) 7).map (fun d => wbits d.w0 22 5)

/-- Outbound channels of a configuration that tokens may leave on, with their elements: those bound to a class, and those that a unit enqueues on though no line binds them, of class 0 (R13, R71). -/
def sourcesOf (i : LoadImage) (f : Choice) : List (Nat × Nat) :=
  (boundOf i f ++ (i.planes.filter (fun (p : Nat × Plane) => f (p.1 / 4) == p.1 % 4)).flatMap (fun (p : Nat × Plane) => (writtenChans (imageNet i f) (p.1 / 4)).map (fun ch => (p.1 / 4, ch)))).dedup

/-- Does every path of a class from a router end in local deliveries, within the region, at valid entries, and with no router met twice (R62)? -/
def traced (f : Net) (c : Nat) : Nat → List Nat → Nat → Bool
  | 0, _, _ => false
  | fuel + 1, path, e =>
    let w := (f.plane e).routeWord c
    routeValid w && !(routeBranches w).isEmpty && !path.contains e && (routeSides w).all (fun d => match f.next e d with
      | some x => traced f c fuel (e :: path) x
      | none => false)

/-- Is the class of an outbound channel at fault (R62)? -/
def routeBad (i : LoadImage) (f : Net) (b : Nat × Nat) : Bool := !traced f (chanClass ((f.plane b.1).chanWord b.2)) (i.rows * i.cols * 256 + 1) [] b.1

/-- LIMs of the routes, from some outbound channels, that deliver into an inbound channel (R71, R72). -/
def limsInto (f : Net) (bs : List (Nat × Nat)) (v : Nat × Nat) : List Nat :=
  (bs.filter (fun b => (chanDests f b.1 b.2).contains v)).map (fun b => routeLim ((f.plane b.1).routeWord (chanClass ((f.plane b.1).chanWord b.2))))

/-- Is an inbound channel on a cycle at fault (R71)? -/
def cycleBad (f : Net) (bs : List (Nat × Nat)) (v : Nat × Nat) : Bool :=
  let lims := limsInto f bs v
  inCycle f v && (lims.contains 0 || decide (chanDepth ((f.plane v.1).chanWord v.2) < ((f.plane v.1).fifo v.2).length + lims.foldl (· + ·) 0))

/-- Region elements at fault in a configuration (R62, R71): those of bound outbound channels, and those of inbound channels. -/
def choiceFaults (i : LoadImage) (f : Choice) : List Nat :=
  let net := imageNet i f
  let bs := sourcesOf i f
  ((boundOf i f).filter (routeBad i net)).map (fun b => b.1) ++ (((bs.flatMap (fun b => chanDests net b.1 b.2)).dedup).filter (cycleBad net bs)).map (fun v => v.1)

/-- Does a converter read one of the channels that an outbound channel delivers into (R48)? -/
def meetsConverter (f : Net) (b : Nat × Nat) : Bool :=
  (chanDests f b.1 b.2).any (fun v => hasConverter (localElem v.1) && (descsOf (f.plane v.1) 2).any (fun d => cvIch d == v.2))

/-- Region elements whose streams are to be narrowed and meet no converter (R48). -/
def narrowFaults (i : LoadImage) : List Nat :=
  (i.narrowed.filter (fun b => !meetsConverter (imageNet i (swapChoice i (b / 32 % 4))) (b / 128, b % 32))).map (fun b => b / 128)

/-- The region element that an item of a live list names (R369). -/
def itemElem : LiveItem → Nat
  | .el g e => g * 256 + e
  | .rng g e _ _ _ => g * 256 + e
  | .lc g e => g * 256 + e

/-- Is an item of a live list at fault by itself (R369)? -/
def itemBad (i : LoadImage) (x : LiveItem) : Bool :=
  decide (i.rows * i.cols * 256 ≤ itemElem x) || (match x with
    | .el _ e => decide (256 ≤ e)
    | .rng _ e b off len => decide (256 ≤ e) || decide (6 ≤ b) || off % 8 != 0 || len % 8 != 0 || len == 0 || decide (0x10000 < off + len)
    | .lc _ e => decide (256 ≤ e) || !isC (localElem e))

/-- Do two items of a live list name one element or array, or overlapping ranges (R369)? -/
def itemsClash (x y : LiveItem) : Bool :=
  match x, y with
  | .el _ _, .el _ _ => x == y
  | .lc _ _, .lc _ _ => x == y
  | .rng g e b off len, .rng g' e' b' off' len' => g == g' && e == e' && b == b' && decide (off < off' + len') && decide (off' < off + len)
  | _, _ => false

/-- Is the live list of a checkpoint at fault (R369)? -/
def listBad (i : LoadImage) (l : List LiveItem) : Bool := l.any (itemBad i) || somePair itemsClash l

/-- The instructions of a sequencer program. -/
def programInstrs : List IWord → List Instr
  | [] => []
  | [w] => [readWords .seq w 0]
  | w :: c :: ws =>
    if fld w 26 6 != 63 && isLongOp (fld w 20 6) && fld c 26 6 == 63 then readWords .seq w c :: programInstrs ws
    else readWords .seq w c :: programInstrs (c :: ws)

/-- Is the meter plan of a load at fault (R200)? -/
def planBad (i : LoadImage) : Bool :=
  let n := i.meter.length
  !(List.range n).all (fun k => i.meter.any (fun m => m.1 == k)) || (n != 0 && i.chkpts.any (fun c => decide (n ≤ c.1)))

/-- Are the sequencers of a load at fault: a program that reaches the supervisor image, which starts at a word address (R302), a guard with a channel test (R24), a checkpoint that the load does not declare (R179)? -/
def sequencersBad (i : LoadImage) (sbase : Nat) : Bool :=
  i.programs.any (fun p => decide (sbase < p.2.length)) || i.guards.any (fun g => g.2.any (fun w => wbits w.2 0 16 != 0)) ||
  i.programs.any (fun p => (segmentsOf (programInstrs p.2)).any (fun n => (mfind i.chkpts n).isNone))

/-- Plane images that the configuration cache of a die holds (R262): 24 MiB are 8,192 of them. -/
def cacheBad (i : LoadImage) (die : Nat → Nat) : Bool :=
  (List.range 12).any (fun d => decide (8192 < (i.planes.filter (fun p => p.1 % 4 != 0 && p.2.present && die (p.1 / 4) == d)).length))

/-- Is the record of issue bounds at fault (R371)? -/
def boundsBad (i : LoadImage) : Bool :=
  !i.chkpts.isEmpty && i.issueBounds.any (fun b => match b with
    | some n => decide (60000 < n)
    | none => true)

/-- Region elements at which a check of a load image fails. -/
def imageFaults (i : LoadImage) : List Nat :=
  (i.planes.filter (fun p => planeBad i (p.1 / 4) p.2)).map (fun p => p.1 / 4) ++ (choices i).flatMap (choiceFaults i) ++ narrowFaults i

/-- Does a check of a load image fail that names no element? -/
def imageBad (i : LoadImage) (sbase : Nat) (die : Nat → Nat) : Bool :=
  planBad i || sequencersBad i sbase || cacheBad i die || boundsBad i || i.chkpts.any (fun c => listBad i c.2)

/-- The outcome of the loader's checks of an image: none where all hold; else the first region element at fault, where a failure names one (R325, R333). -/
def imageFault (i : LoadImage) (sbase : Nat) (die : Nat → Nat) : Option (Option Nat) :=
  match imageFaults i with
  | n :: ns => some (some (ns.foldl min n))
  | [] => if imageBad i sbase die then some none else none

end Sys2Proof.Machine
end

