-- ==== Sys2Proof/Machine/Staging.lean ====
section
/-! DEFINITION. Slot tables as the scheduler reads them (R320 to R323), measurements of what is loaded (R385, R386), rejection records (R333), and staging an entry with its checks (R321, R325, R331, R344). -/

namespace Sys2Proof.Machine

/-- Fields of a slot-table entry (R322). -/
def enBit (e : Entry) (b : Nat) : Bool := (reg e.w 0).getLsbD b
def enChained (e : Entry) : Bool := enBit e 62
def enFixed (e : Entry) : Bool := enBit e 61
def enField (e : Entry) (w lo len : Nat) : Nat := bits (reg e.w w).toNat lo len
def enCtx (e : Entry) : Nat := enField e 0 32 16
def enPrio (e : Entry) : Nat := enField e 0 55 3
def enStart (e : Entry) : Nat := (reg e.w 1).toNat
/-- Period in nanoseconds (R321). -/
def enPeriod (e : Entry) : Nat := 1000 * enField e 2 32 32
def enRows (e : Entry) : Nat := enField e 2 24 6
def enCols (e : Entry) : Nat := enField e 2 16 6
def enRow (e : Entry) : Nat := enField e 2 8 6
def enCol (e : Entry) : Nat := enField e 2 0 6
def enImage (e : Entry) : Nat := (reg e.w 3).toNat
def enArgs (e : Entry) : Nat := (reg e.w 4).toNat
def enLogBase (e : Entry) : Nat := enField e 5 12 52 * 4096
def enLogSize (e : Entry) : Nat := 2 ^ (enField e 5 8 4 + 12)
def enBudget (e : Entry) : Nat := enField e 6 0 48
/-- Pour fee of an entry's region (R185). -/
def enFee (e : Entry) : Nat := 32 * (enRows e * enCols e)

/-- Place of an entry of a partition's slot table (R320). -/
def entryPlace (s : State) (p n : Nat) : DevicePlace := hbmPlace (entryAddr s p n)

/-- An entry as the scheduler reads it, one sector (R320). -/
def readEntry (s : State) (p n : Nat) : Entry :=
  { w := Vector.ofFn (fun i => deviceRead s (hbmPlace (entryAddr s p n + 8 * i.val))) }

/-- Does a read of an entry wait, for a sector that is tentative (R83)? -/
def entryHeld (s : State) (p n : Nat) : Bool := deviceHeld s (entryPlace s p n)

/-- Clears an entry's V bit, from outside any task (R321). -/
def clearV (s : State) (p n : Nat) : State := deviceDo s (.clearV p n)

/-- A word of a context's memory, read from outside any task; zero where it does not translate. -/
def deviceWord (s : State) (c va : Nat) : Word :=
  match deviceTarget s c va false with
  | .ok t => deviceRead s t
  | .error _ => 0

/-- A byte of a context's memory, read from outside any task. -/
def deviceByte (s : State) (c va : Nat) : Byte := BitVec.ofNat 8 (bits (deviceWord s c (va / 8 * 8)).toNat (8 * (va % 8)) 8)

/-- Does some word of a range of n bytes at a place get no answer (R395)? A range that lies in this module always does. -/
def rangeLost (s : State) (p : DevicePlace) (n : Nat) : Bool :=
  match p.target with
  | .module m pa => (List.range ((pa % 8 + n + 7) / 8)).any (fun i => deviceLost s { p with target := .module m (pa / 8 * 8 + 8 * i) })
  | _ => false

/-- May n bytes from an address of a context be read from outside any task: they translate, and what lies in other modules is answered (R342, R395)? -/
def deviceReads (s : State) (c va n : Nat) : Bool :=
  decide (va + n ≤ 2 ^ 52) && (pageParts va n).all (fun p => match deviceTarget s c p.1 false with
    | .ok t => !rangeLost s t p.2
    | .error _ => false)

/-- Places of the sectors that a read of n bytes from an address of a context touches, where they translate. -/
def sectorPlaces (s : State) (c va n : Nat) : List DevicePlace :=
  (List.range ((va % 64 + n + 63) / 64)).filterMap (fun i => match deviceTarget s c (va / 64 * 64 + 64 * i) false with
    | .ok t => some t
    | .error _ => none)

/-- Does a read of n bytes from an address of a context wait, for a sector that is tentative (R83)? -/
def deviceWaits (s : State) (c va n : Nat) : Bool := (sectorPlaces s c va n).any (deviceHeld s)

/-- The machine check that a read of n bytes from an address of a context meets: a sector of reserved state, or one whose MAC does not match (R83, R388). -/
def deviceFault (s : State) (c va n : Nat) : Option Nat := (sectorPlaces s c va n).findSome? (deviceCheck s)

/-- Does a read of n bytes from an address of a context meet a machine check? -/
def deviceFails (s : State) (c va n : Nat) : Bool := (deviceFault s c va n).isSome

/-- The requests of a read for those of its sectors that lie in other modules: under serial 0 and request id 0, to modules that some route reaches (R393, R395; assumption 30). -/
def askFor (ps : List DevicePlace) (s : State) : State :=
  ps.foldl (fun s p => match p.target with
    | .module m pa => if routeUp s m then sendLink s m 0 3 (.request pa 0 0 64 .read { pl := p.pl, outside := true, key := p.key }) else s
    | _ => s) s

/-- A read of the scheduler's that meets a machine check is logged at the monitor, and what it was for waits (R388, R411; assumption 9). -/
def noteFailedRead (s : State) (p cause : Nat) : State := logEvent s 1 cause p 0 0

/-- The bytes of a 512-bit value, lowest first. -/
def bytes512 (v : BitVec 512) : List Byte := (List.range 64).map (fun i => BitVec.ofNat 8 (bits v.toNat (8 * i) 8))

/-- An event of a measurement index: the running value and the log (R385). -/
def measure (s : State) (index type vaddr : Nat) (data : List Byte) : State :=
  let d := shake512 data
  let v := mget 0 s.measures index
  let entry := [BitVec.ofNat 64 (index * 2 ^ 56 + type * 2 ^ 48), s.tb, BitVec.ofNat 64 vaddr, BitVec.ofNat 64 data.length] ++
    (List.range 8).map (fun i => BitVec.ofNat 64 (bits d.toNat (64 * i) 64))
  { s with measures := mset s.measures index (shake512 (bytes512 v ++ bytes512 d)), measureLog := s.measureLog ++ [entry] }

/-- Are all pages of a log PL leaves with W = 1, of the partition's HBM or of the host (R331)? -/
def logPages (s : State) (c base size : Nat) : Bool :=
  (pageParts base size).all (fun p => match walk s c p.1 with
    | .ok (leaf, _) => leafPL leaf && leafW leaf && (leafHost leaf || leafMod leaf == s.moduleNo)
    | .error _ => false)

/-- Binds a context's completion log, its header as at reset (R330). -/
def bindLog (s : State) (c base size : Nat) : State :=
  deviceDo (s.modCtx c (fun x => { x with log := some (base, size) })) (.header c)

/-- A rejection record (R333). -/
def rejection (s : State) (n reason : Nat) (info : Word) : List Word :=
  [BitVec.ofNat 64 (4 * 2 ^ 56 + 0x140 * 2 ^ 47 + reason * 2 ^ 16 + n), s.tb, info, 0, 0, 0, 0, 0]

/-- An entry is rejected: its record, and, where V is to be cleared, its end (R321, R325). -/
def reject (s : State) (p n reason : Nat) (info : Word) (e : Entry) (clear : Bool) : State :=
  let s := logRecord s (enCtx e) p e (rejection s n reason info)
  if clear then { clearV s p n with staged := mmod {} s.staged (entryKey p n) (fun x => { x with soon := none, valid := false, spent := false, next := none }) } else s

/-- A launch is stopped without a record, for want of a log (R325, R331). -/
def stopNoLog (s : State) (p n : Nat) : State :=
  let s := logEvent s 6 0x140 p 0 (BitVec.ofNat 64 n)
  { clearV s p n with staged := mmod {} s.staged (entryKey p n) (fun x => { x with soon := none, valid := false, spent := false, next := none }) }

/-- Reserved fields, ranges and alignments of an entry (R322, R325). -/
def badFields (s : State) (e : Entry) : Bool :=
  enField e 0 48 3 != 0 || enField e 7 13 15 != 0 || enField e 2 30 2 != 0 || enField e 2 22 2 != 0 || enField e 2 14 2 != 0 || enField e 2 6 2 != 0 ||
  enField e 0 53 2 == 3 || enField e 0 16 16 == 0 || enField e 0 0 16 == 0 || decide (10000 < enField e 0 0 16) || enStart e % 1000 != 0 ||
  enRows e == 0 || decide (48 < enRows e) || enCols e == 0 || decide (56 < enCols e) || enImage e % 64 != 0 || enArgs e % 64 != 0 ||
  (enBit e 59 && (!enBit e 58 || !featureOn s 2))

/-- Module groves of a rectangle, by region index (R25). -/
def rectangle (row col rows cols : Nat) : List Nat :=
  (List.range rows).flatMap (fun r => (List.range cols).map (fun c => (row + r) * 56 + (col + c)))

/-- Does a rectangle lie in a partition (R376)? -/
def inRect (x : Part) (row col rows cols : Nat) : Bool :=
  decide (x.row ≤ row) && decide (row + rows ≤ x.row + x.rows) && decide (x.col ≤ col) && decide (col + cols ≤ x.col + x.cols)

/-- Does an entry's region fail to fit its partition, or its fixed origin cover a grove out of service (R325)? -/
def regionUnfit (s : State) (p : Nat) (e : Entry) : Bool :=
  let x := s.part p
  if enFixed e then !inRect x (enRow e) (enCol e) (enRows e) (enCols e) || (rectangle (enRow e) (enCol e) (enRows e) (enCols e)).any s.retired.contains
  else decide (x.rows < enRows e) || decide (x.cols < enCols e)

/-- Does the cellar range of an argument block fail R261? -/
def badCellar (s : State) (c : Nat) (e : Entry) : Bool :=
  let base := (deviceWord s c (enArgs e + 8)).toNat
  let frames := bits (deviceWord s c (enArgs e + 16)).toNat 0 32
  let len := frames * (256 * (enRows e * enCols e)) * 0x1000
  frames != 0 && (base % 4096 != 0 || !(pageParts base len).all (fun q => cellarPage s c q.1 true && cellarPage s c q.1 false))

/-- Does NEXT name no entry of the table, or one that is not chained (R325)? -/
def badNext (s : State) (p : Nat) (e : Entry) : Bool :=
  let n := enField e 7 0 13
  n != 0 && (decide ((s.part p).tableLen < n) || !enChained (readEntry s p (n - 1)))

/-- Cost of a load's meter plan (R185, R200). -/
def planCost (i : LoadImage) : Nat := i.plan.foldl (fun n x => n + x.drops) 0

/-- Is a write binding of the load denied, on any page of the range it can write (R344)? -/
def badBinding (s : State) (c : Nat) (i : LoadImage) : Bool :=
  i.bindings.any (fun b => b.write && (pageParts b.va b.len).any (fun q => match walk s c q.1 with
    | .ok (leaf, _) => (leafDenies leaf true false).isSome
    | .error _ => true))

/-- INFO of a failed loader check, for the region element it names, where the region lies at an origin of this module; REL where there is none (R18, R333). -/
def failInfo (s : State) (origin : Option (Nat × Nat)) (rows cols : Nat) (fault : Option Nat) : Word :=
  let o := origin.getD (0, 0)
  (if origin.isNone then (1 : Word) <<< 63 else 0) ||| (match fault with
    | none => 0
    | some v => eidOf s (regionElem (rectangle o.1 o.2 rows cols) v) &&& 0x1FFFFFFFFF)

/-- The groves that the checks of an entry's load take its region to hold: those at its fixed origin, else those at module grove row 0, column 0, as INFO does (R333; assumption 10). -/
def checkedGroves (e : Entry) : List Nat := if enFixed e then rectangle (enRow e) (enCol e) (enRows e) (enCols e) else rectangle 0 0 (enRows e) (enCols e)

/-- The first region element that a loader check of an image fails at, where the checks fail: none named for one that concerns no element (R325, R333). A form that is no load image, and a region of another shape, fail before the rest. -/
def loaderFault (s : State) (e : Entry) (image : Option LoadImage) : Option (Option Nat) :=
  let gs := checkedGroves e
  match image with
  | none => some none
  | some i =>
    if i.rows ≠ enRows e ∨ i.cols ≠ enCols e then some none
    else (imageFault i (s.grove (gs.headD 0)).sbase.toNat (fun n => dieOf (regionElem gs n))).or (if badBinding s (enCtx e) i then some none else none)

/-- The reason for which an entry is rejected before its image is read (R325, R333): a field, its budget, or an image that does not translate whole. n is the length of the image, 64 bytes at least. -/
def entryReason (s : State) (e : Entry) (n : Nat) : Option Nat :=
  if badFields s e then some 1
  else if 16 * enBudget e ≤ enFee e then some 4
  else if !deviceReads s (enCtx e) (enImage e) n then some 6
  else none

/-- The reason for which staging rejects an entry whose image has been read, with INFO, by ascending reason (R325, R333). The reserve, the region and the claims depend on the module's state and are checked at a slot start (R321). -/
def stagingReason (s : State) (p : Nat) (e : Entry) (image : Option LoadImage) : Option (Nat × Word) :=
  let c := enCtx e
  let plan := match image with
    | some i => planCost i
    | none => 0
  if enBit e 60 && decide (16 * enBudget e < enFee e + plan) then some (5, 0)
  else if !deviceReads s c (enArgs e) 32 then some (6, 0)
  else match loaderFault s e image with
    | some fault => some (7, failInfo s (if enFixed e then some (enRow e, enCol e) else none) (enRows e) (enCols e) fault)
    | none =>
      if enBit e 52 && (!(s.part p).service || !featureOn s 4) then some (8, 0)
      else if badNext s p e then some (9, 0)
      else if (s.ctx c).log ≠ some (enLogBase e, enLogSize e) then some (10, 0)
      else none

/-- The first slot start of an entry that is no earlier than a time (R321). -/
def firstStart (e : Entry) (soon : Nat) : Nat :=
  let P := enPeriod e
  if P = 0 then max (enStart e) ((soon + 999) / 1000 * 1000)
  else if soon ≤ enStart e then enStart e
  else enStart e + (soon - enStart e + P - 1) / P * P

/-- Length in bytes of the load image of an entry, as the image gives it: 64 at least, the part that holds it. -/
def imageSize (s : State) (e : Entry) : Nat := max 64 (imageLength (fun i => deviceByte s (enCtx e) (enImage e + i)))

/-- Staging waits: the time from which the entry's slot starts count is kept (R321). -/
def keepSoon (s : State) (p n soon : Nat) : State := { s with staged := mmod {} s.staged (entryKey p n) (fun x => { x with soon := some soon }) }

/-- The entry that NEXT names in the table of a partition, if it names one (R322). -/
def nextEntry (s : State) (p : Nat) (e : Entry) : Option Nat :=
  let n := enField e 7 0 13
  if n = 0 ∨ (s.part p).tableLen < n then none else some (n - 1)

/-- Does staging wait for the entry that NEXT names, tentative still (R83)? -/
def nextHeld (s : State) (p : Nat) (e : Entry) : Bool := (nextEntry s p e).any (entryHeld s p)

/-- The machine check that the reads of staging meet: at the image, or at the entry that NEXT names (R83, R388). -/
def stageFault (s : State) (p : Nat) (e : Entry) (len : Nat) : Option Nat :=
  (deviceFault s (enCtx e) (enImage e) len).or ((nextEntry s p e).bind (fun n => deviceCheck s (entryPlace s p n)))

/-- Stages an entry, with slot starts no earlier than a time: its log is bound and checked, its fields are checked, its image is translated whole, checked, copied and measured (R321, R325, R331, R386). It waits while a sector of the image, or the entry NEXT names, is tentative (R83), and where one fails its check. -/
def stage (s : State) (p n : Nat) (e : Entry) (soon : Nat) : State :=
  let c := enCtx e
  let k := entryKey p n
  if !(s.ctxs.any (fun x => x.1 == c && x.2.part == p)) then stopNoLog s p n
  else
    let (base, size) := ((s.ctx c).log).getD (enLogBase e, enLogSize e)
    if !logPages s c base size then stopNoLog s p n
    else
      let s := if (s.ctx c).log.isNone then bindLog s c base size else s
      let len := if deviceReads s c (enImage e) 64 then imageSize s e else 64
      if (entryReason s e 64).isNone && deviceWaits s c (enImage e) 64 then keepSoon s p n soon
      else
      match entryReason s e len with
      | some r => reject s p n r 0 e true
      | none =>
        if deviceWaits s c (enImage e) len || nextHeld s p e then keepSoon s p n soon
        else askFor (sectorPlaces s c (enImage e) len) (match stageFault s p e len with
        | some cause => keepSoon (noteFailedRead s p cause) p n soon
        | none =>
          let image := readImage (fun i => deviceByte s c (enImage e + i))
          match stagingReason s p e image with
          | some (r, info) => reject s p n r info e true
          | none =>
            let s := measure s (0x80 + p) 4 (enImage e) ((List.range len).map (fun j => deviceByte s c (enImage e + j)))
            { s with staged := mmod {} s.staged k (fun x => { x with soon := none, entry := e, image := image.getD {}, valid := true, spent := false, next := none, start := firstStart e soon }) })

/-- slotTableRead: the scheduler reads an entry (R320, R321), once its sector is not tentative (R83). A change of a staged entry takes effect at its next slot start, and not at all where a later read finds it undone; an entry whose one start has come is not staged again while its V bit stays set. -/
def execSlotTableRead (p n : Nat) (s : State) : Host.Outcome State Fault Refusal :=
  .next (if s.stage ≠ 8 ∨ (s.part p).tableLen ≤ n ∨ (mfind s.parts p).isNone then s
    else
      let e := readEntry s p n
      let x := mget {} s.staged (entryKey p n)
      if entryHeld s p n then s
      else match deviceCheck s (entryPlace s p n) with
      | some cause => noteFailedRead s p cause
      | none =>
        if x.valid then { s with staged := mset s.staged (entryKey p n) { x with next := if e = x.entry then none else some e } }
        else if enBit e 63 then (if x.spent then s else stage s p n e (x.soon.getD (s.tb.toNat + 50000)))
        else if x.spent || x.soon.isSome then { s with staged := mset s.staged (entryKey p n) { x with spent := false, soon := none } } else s)

/-- What a changed entry comes to at a slot start: it is staged afresh for the starts after that one, or withdrawn (R321). -/
def restage (s : State) (p n start : Nat) : State :=
  match (mget {} s.staged (entryKey p n)).next with
  | none => s
  | some e =>
    let s := { s with staged := mmod {} s.staged (entryKey p n) (fun x => { x with valid := false, next := none }) }
    if enBit e 63 then stage s p n e (start + 1) else s

/-- A changed chained entry is staged afresh once its staged instance is due: it has no slot starts of its own (R321, R328). -/
def restageDue (s : State) (k : Nat) : State :=
  if enChained (mget {} s.staged k).entry then restage s (k / 4096) (k % 4096) s.tb.toNat else s

end Sys2Proof.Machine
end

