-- ==== Sys2Proof/Machine/Metering.lean ====
section
/-! DEFINITION. Metering instructions (R193 to R196), the charge controller (R187 to R192, R202, R397 to R400), commit (M11, R27, R104), vanish (M12) and bank handover (M13, R86). -/

namespace Sys2Proof.Machine

/-- Task of the issuing unit. -/
def curTask (s : State) : Option Nat := s.taskOfGrove (curGrove s)

/-- refill: n packets of the context's reserve enter the meter of the issuing unit's task (R194). -/
def execRefill (t a : BitVec 6) (s : State) : Host.Outcome State Fault Refusal :=
  issueWord (.refill t a) s (fun s0 s1 => match srcVal s0 a, curTask s0 with
    | none, _ => .done s1 0
    | some _, none => .cause 0x102 0 0
    | some v, some k =>
      let n := v.toNat
      let c := (s0.task k).ctx
      if n = 0 ∨ 2 ^ 48 ≤ n then .cause 0x102 0 0
      else if (s0.ctx c).reserve < n then .cause 0x103 0 0
      else
        let s := s1.modCtx c (fun x => { x with reserve := x.reserve - n })
        let s := s.modTask k (fun x => { x with refilled := x.refilled + n })
        .done (addDrops (enableSegments s k n) k (curGrove s0) (16 * n)) 0)

/-- commit: the lead sequencer at task level leaves the user word and halts (R195, R316). -/
def execCommit (t a : BitVec 6) (s : State) : Host.Outcome State Fault Refusal :=
  issueWord (.commit t a) s (fun s0 s1 =>
    let g := curGrove s0
    if s0.supervising || (s0.grove g).regionIndex != 0 then .cause 0x104 0 0
    else match srcVal s0 a, curTask s0 with
      | some v, some k => .done ((s1.modTask k (fun x => { x with user := v })).modGrove g (fun x => { x with halted := true })) 0
      | _, _ => .done (s1.modGrove g (fun x => { x with halted := true })) 0)

/-- abort: the task of the issuing unit vanishes (R196, R311). -/
def execAbort (t a : BitVec 6) (s : State) : Host.Outcome State Fault Refusal :=
  issueWord (.abort t a) s (fun s0 s1 => .done (match srcVal s0 a, curTask s0 with
    | some v, some k => vanishTask s1 k (if s0.supervising then 0x108 else 0x105) (bits v.toNat 0 16)
    | _, _ => s1) 0)

/-- allowanceRecall: a grove's unspent allowance returns to the central count of its task (R187). -/
def execAllowanceRecall (g : Nat) (s : State) : Host.Outcome State Fault Refusal :=
  .next (match s.taskOfGrove g with
    | some t => if isLive s t then
        (s.modGrove g (fun x => { x with allowance := 0 })).modTask t (fun x => { x with central := x.central + (s.grove g).allowance })
      else s
    | none => s)

/-- Packets of the automatic top-up allowance of a task that are left (R190). -/
def topupLeft (x : Task) : Nat := bits (reg x.entry.w 6).toNat 48 16 - x.topped

/-- INFO of a dry cause (R309). -/
def dryInfo (s : State) (t : Nat) : Word :=
  BitVec.ofNat 64 ((if (planRest (s.task t)).2 then 2 ^ 63 else 0) + projection s t % 2 ^ 48)

/-- Grace window of a task's load in nanoseconds (R191, R322). -/
def graceOf (x : Task) : Nat := 1000 * bits (reg x.entry.w 0).toNat 0 16

/-- A task goes dry: record, trap and grace window (R189, R191). -/
def goDry (s : State) (t g : Nat) : State :=
  let x := s.task t
  let s := gather s t
  let record := shortfall s t 2 0x100 0 (x.rows * x.cols)
  let info := dryInfo s t
  let s := logRecord s x.ctx x.part x.entry record
  let s := raise s g { cause := 0x100, src := 6, eid := eidOf s (elemAt g 0) &&& 0x1FFFFFFFFF, info := info }
  s.modTask t (fun y => { y with dry := some ⟨blockedCost x, s.tb.toNat + graceOf x⟩ })

/-- dry: the controller meets the refused issues of a task: they are covered after all, a top-up is drawn, or the task goes dry (R189, R190). -/
def execDry (t : Nat) (s : State) : Host.Outcome State Fault Refusal :=
  .next (match (s.task t).refusals, (s.task t).dry with
    | r :: _, none =>
      let x := s.task t
      let blocked := blockedCost x
      let short := blocked - balance s t
      let k := (short + 15) / 16
      let left := topupLeft x
      if !isLive s t then s
      else if short = 0 then s.modTask t (fun x => { x with refusals := [] })
      else if k ≤ left ∧ left ≤ (s.ctx x.ctx).reserve then
        let s := s.modCtx x.ctx (fun c => { c with reserve := c.reserve - left })
        enableSegments (s.modTask t (fun x => { x with topped := x.topped + left, central := x.central + 16 * left, refusals := [] })) t left
      else goDry s t r.grove
    | _, _ => s)

/-- graceExpired: the task vanishes (R191). -/
def execGraceExpired (t : Nat) (s : State) : Host.Outcome State Fault Refusal :=
  .next (match (s.task t).dry with
    | some d => if d.deadline ≤ s.tb.toNat then vanishTask s t 0x101 0 else s
    | none => s)

/-- boostFallback: a task whose running charge has reached the boost allowance continues at standard draught (R202). A charge that grows does so at once; here the allowance may have been used up by another task of the context. -/
def execBoostFallback (t : Nat) (s : State) : Host.Outcome State Fault Refusal :=
  .next (s.modTask t (fun x => addBoost (s.ctx x.ctx).boost 0 x))

/-- Packets that a task has been given in all (R186). -/
def packetsHeld (x : Task) : Nat := x.packets + x.refilled + x.topped

/-- Does a grove's cask stand a packet below its target, with packets of its task still to pour (R398)? -/
def wantsPour (s : State) (g : Nat) : Bool :=
  match s.taskOfGrove g with
  | none => false
  | some t => !(s.grove g).isolated && decide ((s.grove g).held + 16 ≤ 16 * (s.grove g).segments) && decide ((s.task t).poured < packetsHeld (s.task t))

/-- Pours one packet into a grove's cask; after the last one the casks of its task are isolated (R186, R398). -/
def pour (s : State) (g : Nat) : State :=
  match s.taskOfGrove g with
  | none => s
  | some t =>
    let s := s.modGrove g (fun x => { x with held := x.held + 16 })
    let s := s.modTask t (fun x => { x with poured := x.poured + 1 })
    if packetsHeld (s.task t) ≤ (s.task t).poured then (s.task t).groves.foldl (fun s g => s.modGrove g (fun x => { x with isolated := true })) s else s

/-- caskPour: a pour is made, or waits for its grant behind the draw limit and the pours before it (R398, R400). -/
def execCaskPour (g : Nat) (s : State) : Host.Outcome State Fault Refusal :=
  .next (if !wantsPour s g || s.pours.contains g then s
    else if s.pours.isEmpty && Config.drawOk s.moveNo then pour s g
    else { s with pours := s.pours ++ [g] })

/-- pourGrant: the pour that has waited longest is granted, where the draw allows it (R400). -/
def execPourGrant (drawOk : Bool) (s : State) : Host.Outcome State Fault Refusal :=
  .next (match s.pours with
    | g :: rest => if drawOk then (if wantsPour s g then pour { s with pours := rest } g else { s with pours := rest }) else s
    | [] => s)

/-- Has an element halted: every owning strand has, or it is at rest (R27, R133)? The model's own choice (assumption 30): one in which no strand owns a slot halts only at rest, though the words "every strand that owns a slot" hold of it at once. -/
def elemHalted (s : State) (e : Nat) : Bool :=
  let x := s.elem e
  !x.stopped && x.nodeStops.isEmpty && x.withdrawn.isEmpty && x.ats.isEmpty && x.fences.isEmpty && enginesRest s e && x.race.armed.isNone && x.race.eos.isNone &&
    (allHalted x.active || (noneReady s e && x.active.queue.all (fun q => q.2.all Token.isWave)))

/-- Has a grove's task program halted, with its streams retired, its place finished and its fences complete (R27, R104)? -/
def groveHalted (x : Grove) : Bool :=
  (if x.level = 0 then x.halted else x.thalt) && !x.stopped && streamsDone x && x.place.isNone && x.fences.all (fun f => f.strand != 0)

/-- No wave is in progress, or one that has not completed, which a commit ends (R27, R378). -/
def waveLets (x : Task) : Bool :=
  match x.wave with
  | none => true
  | some (.freeze _ _) => false
  | _ => !x.waveDone

/-- The end condition of a task (R27): every unit has halted, every exit stream has delivered its end mark, and nothing of the task is in flight; no fence of it is pending (R104). -/
def taskEnded (s : State) (t : Nat) : Bool :=
  let x := s.task t
  isLive s t && !x.starting && x.suspended.isNone && !x.groves.isEmpty && x.dry.isNone && x.refusals.isEmpty && x.depth == 0 && waveLets x && x.returning.isEmpty &&
    (listedElems s x.groves).all (elemHalted s) && x.groves.all (fun g => groveHalted (s.grove g) && (s.grove g).exits.isEmpty) && fabricEmpty s x.groves &&
    s.reqs.all (fun r => r.2.tag != t || r.2.supervisor)

/-- Have all producers of a task committed (R85)? -/
def producersDone (s : State) (t : Nat) : Bool := (s.task t).producers.all (fun p => mget TagState.free s.tags p == .committed)

/-- commitTask (M11, R104). -/
def execCommitTask (t : Nat) (s : State) : Host.Outcome State Fault Refusal :=
  .next (if taskEnded s t && producersDone s t then
      let s' := commitNow s t
      match successorKey (s.task t), (s.task t).due with
        | some k, false => restageDue s' k
        | _, _ => s'
    else s)

/-- vanish (M12, R198): a dependent of a vanished task vanishes. -/
def execVanish (t : Nat) (s : State) : Host.Outcome State Fault Refusal :=
  .next (if isLive s t && (s.task t).producers.any (fun p => mget TagState.free s.tags p == .vanished) then vanishTask s t 0x106 0 else s)

/-- Is a bank ready to pass on under HAND 2: its mark enqueued, its port queue empty, no deferred read of its holder pending on it (R86)? -/
def handoverReady (s : State) (e bank t : Nat) : Bool :=
  let b := s.bank (e * 6 + bank)
  let p := s.port (e * 6 + bank)
  b.owner == .held t && b.marked && bankHand (s.elem e).active bank == some 2 && p.queue.isEmpty &&
    p.deferred.all (fun r => match s.req? r with
      | some q => q.tag != t || q.supervisor
      | none => true)

/-- Gives a task another producer, if it has not got it (R85). -/
def addProducer (s : State) (t p : Nat) : State :=
  s.modTask t (fun x => { x with producers := if x.producers.contains p then x.producers else x.producers ++ [p] })

/-- bankHandover (M13, R86): the bank passes to the launched successor, which becomes a dependent unless it has eight producers, or is held for the successor, which becomes due (R328). -/
def execBankHandover (e bank : Nat) (s : State) : Host.Outcome State Fault Refusal :=
  .next (match s.taskOfElem e with
    | none => s
    | some t =>
      let x := s.task t
      if !handoverReady s e bank t || !isLive s t then s
      else match nextOwner s x, x.successor with
        | some (.held n), _ =>
          if (s.task n).producers.contains t || decide (((s.task n).producers.filter (isLive s)).length < 8) then addProducer (s.modBank (e * 6 + bank) (fun _ => { owner := .held n })) n t
          else s
        | some o, _ =>
          let s := s.modBank (e * 6 + bank) (fun _ => { owner := o })
          match successorKey x with
          | some k => if x.due then s else restageDue ((entryDue s k s.tb.toNat (some x.serial)).modTask t (fun y => { y with due := true })) k
          | none => s
        | none, _ => s)

end Sys2Proof.Machine
end

