-- ==== Sys2Proof/Machine/Tokens.lean ====
section
/-! DEFINITION. Moves of tokens (M2, M3), the stall watchdogs (R63), the end of a wait (R134) and entering a handler (R308). -/

namespace Sys2Proof.Machine

/-- tokenHop (M2): parityBad says that the link's parity fails (R60). -/
def execTokenHop (e : Nat) (q : HopQ) (parityBad : Bool) (s : State) : Host.Outcome State Fault Refusal := .next (hop s e q parityBad)

/-- tokenDeliver (M3). -/
def execTokenDeliver (e : Nat) (q : HopQ) (s : State) : Host.Outcome State Fault Refusal := .next (deliver s e q)

/-- sequencerWaitExpire: the time base has reached the target of a wait (R134). -/
def execSequencerWaitExpire (g : Nat) (s : State) : Host.Outcome State Fault Refusal :=
  .next (match (s.grove g).bank.hold with
    | .time v => if s.tb.ult v then s else s.modGrove g (fun x => x.setBank { x.bank with hold := .none })
    | _ => s)

/-- Branches of a fork that are full, and those that have been so for one whole watchdog interval (R63). -/
def fullBranches (s : State) (e : Nat) (cls : BitVec 6) : List (Option Side) :=
  (routeBranches ((s.elem e).active.routeWord cls.toNat)).filter (fun b => decide (16 ≤ (s.tokens (queueKey e (.branch cls b))).length))
def stalledBranches (s : State) (e : Nat) (cls : BitVec 6) (interval : Nat) : List (Option Side) :=
  (fullBranches s e cls).filter (fun b => match mfind s.branchSince (queueKey e (.branch cls b)) with
    | some since => decide (since + interval ≤ s.tb.toNat)
    | none => false)

/-- forkStall: the fork stops on the cause until the trap's return, which restarts its interval (R63, R307, R310). -/
def execForkStall (e : Nat) (cls : BitVec 6) (s : State) : Host.Outcome State Fault Refusal :=
  .next (match s.taskOfElem e with
    | none => s
    | some t =>
      let x := s.task t
      let late := stalledBranches s e cls (watchdog x)
      if x.dry.isSome || late.isEmpty || (s.elem e).forkStops.contains cls.toNat then s
      else
        let s' := { s with branchSince := late.foldl (fun m b => merase m (queueKey e (.branch cls b))) s.branchSince }
        raiseFork s' e cls 0x143 (BitVec.ofNat 64 ((fullBranches s e cls).foldl (fun m b => m + branchBit b) 0)))

/-- progressStall: nothing has advanced in the region for one whole interval (R63). -/
def execProgressStall (t : Nat) (s : State) : Host.Outcome State Fault Refusal :=
  .next (match (s.task t).groves with
    | g :: _ =>
      let x := s.task t
      if isLive s t && x.dry.isNone && !x.stalled && !x.starting && decide (x.progress + watchdog x ≤ s.tb.toNat) then
        raise (s.modTask t (fun y => { y with stalled := true })) g { cause := 0x144, src := 5, eid := eidOf s (elemAt g 0) &&& 0x1FFFFFFFFF }
      else s
    | [] => s)

/-- trapEntry (R308). -/
def execTrapEntry (g : Nat) (s : State) : Host.Outcome State Fault Refusal :=
  .next (if canEnter (s.grove g) then enterHandler s g else s)

end Sys2Proof.Machine
end

