-- ==== Sys2Proof/Machine/Waves.lean ====
section
/-! DEFINITION. Checkpoint and drain waves, suspension, its save and its restoration (R353, R362 to R374), and the tag scrubber (R374). -/

namespace Sys2Proof.Machine

/-- Do the planes of a load hold a matrix descriptor (R364)? -/
def matrixLoad (x : Task) : Bool := x.image.planes.any (fun p => (p.2.findDesc 1).isSome)

/-- Is a return in progress: armed, with the cost of a part taken (R269, R270)? -/
def returnBegun (s : State) (x : Task) : Bool := returnArmed x && (listedElems s x.groves).any (fun e => (s.elem e).partPaid != 0)

/-- Starts an armed wave, unless a load that is not in effect yet, a freeze wave, a return in progress or a record outside class 3 holds it back (R103, R364, R271, R317). -/
def startWave (s : State) (t : Nat) : State :=
  let x := s.task t
  if x.armedWave && !x.starting && x.wave.isNone && !returnBegun s x && x.groves.all (fun g => !recordQueued (s.grove g) t true) then
    s.modTask t (fun y => { y with armedWave := false, waveDone := false, wave := some (if matrixLoad x then .drain else .checkpoint) })
  else s

/-- The mark of a checkpoint or drain wave in progress (R58, R364). -/
def waveMark (x : Task) : Option (BitVec 3) :=
  match x.wave with
  | some .checkpoint => some 4
  | some .drain => some 5
  | _ => none

/-- Has an element a bound inbound channel off every cycle (R365)? -/
def hasBound (s : State) (gs : List Nat) (e : Nat) : Bool := (boundChannels s gs).any (fun v => v.1 == e && !onCycle s v)

/-- Is an element at its entry point (R365)? -/
def atEntry (s : State) (gs : List Nat) (e : Nat) : Bool :=
  if holdsChkpt s e then (s.elem e).entered || entersAtOnce s e else !hasBound s gs e

/-- Have an element's steps, bursts and requests ended as a wave asks (R180, R233, R366)? -/
def elemSettled (s : State) (e : Nat) (stopped : Bool) : Bool :=
  enginesDone s e && agsPaused s e && requestsSettled s (ofElement e) stopped

/-- Can an AG make no move (R353)? -/
def agIdle (s : State) (g n : Nat) : Bool :=
  [execAgAccess g n s, execSparseSetStep g n s, execStreamCommandRetire g n s].all (fun o => match o with
    | .next u => decide (u = s)
    | _ => true)

/-- Can no token in transit in a region move: each waits for room, or at a stopped router (R353)? -/
def fabricStuck (s : State) (gs : List Nat) : Bool :=
  s.fabric.all (fun q =>
    let e := q.1 / 4096
    q.2.isEmpty || !gs.contains (groveOf e) || (decide (hop s e (hopOf q.1) false = s) && decide (deliver s e (hopOf q.1) = s)))

/-- Does a sequencer's task program go on by itself when a time has come (R176)? -/
def timed (x : Grove) : Bool :=
  match x.taskBank.hold with
  | .time _ => true
  | _ => false

/-- Is a region at a quiescent point: every unit stopped on a cause, at rest, or held only by an empty upstream (R353)? A sequencer that waits for a time is not. -/
def quiescent (s : State) (t : Nat) : Bool :=
  fabricStuck s (s.task t).groves &&
  (s.task t).groves.all (fun g => (s.grove g).ags.all (fun a => a.2.stopped || agIdle s g a.1)) &&
  (listedElems s (s.task t).groves).all (fun e => (s.elem e).stopped || (s.elem e).frozen || (noneReady s e && enginesRest s e)) &&
    (s.task t).groves.all (fun g => (s.grove g).stopped || (s.grove g).halted || (s.grove g).atPoint || (!timed (s.grove g) && !mayIssue s g)) &&
    s.reqs.all (fun r => r.2.tag != t || r.2.supervisor || withdrawable s r.2 || (match r.2.stage with
      | .stopped _ => true
      | _ => false))

/-- The AGs of an element; a C element has none (R223). -/
def elemAgs (s : State) (e : Nat) : List Ag := if isC e then [] else (List.range 4).map (fun n => (s.grove (groveOf e)).ag (mIndex e * 4 + n))

/-- Have the AGs of an element that have a read command reached their entry point: that of their grove's sequencer (R365)? -/
def readsEntered (s : State) (e : Nat) : Bool := (s.grove (groveOf e)).atPoint || (elemAgs s e).all (fun a => a.stopped || a.queue.all readsChannel)

/-- May an element stop at its point: none of its units stopped, or, at a quiescent point, stopped on class-3 causes only (R353, R366)? -/
def mayStop (s : State) (t e : Nat) : Bool :=
  let x := s.elem e
  takesPart s e && !x.frozen && x.nodeStops.isEmpty && readsEntered s e &&
    (if x.stopped || (elemAgs s e).any Ag.stopped then quiescent s t && !recordQueued (s.grove (groveOf e)) t true && elemSettled s e true
     else elemSettled s e false)

/-- Is a channel read by a stopped AG, at a quiescent point: its tokens stay queued, and are saved (R353)? -/
def readerStopped (s : State) (t : Nat) (v : Nat × Nat) : Bool :=
  (elemAgs s v.1).any (fun a => a.stopped && (a.queue.take 1).any (fun c => (cmdReads c).contains v.2)) && quiescent s t

/-- Have all bound channels of an element that lie on no cycle a wave's marker, but for those that a stopped AG reads (R353, R366)? -/
def markersHeld (s : State) (t : Nat) (m : BitVec 3) (e : Nat) : Bool :=
  (boundChannels s (s.task t).groves).all (fun v => v.1 != e || markerCame s m v || !awaitsMarker s (s.task t).groves v || readerStopped s t v)

/-- An element reaches its entry or wave point, when it may (R365, R366): one that configures nothing when its AGs are at their boundaries. -/
def elemPoint (s : State) (e : Nat) (entry : Bool) : State :=
  match s.taskOfElem e with
  | none => s
  | some t =>
    let s1 := startWave s t
    match waveMark (s1.task t), (s1.task t).dry with
    | some m, none =>
      let gs := (s1.task t).groves
      let due := (s1.elem e).stopped || !(s1.elem e).active.present ||
        (if entry then atEntry s1 gs e else !holdsChkpt s1 e && hasBound s1 gs e && markersHeld s1 t m e)
      if due && mayStop s1 t e then reachPoint s1 e m else s
    | _, _ => s

/-- A sequencer reaches its entry point (R365). -/
def seqPoint (s : State) (g : Nat) : State :=
  match s.taskOfGrove g with
  | none => s
  | some t =>
    let s1 := startWave s t
    let x := s1.grove g
    match waveMark (s1.task t), (s1.task t).dry with
    | some _, none =>
      let halted := if x.level = 0 then x.halted else x.thalt
      let due := if x.stopped then quiescent s1 t && !recordQueued x t true else x.entered || halted
      if due && !x.atPoint && x.place.isNone && requestsSettled s1 (ofSequencer g) x.stopped then
        let (s2, qs) := takeBack s1 (ofSequencer g)
        s2.modGrove g (fun x => { x with atPoint := true, withdrawn := qs })
      else s
    | _, _ => s

/-- waveEntryPoint: an AG is held at its burst boundary by the point of its sequencer (R365). -/
def execWaveEntryPoint (u : UnitId) (s : State) : Host.Outcome State Fault Refusal :=
  .next (match u with
    | .elem e => elemPoint s e true
    | .seq g => seqPoint s g
    | _ => s)

/-- wavePoint (R366). -/
def execWavePoint (e : Nat) (s : State) : Host.Outcome State Fault Refusal := .next (elemPoint s e false)

/-- Does every exit of a region hold the marker: the channels of write streams, but for those whose AG is stopped (R353, R366, R367)? -/
def exitsMarked (s : State) (t : Nat) (m : BitVec 3) : Bool :=
  (boundChannels s (s.task t).groves).all (fun v => !(agChannels s v.1).contains v.2 || holdsMarker s m v || readerStopped s t v)

/-- Are the writes of a grove's AGs made (R367)? -/
def agsSettled (s : State) (g : Nat) : Bool :=
  (s.grove g).ags.all (fun a => agPaused s g a.1) && s.reqs.all (fun r => match r.2.src with
    | .ag x _ => x != g
    | _ => true)

/-- waveComplete (R367): it waits while the task is dry (R205, R364), and while a record of the task outside class 3 is queued (R317). -/
def execWaveComplete (t : Nat) (s : State) : Host.Outcome State Fault Refusal :=
  .next (match waveMark (s.task t) with
    | none => s
    | some m =>
      let gs := (s.task t).groves
      if isLive s t && (s.task t).dry.isNone && gs.all (fun g => !recordQueued (s.grove g) t true) && (waveElems s gs).all (atPoint s) &&
          gs.all (fun g => (s.grove g).atPoint && agsSettled s g) && fabricEmpty s gs && exitsMarked s t m then
        s.modTask t (fun x => { x with waveDone := true })
      else s)

/-- The live list of a save: that of the last checkpoint passed (R371). -/
def liveList (x : Task) : List LiveItem := if x.segment = 0 then [] else mget [] x.image.chkpts (x.segment - 1)

/-- Region number of an element: region grove times 256, plus its place in the grove. -/
def regionNo (s : State) (e : Nat) : Nat := (s.grove (groveOf e)).regionIndex * 256 + elemInGrove e

/-- Does a load claim a bank (R86)? -/
def claims (i : LoadImage) (n bank : Nat) : Bool := (imageWindows i n).any (fun d => winClaim d && winBank d == bank)

/-- Banks of a region, by region element number and bank. -/
def regionBanks (gs : List Nat) : List (Nat × Nat) := (List.range (gs.length * 256)).flatMap (fun n => (List.range 6).map (fun b => (n, b)))

/-- Key of a bank of a region. -/
def bankKey (gs : List Nat) (v : Nat × Nat) : Nat := regionElem gs v.1 * 6 + v.2

/-- Frozen frames of an element's understory, the oldest first. -/
def framesOf (x : Elem) : List Frame :=
  [3, 2, 1].filterMap (fun k => match underAt x k with
    | .frame f => some f
    | _ => none)

/-- The frames of a region that a suspension spills, with their elements and places in the cellars (R260, R368). -/
def spills (s : State) (t : Nat) : List (Nat × Nat × Frame) :=
  (listedElems s (s.task t).groves).flatMap (fun e => (framesOf (s.elem e)).zipIdx.map (fun f => (e, (s.elem e).cellar.length + f.2, f.1)))

/-- Would spilling every frame of a region pass its cellar's length (R368)? -/
def spillBlocked (s : State) (t : Nat) : Bool :=
  (spills s t).any (fun m => decide ((s.grove (groveOf m.1)).cellarn.toNat ≤ m.2.1) || !cellarPage s (s.task t).ctx (cellarAddr s t m.1 m.2.1) true)

/-- Is a request an AG's? -/
def fromAg (q : Req) : Bool :=
  match q.src with
  | .ag _ _ => true
  | _ => false

/-- An element as a save holds it: no wave markers in its queues, no understory, and none of its AGs' requests, which are kept with its grove (R368, R373). -/
def savedElem (x : Elem) : Elem :=
  let queue := x.active.queue.map (fun q => (q.1, q.2.filter (fun t => !t.isWave)))
  { x.withPredictor {} with
    active := { x.active with queue := queue }, under := Vector.replicate 3 .empty, preloads := [], cellar := [], lc := {}
    withdrawn := x.withdrawn.filter (fun r => !fromAg r.2), chains := x.chains.map (keptChain x.withdrawn)
    frozen := false, entered := false, called := false, markSeen := 0, chkptAt := none, partPaid := 0, stopped := false }

/-- A grove as a save holds it: its sequencer with the PC of the task program, and the withdrawn requests of its AGs with those of the sequencer (R368). -/
def savedGrove (s : State) (g : Nat) : Grove :=
  let x := s.grove g
  let ags : List (Nat × Req) := ((s.elems.filter (fun e => groveOf e.1 == g)).flatMap (fun e => e.2.withdrawn)).filter (fun r => fromAg r.2)
  let x : Grove := { x with withdrawn := x.withdrawn ++ ags, chains := x.chains.map (keptChain x.withdrawn) }
  if x.level = 0 then x else { x with pc := x.epc.toNat, halted := x.thalt }

/-- What the save holds of a bank range: words, presence, AC counts, and the states of the windows that lie in it (R368). -/
def savedRange (s : State) (gs : List Nat) : LiveItem → Option (LiveItem × List (Word × WordMeta) × List (Nat × WinState))
  | .rng g e b off len =>
    let x := regionElem gs (g * 256 + e)
    let base := b * 0x10000 + off
    let ws := (s.elem x).active.node.filterMap (fun d =>
      if wbits d.2.w0 28 4 = 6 ∧ base ≤ winBase d.2 ∧ winBase d.2 + winLen d.2 ≤ base + len then some (winBase d.2, s.window (winKey x d.2)) else none)
    some (.rng g e b off len, (List.range (len / 8)).map (fun i => (bankValue s x (base + 8 * i), s.wordMeta (bankWord x (base + 8 * i)))), ws)
  | _ => none

/-- Banks of a task's load's claims that do not return to the park at its suspension: those it wrote (R368). -/
def lostClaims (s : State) (x : Task) : List (Nat × Nat) :=
  (regionBanks x.groves).filter (fun v => claims x.image v.1 v.2 && !((s.bank (bankKey x.groves v)).claimed && !(s.bank (bankKey x.groves v)).written))

/-- The save of a task (R368). -/
def saveOf (s : State) (t : Nat) : Saved :=
  let x := s.task t
  let gs := x.groves
  let items := liveList x
  let els := items.filterMap (fun i => match i with
    | .el g e => some (g * 256 + e)
    | _ => none)
  let lcs := items.filterMap (fun i => match i with
    | .lc g e => some (g * 256 + e)
    | _ => none)
  { held := gs, lost := lostClaims s x
    groves := gs.map (fun g => ((s.grove g).regionIndex, savedGrove s g))
    elems := els.foldl (fun m n => mset m n (savedElem (s.elem (regionElem gs n)))) []
    cellars := (listedElems s gs).foldl (fun m e => mset m (regionNo s e) ((s.elem e).cellar ++ framesOf (s.elem e))) []
    arrays := lcs.foldl (fun m n => mset m n (s.elem (regionElem gs n)).lc) []
    banks := items.filterMap (savedRange s gs)
    outst := s.outst.filter (fun o => gs.contains (groveOf o.2.elem)) }

/-- Bytes that a save writes (R369, R370). -/
def writtenBytes (x : Task) : Nat := 4096 + 65536 * (x.rows * x.cols) + (liveList x).foldl (fun n i => n + itemBytes i) 0

/-- Words 0 to 9 of the save area's header (R370). -/
def saveHeader (s : State) (t : Nat) (drain : Bool) : List Word :=
  let x := s.task t
  let n := BitVec.ofNat 64
  [n (2 ^ 56 + x.rows * x.cols * 2 ^ 44 + (if drain then 2 ^ 43 else 0) + t), n (x.serial * 2 ^ 32 + x.entryIndex % 65536 * 65536 + x.segment % 65536),
    n (balance s t), n (x.refilled % 2 ^ 48), n (x.topped % 2 ^ 48), n x.issued, n x.boostDrops, n (writtenBytes x),
    n (bits (s.grove (x.groves.headD 0)).region.toNat 0 30), s.tb]

/-- Targets of the words of a save, for a write from outside any task; none where a page of the area no longer lets it (R363, R370). -/
def saveTargets (s : State) (t : Nat) : List DevicePlace :=
  match deviceTargets s (s.task t).ctx (s.task t).saveArea.toNat (writtenBytes (s.task t) / 8) with
  | .ok ts => ts
  | .error _ => []

/-- The save area is written from outside any task: its header, and words that the device alone reads, free values (R370; assumption 23). What they stand for is held in Saved. -/
def writeSave (s : State) (t : Nat) (drain : Bool) : State :=
  let ts := saveTargets s t
  deviceWrites s ts (saveHeader s t drain ++ (List.range (ts.length - 10)).map (Config.flightWord s.moveNo))

/-- Does a suspension wait for a sector that it writes to resolve (R83)? -/
def saveHeld (s : State) (t : Nat) : Bool :=
  (saveTargets s t).any (deviceHeld s) || cellarHeld s t ((spills s t).map (fun m => (m.1, m.2.1)))

/-- What becomes of a suspended task's bank: one it wrote is reset, a claimed one it did not write returns to the park (R368). -/
def suspendBank (t : Nat) (s : State) (b : Nat) : State :=
  if (s.bank b).claimed && !(s.bank b).written then s.modBank b (fun k => returnedPark k (s.task t).ctx) else freeBank s b

/-- The suspension record (R372). -/
def suspensionRecord (s : State) (t : Nat) : List Word :=
  let x := s.task t
  let n := BitVec.ofNat 64
  [n (5 * 2 ^ 56 + t), n (x.serial * 2 ^ 32 + x.segment % 65536), n (balance s t), x.saveArea, 0, 0, 0, 0]

/-- Removes the class-3 records of a task from a grove, and takes the unit from the record that a handler is running on (R353). -/
def dropRecords (t : Nat) (s : State) (g : Nat) : State :=
  s.modGrove g (fun x => { x with
    traps := x.traps.filter (fun r => r.tag != t), waitingTraps := x.waitingTraps.filter (fun r => r.tag != t)
    handling := x.handling.map (fun r => if r.tag = t then { r with unit := .none } else r) })

/-- Isolates the casks of some groves (R372, R398). -/
def isolate (s : State) (gs : List Nat) : State := gs.foldl (fun s g => s.modGrove g (fun x => { x with isolated := true })) s

/-- The suspension move: the save is complete, the frames are spilled, the casks isolated, and the groves released (R368, R372). -/
def doSuspend (s : State) (t : Nat) (drain : Bool) : State :=
  let x := s.task t
  let saved := saveOf s t
  let record := suspensionRecord s t
  let s := (spills s t).foldl (fun s m => writeFrame s t m.1 m.2.1 m.2.2) (writeSave s t drain)
  let s := gather s t
  let s := (heldBanks s t).foldl (suspendBank t) s
  let s := x.groves.foldl (dropRecords t) s
  let s := discardUnits t x.groves s
  let s := x.groves.foldl (releaseGrove t) (isolate s x.groves)
  let s := s.modTask t (fun y => { y with groves := [], wave := none, waveDone := false, suspended := some saved, refusals := [], starting := false })
  logRecord s x.ctx x.part x.entry record

/-- An element goes on from its point as if no wave had run (R368). -/
def unfreeze (s : State) (e : Nat) : State :=
  let x := s.elem e
  let queue := x.active.queue.map (fun q => (q.1, q.2.filter (fun t => !t.isWave)))
  giveBack (s.setElem e { x with
    active := { x.active with queue := queue }, frozen := false, entered := false, withdrawn := [], markSeen := 0, chkptAt := none }) x.withdrawn

/-- A sequencer goes on from its point. -/
def unfreezeSeq (s : State) (g : Nat) : State :=
  let x := s.grove g
  giveBack (s.setGrove g { x with atPoint := false, entered := false, withdrawn := [], chkptAt := none, suspState := 2 }) x.withdrawn

/-- A save is abandoned (R368). -/
def abandonSave (s : State) (t : Nat) : State :=
  let gs := (s.task t).groves
  let s := (listedElems s gs).foldl unfreeze s
  (gs.foldl unfreezeSeq s).modTask t (fun x => { x with wave := none, waveDone := false })

/-- suspension: after the last item is written (R372), or the save is abandoned (R368). It waits while a sector that it writes is tentative (R83). -/
def execSuspension (t : Nat) (s : State) : Host.Outcome State Fault Refusal :=
  .next (if (s.task t).waveDone && isLive s t && (s.task t).dry.isNone then
      if spillBlocked s t then abandonSave s t
      else if saveHeld s t then s
      else doSuspend s t (match (s.task t).wave with
        | some .drain => true
        | _ => false)
    else s)

/-- suspendRequest: SUSP OP 1 (R363). -/
def execSuspendRequest (g : Nat) (s : State) : Host.Outcome State Fault Refusal := .next (requestSuspension s g)

/-- endSuspendedTask: SUSP OP 2 (R363). -/
def execEndSuspendedTask (g tag : Nat) (s : State) : Host.Outcome State Fault Refusal := .next (endSuspended s g tag)

/-- The place of an element of the groves a task held, in those it has been given. -/
def moveElem (old new : List Nat) (e : Nat) : Nat :=
  match old.findIdx? (· == groveOf e) with
  | some i => elemAt (new.getD i 0) (elemInGrove e)
  | none => e
/-- The place of a grove. -/
def moveGrove (old new : List Nat) (g : Nat) : Nat :=
  match old.findIdx? (· == g) with
  | some i => new.getD i g
  | none => g

def moveTarget (old new : List Nat) : Target → Target
  | .bank e off => .bank (moveElem old new e) off
  | t => t

def moveUnit (old new : List Nat) : UnitId → UnitId
  | .elem e => .elem (moveElem old new e)
  | .seq g => .seq (moveGrove old new g)
  | .ag g n => .ag (moveGrove old new g) n
  | u => u

/-- A withdrawn request in its new place; one stopped on a cause makes its translation afresh (R352, R373). -/
def moveReq (old new : List Nat) (r : Nat × Req) : Nat × Req :=
  (r.1, resent { r.2 with
    src := moveUnit old new r.2.src, target := moveTarget old new r.2.target
    pred := r.2.pred.map (fun p => { p with target := p.target.map (moveTarget old new) }) })

def moveChain (old new : List Nat) (c : ChainRec) : ChainRec := { c with target := c.target.map (moveTarget old new) }

def moveBarrier (old new : List Nat) (b : BarRec) : BarRec :=
  let e := b.word * 8 / elemBytes
  { b with word := bankWord (moveElem old new e) (b.word * 8 % elemBytes) }

def moveOutst (old new : List Nat) (m : SMap Outst) : SMap Outst := m.map (fun o => (o.1, { o.2 with elem := moveElem old new o.2.elem }))

def moveFrame (old new : List Nat) (f : Frame) : Frame :=
  { f with flight := { f.flight with
    reqs := f.flight.reqs.map (moveReq old new), chains := f.flight.chains.map (moveChain old new), outst := moveOutst old new f.flight.outst } }

/-- An element's frames after a restoration: up to three newest from the cellar (R373). -/
def refill (x : Elem) (fs : List Frame) : Elem :=
  let n := fs.length
  let at' (i : Nat) : Under := if i < n then (match fs[n - 1 - i]? with
    | some f => .frame f
    | none => .empty) else .empty
  { x with under := #v[at' 0, at' 1, at' 2], cellar := fs.take (n - 3) }

/-- Copies of a token queued in the elements of a list. -/
def copiesIn (s : State) (es : List Nat) (tid : Nat) : Nat :=
  es.foldl (fun n e => n + ((s.elem e).active.queue.flatMap (fun q => q.2.filter (fun t => t.tid == tid))).length) 0

/-- Outstanding tokens after a restoration: places still reserved, and tokens still queued in restored elements (R72). -/
def restoreOutst (s : State) (es : List Nat) (m : SMap Outst) : State :=
  m.foldl (fun s o =>
    if !es.contains o.2.elem then s
    else if o.2.copies = 0 then { s with outst := mset s.outst o.1 o.2 }
    else
      let n := copiesIn s es o.1
      if n = 0 then s else { s with outst := mset s.outst o.1 { o.2 with copies := n } }) s

/-- Restores a saved element in its new place (R368, R373). -/
def restoreElem (old new : List Nat) (s : State) (n : Nat) (x : Elem) : State :=
  let y : Elem := { x with
    withdrawn := [], chains := x.chains.map (moveChain old new)
    barrier := x.barrier.map (fun b => b.map (moveBarrier old new)) }
  giveBack (s.setElem (regionElem new n) (y.withPredictor (s.elem (regionElem new n)))) (x.withdrawn.map (moveReq old new))

/-- Restores the cellar and understory of an element. -/
def restoreCellar (old new : List Nat) (s : State) (c : Nat × List Frame) : State :=
  s.modElem (regionElem new c.1) (fun x => refill x (c.2.map (moveFrame old new)))

/-- Restores a sequencer with both its banks, its system registers and what it has paid for a word that it retries (R353), and its AGs, whose extents are those patched for the load, so that a burst at hand is checked afresh (R345, R368, R373). No handler runs in the grove (assumption 23). -/
def restoreGrove (old new : List Nat) (s : State) (c : Nat × Grove) : State :=
  let g := new.getD c.1 0
  let x := c.2
  let y := s.grove g
  let bank (b : SeqBank) : SeqBank := { b with barrier := b.barrier.map (moveBarrier old new) }
  let ags : SMap Ag := x.ags.foldl (fun m a => mset m a.1 { a.2 with extents := (mget {} m a.1).extents, queue := a.2.queue.map (uncheck none), stopped := false }) y.ags
  let fences : List Fence := x.fences.filter (fun (f : Fence) => f.strand == 0) ++ y.fences
  let chains : List ChainRec := (x.chains.map (moveChain old new)).filter (fun (c : ChainRec) => c.strand == 0) ++ y.chains
  let y : Grove := { y with
    taskBank := bank x.taskBank, superBank := bank x.superBank, pc := x.pc, halted := x.halted, thalt := x.thalt, sflt := x.sflt
    svec := x.svec, epc := x.epc, tr := x.tr, strapen := x.strapen, sticky := x.sticky, frsel := x.frsel, frovf := x.frovf, suspTag := x.suspTag, savea := x.savea
    prepaid := x.prepaid, ags := ags, nextOrder := x.nextOrder, fifos := x.fifos, exits := x.exits, fences := fences, chains := chains }
  giveBack (s.setGrove g y) (x.withdrawn.map (moveReq old new))

/-- Restores a bank range (R368, R373). -/
def restoreRange (new : List Nat) (s : State) (c : LiveItem × List (Word × WordMeta) × List (Nat × WinState)) : State :=
  match c.1 with
  | .rng g e b off _ =>
    let x := regionElem new (g * 256 + e)
    let base := b * 0x10000 + off
    let s := c.2.1.zipIdx.foldl (fun s w => putWord s x (base + 8 * w.2) w.1.1 w.1.2) s
    c.2.2.foldl (fun s w => s.modWindow (x * elemBytes + w.1) (fun _ => w.2)) s
  | _ => s

/-- Every item of a save is restored in the groves that a resumed task has been given (R373). -/
def restoreSave (s : State) (new : List Nat) (v : Saved) : State :=
  let s := v.elems.foldl (fun s x => restoreElem v.held new s x.1 x.2) s
  let s := v.cellars.foldl (restoreCellar v.held new) s
  let s := v.arrays.foldl (fun s a => s.modElem (regionElem new a.1) (fun x => { x with lc := a.2 })) s
  let s := v.banks.foldl (restoreRange new) s
  let s := v.groves.foldl (restoreGrove v.held new) s
  restoreOutst s (v.elems.map (fun x => regionElem new x.1)) (moveOutst v.held new v.outst)

/-- Is a tag still needed: by a dependent that has not ended (R85), by a successor that is due and not launched (R334), or by resolves that are not acknowledged (R394)? -/
def tagNeeded (s : State) (t : Nat) : Bool :=
  ((s.task t).due && (s.task t).successor.isNone && mget TagState.free s.tags t == .vanished &&
    s.staged.any (fun x => followsLoad (s.task t).serial x.2.pending || followsLoad (s.task t).serial x.2.deferred)) ||
  s.tasks.any (fun x => isLive s x.1 && x.2.producers.contains t) || !(s.task t).resolving.isEmpty

/-- Rewrites the sectors of a finished task's tag (R374). -/
def scrubSectors (s : State) (t : Nat) (full : Bool) : State :=
  { s with sectors := s.sectors.map (fun x => if x.2.st = 2 ∧ x.2.tag.toNat = t then (x.1, { st := if full then 1 else 0 }) else x) }

/-- tagScrub: a finished task's sectors are rewritten, and its tag is free again (R374). -/
def execTagScrub (t : Nat) (s : State) : Host.Outcome State Fault Refusal :=
  .next (if tagNeeded s t then s
    else match mget TagState.free s.tags t with
      | .committed => { scrubSectors s t true with tags := merase s.tags t, tasks := merase s.tasks t }
      | .vanished => { scrubSectors s t false with tags := merase s.tags t, tasks := merase s.tasks t }
      | _ => s)

end Sys2Proof.Machine
end

