-- ==== Sys2Proof/Machine/Scheduler.lean ====
section
/-! DEFINITION. The scheduler (R319, R324 to R328): slot starts, regions, launches, the change of load (M10, R103), and the resume of suspended tasks (R373). -/

namespace Sys2Proof.Machine

/-- Moves a staged entry to its next slot start; an entry with no period has none (R321). -/
def nextStart (s : State) (k : Nat) : State :=
  { s with staged := mmod {} s.staged k (fun x => if enPeriod x.entry = 0 then { x with valid := false, spent := true, next := none } else { x with start := x.start + enPeriod x.entry }) }

/-- Has a slot start of an entry come that its slotStart move has not taken (R321, R326)? -/
def startCame (s : State) (x : Staged) : Bool := x.valid && !enChained x.entry && decide (x.start ≤ s.tb.toNat)

/-- Takes a slot start of an entry that has come (R321, R327). -/
def takeStart (s : State) (p n : Nat) : State :=
  let k := entryKey p n
  let x := mget {} s.staged k
  if startCame s x then restage (nextStart (entryDue s k x.start none) k) p n x.start else s

/-- slotStart (R321, R327). -/
def execSlotStart (p n : Nat) (s : State) : Host.Outcome State Fault Refusal := .next (takeStart s p n)

/-- Does a load place a window or .data in a bank (R87)? -/
def placesIn (i : LoadImage) (n bank : Nat) : Bool :=
  (imageWindows i n).any (fun d => winBank d == bank) || i.data.any (fun d => d.g * 256 + d.e == n && d.offset / 0x10000 == bank)

/-- Does a load set CLAIM anywhere? -/
def setsClaim (i : LoadImage) : Bool := i.planes.any (fun p => (descsOf p.2 6).any winClaim)

/-- Does a load claim a bank that is not among those that its suspended task has written (R86, R368, R373)? -/
def claimsStill (i : LoadImage) (lost : List (Nat × Nat)) (v : Nat × Nat) : Bool := claims i v.1 v.2 && !lost.contains v

/-- Is a load's claim of a bank met at some groves, or a bank that it does not claim no kept park in its way (R326)? -/
def parkFits (s : State) (c : Nat) (i : LoadImage) (gs : List Nat) (lost : List (Nat × Nat)) (v : Nat × Nat) : Bool :=
  let o := (s.bank (bankKey gs v)).owner
  if claimsStill i lost v then o == .keptPark c || o == .openPark c else !(placesIn i v.1 v.2 && o == .keptPark c)

/-- Are a load's claims met at some groves, and no kept park of its context in its way (R326)? -/
def parksFit (s : State) (c : Nat) (i : LoadImage) (gs : List Nat) (lost : List (Nat × Nat)) : Bool := (regionBanks gs).all (parkFits s c i gs lost)

/-- Are all groves of a list free: in service and held by no task? -/
def grovesFree (s : State) (gs : List Nat) : Bool := gs.all (fun g => !s.retired.contains g && (s.grove g).task.isNone && !(s.grove g).runtime)

/-- The origins of a partition at which a shape lies, in ascending module grove index (R326). -/
def origins (x : Part) (rows cols : Nat) : List (Nat × Nat) :=
  (List.range x.rows).flatMap (fun r => (List.range x.cols).filterMap (fun c =>
    if r + rows ≤ x.rows ∧ c + cols ≤ x.cols then some (x.row + r, x.col + c) else none))

/-- The region that a launch would be given (R326). -/
def findRegion (s : State) (p : Nat) (e : Entry) (i : LoadImage) : Option (Nat × Nat) :=
  let fits (o : Nat × Nat) : Bool :=
    let gs := rectangle o.1 o.2 (enRows e) (enCols e)
    grovesFree s gs && parksFit s (enCtx e) i gs []
  if enFixed e then (if fits (enRow e, enCol e) then some (enRow e, enCol e) else none)
  else (origins (s.part p) (enRows e) (enCols e)).find? fits

/-- Can a launch be given no region at any time, as its partition stands: reason 2 or 7, with INFO (R325, R326, R333)? -/
def regionReason (s : State) (p : Nat) (e : Entry) (i : LoadImage) : Option (Nat × Word) :=
  if regionUnfit s p e then some (2, 0)
  else if enFixed e then
    let gs := rectangle (enRow e) (enCol e) (enRows e) (enCols e)
    ((regionBanks gs).find? (fun v => !parkFits s (enCtx e) i gs [] v)).map (fun v => (7, failInfo s (some (enRow e, enCol e)) (enRows e) (enCols e) (some v.1)))
  else if (origins (s.part p) (enRows e) (enCols e)).any (fun o => parksFit s (enCtx e) i (rectangle o.1 o.2 (enRows e) (enCols e)) []) then none
  else some (7, 0)

/-- Has the header of an entry's argument block, read at launch, a reserved field that is not zero (R323, R325)? -/
def reservedArgs (s : State) (e : Entry) : Bool :=
  (deviceWord s (enCtx e) (enArgs e + 16)) >>> 32 != 0 || deviceWord s (enCtx e) (enArgs e + 24) != 0

/-- The header of an entry's argument block is read at launch (R323): does it fail to translate, or give a cellar range that fails R261? -/
def badArgs (s : State) (e : Entry) : Bool := !deviceReads s (enCtx e) (enArgs e) 32 || badCellar s (enCtx e) e

/-- Does a launch wait for the header of its argument block, tentative still (R83)? -/
def argsWait (s : State) (e : Entry) : Bool := deviceWaits s (enCtx e) (enArgs e) 32

/-- Can the header of an entry's argument block be read now, so that its launch is given a region or rejected: it neither waits nor meets a machine check (R83, R326, R388)? -/
def argsRead (s : State) (e : Entry) : Bool := !argsWait s e && !deviceFails s (enCtx e) (enArgs e) 32

/-- Is the TDI of a partition in ERROR, so that it starts no task (R381)? -/
def inError (s : State) (p : Nat) : Bool := (s.part p).tdi == .error

/-- The tags that are free (R324, R374). -/
def freeTags (s : State) : List Nat := ((List.range 16384).drop 1).filter (fun t => (mfind s.tags t).isNone)

/-- The region that a suspended task would be given: one of the same shape, at the same origin where its entry is fixed or its load claims a bank (R373). -/
def resumeRegion (s : State) (x : Task) (v : Saved) : Option (Nat × Nat) :=
  let shape (o : Nat × Nat) : List Nat := rectangle o.1 o.2 x.rows x.cols
  let fits (o : Nat × Nat) : Bool := grovesFree s (shape o) && parksFit s x.ctx x.image (shape o) v.lost
  if enFixed x.entry || setsClaim x.image then
    let g := v.held.headD 0
    if fits (g / 56, g % 56) then some (g / 56, g % 56) else none
  else (origins (s.part x.part) x.rows x.cols).find? fits

/-- Is one launch examined before another: priority, slot start, entry index (R326)? -/
def before (a b : Nat × Nat × Nat) : Bool :=
  decide (b.1 < a.1) || (a.1 == b.1 && (decide (a.2.1 < b.2.1) || (a.2.1 == b.2.1 && decide (a.2.2 < b.2.2))))

/-- Is a launch or a resume of a partition to be examined earlier: one that finds a region or a rejection now, or a slot start that has come (R326, R334, R373)? -/
def anotherFirst (s : State) (p : Nat) (order : Nat × Nat × Nat) : Bool :=
  s.staged.any (fun x => x.1 / 4096 == p && startCame s x.2 && before (enPrio x.2.entry, x.2.start, x.1 % 4096) order) ||
  s.staged.any (fun x => x.1 / 4096 == p && (match x.2.pending with
    | some d => !d.blocked && before (enPrio d.entry, d.start, x.1 % 4096) order &&
        ((regionReason s p d.entry d.image).isSome || (!(freeTags s).isEmpty && (findRegion s p d.entry d.image).isSome && argsRead s d.entry))
    | none => false)) ||
  s.tasks.any (fun x => x.2.part == p && isLive s x.1 && suspendedNow x.2 && (match x.2.suspended with
    | some v => before (enPrio x.2.entry, x.2.due0, x.2.entryIndex) order && (resumeRegion s x.2 v).isSome
    | none => false))

/-- What becomes of a bank of a region that a task is given: a claimed one keeps its contents, a park of another context and an open park that the load places something in are evicted, a free one is the task's, zero and empty (R75, R86, R87, R326). -/
def takeBank (gs : List Nat) (c tag : Nat) (i : LoadImage) (lost : List (Nat × Nat)) (s : State) (v : Nat × Nat) : State :=
  let b := bankKey gs v
  let hold (s : State) (claimed wasOpen : Bool) : State := s.modBank b (fun _ => { owner := .held tag, claimed := claimed, wasOpen := wasOpen })
  match (s.bank b).owner with
  | .free => hold (freeBank s b) false false
  | .openPark d => if claimsStill i lost v && d == c then hold s true true else if d ≠ c ∨ placesIn i v.1 v.2 then hold (freeBank s b) false false else s
  | .keptPark d => if claimsStill i lost v && d == c then hold s true false else if d ≠ c then hold (freeBank s b) false false else s
  | _ => s

/-- Sets the registers of a sequencer of a region (R324 step 3). -/
def setRegisters (tag c o rows cols : Nat) (args cellar cellarn : Word) (s : State) (gi : Nat × Nat) : State :=
  s.modGrove gi.1 (fun x => { x with
    task := some tag, ctxno := BitVec.ofNat 16 c, regionIndex := gi.2, argblk := args, cellar := cellar, cellarn := cellarn
    region := BitVec.ofNat 64 (rows * 2 ^ 24 + cols * 2 ^ 16 + o / 56 * 2 ^ 8 + o % 56) })

/-- A task takes its groves: their registers, with the cellar that it read at launch (R323), and their banks (R324 step 3, R326). -/
def takeRegion (s : State) (tag : Nat) (x : Task) (o : Nat × Nat) : State :=
  let gs := rectangle o.1 o.2 x.rows x.cols
  let s := gs.zipIdx.foldl (setRegisters tag x.ctx (o.1 * 56 + o.2) x.rows x.cols (reg x.entry.w 4) x.cellar x.cellarn) s
  let s := (regionBanks gs).foldl (takeBank gs x.ctx tag x.image ((x.suspended.map Saved.lost).getD [])) s
  s.modTask tag (fun y => { y with groves := gs })

/-- Banks that the predecessor with a launch serial handed over pass to its launched successor, which becomes a dependent where the predecessor has not committed: of one that has vanished since too, and vanishes with it (R85, R328, R334). -/
def takeReserved (s : State) (serial tag : Nat) : State :=
  let banks : SMap Bank := s.banks.map (fun b => if b.2.owner = .reserved serial then (b.1, { owner := .held tag }) else b)
  let preds := (s.tasks.filter (fun x => (isLive s x.1 || mget TagState.free s.tags x.1 == .vanished) && x.2.due && x.2.successor.isNone && x.2.serial == serial)).map (fun x => x.1)
  preds.foldl (fun s p => (s.modTask tag (fun x => { x with producers := x.producers ++ [p] })).modTask p (fun x => { x with successor := some tag })) { s with banks := banks }

/-- A launch with a region and a tag: steps 1 to 3 and 5 of R324. -/
def launchAt (s : State) (p n : Nat) (d : Due) (o : Nat × Nat) (tag : Nat) : State :=
  let e := d.entry
  let c := enCtx e
  let k := entryKey p n
  let task : Task := addBoost (s.ctx c).boost (enFee e)
    { serial := (s.serial + 1) % 2 ^ 32, ctx := c, part := p, entryIndex := n, entry := e, image := d.image, due0 := d.start
      rows := enRows e, cols := enCols e, seed := deviceWord s c (enArgs e)
      cellar := deviceWord s c (enArgs e + 8), cellarn := deviceWord s c (enArgs e + 16) &&& 0xFFFFFFFF
      central := 16 * enBudget e - enFee e, issued := enFee e, packets := enBudget e, boosting := enBit e 59, starting := true }
  let s := s.modCtx c (fun x => { x with reserve := x.reserve - enBudget e })
  let s := { s with serial := (s.serial + 1) % 2 ^ 32, tags := mset s.tags tag .live, tasks := mset s.tasks tag task }
  let s := takeRegion s tag task o
  let s := match d.pred with
    | some serial => takeReserved s serial tag
    | none => s
  let s := spendFee (enableSegments s tag (enBudget e)) (s.task tag).groves
  let once := enPeriod e == 0
  let s := { s with staged := mmod {} s.staged k (fun x => { x with pending := none, running := some tag, spent := x.spent && !once, valid := x.valid && !(once && enChained e), next := if once && enChained e then none else x.next }) }
  if once then clearV s p n else s

/-- Drops the pending launch of an entry; one deferred behind it becomes pending where no instance runs (R327). -/
def dropPending (s : State) (k : Nat) : State :=
  { s with staged := mmod {} s.staged k (fun x => if x.running.isNone then { x with pending := x.deferred.map (becomesPending s), deferred := none } else { x with pending := none }) }

/-- A launch is rejected at its start; banks held for it are parked with its context (R88, R321). -/
def rejectLaunch (s : State) (p n reason : Nat) (info : Word) (d : Due) : State :=
  reject (dropPending (parkFor s d) (entryKey p n)) p n reason info d.entry (enPeriod d.entry == 0)

/-- launch: a pending launch that is its partition's next is given its region and starts, is rejected, or stays pending: for want of a region or of a tag (R324 to R326), or while a sector of its argument block is tentative or fails its check (R83, R388). A partition whose TDI is in ERROR starts none (R381). -/
def execLaunch (p n : Nat) (s : State) : Host.Outcome State Fault Refusal :=
  .next (
    let k := entryKey p n
    match (mget {} s.staged k).pending with
    | none => s
    | some d =>
      let e := d.entry
      if d.blocked || inError s p || anotherFirst s p (enPrio e, d.start, n) then s
      else match regionReason s p e d.image, findRegion s p e d.image with
        | some (r, info), _ => rejectLaunch s p n r info d
        | none, none => s
        | none, some o => match freeTags s with
          | [] => s
          | t :: ts =>
            if argsWait s e then s
            else askFor (sectorPlaces s (enCtx e) (enArgs e) 32) (match deviceFault s (enCtx e) (enArgs e) 32 with
            | some cause => noteFailedRead s p cause
            | none =>
              if reservedArgs s e then rejectLaunch s p n 1 0 d
              else if (s.ctx (enCtx e)).reserve < enBudget e then rejectLaunch s p n 3 0 d
              else if badArgs s e then rejectLaunch s p n 6 0 d
              else launchAt s p n d o ((t :: ts).getD (Config.tagChoice s.moveNo % (ts.length + 1)) t)))

/-- The casks of a resumed task: the part of a packet in its balance, which no pour brings, comes from the guard supply, where its cask's charge went (R372, R397). -/
def resumeCasks (s : State) (t : Nat) : State :=
  let x := s.task t
  let f : Int := (x.central % 16 : Nat)
  { s.modGrove (x.groves.headD 0) (fun g => { g with held := g.held + f }) with guardPool := s.guardPool - f }

/-- taskResume: a suspended task is given a region; its configuration and state follow at its change of load (R373). -/
def execTaskResume (t : Nat) (s : State) : Host.Outcome State Fault Refusal :=
  .next (match (s.task t).suspended with
    | none => s
    | some v =>
      let x := s.task t
      if !isLive s t || !suspendedNow x || inError s x.part || anotherFirst s x.part (enPrio x.entry, x.due0, x.entryIndex) then s
      else match resumeRegion s x v with
        | none => s
        | some o =>
          let s := takeRegion s t x o
          let s := s.modTask t (fun y => { y with starting := true, feeDue := 32 * (x.rows * x.cols), poured := packetsHeld x - x.central / 16 })
          resumeCasks (enableSegments s t (enBudget x.entry)) t)

/-- The configuration of an element at the start of a task (R259, R265): the active plane with its primed tokens, and the understory. A resumed task's elements have no queued tokens, zero registers, those of the scalar engine too, and predicates, and generation 0 (R368). -/
def startElem (s : State) (e : Nat) (resumed : Bool) : State :=
  let p := loadPlane s e 0
  let blank (k : Strand) : Strand := { k with w := Regs.zero, p := 0, gen := 0 }
  let active : Plane := if resumed then { p with queue := [], fresh := false, sreg := Vector.replicate 8 0, strands := p.strands.map blank } else { appendQueues { p with queue := [] } p.queue with fresh := false }
  let under (k : Nat) : Under := if resumed || !(loadPlane s e k).present then .empty else .plane { loadPlane s e k with fresh := true }
  let x : Elem := Elem.withPredictor { active := active, under := #v[under 1, under 2, under 3] } (s.elem e)
  if x = {} then s else s.setElem e x

/-- The task program and guard table of a sequencer at the start of a task (R27, R133, R302, R324 step 6). -/
def startGrove (i : LoadImage) (s : State) (gi : Nat × Nat) : State :=
  s.modGrove gi.1 (fun x =>
    let prog := mget [] i.programs gi.2
    let base := x.imem.filter (fun w => decide (x.sbase.toNat ≤ w.1))
    let imem : SMap IWord := prog.zipIdx.foldl (fun m w => mset m w.2 w.1) base
    let guard : SMap IWord := mget [] i.guards gi.2
    let y : Grove := { x with imem := imem, taskBank := { guard := guard }, sticky := 0 }
    if y.level = 0 then { y with pc := 0, halted := prog.isEmpty } else { y with epc := 0, thalt := prog.isEmpty })

/-- The values that .data gives to words of a region (R75). -/
def startData (gs : List Nat) (s : State) (d : DataItem) : State :=
  let e := regionElem gs (d.g * 256 + d.e)
  (List.range d.count).foldl (fun s j => putWord s e (d.offset + 8 * j) (if d.full then d.values.getD j 0 else 0) { full := d.full }) s

/-- The tile tags of an operand-store window at the start of a task: full where every word of the buffer is full (R75, R80, R324 step 4). -/
def startTags (s : State) (e : Nat) (d : Desc) : BitVec 4 :=
  (List.range (winBufs d)).foldl (fun m i => if allFull s e (winBase d + i * bufBytes d) (bufBytes d / 8) then m ||| tagBit i else m) 0

/-- The states of an element's windows at the start of a task; those of a claimed bank are kept (R75, R86, R324 step 4). The model's own choice (assumption 30): a FIFO or line-buffer window whose words .data fills starts with no word queued or appended (R81, R82). -/
def startWindows (s : State) (e : Nat) : State :=
  (s.elem e).active.node.foldl (fun s d =>
    if wbits d.2.w0 28 4 = 6 ∧ winOrg d.2 = 1 ∧ wbits d.2.w0 9 1 = 0 ∧ (s.window (winKey e d.2)).tags ≠ startTags s e d.2 then
      s.modWindow (winKey e d.2) (fun w => { w with tags := startTags s e d.2 })
    else s) s

/-- The loader patches the extents of a load's stream bindings (R343). -/
def startBinding (gs : List Nat) (s : State) (b : Binding) : State := (patchExtent s (gs.getD (b.ag / 512) 0) (b.ag % 512) b.base).1

/-- The configuration of a load takes effect (R324 steps 4 and 6). -/
def startTask (s : State) (t : Nat) : State :=
  let x := s.task t
  let resumed := x.suspended.isSome
  let s := (x.groves.flatMap groveElems).foldl (fun s e => startElem s e resumed) s
  let s := x.groves.zipIdx.foldl (startGrove x.image) s
  let s := if resumed then s else x.image.data.foldl (startData x.groves) s
  let s := (x.groves.flatMap groveElems).foldl startWindows s
  let s := x.image.bindings.foldl (startBinding x.groves) s
  let s := match x.suspended with
    | some v => restoreSave s x.groves v
    | none => s
  s.modTask t (fun y => { y with starting := false, suspended := none, progress := s.tb.toNat, tstart := if resumed then y.tstart else s.tb.toNat })

/-- Is a region drained of what an earlier load left: no request on its way to its banks (R103)? -/
def drained (s : State) (gs : List Nat) : Bool :=
  s.reqs.all (fun r => r.2.supervisor || (match r.2.target with
    | .bank e _ => !gs.contains (groveOf e)
    | _ => true))

/-- loadChange (M10, R103): the configuration of a launched or resumed task takes effect; the pour fee of a resume is taken first (R373). A resume, which restores the supervisor banks, waits for the handlers of its groves to return (assumption 23). -/
def execLoadChange (t : Nat) (s : State) : Host.Outcome State Fault Refusal :=
  .next (
    let x := s.task t
    if !x.starting || !isLive s t || !drained s x.groves || x.dry.isSome then s
    else if x.suspended.isSome && x.groves.any (fun g => (s.grove g).level != 0) then s
    else if x.feeDue = 0 then startTask s t
    else if x.feeDue ≤ balance s t then startTask ((gather (spendFee s x.groves) t).modTask t (fun y => addBoost (s.ctx x.ctx).boost x.feeDue { y with central := y.central - x.feeDue, issued := y.issued + x.feeDue, feeDue := 0 })) t
    else refuse s (x.groves.headD 0) x.feeDue)

/-- Takes the slot starts of an entry that have come, each under the entry as it stands at that start (R321). -/
def takeStarts : Nat → State → Nat → State
  | 0, s, _ => s
  | n + 1, s, k => if startCame s (mget {} s.staged k) then takeStarts n (takeStart s (k / 4096) (k % 4096)) k else s

/-- The slot starts of an entry that lie no later than a time are skipped and counted, but the latest (R319). -/
def passStarts (s : State) (k tb : Nat) : State :=
  let x := mget {} s.staged k
  let P := enPeriod x.entry
  if x.valid && !enChained x.entry && P != 0 && decide (x.start ≤ tb) then
    let m := (tb - x.start) / P
    let s := (List.range m).foldl (fun s _ => skipStart s x.entry) s
    { s with staged := mset s.staged k { x with start := x.start + m * P } }
  else s

/-- A forward step passes over the slot starts of an entry (R319). A change that has been seen applies after the first of them (R321): where a start of the changed entry is passed too, the first is skipped and counted. -/
def passEntry (s : State) (k tb : Nat) : State :=
  let x := mget {} s.staged k
  let due (x : Staged) : Bool := x.valid && !enChained x.entry && decide (x.start ≤ tb)
  if due x && x.next.isSome then
    let u := restage s (k / 4096) (k % 4096) x.start
    if due (mget {} u.staged k) then passStarts (skipStart u x.entry) k tb else s
  else passStarts s k tb

/-- Corrects the time base for a reference that is ahead by an offset: more than 1 ms is stepped, other offsets are slewed and change the rate only. Slot starts that have come are taken before a step, which come 1 µs apart at least (R321); those that it passes are skipped and counted, but the latest (R319). -/
def adjustTime (s : State) (offset : Int) : State :=
  if offset ≤ 1000000 then s
  else
    let tb := laterTime s.tb offset.toNat
    let s := s.staged.foldl (fun s x => takeStarts ((s.tb.toNat - x.2.start) / 1000 + 1) s x.1) s
    s.staged.foldl (fun s x => passEntry s x.1 tb.toNat) { s with tb := tb }

/-- timeBaseAdjust (R319). -/
def execTimeBaseAdjust (offset : Int) (s : State) : Host.Outcome State Fault Refusal := .next (adjustTime s offset)

end Sys2Proof.Machine
end

