-- ==== Sys2Proof/Machine/Links.lean ====
section
/-! DEFINITION. The host port and attestation (R379 to R386), and Berovo links and accesses across modules (R390 to R395). -/

namespace Sys2Proof.Machine

/-- Granules of a partition in ascending order (R380). -/
def sortedGranules (x : Part) : List Nat := (List.range 1536).filter x.granules.contains

/-- Physical address of an offset of a VF's BAR 2 (R380). -/
def barAddr (x : Part) (a : Nat) : Option Nat := ((sortedGranules x)[a / 2 ^ 30]?).map (fun g => g * 2 ^ 30 + a % 2 ^ 30)

/-- May a TLP reach BAR 2 of a VF: the VF is there and its TDI's state lets it (R381, R409)? ide says that the TLP is on the TDI's selective stream with the T bit, which takes a key of that stream (R379). -/
def barOpen (s : State) (vf : Nat) (ide : Bool) : Bool :=
  featureOn s 0 && decide (0 < vf) && decide (vf ≤ 64) && (mfind s.parts (vf - 1)).isSome && (match (s.part (vf - 1)).tdi with
    | .unlocked => true
    | .run => ide && (mfind s.ideKeys vf).isSome
    | _ => false)

/-- The sectors that n bytes of a BAR 2 touch, by physical number; none past the BAR's end. -/
def barSectors (x : Part) (a n : Nat) : Option (List Nat) :=
  ((List.range ((a % 64 + n + 63) / 64)).map (fun i => barAddr x (a / 64 * 64 + 64 * i))).foldr (fun p l => match p, l with
    | some p, some l => some (p / 64 :: l)
    | _, _ => none) (some [])

/-- Does a host access wait, for a sector that is tentative (R382)? -/
def hostWaits (s : State) (ns : List Nat) : Bool := ns.any (fun n => match sectorView s n with
  | .tentative _ => true
  | _ => false)

/-- Writes bytes to one sector of a BAR 2, which becomes full; one that was empty reads as zero where nothing is written (R83, R382). A write of part of a sector that fails its MAC leaves it failing (R388; assumption 30). -/
def writeBar (s : State) (x : Part) (a : Nat) (bs : List Byte) : State :=
  match barAddr x a with
  | none => s
  | some pa =>
    let n := pa / 64
    let empty := sectorView s n == .empty
    let s := if bs.length = 64 ∨ empty ∨ ¬macFails s n none then writtenUnder s n none else noteBadMac s n
    let m := if empty then clearBytes s.mem (n * 64) 64 else s.mem
    { s with mem := setBytes m pa bs }.setSector n { st := 1 }

/-- The parts of a write from an address on, one for each sector that it touches: at most n of them (R382). -/
def splitWrite : Nat → Nat → List Byte → List (Nat × List Byte)
  | 0, _, _ => []
  | _, _, [] => []
  | n + 1, a, bs => (a, bs.take (64 - a % 64)) :: splitWrite n (a + (64 - a % 64)) (bs.drop (64 - a % 64))

/-- Performs the oldest part of a VF's writes that is left, unless its sector is tentative (R382). -/
def performPart (s : State) (vf : Nat) : State :=
  let x := s.part (vf - 1)
  match mget [] s.hostQueue vf with
  | [] => s
  | (a, bs) :: rest =>
    if hostWaits s ((barSectors x a bs.length).getD []) then s
    else writeBar { s with hostQueue := if rest.isEmpty then merase s.hostQueue vf else mset s.hostQueue vf rest } x a bs

/-- A write is received, behind those of its VF that are not performed. -/
def receiveWrite (s : State) (vf addr : Nat) (data : List Byte) : State :=
  { s with hostQueue := mset s.hostQueue vf (mget [] s.hostQueue vf ++ splitWrite data.length addr data) }

/-- Host addresses from here on are offsets of a function's BAR 0, those below of its BAR 2 (assumption 30). -/
def barZero : Nat := 2 ^ 48

/-- Offset in the MSI-X table and PBA of a function, which PF0 has in BAR 2 and a VF in BAR 0 (R380): none elsewhere, and none where there is no such VF (R409). -/
def msixOffset (s : State) (f addr : Nat) : Option Nat :=
  if f = 0 then (if addr < 0x10000 then some addr else none)
  else if featureOn s 0 && (mfind s.parts (f - 1)).isSome && decide (f ≤ 64) && decide (barZero ≤ addr) && decide (addr < barZero + 0x10000) then some (addr - barZero)
  else none

/-- MSI-X of a function. -/
def msixOf (s : State) (f : Nat) : Msix := if f = 0 then s.msix else (s.part (f - 1)).msix
def setMsix (s : State) (f : Nat) (x : Msix) : State := if f = 0 then { s with msix := x } else s.modPart (f - 1) (fun p => { p with msix := x })

/-- Where the PBA lies behind the table (R380 gives no place; assumption 30). -/
def pbaOffset : Nat := 0x8000

/-- A byte of the MSI-X table or PBA of a function; zero elsewhere. -/
def msixByte (x : Msix) (a : Nat) : Byte :=
  if a < 4096 then BitVec.ofNat 8 (bits (x.entry (a / 16)).toNat (8 * (a % 16)) 8)
  else if pbaOffset ≤ a ∧ a < pbaOffset + 32 then BitVec.ofNat 8 (bits x.pending.toNat (8 * (a - pbaOffset)) 8)
  else 0

/-- A message that was pending leaves when its entry is unmasked (R380). -/
def unmask (s : State) (f n : Nat) : State :=
  let x := msixOf s f
  if x.masked n || !x.pending.getLsbD n then s
  else (setMsix s f { x with pending := x.pending &&& ~~~((1 : BitVec 256) <<< n) }).emit (.msix (f - 1) n (x.address n) (x.data n))

/-- Sets half of an entry of a function's table. -/
def setEntry (s : State) (f n : Nat) (high : Bool) (v : Word) : State :=
  let x := msixOf s f
  let e := x.entry n
  let e : BitVec 128 := if high then v ++ e.setWidth 64 else (e >>> 64).setWidth 64 ++ v
  if n < 256 then unmask (setMsix s f { x with table := mset x.table n e }) f n else s

/-- Writes bytes of a function's table; the PBA is read-only. -/
def writeMsix (f : Nat) (s : State) (a : Nat × Byte) : State :=
  let e := (msixOf s f).entry (a.1 / 16)
  let lo := 8 * (a.1 % 16)
  if a.1 < 4096 then
    let v : BitVec 128 := (e &&& ~~~((0xFF : BitVec 128) <<< lo)) ||| (a.2.setWidth 128 <<< lo)
    setMsix s f { msixOf s f with table := mset (msixOf s f).table (a.1 / 16) v }
  else s

/-- A write to a function's MSI-X table: the messages of the entries that it unmasks leave after it. -/
def hostMsix (s : State) (f off : Nat) (data : List Byte) : State :=
  let s := ((List.range data.length).zip data).foldl (fun s b => writeMsix f s (off + b.1, b.2)) s
  (List.range (data.length / 16 + 2)).foldl (fun s i => unmask s f (off / 16 + i)) s

/-- A write to ACK closes negotiation (R409). hi is a write to ACKH that goes with it. -/
def ackFeatures (s : State) (lo hi : Word) : State :=
  if s.stage ≠ 8 ∨ s.negotiated then s
  else if lo &&& ~~~s.offer != 0 || (s.ackHigh ||| hi) != 0 then { s with negotiated := true, err := true }
  else { s with negotiated := true, ack := lo }

/-- A write to ACKH, before ACK (R409). -/
def ackHighWrite (s : State) (v : Word) : State := if s.negotiated then s else { s with ackHigh := v }

/-- A word of PF0's BAR 0 (R383, R409): the feature registers; the counts of the module at 0x1000 and of partition p at 0x2000 + 32p, places that the model chooses (assumption 30). -/
def pfWord (s : State) (off : Nat) : Word :=
  let count (x : Totals) : Word := BitVec.ofNat 64 ([x.drawn, x.refunded, x.forfeited, x.boostUsed].getD (off / 8 % 4) 0)
  if off = 0 then s.offer
  else if off = 0x20 then (if s.err then 16 else 0) ||| s.stage.setWidth 64
  else if 0x1000 ≤ off ∧ off < 0x1020 then count s.totals
  else if 0x2000 ≤ off ∧ off < 0x2800 then count (s.part ((off - 0x2000) / 32)).totals
  else 0

/-- Is an address in PF0's BAR 0 (R380)? -/
def inPfRegs (f addr : Nat) : Bool := f == 0 && decide (barZero ≤ addr) && decide (addr < barZero + 0x100000)

/-- The number that bytes hold, lowest first. -/
def littleEndian : List Byte → Nat
  | [] => 0
  | b :: bs => b.toNat + 256 * littleEndian bs

/-- A write to PF0's BAR 0: ACK and ACKH are the words that take one (R409). -/
def pfWrite (s : State) (off : Nat) (v : Word) : State := if off = 0x10 then ackFeatures s v 0 else if off = 0x18 then ackHighWrite s v else s

/-- hostWrite (R382): a write is received, and the oldest part that is left is performed, each sector as one move; a hostWrite of no bytes performs the next part. A write to a VF's MSI-X table waits until those of its BAR 2 before it are performed. A write that a state or a BAR does not take is an Unsupported Request (R381). -/
def execHostWrite (vf addr : Nat) (data : List (BitVec 8)) (ide : Bool) (s : State) : Host.Outcome State Fault Refusal :=
  .next (
    if data.isEmpty then performPart s vf
    else if inPfRegs vf addr then pfWrite s (addr - barZero) (BitVec.ofNat 64 (littleEndian data))
    else match msixOffset s vf addr with
    | some off => if (mget [] s.hostQueue vf).isEmpty then hostMsix s vf off data else s
    | none => match barOpen s vf ide, barSectors (s.part (vf - 1)) addr data.length with
    | true, some _ => performPart (receiveWrite s vf addr data) vf
    | _, _ => s.emit .unsupported)

/-- A byte that the host reads: zero from an empty sector (R83). -/
def hostByte (s : State) (x : Part) (a : Nat) : Byte :=
  match barAddr x a with
  | some pa => if sectorView s (pa / 64) = .empty then 0 else byteAt s.mem pa
  | none => 0

/-- hostRead (R382): performed after every write of its VF that was received before it, those of its MSI-X table too, and poisoned where a sector's MAC, its key or its state fails (R83, R387, R388). PF0's registers are read at once (R409). -/
def execHostRead (vf addr len : Nat) (ide : Bool) (s : State) : Host.Outcome State Fault Refusal :=
  .next (
    let x := s.part (vf - 1)
    if inPfRegs vf addr then s.emit (.readData ((List.range len).map (fun i =>
        BitVec.ofNat 8 (bits (pfWord s ((addr - barZero + i) / 8 * 8)).toNat (8 * ((addr + i) % 8)) 8))))
    else match msixOffset s vf addr with
    | some off => if (mget [] s.hostQueue vf).isEmpty then s.emit (.readData ((List.range len).map (fun i => msixByte (msixOf s vf) (off + i)))) else s
    | none => match barOpen s vf ide, barSectors x addr len with
    | true, some ns =>
      if !(mget [] s.hostQueue vf).isEmpty || hostWaits s ns then s
      else if ns.any (fun n => (s.sector n).st == 3) then (logEvent s 1 0x1C6 (vf - 1) 0 (BitVec.ofNat 64 (64 * ns.headD 0))).emit .poisoned
      else if ns.any (fun n => macFails s n none) then (logEvent s 1 0x1C9 (vf - 1) 0 (BitVec.ofNat 64 (64 * ns.headD 0))).emit .poisoned
      else s.emit (.readData ((List.range len).map (fun i => hostByte s x (addr + i))))
    | _, _ => s.emit .unsupported)

/-- Live tasks of a partition, suspended ones among them. -/
def partTasks (s : State) (p : Nat) : List Nat := (s.tasks.filter (fun x => x.2.part == p && isLive s x.1)).map (fun x => x.1)

/-- Ends every task of a partition (R377, R381). -/
def endTasks (s : State) (p : Nat) : State := (partTasks s p).foldl (fun s t => vanishTask s t 0x108 0) s

/-- tdiStateChange (R381): what waited for the host's memory is tried again. Without feature 0 there are no TDIs (R409). -/
def execTdiStateChange (p : Nat) (st : TdiState) (s : State) : Host.Outcome State Fault Refusal :=
  .next (match mfind s.parts p, featureOn s 0 with
    | some _, true =>
      let s := s.modPart p (fun x => { x with tdi := st })
      retryWaiting (if st = .error then endTasks s p else s)
    | _, _ => s)

/-- ideKeyProgram (R379): IDE_KM programs a key over an SPDM session, of the link stream, 0, or of the selective stream of VF n, n. -/
def execIdeKeyProgram (stream key : Nat) (s : State) : Host.Outcome State Fault Refusal :=
  .next (if s.sessions.isEmpty || decide (64 < stream) then s else retryWaiting { s with ideKeys := mset s.ideKeys stream key })

/-- getMeasurements (R384, R385): the digest of an index's running value, signed under the alias key of slot 1 (assumption 9), or the raw log. -/
def execGetMeasurements (index : Nat) (rawLog : Bool) (s : State) : Host.Outcome State Fault Refusal :=
  .next (s.emit (if rawLog then .measurementLog s.measureLog
    else
      let d := sha3 (bytes512 (mget 0 s.measures index))
      .measurement index d (Config.signature s.aliasKey (bytes512 d))))

/-- keyExchange (R384): a session opens, and the requester is given what the responder offers: its algorithms, the identity chain of slot 0 and the alias key of slot 1. -/
def execKeyExchange (peer : Nat) (s : State) : Host.Outcome State Fault Refusal :=
  .next (
    let key := Config.sessionKey peer s.moveNo
    { s with sessions := mset s.sessions peer key }.emit (.session peer key [.ed448, .sha3x512, .secp384r1, .aes256gcm] Config.identityChain s.aliasKey))

/-- Changes a Berovo port. -/
def modBerovo (s : State) (n : Nat) (f : BerovoPort → BerovoPort) : State := { s with berovo := mmod {} s.berovo n f }

/-- keyUpdate (R390): a new key of the port's own direction serves another 2^32 frames, and what waited for it leaves. -/
def execKeyUpdate (port : Nat) (tx : Bool) (key salt : Nat) (s : State) : Host.Outcome State Fault Refusal :=
  .next (
    let s := modBerovo s port (fun x => if tx then { x with txKey := key, txSalt := salt, txFrames := 0 } else { x with rxKey := key, rxSalt := salt })
    if tx then [0, 1, 2, 3].foldl (fun s vc => drainWindow s port vc) s else s)

/-- A credit frame for the module at the other end of a port, on VC 3 within the credit of that VC (R390, R391). -/
def sendCredit (s : State) (port vc beats : Nat) : State := sendPort s port 3 { dest := Config.peerModule port, beats := 3, msg := .credit vc beats }

/-- Credit for the beats of VC 3 that a port owes goes back. -/
def sendOwed (s : State) (port : Nat) : State :=
  let owed := (mget {} s.berovo port).owed
  if owed = 0 then s else sendCredit (modBerovo s port (fun x => { x with owed := 0 })) port 3 owed

/-- Credit goes back to the sender of a port for the beats of a frame that has left its gateway (R391). What frames of VC 3 are owed goes with the next credit of another VC, or once it has come to half a grant, so that no two modules answer credit with credit for ever (assumption 30). -/
def returnCredit (s : State) (port vc beats : Nat) : State :=
  if vc = 3 then
    let s := modBerovo s port (fun x => { x with owed := x.owed + beats })
    if (mget {} s.berovo port).owed < vcGrant / 2 then s else sendOwed s port
  else sendOwed (sendCredit s port vc beats) port

/-- Fields of a frame header (R390). -/
def frField (h : BitVec 128) (lo len : Nat) : Nat := bits h.toNat lo len
def frDest (h : BitVec 128) : Nat := frField h 115 13
def frVc (h : BitVec 128) : Nat := frField h 99 3
def frTtl (h : BitVec 128) : Nat := frField h 80 8
def frSeq (h : BitVec 128) : Nat := frField h 0 64
/-- Beats of a frame: header, payload and tag. -/
def frBeats (h : BitVec 128) : Nat := frField h 94 5 + 3

/-- Is a frame discarded (R390)? -/
def frBad (x : BerovoPort) (h : BitVec 128) (payload : List (BitVec 128)) (tagOk : Bool) : Bool :=
  !tagOk || frField h 88 6 != 0 || frField h 64 16 != 0 || decide (4 ≤ frVc h) || decide (4607 < frDest h) || payload.length != frField h 94 5 + 1 ||
    decide (frSeq h < x.rxSeq) || frTtl h == 0

/-- The header of a frame that is sent on: one hop less, and the counter of the port it leaves by. -/
def frOnward (h : BitVec 128) (seq : Nat) : BitVec 128 :=
  BitVec.ofNat 128 (h.toNat / 2 ^ 88 * 2 ^ 88 + (frTtl h - 1) * 2 ^ 80 + seq % 2 ^ 64)

/-- berovoFrameReceive: a frame is discarded and counted, taken in, or sent on within the credit of its VC, behind the messages that wait for it (R390, R391). What a frame for this module says arrives by a move of its own, remoteRequest, remoteReply, resolve, resolveAck or creditReturn: the spec gives no payload layout past the first beat (assumption 30). -/
def execBerovoFrameReceive (port : Nat) (header : BitVec 128) (payload : List (BitVec 128)) (tagOk : Bool) (s : State) : Host.Outcome State Fault Refusal :=
  .next (
    let x := mget {} s.berovo port
    if !x.up then s
    else if frBad x header payload tagOk then modBerovo s port (fun x => { x with discarded := x.discarded + 1 })
    else
      let taken := returnCredit (modBerovo s port (fun x => { x with rxSeq := frSeq header + 1 })) port (frVc header) (frBeats header)
      if frDest header = s.moduleNo then taken
      else
        let out := linkRoute s (frDest header)
        let y := mget {} s.berovo out
        let credit := mget vcGrant y.credit (frVc header)
        if !y.up || !(mget [] y.window (frVc header)).isEmpty || decide (credit < frBeats header) || decide (keyLife ≤ y.txFrames) then s
        else
          let s := modBerovo s out (fun y => { y with credit := mset y.credit (frVc header) (credit - frBeats header), txSeq := y.txSeq + 1, txFrames := y.txFrames + 1 })
          let s := s.emit (.frame out (frOnward header y.txSeq) payload)
          returnCredit (modBerovo s port (fun x => { x with rxSeq := frSeq header + 1 })) port (frVc header) (frBeats header))

/-- creditReturn: the messages that wait for the credit leave within it (R92, R391). The frame that brought it is credited as it is received. -/
def execCreditReturn (port vc beats : Nat) (s : State) : Host.Outcome State Fault Refusal :=
  .next (drainWindow (modBerovo s port (fun x => { x with credit := mset x.credit vc (min vcGrant (mget vcGrant x.credit vc + beats)) })) port vc)

/-- The messages for a module that wait in the window queues of a port, by VC, and the port without them. -/
def takeWaiting (x : BerovoPort) (m : Nat) : List (Nat × Waiting) × BerovoPort :=
  (x.window.flatMap (fun q => (q.2.filter (fun w => w.dest == m)).map (fun w => (q.1, w))),
    { x with window := x.window.map (fun q => (q.1, q.2.filter (fun w => w.dest != m))) })

/-- The monitor sets the route to a module (R391): the messages that wait go by it, in their order. -/
def setRoute (s : State) (m port : Nat) : State :=
  let old := linkRoute s m
  let (ws, x) := takeWaiting (mget {} s.berovo old) m
  let s := { s with routes := mset s.routes m port }
  if old = port then s
  else ws.foldl (fun s w => sendPort s port w.1 w.2) (modBerovo s old (fun _ => x))

/-- The proxy tag of a source module's task (R394). -/
def proxyTag (s : State) (src serial : Nat) : Option Nat := (s.tags.find? (fun t => t.2 == .proxy src serial)).map (fun t => t.1)

/-- A request from another module (R393): outside says that it is from outside any task, wave which chain it belongs to (R99), key the key id of its leaf (R387), and sector the metadata that a copy carries (R389). -/
def remoteReq (src serial rid pa size tag : Nat) (op : RemoteOp) (how : RemoteAccess) : Req :=
  { src := .remote src serial rid, supervisor := how.outside, tag := tag, addr := pa, size := size, target := .hbm pa, scope := 4, pl := how.pl
    key := how.key, carry := how.carry, sectorMeta := how.sector.map (fun x => { st := x.1, tag := x.2 })
    kind := match op with
      | .read => .load false
      | .write _ => .store
      | .void len => .void len
      | .absent => .absent
    data := match op with
      | .write (some v :: _) => v
      | _ => 0
    sectorWords := match op with
      | .write ws => if size = 64 then ws else []
      | _ => []
    wave := how.wave.map (fun w => { seq := w.seq, pred := w.pred, succ := w.succ })
    chain := (how.wave.map RemoteWave.chain).getD 0 }

/-- Does a request from another module mark sectors: an SA write or void of a task (R84, R394)? -/
def marksSectors (op : RemoteOp) (how : RemoteAccess) : Bool :=
  !how.pl && !how.outside && (match op with
    | .write _ => true
    | .void _ => true
    | _ => false)

/-- remoteRequest: the request joins the queue of its HBM channel; one that marks sectors takes a proxy tag, and waits while none is free (R394). -/
def execRemoteRequest (src serial rid pa size : Nat) (op : RemoteOp) (how : RemoteAccess) (s : State) : Host.Outcome State Fault Refusal :=
  if hbmEnd ≤ pa then .fault (.noSuchMemory pa)
  else .next (
    let add (s : State) (tag : Nat) : State :=
      let q := { remoteReq src serial rid pa size tag op how with since := s.tb.toNat }
      { s with nextReq := s.nextReq + 1, reqs := mset s.reqs s.nextReq q }
    match proxyTag s src serial with
      | some t => add s t
      | none =>
        if marksSectors op how then
          match freeTags s with
          | [] => s
          | t :: ts =>
            let tag := (t :: ts).getD (Config.tagChoice s.moveNo % (ts.length + 1)) t
            add { s with tags := mset s.tags tag (.proxy src serial) } tag
        else add s 0)

/-- The proxy tags of the sources that mine selects, by module and serial. -/
def proxyTags (s : State) (mine : Nat → Nat → Bool) : List Nat :=
  (s.tags.map (fun t => t.1)).filter (fun t => match mget TagState.free s.tags t with
    | .proxy m n => mine m n
    | _ => false)

/-- Resolves proxies: every sector under them becomes full, their pending voids taking effect, or empty (R84, R394). -/
def resolveProxies (s : State) (mine : Nat → Nat → Bool) (commit : Bool) : State :=
  (proxyTags s mine).foldl (fun s t => if commit then commitTag s t else setTagState { s with voids := merase s.voids t } t .vanished) s

/-- resolve (R394). -/
def execResolve (src serial : Nat) (commit : Bool) (s : State) : Host.Outcome State Fault Refusal :=
  .next (sendLink (resolveProxies s (fun m n => m == src && n == serial) commit) src 2 3 (.resolveAck serial))

/-- resolveAck: after the last one, the commit record is written (R394). -/
def execResolveAck (tag target : Nat) (s : State) : Host.Outcome State Fault Refusal :=
  .next (
    let x := s.task tag
    if !x.resolving.contains target || isLive s tag then s
    else
      let rest := x.resolving.filter (· != target)
      let s := s.modTask tag (fun y => { y with resolving := rest, record := if rest.isEmpty then [] else y.record })
      if rest.isEmpty && !x.record.isEmpty then logRecord s x.ctx x.part x.entry x.record else s)

/-- linkFailure (R395). -/
def execLinkFailure (port : Nat) (s : State) : Host.Outcome State Fault Refusal := .next (modBerovo s port (fun x => { x with up := false }))

end Sys2Proof.Machine
end

