-- ==== Sys2Proof/Machine/Power.lean ====
section
/-! DEFINITION. Gating (R402), sensors (R403, R404), the guard supply (R399) and soft errors (R410). -/

namespace Sys2Proof.Machine

/-- Mean of the last idle intervals of an element: 0 where there are none (R402). -/
def predictedIdle (x : Elem) : Nat := if x.idles.isEmpty then 0 else x.idles.foldl (· + ·) 0 / x.idles.length

/-- Is gating worth its energies at an element that comes to rest: does the leakage of its predicted idle interval exceed them (R402)? One with a preload or an armed swap to come is not gated: R402 gates only where it pays, and not always there. -/
def gates (s : State) (e : Nat) : Bool :=
  (s.elem e).preloads.isEmpty && !(s.elem e).passed && decide (Config.gatingEnergy e < predictedIdle (s.elem e) * Config.leakage e s.moveNo)

/-- elementGate: an element comes to rest, and is gated where its predictor says that it pays (R402). -/
def execElementGate (e : Nat) (s : State) : Host.Outcome State Fault Refusal :=
  .next (if elemRests s e && !(s.elem e).resting then
      s.modElem e (fun x => { x with resting := true, idleSince := s.tb.toNat, gated := gates s e, arrived := none })
    else s)

/-- Has something arrived at an element: a token in a channel, a request at a port of it, a reply (R402)? -/
def hasArrival (s : State) (e : Nat) : Bool :=
  (s.elem e).active.queue.any (fun q => !q.2.isEmpty) || (List.range 6).any (fun b => !(s.port (e * 6 + b)).queue.isEmpty) ||
    s.reqs.any (fun r => r.2.src == .elem e && (match r.2.stage with
      | .done _ _ => true
      | .failed _ => true
      | _ => false))

/-- elementWake (R402). -/
def execElementWake (e : Nat) (s : State) : Host.Outcome State Fault Refusal :=
  .next (if (s.elem e).resting && (hasArrival s e || !noneReady s e) then s.modElem e (fun x => x.wakes s.tb.toNat) else s)

/-- A sensor of a grove (R403). -/
def sensorOf (x : Grove) : SensorKind → Sensor
  | .temperature => x.temperature
  | .voltage => x.voltage
  | .current => x.current
def setSensor (x : Grove) (k : SensorKind) (v : Sensor) : Grove :=
  match k with
  | .temperature => { x with temperature := v }
  | .voltage => { x with voltage := v }
  | .current => { x with current := v }

/-- Groves N, E, S and W of a grove on the module (R403). -/
def groveNeighbours (g : Nat) : List Nat :=
  (if 56 ≤ g then [g - 56] else []) ++ (if g % 56 < 55 then [g + 1] else []) ++ (if g + 56 < moduleGroves then [g + 56] else []) ++ (if g % 56 = 0 then [] else [g - 1])

/-- Readings of the unquarantined neighbours of a sensor, in thousandths. -/
def neighbourValues (s : State) (g : Nat) (k : SensorKind) : List Int :=
  ((groveNeighbours g).filter (fun n => !(sensorOf (s.grove n) k).quarantined)).map (fun n => Config.sensorMilli k (sensorOf (s.grove n) k).code)

/-- Inserts a number into an ascending list. -/
def insertInt (v : Int) : List Int → List Int
  | [] => [v]
  | x :: xs => if v ≤ x then v :: x :: xs else x :: insertInt v xs

/-- Twice the median of a list. -/
def median2 (l : List Int) : Int :=
  let l := l.foldl (fun a v => insertInt v a) []
  let n := l.length
  l.getD ((n - 1) / 2) 0 + l.getD (n / 2) 0

/-- Does a reading differ too far from the median of its neighbours (R403)? -/
def deviates (k : SensorKind) (v : Int) (ns : List Int) : Bool :=
  if ns.isEmpty then false
  else
    let d := (2 * v - median2 ns).natAbs
    match k with
    | .temperature => decide (16000 < d)
    | _ => decide ((median2 ns).natAbs < 10 * d)

/-- Is a reading out of its sensor's range (R403)? -/
def outOfRange (k : SensorKind) (v : Int) : Bool :=
  match k with
  | .temperature => decide (v < -40000) || decide (150000 < v)
  | .voltage => decide (v < 0) || decide (1000 < v)
  | .current => decide (v < 0) || decide (40000 < v)

/-- A sensor after a sample of it (R403). -/
def sampled (k : SensorKind) (x : Sensor) (code : Nat) (ns : List Int) : Sensor :=
  let v := Config.sensorMilli k code
  let same := if x.same ≠ 0 ∧ x.code = code then x.same + 1 else 1
  let dev := if deviates k v ns then x.deviant + 1 else 0
  { code := code, same := same, deviant := dev, quarantined := x.quarantined || decide (64 ≤ same) || outOfRange k v || decide (3 ≤ dev) }

/-- Is a grove capped at light draught by its sensors of a kind (R404)? -/
def sensorCaps (s : State) (g : Nat) (k : SensorKind) : Bool :=
  let bad := (groveNeighbours g).filter (fun n => (sensorOf (s.grove n) k).quarantined)
  decide (2 < bad.length) || ((sensorOf (s.grove g) k).quarantined && bad.length == (groveNeighbours g).length)

/-- The value that a sample counts for: measured, or the maximum of the unquarantined neighbours (R404). -/
def usedValue (x : Sensor) (k : SensorKind) (ns : List Int) : Option Int :=
  if x.quarantined then (match ns with
    | [] => none
    | n :: ns => some (ns.foldl max n))
  else some (Config.sensorMilli k x.code)

/-- The light draught of a hot grove, from a temperature (R404). -/
def heat (x : Grove) (v : Int) : Grove :=
  if 105000 < v then { x with hot := true, cool := 0 }
  else if !x.hot then x
  else if v < 95000 then (if 100 ≤ x.cool + 1 then { x with hot := false, cool := 0 } else { x with cool := x.cool + 1 })
  else { x with cool := 0 }

/-- sensorSample (R403, R404): a sample is a boundary for the cap that the quarantines before it ask for. -/
def execSensorSample (g : Nat) (kind : SensorKind) (code : Nat) (s : State) : Host.Outcome State Fault Refusal :=
  .next (
    let ns := neighbourValues s g kind
    let old := sensorOf (s.grove g) kind
    let capped := [SensorKind.temperature, .voltage, .current].any (sensorCaps s g)
    let new := sampled kind old code ns
    let s := s.modGrove g (fun x => setSensor x kind new)
    let s := if new.quarantined && !old.quarantined then logEvent s 2 0 ((s.partOfGrove g).getD 0) g 0 else s
    s.modGrove g (fun x =>
      let x := { x with capped := capped }
      match kind, usedValue new kind ns with
      | .temperature, some v => heat x v
      | _, _ => x))

/-- Evicts the parked banks of a grove (R87). -/
def evictParks (s : State) (g : Nat) : State :=
  let bs := (s.banks.filter (fun b => groveOf (b.1 / 6) == g && (match b.2.owner with
    | .openPark _ => true
    | .keptPark _ => true
    | _ => false))).map (fun b => b.1)
  bs.foldl freeBank s

/-- A grove is retired: its task vanishes, its bit is cleared, and the retirement is logged (R410). The model's own choice (assumption 11): a runtime grove's sequencer runs on when its grove is out of service (R301). -/
def retire (s : State) (g cause : Nat) : State :=
  let s := machineCheck s g cause 0
  let s := evictParks s g
  if s.retired.contains g then s
  else logEvent { s with retired := s.retired ++ [g] } 3 cause ((s.partOfGrove g).getD 0) g 0

/-- guardSupplyShortfall (R399, R410). -/
def execGuardSupplyShortfall (g : Nat) (s : State) : Host.Outcome State Fault Refusal := .next (retire s g 0x1C7)

/-- sramSoftError (R410). -/
def execSramSoftError (g : Nat) (s : State) : Host.Outcome State Fault Refusal := .next (retire s g 0x1C8)

end Sys2Proof.Machine
end

