-- ==== Sys2Proof/Machine/Bringup.lean ====
section
/-! DEFINITION. Bring-up and management: reset (R406, R407), firmware (R408), features (R409), registers written from outside, monitor calls (R412), Zwitex (R413) and restoring a grove (R410). -/

namespace Sys2Proof.Machine

/-- Does the ROM accept a firmware image (R408)? -/
def accepted (s : State) (f : Firmware) : Bool := f.verified && decide (s.fuse ≤ f.version)

/-- Where the firmware of a boot comes from: the fabric, slot A (false) or slot B (true) (R407, R408). -/
inductive FwSource where
  | fabric (image : Firmware)
  | slot (b : Bool)

def slotOf (s : State) (b : Bool) : FwSlot := if b then s.slotB else s.slotA
def setSlot (s : State) (b : Bool) (x : FwSlot) : State := if b then { s with slotB := x } else { s with slotA := x }

/-- The slot that the ROM boots: the accepted one marked active, else the other where it is accepted (R408). Where none is active, the first tried is one that has not failed three boots (assumption 30). -/
def bootSlot (s : State) : Option Bool :=
  let first := !s.slotA.active && (s.slotB.active || decide (s.slotB.failedBoots < 3))
  if accepted s (slotOf s first).image then some first else if accepted s (slotOf s (!first)).image then some (!first) else none

/-- The firmware that the ROM starts (R407, R408): from the fabric where the strap is set and fabric boot was enabled. -/
def bootSource (s : State) (fabricBoot : Bool) (net : Option Firmware) : Option FwSource :=
  match net with
  | some f => if fabricBoot && accepted s f then some (.fabric f) else (bootSlot s).map .slot
  | none => (bootSlot s).map .slot

def imageOf (s : State) : FwSource → Firmware
  | .fabric f => f
  | .slot b => (slotOf s b).image

/-- The module at power-on (R406): what flash, fuses and the host's memory keep stays, and so do the model's own fields. -/
def powerOn (s : State) : State :=
  { State.reset with
    agenda := s.agenda, moveNo := s.moveNo, cur := s.cur, nextReq := s.nextReq, nextTok := s.nextTok, outputs := s.outputs
    mem := s.mem.filter (fun c => decide (hostBase ≤ c.1)), retired := s.retired
    slotA := s.slotA, slotB := s.slotB, fuse := s.fuse }

/-- Berovo ports after training (R390). -/
def trainedPorts (n : Nat) : SMap BerovoPort :=
  (List.range 36).map (fun i => (i, { up := true, txKey := Config.sessionKey i n, rxKey := Config.sessionKey (i + 36) n, txSalt := Config.sessionKey (i + 72) n, rxSalt := Config.sessionKey (i + 108) n }))

/-- The work of a stage that does not fail (R406). -/
def stageWork (s : State) (b : BootInput) (src : Option FwSource) (k : Nat) : State :=
  match k with
  | 1 => measure s 1 1 0 (Config.imageBytes 0)
  | 2 => match src with
    | some x => { measure s 2 1 0 (Config.imageBytes ((imageOf s x).body + 2)) with running := (imageOf s x).version }
    | none => s
  | 3 =>
    let s := measure s 3 1 0 (Config.imageBytes 1)
    { s with aliasKey := Config.aliasKey (mget 0 s.measures 1) (mget 0 s.measures 2) (mget 0 s.measures 3) }
  | 4 => { s with keys := mset s.keys 0 (Config.freshKey s.moveNo 0) }
  | 5 => { s with retired := s.retired ++ b.badGroves.filter (fun g => !s.retired.contains g) }
  | 6 => match b.peer with
    | some p => { s with moduleNo := p.number, hops := p.hops.foldl (fun m h => mset m h.1 h.2) [], tb := p.time }
    | none => s
  | 7 => if b.peer.isSome then { s with berovo := trainedPorts s.moveNo } else s
  | _ => s

/-- Is a peer's module number none of the domain's (R338, R390)? -/
def badPeer (b : BootInput) : Bool := match b.peer with
  | some p => decide (4607 < p.number)
  | none => false

/-- A stage of a boot (R406): a failed one ends it. Stage 2 fails where no firmware is accepted, and stage 6 where the number assigned is out of range. -/
def bootStage (b : BootInput) (src : Option FwSource) (s : State) (k : Nat) : State :=
  if s.err then s
  else if b.failAt = k ∨ (k = 2 ∧ src.isNone) ∨ (k = 6 ∧ badPeer b) then { s with stage := BitVec.ofNat 4 k, err := true }
  else { stageWork s b src k with stage := BitVec.ofNat 4 k }

/-- A boot that has not reached stage 8 counts against its slot (R408). -/
def bootFailed (s : State) (src : Option FwSource) : State :=
  match src with
  | some (.slot b) =>
    let x := slotOf s b
    setSlot s b { x with failedBoots := x.failedBoots + 1, active := x.active && decide (x.failedBoots + 1 < 3) }
  | _ => s

/-- A boot has reached stage 8: negotiation is open, and the fuses are raised (R406, R408, R409). -/
def bootReady (s : State) (src : Option FwSource) : State :=
  let s := { s with stage := 8, offer := Config.offered.setWidth 64, fuse := if s.fuse < s.running then s.running else s.fuse }
  match src with
  | some (.slot b) => setSlot s b { slotOf s b with failedBoots := 0 }
  | _ => s

/-- reset (R406 to R408). -/
def execReset (boot : BootInput) (s : State) : Host.Outcome State Fault Refusal :=
  .next (
    let fabricBoot := featureOn s 6
    let s := powerOn s
    let src := bootSource s fabricBoot boot.net
    let s := [1, 2, 3, 4, 5, 6, 7].foldl (bootStage boot src) s
    if s.err then bootFailed s src else bootReady s src)

/-- featureAck: a write to ACK closes negotiation (R409). hi is a write to ACKH that goes with it. -/
def execFeatureAck (lo hi : Word) (s : State) : Host.Outcome State Fault Refusal :=
  .next (ackFeatures s lo hi)

/-- An image is written to the inactive slot, verified in place, and marked active (R408). -/
def updateFirmware (s : State) (f : Firmware) : State :=
  let b := s.slotA.active
  let s := logEvent s 4 0 0 0 (f.version.setWidth 64)
  if f.verified then setSlot (setSlot s b { image := f, active := true }) (!b) { slotOf s (!b) with active := false }
  else setSlot s b { image := f }

/-- firmwareUpdate (R408). -/
def execFirmwareUpdate (image : Firmware) (s : State) : Host.Outcome State Fault Refusal := .next (updateFirmware s image)

/-- What PF0 sees of an event-log entry: KIND, CAUSE and partition (R383, R411). -/
def eventView (e : List Word) : List Word := [e.headD 0 &&& ~~~((0xFFF : Word) <<< 29), 0, 0, 0]

/-- The mailbox of a function answers (R383, R385, R411): PF0's with the counts of a context as they were at the last commit or vanish, or the entries of the event log as it sees them; a VF's with the measurement log. The request words are the model's (assumption 30). -/
def mailbox (s : State) (f v : Nat) : State :=
  if f = 0 then
    if v = 65536 then s.emit (.eventLog (s.eventLog.map eventView))
    else match mfind s.ctxs v with
      | some c => s.emit (.readData ([c.shown, c.totals.drawn, c.totals.refunded, c.totals.forfeited, c.totals.boostUsed].flatMap (fun n =>
          (List.range 8).map (fun i => BitVec.ofNat 8 (bits n (8 * i) 8)))))
      | none => s
  else if featureOn s 0 && (mfind s.parts (f - 1)).isSome && decide (f ≤ 64) then s.emit (.measurementLog s.measureLog)
  else s

/-- registerWrite (R303, R346, R362, R380, R383, R385, R391, R409): read-only and unassigned registers keep their values. -/
def execRegisterWrite (r : DevReg) (v : Word) (s : State) : Host.Outcome State Fault Refusal :=
  .next (match r with
    | .sys g n supervisor => if taskDenied n && !supervisor then s else writeSys s g n supervisor v
    | .ackHigh => ackHighWrite s v
    | .reserve c => if (mfind s.ctxs c).isSome then s.modCtx c (fun x => { x with reserve := addReserve x.reserve v.toNat, shown := addReserve x.shown v.toNat }) else s
    | .mailbox f => mailbox s f v.toNat
    | .msix f n high => if f = 0 ∨ (msixOffset s f barZero).isSome then setEntry s f n high v else s
    | .route m => setRoute s m v.toNat)

/-- The number of the monitor call that a sequencer waits for. -/
def callNo (s : State) (g : Nat) : Option Nat :=
  match (s.grove g).superBank.hold with
  | .monitor n => some n.toNat
  | _ => none

/-- A monitor call is answered: w0 takes the answer, and the sequencer goes on (R412). -/
def answerCall (s : State) (g : Nat) (v : Word) : State :=
  s.modGrove g (fun x => { x with superBank := { x.superBank with w := setAt x.superBank.w 0 v, hold := .none } })

/-- monitorCallFeatures: calls 0 and 1; features 64 to 127 are never offered (R409, R412). -/
def execMonitorCallFeatures (g : Nat) (s : State) : Host.Outcome State Fault Refusal :=
  .next (match callNo s g with
    | some 0 => answerCall s g s.ack
    | some 1 => answerCall s g 0
    | _ => s)

/-- A word of the grove map (R410). -/
def mapWord (s : State) (n : Nat) : Word :=
  if 41 < n then BitVec.allOnes 64
  else (List.range 64).foldl (fun w b => if s.retired.contains (64 * n + b) then w else w ||| ((1 : Word) <<< b)) 0

/-- monitorCallGroveMap: call 2 (R412). -/
def execMonitorCallGroveMap (g : Nat) (s : State) : Host.Outcome State Fault Refusal :=
  .next (if callNo s g = some 2 then answerCall s g (mapWord s (reg (s.grove g).superBank.w 1).toNat) else s)

/-- monitorCallGuardDrops: call 3 (R412). -/
def execMonitorCallGuardDrops (g : Nat) (s : State) : Host.Outcome State Fault Refusal :=
  .next (if callNo s g = some 3 then
      answerCall s g (match s.partOfGrove g with
        | some p => BitVec.ofNat 64 (s.part p).guard
        | none => 0)
    else s)

/-- The bytes of an image of words. -/
def wordBytes (m : SMap IWord) : List Byte := m.flatMap (fun w => (List.range 4).map (fun i => BitVec.ofNat 8 (bits w.2.toNat (8 * i) 8)))

/-- The bytes that a supervisor image is measured as: its words and its guards. -/
def superBytes (m : SuperImage) : List Byte := wordBytes m.words ++ wordBytes m.guards

/-- Replaces the supervisor image of a grove: its words, and the guard table of its supervisor bank (R24, R302). -/
def putImage (s : State) (g : Nat) (m : SuperImage) : State :=
  s.modGrove g (fun x => { x with
    imem := m.words.foldl (fun l w => mset l w.1 w.2) (x.imem.filter (fun w => decide (w.1 < x.sbase.toNat)))
    superBank := { x.superBank with guard := m.guards } })

/-- Length in bytes of the supervisor image at an address of a context, as the image gives it: 64 at least, the part that holds it. -/
def superSize (s : State) (c va : Nat) : Nat := max 64 (superLength (fun i => deviceByte s c (va + i)))

/-- The supervisor image of a grove is replaced by the one at an address of a context, which is read from outside any task, and measured (R83, R412). It waits while a sector of it is tentative, or in host memory that the device may not reach (R381, R382); where one fails its check, nothing is replaced and the supervisor is given an error (R388; assumption 30). -/
def replaceImage (s : State) (g c va : Nat) : State :=
  let p := (s.partOfGrove g).getD 0
  if deviceWaits s c va 64 then s
  else
    let n := superSize s c va
    if deviceWaits s c va n then s
    else askFor (sectorPlaces s c va n) (match deviceFault s c va n with
    | some cause => answerCall (noteFailedRead s p cause) g (BitVec.allOnes 64)
    | none =>
      let m := readSuper (fun i => deviceByte s c (va + i))
      answerCall (putImage (measure s (0x80 + p) 3 0 (superBytes m)) g m) g 0)

/-- monitorCallReplaceImage: call 4 waits until no task holds the grove (R412). -/
def execMonitorCallReplaceImage (g : Nat) (s : State) : Host.Outcome State Fault Refusal :=
  .next (if callNo s g = some 4 ∧ (s.grove g).task.isNone then replaceImage s g (unitCtx s (.seq g)) (reg (s.grove g).superBank.w 1).toNat else s)

/-- monitorCallInvalid: calls 5 to 63 (R412). -/
def execMonitorCallInvalid (g : Nat) (s : State) : Host.Outcome State Fault Refusal :=
  .next (match callNo s g with
    | some n => if 5 ≤ n then answerCall s g (BitVec.allOnes 64) else s
    | none => s)

/-- zwitexTime: the reference's time, in nanoseconds (R319, R413). -/
def execZwitexTime (t : Nat) (s : State) : Host.Outcome State Fault Refusal := .next (adjustTime s ((t : Int) - (s.tb.toNat : Int)))

/-- zwitexModuleNumber (R413): 0 to 4,607. -/
def execZwitexModuleNumber (n : Nat) (s : State) : Host.Outcome State Fault Refusal := .next (if n ≤ 4607 then { s with moduleNo := n } else s)

/-- zwitexHopTable: an entry changes only while no task that could use it runs or is suspended (R392). -/
def execZwitexHopTable (m hops : Nat) (s : State) : Host.Outcome State Fault Refusal :=
  .next (if s.tasks.any (fun t => isLive s t.1) then s else { s with hops := mset s.hops m hops })

/-- zwitexFirmwareTransfer (R408, R413). -/
def execZwitexFirmwareTransfer (image : Firmware) (s : State) : Host.Outcome State Fault Refusal := .next (updateFirmware s image)

/-- zwitexEventLogRead (R411). -/
def execZwitexEventLogRead (s : State) : Host.Outcome State Fault Refusal := .next (s.emit (.eventLog s.eventLog))

/-- zwitexQuarantineClear (R403, R413). -/
def execZwitexQuarantineClear (g : Nat) (kind : SensorKind) (s : State) : Host.Outcome State Fault Refusal :=
  .next (s.modGrove g (fun x => setSensor x kind { code := (sensorOf x kind).code }))

/-- Do two rectangles of groves overlap (R376)? -/
def overlap (x : Part) (row col rows cols : Nat) : Bool :=
  decide (row < x.row + x.rows) && decide (x.row < row + rows) && decide (col < x.col + x.cols) && decide (x.col < col + cols)

/-- May a partition be given a rectangle, granules and keys (R376, R377)? -/
def definable (s : State) (p row col rows cols : Nat) (granules keys : List Nat) : Bool :=
  let others := s.parts.filter (fun x => x.1 != p)
  decide (p < 64) && decide (row + rows ≤ 48) && decide (col + cols ≤ 56) && !others.any (fun x => overlap x.2 row col rows cols) &&
    decide granules.Nodup && decide keys.Nodup && granules.all (fun g => decide (g < 1344) && !others.any (fun x => x.2.granules.contains g)) &&
    decide (1 ≤ keys.length) && decide (keys.length ≤ 8) && keys.all (fun k => decide (0 < k) && decide (k < 64) && !others.any (fun x => x.2.keys.contains k))

/-- A change of a partition is logged and measured (R384, R413). -/
def noteChange (s : State) (p : Nat) : State :=
  let x := s.part p
  let s := logEvent s 5 0 p 0 0
  measure s (0x40 + p) 2 0 (Config.configBytes ([x.row, x.col, x.rows, x.cols] ++ x.granules ++ [x.keys.length, if x.service then 1 else 0]))

/-- Have two lists the same members? -/
def sameMembers (l m : List Nat) : Bool := l.all m.contains && m.all l.contains

/-- The state of a partition's TDI after it is defined: a change of what CONFIG_LOCKED freezes moves it to ERROR (R381). -/
def definedTdi (x : Part) (row col rows cols : Nat) (granules keys : List Nat) : TdiState :=
  if x.tdi = .unlocked ∨ (x.row = row ∧ x.col = col ∧ x.rows = rows ∧ x.cols = cols ∧ sameMembers x.granules granules ∧ sameMembers x.keys keys) then x.tdi
  else .error

/-- Groves of a partition. -/
def partGroves (x : Part) : List Nat := rectangle x.row x.col x.rows x.cols

/-- A grove leaves its partition: it is a runtime grove no more, so it runs at task level (R301), and its TLB is cleared (R341). -/
def leavePart (s : State) (g : Nat) : State :=
  s.modGrove g (fun x =>
    let y := { x with tlb := [], runtime := false }
    if x.runtime then { y with level := 0, halted := true } else y)

/-- Keys are generated for the key ids that a partition is given, and those that it loses are destroyed, with what was written under them (R377, R387). -/
def changeKeys (s : State) (old new : List Nat) : State :=
  let gone := old.filter (fun k => !new.contains k)
  let kept := s.keys.filter (fun k => !gone.contains k.1)
  { s with
    keys := (new.filter (fun k => !old.contains k)).foldl (fun m k => mset m k (Config.freshKey s.moveNo k)) kept
    sectorKeys := s.sectorKeys.map (fun n => if gone.contains n.2 then (n.1, deadKey) else n) }

/-- A partition is defined: the monitor writes its supervisor image into its groves (R302, R376), and clears the TLBs of those that come to it or leave it (R341). -/
def definePart (s : State) (p row col rows cols : Nat) (granules keys : List Nat) : State :=
  let m : SuperImage := { words := (Config.monitorImage p).1, guards := (Config.monitorImage p).2 }
  let old := if (mfind s.parts p).isSome then partGroves (s.part p) else []
  let new := rectangle row col rows cols
  let s := changeKeys s (s.part p).keys keys
  let s := (old.filter (fun g => !new.contains g) ++ new.filter (fun g => !old.contains g)).foldl leavePart s
  let s := s.modPart p (fun x => { x with row := row, col := col, rows := rows, cols := cols, granules := granules, keys := keys, image := m, tdi := definedTdi x row col rows cols granules keys })
  let s := (partGroves (s.part p)).foldl (fun s g => putImage s g m) s
  noteChange (measure s (0x80 + p) 3 0 (superBytes m)) p

/-- Frees a context: its log, its parked banks (R87, R330). -/
def freeCtx (s : State) (c : Nat) : State :=
  let bs := (s.banks.filter (fun b => b.2.owner == .openPark c || b.2.owner == .keptPark c)).map (fun b => b.1)
  let s := bs.foldl freeBank s
  { s with ctxs := merase s.ctxs c }

/-- Removes a partition (R377, R386, R387): its tasks end, their tags are cleared, its granules are overwritten, its keys are destroyed. -/
def removePart (s : State) (p : Nat) : State :=
  let s := endTasks s p
  let x := s.part p
  let cs := (s.ctxs.filter (fun c => c.2.part == p)).map (fun c => c.1)
  let mine := (s.tasks.filter (fun t => t.2.part == p)).map (fun t => t.1)
  let s := mine.foldl (fun s t => { s with tags := merase s.tags t, tasks := merase s.tasks t }) s
  let s := cs.foldl freeCtx s
  let inGranule (a : Nat) : Bool := decide (a < hbmEnd) && x.granules.contains (a / 2 ^ 30)
  let s := { s with
    mem := s.mem.filter (fun c => !inGranule c.1), sectors := s.sectors.filter (fun n => !inGranule (n.1 * 64))
    sectorKeys := s.sectorKeys.filter (fun n => !inGranule (n.1 * 64)), badMacs := s.badMacs.filter (fun n => !inGranule (n * 64))
    measures := merase (merase s.measures (0x40 + p)) (0x80 + p), staged := s.staged.filter (fun e => e.1 / 4096 != p) }
  let s := changeKeys ((partGroves x).foldl leavePart s) x.keys []
  logEvent { s with parts := merase s.parts p } 5 0 p 0 0

/-- zwitexPartitionCommand: partition commands take effect between tasks of the partition (R413); removal ends them first (R377). A module that is not ready takes no slot table (R406). The model's own choice (assumption 11): a grove out of service may be named as a runtime grove, since no rule forbids it (R301, R376, R410). -/
def execZwitexPartitionCommand (c : PartitionCommand) (s : State) : Host.Outcome State Fault Refusal :=
  .next (
    let idle (p : Nat) : Bool := (partTasks s p).isEmpty
    let known (p : Nat) : Bool := (mfind s.parts p).isSome
    match c with
    | .define p row col rows cols granules keys => if idle p && definable s p row col rows cols granules keys then definePart s p row col rows cols granules keys else s
    | .slotTable p base len =>
      if s.stage == 8 && !s.err && idle p && known p && base % 64 == 0 && decide (1 ≤ len) && decide (len ≤ 4096) && inPartition s p base && inPartition s p (base + 64 * len - 1) then
        let s := { s with staged := s.staged.filter (fun e => e.1 / 4096 != p) }
        noteChange (s.modPart p (fun x => { x with tableBase := base, tableLen := len })) p
      else s
    | .service p event => if idle p && known p then noteChange (s.modPart p (fun x => { x with service := event })) p else s
    | .runtime p g =>
      if idle p && s.partOfGrove g == some p && (s.grove g).task.isNone && !(s.grove g).runtime then
        noteChange (s.modGrove g (fun x => { x with runtime := true, level := 1, halted := false, pc := x.svec.toNat })) p
      else s
    | .context p n root boost =>
      if known p && decide (n < 65536) && (mfind s.ctxs n).isNone && root % tableAlign 1 == 0 && inPartition s p root then noteChange { s with ctxs := mset s.ctxs n { part := p, root := root, boost := boost } } p else s
    | .freeContext n =>
      match mfind s.ctxs n with
      | some x => if s.tasks.any (fun t => isLive s t.1 && t.2.ctx == n) then s else noteChange (freeCtx s n) x.part
      | none => s
    | .remove p => if known p then removePart s p else s)

/-- zwitexLostModule: the proxies of a lost source resolve empty (R394). -/
def execZwitexLostModule (m : Nat) (s : State) : Host.Outcome State Fault Refusal := .next (resolveProxies s (fun n _ => n == m) false)

/-- groveRestore (R410). -/
def execGroveRestore (g : Nat) (signed selfTest : Bool) (s : State) : Host.Outcome State Fault Refusal :=
  .next (if signed && selfTest then { s with retired := s.retired.filter (· != g) } else s)

end Sys2Proof.Machine
end

