-- ==== Sys2Proof/Machine/ChannelOps.lean ====
section
/-! DEFINITION. Channel instructions (R153 to R160). -/

namespace Sys2Proof.Machine

/-- Head that a channel code names. -/
def headAt (s : State) (c : BitVec 6) : Option Token := (chanOf s c).bind (curHead s)

/-- A head as it is forwarded: its whole tag but CLASS (R59, R155); a register value as a fresh token. -/
def forwarded (s : State) (c : BitVec 6) : Token :=
  match chanOf s c with
  | some ch => (curHead s ch).getD {}
  | none => freshToken s (regVal s c)

/-- Writes the payload of a head to a register, left as it is when the head is absent (R154). -/
def readHead (i : Instr) (s : State) (d a : BitVec 6) : Host.Outcome State Fault Refusal :=
  issueWord i s (fun s0 s1 => .done (match srcVal s0 a with
    | some v => writeReg s1 d v
    | none => s1) 0)

/-- deq (R154). -/
def execDeq (t d a : BitVec 6) (s : State) : Host.Outcome State Fault Refusal := readHead (.deq t d a) s d a

/-- peek (R154). -/
def execPeek (t d a : BitVec 6) (s : State) : Host.Outcome State Fault Refusal := readHead (.peek t d a) s d a

/-- send (R155). -/
def execSend (t d a : BitVec 6) (s : State) : Host.Outcome State Fault Refusal :=
  issueWord (.send t d a) s (fun s0 s1 => .done (writeDst s1 d (srcVal s0 a)) 0)

/-- fwd (R155). -/
def execFwd (t d a : BitVec 6) (s : State) : Host.Outcome State Fault Refusal :=
  issueWord (.fwd t d a) s (fun s0 s1 => .done (sendToken s1 d (forwarded s0 a)) 0)

/-- toss (R155). -/
def execToss (t a : BitVec 6) (s : State) : Host.Outcome State Fault Refusal :=
  issueWord (.toss t a) s (fun _ s1 => .done s1 0)

/-- mark (R156). -/
def execMark (t d b : BitVec 6) (s : State) : Host.Outcome State Fault Refusal :=
  issueWord (.mark t d b) s (fun s0 s1 => .done (sendToken s1 d { gen := curGen s0, mark := b.setWidth 3 }) 0)

/-- gnext (R157). -/
def execGnext (t : BitVec 6) (s : State) : Host.Outcome State Fault Refusal :=
  issueWord (.gnext t) s (fun s0 s1 => .done (match s0.cur with
    | .slot e k _ => s1.modElem e (fun x =>
      let y := x.active.strand k.toNat
      { x with active := x.active.setStrand k.toNat { y with gen := y.gen + 1 } })
    | .word _ _ => s1) 0)

/-- Sends a source to the output that predicate k chooses; to one output both ways it is a send (R155, R158). -/
def steer (i : Instr) (s : State) (d a b : BitVec 6) (k : Nat) : Host.Outcome State Fault Refusal :=
  issueWord i s (fun s0 s1 => .done (if d = b then writeDst s1 d (srcVal s0 a) else sendToken s1 (if pred s0 k then d else b) (forwarded s0 a)) 0)

/-- steer with p0 to p3 (R158). -/
def execSteerP0P3 (t d a b : BitVec 6) (k : BitVec 2) (s : State) : Host.Outcome State Fault Refusal :=
  steer (.steerP0P3 t d a b k) s d a b k.toNat

/-- steer with p4 to p7 (R158). -/
def execSteerP4P7 (t d a b : BitVec 6) (k : BitVec 2) (s : State) : Host.Outcome State Fault Refusal :=
  steer (.steerP4P7 t d a b k) s d a b (k.toNat + 4)

/-- Writes a chosen head or register value (R159, R160): to a channel with its tag but CLASS, to a register its payload. -/
def writeChosen (s0 s1 : State) (d c : BitVec 6) : State :=
  match chanOf s0 d with
  | some _ => sendToken s1 d (if (srcVal s0 c).isNone then absentToken s0 else forwarded s0 c)
  | none => match srcVal s0 c with
    | some v => writeReg s1 d v
    | none => s1

/-- Is a source the head of a channel that is an end mark? -/
def endMark (s : State) (c : BitVec 6) : Option Token :=
  match headAt s c with
  | some t => if t.isEnd then some t else none
  | none => none

/-- The mark that two end marks join to: the higher rank, both statuses, the rest of the tag from the chosen one (R55, R159). -/
def joinedMark (chosen x y : Token) : Token :=
  { chosen with mark := if x.mark.toNat < y.mark.toNat then y.mark else x.mark, payload := (x.payload ||| y.payload) &&& 63 }

/-- The join of a conditional (R159). -/
def joinBy (i : Instr) (s : State) (d a b : BitVec 6) (k : Nat) : Host.Outcome State Fault Refusal :=
  issueWord i s (fun s0 s1 =>
    match endMark s0 a, endMark s0 b with
    | some x, some y => .done (if (chanOf s0 d).isSome then sendToken s1 d (joinedMark (if pred s0 k then x else y) x y) else s1) 0
    | none, none => .done (writeChosen s0 s1 d (if pred s0 k then a else b)) 0
    | _, _ => .cause 0x147 0 0)

/-- select with p0 to p3 (R159). -/
def execSelectP0P3 (t d a b : BitVec 6) (k : BitVec 2) (s : State) : Host.Outcome State Fault Refusal :=
  joinBy (.selectP0P3 t d a b k) s d a b k.toNat

/-- select with p4 to p7 (R159). -/
def execSelectP4P7 (t d a b : BitVec 6) (k : BitVec 2) (s : State) : Host.Outcome State Fault Refusal :=
  joinBy (.selectP4P7 t d a b k) s d a b (k.toNat + 4)

/-- The ordered merge takes only the chosen head (R160); a mark to a register is read as data (R69). -/
def mergeBy (i : Instr) (s : State) (d a b : BitVec 6) (k : Nat) : Host.Outcome State Fault Refusal :=
  issueWord i s (fun s0 s1 => .done (writeChosen s0 s1 d (if pred s0 k then a else b)) 0)

/-- select.mrg with p0 to p3 (R160). -/
def execSelectMrgP0P3 (t d a b : BitVec 6) (k : BitVec 2) (s : State) : Host.Outcome State Fault Refusal :=
  mergeBy (.selectMrgP0P3 t d a b k) s d a b k.toNat

/-- select.mrg with p4 to p7 (R160). -/
def execSelectMrgP4P7 (t d a b : BitVec 6) (k : BitVec 2) (s : State) : Host.Outcome State Fault Refusal :=
  mergeBy (.selectMrgP4P7 t d a b k) s d a b (k.toNat + 4)

end Sys2Proof.Machine
end

