-- ==== Sys2Proof/Machine/Control.lean ====
section
/-! DEFINITION. Sequencer flow, nop, halt, trap and sret (R131 to R134, R310, R313), illegal and skipped words (R24, R115). -/

namespace Sys2Proof.Machine

/-- Sets the PC of the issuing sequencer. -/
def setPc (s : State) (pc : Nat) : State :=
  match s.cur with
  | .word g _ => s.modGrove g (fun x => { x with pc := pc % 16384 })
  | .slot _ _ _ => s

/-- Word address of the issuing word. -/
def curAddr (s : State) : Word := BitVec.ofNat 64 (curSlot s.cur)

/-- A taken branch, call or return: a target outside instruction memory raises detail 9 at the word, with no effect and no cost (R115, R132). -/
def jump (i : Instr) (s : State) (target : State → Word) (f : State → State) : Host.Outcome State Fault Refusal :=
  if (lowest (sigDetails (curKind s.cur) (wordSig i))).isNone && wordReady s (wordSig i) && decide (16384 ≤ (target s).toNat) then
    .next (raiseIllegal s 9)
  else issueWord i s (fun s0 s1 => .done (setPc (f s1) (target s0).toNat) 0)

/-- b (R132). -/
def execBranch (t : BitVec 6) (o : BitVec 20) (s : State) : Host.Outcome State Fault Refusal :=
  jump (.branch t o) s (fun s => curAddr s + o.signExtend 64) id

/-- call: a15 takes the address after the word (R132). -/
def execCall (t : BitVec 6) (o : BitVec 20) (s : State) : Host.Outcome State Fault Refusal :=
  jump (.call t o) s (fun s => curAddr s + o.signExtend 64) (fun s => writeReg s 47 (curAddr s + 1))

/-- ret (R132). -/
def execRet (t a : BitVec 6) (s : State) : Host.Outcome State Fault Refusal :=
  jump (.ret t a) s (fun s => valOf s a) id

/-- nop (R132). -/
def execNop (t : BitVec 6) (s : State) : Host.Outcome State Fault Refusal :=
  issueWord (.nop t) s (fun _ s1 => .done s1 0)

/-- loop: its counter register is decremented, and predicate k says whether it is then nonzero (R132). -/
def execLoopDec (t : BitVec 6) (k : BitVec 3) (a : BitVec 6) (s : State) : Host.Outcome State Fault Refusal :=
  issueWord (.loopDec t k a) s (fun s0 s1 =>
    let v := regVal s0 a - 1
    .done (setPred (writeReg s1 a v) k.toNat (v != 0)) 0)

/-- Sets what the issuing sequencer waits for before its next word. -/
def setHold (s : State) (h : Hold) : State :=
  match s.cur with
  | .word g _ => s.modGrove g (fun x => x.setBank { x.bank with hold := h })
  | .slot _ _ _ => s

/-- wait (R134). -/
def execWait (t a : BitVec 6) (s : State) : Host.Outcome State Fault Refusal :=
  issueWord (.wait t a) s (fun s0 s1 => .done (if s0.tb.ult (valOf s0 a) then setHold s1 (.time (valOf s0 a)) else s1) 0)

/-- halt (R133). -/
def execHalt (t : BitVec 6) (s : State) : Host.Outcome State Fault Refusal :=
  issueWord (.halt t) s (fun s0 s1 => .done (match s0.cur with
    | .slot e k _ => discardQueued (s1.modElem e (fun x =>
        let y := x.active.strand k.toNat
        { x with active := x.active.setStrand k.toNat { y with halted := true } })) e
    | .word g _ => s1.modGrove g (fun x => { x with halted := true })) 0)

/-- trap: a software trap that has completed at task level, a monitor call at supervisor level (R313). -/
def execTrap (t n : BitVec 6) (s : State) : Host.Outcome State Fault Refusal :=
  issueWord (.trap t n) s (fun s0 s1 => .done (
    if s0.supervising then setHold s1 (.monitor n)
    else match s0.cur with
      | .slot e k m => raiseSlot s1 e k.toNat m 0x1C1 0 (n.setWidth 64)
      | .word g a => raiseSeq s1 g a 0x1C1 0 (n.setWidth 64) (imemWord s0 g a)) 0)

/-- sret (R310). -/
def execSret (t : BitVec 6) (s : State) : Host.Outcome State Fault Refusal :=
  issueWord (.sret t) s (fun s0 s1 => .done (returnFromTrap s1 (curGrove s0)) 0)

/-- An illegal word that a unit has come to (R115, R116). -/
def execIllegalWord (detail : BitVec 6) (s : State) : Host.Outcome State Fault Refusal :=
  .next (raiseIllegal s detail.toNat)

/-- A word whose guard fails (R24). -/
def execSkippedWord (s : State) : Host.Outcome State Fault Refusal :=
  .next (match s.cur with
    | .word g a => pastWord s g a
    | .slot _ _ _ => s)

end Sys2Proof.Machine
end

