-- ==== Sys2Proof/Machine/Lanes.lean ====
section
/-! DEFINITION. Packed-lane instructions (R136 to R152). -/

namespace Sys2Proof.Machine

/-- Lane j of width w (R136). -/
def laneOf (w x j : Nat) : Nat := bits x (w * j) w

/-- Joins lanes of width w, lane 0 lowest, with the union of their flags (R136, R137). -/
def joinLanes (w : Nat) : List (Nat × Flags) → Nat × Flags
  | [] => (0, 0)
  | (x, f) :: r => let (y, g) := joinLanes w r; (x % 2 ^ w + 2 ^ w * y, f ||| g)

/-- Applies a lane operation to every lane of a type. -/
def mapLanes (lt : Nat) (f : Nat → Nat × Flags) : Nat × Flags :=
  joinLanes (laneWidth lt) ((List.range (64 / laneWidth lt)).map f)

/-- Floating-point format of an LT code (R109). -/
def laneFormat (lt : Nat) : FpFormat :=
  match lt with
  | 3 => .f16
  | 4 => .bf16
  | 6 => .f64
  | 7 => .e4m3
  | 8 => .e5m2
  | _ => .f32

/-- A two's complement value in a lane. -/
def wrapLane (lt : Nat) (v : Int) : Nat × Flags := ((v % 2 ^ laneWidth lt).toNat, 0)

/-- Lane x as read: a subnormal is the zero of its sign under flush (R43). -/
def flushed (f : FpFormat) (flush : Bool) (x : Nat) : Nat :=
  if flush && decide (x % f.signBit < 2 ^ f.manBits) then x / f.signBit * f.signBit else x

/-- Rounds a value with the flags of forming it and of its inputs (R137). -/
def laneWrite (f : FpFormat) (r : Rounding) (v : FpVal × Flags) (inputs : List FpVal) : Nat × Flags :=
  let (x, g) := fpWrite f r v.1
  (x, v.2 ||| g ||| inputs.foldl (fun a i => a ||| i.inputFlag) 0)

/-- Order of encodings that are no NaN, −0 below +0 (R141). -/
def orderKey (f : FpFormat) (x : Nat) : Int :=
  if x / f.signBit % 2 = 1 then -((x % f.signBit : Nat) : Int) - 1 else ((x % f.signBit : Nat) : Int)

/-- Numeric order of encodings that are no NaN, the zeros equal (R143). -/
def numberKey (f : FpFormat) (x : Nat) : Int :=
  if x / f.signBit % 2 = 1 then -((x % f.signBit : Nat) : Int) else ((x % f.signBit : Nat) : Int)

/-- Sum of two or three signed terms of a lane. -/
def laneSum (f : FpFormat) (r : Rounding) (ts : List FpVal) (inputs : List FpVal) (extra : Flags) : Nat × Flags :=
  let (v, g) := fpSum r.mode ts
  laneWrite f r (v, g ||| extra) inputs

/-- vmin and vmax of a lane (R141). -/
def laneExtreme (largest : Bool) (lt : Nat) (flush : Bool) (x y : Nat) : Nat × Flags :=
  if laneIsInt lt then
    let w := laneWidth lt
    (if (if largest then signedOf w x < signedOf w y else signedOf w y < signedOf w x) then y else x, 0)
  else
    let f := laneFormat lt
    let vx := fpRead f flush x
    let vy := fpRead f flush y
    if vx.isNan || vy.isNan then (f.nan, vx.inputFlag ||| vy.inputFlag)
    else
      let x := flushed f flush x
      let y := flushed f flush y
      (if (if largest then orderKey f x < orderKey f y else orderKey f y < orderKey f x) then y else x, 0)

/-- vabs and vneg of a lane (R142). -/
def laneSign (negate : Bool) (lt : Nat) (flush : Bool) (x : Nat) : Nat × Flags :=
  if laneIsInt lt then
    let v := signedOf (laneWidth lt) x
    wrapLane lt (if negate then -v else if v < 0 then -v else v)
  else
    let f := laneFormat lt
    let v := fpRead f flush x
    if v.isNan then (f.nan, v.inputFlag)
    else
      let y := flushed f flush x
      (if negate then (if y ≥ f.signBit then y - f.signBit else y + f.signBit) else y % f.signBit, 0)

/-- Condition of vcmp on a lane with its flags (R143). -/
def laneCompare (cc lt : Nat) (flush : Bool) (x y : Nat) : Bool × Flags :=
  let test (a b : Int) : Bool := match cc with
    | 0 => a == b
    | 1 => a != b
    | 2 => decide (a < b)
    | 3 => decide (a ≤ b)
    | 4 => decide (b < a)
    | 5 => decide (b ≤ a)
    | _ => false
  if laneIsInt lt then (test (signedOf (laneWidth lt) x) (signedOf (laneWidth lt) y), 0)
  else
    let f := laneFormat lt
    let vx := fpRead f flush x
    let vy := fpRead f flush y
    if vx.isNan || vy.isNan then
      (cc == 1 || cc == 6, if 2 ≤ cc ∧ cc ≤ 5 then Flag.iv else vx.inputFlag ||| vy.inputFlag)
    else (test (numberKey f (flushed f flush x)) (numberKey f (flushed f flush y)), 0)

/-- vcvt of a lane (R149). -/
def laneConvert (lt st : Nat) (flush : Bool) (x : Nat) : Nat × Flags :=
  if laneIsInt st then
    let v := signedOf (laneWidth st) x
    if laneIsInt lt then wrapLane lt v else fpWrite (laneFormat lt) { mode := 0 } (fpOfInt v)
  else
    let v := fpRead (laneFormat st) flush x
    laneWrite (laneFormat lt) { mode := 0 } (v, 0) [v]

/-- Exact lane products of vdot, summed and rounded once (R145). -/
def laneDot (lt : Nat) (r : Rounding) (a b : Nat) : Nat × Flags :=
  let w := laneWidth lt
  let js := List.range (64 / w)
  if laneIsInt lt then
    ((js.foldl (fun (n : Int) j => n + signedOf w (laneOf w a j) * signedOf w (laneOf w b j)) 0 % 2 ^ 32).toNat, 0)
  else
    let xs := js.map (fun j => fpRead (laneFormat lt) r.flush (laneOf w a j))
    let ys := js.map (fun j => fpRead (laneFormat lt) r.flush (laneOf w b j))
    let ps := List.zipWith fpMul xs ys
    laneSum .f32 r (ps.map (fun p => p.1)) (xs ++ ys) (ps.foldl (fun g p => g ||| p.2) 0)

/-- vsum (R146). -/
def laneTotal (lt : Nat) (r : Rounding) (a : Nat) : Nat × Flags :=
  let w := laneWidth lt
  let js := List.range (64 / w)
  if laneIsInt lt then wrapLane lt (js.foldl (fun (n : Int) j => n + signedOf w (laneOf w a j)) 0)
  else
    let xs := js.map (fun j => fpRead (laneFormat lt) r.flush (laneOf w a j))
    laneSum (laneFormat lt) r xs xs 0

/-- One lane of vadd, vsub, vmul, vfma or vfms (R140). -/
def laneArith (vop lt : Nat) (r : Rounding) (x y z : Nat) : Nat × Flags :=
  let w := laneWidth lt
  if laneIsInt lt then
    let i := signedOf w x
    let j := signedOf w y
    wrapLane lt (match vop with
      | 0 => i + j
      | 1 => i - j
      | _ => i * j)
  else
    let f := laneFormat lt
    let vx := fpRead f r.flush x
    let vy := fpRead f r.flush y
    let vz := fpRead f r.flush z
    match vop with
    | 0 => laneSum f r [vx, vy] [vx, vy] 0
    | 1 => laneSum f r [vx, vy.neg] [vx, vy] 0
    | 2 => laneWrite f r (fpMul vx vy) [vx, vy]
    | 3 => let (p, g) := fpMul vx vy; laneSum f r [p, vz] [vx, vy, vz] g
    | _ => let (p, g) := fpMul vx vy; laneSum f r [p.neg, vz] [vx, vy, vz] g

/-- Result and flags of a packed-lane operation on its operands (R139 to R151); for vcmp the predicates of the lanes, lane 0 in bit 0. r gives the rounding of each lane, p the predicates. -/
def laneEval (vop lt st cc : Nat) (r : Nat → Rounding) (p : BitVec 8) (a b c : Nat) : Nat × Flags :=
  let w := laneWidth lt
  let n := 64 / w
  let fl := (r 0).flush
  match vop with
  | 5 => mapLanes lt (fun j => laneExtreme false lt fl (laneOf w a j) (laneOf w b j))
  | 6 => mapLanes lt (fun j => laneExtreme true lt fl (laneOf w a j) (laneOf w b j))
  | 7 => mapLanes lt (fun j => laneSign false lt fl (laneOf w a j))
  | 8 => mapLanes lt (fun j => laneSign true lt fl (laneOf w a j))
  | 9 => joinLanes 1 ((List.range n).map (fun j =>
      let (t, g) := laneCompare cc lt fl (laneOf w a j) (laneOf w b j)
      (if t then 1 else 0, g)))
  | 10 => mapLanes lt (fun j => (if p.getLsbD j then laneOf w a j else laneOf w b j, 0))
  | 11 => laneDot lt (r 0) a b
  | 12 => laneTotal lt (r 0) a
  | 13 => mapLanes lt (fun j => fpRecipEst (laneFormat lt) fl (laneOf w a j))
  | 14 => mapLanes lt (fun j => fpRsqrtEst (laneFormat lt) fl (laneOf w a j))
  | 15 => mapLanes lt (fun j => fpExp2 (r j) (laneOf w a j))
  | 16 => mapLanes lt (fun j =>
      let x := fpRead .f32 fl (laneOf w a j)
      let y := fpRead .f32 fl (laneOf w b j)
      let (q, g) := fpDiv .f32 (r j) x y
      (q, g ||| x.inputFlag ||| y.inputFlag))
  | 17 => mapLanes lt (fun j =>
      let x := fpRead (laneFormat lt) fl (laneOf w a j)
      laneWrite (laneFormat lt) (r j) (fpScale (signedOf w (laneOf w b j)) x, 0) [x])
  | 18 => mapLanes lt (fun j => laneConvert lt st fl (laneOf (laneWidth st) a j))
  | 19 => mapLanes lt (fun j => let k := bits b (4 * j) 4; (if k < n then laneOf w a k else 0, 0))
  | 20 => mapLanes lt (fun j => (if j % 2 = 0 then laneOf w a (j / 2) else laneOf w b (j / 2), 0))
  | 21 => mapLanes lt (fun j => (if j < n / 2 then laneOf w a (2 * j) else laneOf w a (2 * (j - n / 2) + 1), 0))
  | 22 => mapLanes lt (fun _ => (laneOf w a 0, 0))
  | _ => mapLanes lt (fun j => laneArith vop lt (r j) (laneOf w a j) (laneOf w b j) (laneOf w c j))

/-- Flush bit of the issuing strand (R43). -/
def strandFlush (s : State) : Bool :=
  match s.cur with
  | .slot e k _ => ((s.elem e).active.strand k.toNat).flush
  | .word _ _ => false

/-- pos of R41: tokens the strand has consumed from the first channel source, or earlier firings of the slot. The model's own choice (assumption 30): an element keeps one count for a slot number, so that slot n of another plane counts on, over swaps and calls. -/
def lanePos (s : State) (srcs : List (BitVec 6)) : Nat :=
  match s.cur, srcs.filterMap (chanOf s) with
  | .slot e k _, ch :: _ => mget 0 (s.elem e).taken (k.toNat * 32 + ch)
  | .slot e _ n, [] => mget 0 (s.elem e).firings n
  | .word _ _, _ => 0

/-- Rounding of lane j under a mode (R40, R41, R43). -/
def laneRounding (s : State) (srcs : List (BitVec 6)) (rm j : Nat) : Rounding :=
  { mode := rm, flush := strandFlush s
    draw := if rm = 4 then stochasticDraw (special s 23) (eidOf s (curElem s)) (lanePos s srcs) j else 0 }

/-- Values of a lane instruction's sources, none when one is absent (R69, R137). -/
def laneSources (s : State) : List (BitVec 6) → Option (List Nat)
  | [] => some []
  | c :: cs => match srcVal s c, laneSources s cs with
    | some v, some vs => some (v.toNat :: vs)
    | _, _ => none

/-- Result of a lane operation on the sources of a state. -/
def laneResult (s : State) (vop lt st cc rm : Nat) (srcs : List (BitVec 6)) : Option (Nat × Flags) :=
  (laneSources s srcs).map (fun v =>
    laneEval vop lt st cc (laneRounding s srcs rm) (curPreds s) (v.getD 0 0) (v.getD 1 0) (v.getD 2 0))

/-- A packed-lane instruction with a result (R137). -/
def laneOp (i : Instr) (s : State) (vop lt st rm : Nat) (d : BitVec 6) (srcs : List (BitVec 6)) : Host.Outcome State Fault Refusal :=
  issueWord i s (fun s0 s1 => match laneResult s0 vop lt st 0 rm srcs with
    | some (x, f) => .done (writeDst s1 d (some (BitVec.ofNat 64 x))) f
    | none => .done (writeDst s1 d none) 0)

/-- Sets n predicates from k on to the bits of x (R143). -/
def setPreds (s : State) (k x : Nat) : Nat → State
  | 0 => s
  | n + 1 => setPreds (setPred s k (x.testBit 0)) (k + 1) (x / 2) n

/-- vcmp (R143). -/
def execVcmp (t d a b : BitVec 6) (lt : BitVec 4) (cc : BitVec 3) (s : State) : Host.Outcome State Fault Refusal :=
  issueWord (.vcmp t d a b lt cc) s (fun s0 s1 => match laneResult s0 9 lt.toNat 0 cc.toNat 0 [a, b] with
    | some (x, f) => .done (setPreds s1 d.toNat x (64 / laneWidth lt.toNat)) f
    | none => .done s1 0)

/-- VADD_F32 (R140). -/
def execVaddF32 (t d a b : BitVec 6) (s : State) : Host.Outcome State Fault Refusal :=
  laneOp (.vaddF32 t d a b) s 0 5 0 0 d [a, b]

/-- VADD_BF16 (R140). -/
def execVaddBf16 (t d a b : BitVec 6) (s : State) : Host.Outcome State Fault Refusal :=
  laneOp (.vaddBf16 t d a b) s 0 4 0 0 d [a, b]

/-- VADD_F16 (R140). -/
def execVaddF16 (t d a b : BitVec 6) (s : State) : Host.Outcome State Fault Refusal :=
  laneOp (.vaddF16 t d a b) s 0 3 0 0 d [a, b]

/-- VADD_I32 (R140). -/
def execVaddI32 (t d a b : BitVec 6) (s : State) : Host.Outcome State Fault Refusal :=
  laneOp (.vaddI32 t d a b) s 0 2 0 0 d [a, b]

/-- VSUB_F32 (R140). -/
def execVsubF32 (t d a b : BitVec 6) (s : State) : Host.Outcome State Fault Refusal :=
  laneOp (.vsubF32 t d a b) s 1 5 0 0 d [a, b]

/-- VSUB_BF16 (R140). -/
def execVsubBf16 (t d a b : BitVec 6) (s : State) : Host.Outcome State Fault Refusal :=
  laneOp (.vsubBf16 t d a b) s 1 4 0 0 d [a, b]

/-- VSUB_F16 (R140). -/
def execVsubF16 (t d a b : BitVec 6) (s : State) : Host.Outcome State Fault Refusal :=
  laneOp (.vsubF16 t d a b) s 1 3 0 0 d [a, b]

/-- VSUB_I32 (R140). -/
def execVsubI32 (t d a b : BitVec 6) (s : State) : Host.Outcome State Fault Refusal :=
  laneOp (.vsubI32 t d a b) s 1 2 0 0 d [a, b]

/-- VMUL_F32 (R140). -/
def execVmulF32 (t d a b : BitVec 6) (s : State) : Host.Outcome State Fault Refusal :=
  laneOp (.vmulF32 t d a b) s 2 5 0 0 d [a, b]

/-- VMUL_BF16 (R140). -/
def execVmulBf16 (t d a b : BitVec 6) (s : State) : Host.Outcome State Fault Refusal :=
  laneOp (.vmulBf16 t d a b) s 2 4 0 0 d [a, b]

/-- VMUL_F16 (R140). -/
def execVmulF16 (t d a b : BitVec 6) (s : State) : Host.Outcome State Fault Refusal :=
  laneOp (.vmulF16 t d a b) s 2 3 0 0 d [a, b]

/-- VMUL_I32 (R140). -/
def execVmulI32 (t d a b : BitVec 6) (s : State) : Host.Outcome State Fault Refusal :=
  laneOp (.vmulI32 t d a b) s 2 2 0 0 d [a, b]

/-- VMIN_F32 (R141). -/
def execVminF32 (t d a b : BitVec 6) (s : State) : Host.Outcome State Fault Refusal :=
  laneOp (.vminF32 t d a b) s 5 5 0 0 d [a, b]

/-- VMIN_BF16 (R141). -/
def execVminBf16 (t d a b : BitVec 6) (s : State) : Host.Outcome State Fault Refusal :=
  laneOp (.vminBf16 t d a b) s 5 4 0 0 d [a, b]

/-- VMIN_F16 (R141). -/
def execVminF16 (t d a b : BitVec 6) (s : State) : Host.Outcome State Fault Refusal :=
  laneOp (.vminF16 t d a b) s 5 3 0 0 d [a, b]

/-- VMIN_I32 (R141). -/
def execVminI32 (t d a b : BitVec 6) (s : State) : Host.Outcome State Fault Refusal :=
  laneOp (.vminI32 t d a b) s 5 2 0 0 d [a, b]

/-- VMAX_F32 (R141). -/
def execVmaxF32 (t d a b : BitVec 6) (s : State) : Host.Outcome State Fault Refusal :=
  laneOp (.vmaxF32 t d a b) s 6 5 0 0 d [a, b]

/-- VMAX_BF16 (R141). -/
def execVmaxBf16 (t d a b : BitVec 6) (s : State) : Host.Outcome State Fault Refusal :=
  laneOp (.vmaxBf16 t d a b) s 6 4 0 0 d [a, b]

/-- VMAX_F16 (R141). -/
def execVmaxF16 (t d a b : BitVec 6) (s : State) : Host.Outcome State Fault Refusal :=
  laneOp (.vmaxF16 t d a b) s 6 3 0 0 d [a, b]

/-- VMAX_I32 (R141). -/
def execVmaxI32 (t d a b : BitVec 6) (s : State) : Host.Outcome State Fault Refusal :=
  laneOp (.vmaxI32 t d a b) s 6 2 0 0 d [a, b]

/-- VDOT_BF16 (R145). -/
def execVdotBf16 (t d a b : BitVec 6) (s : State) : Host.Outcome State Fault Refusal :=
  laneOp (.vdotBf16 t d a b) s 11 4 0 0 d [a, b]

/-- VDOT_E4M3 (R145). -/
def execVdotE4m3 (t d a b : BitVec 6) (s : State) : Host.Outcome State Fault Refusal :=
  laneOp (.vdotE4m3 t d a b) s 11 7 0 0 d [a, b]

/-- VDOT_E5M2 (R145). -/
def execVdotE5m2 (t d a b : BitVec 6) (s : State) : Host.Outcome State Fault Refusal :=
  laneOp (.vdotE5m2 t d a b) s 11 8 0 0 d [a, b]

/-- VDOT_I8 (R145). -/
def execVdotI8 (t d a b : BitVec 6) (s : State) : Host.Outcome State Fault Refusal :=
  laneOp (.vdotI8 t d a b) s 11 0 0 0 d [a, b]

/-- VSUM_F32 (R146). -/
def execVsumF32 (t d a : BitVec 6) (s : State) : Host.Outcome State Fault Refusal :=
  laneOp (.vsumF32 t d a) s 12 5 0 0 d [a]

/-- VSUM_BF16 (R146). -/
def execVsumBf16 (t d a : BitVec 6) (s : State) : Host.Outcome State Fault Refusal :=
  laneOp (.vsumBf16 t d a) s 12 4 0 0 d [a]

/-- VSUM_F16 (R146). -/
def execVsumF16 (t d a : BitVec 6) (s : State) : Host.Outcome State Fault Refusal :=
  laneOp (.vsumF16 t d a) s 12 3 0 0 d [a]

/-- VSUM_I32 (R146). -/
def execVsumI32 (t d a : BitVec 6) (s : State) : Host.Outcome State Fault Refusal :=
  laneOp (.vsumI32 t d a) s 12 2 0 0 d [a]

/-- VABS_F32 (R142). -/
def execVabsF32 (t d a : BitVec 6) (s : State) : Host.Outcome State Fault Refusal :=
  laneOp (.vabsF32 t d a) s 7 5 0 0 d [a]

/-- VABS_BF16 (R142). -/
def execVabsBf16 (t d a : BitVec 6) (s : State) : Host.Outcome State Fault Refusal :=
  laneOp (.vabsBf16 t d a) s 7 4 0 0 d [a]

/-- VABS_F16 (R142). -/
def execVabsF16 (t d a : BitVec 6) (s : State) : Host.Outcome State Fault Refusal :=
  laneOp (.vabsF16 t d a) s 7 3 0 0 d [a]

/-- VABS_I32 (R142). -/
def execVabsI32 (t d a : BitVec 6) (s : State) : Host.Outcome State Fault Refusal :=
  laneOp (.vabsI32 t d a) s 7 2 0 0 d [a]

/-- VNEG_F32 (R142). -/
def execVnegF32 (t d a : BitVec 6) (s : State) : Host.Outcome State Fault Refusal :=
  laneOp (.vnegF32 t d a) s 8 5 0 0 d [a]

/-- VNEG_BF16 (R142). -/
def execVnegBf16 (t d a : BitVec 6) (s : State) : Host.Outcome State Fault Refusal :=
  laneOp (.vnegBf16 t d a) s 8 4 0 0 d [a]

/-- VNEG_F16 (R142). -/
def execVnegF16 (t d a : BitVec 6) (s : State) : Host.Outcome State Fault Refusal :=
  laneOp (.vnegF16 t d a) s 8 3 0 0 d [a]

/-- VNEG_I32 (R142). -/
def execVnegI32 (t d a : BitVec 6) (s : State) : Host.Outcome State Fault Refusal :=
  laneOp (.vnegI32 t d a) s 8 2 0 0 d [a]

/-- VSEL_8 (R144). -/
def execVsel8 (t d a b : BitVec 6) (s : State) : Host.Outcome State Fault Refusal :=
  laneOp (.vsel8 t d a b) s 10 0 0 0 d [a, b]

/-- VSEL_16 (R144). -/
def execVsel16 (t d a b : BitVec 6) (s : State) : Host.Outcome State Fault Refusal :=
  laneOp (.vsel16 t d a b) s 10 1 0 0 d [a, b]

/-- VSEL_32 (R144). -/
def execVsel32 (t d a b : BitVec 6) (s : State) : Host.Outcome State Fault Refusal :=
  laneOp (.vsel32 t d a b) s 10 2 0 0 d [a, b]

/-- VSEL_64 (R144). -/
def execVsel64 (t d a b : BitVec 6) (s : State) : Host.Outcome State Fault Refusal :=
  laneOp (.vsel64 t d a b) s 10 6 0 0 d [a, b]

/-- VSPLAT_8 (R151). -/
def execVsplat8 (t d a : BitVec 6) (s : State) : Host.Outcome State Fault Refusal :=
  laneOp (.vsplat8 t d a) s 22 0 0 0 d [a]

/-- VSPLAT_16 (R151). -/
def execVsplat16 (t d a : BitVec 6) (s : State) : Host.Outcome State Fault Refusal :=
  laneOp (.vsplat16 t d a) s 22 1 0 0 d [a]

/-- VSPLAT_32 (R151). -/
def execVsplat32 (t d a : BitVec 6) (s : State) : Host.Outcome State Fault Refusal :=
  laneOp (.vsplat32 t d a) s 22 2 0 0 d [a]

/-- VSPLAT_64 (R151). -/
def execVsplat64 (t d a : BitVec 6) (s : State) : Host.Outcome State Fault Refusal :=
  laneOp (.vsplat64 t d a) s 22 6 0 0 d [a]

/-- VRCPE_F32 (R147). -/
def execVrcpeF32 (t d a : BitVec 6) (s : State) : Host.Outcome State Fault Refusal :=
  laneOp (.vrcpeF32 t d a) s 13 5 0 0 d [a]

/-- VRCPE_F64 (R147). -/
def execVrcpeF64 (t d a : BitVec 6) (s : State) : Host.Outcome State Fault Refusal :=
  laneOp (.vrcpeF64 t d a) s 13 6 0 0 d [a]

/-- VRSQE_F32 (R147). -/
def execVrsqeF32 (t d a : BitVec 6) (s : State) : Host.Outcome State Fault Refusal :=
  laneOp (.vrsqeF32 t d a) s 14 5 0 0 d [a]

/-- VRSQE_F64 (R147). -/
def execVrsqeF64 (t d a : BitVec 6) (s : State) : Host.Outcome State Fault Refusal :=
  laneOp (.vrsqeF64 t d a) s 14 6 0 0 d [a]

/-- VEXP2_F32 (R147). -/
def execVexp2F32 (t d a : BitVec 6) (s : State) : Host.Outcome State Fault Refusal :=
  laneOp (.vexp2F32 t d a) s 15 5 0 0 d [a]

/-- VDIV_F32 (R148). -/
def execVdivF32 (t d a b : BitVec 6) (s : State) : Host.Outcome State Fault Refusal :=
  laneOp (.vdivF32 t d a b) s 16 5 0 0 d [a, b]

/-- VSCALE_F32 (R148). -/
def execVscaleF32 (t d a b : BitVec 6) (s : State) : Host.Outcome State Fault Refusal :=
  laneOp (.vscaleF32 t d a b) s 17 5 0 0 d [a, b]

/-- VSCALE_BF16 (R148). -/
def execVscaleBf16 (t d a b : BitVec 6) (s : State) : Host.Outcome State Fault Refusal :=
  laneOp (.vscaleBf16 t d a b) s 17 4 0 0 d [a, b]

/-- VADD_F64 (R140). -/
def execVaddF64 (t d a b : BitVec 6) (s : State) : Host.Outcome State Fault Refusal :=
  laneOp (.vaddF64 t d a b) s 0 6 0 0 d [a, b]

/-- VSUB_F64 (R140). -/
def execVsubF64 (t d a b : BitVec 6) (s : State) : Host.Outcome State Fault Refusal :=
  laneOp (.vsubF64 t d a b) s 1 6 0 0 d [a, b]

/-- VMUL_F64 (R140). -/
def execVmulF64 (t d a b : BitVec 6) (s : State) : Host.Outcome State Fault Refusal :=
  laneOp (.vmulF64 t d a b) s 2 6 0 0 d [a, b]

/-- VADD_I16 (R140). -/
def execVaddI16 (t d a b : BitVec 6) (s : State) : Host.Outcome State Fault Refusal :=
  laneOp (.vaddI16 t d a b) s 0 1 0 0 d [a, b]

/-- VSUB_I16 (R140). -/
def execVsubI16 (t d a b : BitVec 6) (s : State) : Host.Outcome State Fault Refusal :=
  laneOp (.vsubI16 t d a b) s 1 1 0 0 d [a, b]

/-- VADD_I8 (R140). -/
def execVaddI8 (t d a b : BitVec 6) (s : State) : Host.Outcome State Fault Refusal :=
  laneOp (.vaddI8 t d a b) s 0 0 0 0 d [a, b]

/-- VSUB_I8 (R140). -/
def execVsubI8 (t d a b : BitVec 6) (s : State) : Host.Outcome State Fault Refusal :=
  laneOp (.vsubI8 t d a b) s 1 0 0 0 d [a, b]

/-- VADD_LONG (R140). -/
def execVaddLong (t d a b : BitVec 6) (lt : BitVec 4) (rm : BitVec 3) (s : State) : Host.Outcome State Fault Refusal :=
  laneOp (.vaddLong t d a b lt rm) s 0 lt.toNat 0 rm.toNat d [a, b]

/-- VSUB_LONG (R140). -/
def execVsubLong (t d a b : BitVec 6) (lt : BitVec 4) (rm : BitVec 3) (s : State) : Host.Outcome State Fault Refusal :=
  laneOp (.vsubLong t d a b lt rm) s 1 lt.toNat 0 rm.toNat d [a, b]

/-- VMUL_LONG (R140). -/
def execVmulLong (t d a b : BitVec 6) (lt : BitVec 4) (rm : BitVec 3) (s : State) : Host.Outcome State Fault Refusal :=
  laneOp (.vmulLong t d a b lt rm) s 2 lt.toNat 0 rm.toNat d [a, b]

/-- VFMA (R140). -/
def execVfma (t d a b c : BitVec 6) (lt : BitVec 4) (rm : BitVec 3) (s : State) : Host.Outcome State Fault Refusal :=
  laneOp (.vfma t d a b c lt rm) s 3 lt.toNat 0 rm.toNat d [a, b, c]

/-- VFMS (R140). -/
def execVfms (t d a b c : BitVec 6) (lt : BitVec 4) (rm : BitVec 3) (s : State) : Host.Outcome State Fault Refusal :=
  laneOp (.vfms t d a b c lt rm) s 4 lt.toNat 0 rm.toNat d [a, b, c]

/-- VMIN_LONG (R141). -/
def execVminLong (t d a b : BitVec 6) (lt : BitVec 4) (s : State) : Host.Outcome State Fault Refusal :=
  laneOp (.vminLong t d a b lt) s 5 lt.toNat 0 0 d [a, b]

/-- VMAX_LONG (R141). -/
def execVmaxLong (t d a b : BitVec 6) (lt : BitVec 4) (s : State) : Host.Outcome State Fault Refusal :=
  laneOp (.vmaxLong t d a b lt) s 6 lt.toNat 0 0 d [a, b]

/-- VABS_LONG (R142). -/
def execVabsLong (t d a : BitVec 6) (lt : BitVec 4) (s : State) : Host.Outcome State Fault Refusal :=
  laneOp (.vabsLong t d a lt) s 7 lt.toNat 0 0 d [a]

/-- VNEG_LONG (R142). -/
def execVnegLong (t d a : BitVec 6) (lt : BitVec 4) (s : State) : Host.Outcome State Fault Refusal :=
  laneOp (.vnegLong t d a lt) s 8 lt.toNat 0 0 d [a]

/-- VSEL_LONG (R144). -/
def execVselLong (t d a b : BitVec 6) (lt : BitVec 4) (s : State) : Host.Outcome State Fault Refusal :=
  laneOp (.vselLong t d a b lt) s 10 lt.toNat 0 0 d [a, b]

/-- VDOT_LONG (R145). -/
def execVdotLong (t d a b : BitVec 6) (lt : BitVec 4) (rm : BitVec 3) (s : State) : Host.Outcome State Fault Refusal :=
  laneOp (.vdotLong t d a b lt rm) s 11 lt.toNat 0 rm.toNat d [a, b]

/-- VSUM_LONG (R146). -/
def execVsumLong (t d a : BitVec 6) (lt : BitVec 4) (rm : BitVec 3) (s : State) : Host.Outcome State Fault Refusal :=
  laneOp (.vsumLong t d a lt rm) s 12 lt.toNat 0 rm.toNat d [a]

/-- VRCPE_LONG (R147). -/
def execVrcpeLong (t d a : BitVec 6) (lt : BitVec 4) (s : State) : Host.Outcome State Fault Refusal :=
  laneOp (.vrcpeLong t d a lt) s 13 lt.toNat 0 0 d [a]

/-- VRSQE_LONG (R147). -/
def execVrsqeLong (t d a : BitVec 6) (lt : BitVec 4) (s : State) : Host.Outcome State Fault Refusal :=
  laneOp (.vrsqeLong t d a lt) s 14 lt.toNat 0 0 d [a]

/-- VEXP2_LONG (R147). -/
def execVexp2Long (t d a : BitVec 6) (lt : BitVec 4) (rm : BitVec 3) (s : State) : Host.Outcome State Fault Refusal :=
  laneOp (.vexp2Long t d a lt rm) s 15 lt.toNat 0 rm.toNat d [a]

/-- VDIV_LONG (R148). -/
def execVdivLong (t d a b : BitVec 6) (lt : BitVec 4) (rm : BitVec 3) (s : State) : Host.Outcome State Fault Refusal :=
  laneOp (.vdivLong t d a b lt rm) s 16 lt.toNat 0 rm.toNat d [a, b]

/-- VSCALE_LONG (R148). -/
def execVscaleLong (t d a b : BitVec 6) (lt : BitVec 4) (rm : BitVec 3) (s : State) : Host.Outcome State Fault Refusal :=
  laneOp (.vscaleLong t d a b lt rm) s 17 lt.toNat 0 rm.toNat d [a, b]

/-- VCVT (R149). -/
def execVcvt (t d a : BitVec 6) (lt st : BitVec 4) (s : State) : Host.Outcome State Fault Refusal :=
  laneOp (.vcvt t d a lt st) s 18 lt.toNat st.toNat 0 d [a]

/-- VSHUF (R150). -/
def execVshuf (t d a b : BitVec 6) (lt : BitVec 4) (s : State) : Host.Outcome State Fault Refusal :=
  laneOp (.vshuf t d a b lt) s 19 lt.toNat 0 0 d [a, b]

/-- VPACK (R151). -/
def execVpack (t d a b : BitVec 6) (lt : BitVec 4) (s : State) : Host.Outcome State Fault Refusal :=
  laneOp (.vpack t d a b lt) s 20 lt.toNat 0 0 d [a, b]

/-- VUNPK (R151). -/
def execVunpk (t d a : BitVec 6) (lt : BitVec 4) (s : State) : Host.Outcome State Fault Refusal :=
  laneOp (.vunpk t d a lt) s 21 lt.toNat 0 0 d [a]

/-- VSPLAT_LONG (R151). -/
def execVsplatLong (t d a : BitVec 6) (lt : BitVec 4) (s : State) : Host.Outcome State Fault Refusal :=
  laneOp (.vsplatLong t d a lt) s 22 lt.toNat 0 0 d [a]

end Sys2Proof.Machine
end

