-- ==== Sys2Proof/Machine/Predicate.lean ====
section
/-! DEFINITION. Compare and predicate instructions (R129, R130). -/

namespace Sys2Proof.Machine

/-- Conditions of cmp and cmpi (R129). -/
def condition (c : Nat) (x y : Word) : Bool :=
  match c with
  | 0 => x == y
  | 1 => x != y
  | 2 => x.slt y
  | 3 => x.sle y
  | 4 => x.ult y
  | _ => x.ule y

/-- Writes predicate k, or leaves it when a source is absent (R69, R129, R130). -/
def predicate (i : Instr) (s : State) (k : BitVec 3) (v : State → Option Bool) : Host.Outcome State Fault Refusal :=
  issueWord i s (fun s0 s1 => .done (match v s0 with
    | some x => setPred s1 k.toNat x
    | none => s1) 0)

/-- The immediate of cmpi, signed but for ltu and leu (R129). -/
def cmpImmediate (c : Nat) (i : BitVec 8) : Word := if c ≥ 4 then i.setWidth 64 else i.signExtend 64

/-- cmp (R129). -/
def execCmp (t : BitVec 6) (c k : BitVec 3) (a b : BitVec 6) (s : State) : Host.Outcome State Fault Refusal :=
  predicate (.cmp t c k a b) s k (fun s0 => (src2 s0 a b).map (fun x => condition c.toNat x.1 x.2))

/-- cmpi (R129). -/
def execCmpi (t : BitVec 6) (c k : BitVec 3) (a : BitVec 6) (i : BitVec 8) (s : State) : Host.Outcome State Fault Refusal :=
  predicate (.cmpi t c k a i) s k (fun s0 => (src1 s0 a).map (fun x => condition c.toNat x (cmpImmediate c.toNat i)))

/-- pand (R130). -/
def execPand (t : BitVec 6) (k i j : BitVec 3) (s : State) : Host.Outcome State Fault Refusal :=
  predicate (.pand t k i j) s k (fun s0 => some (pred s0 i.toNat && pred s0 j.toNat))

/-- por (R130). -/
def execPor (t : BitVec 6) (k i j : BitVec 3) (s : State) : Host.Outcome State Fault Refusal :=
  predicate (.por t k i j) s k (fun s0 => some (pred s0 i.toNat || pred s0 j.toNat))

/-- pxor (R130). -/
def execPxor (t : BitVec 6) (k i j : BitVec 3) (s : State) : Host.Outcome State Fault Refusal :=
  predicate (.pxor t k i j) s k (fun s0 => some (pred s0 i.toNat != pred s0 j.toNat))

/-- pnot (R130). -/
def execPnot (t : BitVec 6) (k i : BitVec 3) (s : State) : Host.Outcome State Fault Refusal :=
  predicate (.pnot t k i) s k (fun s0 => some (!pred s0 i.toNat))

/-- pset (R130). -/
def execPset (t : BitVec 6) (k : BitVec 3) (v : BitVec 1) (s : State) : Host.Outcome State Fault Refusal :=
  predicate (.pset t k v) s k (fun _ => some (v == 1))

/-- pmov (R130). -/
def execPmov (t : BitVec 6) (k : BitVec 3) (a : BitVec 6) (s : State) : Host.Outcome State Fault Refusal :=
  predicate (.pmov t k a) s k (fun s0 => (src1 s0 a).map (fun x => x.getLsbD 0))

end Sys2Proof.Machine
end

