-- ==== Sys2Proof/Machine/Scalar.lean ====
section
/-! DEFINITION. Scalar instructions (R121 to R128): arithmetic and logic, bit fields, unary operations, immediates and select. -/

namespace Sys2Proof.Machine

/-- Shift count of a register operand: its low six bits (R123). -/
def shiftCount (y : Word) : Nat := y.toNat % 64

/-- a rotated left (R123). -/
def rotlWord (x y : Word) : Word := x <<< shiftCount y ||| x >>> (64 - shiftCount y)

/-- Low bit of a field descriptor (R125). -/
def fieldLow (y : Word) : Nat := bits y.toNat 0 6
/-- Width of a field descriptor, cut at bit 63 (R125). -/
def fieldWidth (y : Word) : Nat := min (bits y.toNat 8 6 + 1) (64 - fieldLow y)
/-- Mask of a field descriptor (R125). -/
def fieldMask (y : Word) : Word := BitVec.ofNat 64 ((2 ^ fieldWidth y - 1) * 2 ^ fieldLow y)
/-- The field of x that y describes (R125). -/
def bitField (x y : Word) : Word := (x &&& fieldMask y) >>> fieldLow y
/-- d with the low bits of x in the field that y describes (R125). -/
def insertField (d x y : Word) : Word := (d &&& ~~~fieldMask y) ||| ((x <<< fieldLow y) &&& fieldMask y)

/-- Number of leading zero bits among the n low bits (R126). -/
def leadingZeros (x : Nat) : Nat → Nat
  | 0 => 0
  | n + 1 => if x.testBit n then 0 else 1 + leadingZeros x n
/-- Number of trailing zero bits from bit i on, at most n more (R126). -/
def trailingZeros (x i : Nat) : Nat → Nat
  | 0 => 0
  | n + 1 => if x.testBit i then 0 else 1 + trailingZeros x (i + 1) n
/-- Number of one bits among the n low bits (R126). -/
def ones (x : Nat) : Nat → Nat
  | 0 => 0
  | n + 1 => ones x n + (if x.testBit n then 1 else 0)

/-- x sign-extended from its low n bits (R127). -/
def signFrom (n : Nat) (x : Word) : Word := BitVec.ofInt 64 (signedOf n x.toNat)

/-- Quotient and remainder of the sequencer's signed division, with the flag of a zero divisor (R124). -/
def quotient (x y : Word) : Word := if y = 0 then BitVec.allOnes 64 else BitVec.ofInt 64 (x.toInt.tdiv y.toInt)
def remainder (x y : Word) : Word := if y = 0 then x else BitVec.ofInt 64 (x.toInt.tmod y.toInt)
def divFlags (y : Word) : Flags := if y = 0 then Flag.dz else 0

/-- A division (R124). -/
def divide (i : Instr) (s : State) (d a b : BitVec 6) (f : Word → Word → Word) : Host.Outcome State Fault Refusal :=
  issueWord i s (fun s0 s1 => .done (writeDst s1 d (some (f (valOf s0 a) (valOf s0 b)))) (divFlags (valOf s0 b)))

/-- A word that computes a value from the register it writes and one or two sources (R125, R127). -/
def update (i : Instr) (s : State) (d : BitVec 6) (v : State → Option Word) : Host.Outcome State Fault Refusal :=
  issueWord i s (fun s0 s1 => .done (writeDst s1 d (v s0)) 0)

/-- select by predicate k (R128). -/
def selectBy (i : Instr) (s : State) (d a b : BitVec 6) (k : Nat) : Host.Outcome State Fault Refusal :=
  issueWord i s (fun s0 s1 => .done (writeDst s1 d ((src2 s0 a b).map (fun x => if pred s0 k then x.1 else x.2))) 0)

/-- add (R123). -/
def execAdd (t d a b : BitVec 6) (s : State) : Host.Outcome State Fault Refusal :=
  compute2 (.add t d a b) s d a b (fun x y => x + y)

/-- sub (R123). -/
def execSub (t d a b : BitVec 6) (s : State) : Host.Outcome State Fault Refusal :=
  compute2 (.sub t d a b) s d a b (fun x y => x - y)

/-- mul (R123). -/
def execMul (t d a b : BitVec 6) (s : State) : Host.Outcome State Fault Refusal :=
  compute2 (.mul t d a b) s d a b (fun x y => x * y)

/-- mulh (R123). -/
def execMulh (t d a b : BitVec 6) (s : State) : Host.Outcome State Fault Refusal :=
  compute2 (.mulh t d a b) s d a b (fun x y => BitVec.ofInt 64 (x.toInt * y.toInt / 2 ^ 64))

/-- mulhu (R123). -/
def execMulhu (t d a b : BitVec 6) (s : State) : Host.Outcome State Fault Refusal :=
  compute2 (.mulhu t d a b) s d a b (fun x y => BitVec.ofNat 64 (x.toNat * y.toNat / 2 ^ 64))

/-- rotl (R123). -/
def execRotl (t d a b : BitVec 6) (s : State) : Host.Outcome State Fault Refusal :=
  compute2 (.rotl t d a b) s d a b (fun x y => rotlWord x y)

/-- and (R123). -/
def execAnd (t d a b : BitVec 6) (s : State) : Host.Outcome State Fault Refusal :=
  compute2 (.and t d a b) s d a b (fun x y => x &&& y)

/-- or (R123). -/
def execOr (t d a b : BitVec 6) (s : State) : Host.Outcome State Fault Refusal :=
  compute2 (.or t d a b) s d a b (fun x y => x ||| y)

/-- xor (R123). -/
def execXor (t d a b : BitVec 6) (s : State) : Host.Outcome State Fault Refusal :=
  compute2 (.xor t d a b) s d a b (fun x y => x ^^^ y)

/-- andn (R123). -/
def execAndn (t d a b : BitVec 6) (s : State) : Host.Outcome State Fault Refusal :=
  compute2 (.andn t d a b) s d a b (fun x y => x &&& ~~~y)

/-- orn (R123). -/
def execOrn (t d a b : BitVec 6) (s : State) : Host.Outcome State Fault Refusal :=
  compute2 (.orn t d a b) s d a b (fun x y => x ||| ~~~y)

/-- shl (R123). -/
def execShl (t d a b : BitVec 6) (s : State) : Host.Outcome State Fault Refusal :=
  compute2 (.shl t d a b) s d a b (fun x y => x <<< shiftCount y)

/-- shr (R123). -/
def execShr (t d a b : BitVec 6) (s : State) : Host.Outcome State Fault Refusal :=
  compute2 (.shr t d a b) s d a b (fun x y => x >>> shiftCount y)

/-- sar (R123). -/
def execSar (t d a b : BitVec 6) (s : State) : Host.Outcome State Fault Refusal :=
  compute2 (.sar t d a b) s d a b (fun x y => x.sshiftRight (shiftCount y))

/-- min (R123). -/
def execMin (t d a b : BitVec 6) (s : State) : Host.Outcome State Fault Refusal :=
  compute2 (.min t d a b) s d a b (fun x y => if y.slt x then y else x)

/-- max (R123). -/
def execMax (t d a b : BitVec 6) (s : State) : Host.Outcome State Fault Refusal :=
  compute2 (.max t d a b) s d a b (fun x y => if x.slt y then y else x)

/-- minu (R123). -/
def execMinu (t d a b : BitVec 6) (s : State) : Host.Outcome State Fault Refusal :=
  compute2 (.minu t d a b) s d a b (fun x y => if y.ult x then y else x)

/-- maxu (R123). -/
def execMaxu (t d a b : BitVec 6) (s : State) : Host.Outcome State Fault Refusal :=
  compute2 (.maxu t d a b) s d a b (fun x y => if x.ult y then y else x)

/-- bfx (R125). -/
def execBfx (t d a b : BitVec 6) (s : State) : Host.Outcome State Fault Refusal :=
  compute2 (.bfx t d a b) s d a b (fun x y => bitField x y)

/-- div (R124). -/
def execDiv (t d a b : BitVec 6) (s : State) : Host.Outcome State Fault Refusal :=
  divide (.div t d a b) s d a b quotient

/-- rem (R124). -/
def execRem (t d a b : BitVec 6) (s : State) : Host.Outcome State Fault Refusal :=
  divide (.rem t d a b) s d a b remainder

/-- bfi reads its own d (R125). -/
def execBfi (t d a b : BitVec 6) (s : State) : Host.Outcome State Fault Refusal :=
  update (.bfi t d a b) s d (fun s0 => (src2 s0 a b).map (fun x => insertField (regVal s0 d) x.1 x.2))

/-- mov (R126). -/
def execMov (t d a : BitVec 6) (s : State) : Host.Outcome State Fault Refusal :=
  compute1 (.mov t d a) s d a (fun x => x)

/-- abs (R126). -/
def execAbs (t d a : BitVec 6) (s : State) : Host.Outcome State Fault Refusal :=
  compute1 (.abs t d a) s d a (fun x => if x.msb then -x else x)

/-- clz (R126). -/
def execClz (t d a : BitVec 6) (s : State) : Host.Outcome State Fault Refusal :=
  compute1 (.clz t d a) s d a (fun x => BitVec.ofNat 64 (leadingZeros x.toNat 64))

/-- ctz (R126). -/
def execCtz (t d a : BitVec 6) (s : State) : Host.Outcome State Fault Refusal :=
  compute1 (.ctz t d a) s d a (fun x => BitVec.ofNat 64 (trailingZeros x.toNat 0 64))

/-- popc (R126). -/
def execPopc (t d a : BitVec 6) (s : State) : Host.Outcome State Fault Refusal :=
  compute1 (.popc t d a) s d a (fun x => BitVec.ofNat 64 (ones x.toNat 64))

/-- addi (R127). -/
def execAddi (t d a : BitVec 6) (i : BitVec 8) (s : State) : Host.Outcome State Fault Refusal :=
  compute1 (.addi t d a i) s d a (fun x => x + i.signExtend 64)

/-- shli (R127). -/
def execShli (t d a n : BitVec 6) (s : State) : Host.Outcome State Fault Refusal :=
  compute1 (.shli t d a n) s d a (fun x => x <<< n.toNat)

/-- shri (R127). -/
def execShri (t d a n : BitVec 6) (s : State) : Host.Outcome State Fault Refusal :=
  compute1 (.shri t d a n) s d a (fun x => x >>> n.toNat)

/-- sari (R127). -/
def execSari (t d a n : BitVec 6) (s : State) : Host.Outcome State Fault Refusal :=
  compute1 (.sari t d a n) s d a (fun x => x.sshiftRight n.toNat)

/-- ext, n being the encoded count less one (R127). -/
def execExtend (t d a n : BitVec 6) (s : State) : Host.Outcome State Fault Refusal :=
  compute1 (.extend t d a n) s d a (fun x => signFrom (n.toNat + 1) x)

/-- movi (R127). -/
def execMovi (t d : BitVec 6) (i : BitVec 14) (s : State) : Host.Outcome State Fault Refusal :=
  update (.movi t d i) s d (fun _ => some (i.signExtend 64))

/-- movh reads its own d (R127). -/
def execMovh (t d : BitVec 6) (i : BitVec 14) (s : State) : Host.Outcome State Fault Refusal :=
  update (.movh t d i) s d (fun s0 => some (regVal s0 d <<< 14 + i.setWidth 64))

/-- sel with p0 to p3 (R128). -/
def execSelP0P3 (t d a b : BitVec 6) (k : BitVec 2) (s : State) : Host.Outcome State Fault Refusal :=
  selectBy (.selP0P3 t d a b k) s d a b k.toNat

/-- sel with p4 to p7 (R128). -/
def execSelP4P7 (t d a b : BitVec 6) (k : BitVec 2) (s : State) : Host.Outcome State Fault Refusal :=
  selectBy (.selP4P7 t d a b k) s d a b (k.toNat + 4)

end Sys2Proof.Machine
end

