-- ==== Sys2Proof/Machine/Dispatch.lean ====
section
/-! DEFINITION. One arm per row of the opcode table. -/

namespace Sys2Proof.Machine

def exec (i : Instr) (s : State) : Host.Outcome State Fault Refusal :=
  match i with
  | .add t d a b => Sys2Proof.Machine.execAdd t d a b s
  | .sub t d a b => Sys2Proof.Machine.execSub t d a b s
  | .mul t d a b => Sys2Proof.Machine.execMul t d a b s
  | .mulh t d a b => Sys2Proof.Machine.execMulh t d a b s
  | .mulhu t d a b => Sys2Proof.Machine.execMulhu t d a b s
  | .div t d a b => Sys2Proof.Machine.execDiv t d a b s
  | .rem t d a b => Sys2Proof.Machine.execRem t d a b s
  | .rotl t d a b => Sys2Proof.Machine.execRotl t d a b s
  | .and t d a b => Sys2Proof.Machine.execAnd t d a b s
  | .or t d a b => Sys2Proof.Machine.execOr t d a b s
  | .xor t d a b => Sys2Proof.Machine.execXor t d a b s
  | .andn t d a b => Sys2Proof.Machine.execAndn t d a b s
  | .orn t d a b => Sys2Proof.Machine.execOrn t d a b s
  | .shl t d a b => Sys2Proof.Machine.execShl t d a b s
  | .shr t d a b => Sys2Proof.Machine.execShr t d a b s
  | .sar t d a b => Sys2Proof.Machine.execSar t d a b s
  | .min t d a b => Sys2Proof.Machine.execMin t d a b s
  | .max t d a b => Sys2Proof.Machine.execMax t d a b s
  | .minu t d a b => Sys2Proof.Machine.execMinu t d a b s
  | .maxu t d a b => Sys2Proof.Machine.execMaxu t d a b s
  | .bfx t d a b => Sys2Proof.Machine.execBfx t d a b s
  | .bfi t d a b => Sys2Proof.Machine.execBfi t d a b s
  | .mov t d a => Sys2Proof.Machine.execMov t d a s
  | .abs t d a => Sys2Proof.Machine.execAbs t d a s
  | .clz t d a => Sys2Proof.Machine.execClz t d a s
  | .ctz t d a => Sys2Proof.Machine.execCtz t d a s
  | .popc t d a => Sys2Proof.Machine.execPopc t d a s
  | .selP0P3 t d a b k => Sys2Proof.Machine.execSelP0P3 t d a b k s
  | .selP4P7 t d a b k => Sys2Proof.Machine.execSelP4P7 t d a b k s
  | .cmp t c k a b => Sys2Proof.Machine.execCmp t c k a b s
  | .pand t k imm j => Sys2Proof.Machine.execPand t k imm j s
  | .por t k imm j => Sys2Proof.Machine.execPor t k imm j s
  | .pxor t k imm j => Sys2Proof.Machine.execPxor t k imm j s
  | .pnot t k imm => Sys2Proof.Machine.execPnot t k imm s
  | .pset t k v => Sys2Proof.Machine.execPset t k v s
  | .pmov t k a => Sys2Proof.Machine.execPmov t k a s
  | .cmpi t c k a imm => Sys2Proof.Machine.execCmpi t c k a imm s
  | .addi t d a imm => Sys2Proof.Machine.execAddi t d a imm s
  | .shli t d a n => Sys2Proof.Machine.execShli t d a n s
  | .shri t d a n => Sys2Proof.Machine.execShri t d a n s
  | .sari t d a n => Sys2Proof.Machine.execSari t d a n s
  | .extend t d a n => Sys2Proof.Machine.execExtend t d a n s
  | .movi t d imm => Sys2Proof.Machine.execMovi t d imm s
  | .movh t d imm => Sys2Proof.Machine.execMovh t d imm s
  | .vaddF32 t d a b => Sys2Proof.Machine.execVaddF32 t d a b s
  | .vaddBf16 t d a b => Sys2Proof.Machine.execVaddBf16 t d a b s
  | .vaddF16 t d a b => Sys2Proof.Machine.execVaddF16 t d a b s
  | .vaddI32 t d a b => Sys2Proof.Machine.execVaddI32 t d a b s
  | .vsubF32 t d a b => Sys2Proof.Machine.execVsubF32 t d a b s
  | .vsubBf16 t d a b => Sys2Proof.Machine.execVsubBf16 t d a b s
  | .vsubF16 t d a b => Sys2Proof.Machine.execVsubF16 t d a b s
  | .vsubI32 t d a b => Sys2Proof.Machine.execVsubI32 t d a b s
  | .vmulF32 t d a b => Sys2Proof.Machine.execVmulF32 t d a b s
  | .vmulBf16 t d a b => Sys2Proof.Machine.execVmulBf16 t d a b s
  | .vmulF16 t d a b => Sys2Proof.Machine.execVmulF16 t d a b s
  | .vmulI32 t d a b => Sys2Proof.Machine.execVmulI32 t d a b s
  | .vminF32 t d a b => Sys2Proof.Machine.execVminF32 t d a b s
  | .vminBf16 t d a b => Sys2Proof.Machine.execVminBf16 t d a b s
  | .vminF16 t d a b => Sys2Proof.Machine.execVminF16 t d a b s
  | .vminI32 t d a b => Sys2Proof.Machine.execVminI32 t d a b s
  | .vmaxF32 t d a b => Sys2Proof.Machine.execVmaxF32 t d a b s
  | .vmaxBf16 t d a b => Sys2Proof.Machine.execVmaxBf16 t d a b s
  | .vmaxF16 t d a b => Sys2Proof.Machine.execVmaxF16 t d a b s
  | .vmaxI32 t d a b => Sys2Proof.Machine.execVmaxI32 t d a b s
  | .vdotBf16 t d a b => Sys2Proof.Machine.execVdotBf16 t d a b s
  | .vdotE4m3 t d a b => Sys2Proof.Machine.execVdotE4m3 t d a b s
  | .vdotE5m2 t d a b => Sys2Proof.Machine.execVdotE5m2 t d a b s
  | .vdotI8 t d a b => Sys2Proof.Machine.execVdotI8 t d a b s
  | .vsumF32 t d a => Sys2Proof.Machine.execVsumF32 t d a s
  | .vsumBf16 t d a => Sys2Proof.Machine.execVsumBf16 t d a s
  | .vsumF16 t d a => Sys2Proof.Machine.execVsumF16 t d a s
  | .vsumI32 t d a => Sys2Proof.Machine.execVsumI32 t d a s
  | .vabsF32 t d a => Sys2Proof.Machine.execVabsF32 t d a s
  | .vabsBf16 t d a => Sys2Proof.Machine.execVabsBf16 t d a s
  | .vabsF16 t d a => Sys2Proof.Machine.execVabsF16 t d a s
  | .vabsI32 t d a => Sys2Proof.Machine.execVabsI32 t d a s
  | .vnegF32 t d a => Sys2Proof.Machine.execVnegF32 t d a s
  | .vnegBf16 t d a => Sys2Proof.Machine.execVnegBf16 t d a s
  | .vnegF16 t d a => Sys2Proof.Machine.execVnegF16 t d a s
  | .vnegI32 t d a => Sys2Proof.Machine.execVnegI32 t d a s
  | .vsel8 t d a b => Sys2Proof.Machine.execVsel8 t d a b s
  | .vsel16 t d a b => Sys2Proof.Machine.execVsel16 t d a b s
  | .vsel32 t d a b => Sys2Proof.Machine.execVsel32 t d a b s
  | .vsel64 t d a b => Sys2Proof.Machine.execVsel64 t d a b s
  | .vsplat8 t d a => Sys2Proof.Machine.execVsplat8 t d a s
  | .vsplat16 t d a => Sys2Proof.Machine.execVsplat16 t d a s
  | .vsplat32 t d a => Sys2Proof.Machine.execVsplat32 t d a s
  | .vsplat64 t d a => Sys2Proof.Machine.execVsplat64 t d a s
  | .vrcpeF32 t d a => Sys2Proof.Machine.execVrcpeF32 t d a s
  | .vrcpeF64 t d a => Sys2Proof.Machine.execVrcpeF64 t d a s
  | .vrsqeF32 t d a => Sys2Proof.Machine.execVrsqeF32 t d a s
  | .vrsqeF64 t d a => Sys2Proof.Machine.execVrsqeF64 t d a s
  | .vexp2F32 t d a => Sys2Proof.Machine.execVexp2F32 t d a s
  | .vdivF32 t d a b => Sys2Proof.Machine.execVdivF32 t d a b s
  | .vscaleF32 t d a b => Sys2Proof.Machine.execVscaleF32 t d a b s
  | .vscaleBf16 t d a b => Sys2Proof.Machine.execVscaleBf16 t d a b s
  | .vaddF64 t d a b => Sys2Proof.Machine.execVaddF64 t d a b s
  | .vsubF64 t d a b => Sys2Proof.Machine.execVsubF64 t d a b s
  | .vmulF64 t d a b => Sys2Proof.Machine.execVmulF64 t d a b s
  | .vaddI16 t d a b => Sys2Proof.Machine.execVaddI16 t d a b s
  | .vsubI16 t d a b => Sys2Proof.Machine.execVsubI16 t d a b s
  | .vaddI8 t d a b => Sys2Proof.Machine.execVaddI8 t d a b s
  | .vsubI8 t d a b => Sys2Proof.Machine.execVsubI8 t d a b s
  | .vaddLong t d a b lt rm => Sys2Proof.Machine.execVaddLong t d a b lt rm s
  | .vsubLong t d a b lt rm => Sys2Proof.Machine.execVsubLong t d a b lt rm s
  | .vmulLong t d a b lt rm => Sys2Proof.Machine.execVmulLong t d a b lt rm s
  | .vfma t d a b c lt rm => Sys2Proof.Machine.execVfma t d a b c lt rm s
  | .vfms t d a b c lt rm => Sys2Proof.Machine.execVfms t d a b c lt rm s
  | .vminLong t d a b lt => Sys2Proof.Machine.execVminLong t d a b lt s
  | .vmaxLong t d a b lt => Sys2Proof.Machine.execVmaxLong t d a b lt s
  | .vabsLong t d a lt => Sys2Proof.Machine.execVabsLong t d a lt s
  | .vnegLong t d a lt => Sys2Proof.Machine.execVnegLong t d a lt s
  | .vcmp t d a b lt cc => Sys2Proof.Machine.execVcmp t d a b lt cc s
  | .vselLong t d a b lt => Sys2Proof.Machine.execVselLong t d a b lt s
  | .vdotLong t d a b lt rm => Sys2Proof.Machine.execVdotLong t d a b lt rm s
  | .vsumLong t d a lt rm => Sys2Proof.Machine.execVsumLong t d a lt rm s
  | .vrcpeLong t d a lt => Sys2Proof.Machine.execVrcpeLong t d a lt s
  | .vrsqeLong t d a lt => Sys2Proof.Machine.execVrsqeLong t d a lt s
  | .vexp2Long t d a lt rm => Sys2Proof.Machine.execVexp2Long t d a lt rm s
  | .vdivLong t d a b lt rm => Sys2Proof.Machine.execVdivLong t d a b lt rm s
  | .vscaleLong t d a b lt rm => Sys2Proof.Machine.execVscaleLong t d a b lt rm s
  | .vcvt t d a lt st => Sys2Proof.Machine.execVcvt t d a lt st s
  | .vshuf t d a b lt => Sys2Proof.Machine.execVshuf t d a b lt s
  | .vpack t d a b lt => Sys2Proof.Machine.execVpack t d a b lt s
  | .vunpk t d a lt => Sys2Proof.Machine.execVunpk t d a lt s
  | .vsplatLong t d a lt => Sys2Proof.Machine.execVsplatLong t d a lt s
  | .deq t d a => Sys2Proof.Machine.execDeq t d a s
  | .peek t d a => Sys2Proof.Machine.execPeek t d a s
  | .send t d a => Sys2Proof.Machine.execSend t d a s
  | .fwd t d a => Sys2Proof.Machine.execFwd t d a s
  | .toss t a => Sys2Proof.Machine.execToss t a s
  | .mark t d b => Sys2Proof.Machine.execMark t d b s
  | .gnext t => Sys2Proof.Machine.execGnext t s
  | .steerP0P3 t d a b k => Sys2Proof.Machine.execSteerP0P3 t d a b k s
  | .steerP4P7 t d a b k => Sys2Proof.Machine.execSteerP4P7 t d a b k s
  | .selectP0P3 t d a b k => Sys2Proof.Machine.execSelectP0P3 t d a b k s
  | .selectP4P7 t d a b k => Sys2Proof.Machine.execSelectP4P7 t d a b k s
  | .selectMrgP0P3 t d a b k => Sys2Proof.Machine.execSelectMrgP0P3 t d a b k s
  | .selectMrgP4P7 t d a b k => Sys2Proof.Machine.execSelectMrgP4P7 t d a b k s
  | .ld t d a imm => Sys2Proof.Machine.execLd t d a imm s
  | .st t d a imm => Sys2Proof.Machine.execSt t d a imm s
  | .ldS t d a sz => Sys2Proof.Machine.execLdS t d a sz s
  | .ldZ t d a sz => Sys2Proof.Machine.execLdZ t d a sz s
  | .stNarrow t d a sz => Sys2Proof.Machine.execStNarrow t d a sz s
  | .acas t d a b => Sys2Proof.Machine.execAcas t d a b s
  | .ldg t d a seq pred succ => Sys2Proof.Machine.execLdg t d a seq pred succ s
  | .stg t d a seq pred succ => Sys2Proof.Machine.execStg t d a seq pred succ s
  | .tfull t a => Sys2Proof.Machine.execTfull t a s
  | .tempty t a => Sys2Proof.Machine.execTempty t a s
  | .void t a b => Sys2Proof.Machine.execVoid t a b s
  | .acc t a b => Sys2Proof.Machine.execAcc t a b s
  | .acvtGen t d a b => Sys2Proof.Machine.execAcvtGen t d a b s
  | .acvtRel t d a b => Sys2Proof.Machine.execAcvtRel t d a b s
  | .ain t k a b => Sys2Proof.Machine.execAin t k a b s
  | .axch t d a b => Sys2Proof.Machine.execAxch t d a b s
  | .aadd t d a b => Sys2Proof.Machine.execAadd t d a b s
  | .aaddf t d a b => Sys2Proof.Machine.execAaddf t d a b s
  | .amin t d a b => Sys2Proof.Machine.execAmin t d a b s
  | .amax t d a b => Sys2Proof.Machine.execAmax t d a b s
  | .aminu t d a b => Sys2Proof.Machine.execAminu t d a b s
  | .amaxu t d a b => Sys2Proof.Machine.execAmaxu t d a b s
  | .aand t d a b => Sys2Proof.Machine.execAand t d a b s
  | .aor t d a b => Sys2Proof.Machine.execAor t d a b s
  | .fenceE t => Sys2Proof.Machine.execFenceE t s
  | .fenceG t => Sys2Proof.Machine.execFenceG t s
  | .fenceT t => Sys2Proof.Machine.execFenceT t s
  | .fenceM t => Sys2Proof.Machine.execFenceM t s
  | .fenceD t => Sys2Proof.Machine.execFenceD t s
  | .barArrive t a b => Sys2Proof.Machine.execBarArrive t a b s
  | .barWait t a b => Sys2Proof.Machine.execBarWait t a b s
  | .atTb t d a => Sys2Proof.Machine.execAtTb t d a s
  | .evset t a => Sys2Proof.Machine.execEvset t a s
  | .evwait t a => Sys2Proof.Machine.execEvwait t a s
  | .evclr t a => Sys2Proof.Machine.execEvclr t a s
  | .chkpt t n => Sys2Proof.Machine.execChkpt t n s
  | .refill t a => Sys2Proof.Machine.execRefill t a s
  | .commit t a => Sys2Proof.Machine.execCommit t a s
  | .abort t a => Sys2Proof.Machine.execAbort t a s
  | .lcld t d a b => Sys2Proof.Machine.execLcld t d a b s
  | .lcctx t a b => Sys2Proof.Machine.execLcctx t a b s
  | .lcin t a b => Sys2Proof.Machine.execLcin t a b s
  | .lcev t a b => Sys2Proof.Machine.execLcev t a b s
  | .lcevRel t a b => Sys2Proof.Machine.execLcevRel t a b s
  | .lcout t d a b => Sys2Proof.Machine.execLcout t d a b s
  | .bpt t d a => Sys2Proof.Machine.execBpt t d a s
  | .raceK t d a b => Sys2Proof.Machine.execRaceK t d a b s
  | .place t d a b => Sys2Proof.Machine.execPlace t d a b s
  | .pload t a b => Sys2Proof.Machine.execPload t a b s
  | .pswap t b => Sys2Proof.Machine.execPswap t b s
  | .gcall t a b => Sys2Proof.Machine.execGcall t a b s
  | .gret t a => Sys2Proof.Machine.execGret t a s
  | .sbind t a ag ch inb sector => Sys2Proof.Machine.execSbind t a ag ch inb sector s
  | .spat t a b ag => Sys2Proof.Machine.execSpat t a b ag s
  | .sgo t ag k push pfifo pop qfifo => Sys2Proof.Machine.execSgo t ag k push pfifo pop qfifo s
  | .swait t ag => Sys2Proof.Machine.execSwait t ag s
  | .sbar t => Sys2Proof.Machine.execSbar t s
  | .scopy t a b ag push pfifo pop qfifo => Sys2Proof.Machine.execScopy t a b ag push pfifo pop qfifo s
  | .sgath t ag ch fwdend push pfifo pop qfifo => Sys2Proof.Machine.execSgath t ag ch fwdend push pfifo pop qfifo s
  | .sscat t ag ch push pfifo pop qfifo => Sys2Proof.Machine.execSscat t ag ch push pfifo pop qfifo s
  | .sisect t d ag push pfifo pop qfifo => Sys2Proof.Machine.execSisect t d ag push pfifo pop qfifo s
  | .smerge t d ag push pfifo pop qfifo => Sys2Proof.Machine.execSmerge t d ag push pfifo pop qfifo s
  | .branch t o => Sys2Proof.Machine.execBranch t o s
  | .call t o => Sys2Proof.Machine.execCall t o s
  | .nop t => Sys2Proof.Machine.execNop t s
  | .halt t => Sys2Proof.Machine.execHalt t s
  | .trap t n => Sys2Proof.Machine.execTrap t n s
  | .ret t a => Sys2Proof.Machine.execRet t a s
  | .wait t a => Sys2Proof.Machine.execWait t a s
  | .loopDec t k a => Sys2Proof.Machine.execLoopDec t k a s
  | .sret t => Sys2Proof.Machine.execSret t s
  | .mfsr t d n => Sys2Proof.Machine.execMfsr t d n s
  | .mtsr t n a => Sys2Proof.Machine.execMtsr t n a s
  | .tlbinv t a => Sys2Proof.Machine.execTlbinv t a s
  | .tlbinva t => Sys2Proof.Machine.execTlbinva t s
  | .agpause t a => Sys2Proof.Machine.execAgpause t a s
  | .agpatch t a => Sys2Proof.Machine.execAgpatch t a s
  | .fltack t a => Sys2Proof.Machine.execFltack t a s
  | .illegalWord detail => Sys2Proof.Machine.execIllegalWord detail s
  | .skippedWord => Sys2Proof.Machine.execSkippedWord s
  | .tokenHop e q parityBad => Sys2Proof.Machine.execTokenHop e q parityBad s
  | .tokenDeliver e q => Sys2Proof.Machine.execTokenDeliver e q s
  | .requestAdmit r => Sys2Proof.Machine.execRequestAdmit r s
  | .requestServe r macBad => Sys2Proof.Machine.execRequestServe r macBad s
  | .deferredReadWake r => Sys2Proof.Machine.execDeferredReadWake r s
  | .requestReply r => Sys2Proof.Machine.execRequestReply r s
  | .waveRequestRelease r => Sys2Proof.Machine.execWaveRequestRelease r s
  | .fenceComplete u n => Sys2Proof.Machine.execFenceComplete u n s
  | .atEmit e n => Sys2Proof.Machine.execAtEmit e n s
  | .sequencerWaitExpire g => Sys2Proof.Machine.execSequencerWaitExpire g s
  | .allowanceRecall g => Sys2Proof.Machine.execAllowanceRecall g s
  | .dry tag => Sys2Proof.Machine.execDry tag s
  | .graceExpired tag => Sys2Proof.Machine.execGraceExpired tag s
  | .boostFallback tag => Sys2Proof.Machine.execBoostFallback tag s
  | .caskPour g => Sys2Proof.Machine.execCaskPour g s
  | .pourGrant drawOk => Sys2Proof.Machine.execPourGrant drawOk s
  | .commitTask tag => Sys2Proof.Machine.execCommitTask tag s
  | .vanish tag => Sys2Proof.Machine.execVanish tag s
  | .bankHandover e bank => Sys2Proof.Machine.execBankHandover e bank s
  | .matrixIntake e => Sys2Proof.Machine.execMatrixIntake e s
  | .matrixTileStep e => Sys2Proof.Machine.execMatrixTileStep e s
  | .matrixTileWrite e => Sys2Proof.Machine.execMatrixTileWrite e s
  | .converterToken e => Sys2Proof.Machine.execConverterToken e s
  | .cornerTurnCollect e => Sys2Proof.Machine.execCornerTurnCollect e s
  | .cornerTurnEmit e => Sys2Proof.Machine.execCornerTurnEmit e s
  | .agAccess g ag => Sys2Proof.Machine.execAgAccess g ag s
  | .streamCommandRetire g ag => Sys2Proof.Machine.execStreamCommandRetire g ag s
  | .sparseSetStep g ag => Sys2Proof.Machine.execSparseSetStep g ag s
  | .lcIntake e b => Sys2Proof.Machine.execLcIntake e b s
  | .lcLoadBlock e => Sys2Proof.Machine.execLcLoadBlock e s
  | .lcSweep e => Sys2Proof.Machine.execLcSweep e s
  | .lcQueueOp e => Sys2Proof.Machine.execLcQueueOp e s
  | .raceIntake e b => Sys2Proof.Machine.execRaceIntake e b s
  | .raceRelease e => Sys2Proof.Machine.execRaceRelease e s
  | .placerSizing g => Sys2Proof.Machine.execPlacerSizing g s
  | .placePreload g => Sys2Proof.Machine.execPlacePreload g s
  | .ploadComplete e pos => Sys2Proof.Machine.execPloadComplete e pos s
  | .planeSwap e => Sys2Proof.Machine.execPlaneSwap e s
  | .loadChange tag => Sys2Proof.Machine.execLoadChange tag s
  | .freezePoint e => Sys2Proof.Machine.execFreezePoint e s
  | .gridCallSwitch tag => Sys2Proof.Machine.execGridCallSwitch tag s
  | .gridReturn tag => Sys2Proof.Machine.execGridReturn tag s
  | .waveEntryPoint u => Sys2Proof.Machine.execWaveEntryPoint u s
  | .wavePoint e => Sys2Proof.Machine.execWavePoint e s
  | .waveComplete tag => Sys2Proof.Machine.execWaveComplete tag s
  | .suspension tag => Sys2Proof.Machine.execSuspension tag s
  | .taskResume tag => Sys2Proof.Machine.execTaskResume tag s
  | .tagScrub tag => Sys2Proof.Machine.execTagScrub tag s
  | .forkStall e cls => Sys2Proof.Machine.execForkStall e cls s
  | .progressStall tag => Sys2Proof.Machine.execProgressStall tag s
  | .barrierShort r => Sys2Proof.Machine.execBarrierShort r s
  | .trapEntry g => Sys2Proof.Machine.execTrapEntry g s
  | .tableWalk r victim => Sys2Proof.Machine.execTableWalk r victim s
  | .slotTableRead p n => Sys2Proof.Machine.execSlotTableRead p n s
  | .slotStart p n => Sys2Proof.Machine.execSlotStart p n s
  | .launch p n => Sys2Proof.Machine.execLaunch p n s
  | .timeBaseAdjust offset => Sys2Proof.Machine.execTimeBaseAdjust offset s
  | .hostWrite vf addr data ide => Sys2Proof.Machine.execHostWrite vf addr data ide s
  | .hostRead vf addr len ide => Sys2Proof.Machine.execHostRead vf addr len ide s
  | .tdiStateChange p st => Sys2Proof.Machine.execTdiStateChange p st s
  | .ideKeyProgram stream key => Sys2Proof.Machine.execIdeKeyProgram stream key s
  | .getMeasurements index rawLog => Sys2Proof.Machine.execGetMeasurements index rawLog s
  | .keyExchange peer => Sys2Proof.Machine.execKeyExchange peer s
  | .keyUpdate port tx key salt => Sys2Proof.Machine.execKeyUpdate port tx key salt s
  | .berovoFrameReceive port header payload tagOk => Sys2Proof.Machine.execBerovoFrameReceive port header payload tagOk s
  | .creditReturn port vc beats => Sys2Proof.Machine.execCreditReturn port vc beats s
  | .remoteRequest src serial rid pa size op how => Sys2Proof.Machine.execRemoteRequest src serial rid pa size op how s
  | .remoteReply serial rid words cause => Sys2Proof.Machine.execRemoteReply serial rid words cause s
  | .resolve src serial commit => Sys2Proof.Machine.execResolve src serial commit s
  | .resolveAck tag target => Sys2Proof.Machine.execResolveAck tag target s
  | .remoteAccessTimeout r => Sys2Proof.Machine.execRemoteAccessTimeout r s
  | .sensorSample g kind code => Sys2Proof.Machine.execSensorSample g kind code s
  | .elementGate e => Sys2Proof.Machine.execElementGate e s
  | .elementWake e => Sys2Proof.Machine.execElementWake e s
  | .guardSupplyShortfall g => Sys2Proof.Machine.execGuardSupplyShortfall g s
  | .sramSoftError g => Sys2Proof.Machine.execSramSoftError g s
  | .reset boot => Sys2Proof.Machine.execReset boot s
  | .featureAck lo hi => Sys2Proof.Machine.execFeatureAck lo hi s
  | .firmwareUpdate image => Sys2Proof.Machine.execFirmwareUpdate image s
  | .suspendRequest g => Sys2Proof.Machine.execSuspendRequest g s
  | .endSuspendedTask g tag => Sys2Proof.Machine.execEndSuspendedTask g tag s
  | .registerWrite r v => Sys2Proof.Machine.execRegisterWrite r v s
  | .monitorCallFeatures g => Sys2Proof.Machine.execMonitorCallFeatures g s
  | .monitorCallGroveMap g => Sys2Proof.Machine.execMonitorCallGroveMap g s
  | .monitorCallGuardDrops g => Sys2Proof.Machine.execMonitorCallGuardDrops g s
  | .monitorCallReplaceImage g => Sys2Proof.Machine.execMonitorCallReplaceImage g s
  | .monitorCallInvalid g => Sys2Proof.Machine.execMonitorCallInvalid g s
  | .zwitexTime t => Sys2Proof.Machine.execZwitexTime t s
  | .zwitexModuleNumber n => Sys2Proof.Machine.execZwitexModuleNumber n s
  | .zwitexHopTable m hops => Sys2Proof.Machine.execZwitexHopTable m hops s
  | .zwitexFirmwareTransfer image => Sys2Proof.Machine.execZwitexFirmwareTransfer image s
  | .zwitexEventLogRead => Sys2Proof.Machine.execZwitexEventLogRead s
  | .zwitexQuarantineClear g kind => Sys2Proof.Machine.execZwitexQuarantineClear g kind s
  | .zwitexPartitionCommand c => Sys2Proof.Machine.execZwitexPartitionCommand c s
  | .zwitexLostModule m => Sys2Proof.Machine.execZwitexLostModule m s
  | .groveRestore g signed selfTest => Sys2Proof.Machine.execGroveRestore g signed selfTest s
  | .linkFailure port => Sys2Proof.Machine.execLinkFailure port s

end Sys2Proof.Machine
end

