-- ==== Sys2Proof/Machine/Step.lean ====
section
/-! DEFINITION. One step of the module: one move of the reference machine (R91, R93). -/

namespace Sys2Proof.Machine

/-- The next move is taken; one that is not enabled leaves the machine as it is. Words are issued by fire and issue moves only. -/
def step (s : State) : Host.Outcome State Fault Refusal :=
  match nextMove s with
  | (.fire e, s) =>
    match selectSlot s e with
    | some (k, n) => exec (slotInstr s e n) { s with cur := .slot e k n }
    | none => .next s
  | (.issue g, s) =>
    if mayIssue s g then
      if fetchDenied (s.grove g) then .next (causeAt { s with cur := .word g (s.grove g).pc } 0x1C2 0 0)
      else exec (seqInstr s g) { s with cur := .word g (s.grove g).pc }
    else .next s
  | (.ev i, s) => if isMove i then exec i s else .next s

/-- The state with an instruction placed where step fetches its next one, and that move chosen. -/
def State.withFetchWord (s : State) (nbits w : Nat) : State := placeInstr s nbits w

end Sys2Proof.Machine
end

