-- ==== Sys2Proof/WellFormed.lean ====
section
/-! DEFINITION. Well-formed instruction words: what the encoding chapter asks of a word before any unit is considered. Operand codes are checked per unit (sigDetails), since units differ in them (R107). -/

namespace Sys2Proof

/-- Is a row an instruction word (R105)? -/
def isWord (i : Instr) : Bool := !(encode i).isEmpty

/-- Field T of a word: entry 63 marks a continuation word and is no first word (R108). -/
def triggerOk (i : Instr) : Bool :=
  match encode i with
  | w :: _ => fld w 26 6 != 63
  | [] => false

/-- Conditions 6 and 7 of cmp and cmpi are unassigned (R112). -/
def conditionOk : Instr → Bool
  | .cmp _ c _ _ _ => decide (c.toNat < 6)
  | .cmpi _ c _ _ _ => decide (c.toNat < 6)
  | _ => true

/-- Raw numbers in range, lane types and modes accepted, SEQ below 0xFF (R97, R115, R138). -/
def detailsOk (i : Instr) : Bool := (Machine.wordSig i).details.isEmpty

/-- A well-formed instruction word. -/
def wellFormed (i : Instr) : Bool := isWord i && triggerOk i && conditionOk i && detailsOk i

end Sys2Proof
end

