-- ==== Sys2Proof/Certificates/Slice0/Obligations.lean ====
section
/-! DEFINITION. The statements for the provers: one Prop each, over exec, step and decode, with the words they share in the namespace Claims. A statement about a word's effect has issuable as its hypothesis: the word is legal, at its level, ready and paid for (R29, R32, R115, R121, R316); what issuable asks of a state is stated by ReadyRegisterWordsIssue, and what happens without it by the three statements on illegal, waiting and refused words. -/

namespace Sys2Proof.Claims

open Sys2Proof Sys2Proof.Machine

/-- Constructors with a trigger entry, a destination and one or two sources. -/
abbrev Form1 := BitVec 6 → BitVec 6 → BitVec 6 → Instr
abbrev Form2 := BitVec 6 → BitVec 6 → BitVec 6 → BitVec 6 → Instr

/-- Functions of the register table of R123, by its own words; the shift count is the low six bits of b. -/
def twoSource : List (Form2 × (Word → Word → Word)) := [
  (.add, fun x y => BitVec.ofNat 64 (x.toNat + y.toNat)),
  (.sub, fun x y => BitVec.ofInt 64 (x.toInt - y.toInt)),
  (.mul, fun x y => BitVec.ofNat 64 (x.toNat * y.toNat)),
  (.mulh, fun x y => (x.signExtend 128 * y.signExtend 128).extractLsb' 64 64),
  (.mulhu, fun x y => (x.zeroExtend 128 * y.zeroExtend 128).extractLsb' 64 64),
  (.rotl, fun x y => x.rotateLeft (y.toNat % 64)),
  (.and, fun x y => x &&& y),
  (.or, fun x y => x ||| y),
  (.xor, fun x y => x ^^^ y),
  (.andn, fun x y => x &&& ~~~y),
  (.orn, fun x y => x ||| ~~~y),
  (.shl, fun x y => BitVec.ofNat 64 (x.toNat * 2 ^ (y.toNat % 64))),
  (.shr, fun x y => BitVec.ofNat 64 (x.toNat / 2 ^ (y.toNat % 64))),
  (.sar, fun x y => BitVec.ofInt 64 (x.toInt / 2 ^ (y.toNat % 64))),
  (.min, fun x y => if x.toInt ≤ y.toInt then x else y),
  (.max, fun x y => if x.toInt ≤ y.toInt then y else x),
  (.minu, fun x y => if x.toNat ≤ y.toNat then x else y),
  (.maxu, fun x y => if x.toNat ≤ y.toNat then y else x)]

/-- Low bit, width and mask of a field descriptor (R125). -/
def lowBit (y : Word) : Nat := y.toNat % 64
def fieldBits (y : Word) : Nat := min (y.toNat / 256 % 64 + 1) (64 - lowBit y)
def maskOf (y : Word) : Word := BitVec.ofNat 64 ((2 ^ fieldBits y - 1) * 2 ^ lowBit y)

/-- Functions of the unary table (R126). -/
def unary : List (Form1 × (Word → Word)) := [
  (.mov, fun x => x),
  (.abs, fun x => BitVec.ofNat 64 x.toInt.natAbs),
  (.clz, fun x => if x = 0 then 64 else BitVec.ofNat 64 (63 - Nat.log2 x.toNat)),
  (.ctz, fun x => BitVec.ofNat 64 (((List.range 64).find? (fun j => x.getLsbD j)).getD 64)),
  (.popc, fun x => BitVec.ofNat 64 ((List.range 64).filter (fun j => x.getLsbD j)).length)]

/-- Immediate forms with a source (R127). -/
def immediate : List ((BitVec 6 → BitVec 6 → BitVec 6 → BitVec 6 → Instr) × (Word → Nat → Word)) := [
  (.shli, fun x n => BitVec.ofNat 64 (x.toNat * 2 ^ n)),
  (.shri, fun x n => BitVec.ofNat 64 (x.toNat / 2 ^ n)),
  (.sari, fun x n => BitVec.ofInt 64 (x.toInt / 2 ^ n)),
  (.extend, fun x n => BitVec.ofInt 64 (Int.bmod x.toNat (2 ^ (n + 1))))]

/-- Conditions 0 to 5 of R129 on 64-bit patterns. -/
def holds (c : Nat) (x y : Word) : Prop :=
  match c with
  | 0 => x = y
  | 1 => x ≠ y
  | 2 => x.toInt < y.toInt
  | 3 => x.toInt ≤ y.toInt
  | 4 => x.toNat < y.toNat
  | _ => x.toNat ≤ y.toNat

/-- The word of an F-RRR instruction: entry T, major opcode, d, a, b and minor opcode in their places (R105). -/
def rrrWord (t : BitVec 6) (op d a b m : Nat) : Nat := t.toNat * 2 ^ 26 + op * 2 ^ 20 + d * 2 ^ 14 + a * 2 ^ 8 + b * 2 ^ 2 + m

/-- A sequencer's word at task level, and one at supervisor level. -/
def atTask (s : State) : Prop := ∃ g a, s.cur = .word g a ∧ (s.grove g).level = 0
def atSupervisor (s : State) : Prop := ∃ g a, s.cur = .word g a ∧ (s.grove g).level ≠ 0

/-- Is the register that a code names in the issuing unit the one that a code names in a unit? Registers s0 to s7 are shared by the strands of an element. -/
def sameRegister (s u : Cur) (d c : BitVec 6) : Prop :=
  d = c ∧ match s, u with
    | .slot e k _, .slot e' k' _ => e = e' ∧ (k = k' ∨ 24 ≤ d.toNat)
    | .word g _, .word g' _ => g = g'
    | _, _ => False

/-- Every register of every unit but the destination reads as before, and code 16 writes none (R22, R24, R107). -/
def registersKept (s t : State) (d : Option (BitVec 6)) : Prop :=
  ∀ u c, readable (curKind u) true c = true → (∀ x, d = some x → ¬ sameRegister s.cur u x c) →
    regVal { t with cur := u } c = regVal { s with cur := u } c

/-- Predicates of every unit are as before. -/
def predicatesKept (s t : State) : Prop := ∀ u, curPreds { t with cur := u } = curPreds { s with cur := u }

/-- Sticky registers of strands, nodes and sequencers are as before. -/
def stickyKept (s t : State) : Prop :=
  (∀ e, (t.elem e).sticky = (s.elem e).sticky ∧ (t.elem e).matrixSticky = (s.elem e).matrixSticky ∧ (t.elem e).convSticky = (s.elem e).convSticky) ∧
  (∀ g, (t.grove g).sticky = (s.grove g).sticky)

/-- Every system register of every grove is as before, and so is the partition map that PART reads; the guard count of a partition may change where a supervisor word is issued (R303, R362, R412). -/
def systemKept (s t : State) : Prop :=
  (∀ g n, n ≠ 31 ∨ s.supervising = false → readSys t g n = readSys s g n) ∧
  (∀ p, { t.part p with guard := 0 } = { s.part p with guard := 0 }) ∧
  (∀ g, (t.grove g).traps = (s.grove g).traps ∧ (t.grove g).faults = (s.grove g).faults ∧ (t.grove g).stopped = (s.grove g).stopped)

/-- Every byte reads as before, and so do the presence, sector and window metadata and the owners of banks. -/
def memoryKept (s t : State) : Prop :=
  (∀ a, byteAt t.mem a = byteAt s.mem a) ∧ t.words = s.words ∧ t.sectors = s.sectors ∧ t.windows = s.windows ∧
  (∀ b, (t.bank b).owner = (s.bank b).owner)

/-- Requests, ports, tasks' tags, contexts and what has left the module are as before. -/
def restKept (s t : State) : Prop :=
  t.reqs = s.reqs ∧ t.ports = s.ports ∧ t.tags = s.tags ∧ t.ctxs = s.ctxs ∧ t.outputs = s.outputs ∧ t.tb = s.tb

/-- Words that read sources and write one destination, and nothing else (R123 to R128, R132). -/
def valueWord : Instr → Option (BitVec 6)
  | .add _ d _ _ | .sub _ d _ _ | .mul _ d _ _ | .mulh _ d _ _ | .mulhu _ d _ _ | .rotl _ d _ _
  | .and _ d _ _ | .or _ d _ _ | .xor _ d _ _ | .andn _ d _ _ | .orn _ d _ _ | .shl _ d _ _ | .shr _ d _ _ | .sar _ d _ _
  | .min _ d _ _ | .max _ d _ _ | .minu _ d _ _ | .maxu _ d _ _ | .bfx _ d _ _ | .bfi _ d _ _
  | .mov _ d _ | .abs _ d _ | .clz _ d _ | .ctz _ d _ | .popc _ d _ | .selP0P3 _ d _ _ _ | .selP4P7 _ d _ _ _
  | .addi _ d _ _ | .shli _ d _ _ | .shri _ d _ _ | .sari _ d _ _ | .extend _ d _ _ | .movi _ d _ | .movh _ d _ => some d
  | _ => none

/-- Words that write one predicate, and nothing else (R129, R130). -/
def predicateWord : Instr → Option (BitVec 3)
  | .cmp _ _ k _ _ | .cmpi _ _ k _ _ | .pand _ k _ _ | .por _ k _ _ | .pxor _ k _ _ | .pnot _ k _ | .pset _ k _ | .pmov _ k _ => some k
  | _ => none

/-- A branch, call or return whose target lies outside instruction memory (R115, R132). -/
def farJump (s : State) : Instr → Prop
  | .branch _ o => 16384 ≤ (curAddr s + o.signExtend 64).toNat
  | .call _ o => 16384 ≤ (curAddr s + o.signExtend 64).toNat
  | .ret _ a => 16384 ≤ (valOf s a).toNat
  | _ => False

/-- A word that no detail of R115 makes illegal in the issuing unit, at the level it needs (R316). -/
def legalHere (s : State) (i : Instr) : Prop :=
  lowest (sigDetails (curKind s.cur) (wordSig i)) = none ∧ ((wordSig i).privileged = true → s.supervising = true)

/-- Operands of every packed-lane word with a result: VOP, LT, ST, RM, destination and sources (R109, R139 to R151). A short form has the type its name gives and RM 0. -/
def laneForm : Instr → Option (Nat × Nat × Nat × Nat × BitVec 6 × List (BitVec 6))
  | .vaddF32 _ d a b => some (0, 5, 0, 0, d, [a, b]) | .vaddBf16 _ d a b => some (0, 4, 0, 0, d, [a, b])
  | .vaddF16 _ d a b => some (0, 3, 0, 0, d, [a, b]) | .vaddI32 _ d a b => some (0, 2, 0, 0, d, [a, b])
  | .vsubF32 _ d a b => some (1, 5, 0, 0, d, [a, b]) | .vsubBf16 _ d a b => some (1, 4, 0, 0, d, [a, b])
  | .vsubF16 _ d a b => some (1, 3, 0, 0, d, [a, b]) | .vsubI32 _ d a b => some (1, 2, 0, 0, d, [a, b])
  | .vmulF32 _ d a b => some (2, 5, 0, 0, d, [a, b]) | .vmulBf16 _ d a b => some (2, 4, 0, 0, d, [a, b])
  | .vmulF16 _ d a b => some (2, 3, 0, 0, d, [a, b]) | .vmulI32 _ d a b => some (2, 2, 0, 0, d, [a, b])
  | .vminF32 _ d a b => some (5, 5, 0, 0, d, [a, b]) | .vminBf16 _ d a b => some (5, 4, 0, 0, d, [a, b])
  | .vminF16 _ d a b => some (5, 3, 0, 0, d, [a, b]) | .vminI32 _ d a b => some (5, 2, 0, 0, d, [a, b])
  | .vmaxF32 _ d a b => some (6, 5, 0, 0, d, [a, b]) | .vmaxBf16 _ d a b => some (6, 4, 0, 0, d, [a, b])
  | .vmaxF16 _ d a b => some (6, 3, 0, 0, d, [a, b]) | .vmaxI32 _ d a b => some (6, 2, 0, 0, d, [a, b])
  | .vdotBf16 _ d a b => some (11, 4, 0, 0, d, [a, b]) | .vdotE4m3 _ d a b => some (11, 7, 0, 0, d, [a, b])
  | .vdotE5m2 _ d a b => some (11, 8, 0, 0, d, [a, b]) | .vdotI8 _ d a b => some (11, 0, 0, 0, d, [a, b])
  | .vsumF32 _ d a => some (12, 5, 0, 0, d, [a]) | .vsumBf16 _ d a => some (12, 4, 0, 0, d, [a])
  | .vsumF16 _ d a => some (12, 3, 0, 0, d, [a]) | .vsumI32 _ d a => some (12, 2, 0, 0, d, [a])
  | .vabsF32 _ d a => some (7, 5, 0, 0, d, [a]) | .vabsBf16 _ d a => some (7, 4, 0, 0, d, [a])
  | .vabsF16 _ d a => some (7, 3, 0, 0, d, [a]) | .vabsI32 _ d a => some (7, 2, 0, 0, d, [a])
  | .vnegF32 _ d a => some (8, 5, 0, 0, d, [a]) | .vnegBf16 _ d a => some (8, 4, 0, 0, d, [a])
  | .vnegF16 _ d a => some (8, 3, 0, 0, d, [a]) | .vnegI32 _ d a => some (8, 2, 0, 0, d, [a])
  | .vsel8 _ d a b => some (10, 0, 0, 0, d, [a, b]) | .vsel16 _ d a b => some (10, 1, 0, 0, d, [a, b])
  | .vsel32 _ d a b => some (10, 2, 0, 0, d, [a, b]) | .vsel64 _ d a b => some (10, 6, 0, 0, d, [a, b])
  | .vsplat8 _ d a => some (22, 0, 0, 0, d, [a]) | .vsplat16 _ d a => some (22, 1, 0, 0, d, [a])
  | .vsplat32 _ d a => some (22, 2, 0, 0, d, [a]) | .vsplat64 _ d a => some (22, 6, 0, 0, d, [a])
  | .vrcpeF32 _ d a => some (13, 5, 0, 0, d, [a]) | .vrcpeF64 _ d a => some (13, 6, 0, 0, d, [a])
  | .vrsqeF32 _ d a => some (14, 5, 0, 0, d, [a]) | .vrsqeF64 _ d a => some (14, 6, 0, 0, d, [a])
  | .vexp2F32 _ d a => some (15, 5, 0, 0, d, [a]) | .vdivF32 _ d a b => some (16, 5, 0, 0, d, [a, b])
  | .vscaleF32 _ d a b => some (17, 5, 0, 0, d, [a, b]) | .vscaleBf16 _ d a b => some (17, 4, 0, 0, d, [a, b])
  | .vaddF64 _ d a b => some (0, 6, 0, 0, d, [a, b]) | .vsubF64 _ d a b => some (1, 6, 0, 0, d, [a, b])
  | .vmulF64 _ d a b => some (2, 6, 0, 0, d, [a, b]) | .vaddI16 _ d a b => some (0, 1, 0, 0, d, [a, b])
  | .vsubI16 _ d a b => some (1, 1, 0, 0, d, [a, b]) | .vaddI8 _ d a b => some (0, 0, 0, 0, d, [a, b])
  | .vsubI8 _ d a b => some (1, 0, 0, 0, d, [a, b])
  | .vaddLong _ d a b lt rm => some (0, lt.toNat, 0, rm.toNat, d, [a, b])
  | .vsubLong _ d a b lt rm => some (1, lt.toNat, 0, rm.toNat, d, [a, b])
  | .vmulLong _ d a b lt rm => some (2, lt.toNat, 0, rm.toNat, d, [a, b])
  | .vfma _ d a b c lt rm => some (3, lt.toNat, 0, rm.toNat, d, [a, b, c])
  | .vfms _ d a b c lt rm => some (4, lt.toNat, 0, rm.toNat, d, [a, b, c])
  | .vminLong _ d a b lt => some (5, lt.toNat, 0, 0, d, [a, b]) | .vmaxLong _ d a b lt => some (6, lt.toNat, 0, 0, d, [a, b])
  | .vabsLong _ d a lt => some (7, lt.toNat, 0, 0, d, [a]) | .vnegLong _ d a lt => some (8, lt.toNat, 0, 0, d, [a])
  | .vselLong _ d a b lt => some (10, lt.toNat, 0, 0, d, [a, b])
  | .vdotLong _ d a b lt rm => some (11, lt.toNat, 0, rm.toNat, d, [a, b])
  | .vsumLong _ d a lt rm => some (12, lt.toNat, 0, rm.toNat, d, [a])
  | .vrcpeLong _ d a lt => some (13, lt.toNat, 0, 0, d, [a]) | .vrsqeLong _ d a lt => some (14, lt.toNat, 0, 0, d, [a])
  | .vexp2Long _ d a lt rm => some (15, lt.toNat, 0, rm.toNat, d, [a])
  | .vdivLong _ d a b lt rm => some (16, lt.toNat, 0, rm.toNat, d, [a, b])
  | .vscaleLong _ d a b lt rm => some (17, lt.toNat, 0, rm.toNat, d, [a, b])
  | .vcvt _ d a lt st => some (18, lt.toNat, st.toNat, 0, d, [a])
  | .vshuf _ d a b lt => some (19, lt.toNat, 0, 0, d, [a, b]) | .vpack _ d a b lt => some (20, lt.toNat, 0, 0, d, [a, b])
  | .vunpk _ d a lt => some (21, lt.toNat, 0, 0, d, [a]) | .vsplatLong _ d a lt => some (22, lt.toNat, 0, 0, d, [a])
  | _ => none

/-- The destination that a reply fills (R162): the channel whose place is reserved, a register, or none for code 16. -/
def replyTo (s : State) (d : BitVec 6) : Dest :=
  match chanOf s d with
  | some ch => .chan (BitVec.ofNat 5 ch)
  | none => if isRegister s d then .reg d else .none

/-- A request that follows neither a request nor an absent request, through which a destination is passed on (R98, R164). -/
def notBehind (s : State) (r : Nat) (q : Req) : Prop :=
  ∀ p, q.pred = some p → p.req ≠ r ∧ ∀ z, (p.req, z) ∈ s.reqs → z.kind ≠ .absent

/-- One request more, with a property; every other request, every register, predicate and sticky register and all of memory as before. -/
def sends (s u : State) (p : Req → Prop) : Prop :=
  u.nextReq = s.nextReq + 1 ∧
  (∃ q, mfind u.reqs s.nextReq = some q ∧ q.src = curUnit s.cur ∧ q.strand = issueStrand s ∧ q.supervisor = s.supervising ∧ q.gen = curGen s ∧ p q) ∧
  (∀ r, r ≠ s.nextReq → mfind s.reqs r = none → mfind u.reqs r = none) ∧
  (∀ r q, r ≠ s.nextReq → mfind s.reqs r = some q → notBehind s s.nextReq q → mfind u.reqs r = some q) ∧
  registersKept s u none ∧ predicatesKept s u ∧ stickyKept s u ∧ memoryKept s u

/-- As sends, for a request with wave fields: an earlier request of its chain whose PRED it is takes it as its predecessor, and changes in nothing else (R98). -/
def sendsInChain (s u : State) (p : Req → Prop) : Prop :=
  u.nextReq = s.nextReq + 1 ∧
  (∃ q, mfind u.reqs s.nextReq = some q ∧ q.src = curUnit s.cur ∧ q.strand = issueStrand s ∧ q.supervisor = s.supervising ∧ q.gen = curGen s ∧ p q) ∧
  (∀ r, r ≠ s.nextReq → mfind s.reqs r = none → mfind u.reqs r = none) ∧
  (∀ r q, r ≠ s.nextReq → mfind s.reqs r = some q → notBehind s s.nextReq q →
    ∃ x, mfind u.reqs r = some { q with pred := x } ∧ (x = q.pred ∨ q.pred = none ∧ x.map (fun y => y.req) = some s.nextReq)) ∧
  registersKept s u none ∧ predicatesKept s u ∧ stickyKept s u ∧ memoryKept s u

/-- A request goes to the target its address names (R73): to a bank at once, to GLOBAL by its translation. -/
def aimed (s : State) (a : Word) (q : Req) : Prop :=
  match resolveAddr s (curUnit s.cur) a.toNat with
  | some (.bank e off) => q.addr = a.toNat ∧ q.target = .bank e off ∧ q.scope = bankScope (curUnit s.cur) e
  | some (.global va) => q.addr = va ∧ (tlbFind s (groveOfUnit (curUnit s.cur)) (unitCtx s (curUnit s.cur)) va = none → q.stage = .xlate)
  | none => False

/-- A request without wave fields to a bank is on its way. -/
def under (s : State) (a : Word) (q : Req) : Prop :=
  q.wave = none ∧ ∀ e off, resolveAddr s (curUnit s.cur) a.toNat = some (.bank e off) → q.stage = .sent

/-- The atomics of R168 with a and b as address and operand. -/
def atomics : List (Form2 × AtomicOp) := [
  (.aadd, .add), (.aaddf, .addf), (.amin, .min), (.amax, .max), (.aminu, .minu), (.amaxu, .maxu), (.aand, .and), (.aor, .or), (.axch, .xchg), (.acas, .cas)]

/-- The state in which a cause at issue is raised: the cost taken and nothing else done (R163). -/
def paid (s : State) (i : Instr) : State := advanceArb (payWord s (wordCost s (wordSig i)))

/-- Address, size and whether only banks serve it, of a memory word whose operands are present (R161 to R176). -/
def accessOf (s : State) : Instr → Option (Word × Nat × Bool)
  | .ld _ _ a n => (srcVal s a).map (fun v => (v + n.signExtend 64 * 8, 8, false))
  | .st _ d a n => if (srcVal s d).isSome then (srcVal s a).map (fun v => (v + n.signExtend 64 * 8, 8, false)) else none
  | .ldS _ _ a c => (srcVal s a).map (fun v => (v, 2 ^ c.toNat, false))
  | .ldZ _ _ a c => (srcVal s a).map (fun v => (v, 2 ^ c.toNat, false))
  | .stNarrow _ d a c => if (srcVal s d).isSome then (srcVal s a).map (fun v => (v, 2 ^ c.toNat, false)) else none
  | .ldg _ _ a _ _ _ => (srcVal s a).map (fun v => (v, 8, false))
  | .stg _ d a _ _ _ => if (srcVal s d).isSome then (srcVal s a).map (fun v => (v, 8, false)) else none
  | .acc _ a b => if (srcVal s b).isSome then (srcVal s a).map (fun v => (v, 8, true)) else none
  | .tfull _ a => (srcVal s a).map (fun v => (v, 8, true))
  | .tempty _ a => (srcVal s a).map (fun v => (v, 8, true))
  | .barArrive _ a _ => (srcVal s a).map (fun v => (v, 8, true))
  | .barWait _ a _ => (srcVal s a).map (fun v => (v, 8, true))
  | .aadd _ _ a b | .aaddf _ _ a b | .amin _ _ a b | .amax _ _ a b | .aminu _ _ a b | .amaxu _ _ a b | .aand _ _ a b | .aor _ _ a b
  | .axch _ _ a b | .acas _ _ a b => if (srcVal s b).isSome then (srcVal s a).map (fun v => (v, 8, true)) else none
  | _ => none

/-- Fences of the issuing unit. -/
def fencesOf (s : State) (u : UnitId) : List Fence :=
  match u with
  | .elem e => (s.elem e).fences
  | .seq g => (s.grove g).fences
  | _ => []

/-- A slot's word changed nothing of registers, predicates, sticky registers and memory. -/
def quiet (s u : State) : Prop := registersKept s u none ∧ predicatesKept s u ∧ stickyKept s u ∧ memoryKept s u

/-- A stream word queued one command of a kind over an AG's staging state, with its sync-FIFO flags, behind those already queued, in the grove's issue order (R223). -/
def queues (s u : State) (g n : Nat) (kind : AgKind) (push : BitVec 1) (pfifo : BitVec 4) (pop : BitVec 1) (qfifo : BitVec 4) : Prop :=
  (∃ c, ((u.grove g).ag n).queue = ((s.grove g).ag n).queue ++ [c] ∧ c.kind = kind ∧ c.stage = ((s.grove g).ag n).staging ∧
    c.push = (if push = 1 then some pfifo else none) ∧ c.pop = (if pop = 1 then some qfifo else none) ∧ c.order = (s.grove g).nextOrder ∧ c.started = false ∧
    c.supervisor = s.supervising) ∧
  (u.grove g).nextOrder = (s.grove g).nextOrder + 1 ∧ ((u.grove g).ag n).staging = ((s.grove g).ag n).staging ∧ quiet s u

/-- Every command of an AG of a grove has retired: none is in its queue, and none in a frame that an element of the grove keeps (R229, R258). -/
def haveRetired (s : State) (g n : Nat) : Prop :=
  (∀ a ∈ (s.grove g).ags, a.1 = n → a.2.queue = []) ∧ ∀ x ∈ s.elems, groveOf x.1 = g → ∀ f ∈ keptFrames x.2, ∀ a ∈ f.flight.ags, a.1 = n → a.2.queue = []

/-- Tokens of every queue of the fabric but those named are as before. -/
def fabricKept (s u : State) (qs : List Nat) : Prop := ∀ q, q ∉ qs → u.tokens q = s.tokens q

/-- Every request but one is as before. -/
def requestsKept (s u : State) (r : Nat) : Prop := ∀ x, x ≠ r → mfind u.reqs x = mfind s.reqs x

/-- Every request but one is as before; one that follows it, at once or behind absent requests, may learn its destination (R98, R164). -/
def requestsTold (s u : State) (r : Nat) : Prop :=
  ∀ x, x ≠ r → (mfind s.reqs x = none → mfind u.reqs x = none) ∧
    ∀ y, mfind s.reqs x = some y → notBehind s r y → mfind u.reqs x = some y

/-- A request that its port serves next at a word of an element's bank that its task owns and no window covers (R78, R85, R96). -/
def atPlainWord (s : State) (r : Nat) (q : Req) (e off : Nat) : Prop :=
  mfind s.reqs r = some q ∧ q.stage = .queued ∧ q.target = .bank e off ∧ nextServed s (portOf q.target) = some r ∧
  ownsBank s q (e * 6 + off / 0x10000) = true ∧ windowOf (s.elem e).active off = none ∧ (s.elem e).gated = false ∧ portStopped s q = false

/-- A request for eight bytes that its port serves next at a word of a window of an organisation: 0 plain, 1 operand store, 2 FIFO, 3 line buffer (R76, R78, R80 to R82). -/
def atWindow (s : State) (r : Nat) (q : Req) (e off org : Nat) (d : Desc) : Prop :=
  mfind s.reqs r = some q ∧ q.stage = .queued ∧ q.target = .bank e off ∧ nextServed s (portOf q.target) = some r ∧ q.size = 8 ∧ off % 8 = 0 ∧
  ownsBank s q (e * 6 + off / 0x10000) = true ∧ windowOf (s.elem e).active off = some d ∧ winOrg d = org ∧
  intakeWindow (s.elem e).active ≠ some (winNo d) ∧ (s.elem e).gated = false ∧ portStopped s q = false

/-- A task's request for eight bytes that its port serves next at a word of a sector of an SA page in this module's HBM, whose MAC holds (R83, R388). -/
def atSector (s : State) (r : Nat) (q : Req) (pa : Nat) : Prop :=
  mfind s.reqs r = some q ∧ q.stage = .queued ∧ q.target = .hbm pa ∧ nextServed s (portOf q.target) = some r ∧ q.size = 8 ∧ pa % 8 = 0 ∧
  q.pl = false ∧ q.carry = false ∧ q.supervisor = false ∧ (∀ m a b, q.src ≠ .remote m a b) ∧ (s.sector (pa / 64)).st ≠ 3 ∧ macFails s (pa / 64) q.key = false

/-- A request that its port serves is answered with a value, fails by a cause, or is deferred, and nothing else changes. -/
def answers (s : State) (r : Nat) (q : Req) (v : Word) : Prop :=
  ∃ u, exec (.requestServe r false) s = .next u ∧ mfind u.reqs r = some { q with stage := .done v 0 } ∧ requestsKept s u r ∧ quiet s u
def failsWith (s : State) (r : Nat) (q : Req) (k : Nat) : Prop :=
  ∃ u, exec (.requestServe r false) s = .next u ∧ mfind u.reqs r = some { q with stage := .failed k } ∧ requestsKept s u r ∧ quiet s u
def isDeferred (s : State) (r : Nat) (q : Req) : Prop :=
  (s.port (portOf q.target)).deferred.length < 64 → ∃ u, exec (.requestServe r false) s = .next u ∧
    mfind u.reqs r = some { q with stage := .deferred, since := s.tb.toNat } ∧ requestsKept s u r ∧ quiet s u

/-- A store that its port serves has written the eight bytes at an address and no others, and has ended. -/
def stores (s u : State) (r a : Nat) (v : Word) : Prop :=
  exec (.requestServe r false) s = .next u ∧ wordAt u.mem a = v ∧ (∀ b, b < a ∨ a + 8 ≤ b → byteAt u.mem b = byteAt s.mem b) ∧
  mfind u.reqs r = none ∧ requestsKept s u r ∧ registersKept s u none ∧ predicatesKept s u ∧ stickyKept s u

/-- What becomes of a request whose leaf has been found, in the state in which it is installed (R83, R84, R341, R342): it fails by a cause that the leaf gives, or has its target, the parts that a void reaches, and, outside a chain, is sent; a request that goes to one page changes the TLB no more. -/
def translates (s p : State) (r v : Nat) (q : Req) (leaf : Word) (size : Nat) : Prop :=
  (∀ k, (requestParts p q leaf size).2 = .error k → ∃ u, exec (.tableWalk r v) s = .next u ∧ mfind u.reqs r = some { q with stage := .failed k } ∧ requestsKept s u r ∧ quiet s u) ∧
  (∀ parts, (requestParts p q leaf size).2 = .ok parts → ∃ u x, exec (.tableWalk r v) s = .next u ∧ mfind u.reqs r = some x ∧ (q.wave = none → x.stage = .sent) ∧
    x.target = leafTarget s (unitPart s q.src) leaf size q.addr ∧ x.addr = q.addr ∧ x.data = q.data ∧ x.kind = q.kind ∧ x.parts = parts ∧ x.pl = leafPL leaf ∧
    ((∀ n, q.kind ≠ .void n) → (u.grove (groveOfUnit q.src)).tlb = (p.grove (groveOfUnit q.src)).tlb) ∧ requestsTold s u r ∧ quiet s u)

/-- New value of an atomic but addf (R168). -/
def atomicValue (op : AtomicOp) (old b c : Word) : Word :=
  match op with
  | .add => BitVec.ofNat 64 (old.toNat + b.toNat)
  | .min => if old.toInt ≤ b.toInt then old else b
  | .max => if old.toInt ≤ b.toInt then b else old
  | .minu => if old.toNat ≤ b.toNat then old else b
  | .maxu => if old.toNat ≤ b.toNat then b else old
  | .and => old &&& b
  | .or => old ||| b
  | .xchg => b
  | .cas => if old = c then b else old
  | .addf => old

/-- A live task that has vanished: its tag says so, its groves have no task, and it has no drops (R198). -/
def hasVanished (s u : State) (t : Nat) : Prop :=
  mget TagState.free u.tags t = .vanished ∧ (∀ h ∈ (s.task t).groves, (u.grove h).task = none) ∧ balance u t = 0

/-- A grove's queue of trap records is one longer, by a record of a cause and source (R307, R309). -/
def trapped (s u : State) (g cause src : Nat) : Prop :=
  ∃ x, (u.grove g).traps = (s.grove g).traps ++ [x] ∧ x.cause = cause ∧ x.src = src

/-- Causes that go to the supervisor vector (R115, R305, R306): details 0 to 9 of class 0, 0 to 5 of class 1, 0 to 9 of class 2, 0 to 5 of class 3, 0 and 2 to 4 of class 4, 1 to 19 of class 5, 0 to 8 of class 6 and 0 to 3 of class 7. The rest are recorded without a trap, logged, the monitor's, or never raised. -/
def toSupervisor (c : Nat) : Prop :=
  match c / 64, c % 64 with
  | 0, n => n ≤ 9
  | 1, n => n ≤ 5
  | 2, n => n ≤ 9
  | 3, n => n ≤ 5
  | 4, n => n = 0 ∨ 2 ≤ n ∧ n ≤ 4
  | 5, n => 1 ≤ n ∧ n ≤ 19
  | 6, n => n ≤ 8
  | 7, n => n ≤ 3
  | _, _ => False

/-- A grove has room for a trap record (R307). -/
def trapRoom (s : State) (g : Nat) : Prop := (s.grove g).traps.length < 16 ∧ (s.grove g).waitingTraps = []

/-- What the flags of a completed word of an element's slot come to (R56): with none of them enabled nothing of the system state changes; else the element stops with the class-1 cause of the lowest one enabled. -/
def flagTrap (s u : State) (e : Nat) (f : Flags) : Prop :=
  (f &&& trapEnables s = 0 → systemKept s u) ∧
  (f &&& trapEnables s ≠ 0 → (u.elem e).stopped = true ∧ (trapRoom s (groveOf e) → ∃ n, n < 6 ∧ (f &&& trapEnables s).getLsbD n = true ∧
    (∀ m, m < n → (f &&& trapEnables s).getLsbD m = false) ∧ trapped s u (groveOf e) (0x040 + n) 0))

/-- A slot's strand has taken flags into its sticky register, and the other strands' are as before (R54). -/
def takesFlags (s u : State) (e : Nat) (k : BitVec 2) (f : Flags) : Prop :=
  (u.elem e).sticky[k.toNat]? = some (((s.elem e).sticky[k.toNat]?.getD 0) ||| f) ∧ ∀ j : BitVec 2, j ≠ k → (u.elem e).sticky[j.toNat]? = (s.elem e).sticky[j.toNat]?

/-- An inbound channel of an element has lost its head token, and every other channel is as before. -/
def takesHead (s u : State) (e ch : Nat) : Prop :=
  (u.elem e).active.fifo ch = ((s.elem e).active.fifo ch).tail ∧ ∀ c, c ≠ ch → (u.elem e).active.fifo c = (s.elem e).active.fifo c

/-- An outbound channel of an element has one token more, with a property. -/
def sendsToken (s u : State) (e ch : Nat) (p : Token → Prop) : Prop :=
  ∃ x, u.tokens (queueKey e (.out (BitVec.ofNat 5 ch))) = s.tokens (queueKey e (.out (BitVec.ofNat 5 ch))) ++ [x] ∧ p x

/-- Signed byte n of a tile in memory, for the INT8 class (R36, R213). -/
def tileByte (s : State) (e : Nat) (w : Desc) (buf n : Nat) : Int :=
  Int.bmod (byteAt s.mem (bankAddr e (bufOff w buf 0) + n)).toNat 256

/-- Selector j of a wiring word (R241). -/
def selectorOf (w : Word) (j : Nat) : Nat := w.toNat / 2 ^ (10 * j) % 2 ^ 10

/-- 2 to an integer power. -/
def twoTo (e : Int) : Rat := if 0 ≤ e then ((2 ^ e.toNat : Nat) : Rat) else 1 / ((2 ^ (-e).toNat : Nat) : Rat)

/-- How far two numbers lie apart. -/
def apart (x y : Rat) : Rat := if x ≤ y then y - x else x - y

/-- Is an encoding a NaN of its format (R36, R37)? -/
def isNanOf (f : FpFormat) (x : Nat) : Prop :=
  match f.specials with
  | .ieee => f.inf < x % f.signBit
  | .oneNan => x % f.signBit + 1 = f.signBit
  | .none => False

/-- The real number of a finite encoding, by the fields of R36; under flush a subnormal is zero (R43). -/
def realOf (f : FpFormat) (flush : Bool) (x : Nat) : Option Rat :=
  let ex := x % f.signBit / 2 ^ f.manBits
  let man := x % 2 ^ f.manBits
  let magnitude : Rat :=
    if ex = 0 then (if flush then 0 else (man : Rat) * twoTo (1 - (f.bias : Int) - f.manBits))
    else ((2 ^ f.manBits + man : Nat) : Rat) * twoTo ((ex : Int) - f.bias - f.manBits)
  let finite : Bool := match f.specials with
    | .ieee => decide (x % f.signBit < f.inf)
    | .oneNan => decide (x % f.signBit + 1 < f.signBit)
    | .none => true
  if finite then some (if x / f.signBit % 2 = 1 then -magnitude else magnitude) else none

/-- Place of an encoding of IEEE 754's kind among the numbers (R36, R43): its value, among the finite ones, or an infinity below or above them all; a NaN has none. -/
def placeOf (f : FpFormat) (flush : Bool) (x : Nat) : Option (Int × Rat) :=
  if x % f.signBit = f.inf then some (if x / f.signBit % 2 = 1 then -1 else 1, 0) else (realOf f flush x).map (fun v => (0, v))

/-- Does one place lie below another? -/
def liesBelow (p q : Int × Rat) : Prop := p.1 < q.1 ∨ p.1 = q.1 ∧ p.2 < q.2

/-- Is an encoding what a mode makes of a real number that does not overflow its format (R40): the nearer neighbour and on a tie the even one; the neighbour toward zero, below, or above; and by the stochastic mode one of the two? -/
def neighbourOf (f : FpFormat) (mode : Nat) (x : Rat) (y : Nat) : Prop :=
  ∃ v, realOf f false y = some v ∧
    let below : Prop := v ≤ x ∧ ∀ z w, realOf f false z = some w → w ≤ x → w ≤ v
    let above : Prop := x ≤ v ∧ ∀ z w, realOf f false z = some w → x ≤ w → v ≤ w
    match mode with
    | 0 => ∀ z w, realOf f false z = some w → apart v x ≤ apart w x ∧ (apart w x = apart v x → w = v ∨ y % 2 = 0)
    | 1 => if x < 0 then above else below
    | 2 => below
    | 3 => above
    | _ => below ∨ above

/-- Are an encoding and its flags one rounding of a real number to a format of IEEE 754's kind that does not saturate (R40, R42, R43)? Its sign is the number's; without overflow it is a neighbour, inexact where it is not the number, or, under flush, the zero of what would be subnormal; an overflow lies beyond every finite number and goes to infinity or the largest one as the mode says. -/
def roundsTo (f : FpFormat) (r : Rounding) (x : Rat) (p : Nat × Flags) : Prop :=
  p.1 < 2 ^ f.width ∧ p.2 &&& 35 = 0 ∧ (x ≠ 0 → p.1 / f.signBit = if x < 0 then 1 else 0) ∧
  (p.2.getLsbD 2 = false →
    (neighbourOf f r.mode x p.1 ∧ (p.2.getLsbD 4 = true ↔ realOf f false p.1 ≠ some x)) ∨
    (r.flush = true ∧ p.1 % f.signBit = 0 ∧ p.2 = Flag.uf ||| Flag.ix ∧ apart x 0 < twoTo (1 - (f.bias : Int)))) ∧
  (p.2.getLsbD 2 = true → p.2 = Flag.of ||| Flag.ix ∧ (∀ z w, realOf f false z = some w → apart w 0 < apart x 0) ∧
    (r.mode ≤ 3 → p.1 % f.signBit = if r.mode = 0 ∨ (r.mode = 2 ∧ x < 0) ∨ (r.mode = 3 ∧ 0 < x) then f.inf else f.maxFinite))

/-- The sign of a sum that is exactly zero (R47), from its terms with their signs. -/
def zeroIsNegative (mode : Nat) (ts : List (Rat × Bool)) : Bool :=
  if mode = 2 then !ts.all (fun t => decide (t.1 = 0) && !t.2) else ts.all (fun t => decide (t.1 = 0) && t.2)

/-- A port can return credit at once: nothing waits on VC 3, which has credit, its key serves, and it owes none. -/
def creditDue (s : State) (n : Nat) : Prop :=
  mget [] (mget {} s.berovo n).window 3 = [] ∧ 3 ≤ mget vcGrant (mget {} s.berovo n).credit 3 ∧ (mget {} s.berovo n).txFrames < keyLife ∧ (mget {} s.berovo n).owed = 0

/-- The header of the frame in which a port returns credit (R390, R391). -/
def returnsCredit (s : State) (n : Nat) (hd : BitVec 128) : Prop := frVc hd = 3 ∧ frDest hd = Config.peerModule n % 2 ^ 13 ∧ frSeq hd = (mget {} s.berovo n).txSeq % 2 ^ 64

/-- Registers and predicates of every unit, and all of memory, are as before. -/
def unitsKept (s u : State) : Prop := registersKept s u none ∧ predicatesKept s u ∧ memoryKept s u

end Sys2Proof.Claims

open Sys2Proof Sys2Proof.Machine Sys2Proof.Claims

/-- Words that the spec writes out in its worked encodings, each decoding to the instruction it stands for, from every family (R105 to R114); an empty slot's word and opcode 0 are no first word. -/
def Obligations.SpecWordsDecode : Prop :=
  decode 0x00B8C2C8 0 = .ok (.cmpi 0 4 3 2 200) ∧
  decode 0x1838E440 0 = .ok (.and 6 35 36 16) ∧
  decode 0x08A84005 0 = .ok (.pset 2 1 1) ∧
  decode 0x147BE608 0 = .ok (.clz 5 47 38) ∧
  decode 0x00E93FFF 0 = .ok (.movi 0 36 0x3FFF) ∧
  decode 0x00F90400 0 = .ok (.movh 0 36 0x400) ∧
  decode 0x00C92408 0 = .ok (.addi 0 36 36 8) ∧
  decode 0x05086181 0 = .ok (.vaddBf16 1 33 33 32) ∧
  decode 0x01F14600 0xFE4A0380 = .ok (.vcvt 0 5 6 5 7) ∧
  decode 0x01F08108 0xFD2A1000 = .ok (.vcmp 0 2 1 2 5 2) ∧
  decode 0x01F10108 0xFC6A0003 = .ok (.vfma 0 4 1 2 3 5 0) ∧
  decode 0x0A08A003 0 = .ok (.fwd 2 34 32) ∧
  decode 0x12102000 0 = .ok (.toss 4 32) ∧
  decode 0x062A64B6 0 = .ok (.steerP0P3 1 41 36 45 2) ∧
  decode 0x065AE09B 0 = .ok (.selectP4P7 1 43 32 38 3) ∧
  decode 0x0E984000 0 = .ok (.st 3 33 0 0) ∧
  decode 0x1AE42344 0 = .ok (.aadd 6 16 35 17) ∧
  decode 0x0AC02200 0 = .ok (.tfull 2 34) ∧
  decode 0x07000686 0 = .ok (.barWait 1 6 33) ∧
  decode 0x1F00078D 0 = .ok (.barArrive 7 7 35) ∧
  decode 0x03802700 0xFC000A20 = .ok (.sbind 0 39 20 0 1 0) ∧
  decode 0x03800002 0xFC000100 = .ok (.sgo 0 2 0 0 0 0 0) ∧
  decode 0x03A28000 0xFC000000 = .ok (.sisect 0 10 0 0 0 0 0) ∧
  decode 0x03300300 0 = .ok (.refill 0 3) ∧
  decode 0x03301001 0 = .ok (.commit 0 16) ∧
  decode 0x03301002 0 = .ok (.abort 0 16) ∧
  decode 0x03200000 0 = .ok (.chkpt 0 0) ∧
  decode 0x07488090 0 = .ok (.lcld 1 34 0 36) ∧
  decode 0x174041A3 0 = .ok (.lcevRel 5 1 40) ∧
  decode 0x1B58C2A4 0 = .ok (.lcout 6 35 2 41) ∧
  decode 0x0358110A 0 = .ok (.raceK 0 32 17 2) ∧
  decode 0x03600110 0 = .ok (.pload 0 1 4) ∧
  decode 0x0360000D 0 = .ok (.pswap 0 3) ∧
  decode 0x03601042 0 = .ok (.gcall 0 16 16) ∧
  decode 0x03601003 0 = .ok (.gret 0 16) ∧
  decode 0x07CFFFFD 0 = .ok (.branch 1 0xFFFFD) ∧
  decode 0x03E00114 0 = .ok (.loopDec 0 0 1) ∧
  decode 0x03E00004 0 = .ok (.halt 0) ∧
  decode 0x03E00508 0 = .ok (.trap 0 5) ∧
  decode 0x03E00018 0 = .ok (.sret 0) ∧
  decode 0x03E04501 0 = .ok (.mfsr 0 1 5) ∧
  decode 0x03E04302 0 = .ok (.mtsr 0 1 3) ∧
  decode 0x03100200 0 = .ok (.evset 0 2) ∧
  decode 0x03E00203 0 = .ok (.tlbinv 0 2) ∧
  decode 0x03E10203 0 = .ok (.fltack 0 2) ∧
  decode 0xFC000000 0 = .error .continuationFirst ∧
  decode 0x00000000 0 = .error .illegalOpcode

/-- Decoding the words of a well-formed instruction gives the instruction back, whatever follows a one-word instruction (R105 to R114). -/
def Obligations.EncodeDecodeRoundTrip : Prop :=
  ∀ i, wellFormed i = true →
    (∃ w, encode i = [w] ∧ ∀ v, decode w v = .ok i) ∨ (∃ w v, encode i = [w, v] ∧ decode w v = .ok i)

/-- A step runs the instruction that the next move names, with the move counted, its time passed and what the guard supply pays in that time drawn (the order of moves, the time and that draw are free values, assumptions 1, 2 and 8): the decoded word of the slot that an element's arbiter selects (R29, R30); the word decoded at a sequencer's PC whose guard holds (R24, R116, R131), or the cause 0x1C2 where a task-level fetch is at or above SBASE (R302); a move or event of the opcode table's event rows (R93). -/
def Obligations.StepRunsTheDecodedInstruction : Prop :=
  (∀ (s s' : State) (e : Nat) (k : BitVec 2) (n : Nat) (rest : List Move) (i : Instr),
     s.agenda = .fire e :: rest →
     s' = { s with agenda := rest, moveNo := s.moveNo + 1, tb := laterTime s.tb (Config.freeElapsed s.moveNo), guardPool := s.guardPool - (Config.guardDraw s.moveNo : Int) } →
     selectSlot s' e = some (k, n) →
     decode (slotWords s' e n).1 (slotWords s' e n).2 = .ok i →
     wordDetail (curKind (.slot e k n)) (slotWords s' e n).1 (slotWords s' e n).2 = none →
     step s = exec i { s' with cur := .slot e k n }) ∧
  (∀ (s s' : State) (g : Nat) (rest : List Move) (i : Instr),
     s.agenda = .issue g :: rest →
     s' = { s with agenda := rest, moveNo := s.moveNo + 1, tb := laterTime s.tb (Config.freeElapsed s.moveNo), guardPool := s.guardPool - (Config.guardDraw s.moveNo : Int) } →
     mayIssue s' g = true →
     guardHolds (s'.grove g) (fld (imemWord s' g (s'.grove g).pc) 26 6) = true →
     decode (imemWord s' g (s'.grove g).pc) (imemWord s' g ((s'.grove g).pc + 1)) = .ok i →
     wordDetail .seq (imemWord s' g (s'.grove g).pc) (imemWord s' g ((s'.grove g).pc + 1)) = none →
     step s = if (s'.grove g).level = 0 ∧ (s'.grove g).sbase.toNat ≤ (s'.grove g).pc then
         .next (causeAt { s' with cur := .word g (s'.grove g).pc } 0x1C2 0 0)
       else exec i { s' with cur := .word g (s'.grove g).pc }) ∧
  (∀ (s : State) (i : Instr) (rest : List Move), s.agenda = .ev i :: rest → isMove i = true →
     step s = exec i { s with agenda := rest, moveNo := s.moveNo + 1, tb := laterTime s.tb (Config.freeElapsed s.moveNo), guardPool := s.guardPool - (Config.guardDraw s.moveNo : Int) })

/-- Results of the register table and of the immediate table: the destination takes the value of R123's function of both sources; of R127's function of the source and the immediate, for addi, the shifts and ext; and of the immediate alone for movi and movh. -/
def Obligations.TwoSourceAndImmediateResults : Prop :=
  (∀ f ∈ twoSource, ∀ (t d a b : BitVec 6) (s : State) (x y : Word),
    srcVal s a = some x → srcVal s b = some y → issuable s (f.1 t d a b) = true →
    exec (f.1 t d a b) s = .next (writeDst (issued s (f.1 t d a b)) d (some (f.2 x y)))) ∧
  (∀ f ∈ immediate, ∀ (t d a n : BitVec 6) (s : State) (x : Word), srcVal s a = some x → issuable s (f.1 t d a n) = true →
    exec (f.1 t d a n) s = .next (writeDst (issued s (f.1 t d a n)) d (some (f.2 x n.toNat)))) ∧
  (∀ (t d a : BitVec 6) (n : BitVec 8) (s : State) (x : Word), srcVal s a = some x → issuable s (.addi t d a n) = true →
    exec (.addi t d a n) s = .next (writeDst (issued s (.addi t d a n)) d (some (BitVec.ofInt 64 (x.toInt + n.toInt))))) ∧
  (∀ (t d : BitVec 6) (n : BitVec 14) (s : State), issuable s (.movi t d n) = true →
    exec (.movi t d n) s = .next (writeDst (issued s (.movi t d n)) d (some (BitVec.ofInt 64 n.toInt)))) ∧
  (∀ (t d : BitVec 6) (n : BitVec 14) (s : State), issuable s (.movh t d n) = true →
    exec (.movh t d n) s = .next (writeReg (issued s (.movh t d n)) d (BitVec.ofNat 64 ((regVal s d).toNat * 2 ^ 14 + n.toNat))))

/-- R124: div and rem exist only in the sequencer, cost 8 drops, and give quotient and remainder rounded toward zero; a zero divisor gives all ones and the dividend, sets DZ, and with its enable set raises detail 1 of class 1 after the result at task level. A supervisor word that raises it has no effect instead: SFLT becomes 1 and the sequencer goes on at the next word (R312). -/
def Obligations.DivisionResults : Prop :=
  ∀ (t d a b : BitVec 6) (s : State),
    (encode (.div t d a b)).map (·.toNat) = [rrrWord t 2 d.toNat a.toNat b.toNat 1] ∧ (encode (.rem t d a b)).map (·.toNat) = [rrrWord t 2 d.toNat a.toNat b.toNat 2] ∧
    ∀ (i : Instr) (q : Word → Word → Word),
    ((i = .div t d a b ∧ q = (fun x y => if y = 0 then BitVec.allOnes 64 else BitVec.ofInt 64 (x.toInt.tdiv y.toInt))) ∨
    (i = .rem t d a b ∧ q = (fun x y => if y = 0 then x else BitVec.ofInt 64 (x.toInt - y.toInt * (BitVec.ofInt 64 (x.toInt.tdiv y.toInt)).toInt))) →
    (wordSig i).unit = .seq ∧ (wordSig i).cost = 8 ∧
    (issuable s i = true → ∃ g w, s.cur = .word g w ∧
      (valOf s b ≠ 0 → exec i s = .next (writeDst (issued s i) d (some (q (valOf s a) (valOf s b))))) ∧
      (valOf s b = 0 → (s.grove g).strapen.getLsbD 1 = false →
        exec i s = .next ((writeDst (issued s i) d (some (q (valOf s a) 0))).modGrove g (fun x => { x with sticky := x.sticky ||| Flag.dz }))) ∧
      (valOf s b = 0 → (s.grove g).strapen.getLsbD 1 = true → (s.grove g).level = 0 →
        exec i s = .next (raiseSeq ((writeDst (issued s i) d (some (q (valOf s a) 0))).modGrove g (fun x => { x with sticky := x.sticky ||| Flag.dz }))
          g w 0x041 0 2 (imemWord s g w))) ∧
      (valOf s b = 0 → (s.grove g).strapen.getLsbD 1 = true → (s.grove g).level ≠ 0 → ∃ u, exec i s = .next u ∧
        (u.grove g).sflt = true ∧ (u.grove g).level = (s.grove g).level ∧ (u.grove g).pc = (w + stride s g w) % 16384 ∧
        (u.grove g).superBank.w = (s.grove g).superBank.w ∧ (u.grove g).superBank.p = (s.grove g).superBank.p)))

/-- R125: bfx extracts, and bfi inserts, the field that the descriptor in b gives, for 1 drop (OP 0x06); bfi reads its own d first, and a d that cannot be read back is detail 3. R128: sel takes a where predicate k is 1 and b where it is 0, k being m or m + 4; the heads that a and b name are both consumed, and an absent one makes the whole instruction absent. -/
def Obligations.BitFieldAndSelectResults : Prop :=
  (∀ (t d a b : BitVec 6) (s : State) (x y : Word), srcVal s a = some x → srcVal s b = some y →
    (encode (.bfx t d a b)).map (·.toNat) = [rrrWord t 6 d.toNat a.toNat b.toNat 0] ∧ (encode (.bfi t d a b)).map (·.toNat) = [rrrWord t 6 d.toNat a.toNat b.toNat 1] ∧
    (wordSig (.bfx t d a b)).cost = 1 ∧ (wordSig (.bfi t d a b)).cost = 1 ∧
    (issuable s (.bfx t d a b) = true → exec (.bfx t d a b) s =
      .next (writeDst (issued s (.bfx t d a b)) d (some (BitVec.ofNat 64 ((x &&& maskOf y).toNat / 2 ^ lowBit y))))) ∧
    (issuable s (.bfi t d a b) = true → exec (.bfi t d a b) s =
      .next (writeReg (issued s (.bfi t d a b)) d ((regVal s d &&& ~~~maskOf y) ||| (BitVec.ofNat 64 (x.toNat * 2 ^ lowBit y) &&& maskOf y)))) ∧
    (curKind s.cur ≠ .seq → ¬ (d.toNat < 16 ∨ (24 ≤ d.toNat ∧ d.toNat < 32)) → 3 ∈ sigDetails (curKind s.cur) (wordSig (.bfi t d a b))) ∧
    (curKind s.cur = .seq → ¬ (d.toNat < 16 ∨ (32 ≤ d.toNat ∧ d.toNat < 48)) → 3 ∈ sigDetails .seq (wordSig (.bfi t d a b)))) ∧
  (∀ (t d a b : BitVec 6) (m : BitVec 2) (s : State) (i : Instr) (k : Nat),
    (i = .selP0P3 t d a b m ∧ k = m.toNat) ∨ (i = .selP4P7 t d a b m ∧ k = m.toNat + 4) →
    (wordSig i).cost = 1 ∧ (encode i).map (·.toNat) = [rrrWord t (if k < 4 then 8 else 9) d.toNat a.toNat b.toNat (k % 4)] ∧
    (∀ e n j, s.cur = .slot e j n → ∀ ch, ch ∈ eats s (wordSig i) ↔ 32 ≤ a.toNat ∧ ch = a.toNat - 32 ∨ 32 ≤ b.toNat ∧ ch = b.toNat - 32) ∧
    (issuable s i = true →
      (∀ x y, srcVal s a = some x → srcVal s b = some y →
        exec i s = .next (writeDst (issued s i) d (some (if (curPreds s).getLsbD k then x else y)))) ∧
      (srcVal s a = none ∨ srcVal s b = none → exec i s = .next (writeDst (issued s i) d none))))

/-- R126: the unary group, OP 0x07 with the function in b, each for 1 drop; mov to an outbound channel enqueues the payload with a fresh tag. -/
def Obligations.UnaryResults : Prop :=
  (∀ f ∈ unary, ∀ (t d a : BitVec 6) (s : State) (x : Word),
    (wordSig (f.1 t d a)).cost = 1 ∧
    (srcVal s a = some x → issuable s (f.1 t d a) = true →
      exec (f.1 t d a) s = .next (writeDst (issued s (f.1 t d a)) d (some (f.2 x))))) ∧
  (∀ t d a : BitVec 6, [encode (.mov t d a), encode (.abs t d a), encode (.clz t d a), encode (.ctz t d a), encode (.popc t d a)].map (fun l => l.map (·.toNat)) =
    (List.range 5).map (fun n => [rrrWord t 7 d.toNat a.toNat n 0])) ∧
  (∀ (t d a : BitVec 6) (s : State) (x : Word) (e n : Nat) (k : BitVec 2), s.cur = .slot e k n → 32 ≤ d.toNat → srcVal s a = some x → issuable s (.mov t d a) = true →
    exec (.mov t d a) s = .next (enqueue (issued s (.mov t d a)) e (d.toNat - 32) k.toNat { payload := x, gen := curGen s }))

/-- Values of the floating-point lane operations (R37, R40, R42, R43, R47, R140, R145, R146, R148). On finite lanes vadd, vsub, vmul, vfma and vfms give one rounding of the exact sum, difference, product or fused form, with the sign of R47 where that is zero; vdot one rounding to FP32 of the sum of its exact products, and vsum one of the sum of its lanes; vdiv one of the quotient, and vscale one of the product with a power of two. The flags of a lane are among those raised. A NaN operand gives the canonical NaN; infinities of opposite signs in a sum, and zero times infinity, give it with invalid; a finite number over zero gives infinity with divide-by-zero. -/
def Obligations.FloatLaneArithmetic : Prop :=
  ∀ (lt st cc mode : Nat) (fl : Bool) (r : Nat → Rounding) (p : BitVec 8) (a b c : Nat), mode ≤ 4 →
    (∀ i, (r i).mode = mode ∧ (r i).flush = fl ∧ (r i).sat = false) →
    let f := laneFormat lt
    let w := laneWidth lt
    let lane (x j : Nat) : Nat := x / 2 ^ (w * j) % 2 ^ w
    let neg (x j : Nat) : Bool := lane x j / f.signBit == 1
    let value (x j : Nat) : Option Rat := realOf f fl (lane x j)
    let out (vop : Nat) : Nat × Flags := laneEval vop lt st cc r p a b c
    let raised (vop : Nat) (g : Flags) : Prop := g ||| (out vop).2 = (out vop).2
    let gives (vop j : Nat) (x : Rat) (zero : Bool) : Prop := ∃ g, roundsTo f (r j) x (lane (out vop).1 j, g) ∧ raised vop g ∧
      (x = 0 → lane (out vop).1 j = if zero then f.signBit else 0)
    (lt ∈ [3, 4, 5, 6] → ∀ j, j < 64 / w →
      (∀ X Y, value a j = some X → value b j = some Y →
        gives 0 j (X + Y) (zeroIsNegative mode [(X, neg a j), (Y, neg b j)]) ∧
        gives 1 j (X - Y) (zeroIsNegative mode [(X, neg a j), (Y, !neg b j)]) ∧
        gives 2 j (X * Y) (neg a j != neg b j) ∧
        (lt = 5 → Y ≠ 0 → gives 16 j (X / Y) (neg a j != neg b j)) ∧
        (lt = 5 → Y = 0 → X ≠ 0 → lane (out 16).1 j = (if neg a j != neg b j then f.signBit else 0) + f.inf ∧ raised 16 Flag.dz) ∧
        (lt = 5 → Y = 0 → X = 0 → lane (out 16).1 j = f.nan ∧ raised 16 Flag.iv) ∧
        (∀ Z, value c j = some Z →
          gives 3 j (X * Y + Z) (zeroIsNegative mode [(X * Y, neg a j != neg b j), (Z, neg c j)]) ∧
          gives 4 j (Z - X * Y) (zeroIsNegative mode [(X * Y, neg a j == neg b j), (Z, neg c j)]))) ∧
      (∀ X, value a j = some X → gives 17 j (X * twoTo (Int.bmod (lane b j) (2 ^ w))) (neg a j)) ∧
      (isNanOf f (lane a j) ∨ isNanOf f (lane b j) → ∀ vop, vop ≤ 4 ∨ vop = 16 ∧ lt = 5 → lane (out vop).1 j = f.nan) ∧
      (isNanOf f (lane c j) → lane (out 3).1 j = f.nan ∧ lane (out 4).1 j = f.nan) ∧
      (lane a j % f.signBit = f.inf → lane b j % f.signBit = f.inf → (neg a j ≠ neg b j → lane (out 0).1 j = f.nan ∧ raised 0 Flag.iv) ∧
        (neg a j = neg b j → lane (out 0).1 j = lane a j ∧ lane (out 1).1 j = f.nan ∧ raised 1 Flag.iv)) ∧
      (lane a j % f.signBit = f.inf → value b j = some 0 → ∀ vop ∈ [2, 3, 4], lane (out vop).1 j = f.nan ∧ raised vop Flag.iv)) ∧
    (lt ∈ [3, 4, 7, 8] → ∀ X Y : Nat → Rat, (∀ j, j < 64 / w → value a j = some (X j) ∧ value b j = some (Y j)) →
      roundsTo .f32 (r 0) ((List.range (64 / w)).map (fun j => X j * Y j)).sum (out 11)) ∧
    (lt ∈ [3, 4, 5, 6] → ∀ X : Nat → Rat, (∀ j, j < 64 / w → value a j = some (X j)) →
      roundsTo f (r 0) ((List.range (64 / w)).map X).sum (out 12))

/-- Conversions and estimates of floating-point lanes (R37, R51, R52, R147, R149). vcvt widens each lane exactly, by every pair of R149, an integer by its value and a float with its sign, a NaN to the canonical one. vrcpe and vrsqe never raise inexact; they are exact at the powers of two and of four, and else give a significand of nine bits, the nearest to one over the middle of the input's interval of 1/128, or over its root; zero gives infinity with divide-by-zero. vexp2 gives a power of two at an integer, infinity from 128 on, zero below -150, and between them one rounding of the table's entry times the polynomial of R52, inexact. -/
def Obligations.FloatLaneConversions : Prop :=
  ∀ (lt st cc mode : Nat) (fl : Bool) (r : Nat → Rounding) (p : BitVec 8) (a b c : Nat), mode ≤ 4 →
    (∀ i, (r i).mode = mode ∧ (r i).flush = fl ∧ (r i).sat = false) →
    let f := laneFormat lt
    let w := laneWidth lt
    let lane (x j : Nat) : Nat := x / 2 ^ (w * j) % 2 ^ w
    let out (vop : Nat) : Nat × Flags := laneEval vop lt st cc r p a b c
    let raised (vop : Nat) (g : Flags) : Prop := g ||| (out vop).2 = (out vop).2
    ((st, lt) ∈ [(7, 3), (7, 4), (7, 5), (8, 3), (8, 4), (8, 5), (3, 5), (3, 6), (4, 5), (4, 6), (5, 6)] → ∀ j, j < 64 / w →
      let x := a / 2 ^ (laneWidth st * j) % 2 ^ laneWidth st
      (∀ X, realOf (laneFormat st) fl x = some X → realOf f false (lane (out 18).1 j) = some X ∧
        lane (out 18).1 j / f.signBit = x / (laneFormat st).signBit) ∧
      (isNanOf (laneFormat st) x → lane (out 18).1 j = f.nan)) ∧
    ((st, lt) ∈ [(0, 1), (0, 2), (1, 2), (0, 3), (0, 4), (0, 5), (1, 5), (2, 6)] → ∀ j, j < 64 / w →
      let v : Int := Int.bmod (a / 2 ^ (laneWidth st * j) % 2 ^ laneWidth st) (2 ^ laneWidth st)
      (lt ≤ 2 → (lane (out 18).1 j : Int) = v % 2 ^ w) ∧ (3 ≤ lt → realOf f false (lane (out 18).1 j) = some (v : Rat)) ∧ (out 18).2 = 0) ∧
    (lt ∈ [5, 6] → (out 13).2.getLsbD 4 = false ∧ (out 14).2.getLsbD 4 = false ∧ ∀ j, j < 64 / w →
      (lane a j % f.signBit = 0 → ∀ vop ∈ [13, 14], lane (out vop).1 j = lane a j + f.inf ∧ raised vop Flag.dz) ∧
      (isNanOf f (lane a j) → ∀ vop ∈ [13, 14], lane (out vop).1 j = f.nan) ∧
      ∀ (s t : Rat) (i : Nat) (e : Int), s = 1 ∨ s = -1 → i < 128 → 0 ≤ t → t < 1 → -100 ≤ e → e ≤ 100 →
        realOf f fl (lane a j) = some (s * (1 + ((i : Rat) + t) / 128) * twoTo e) →
        (i = 0 → realOf f false (lane (out 13).1 j) = some (s * twoTo (-e))) ∧
        (i ≠ 0 → ∃ k : Nat, 2 * ((k : Int) * (257 + 2 * i) - 131072).natAbs ≤ 257 + 2 * i ∧ realOf f false (lane (out 13).1 j) = some (s * k * twoTo (-9 - e))) ∧
        (s = -1 → lane (out 14).1 j = f.nan ∧ raised 14 Flag.iv) ∧
        (s = 1 → ∀ (k : Int) (o : Nat), e = 2 * k + o → o < 2 →
          (i = 0 ∧ o = 0 → realOf f false (lane (out 14).1 j) = some (twoTo (-k))) ∧
          (¬ (i = 0 ∧ o = 0) → ∃ n : Nat, 1 ≤ n ∧ (2 * n - 1) ^ 2 * ((257 + 2 * i) * 2 ^ o) ≤ 2 ^ 28 ∧ 2 ^ 28 < (2 * n + 1) ^ 2 * ((257 + 2 * i) * 2 ^ o) ∧
            realOf f false (lane (out 14).1 j) = some (n * twoTo (-9 - k))))) ∧
    (lt = 5 → ∀ j, j < 64 / w →
      (isNanOf f (lane a j) → lane (out 15).1 j = f.nan) ∧
      ∀ X, realOf f fl (lane a j) = some X →
        (∀ n : Int, X = n → (if fl then -126 else -149) ≤ n → n ≤ 127 → realOf f false (lane (out 15).1 j) = some (twoTo n)) ∧
        (128 ≤ X → lane (out 15).1 j = f.inf ∧ raised 15 (Flag.of ||| Flag.ix)) ∧
        (X < -150 → lane (out 15).1 j = 0 ∧ raised 15 (Flag.uf ||| Flag.ix)) ∧
        (∀ (n : Int) (i k : Nat) (t : Rat), X = n + i / 64 + t → -150 ≤ n → n ≤ 127 → i < 64 → 0 ≤ t → t < 1 / 64 → i ≠ 0 ∨ t ≠ 0 ∨ n = -150 →
          1 ≤ k → (2 * k - 1) ^ 64 ≤ 2 ^ (1536 + i) → 2 ^ (1536 + i) < (2 * k + 1) ^ 64 →
          ∃ g, roundsTo f (r j) (k * twoTo (-23) * (1 + t * (0xB17218 * twoTo (-24) + t * (0xF5FDF0 * twoTo (-26) + t * (0xE35847 * twoTo (-28))))) * twoTo n) (lane (out 15).1 j, g) ∧
            raised 15 (g ||| Flag.ix)))

/-- Compare and predicate words write the predicate that R129 and R130 give; an absent source leaves it (R69). -/
def Obligations.PredicateResults : Prop :=
  ∀ (t : BitVec 6) (k : BitVec 3) (s : State),
    (∀ (c : BitVec 3) (a b : BitVec 6), issuable s (.cmp t c k a b) = true →
      (∀ x y, srcVal s a = some x → srcVal s b = some y →
        ∃ v, (v = true ↔ holds c.toNat x y) ∧ exec (.cmp t c k a b) s = .next (setPred (issued s (.cmp t c k a b)) k.toNat v)) ∧
      (srcVal s a = none ∨ srcVal s b = none → exec (.cmp t c k a b) s = .next (issued s (.cmp t c k a b)))) ∧
    (∀ (c : BitVec 3) (a : BitVec 6) (n : BitVec 8), issuable s (.cmpi t c k a n) = true →
      (∀ x, srcVal s a = some x → ∃ v, (v = true ↔ holds c.toNat x (if c.toNat < 4 then n.signExtend 64 else n.zeroExtend 64)) ∧
        exec (.cmpi t c k a n) s = .next (setPred (issued s (.cmpi t c k a n)) k.toNat v)) ∧
      (srcVal s a = none → exec (.cmpi t c k a n) s = .next (issued s (.cmpi t c k a n)))) ∧
    (∀ (i j : BitVec 3), issuable s (.pand t k i j) = true →
      exec (.pand t k i j) s = .next (setPred (issued s (.pand t k i j)) k.toNat (pred s i.toNat && pred s j.toNat))) ∧
    (∀ (i j : BitVec 3), issuable s (.por t k i j) = true →
      exec (.por t k i j) s = .next (setPred (issued s (.por t k i j)) k.toNat (pred s i.toNat || pred s j.toNat))) ∧
    (∀ (i j : BitVec 3), issuable s (.pxor t k i j) = true →
      exec (.pxor t k i j) s = .next (setPred (issued s (.pxor t k i j)) k.toNat (xor (pred s i.toNat) (pred s j.toNat)))) ∧
    (∀ i : BitVec 3, issuable s (.pnot t k i) = true →
      exec (.pnot t k i) s = .next (setPred (issued s (.pnot t k i)) k.toNat (!pred s i.toNat))) ∧
    (∀ v : BitVec 1, issuable s (.pset t k v) = true →
      exec (.pset t k v) s = .next (setPred (issued s (.pset t k v)) k.toNat (v = 1))) ∧
    (∀ a : BitVec 6, issuable s (.pmov t k a) = true →
      (∀ x, srcVal s a = some x → exec (.pmov t k a) s = .next (setPred (issued s (.pmov t k a)) k.toNat (x.getLsbD 0))) ∧
      (srcVal s a = none → exec (.pmov t k a) s = .next (issued s (.pmov t k a))))

/-- An absent source takes the cost, raises no flag, leaves a register destination and gives an outbound one an absent token (R69, R121). -/
def Obligations.AbsentSourceResults : Prop :=
  (∀ f ∈ twoSource.map (fun p => p.1) ++ [.bfx, .bfi], ∀ (t d a b : BitVec 6) (s : State), srcVal s a = none ∨ srcVal s b = none →
    issuable s (f t d a b) = true → exec (f t d a b) s = .next (writeDst (issued s (f t d a b)) d none)) ∧
  (∀ f ∈ unary.map (fun p => p.1), ∀ (t d a : BitVec 6) (s : State), srcVal s a = none →
    issuable s (f t d a) = true → exec (f t d a) s = .next (writeDst (issued s (f t d a)) d none)) ∧
  (∀ (s : State) (d : BitVec 6), chanOf s d = none → writeDst s d none = s) ∧
  (∀ (s : State) (e : Nat) (k : BitVec 2) (n : Nat) (d : BitVec 6), s.cur = .slot e k n → 32 ≤ d.toNat →
    writeDst s d none = enqueue s e (d.toNat - 32) k.toNat { gen := curGen s, pres := false })

/-- A result written to a register reads back whole, every other register of every unit keeps its value, and code 16 discards it (R107, R121); a predicate that is written reads back, and the other seven keep their values (R22, R129). -/
def Obligations.WrittenValuesReadBack : Prop :=
  ((∀ (s : State) (d : BitVec 6) (v : Word), readable (curKind s.cur) true d = true →
     regVal (writeReg s d v) d = v ∧ registersKept s (writeReg s d v) (some d) ∧ predicatesKept s (writeReg s d v) ∧ memoryKept s (writeReg s d v)) ∧
   (∀ (s : State) (v : Word), writeDst s 16 (some v) = s)) ∧
  (∀ (s : State) (k j : Nat) (v : Bool), k < 8 → j < 8 →
     pred (setPred s k v) j = (if j = k then v else pred s j) ∧ registersKept s (setPred s k v) none ∧ memoryKept s (setPred s k v))

/-- Frame of the words that write one destination or one predicate: every other register and predicate, every sticky register, all of memory, every system and exception register, and all requests stay as they are. -/
def Obligations.ValueWordsFrame : Prop :=
  ∀ (i : Instr) (s t : State), issuable s i = true → exec i s = .next t →
    (∀ d, valueWord i = some d → registersKept s t (some d) ∧ predicatesKept s t ∧ stickyKept s t ∧ systemKept s t ∧ memoryKept s t ∧ restKept s t) ∧
    (∀ k, predicateWord i = some k → registersKept s t none ∧
      (∀ u j, j < 8 → (curUnit u ≠ curUnit s.cur ∨ curStrand u ≠ curStrand s.cur ∨ j ≠ k.toNat) →
        (curPreds { t with cur := u }).getLsbD j = (curPreds { s with cur := u }).getLsbD j) ∧
      stickyKept s t ∧ systemKept s t ∧ memoryKept s t ∧ restKept s t)

/-- A word that no detail makes illegal and that is at its level, but is not ready, waits: the machine is left as it is (R29, R162). A ready word whose cost cannot be taken is refused: nothing of it happens, and its cost is noted as a refused issue of its task (R32, R189). An illegal word raises the lowest-numbered detail that applies to it, with no effect and no cost (R115); a jump outside instruction memory raises detail 9 (R132). -/
def Obligations.WordsThatMayNotIssue : Prop :=
  (∀ (i : Instr) (s : State), isWord i = true → legalHere s i → wordReady s (wordSig i) = false → exec i s = .next s) ∧
  (∀ (i : Instr) (s : State), isWord i = true → legalHere s i → wordReady s (wordSig i) = true → affordable s (wordSig i) = false →
     ¬ farJump s i → exec i s = .next (refuse s (curGrove s) (wordCost s (wordSig i)))) ∧
  ((∀ (i : Instr) (s : State) (n : Nat), isWord i = true → lowest (sigDetails (curKind s.cur) (wordSig i)) = some n →
     exec i s = .next (raiseIllegal s n) ∧ n ∈ sigDetails (curKind s.cur) (wordSig i) ∧ ∀ m ∈ sigDetails (curKind s.cur) (wordSig i), n ≤ m) ∧
   (∀ (i : Instr) (s : State), legalHere s i → wordReady s (wordSig i) = true → farJump s i → exec i s = .next (raiseIllegal s 9)) ∧
   (∀ (n : BitVec 6) (s : State), exec (.illegalWord n) s = .next (raiseIllegal s n.toNat)))


/-- The cost of an issued word leaves the task's balance and is counted (R32, R187, R199); a supervisor word takes nothing from any task (R183). Each named channel is consumed once, a channel not named keeps its tokens (R69, R107), the arbiter moves past the strand (R30) and a sequencer's PC past the word's one or two words, modulo 16,384 (R131). -/
def Obligations.IssueTakesCostAndSources : Prop :=
  ∀ (i : Instr) (s : State), issuable s i = true →
    (s.supervising = false → ∀ k, s.taskOfGrove (curGrove s) = some k → mfind s.tasks k ≠ none →
      curGrove s ∈ (s.task k).groves → (s.task k).groves.Nodup → (wordSig i).free = false →
        balance (issued s i) k + wordCost s (wordSig i) = balance s k ∧ ((issued s i).task k).issued = (s.task k).issued + wordCost s (wordSig i)) ∧
    (s.supervising = true → ∀ k, balance (issued s i) k = balance s k) ∧
    (∀ e k n, s.cur = .slot e k n →
      ((issued s i).elem e).active.arb = k + 1 ∧ mget 0 ((issued s i).elem e).firings n = mget 0 (s.elem e).firings n + 1 ∧
      (∀ ch, ((issued s i).elem e).active.fifo ch =
        if ch ∈ eats s (wordSig i) then ((s.elem e).active.fifo ch).tail else (s.elem e).active.fifo ch)) ∧
    (∀ g a, s.cur = .word g a → ((issued s i).grove g).pc = (a + (encode i).length) % 16384)

/-- A word over registers w0 to w15 of an element is issued where its slot's strand awaits no reply in those registers and the task's balance holds its cost (R29, R162, R187). -/
def Obligations.ReadyRegisterWordsIssue : Prop :=
  ∀ f ∈ twoSource.map (fun p => p.1) ++ [.bfx, .bfi], ∀ (t d a b : BitVec 6) (s : State) (e k n : Nat) (j : BitVec 2),
    s.cur = .slot e j n → d.toNat < 16 → a.toNat < 16 → b.toNat < 16 →
    (∀ c ∈ [d, a, b], c ∉ pendingRegs s) →
    s.taskOfGrove (groveOf e) = some k → (s.task k).dry = none → (s.task k).refusals = [] → (wordSig (f t d a b)).cost ≤ balance s k →
    issuable s (f t d a b) = true

/-- A cause at a slot or at a task-level word stops its unit and queues a record with the cause, the unit, the address, the word and the time base, and every register, predicate, byte of memory and balance stays as it is (R307, R309); a seventeenth record waits. The causes are those that R306 sends to the supervisor vector, with the details of R115, R305 and R272 for classes 0, 1 and 6. -/
def Obligations.CausesStopAndRecord : Prop :=
  (∀ (s : State) (e n cause : Nat) (k : BitVec 2) (addr info : Word), toSupervisor cause → s.cur = .slot e k n →
    (s.grove (groveOf e)).traps.length < 16 → (s.grove (groveOf e)).waitingTraps = [] →
    ((causeAt s cause addr info).elem e).stopped = true ∧
    (∃ r, ((causeAt s cause addr info).grove (groveOf e)).traps = (s.grove (groveOf e)).traps ++ [r] ∧
      r.cause = cause ∧ r.src = 0 ∧ r.str = k.toNat ∧ r.slot = n ∧ r.eid = eidOf s e &&& 0x1FFFFFFFFF ∧ r.addr = addr ∧ r.info = info ∧
      r.word = (s.elem e).active.slotWord n ∧ r.tb = s.tb ∧ r.unit = .elem e ∧
      (∀ t, s.taskOfGrove (groveOf e) = some t → r.tag = t ∧ r.serial = (s.task t).serial ∧ r.bal = balance s t)) ∧
    registersKept s (causeAt s cause addr info) none ∧ predicatesKept s (causeAt s cause addr info) ∧ memoryKept s (causeAt s cause addr info) ∧
    (∀ t, balance (causeAt s cause addr info) t = balance s t)) ∧
  (∀ (s : State) (g a cause : Nat) (addr info : Word), toSupervisor cause → s.cur = .word g a → (s.grove g).level = 0 →
    (s.grove g).traps.length < 16 → (s.grove g).waitingTraps = [] →
    ((causeAt s cause addr info).grove g).stopped = true ∧ ((causeAt s cause addr info).grove g).pc = (s.grove g).pc ∧
    (∃ r, ((causeAt s cause addr info).grove g).traps = (s.grove g).traps ++ [r] ∧
      r.cause = cause ∧ r.src = 1 ∧ r.eid = eidOf s (elemAt g 0) &&& 0x1FFFFFFFFF ∧ r.addr = addr ∧ r.info = info ∧
      r.word = imemWord s g a ∧ r.wordAddr = a ∧ r.tb = s.tb ∧ r.unit = .seq g ∧
      (∀ t, s.taskOfGrove g = some t → r.tag = t ∧ r.serial = (s.task t).serial ∧ r.bal = balance s t)) ∧
    registersKept s (causeAt s cause addr info) none ∧ predicatesKept s (causeAt s cause addr info) ∧ memoryKept s (causeAt s cause addr info) ∧
    (∀ t, balance (causeAt s cause addr info) t = balance s t)) ∧
  (∀ (s : State) (e g a cause : Nat) (k : BitVec 2) (addr info : Word) (n : Nat), toSupervisor cause → (s.cur = .slot e k n ∧ g = groveOf e) ∨ (s.cur = .word g a ∧ (s.grove g).level = 0) →
    16 ≤ (s.grove g).traps.length → ((causeAt s cause addr info).grove g).traps = (s.grove g).traps ∧
      ((causeAt s cause addr info).grove g).waitingTraps.length = (s.grove g).waitingTraps.length + 1)

/-- The privileged words raise the privilege cause 0x1C0 at task level, take no cost and do nothing else (R301, R316, R348), unless their task is dry. -/
def Obligations.PrivilegedWordsTrapAtTaskLevel : Prop :=
  ∀ (t a : BitVec 6) (s : State) (g w : Nat), s.cur = .word g w → (s.grove g).level = 0 → dryHere s = false →
    ∀ i ∈ [Instr.evset t a, .evwait t a, .evclr t a, .sret t, .tlbinv t a, .tlbinva t, .agpause t a, .agpatch t a, .fltack t a],
      lowest (sigDetails .seq (wordSig i)) = none → exec i s = .next (raiseSeq s g w 0x1C0 0 0 (imemWord s g w))

/-- Entering a handler (R308): EPC takes the address of the next task word, the one that a wait or swait held the sequencer at, THALT whether the program had halted, TR0 to TR7 the head record, PC SVEC; LEVEL and INTRAP become 1 and SFLT 0; the record is the one being handled. Nothing else of the grove, and nothing else of the machine, changes. The fields of TR0, TR1 to TR4, TR5 and TR6 of a record, by R309. -/
def Obligations.TrapEntryTakesTheHeadRecord : Prop :=
  (∀ (s : State) (g : Nat) (r : TrapRec) (rest : List TrapRec), (s.grove g).traps = r :: rest → (s.grove g).level = 0 → (s.grove g).intrap = false →
     ∃ t, exec (.trapEntry g) s = .next t ∧
       ((s.grove g).pc < 16384 → (t.grove g).epc.toNat = (s.grove g).pc) ∧
       (t.grove g).thalt = (s.grove g).halted ∧ (t.grove g).halted = false ∧ (t.grove g).level = 1 ∧ (t.grove g).intrap = true ∧ (t.grove g).sflt = false ∧
       (t.grove g).tr = trapWords r ∧ (t.grove g).pc = (s.grove g).svec.toNat ∧ (t.grove g).traps = r :: rest ∧
       { t with groves := s.groves } = s ∧ (∀ h, h ≠ g → t.grove h = s.grove h) ∧
       { t.grove g with
         epc := (s.grove g).epc, thalt := (s.grove g).thalt, halted := (s.grove g).halted, level := (s.grove g).level, intrap := (s.grove g).intrap
         sflt := (s.grove g).sflt, handling := (s.grove g).handling, tr := (s.grove g).tr, pc := (s.grove g).pc } = s.grove g) ∧
  (∀ r : TrapRec, r.cause < 512 → r.src < 8 → r.str < 4 → r.slot < 32 → r.eid.toNat < 2 ^ 37 → r.wordAddr < 16384 → r.serial < 2 ^ 32 → r.tag < 16384 →
     let w (n : Nat) : Nat := ((trapWords r)[n]?.getD 0).toNat
     w 0 / 2 ^ 55 = r.cause ∧ w 0 / 2 ^ 52 % 8 = r.src ∧ w 0 / 2 ^ 50 % 4 = r.str ∧ w 0 / 2 ^ 45 % 32 = r.slot ∧ w 0 / 2 ^ 37 % 256 = 0 ∧ w 0 % 2 ^ 37 = r.eid.toNat ∧
     w 1 = r.addr.toNat ∧ w 2 = r.info.toNat ∧ w 3 % 2 ^ 32 = r.word.toNat ∧ (r.src = 1 → w 3 / 2 ^ 32 = r.wordAddr) ∧ (r.src ≠ 1 → w 3 / 2 ^ 32 = 0) ∧
     w 4 = r.tb.toNat ∧ w 5 / 2 ^ 32 = r.serial ∧ w 5 % 2 ^ 32 = r.tag ∧ (r.bal < 2 ^ 64 → w 6 = r.bal) ∧ w 7 = 0)

/-- sret at supervisor level (R310): the record being handled is popped; with another queued the handler starts again on it, with EPC and THALT kept; with none the program goes on at EPC, halted as THALT says; the popped record's element or sequencer is resumed while its task lives. -/
def Obligations.SretReturns : Prop :=
  ∀ (t : BitVec 6) (s : State) (g w : Nat) (r : TrapRec) (rest : List TrapRec), s.cur = .word g w → (s.grove g).level ≠ 0 →
    (s.grove g).handling = some r → (s.grove g).traps = r :: rest → (s.grove g).waitingTraps = [] →
    ∃ u, exec (.sret t) s = .next u ∧ (u.grove g).traps = rest ∧
      (rest = [] → (u.grove g).intrap = false ∧ (u.grove g).level = 0 ∧ (u.grove g).pc = (s.grove g).epc.toNat ∧ (u.grove g).halted = (s.grove g).thalt) ∧
      (∀ h more, rest = h :: more → (u.grove g).level = (s.grove g).level ∧ (u.grove g).pc = (s.grove g).svec.toNat ∧ (u.grove g).tr = trapWords h ∧
        (u.grove g).epc = (s.grove g).epc ∧ (u.grove g).thalt = (s.grove g).thalt) ∧
      (∀ e, r.unit = .elem e → isLive s r.tag = true → (∀ h ∈ rest, h.unit ≠ .elem e) → (u.elem e).stopped = false) ∧
      (r.unit = .seq g → isLive s r.tag = true → (∀ h ∈ rest, h.unit ≠ .seq g) → (u.grove g).stopped = false) ∧
      (u.grove g).taskBank = (s.grove g).taskBank ∧ (u.grove g).superBank = (s.grove g).superBank ∧ memoryKept s u

/-- A trap word (R313): at task level it costs 1 drop, completes and raises 0x1C1 with INFO n; at supervisor level it is a monitor call, which holds the sequencer at the next word. -/
def Obligations.TrapWordResults : Prop :=
  ∀ (t n : BitVec 6) (s : State), (wordSig (.trap t n)).cost = 1 ∧ (issuable s (.trap t n) = true →
    (∀ e k m, s.cur = .slot e k m → exec (.trap t n) s = .next (raiseSlot (issued s (.trap t n)) e k.toNat m 0x1C1 0 (n.zeroExtend 64))) ∧
    (∀ g a, s.cur = .word g a → (s.grove g).level = 0 →
      exec (.trap t n) s = .next (raiseSeq (issued s (.trap t n)) g a 0x1C1 0 (n.zeroExtend 64) (imemWord s g a))) ∧
    (∀ g a, s.cur = .word g a → (s.grove g).level ≠ 0 → ∃ u, exec (.trap t n) s = .next u ∧ (u.grove g).bank.hold = .monitor n ∧
      (u.grove g).pc = (a + 1) % 16384 ∧ mayIssue u g = false ∧ registersKept s u none ∧ memoryKept s u))

/-- The flow words of R132 and halt of R133: b, call and ret set PC to a target below 16,384, call leaves the next address in a15, loop counts down, wait holds until the time base reaches its value, nop does nothing, halt stops its strand or sequencer. -/
def Obligations.FlowResults : Prop :=
  (∀ (t : BitVec 6) (o : BitVec 20) (s : State) (g a : Nat), s.cur = .word g a → a < 16384 →
    (curAddr s + o.signExtend 64).toNat < 16384 →
    (issuable s (.branch t o) = true → ∃ u, exec (.branch t o) s = .next u ∧ ((u.grove g).pc : Int) = a + o.toInt ∧
      registersKept s u none ∧ predicatesKept s u ∧ stickyKept s u ∧ memoryKept s u ∧ restKept s u) ∧
    (issuable s (.call t o) = true → ∃ u, exec (.call t o) s = .next u ∧ ((u.grove g).pc : Int) = a + o.toInt ∧
      regVal u 47 = BitVec.ofNat 64 (a + 1) ∧ registersKept s u (some 47) ∧ predicatesKept s u ∧ stickyKept s u ∧ memoryKept s u ∧ restKept s u)) ∧
  (∀ (t a : BitVec 6) (s : State) (g w : Nat), s.cur = .word g w → issuable s (.ret t a) = true → (regVal s a).toNat < 16384 →
    ∃ u, exec (.ret t a) s = .next u ∧ (u.grove g).pc = (regVal s a).toNat ∧ registersKept s u none ∧ predicatesKept s u ∧ memoryKept s u ∧ restKept s u) ∧
  (∀ (t a : BitVec 6) (k : BitVec 3) (s : State), issuable s (.loopDec t k a) = true →
    ∃ u, exec (.loopDec t k a) s = .next u ∧ regVal u a = regVal s a - 1 ∧ pred u k.toNat = decide (regVal s a ≠ 1) ∧
      (∀ j, j < 8 → j ≠ k.toNat → pred u j = pred s j) ∧
      registersKept s u (some a) ∧ stickyKept s u ∧ memoryKept s u ∧ restKept s u) ∧
  (∀ (t a : BitVec 6) (s : State) (g w : Nat), s.cur = .word g w → issuable s (.wait t a) = true →
    ∃ u, exec (.wait t a) s = .next u ∧ (u.grove g).bank.hold = (if s.tb.toNat < (regVal s a).toNat then .time (regVal s a) else (s.grove g).bank.hold) ∧
      registersKept s u none ∧ predicatesKept s u ∧ memoryKept s u ∧ restKept s u) ∧
  (∀ (t : BitVec 6) (s : State), issuable s (.nop t) = true → exec (.nop t) s = .next (issued s (.nop t)) ∧
    registersKept s (issued s (.nop t)) none ∧ predicatesKept s (issued s (.nop t)) ∧ stickyKept s (issued s (.nop t)) ∧
    memoryKept s (issued s (.nop t)) ∧ restKept s (issued s (.nop t))) ∧
  (∀ (t : BitVec 6) (s : State), issuable s (.halt t) = true → ∃ u, exec (.halt t) s = .next u ∧
    (∀ e k n, s.cur = .slot e k n → ((u.elem e).active.strand k.toNat).halted = true ∧
      ∀ j : BitVec 2, j ≠ k → ((u.elem e).active.strand j.toNat).halted = ((s.elem e).active.strand j.toNat).halted) ∧
    (∀ g a, s.cur = .word g a → (u.grove g).halted = true) ∧ registersKept s u none ∧ predicatesKept s u ∧ memoryKept s u)

/-- A word whose guard fails is skipped: a step at it, where a sequencer may issue and the word is neither a continuation nor denied to its level, passes it, PC moving to the next word of the program, and nothing is paid (R24, R116, R131); a wait that its time has come for ends (R134). -/
def Obligations.SkippedWordsAndWaitsPass : Prop :=
  (∀ (s s' : State) (g : Nat) (rest : List Move),
    s.agenda = .issue g :: rest →
    s' = { s with agenda := rest, moveNo := s.moveNo + 1, tb := laterTime s.tb (Config.freeElapsed s.moveNo), guardPool := s.guardPool - (Config.guardDraw s.moveNo : Int) } →
    mayIssue s' g = true → ¬ ((s'.grove g).level = 0 ∧ (s'.grove g).sbase.toNat ≤ (s'.grove g).pc) →
    fld (imemWord s' g (s'.grove g).pc) 26 6 ≠ 63 → guardHolds (s'.grove g) (fld (imemWord s' g (s'.grove g).pc) 26 6) = false →
    step s = exec .skippedWord { s' with cur := .word g (s'.grove g).pc }) ∧
  (∀ (s : State) (g a : Nat), s.cur = .word g a → ∃ t, exec .skippedWord s = .next t ∧ (t.grove g).pc = (a + stride s g a) % 16384 ∧
    (∀ h, h ≠ g → t.grove h = s.grove h) ∧ t.tasks = s.tasks ∧ t.elems = s.elems ∧ registersKept s t none ∧ predicatesKept s t ∧ memoryKept s t ∧ restKept s t) ∧
  (∀ (s : State) (g : Nat) (v : Word), (s.grove g).bank.hold = .time v → v.toNat ≤ s.tb.toNat →
    ∃ t, exec (.sequencerWaitExpire g) s = .next t ∧ (t.grove g).bank.hold = .none ∧ (t.grove g).pc = (s.grove g).pc ∧
      registersKept s t none ∧ predicatesKept s t ∧ memoryKept s t ∧ restKept s t) ∧
  (∀ (s : State) (g : Nat) (v : Word), (s.grove g).bank.hold = .time v → s.tb.toNat < v.toNat → exec (.sequencerWaitExpire g) s = .next s)

/-- mfsr and mtsr (R303, R314): a register without task access raises 0x1C0 at task level after the word's cost, read or written; otherwise a read writes its value, and a write changes SVEC, EPC, STRAPEN or SAVEA where its level may. What a system register reads as (R303, R346, R362): unassigned numbers zero, STATUS by R304, SVEC, SBASE, EPC, the head record, the sticky flags and enables, the task and its serial, its context, the grove's numbers, the region, the argument block, the cellar, the root table, the selector with its overflow, the selected fault record, the suspension control, the save area and its size, and the partition. -/
def Obligations.SystemRegisterResults : Prop :=
  (∀ (t d a n : BitVec 6) (s : State) (g w : Nat), s.cur = .word g w →
     (issuable s (.mfsr t d n) = true → (s.supervising = true ∨ ¬ ((1 ≤ n.toNat ∧ n.toNat ≤ 3) ∨ (5 ≤ n.toNat ∧ n.toNat ≤ 12) ∨ (20 ≤ n.toNat ∧ n.toNat ≤ 30))) →
       exec (.mfsr t d n) s = .next (writeDst (issued s (.mfsr t d n)) d (some (readSys s g n.toNat)))) ∧
     (issuable s (.mfsr t d n) = true → s.supervising = false → ((1 ≤ n.toNat ∧ n.toNat ≤ 3) ∨ (5 ≤ n.toNat ∧ n.toNat ≤ 12) ∨ (20 ≤ n.toNat ∧ n.toNat ≤ 30)) →
       exec (.mfsr t d n) s = .next (causeAt (paid s (.mfsr t d n)) 0x1C0 0 0)) ∧
     (issuable s (.mtsr t n a) = true → s.supervising = false → ((1 ≤ n.toNat ∧ n.toNat ≤ 3) ∨ (5 ≤ n.toNat ∧ n.toNat ≤ 12) ∨ (20 ≤ n.toNat ∧ n.toNat ≤ 30)) →
       exec (.mtsr t n a) s = .next (causeAt (paid s (.mtsr t n a)) 0x1C0 0 0)) ∧
     (issuable s (.mtsr t n a) = true → s.supervising = true → ∃ u, exec (.mtsr t n a) s = .next u ∧ (n ≠ 28 → registersKept s u none ∧ predicatesKept s u ∧ memoryKept s u) ∧
       (n = 1 → (u.grove g).svec = (regVal s a).setWidth 14) ∧ (n = 3 → (u.grove g).epc = (regVal s a).setWidth 14) ∧
       (n = 14 → (u.grove g).strapen = (regVal s a).setWidth 6) ∧ (n = 29 → (u.grove g).savea.toNat = (regVal s a).toNat / 2 ^ 12 % 2 ^ 40 * 2 ^ 12) ∧
       (n.toNat ∉ [1, 3, 14, 23, 28, 29] → u = issued s (.mtsr t n a))) ∧
     (issuable s (.mtsr t n a) = true → s.supervising = false → n.toNat ∉ [14] → taskDenied n.toNat = false → exec (.mtsr t n a) s = .next (issued s (.mtsr t n a))) ∧
     (issuable s (.mtsr t 14 a) = true → exec (.mtsr t 14 a) s = .next ((issued s (.mtsr t 14 a)).modGrove g (fun x => { x with strapen := (regVal s a).setWidth 6 })))) ∧
  (∀ (s : State) (g n : Nat),
     (n = 4 ∨ 32 ≤ n → readSys s g n = 0) ∧
     ((s.grove g).traps.length ≤ 16 → (readSys s g 0).toNat % 4 = (s.grove g).level.toNat ∧ (readSys s g 0).getLsbD 2 = (s.grove g).intrap ∧
       (readSys s g 0).getLsbD 3 = (s.grove g).thalt ∧ (readSys s g 0).getLsbD 4 = (s.grove g).sflt ∧ (readSys s g 0).toNat / 256 = (s.grove g).traps.length) ∧
     readSys s g 1 = (s.grove g).svec.zeroExtend 64 ∧ readSys s g 2 = (s.grove g).sbase.zeroExtend 64 ∧ readSys s g 3 = (s.grove g).epc.zeroExtend 64 ∧
     (∀ j, j < 8 → readSys s g (5 + j) = (s.grove g).tr[j]?.getD 0) ∧
     readSys s g 13 = (s.grove g).sticky.zeroExtend 64 ∧ readSys s g 14 = (s.grove g).strapen.zeroExtend 64 ∧
     ((s.grove g).task = none → readSys s g 15 = 0) ∧
     (∀ t, (s.grove g).task = some t → t < 2 ^ 14 → (s.task t).serial < 2 ^ 32 → (readSys s g 15).toNat / 2 ^ 32 = (s.task t).serial ∧ (readSys s g 15).toNat % 2 ^ 32 = t) ∧
     readSys s g 16 = (s.grove g).ctxno.zeroExtend 64 ∧
     (g < 2 ^ 12 → (s.grove g).regionIndex < 2 ^ 12 → (readSys s g 17).toNat / 2 ^ 12 = g ∧ (readSys s g 17).toNat % 2 ^ 12 = (s.grove g).regionIndex) ∧
     readSys s g 18 = (s.grove g).region ∧ readSys s g 19 = (s.grove g).argblk ∧ readSys s g 20 = (s.grove g).cellar ∧ readSys s g 21 = (s.grove g).cellarn ∧
     ((s.grove g).task = none → readSys s g 22 = 0 ∧ readSys s g 30 = 0) ∧
     (∀ t, (s.grove g).task = some t → (readSys s g 22).toNat = (s.ctx (s.task t).ctx).root / 2 ^ 12 % 2 ^ 36 * 2 ^ 12 ∧ readSys s g 30 = BitVec.ofNat 64 (saveSize (s.task t))) ∧
     (readSys s g 23).toNat = (if (s.grove g).frovf then 2 ^ 8 else 0) + (s.grove g).frsel.toNat ∧
     (∀ r, (s.grove g).faults[(s.grove g).frsel.toNat]? = some r → (r.valid = false → readSys s g 24 = 0) ∧
       (r.valid = true → ∀ b, b < 64 → (readSys s g 24).getLsbD b = (r.fields.getLsbD b || decide (b = 63))) ∧
       readSys s g 25 = r.va <<< 22 ∧ readSys s g 26 = r.leaf ∧ readSys s g 27 = r.words) ∧
     (readSys s g 28).toNat = (s.grove g).suspTag.toNat * 2 ^ 50 + (s.grove g).suspState.toNat * 2 ^ 2 ∧ readSys s g 29 = (s.grove g).savea ∧
     (s.partOfGrove g = none → readSys s g 31 = 0) ∧
     (∀ p, s.partOfGrove g = some p → p < 2 ^ 6 → (s.part p).granules.length < 2 ^ 11 → (s.part p).rows < 2 ^ 6 → (s.part p).cols < 2 ^ 6 → (s.part p).row < 2 ^ 6 → (s.part p).col < 2 ^ 6 →
       let w := (readSys s g 31).toNat
       w / 2 ^ 58 = p ∧ w / 2 ^ 36 % 2 ^ 22 = (s.part p).granules.length ∧ w / 2 ^ 24 % 2 ^ 12 = (s.part p).rows ∧ w / 2 ^ 16 % 2 ^ 8 = (s.part p).cols ∧
       w / 2 ^ 8 % 2 ^ 8 = (s.part p).row ∧ w % 2 ^ 8 = (s.part p).col))

/-- The memory-management words of R348 to R351 at supervisor level: fltack returns the selected record to reset, agpause pauses an AG and has the sequencer hold for it, agpatch releases the pause and walks the AG's extents again, tlbinv and tlbinva leave no TLB entry that covers the address, or none of the context, in any grove of the region. -/
def Obligations.TranslationWordResults : Prop :=
  ∀ (t a : BitVec 6) (s : State) (g w : Nat), s.cur = .word g w → (s.grove g).level ≠ 0 →
    (issuable s (.fltack t a) = true → ∃ u, exec (.fltack t a) s = .next u ∧
      (∀ j, j < 8 → (u.grove g).faults[j]? = if j = (regVal s a).toNat % 8 then some {} else (s.grove g).faults[j]?) ∧
      registersKept s u none ∧ memoryKept s u ∧ (u.grove g).traps = (s.grove g).traps) ∧
    (issuable s (.agpause t a) = true → ∃ u, exec (.agpause t a) s = .next u ∧
      ((u.grove g).ag ((regVal s a).toNat % 512)).paused = true ∧ (u.grove g).pauseWait = some ((regVal s a).toNat % 512) ∧
      ((u.grove g).ag ((regVal s a).toNat % 512)).queue = ((s.grove g).ag ((regVal s a).toNat % 512)).queue ∧ registersKept s u none ∧ memoryKept s u) ∧
    (issuable s (.agpatch t a) = true → ∃ u, exec (.agpatch t a) s = .next u ∧
      ((u.grove g).ag ((regVal s a).toNat % 512)).paused = false ∧
      ((u.grove g).ag ((regVal s a).toNat % 512)).stopped = ((s.grove g).ag ((regVal s a).toNat % 512)).stopped ∧
      ((u.grove g).ag ((regVal s a).toNat % 512)).extents =
        rewalkExtents s (unitCtx s (.ag g ((regVal s a).toNat % 512))) none ((s.grove g).ag ((regVal s a).toNat % 512)).extents ∧
      ((∀ v, ∃ k, walk s (unitCtx s (.ag g ((regVal s a).toNat % 512))) v = .error k) → ((u.grove g).ag ((regVal s a).toNat % 512)).extents = []) ∧
      registersKept s u none ∧ memoryKept s u) ∧
    (issuable s (.tlbinv t a) = true → ∃ u, exec (.tlbinv t a) s = .next u ∧ registersKept s u none ∧ memoryKept s u ∧
      ∀ h ∈ tlbGroves s, ∀ x ∈ (u.grove h).tlb, (∀ k, s.taskOfGrove g = some k → x.ctx = (s.task k).ctx) →
        ¬ (x.va ≤ (regVal s a).toNat % 2 ^ 52 ∧ (regVal s a).toNat % 2 ^ 52 < x.va + x.size)) ∧
    (issuable s (.tlbinva t) = true → ∃ u, exec (.tlbinva t) s = .next u ∧ registersKept s u none ∧ memoryKept s u ∧
      ∀ h ∈ tlbGroves s, ∀ x ∈ (u.grove h).tlb, ∃ k, s.taskOfGrove g = some k ∧ x.ctx ≠ (s.task k).ctx)

/-- Reset leaves the machine as the rules give (R2, R64, R241, R303, R304, R320): no task, every sequencer at task level with SVEC and SBASE at 12,288, the other system registers at the zero of R303's Reset column, every wiring selector 0x300, memory with nothing listed, no bank owned, no trap queued, stage 0 with no feature negotiated. Values of the model's own choice, for which the spec gives no reset value: the time base is 0, every sequencer is halted, every grove is in service, registers w0 to w15, a0 to a15 and s0 to s7 and the predicates are zero (assumption 5), and memory that nothing has written reads zero (assumption 3). -/
def Obligations.ResetState : Prop :=
  State.reset.tb = 0 ∧ State.reset.mem = [] ∧ State.reset.tasks = [] ∧ State.reset.reqs = [] ∧ State.reset.stage = 0 ∧ State.reset.negotiated = false ∧ State.reset.err = false ∧
  (∀ g, readSys State.reset g 0 = 0 ∧ readSys State.reset g 1 = 12288 ∧ readSys State.reset g 2 = 12288 ∧ readSys State.reset g 3 = 0 ∧
    (∀ n, 5 ≤ n ∧ n ≤ 16 ∨ 18 ≤ n ∧ n ≤ 30 → readSys State.reset g n = 0) ∧ (State.reset.grove g).task = none ∧ mayIssue State.reset g = false) ∧
  (∀ e, selectSlot State.reset e = none ∧ ((State.reset.elem e).active).slotWord 0 = 0xFC000000 ∧ chanDepth ((State.reset.elem e).active.chanWord 0) = 2) ∧
  (∀ u c, readable (curKind u) true c = true → regVal { State.reset with cur := u } c = 0) ∧ (∀ u, curPreds { State.reset with cur := u } = 0) ∧
  (∀ e c j, j < 6 → selectorOf (mget resetWiring (State.reset.elem e).lc.wiring c) j = 0x300) ∧
  (∀ n b, b < 64 → (mapWord State.reset n).getLsbD b = true) ∧
  (∀ b, (State.reset.bank b).owner = .free) ∧ (∀ a, byteAt State.reset.mem a = 0)

/-- deq, peek, send, fwd, toss, mark and gnext (R153 to R157): a head's payload to a register, a value or a head with its tag to an outbound channel, a mark of a rank with the strand's generation, and the next generation. An enqueue appends one token to the outbound queue, with the class of the channel's entry; a rank-3 mark takes the element's sticky flags as its status; no other queue, register or byte changes, and the token counts as outstanding (R55, R59, R72). -/
def Obligations.ChannelWordResults : Prop :=
  (∀ (t d a b : BitVec 6) (s : State) (e n : Nat) (k : BitVec 2), s.cur = .slot e k n →
     (issuable s (.deq t d a) = true → exec (.deq t d a) s = .next (match srcVal s a with
       | some v => writeReg (issued s (.deq t d a)) d v
       | none => issued s (.deq t d a)) ∧ eats s (wordSig (.deq t d a)) = [a.toNat - 32]) ∧
     (issuable s (.peek t d a) = true → exec (.peek t d a) s = .next (match srcVal s a with
       | some v => writeReg (issued s (.peek t d a)) d v
       | none => issued s (.peek t d a)) ∧ eats s (wordSig (.peek t d a)) = []) ∧
     (issuable s (.send t d a) = true → exec (.send t d a) s = .next (enqueue (issued s (.send t d a)) e (d.toNat - 32) k.toNat (match srcVal s a with
       | some v => { payload := v, gen := curGen s }
       | none => { gen := curGen s, pres := false }))) ∧
     (issuable s (.fwd t d a) = true → ∃ x, headOf s e (a.toNat - 32) = some x ∧ exec (.fwd t d a) s = .next (enqueue (issued s (.fwd t d a)) e (d.toNat - 32) k.toNat x)) ∧
     (issuable s (.toss t a) = true → exec (.toss t a) s = .next (issued s (.toss t a)) ∧ eats s (wordSig (.toss t a)) = [a.toNat - 32]) ∧
     (issuable s (.mark t d b) = true → 1 ≤ b.toNat ∧ b.toNat ≤ 3 ∧
       exec (.mark t d b) s = .next (enqueue (issued s (.mark t d b)) e (d.toNat - 32) k.toNat { gen := curGen s, mark := BitVec.ofNat 3 b.toNat })) ∧
     (issuable s (.gnext t) = true → ∃ u, exec (.gnext t) s = .next u ∧ ((u.elem e).active.strand k.toNat).gen = curGen s + 1 ∧
       (∀ j : BitVec 2, j ≠ k → ((u.elem e).active.strand j.toNat).gen = ((s.elem e).active.strand j.toNat).gen) ∧
       registersKept s u none ∧ predicatesKept s u ∧ stickyKept s u ∧ memoryKept s u)) ∧
  (∀ (s : State) (e ch k : Nat) (x : Token), ch < 32 →
     (∃ y, (enqueue s e ch k x).tokens (queueKey e (.out (BitVec.ofNat 5 ch))) = s.tokens (queueKey e (.out (BitVec.ofNat 5 ch))) ++ [y] ∧
       y.cls = BitVec.ofNat 6 (chanClass ((s.elem e).active.chanWord ch)) ∧ y.gen = x.gen ∧ y.mark = x.mark ∧ y.frame = x.frame ∧ y.pres = x.pres ∧
       y.payload = (if x.mark = 3 then x.payload ||| (elemFlags (s.elem e)).zeroExtend 64 else x.payload) ∧ y.tid = s.nextTok) ∧
     (∀ q, q ≠ queueKey e (.out (BitVec.ofNat 5 ch)) → (enqueue s e ch k x).tokens q = s.tokens q) ∧
     (s.nextTok ≠ 0 → mfind (enqueue s e ch k x).outst s.nextTok =
       some { elem := e, ch := BitVec.ofNat 5 ch, copies := 1, gen := x.gen, strand := BitVec.ofNat 3 k, cls := BitVec.ofNat 6 (chanClass ((s.elem e).active.chanWord ch)) }) ∧
     registersKept s (enqueue s e ch k x) none ∧ predicatesKept s (enqueue s e ch k x) ∧ stickyKept s (enqueue s e ch k x) ∧ memoryKept s (enqueue s e ch k x))

/-- steer sends its source, a head with its tag, to the output that the predicate chooses, and is a send where both outputs are one (R158); select joins two heads of the same kind, takes both and raises join-mismatch 0x147 where only one is an end mark (R159); select.mrg takes only the chosen head (R160). A chosen head goes with its tag to a channel and its payload to a register; an absent one gives an absent token, or leaves the register. -/
def Obligations.SteerAndSelectResults : Prop :=
  (∀ (t d a b : BitVec 6) (m : BitVec 2) (s : State) (e n : Nat) (k : BitVec 2), s.cur = .slot e k n →
     (∀ i j, (i = .steerP0P3 t d a b m ∧ j = m.toNat) ∨ (i = .steerP4P7 t d a b m ∧ j = m.toNat + 4) → issuable s i = true →
       outs s (wordSig i) = [(if pred s j then d else b).toNat - 32] ∧
       (d ≠ b → exec i s = .next (enqueue (issued s i) e ((if pred s j then d else b).toNat - 32) k.toNat (match chanOf s a with
         | some ch => (headOf s e ch).getD {}
         | none => { payload := regVal s a, gen := curGen s }))) ∧
       (d = b → exec i s = .next (enqueue (issued s i) e (d.toNat - 32) k.toNat (match srcVal s a with
         | some v => { payload := v, gen := curGen s }
         | none => { gen := curGen s, pres := false })))) ∧
     (∀ i j, (i = .selectP0P3 t d a b m ∧ j = m.toNat) ∨ (i = .selectP4P7 t d a b m ∧ j = m.toNat + 4) → issuable s i = true →
       (endMark s a = none → endMark s b = none → exec i s = .next (writeChosen s (issued s i) d (if pred s j then a else b))) ∧
       (∀ x y, endMark s a = some x → endMark s b = some y → ∃ u z, exec i s = .next u ∧
         (32 ≤ d.toNat → u = enqueue (issued s i) e (d.toNat - 32) k.toNat z ∧ z.mark.toNat = max x.mark.toNat y.mark.toNat ∧
           z.payload = (x.payload ||| y.payload) &&& 63) ∧ (d.toNat < 32 → u = issued s i)) ∧
       ((endMark s a).isSome ≠ (endMark s b).isSome → exec i s = .next (causeAt (paid s i) 0x147 0 0))) ∧
     (∀ i j, (i = .selectMrgP0P3 t d a b m ∧ j = m.toNat) ∨ (i = .selectMrgP4P7 t d a b m ∧ j = m.toNat + 4) → issuable s i = true →
       eats s (wordSig i) = (chanOf s (if pred s j then a else b)).toList ∧
       exec i s = .next (writeChosen s (issued s i) d (if pred s j then a else b)))) ∧
  (∀ (s u : State) (d c : BitVec 6) (e n : Nat) (k : BitVec 2), s.cur = .slot e k n → u.cur = s.cur →
     (d.toNat < 32 → ∀ v, srcVal s c = some v → writeChosen s u d c = writeReg u d v) ∧
     (d.toNat < 32 → srcVal s c = none → writeChosen s u d c = u) ∧
     (32 ≤ d.toNat → srcVal s c = none → writeChosen s u d c = enqueue u e (d.toNat - 32) k.toNat { gen := curGen s, pres := false }) ∧
     (32 ≤ d.toNat → c.toNat < 32 → writeChosen s u d c = enqueue u e (d.toNat - 32) k.toNat { payload := regVal s c, gen := curGen s }) ∧
     (32 ≤ d.toNat → 32 ≤ c.toNat → ∀ x, sourceHead s e (c.toNat - 32) = some x → x.pres = true →
       writeChosen s u d c = enqueue u e (d.toNat - 32) k.toNat x))

/-- Every packed-lane word, short and long, writes the lanes its operation gives on its sources, to a register or in a fresh token of an outbound channel, and ORs the flags into the strand's sticky register; a flag whose trap is enabled stops the element after the result with its class-1 cause. It is absent where a source is (R54, R56, R69, R107, R136, R137). -/
def Obligations.LaneWordResults : Prop :=
  ∀ (i : Instr) (s : State) (vop lt st rm : Nat) (d : BitVec 6) (srcs : List (BitVec 6)), laneForm i = some (vop, lt, st, rm, d, srcs) →
    issuable s i = true → ∃ e k n, s.cur = .slot e k n ∧
    (∀ vs r, laneSources s srcs = some vs → r = laneEval vop lt st 0 (laneRounding s srcs rm) (curPreds s) (vs.getD 0 0) (vs.getD 1 0) (vs.getD 2 0) →
      ∃ u, exec i s = .next u ∧ takesFlags s u e k r.2 ∧ flagTrap s u e r.2 ∧
        (d.toNat < 16 ∨ 24 ≤ d.toNat ∧ d.toNat < 32 → regVal u d = BitVec.ofNat 64 r.1) ∧
        (32 ≤ d.toNat → sendsToken s u e (d.toNat - 32) (fun x => x.payload = BitVec.ofNat 64 r.1 ∧ x.gen = curGen s ∧ x.mark = 0 ∧ x.pres = true)) ∧
        registersKept s u (some d) ∧ predicatesKept s u ∧ memoryKept s u) ∧
    (laneSources s srcs = none → exec i s = .next (writeDst (issued s i) d none))

/-- Integer lanes (R136, R140 to R146, R149 to R151): every lane of add, sub, mul, min, max, abs, neg, sel, shuf, pack, unpk and splat, and the total of vsum in lane 0 with the other lanes zero, two's complement modulo the lane width; the sum of the eight products of vdot in 32 bits; none raises a flag. -/
def Obligations.IntegerLaneResults : Prop :=
  ∀ (lt st cc : Nat) (r : Nat → Rounding) (p : BitVec 8) (a b c j : Nat), lt ≤ 2 → j < 64 / laneWidth lt →
    let w := laneWidth lt
    let lane (x j : Nat) : Nat := x / 2 ^ (w * j) % 2 ^ w
    let value (x j : Nat) : Int := Int.bmod (lane x j) (2 ^ w)
    let result (vop : Nat) : Nat := lane (laneEval vop lt st cc r p a b c).1 j
    (result 0 : Int) = (value a j + value b j) % 2 ^ w ∧ (result 1 : Int) = (value a j - value b j) % 2 ^ w ∧
    (result 2 : Int) = value a j * value b j % 2 ^ w ∧
    (result 5 : Int) = (min (value a j) (value b j)) % 2 ^ w ∧ (result 6 : Int) = (max (value a j) (value b j)) % 2 ^ w ∧
    (result 7 : Int) = (value a j).natAbs % 2 ^ w ∧ (result 8 : Int) = (-(value a j)) % 2 ^ w ∧
    result 10 = (if p.getLsbD j then lane a j else lane b j) ∧
    result 19 = (if b / 16 ^ j % 16 < 64 / w then lane a (b / 16 ^ j % 16) else 0) ∧
    result 20 = (if j % 2 = 0 then lane a (j / 2) else lane b (j / 2)) ∧
    result 21 = (if j < 32 / w then lane a (2 * j) else lane a (2 * (j - 32 / w) + 1)) ∧
    result 22 = lane a 0 ∧
    (result 12 : Int) = (if j = 0 then ((List.range (64 / w)).map (value a)).sum % 2 ^ w else 0) ∧
    (lt = 0 → ((laneEval 11 lt st cc r p a b c).1 : Int) = ((List.range 8).map (fun i => value a i * value b i)).sum % 2 ^ 32) ∧
    (∀ vop ∈ [0, 1, 2, 5, 6, 7, 8, 10, 12, 19, 20, 21, 22], (laneEval vop lt st cc r p a b c).2 = 0) ∧ (lt = 0 → (laneEval 11 lt st cc r p a b c).2 = 0)

/-- Floating-point signs and orders (R37, R43, R141, R142): vabs clears and vneg inverts the sign of a lane that is no NaN and raise nothing; a NaN operand of vabs, vneg, vmin or vmax gives the format's canonical NaN, with invalid where it is signalling; vmin is the operand that lies at or below both, vmax the one at or above both, with -0 below +0. Under flush a subnormal operand is read, and returned, as the zero of its sign. A value that a format can represent is written as itself, whatever the rounding mode, and raises no flag (R36, R37, R40). -/
def Obligations.FloatLaneResults : Prop :=
  (∀ (lt : Nat) (flush : Bool) (x y : Nat), lt = 3 ∨ lt = 4 ∨ lt = 5 ∨ lt = 6 →
     x < 2 ^ laneWidth lt → y < 2 ^ laneWidth lt →
     let f := laneFormat lt
     let nan (z : Nat) : Bool := (fpRead f false z).isNan
     let signalling (z : Nat) : Bool := nan z && decide (z % 2 ^ f.manBits < 2 ^ (f.manBits - 1))
     let readAs (z : Nat) : Nat := if flush = true ∧ z % f.signBit < 2 ^ f.manBits then z / f.signBit * f.signBit else z
     (nan x = false → laneSign false lt flush x = (readAs x % f.signBit, 0)) ∧
     (nan x = false → laneSign true lt flush x = ((readAs x + f.signBit) % 2 ^ laneWidth lt, 0)) ∧
     (nan x = true → ∀ negate, laneSign negate lt flush x = (f.nan, if signalling x then Flag.iv else 0)) ∧
     (nan x = true ∨ nan y = true → ∀ most, laneExtreme most lt flush x y = (f.nan, if signalling x || signalling y then Flag.iv else 0)) ∧
     (nan x = false → nan y = false →
       ((laneExtreme false lt flush x y).1 = readAs x ∨ (laneExtreme false lt flush x y).1 = readAs y) ∧ (laneExtreme false lt flush x y).2 = 0 ∧
       (∀ k ∈ [readAs x, readAs y], numberKey f (laneExtreme false lt flush x y).1 ≤ numberKey f k ∧ numberKey f k ≤ numberKey f (laneExtreme true lt flush x y).1) ∧
       ((laneExtreme true lt flush x y).1 = readAs x ∨ (laneExtreme true lt flush x y).1 = readAs y) ∧ (laneExtreme true lt flush x y).2 = 0 ∧
       (readAs x % f.signBit = 0 → readAs y % f.signBit = 0 → readAs x ≠ readAs y → (laneExtreme false lt flush x y).1 = f.signBit ∧ (laneExtreme true lt flush x y).1 = 0))) ∧
  (∀ f ∈ [FpFormat.f32, .bf16, .f16, .f64, .e4m3, .e5m2], ∀ (x mode : Nat), x < 2 ^ f.width → mode ≤ 4 →
     (fpRead f false x).isNan = false → fpWrite f { mode := mode } (fpRead f false x) = (x, 0))

/-- vcmp sets one predicate for each lane, from the one its d names on, to whether the condition holds, of integers signed, of floats as numbers with -0 equal to +0 and an infinity beyond every finite one, ne and uo alone holding where a lane is a NaN, and leaves the others and every register; an order of a NaN, and any condition of a signalling one, raises invalid, and its trap, where enabled, stops the element after the result; an absent source leaves all predicates (R36, R43, R56, R69, R143). -/
def Obligations.CompareLanesWritePredicates : Prop :=
  ∀ (t d a b : BitVec 6) (lt : BitVec 4) (cc : BitVec 3) (s : State), issuable s (.vcmp t d a b lt cc) = true →
    (srcVal s a = none ∨ srcVal s b = none → exec (.vcmp t d a b lt cc) s = .next (issued s (.vcmp t d a b lt cc))) ∧
    (∀ x y, srcVal s a = some x → srcVal s b = some y →
      let lane (z : Word) (j : Nat) : Nat := z.toNat / 2 ^ (laneWidth lt.toNat * j) % 2 ^ laneWidth lt.toNat
      let v (z : Word) (j : Nat) : Int := Int.bmod (lane z j) (2 ^ laneWidth lt.toNat)
      let f := laneFormat lt.toNat
      let nan (z : Word) (j : Nat) : Prop := isNanOf f (lane z j)
      let signalling (z : Word) (j : Nat) : Prop := nan z j ∧ lane z j % 2 ^ f.manBits < 2 ^ (f.manBits - 1)
      ∃ e k n u r, s.cur = .slot e k n ∧ exec (.vcmp t d a b lt cc) s = .next u ∧ registersKept s u none ∧ memoryKept s u ∧ takesFlags s u e k r ∧ flagTrap s u e r ∧
        (lt.toNat ≤ 2 → r = 0) ∧ (3 ≤ lt.toNat → (r = 0 ∨ r = Flag.iv) ∧ (r = Flag.iv ↔ ∃ j, j < 64 / laneWidth lt.toNat ∧
          ((2 ≤ cc.toNat ∧ cc.toNat ≤ 5 ∧ (nan x j ∨ nan y j)) ∨ signalling x j ∨ signalling y j))) ∧
        (∀ j, j < 8 → ¬ (d.toNat ≤ j ∧ j < d.toNat + 64 / laneWidth lt.toNat) → pred u j = pred s j) ∧
        ∀ j, j < 64 / laneWidth lt.toNat →
          (lt.toNat ≤ 2 → (pred u (d.toNat + j) = true ↔ match cc.toNat with
            | 0 => v x j = v y j
            | 1 => v x j ≠ v y j
            | 2 => v x j < v y j
            | 3 => v x j ≤ v y j
            | 4 => v y j < v x j
            | _ => v y j ≤ v x j)) ∧
          (3 ≤ lt.toNat → (nan x j ∨ nan y j → (pred u (d.toNat + j) = true ↔ cc.toNat = 1 ∨ cc.toNat = 6)) ∧
            (∀ X Y, placeOf f (strandFlush s) (lane x j) = some X → placeOf f (strandFlush s) (lane y j) = some Y → (pred u (d.toNat + j) = true ↔ match cc.toNat with
              | 0 => X = Y
              | 1 => X ≠ Y
              | 2 => liesBelow X Y
              | 3 => liesBelow X Y ∨ X = Y
              | 4 => liesBelow Y X
              | 5 => liesBelow Y X ∨ X = Y
              | _ => False))))

/-- A load whose address is present, in a window and aligned sends one request for its bytes, sign- or zero-extended, to its register, channel or nothing (R73, R161 to R163), and ldg carries its wave fields (R97, R164); one with an absent address sends none, and of ldg an absent one. -/
def Obligations.LoadsSendOneRequest : Prop :=
  (∀ (t d a : BitVec 6) (s : State), srcVal s a = none →
    (∀ n : BitVec 8, issuable s (.ld t d a n) = true → exec (.ld t d a n) s = .next (writeDst (issued s (.ld t d a n)) d none)) ∧
    (∀ c : BitVec 6, issuable s (.ldS t d a c) = true → exec (.ldS t d a c) s = .next (writeDst (issued s (.ldS t d a c)) d none)) ∧
    (∀ c : BitVec 6, issuable s (.ldZ t d a c) = true → exec (.ldZ t d a c) s = .next (writeDst (issued s (.ldZ t d a c)) d none)) ∧
    (∀ seq pre succ : BitVec 8, issuable s (.ldg t d a seq pre succ) = true → ∃ u, exec (.ldg t d a seq pre succ) s = .next u ∧
      sendsInChain s u (fun q => q.kind = .absent ∧ q.dest = replyTo s d))) ∧
  ∀ (t d a : BitVec 6) (s : State) (v : Word), srcVal s a = some v →
    (∀ n : BitVec 8, issuable s (.ld t d a n) = true → addressCause s (v + n.signExtend 64 * 8) 8 false = none →
      ∃ u, exec (.ld t d a n) s = .next u ∧ sends s u (fun q => q.kind = .load false ∧ q.size = 8 ∧ q.dest = replyTo s d ∧
        aimed s (v + n.signExtend 64 * 8) q ∧ under s (v + n.signExtend 64 * 8) q)) ∧
    (∀ (c : BitVec 6) (sign : Bool) (i : Instr), (i = .ldS t d a c ∧ sign = true) ∨ (i = .ldZ t d a c ∧ sign = false) → issuable s i = true →
      addressCause s v (2 ^ c.toNat) false = none → c.toNat < 3 ∧
      ∃ u, exec i s = .next u ∧ sends s u (fun q => q.kind = .load sign ∧ q.size = 2 ^ c.toNat ∧ q.dest = replyTo s d ∧ aimed s v q ∧ under s v q)) ∧
    (∀ seq pre succ : BitVec 8, issuable s (.ldg t d a seq pre succ) = true → addressCause s v 8 false = none →
      ∃ u, exec (.ldg t d a seq pre succ) s = .next u ∧ sendsInChain s u (fun q => q.kind = .load false ∧ q.size = 8 ∧ q.dest = replyTo s d ∧ aimed s v q ∧
        ∃ w, q.wave = some w ∧ w.seq = seq ∧ w.succ = succ ∧ (w.pred = pre ∨ w.pred = 0xFF)))

/-- A store whose operands are present, in a window and aligned sends one request with its data, and a void of a range one request for the range; an absent operand sends none, and of stg an absent one that keeps its chain (R163, R164, R167). -/
def Obligations.StoresSendOneRequest : Prop :=
  ∀ (t d a : BitVec 6) (s : State),
    (∀ (n : BitVec 8) (v x : Word), srcVal s a = some v → srcVal s d = some x → issuable s (.st t d a n) = true → addressCause s (v + n.signExtend 64 * 8) 8 false = none →
      ∃ u, exec (.st t d a n) s = .next u ∧ sends s u (fun q => q.kind = .store ∧ q.size = 8 ∧ q.data = x ∧ q.dest = .none ∧
        aimed s (v + n.signExtend 64 * 8) q ∧ under s (v + n.signExtend 64 * 8) q)) ∧
    (∀ (c : BitVec 6) (v x : Word), srcVal s a = some v → srcVal s d = some x → issuable s (.stNarrow t d a c) = true → addressCause s v (2 ^ c.toNat) false = none →
      ∃ u, exec (.stNarrow t d a c) s = .next u ∧ sends s u (fun q => q.kind = .store ∧ q.size = 2 ^ c.toNat ∧ q.data = x ∧ aimed s v q ∧ under s v q)) ∧
    (∀ (seq pre succ : BitVec 8) (v x : Word), srcVal s a = some v → srcVal s d = some x → issuable s (.stg t d a seq pre succ) = true → addressCause s v 8 false = none →
      ∃ u, exec (.stg t d a seq pre succ) s = .next u ∧ sendsInChain s u (fun q => q.kind = .store ∧ q.size = 8 ∧ q.data = x ∧ aimed s v q ∧
        ∃ w, q.wave = some w ∧ w.seq = seq ∧ w.succ = succ ∧ (w.pred = pre ∨ w.pred = 0xFF))) ∧
    (∀ (v x : Word), srcVal s a = some v → srcVal s d = some x → addressCause s v 8 false = none → rangeCause s v x.toNat = none → issuable s (.void t a d) = true →
      ∃ u, exec (.void t a d) s = .next u ∧ (x = 0 → u = issued s (.void t a d)) ∧
        (x ≠ 0 → sends s u (fun q => q.kind = .void x.toNat ∧ aimed s v q ∧ under s v q))) ∧
    (srcVal s a = none ∨ srcVal s d = none →
      (∀ n : BitVec 8, issuable s (.st t d a n) = true → exec (.st t d a n) s = .next (issued s (.st t d a n))) ∧
      (∀ c : BitVec 6, issuable s (.stNarrow t d a c) = true → exec (.stNarrow t d a c) s = .next (issued s (.stNarrow t d a c))) ∧
      (issuable s (.void t a d) = true → exec (.void t a d) s = .next (issued s (.void t a d))) ∧
      (∀ seq pre succ : BitVec 8, issuable s (.stg t d a seq pre succ) = true → ∃ u, exec (.stg t d a seq pre succ) s = .next u ∧
        sendsInChain s u (fun q => q.kind = .absent)))

/-- Atomics, contributions, tile-tag operations, arrivals and waits send one request of their kind to an aligned word of a bank (R166, R168, R169, R175, R176); an absent operand or address sends none (R69), and an absent guard makes the arrival absent. A wait is held at its unit while an arrival of its strand at the word is outstanding (R176). -/
def Obligations.AtomicsSendOneRequest : Prop :=
  (∀ (t d a b : BitVec 6) (s : State), srcVal s a = none →
    (∀ f ∈ atomics, issuable s (f.1 t d a b) = true → exec (f.1 t d a b) s = .next (writeDst (issued s (f.1 t d a b)) d none)) ∧
    (∀ i ∈ [Instr.acc t a b, .tfull t a, .tempty t a, .barArrive t a b, .barWait t a b], issuable s i = true → exec i s = .next (issued s i))) ∧
  (∀ (t a b : BitVec 6) (s : State), srcVal s b = none → issuable s (.acc t a b) = true → exec (.acc t a b) s = .next (issued s (.acc t a b))) ∧
  ∀ (t d a b : BitVec 6) (s : State) (v : Word), srcVal s a = some v → addressCause s v 8 true = none →
    (∀ f ∈ atomics, ∀ x, srcVal s b = some x → issuable s (f.1 t d a b) = true → ∃ u, exec (f.1 t d a b) s = .next u ∧
      sends s u (fun q => q.kind = .atomic f.2 ∧ q.size = 8 ∧ q.data = x ∧ (f.2 = .cas → q.cmp = regVal s d) ∧ q.dest = replyTo s d ∧ aimed s v q ∧ under s v q)) ∧
    (∀ f ∈ atomics, srcVal s b = none → issuable s (f.1 t d a b) = true → exec (f.1 t d a b) s = .next (writeDst (issued s (f.1 t d a b)) d none)) ∧
    (∀ x, srcVal s b = some x → issuable s (.acc t a b) = true → ∃ u, exec (.acc t a b) s = .next u ∧
      sends s u (fun q => q.kind = .contribute ∧ q.data = x ∧ aimed s v q ∧ under s v q)) ∧
    (issuable s (.tfull t a) = true → ∃ u, exec (.tfull t a) s = .next u ∧ sends s u (fun q => q.kind = .tagFull ∧ aimed s v q ∧ under s v q)) ∧
    (issuable s (.tempty t a) = true → ∃ u, exec (.tempty t a) s = .next u ∧ sends s u (fun q => q.kind = .tagEmpty ∧ aimed s v q ∧ under s v q)) ∧
    (issuable s (.barArrive t a b) = true → ∃ u, exec (.barArrive t a b) s = .next u ∧
      sends s u (fun q => q.kind = .arrive (srcVal s b).isSome ∧ aimed s v q ∧ under s v q)) ∧
    (issuable s (.barWait t a b) = true → ∀ e off, resolveAddr s (curUnit s.cur) v.toNat = some (.bank e off) → ∃ u, exec (.barWait t a b) s = .next u ∧
      sends s u (fun q => q.wave = none ∧ aimed s v q ∧
        (arriving s (curUnit s.cur) (issueStrand s) (bankWord e off) = true → q.kind = .wait 0 ∧ q.stage = .joining) ∧
        (arriving s (curUnit s.cur) (issueStrand s) (bankWord e off) = false →
          q.kind = .wait (joinedPhase s (curUnit s.cur) (issueStrand s) (bankWord e off)) ∧ q.stage = .sent)))

/-- A memory word whose address is in no window, misaligned, or of a class its instruction is not defined on raises aperture, alignment or mode-mismatch with the address as ADDR: its cost has been taken and it has no other effect (R73, R74, R161, R163). The order in which the causes are looked at, a window before an alignment and that before the class, is the model's reading (assumption 16). What an address names (R73): GLOBAL below 2^52, an element's own banks at 0xFF0, its grove's M elements at 0xFF1, its region's elements at 0xFF2, and nothing else. acvt and ain (R172): a valid relative value becomes a generic address and back, one that is not valid raises aperture, and ain says whether an address lies in a space. -/
def Obligations.AddressesAndTheirCauses : Prop :=
  ((∀ (i : Instr) (s : State) (v : Word) (n : Nat) (bankOnly : Bool) (cause : Nat), accessOf s i = some (v, n, bankOnly) → issuable s i = true →
     addressCause s v n bankOnly = some cause → exec i s = .next (causeAt (paid s i) cause v 0)) ∧
   (∀ (s : State) (v : Word) (n : Nat) (bankOnly : Bool),
     (resolveAddr s (curUnit s.cur) v.toNat = none → addressCause s v n bankOnly = some 0x080) ∧
     (∀ c, resolveAddr s (curUnit s.cur) v.toNat = some c → v.toNat % n ≠ 0 → addressCause s v n bankOnly = some 0x081) ∧
     (∀ va, resolveAddr s (curUnit s.cur) v.toNat = some (.global va) → v.toNat % n = 0 → addressCause s v n bankOnly = if bankOnly then some 0x082 else none) ∧
     (∀ e off, resolveAddr s (curUnit s.cur) v.toNat = some (.bank e off) → v.toNat % n = 0 → addressCause s v n bankOnly = none))) ∧
  ((∀ (s : State) (e v : Nat),
      (v < 2 ^ 52 → resolveAddr s (.elem e) v = some (.global v)) ∧
      (v < 0x60000 → resolveAddr s (.elem e) (0xFF0 * 2 ^ 52 + v) = some (.bank e v)) ∧
      (0x60000 ≤ v → v < 2 ^ 52 → resolveAddr s (.elem e) (0xFF0 * 2 ^ 52 + v) = none) ∧
      (v < 0x60000 → ∀ g, resolveAddr s (.seq g) (0xFF0 * 2 ^ 52 + v) = none) ∧
      (∀ m, m < 128 → v < 0x60000 → resolveAddr s (.elem e) (0xFF1 * 2 ^ 52 + m * 0x60000 + v) = some (.bank (mElem (groveOf e) m) v)) ∧
      (∀ j x g, (unitRegion s (.elem e))[j]? = some g → x < 256 → v < 0x60000 → j < 2 ^ 20 →
        resolveAddr s (.elem e) (0xFF2 * 2 ^ 52 + (j * 256 + x) * 0x60000 + v) = some (.bank (elemAt g x) v)) ∧
      (∀ h, h ≠ 0 → h ≠ 0xFF0 → h ≠ 0xFF1 → h ≠ 0xFF2 → v < 2 ^ 52 → resolveAddr s (.elem e) (h * 2 ^ 52 + v) = none)) ∧
   (∀ (t d a b : BitVec 6) (s : State) (v : Word), srcVal s a = some v →
      (issuable s (.acvtGen t d a b) = true → v.toNat < spaceSize s b.toNat →
        exec (.acvtGen t d a b) s = .next (writeDst (issued s (.acvtGen t d a b)) d (some (BitVec.ofNat 64 (spaceBase b.toNat + v.toNat))))) ∧
      (issuable s (.acvtGen t d a b) = true → spaceSize s b.toNat ≤ v.toNat → exec (.acvtGen t d a b) s = .next (causeAt (paid s (.acvtGen t d a b)) 0x080 v 0)) ∧
      (issuable s (.acvtRel t d a b) = true → spaceBase b.toNat ≤ v.toNat → v.toNat < spaceBase b.toNat + spaceSize s b.toNat →
        exec (.acvtRel t d a b) s = .next (writeDst (issued s (.acvtRel t d a b)) d (some (BitVec.ofNat 64 (v.toNat - spaceBase b.toNat))))) ∧
      (issuable s (.acvtRel t d a b) = true → ¬ (spaceBase b.toNat ≤ v.toNat ∧ v.toNat < spaceBase b.toNat + spaceSize s b.toNat) →
        exec (.acvtRel t d a b) s = .next (causeAt (paid s (.acvtRel t d a b)) 0x080 v 0)) ∧
      (∀ k : BitVec 3, issuable s (.ain t k a b) = true → exec (.ain t k a b) s = .next (setPred (issued s (.ain t k a b)) k.toNat
        (decide (spaceBase b.toNat ≤ v.toNat ∧ v.toNat < spaceBase b.toNat + spaceSize s b.toNat))))))

/-- A fence of scope 0 to 4 joins the fence set of its strand or sequencer over the requests it has not performed (R100, R101, R173), and at reserves a place and waits for its time (R178). evset, evclr and evwait at supervisor level (R315): the named bit of the named context is set, cleared or left; no other context's vector changes; a context outside the partition raises 0x1C3, which goes to the monitor (R312). -/
def Obligations.FenceTimeAndEventResults : Prop :=
  ((∀ (t : BitVec 6) (s : State), ∀ f ∈ [(Instr.fenceE t, 0), (.fenceG t, 1), (.fenceT t, 2), (.fenceM t, 3), (.fenceD t, 4)], issuable s f.1 = true →
     ∃ u x, exec f.1 s = .next u ∧ fencesOf u (curUnit s.cur) = fencesOf s (curUnit s.cur) ++ [x] ∧ x.strand = issueStrand s ∧ x.scope = BitVec.ofNat 3 f.2 ∧
       (∀ r q, mfind s.reqs r = some q → (r, q) ∈ s.reqs → q.src = curUnit s.cur → q.strand = issueStrand s → inBackground q = false → performed s r = false → r ∈ x.waits) ∧
       registersKept s u none ∧ predicatesKept s u ∧ stickyKept s u ∧ memoryKept s u ∧ restKept s u) ∧
   (∀ (t d a : BitVec 6) (s : State) (e n : Nat) (k : BitVec 2) (v : Word), s.cur = .slot e k n → srcVal s a = some v → issuable s (.atTb t d a) = true →
     ∃ u x, exec (.atTb t d a) s = .next u ∧ (u.elem e).ats = (s.elem e).ats ++ [x] ∧ x.ch.toNat = d.toNat - 32 ∧ x.target = v ∧ x.strand = k ∧ x.gen = curGen s ∧
       mfind u.outst x.tid = some { elem := e, ch := x.ch, copies := 0, gen := curGen s, strand := BitVec.ofNat 3 k.toNat, cls := BitVec.ofNat 6 (chanClass ((s.elem e).active.chanWord (d.toNat - 32))) } ∧
       registersKept s u none ∧ predicatesKept s u ∧ stickyKept s u ∧ memoryKept s u) ∧
   (∀ (t d a : BitVec 6) (s : State), srcVal s a = none → issuable s (.atTb t d a) = true → exec (.atTb t d a) s = .next (writeDst (issued s (.atTb t d a)) d none))) ∧
  (∀ (t a : BitVec 6) (s : State) (g w c e : Nat), s.cur = .word g w → (s.grove g).level ≠ 0 →
     c = (regVal s a).toNat / 2 ^ 32 % 2 ^ 16 → e = (regVal s a).toNat % 256 →
     (ctxHere s c = true →
       (issuable s (.evset t a) = true → ∃ u, exec (.evset t a) s = .next u ∧
         (∀ j, j < 256 → (u.ctx c).events.getLsbD j = (decide (j = e) || (s.ctx c).events.getLsbD j)) ∧ (∀ x, x ≠ c → u.ctx x = s.ctx x) ∧
         registersKept s u none ∧ predicatesKept s u ∧ memoryKept s u) ∧
       (issuable s (.evclr t a) = true → ∃ u, exec (.evclr t a) s = .next u ∧
         (∀ j, j < 256 → (u.ctx c).events.getLsbD j = (!decide (j = e) && (s.ctx c).events.getLsbD j)) ∧ (∀ x, x ≠ c → u.ctx x = s.ctx x) ∧
         registersKept s u none ∧ predicatesKept s u ∧ memoryKept s u) ∧
       (issuable s (.evwait t a) = true → (s.ctx c).events.getLsbD e = true ∧ ∃ u, exec (.evwait t a) s = .next u ∧
         (∀ x, (u.ctx x).events = (s.ctx x).events) ∧ registersKept s u none ∧ predicatesKept s u ∧ memoryKept s u)) ∧
     (ctxHere s c = false → ∀ i ∈ [Instr.evset t a, .evwait t a, .evclr t a], issuable s i = true →
       ∃ u, exec i s = .next u ∧ (u.grove g).sflt = true ∧ (u.grove g).level = (s.grove g).level))


/-- refill moves n packets of the reserve, 16 drops each, into the task's meter or raises refill-range or reserve-short (R194); commit leaves the user word and halts the lead sequencer, or raises commit-misplaced (R195); abort makes the task vanish at once (R196, R198); chkpt counts the last checkpoint passed, and is the entry point of a pending wave (R179, R365). -/
def Obligations.MeterWordResults : Prop :=
  (∀ (t a : BitVec 6) (s : State) (v : Word), issuable s (.refill t a) = true → srcVal s a = some v →
    (curTask s = none → exec (.refill t a) s = .next (causeAt (paid s (.refill t a)) 0x102 0 0)) ∧
    (∀ k, curTask s = some k →
      (v = 0 ∨ 2 ^ 48 ≤ v.toNat → exec (.refill t a) s = .next (causeAt (paid s (.refill t a)) 0x102 0 0)) ∧
      (v ≠ 0 → v.toNat < 2 ^ 48 → (s.ctx (s.task k).ctx).reserve < v.toNat → exec (.refill t a) s = .next (causeAt (paid s (.refill t a)) 0x103 0 0)) ∧
      (v ≠ 0 → v.toNat < 2 ^ 48 → v.toNat ≤ (s.ctx (s.task k).ctx).reserve → mfind s.tasks k ≠ none → curGrove s ∈ (s.task k).groves → (s.task k).groves.Nodup →
        ∃ u, exec (.refill t a) s = .next u ∧ (u.ctx (s.task k).ctx).reserve = (s.ctx (s.task k).ctx).reserve - v.toNat ∧
          (u.task k).refilled = (s.task k).refilled + v.toNat ∧ balance u k = balance (issued s (.refill t a)) k + 16 * v.toNat ∧ quiet s u))) ∧
  (∀ (t a : BitVec 6) (s : State), issuable s (.refill t a) = true → srcVal s a = none → exec (.refill t a) s = .next (issued s (.refill t a))) ∧
  (∀ (t a : BitVec 6) (s : State) (g w : Nat), s.cur = .word g w → issuable s (.commit t a) = true →
    ((s.grove g).level = 0 → (s.grove g).regionIndex = 0 → ∃ u, exec (.commit t a) s = .next u ∧ (u.grove g).halted = true ∧
      (∀ k, s.taskOfGrove g = some k → mfind s.tasks k ≠ none → (u.task k).user = regVal s a) ∧ quiet s u) ∧
    ((s.grove g).level ≠ 0 ∨ (s.grove g).regionIndex ≠ 0 → exec (.commit t a) s = .next (causeAt (paid s (.commit t a)) 0x104 0 0))) ∧
  (∀ (t a : BitVec 6) (s : State), issuable s (.abort t a) = true →
    (∀ v k, srcVal s a = some v → curTask s = some k → isLive s k = true → ∃ u, exec (.abort t a) s = .next u ∧
      mget TagState.free u.tags k = .vanished ∧ (∀ h ∈ (s.task k).groves, (u.grove h).task = none)) ∧
    (srcVal s a = none ∨ curTask s = none → exec (.abort t a) s = .next (issued s (.abort t a)))) ∧
  (∀ (t : BitVec 6) (n : BitVec 14) (s : State), issuable s (.chkpt t n) = true →
    (curTask s = none → exec (.chkpt t n) s = .next (issued s (.chkpt t n))) ∧
    (∀ k, curTask s = some k → mfind s.tasks k ≠ none → (s.task k).superseded = false → ∃ u, exec (.chkpt t n) s = .next u ∧
      (u.task k).segment = max (s.task k).segment (n.toNat + 1) ∧ quiet s u ∧
      (∀ e j m, s.cur = .slot e j m → wavePending (s.task k) = true → (u.elem e).entered = true ∧ (u.elem e).chkptAt = some n ∧ (freezesHere s e = false → mayFire u e = false)) ∧
      (∀ g w, s.cur = .word g w → wavePending (s.task k) = true → (s.grove g).level = 0 → (u.grove g).entered = true ∧ mayIssue u g = false)) ∧
    (∀ k, curTask s = some k → mfind s.tasks k ≠ none → (s.task k).superseded = true → isLive s k = true → ∃ u, exec (.chkpt t n) s = .next u ∧
      mget TagState.free u.tags k = .vanished))

/-- race.k arms a round with a clean list of candidates, or raises the race cause where the plane has no race unit (R288, R289); place hands its header, histogram and destination to the placer and holds later accesses as fence.t would, or raises place-area for an area outside the region or a histogram that runs past its window (R294, R297); that the area is looked at before the address, and that a race.k whose guard is absent sends nothing, are the model's reading (assumptions 21 and 30). The lookup-cell words queue an array operation with their strand and slot, unless their guard or operand is absent (R246 to R252); lcout reserves the place of an outbound destination; bpt transposes eight bytes of eight bits (R253). -/
def Obligations.LookupRaceAndPlaceResults : Prop :=
  ((∀ (t d a b : BitVec 6) (s : State) (e n : Nat) (k : BitVec 2), s.cur = .slot e k n → issuable s (.raceK t d a b) = true →
     (nodeOf s e 5 = none → exec (.raceK t d a b) s = .next (causeAt (paid s (.raceK t d a b)) 0x152 0 0)) ∧
     (nodeOf s e 5 ≠ none → ∀ v, srcVal s a = some v → ∃ u tid, exec (.raceK t d a b) s = .next u ∧
       (u.elem e).race.armed = some (b.toNat, replyTo s d, k, curGen s, tid) ∧ (u.elem e).race.cands = [] ∧ (u.elem e).race.overRange = false ∧ quiet s u) ∧
     (nodeOf s e 5 ≠ none → srcVal s a = none → exec (.raceK t d a b) s = .next (issued s (.raceK t d a b)))) ∧
   (∀ (t d a b : BitVec 6) (s : State) (g w : Nat), s.cur = .word g w → issuable s (.place t d a b) = true →
     (badArea s g (regVal s a) = true → exec (.place t d a b) s = .next (causeAt (paid s (.place t d a b)) 0x153 0 0)) ∧
     (badArea s g (regVal s a) = false → addressCause s (regVal s b) 8 false = none →
       (pastWindow s (regVal s b) (plExperts (regVal s a)) = false → ∃ u p x, exec (.place t d a b) s = .next u ∧ (u.grove g).place = some p ∧
         p.header = regVal s a ∧ p.hist = regVal s b ∧ p.d = d ∧ p.supervisor = s.supervising ∧ p.sized = none ∧ p.reads = [] ∧ p.req = none ∧
         (u.grove g).fences = (s.grove g).fences ++ [x] ∧ x.scope = 2 ∧ x.strand = issueStrand s ∧ x.waits = p.waits ∧ quiet s u) ∧
       (pastWindow s (regVal s b) (plExperts (regVal s a)) = true → exec (.place t d a b) s = .next (causeAt (paid s (.place t d a b)) 0x153 0 0))) ∧
     (∀ c, badArea s g (regVal s a) = false → addressCause s (regVal s b) 8 false = some c →
       exec (.place t d a b) s = .next (causeAt (paid s (.place t d a b)) c (regVal s b) 0)))) ∧
  (∀ (t d a b : BitVec 6) (s : State) (e n : Nat) (k : BitVec 2), s.cur = .slot e k n →
     (∀ i o, (i = .lcld t d a b ∧ o = LcOp.load a (BitVec.ofNat 5 (d.toNat - 32)) 0 false) ∨ (i = .lcctx t a b ∧ o = .ctx (BitVec.ofNat 3 a.toNat)) ∨
         (i = .lcev t a b ∧ o = .sweep a.toNat false) ∨ (i = .lcevRel t a b ∧ o = .sweep a.toNat true) → issuable s i = true →
       (∀ v, srcVal s b = some v → ∃ u, exec i s = .next u ∧ (u.elem e).lc.queue = (s.elem e).lc.queue ++ [(o, k, n)] ∧
         (u.elem e).lc.slices = (s.elem e).lc.slices ∧ (u.elem e).lc.level = (s.elem e).lc.level ∧ quiet s u) ∧
       (srcVal s b = none → exec i s = .next (issued s i))) ∧
     (issuable s (.lcin t a b) = true →
       (∀ v x, srcVal s a = some v → srcVal s b = some x → ∃ u, exec (.lcin t a b) s = .next u ∧
         (u.elem e).lc.queue = (s.elem e).lc.queue ++ [(.put v (BitVec.ofNat 8 x.toNat), k, n)] ∧ quiet s u) ∧
       (srcVal s a = none ∨ srcVal s b = none → exec (.lcin t a b) s = .next (issued s (.lcin t a b)))) ∧
     (issuable s (.lcout t d a b) = true →
       (∀ v x, srcVal s a = some x → srcVal s b = some v → ∃ u dest tid, exec (.lcout t d a b) s = .next u ∧
         (u.elem e).lc.queue = (s.elem e).lc.queue ++ [(.out dest (BitVec.ofNat 10 x.toNat) (curGen s) tid, k, n)] ∧ dest = replyTo s d ∧
         (32 ≤ d.toNat → mfind u.outst tid = some { elem := e, ch := BitVec.ofNat 5 (d.toNat - 32), copies := 0, gen := curGen s, strand := BitVec.ofNat 3 k.toNat, cls := BitVec.ofNat 6 (chanClass ((s.elem e).active.chanWord (d.toNat - 32))) }) ∧ quiet s u) ∧
       (srcVal s b = none → exec (.lcout t d a b) s = .next (issued s (.lcout t d a b))) ∧
       (srcVal s b ≠ none → srcVal s a = none → exec (.lcout t d a b) s = .next (writeDst (issued s (.lcout t d a b)) d none))) ∧
     (issuable s (.bpt t d a) = true → ∀ x, srcVal s a = some x → ∃ y : Word, (∀ r c, r < 8 → c < 8 → y.getLsbD (8 * r + c) = x.getLsbD (8 * c + r)) ∧
       exec (.bpt t d a) s = .next (writeDst (issued s (.bpt t d a)) d (some y))))

/-- pload starts a preload into a position that holds no frozen frame (R264); pswap arms a swap by a rank once (R265); gcall starts the freeze wave and gret arms the return, with the causes of class 6 where they may not (R266, R269, R272). -/
def Obligations.PlaneWordResults : Prop :=
  (∀ (t a b : BitVec 6) (s : State) (e n : Nat) (k : BitVec 2), s.cur = .slot e k n →
    (issuable s (.pload t a b) = true → ∀ v, srcVal s b = some v →
      (a.toNat = 0 ∨ 3 < a.toNat ∨ holdsFrame (s.elem e) a.toNat = true → exec (.pload t a b) s = .next (causeAt (paid s (.pload t a b)) 0x182 0 0)) ∧
      (1 ≤ a.toNat → a.toNat ≤ 3 → holdsFrame (s.elem e) a.toNat = false → (cacheImage v).isSome = false → memoryImage v = false →
        exec (.pload t a b) s = .next (causeAt (paid s (.pload t a b)) 0x183 0 0)) ∧
      (1 ≤ a.toNat → a.toNat ≤ 3 → holdsFrame (s.elem e) a.toNat = false → (cacheImage v).isSome = true ∨ memoryImage v = true →
        ∃ u, exec (.pload t a b) s = .next u ∧ (u.elem e).preloads = (s.elem e).preloads ++ [{ pos := a.toNat, image := v, strand := k, slot := n, word := (s.elem e).active.slotWord n }] ∧
          (u.elem e).under = (s.elem e).under ∧ quiet s u)) ∧
    (issuable s (.pswap t b) = true →
      (canArm (s.elem e) = false → exec (.pswap t b) s = .next (causeAt (paid s (.pswap t b)) 0x180 0 0)) ∧
      (canArm (s.elem e) = true → (s.elem e).active.armk ≠ 0 → exec (.pswap t b) s = .next (causeAt (paid s (.pswap t b)) 0x181 0 0)) ∧
      (canArm (s.elem e) = true → (s.elem e).active.armk = 0 → ∃ u, exec (.pswap t b) s = .next u ∧ (u.elem e).active.armk.toNat = b.toNat ∧
        (u.elem e).passed = false ∧ quiet s u))) ∧
  (∀ (s : State) (g k : Nat), groveFrames s g k = true ↔ ∃ e ∈ groveElems g, (∃ x, mfind s.elems e = some x ∧ holdsFrame x k = true) ∨
    (mfind s.elems e = none ∧ k ≤ match s.taskOfGrove g with
      | some t => (s.task t).depth
      | none => 0)) ∧
  (∀ (t a b : BitVec 6) (s : State) (g w : Nat), s.cur = .word g w →
    (issuable s (.pload t a b) = true →
      (a.toNat = 0 ∨ 3 < a.toNat ∨ groveFrames s g a.toNat = true ∨ memoryImage (regVal s b) = true →
        exec (.pload t a b) s = .next (causeAt (paid s (.pload t a b)) 0x182 0 0)) ∧
      (1 ≤ a.toNat → a.toNat ≤ 3 → groveFrames s g a.toNat = false → memoryImage (regVal s b) = false →
        (cacheImage (regVal s b) = none → exec (.pload t a b) s = .next (causeAt (paid s (.pload t a b)) 0x183 0 0)) ∧
        (∀ k, cacheImage (regVal s b) = some k → ∃ u, exec (.pload t a b) s = .next u ∧ quiet s u ∧ ∀ e ∈ preloadElems s g a.toNat k,
          (u.elem e).preloads = (s.elem e).preloads ++ [{ pos := a.toNat, image := regVal s b, free := s.supervising, strand := issueStrand s, slot := w, word := imemWord s g w }]))) ∧
    (issuable s (.pswap t b) = true → ∃ u, exec (.pswap t b) s = .next u ∧ quiet s u ∧ ∀ e ∈ groveElems g,
      (u.elem e).active.armk.toNat = if canArm (s.elem e) = true ∧ (s.elem e).active.armk = 0 then b.toNat else (s.elem e).active.armk.toNat)) ∧
  (∀ (t a b : BitVec 6) (s : State),
    (issuable s (.pload t a b) = true → srcVal s b = none → exec (.pload t a b) s = .next (issued s (.pload t a b))) ∧
    (issuable s (.gcall t a b) = true → ∀ v x c, srcVal s b = some x → srcVal s a = some v → s.taskOfGrove (curGrove s) = some c →
      (∀ m, callCause (s.task c) (s.grove (curGrove s)).cellarn.toNat a v = some m → exec (.gcall t a b) s = .next (causeAt (paid s (.gcall t a b)) m 0 0)) ∧
      (callCause (s.task c) (s.grove (curGrove s)).cellarn.toNat a v = none → mfind s.tasks c ≠ none → ∃ u, exec (.gcall t a b) s = .next u ∧
        (u.task c).wave = some (.freeze (a == 16) ((cacheImage v).getD 0)) ∧ quiet s u ∧
        ∀ e k n, s.cur = .slot e k n → (u.elem e).called = true ∧ mayFire u e = false)) ∧
    (issuable s (.gcall t a b) = true → srcVal s b = none ∨ srcVal s a = none → exec (.gcall t a b) s = .next (issued s (.gcall t a b))) ∧
    (issuable s (.gret t a) = true → ∀ x c, srcVal s a = some x → s.taskOfGrove (curGrove s) = some c →
      ((s.task c).depth = 0 → exec (.gret t a) s = .next (causeAt (paid s (.gret t a)) 0x186 0 0)) ∧
      ((s.task c).depth ≠ 0 → mfind s.tasks c ≠ none → ∃ u, exec (.gret t a) s = .next u ∧ (s.task c).depth ∈ (u.task c).returning ∧ quiet s u)) ∧
    (issuable s (.gret t a) = true → srcVal s a = none → exec (.gret t a) s = .next (issued s (.gret t a)))) ∧
  (∀ (y : Task) (l : Nat) (a : BitVec 6) (v : Word), (a = 16 → callCause y l a v = if y.depth = 0 then none else some 0x180) ∧
    (a ≠ 16 → cacheImage v = none → callCause y l a v = some 0x183) ∧
    (a ≠ 16 → cacheImage v ≠ none → 255 ≤ y.depth → callCause y l a v = some 0x184) ∧
    (a ≠ 16 → cacheImage v ≠ none → y.depth < 255 → callCause y l a v = if y.depth < l + 3 then none else some 0x185))

/-- The stream words (R223 to R231): sbind and spat write an AG's staging state; sgo, scopy, sgath and sscat queue one command over it and sisect and smerge one in both queues of a pair, where the limits of R225, R227 and R228 hold, and raise stream-command where they do not; swait holds the sequencer while a command of its AG has not retired, and sbar, which may issue once all of the grove's have, does nothing more; a command that a grid call has put into a frame has not retired. -/
def Obligations.StreamWordResults : Prop :=
  ∀ (t d a b : BitVec 6) (n : BitVec 9) (ch : BitVec 5) (m x y push pop : BitVec 1) (mk : BitVec 2) (pf qf : BitVec 4) (s : State) (g w : Nat), s.cur = .word g w →
    let st := ((s.grove g).ag n.toNat).staging
    (issuable s (.sbind t a n ch x y) = true → (regVal s a).toNat / 2 ^ 52 ≠ 0 → ∃ u, exec (.sbind t a n ch x y) s = .next u ∧
      ((u.grove g).ag n.toNat).staging = { st with base := regVal s a, ch := ch, inbound := x == 1, sector := y == 1 } ∧
      ((u.grove g).ag n.toNat).queue = ((s.grove g).ag n.toNat).queue ∧ quiet s u) ∧
    (issuable s (.sbind t a n ch x y) = true → (regVal s a).toNat / 2 ^ 52 = 0 → ∀ z, (patchExtent (issued s (.sbind t a n ch x y)) g n.toNat (regVal s a).toNat).2 = .ok z →
      ∃ u, exec (.sbind t a n ch x y) s = .next u ∧
      ((u.grove g).ag n.toNat).staging = { st with base := regVal s a, ch := ch, inbound := x == 1, sector := y == 1 } ∧ quiet s u) ∧
    (issuable s (.spat t a b n) = true → ∃ u, exec (.spat t a b n) s = .next u ∧
      ((u.grove g).ag n.toNat).staging = { st with strides := regVal s a, counts := regVal s b } ∧ ((u.grove g).ag n.toNat).queue = ((s.grove g).ag n.toNat).queue ∧ quiet s u) ∧
    (issuable s (.sgo t n mk push pf pop qf) = true →
      (stagingOk s g n.toNat st = false ∨ st.inbound = true ∧ mk ≠ 0 → exec (.sgo t n mk push pf pop qf) s = .next (causeAt (paid s (.sgo t n mk push pf pop qf)) 0x14C 0 0)) ∧
      (stagingOk s g n.toNat st = true → ¬ (st.inbound = true ∧ mk ≠ 0) → ¬ (st.inbound = true ∧ isGlobal st.base = true) →
        ∃ u, exec (.sgo t n mk push pf pop qf) s = .next u ∧ queues s u g n.toNat (.affine mk) push pf pop qf) ∧
      (stagingOk s g n.toNat st = true → st.inbound = true → mk = 0 → isGlobal st.base = true →
        (checkWrites (issued s (.sgo t n mk push pf pop qf)) g n.toNat s.supervising (spanPages (patternSpan st).1.toNat (patternSpan st).2.toNat)).2.denied = none →
        ∃ u, exec (.sgo t n mk push pf pop qf) s = .next u ∧ queues s u g n.toNat (.affine mk) push pf pop qf)) ∧
    (issuable s (.scopy t a b n push pf pop qf) = true →
      (copyOk s g n.toNat (regVal s a) st (regVal s b).toNat = false → exec (.scopy t a b n push pf pop qf) s = .next (causeAt (paid s (.scopy t a b n push pf pop qf)) 0x14C 0 0)) ∧
      (∀ s', copyOk s g n.toNat (regVal s a) st (regVal s b).toNat = true →
        s' = (if isGlobal (regVal s a) = true then (patchExtent (issued s (.scopy t a b n push pf pop qf)) g n.toNat (regVal s a).toNat).1
          else issued s (.scopy t a b n push pf pop qf)) →
        (isGlobal (regVal s a) = true → ∃ z, (patchExtent (issued s (.scopy t a b n push pf pop qf)) g n.toNat (regVal s a).toNat).2 = .ok z) →
        (isGlobal st.base = true → (checkWrites s' g n.toNat s.supervising (spanPages st.base.toNat (st.base.toNat + (regVal s b).toNat - 1))).2.denied = none) →
        ∃ u, exec (.scopy t a b n push pf pop qf) s = .next u ∧ queues s u g n.toNat (.copy (regVal s a) (regVal s b).toNat) push pf pop qf)) ∧
    (issuable s (.sgath t n ch m push pf pop qf) = true →
      (stagingOk s g n.toNat st = false ∨ st.inbound = true → exec (.sgath t n ch m push pf pop qf) s = .next (causeAt (paid s (.sgath t n ch m push pf pop qf)) 0x14C 0 0)) ∧
      (stagingOk s g n.toNat st = true → st.inbound = false → ∃ u, exec (.sgath t n ch m push pf pop qf) s = .next u ∧
        queues s u g n.toNat (.gather ch (m == 1)) push pf pop qf)) ∧
    (issuable s (.sscat t n ch push pf pop qf) = true →
      (stagingOk s g n.toNat st = false ∨ st.inbound = false → exec (.sscat t n ch push pf pop qf) s = .next (causeAt (paid s (.sscat t n ch push pf pop qf)) 0x14C 0 0)) ∧
      (stagingOk s g n.toNat st = true → st.inbound = true → ∃ u, exec (.sscat t n ch push pf pop qf) s = .next u ∧
        queues s u g n.toNat (.scatter ch) push pf pop qf)) ∧
    (∀ i z, (i = .sisect t d n push pf pop qf ∧ z = false) ∨ (i = .smerge t d n push pf pop qf ∧ z = true) → issuable s i = true →
      (pairDesc s g n.toNat = none → exec i s = .next (causeAt (paid s i) 0x14E 0 0)) ∧
      (pairDesc s g n.toNat ≠ none → (stagingOk s g n.toNat st = false ∨ stagingOk s g (n.toNat + 1) ((s.grove g).ag (n.toNat + 1)).staging = false ∨
        st.inbound = true ∨ ((s.grove g).ag (n.toNat + 1)).staging.inbound = true) → exec i s = .next (causeAt (paid s i) 0x14C 0 0)) ∧
      (pairDesc s g n.toNat ≠ none → stagingOk s g n.toNat st = true → stagingOk s g (n.toNat + 1) ((s.grove g).ag (n.toNat + 1)).staging = true →
        st.inbound = false → ((s.grove g).ag (n.toNat + 1)).staging.inbound = false → ∃ u, exec i s = .next u ∧ queues s u g n.toNat (.set z true d) push pf pop qf ∧
        ∃ c, ((u.grove g).ag (n.toNat + 1)).queue = ((s.grove g).ag (n.toNat + 1)).queue ++ [c] ∧ c.kind = .set z false d ∧ c.order = (s.grove g).nextOrder)) ∧
    (issuable s (.swait t n) = true → ∃ u, exec (.swait t n) s = .next u ∧ quiet s u ∧
      (haveRetired s g n.toNat → (u.grove g).bank.hold = (s.grove g).bank.hold) ∧ (¬ haveRetired s g n.toNat → (u.grove g).bank.hold = .streams n.toNat)) ∧
    (issuable s (.sbar t) = true → exec (.sbar t) s = .next (issued s (.sbar t)) ∧ ∀ h, haveRetired s g h)

/-- tokenHop (M2, R60 to R63): a head whose route has one side crosses to the neighbour's input queue of its destination channel where that has room, and stays otherwise; a parity failure on the way loses it with a machine check 0x1C5; an invalid route, or a side off the module, loses it with cause 0x142; a fan-out of two or more puts a copy in every branch buffer where all have room. tokenDeliver (M3, R65, R70): a head at its local port joins its inbound FIFO where that has room; an end mark joins a last queued one of lower rank and equal generation. atEmit (R178): a pending at sends the time it waited for once that has come, but at the floor of its grove's cask (R400). Two points are the model's choice (assumption 30): that a side with no neighbour loses the copy with 0x142, and that the grove of a link's machine check is that of the router that receives. -/
def Obligations.TokenMoves : Prop :=
  (∀ (s : State) (e : Nat) (q : HopQ) (t : Token) (rest : List Token) (w : IWord), s.tokens (queueKey e q) = t :: rest → (∀ c d, q ≠ .branch c d) → routerHeld s e q = false →
    w = (s.elem e).active.routeWord t.cls.toNat →
    (∀ side n, routeValid w = true → routeBranches w = [some side] → neighbour e side = some n →
      (∀ key, key = queueKey n (.inq (opposite side) (BitVec.ofNat 5 (routeDch w))) →
        ((s.tokens key).length < hopCapacity e n → ∃ u, exec (.tokenHop e q false) s = .next u ∧
          u.tokens key = s.tokens key ++ [t] ∧ u.tokens (queueKey e q) = rest ∧ fabricKept s u [key, queueKey e q] ∧ u.outst = s.outst ∧ quiet s u ∧ restKept s u) ∧
        (hopCapacity e n ≤ (s.tokens key).length → exec (.tokenHop e q false) s = .next s)) ∧
      ((s.tokens (queueKey n (.inq (opposite side) (BitVec.ofNat 5 (routeDch w))))).length < hopCapacity e n →
        exec (.tokenHop e q true) s = .next (machineCheck (consumeCopy (s.setTokens (queueKey e q) rest) t.tid) (groveOf n) 0x1C5 0)) ∧
      (hopCapacity e n ≤ (s.tokens (queueKey n (.inq (opposite side) (BitVec.ofNat 5 (routeDch w))))).length → exec (.tokenHop e q true) s = .next s)) ∧
    (routeValid w = false ∨ routeBranches w = [] → ∀ p, exec (.tokenHop e q p) s = .next (raiseRouter (consumeCopy (s.setTokens (queueKey e q) rest) t.tid) e 0x142)) ∧
    (∀ side, routeValid w = true → routeBranches w = [some side] → neighbour e side = none →
      ∀ p, exec (.tokenHop e q p) s = .next (raiseRouter (consumeCopy (s.setTokens (queueKey e q) rest) t.tid) e 0x142)) ∧
    (routeValid w = true → 2 ≤ (routeBranches w).length → (∀ b ∈ routeBranches w, (s.tokens (queueKey e (.branch t.cls b))).length < 16) →
      ∀ p, ∃ u, exec (.tokenHop e q p) s = .next u ∧ u.tokens (queueKey e q) = rest ∧
        (∀ b ∈ routeBranches w, u.tokens (queueKey e (.branch t.cls b)) = s.tokens (queueKey e (.branch t.cls b)) ++ [t]) ∧
        (∀ o, mfind s.outst t.tid = some o → mfind u.outst t.tid = some { o with copies := o.copies + ((routeBranches w).length - 1) }) ∧ quiet s u)) ∧
  (∀ (s : State) (e ch : Nat) (q : HopQ) (t : Token) (rest : List Token) (w : IWord), s.tokens (queueKey e q) = t :: rest → routerHeld s e q = false →
    w = (s.elem e).active.routeWord t.cls.toNat → ch = routeDch w →
    ((∃ c, q = .branch c none) ∨ (∀ c d, q ≠ .branch c d) ∧ routeValid w = true ∧ routeBranches w = [none]) →
    discards s e ch = false → decodes ((s.elem e).active.chanWord ch) = false →
    (t.mark = 0 → slotsUsed ((s.elem e).active.fifo ch) < chanDepth ((s.elem e).active.chanWord ch) → ∃ u, exec (.tokenDeliver e q) s = .next u ∧
      (u.elem e).active.fifo ch = (s.elem e).active.fifo ch ++ [t] ∧ (∀ c, c ≠ ch → (u.elem e).active.fifo c = (s.elem e).active.fifo c) ∧
      u.tokens (queueKey e q) = rest ∧ fabricKept s u [queueKey e q] ∧ u.outst = s.outst ∧ quiet s u ∧ restKept s u) ∧
    (t.mark = 0 → chanDepth ((s.elem e).active.chanWord ch) ≤ slotsUsed ((s.elem e).active.fifo ch) → exec (.tokenDeliver e q) s = .next s) ∧
    (∀ x, ((s.elem e).active.fifo ch).getLast? = some x → t.isEnd = true → x.isEnd = true → x.mark.toNat < t.mark.toNat → x.gen = t.gen →
      ∃ u y, exec (.tokenDeliver e q) s = .next u ∧ (u.elem e).active.fifo ch = ((s.elem e).active.fifo ch).dropLast ++ [y] ∧
        y.mark = t.mark ∧ y.gen = x.gen ∧ y.payload = x.payload ||| (t.payload &&& 63) ∧ u.tokens (queueKey e q) = rest ∧ quiet s u)) ∧
  (∀ (s : State) (e n : Nat) (p : PendingAt), (s.elem e).ats[n]? = some p → (s.elem e).frozen = false → atFloor s (groveOf e) = false →
    (p.target.toNat ≤ s.tb.toNat → ∃ u x, exec (.atEmit e n) s = .next u ∧ (u.elem e).ats = (s.elem e).ats.eraseIdx n ∧
      u.tokens (queueKey e (.out p.ch)) = s.tokens (queueKey e (.out p.ch)) ++ [x] ∧ x.payload = p.target ∧ x.gen = p.gen ∧ x.mark = 0 ∧ x.pres = true ∧
      (p.tid ≠ 0 → mfind u.outst p.tid = some { elem := e, ch := p.ch, copies := 1, gen := p.gen, strand := BitVec.ofNat 3 p.strand.toNat, cls := BitVec.ofNat 6 (chanClass ((s.elem e).active.chanWord p.ch.toNat)) }) ∧ quiet s u) ∧
    (s.tb.toNat < p.target.toNat → exec (.atEmit e n) s = .next s))

/-- Requests on their way: requestAdmit (M4, R96, R99) puts a sent request at the end of its port's queue, where the bank's grove is not at the floor of its cask (R400); waveRequestRelease (R98) sends a held request once its PRED request is known and both have one destination unit, or once that of another unit is performed, then with PRED 0xFF; tableWalk (R340 to R342) gives a waiting request the target of its leaf, from the TLB or from a walk that installs the leaf, or the cause that the leaf or the walk gives; remoteAccessTimeout (R395) fails a request to another module after 1 ms, or ends an absent one. That its id stays taken until the late reply has come (assumption 30), and that a walk whose root lies outside the HBM ends in the fault noSuchMemory (assumption 25), are the model's. -/
def Obligations.RequestMoves : Prop :=
  ∀ (s : State) (r : Nat) (q : Req), mfind s.reqs r = some q →
    (q.stage = .sent → pathBlocked s r q = false → portRoom s r q = true → portStopped s q = false → ∃ u, exec (.requestAdmit r) s = .next u ∧
      (u.port (portOf q.target)).queue = (s.port (portOf q.target)).queue ++ [r] ∧ mfind u.reqs r = some { q with stage := .queued } ∧
      (∀ p, p ≠ portOf q.target → u.port p = s.port p) ∧ requestsKept s u r ∧ quiet s u) ∧
    (q.stage = .sent → pathBlocked s r q = true ∨ portRoom s r q = false ∨ portStopped s q = true → exec (.requestAdmit r) s = .next s) ∧
    (∀ w p t, q.stage = .held → q.wave = some w → w.pred ≠ 0xFF → q.pred = some ⟨p, some t⟩ → portOf t = portOf q.target → ∃ u, exec (.waveRequestRelease r) s = .next u ∧
        mfind u.reqs r = some { q with stage := .sent } ∧ requestsKept s u r ∧ quiet s u) ∧
    (∀ w, q.stage = .held → q.wave = some w → w.pred ≠ 0xFF → q.pred = none → ∃ u, exec (.waveRequestRelease r) s = .next u ∧
        mfind u.reqs r = some q ∧ requestsKept s u r ∧ quiet s u) ∧
    (∀ w p t, q.stage = .after p → q.wave = some w → w.pred ≠ 0xFF → q.destination.isSome = true → q.pred = some ⟨p, t⟩ → t.map portOf ≠ some (portOf q.target) →
      ∃ u, exec (.waveRequestRelease r) s = .next u ∧ requestsKept s u r ∧ quiet s u ∧
        (performed s p = true → mfind u.reqs r = some { q with stage := .sent, wave := some { w with pred := 0xFF } }) ∧
        (performed s p = false → mfind u.reqs r = some q)) ∧
    (∀ p, q.stage = .after p → q.destination = none → ∃ u, exec (.waveRequestRelease r) s = .next u ∧ requestsKept s u r ∧ quiet s u ∧
        mfind u.reqs r = some (if performed s p = true then { q with stage := .done 0 0 } else q)) ∧
    (∀ t, q.stage = .xlate → tlbFind s (groveOfUnit q.src) (unitCtx s q.src) q.addr = some t → ∀ v, translates s (patchBack s q t.leaf t.size) r v q t.leaf t.size) ∧
    (q.stage = .xlate → tlbFind s (groveOfUnit q.src) (unitCtx s q.src) q.addr = none → ∀ v,
      (hbmEnd ≤ (s.ctx (unitCtx s q.src)).root → exec (.tableWalk r v) s = .fault (.noSuchMemory (s.ctx (unitCtx s q.src)).root)) ∧
      ((s.ctx (unitCtx s q.src)).root < hbmEnd →
        (∀ k, walk s (unitCtx s q.src) q.addr = .error k → ∃ u, exec (.tableWalk r v) s = .next u ∧ mfind u.reqs r = some { q with stage := .failed k } ∧ requestsKept s u r ∧ quiet s u) ∧
        (∀ leaf size p, walk s (unitCtx s q.src) q.addr = .ok (leaf, size) →
          p = patchBack (tlbFill s (groveOfUnit q.src) v { ctx := unitCtx s q.src, va := q.addr / size * size, size := size, leaf := leaf }) q leaf size →
          (∃ x ∈ (p.grove (groveOfUnit q.src)).tlb, x.ctx = unitCtx s q.src ∧ x.va = q.addr / size * size ∧ x.size = size ∧ x.leaf = leaf) ∧ translates s p r v q leaf size))) ∧
    (∀ m pa, q.target = .module m pa → q.stage = .deferred →
      (q.since + 1000000 ≤ s.tb.toNat → ∃ u, exec (.remoteAccessTimeout r) s = .next u ∧ requestsKept s u r ∧ quiet s u ∧
        (q.kind ≠ .absent → mfind u.reqs r = some { q with stage := .failed 0x0C5, rid := 0, left := none }) ∧ (q.kind = .absent → q.dest ≠ .none → ∃ x, mfind u.reqs r = some x ∧ x.stage = .done 0 0) ∧
        (q.rid ≠ 0 → ((s.task q.tag).serial, q.rid) ∈ u.staleRids)) ∧
      (s.tb.toNat < q.since + 1000000 → exec (.remoteAccessTimeout r) s = .next s))

/-- requestServe and deferredReadWake (M5, M6, R42, R47, R78 to R83, R166, R168). At a word of a bank: a load of a plain word takes its bytes, sign- or zero-extended; a store writes its bytes and no other, marks the word full and ends; an atomic returns the old value and leaves the new one, aaddf's lanes each one rounding of the sum. In an SA window a load of an empty word is deferred, one of a full word answered, a store to an empty word made and one to a full word fails with 0x083; in an AC window the last contribution completes the sum and one to a full word fails with 0x085. An operand store's buffer takes a store while its tag is empty and gets its tag with its last word, or by tfull and tempty; a FIFO window appends, takes its head, defers or waits at its first word and fails with 0x087 at another; a line buffer appends, and gives words of its complete lines. At a sector of HBM a task's load takes the data of a full sector, or of its own or a producer's tentative one, and else is deferred; its store makes an empty sector tentative, zero but for what is stored, writes its own, is deferred at another's and fails with 0x083 at a full one. A deferred load whose word has become full takes its value. -/
def Obligations.BankServing : Prop :=
  (∀ (s : State) (r e off : Nat) (q : Req) (sign : Bool), atPlainWord s r q e off → q.kind = .load sign → q.size ∈ [1, 2, 4, 8] → off % 8 + q.size ≤ 8 →
    ∃ u v, exec (.requestServe r false) s = .next u ∧ mfind u.reqs r = some { q with stage := .done v 0 } ∧
      (sign = false → v.toNat = readBytes s.mem (bankAddr e off) q.size) ∧
      (sign = true → v.toInt = Int.bmod (readBytes s.mem (bankAddr e off) q.size) (2 ^ (8 * q.size))) ∧ requestsKept s u r ∧ quiet s u) ∧
  (∀ (s : State) (r e off : Nat) (q : Req), atPlainWord s r q e off → q.kind = .store → q.size ∈ [1, 2, 4, 8] → off % q.size = 0 → Memory.wf s.mem = true →
    (∀ m a b, q.src ≠ .remote m a b) →
    ∃ u, exec (.requestServe r false) s = .next u ∧ readBytes u.mem (bankAddr e off) q.size = q.data.toNat % 2 ^ (8 * q.size) ∧
      (∀ a, a < bankAddr e off ∨ bankAddr e off + q.size ≤ a → byteAt u.mem a = byteAt s.mem a) ∧
      u.wordMeta (bankWord e off) = { full := true } ∧ (∀ w, w ≠ bankWord e off → u.wordMeta w = s.wordMeta w) ∧
      mfind u.reqs r = none ∧ requestsKept s u r ∧ registersKept s u none ∧ predicatesKept s u ∧ stickyKept s u) ∧
  (∀ (s : State) (r e off : Nat) (q : Req) (op : AtomicOp), atPlainWord s r q e off → q.kind = .atomic op → op ≠ .addf → q.size = 8 → off % 8 = 0 → isC e = false → Memory.wf s.mem = true →
    ∃ u, exec (.requestServe r false) s = .next u ∧ wordAt u.mem (bankAddr e off) = atomicValue op (wordAt s.mem (bankAddr e off)) q.data q.cmp ∧
      mfind u.reqs r = some { q with stage := .done (wordAt s.mem (bankAddr e off)) 0 } ∧
      (∀ a, a < bankAddr e off ∨ bankAddr e off + 8 ≤ a → byteAt u.mem a = byteAt s.mem a) ∧ requestsKept s u r ∧ registersKept s u none ∧ predicatesKept s u ∧ stickyKept s u) ∧
  (∀ (s : State) (r e off : Nat) (q : Req), atPlainWord s r q e off → q.kind = .atomic .addf → q.size = 8 → off % 8 = 0 → isC e = false → Memory.wf s.mem = true →
    let old := wordAt s.mem (bankAddr e off)
    let lane (x : Word) (j : Nat) : Nat := x.toNat / 2 ^ (32 * j) % 2 ^ 32
    ∃ u f, exec (.requestServe r false) s = .next u ∧ mfind u.reqs r = some { q with stage := .done old f } ∧
      (∀ j, j < 2 →
        (∀ X Y, realOf .f32 false (lane old j) = some X → realOf .f32 false (lane q.data j) = some Y →
          ∃ g, roundsTo .f32 { mode := 0 } (X + Y) (lane (wordAt u.mem (bankAddr e off)) j, g) ∧ g ||| f = f ∧
            (X + Y = 0 → lane (wordAt u.mem (bankAddr e off)) j = if zeroIsNegative 0 [(X, lane old j / 2 ^ 31 == 1), (Y, lane q.data j / 2 ^ 31 == 1)] then 2 ^ 31 else 0)) ∧
        (isNanOf .f32 (lane old j) ∨ isNanOf .f32 (lane q.data j) → lane (wordAt u.mem (bankAddr e off)) j = 0x7FC00000)) ∧
      (u.wordMeta (bankWord e off)).full = true ∧ (∀ a, a < bankAddr e off ∨ bankAddr e off + 8 ≤ a → byteAt u.mem a = byteAt s.mem a) ∧
      requestsKept s u r ∧ registersKept s u none ∧ predicatesKept s u ∧ stickyKept s u) ∧
  (∀ (s : State) (r e off : Nat) (q : Req) (d : Desc), atWindow s r q e off 0 d → winMode d = 0 →
    (q.kind = .load false → (s.wordMeta (bankWord e off)).full = true → answers s r q (wordAt s.mem (bankAddr e off))) ∧
    (q.kind = .load false → (s.wordMeta (bankWord e off)).full = false → isDeferred s r q) ∧
    (q.kind = .load false → (s.wordMeta (bankWord e off)).full = false → 64 ≤ (s.port (portOf q.target)).deferred.length → failsWith s r q 0x086) ∧
    (q.kind = .store → (s.wordMeta (bankWord e off)).full = true → failsWith s r q 0x083) ∧
    (q.kind = .store → (s.wordMeta (bankWord e off)).full = false → Memory.wf s.mem = true → (∀ m a b, q.src ≠ .remote m a b) →
      ∃ u, stores s u r (bankAddr e off) q.data ∧ u.wordMeta (bankWord e off) = { full := true })) ∧
  (∀ (s : State) (r e off : Nat) (q : Req) (d : Desc), atWindow s r q e off 0 d → winMode d = 1 → q.kind = .contribute → isC e = false →
    (∀ m a b, q.src ≠ .remote m a b) →
    ((s.wordMeta (bankWord e off)).full = true → failsWith s r q 0x085) ∧
    ((s.wordMeta (bankWord e off)).full = false → Memory.wf s.mem = true → ∃ u, stores s u r (bankAddr e off) (wordAt s.mem (bankAddr e off) + q.data) ∧
      ((s.wordMeta (bankWord e off)).spent + 1 < winAcn d → u.wordMeta (bankWord e off) = { full := false, spent := (s.wordMeta (bankWord e off)).spent + 1 }) ∧
      (winAcn d ≤ (s.wordMeta (bankWord e off)).spent + 1 → u.wordMeta (bankWord e off) = { full := true }))) ∧
  (∀ (s : State) (r e off i : Nat) (q : Req) (d : Desc), atWindow s r q e off 1 d → i = (off - winBase d) / bufBytes d → i < 4 → (∀ m a b, q.src ≠ .remote m a b) →
    let tag (t : State) (j : Nat) : Bool := (t.window (winKey e d)).tags.getLsbD j
    let word (n : Nat) : Nat := bankWord e (winBase d + i * bufBytes d + 8 * n)
    (q.kind = .store → tag s i = true → exec (.requestServe r false) s = .next s) ∧
    (q.kind = .store → tag s i = false → winMode d = 2 ∨ winMode d = 0 ∧ (s.wordMeta (bankWord e off)).full = false → Memory.wf s.mem = true →
      ∃ u, stores s u r (bankAddr e off) q.data ∧ u.wordMeta (bankWord e off) = { full := true } ∧
        (tag u i = true ↔ ∀ n, n < bufBytes d / 8 → (u.wordMeta (word n)).full = true) ∧ ∀ j, j ≠ i → tag u j = tag s j) ∧
    (∀ b, q.kind = .tagFull ∧ b = true ∨ q.kind = .tagEmpty ∧ b = false → ∃ u, exec (.requestServe r false) s = .next u ∧ tag u i = b ∧ (∀ j, j ≠ i → tag u j = tag s j) ∧
      (tag s i = b → u.words = s.words) ∧ (tag s i ≠ b → ∀ n, n < bufBytes d / 8 → u.wordMeta (word n) = { full := b }) ∧
      u.mem = s.mem ∧ mfind u.reqs r = none ∧ requestsKept s u r ∧ registersKept s u none ∧ predicatesKept s u ∧ stickyKept s u)) ∧
  (∀ (s : State) (r e off cap : Nat) (q : Req) (d : Desc) (w : WinState), atWindow s r q e off 2 d → w = s.window (winKey e d) → cap = winLen d / 8 →
    (off ≠ winBase d → q.kind = .load false ∨ q.kind = .store → failsWith s r q 0x087) ∧
    (off = winBase d → q.kind = .store → (∀ m a b, q.src ≠ .remote m a b) →
      (w.count < cap → Memory.wf s.mem = true → ∃ u, stores s u r (bankAddr e (winBase d + (w.head + w.count) % cap * 8)) q.data ∧ u.window (winKey e d) = { w with count := w.count + 1 }) ∧
      (cap ≤ w.count → exec (.requestServe r false) s = .next s)) ∧
    (off = winBase d → q.kind = .load false → (w.count = 0 → isDeferred s r q) ∧
      (w.count ≠ 0 → ∃ u a, exec (.requestServe r false) s = .next u ∧ a = winBase d + w.head * 8 ∧ mfind u.reqs r = some { q with stage := .done (wordAt s.mem (bankAddr e a)) 0 } ∧
        u.window (winKey e d) = { w with head := (w.head + 1) % cap, count := w.count - 1 } ∧ (u.wordMeta (bankWord e a)).full = false ∧
        (Memory.wf s.mem = true → ∀ b, b < bankAddr e a ∨ bankAddr e a + 8 ≤ b → byteAt u.mem b = byteAt s.mem b) ∧
        requestsKept s u r ∧ registersKept s u none ∧ predicatesKept s u ∧ stickyKept s u))) ∧
  (∀ (s : State) (r e off line lines : Nat) (q : Req) (d : Desc) (w : WinState), atWindow s r q e off 3 d → w = s.window (winKey e d) → line = winLine d → lines = winLen d / (8 * line) →
    (q.kind = .store → (∀ m a b, q.src ≠ .remote m a b) → Memory.wf s.mem = true →
      ∃ u, stores s u r (bankAddr e ((winBase d + (w.appended / line % lines * line + w.appended % line) * 8) / 8 * 8)) q.data ∧ u.window (winKey e d) = { w with appended := w.appended + 1 }) ∧
    (∀ j x, q.kind = .load false → off = winBase d + 8 * (j * line + x) → x < line → (lines ≤ j → failsWith s r q 0x087) ∧
      (j < lines → (j < w.appended / line ∧ (w.appended % line = 0 ∨ j + 1 < lines) → answers s r q (wordAt s.mem (bankAddr e (winBase d + ((w.appended / line - 1 - j) % lines * line + x) * 8)))) ∧
        (¬ (j < w.appended / line ∧ (w.appended % line = 0 ∨ j + 1 < lines)) → isDeferred s r q)))) ∧
  (∀ (s : State) (r pa : Nat) (q : Req), atSector s r q pa →
    (q.kind = .load false →
      (sectorView s (pa / 64) = .full ∨ (∃ t, sectorView s (pa / 64) = .tentative t ∧ (t = q.tag ∨ t ∈ (s.task q.tag).producers)) → answers s r q (wordAt s.mem pa)) ∧
      (sectorView s (pa / 64) = .empty ∨ (∃ t, sectorView s (pa / 64) = .tentative t ∧ t ≠ q.tag ∧ t ∉ (s.task q.tag).producers) → isDeferred s r q)) ∧
    (q.kind = .store → (sectorView s (pa / 64) = .full → failsWith s r q 0x083) ∧ (∀ t, sectorView s (pa / 64) = .tentative t → t ≠ q.tag → isDeferred s r q) ∧
      (sectorView s (pa / 64) = .empty ∨ sectorView s (pa / 64) = .tentative q.tag → Memory.wf s.mem = true → ∃ u, exec (.requestServe r false) s = .next u ∧ wordAt u.mem pa = q.data ∧
        u.sector (pa / 64) = { st := 2, tag := BitVec.ofNat 14 q.tag } ∧ (∀ n, n ≠ pa / 64 → u.sector n = s.sector n) ∧
        (∀ a, a < pa ∨ pa + 8 ≤ a → byteAt u.mem a = if sectorView s (pa / 64) = .empty ∧ a / 64 = pa / 64 then 0 else byteAt s.mem a) ∧
        mfind u.reqs r = none ∧ requestsKept s u r ∧ registersKept s u none ∧ predicatesKept s u ∧ stickyKept s u))) ∧
  (∀ (s : State) (r e off : Nat) (q : Req) (d : Desc) (l : List Nat), mfind s.reqs r = some q → q.stage = .deferred → q.target = .bank e off → q.kind = .load false →
    q.size = 8 → off % 8 = 0 → (s.port (portOf q.target)).deferred = r :: l → ownsBank s q (e * 6 + off / 0x10000) = true → windowOf (s.elem e).active off = some d → winOrg d = 0 →
    intakeWindow (s.elem e).active ≠ some (winNo d) → (s.wordMeta (bankWord e off)).full = true → portStopped s q = false → ∃ u, exec (.deferredReadWake r) s = .next u ∧
      mfind u.reqs r = some { q with stage := .done (wordAt s.mem (bankAddr e off)) 0 } ∧ requestsKept s u r ∧ quiet s u)

/-- requestReply (R162, R171): a loaded value goes to its register, or as a token to its channel, and the request is gone; a cause of class 2 met at the target stops the requesting element and queues a trap record with the address. fenceComplete (M9, R101) takes a fence out once its requests are performed. remoteReply (R393): a reply that names no outstanding request is counted and discarded (request id 0 is that of the device's own writes, assumption 30, and is not counted), and its id is free again; one that does gives its value, or ends its store. barrierShort (R177): a wait deferred for one watchdog interval raises 0x145. -/
def Obligations.ReplyMoves : Prop :=
  (∀ (s : State) (r e n : Nat) (q : Req) (v : Word) (sign : Bool), mfind s.reqs r = some q → q.stage = .done v 0 → q.src = .elem e → q.kind = .load sign → n = q.slot →
    (∀ c : BitVec 6, q.dest = .reg c → (c.toNat < 16 ∨ 24 ≤ c.toNat ∧ c.toNat < 32) → ∃ u, exec (.requestReply r) s = .next u ∧
      regVal { u with cur := .slot e q.strand n } c = v ∧ registersKept { s with cur := .slot e q.strand n } { u with cur := .slot e q.strand n } (some c) ∧
      predicatesKept s u ∧ stickyKept s u ∧ memoryKept s u ∧ mfind u.reqs r = none ∧ requestsKept s u r) ∧
    (∀ ch, q.dest = .chan ch → replyBlocked s r q = false → ∃ u x, exec (.requestReply r) s = .next u ∧
      u.tokens (queueKey e (.out ch)) = s.tokens (queueKey e (.out ch)) ++ [x] ∧ x.payload = v ∧ x.gen = q.gen ∧ x.pres = true ∧ x.mark = 0 ∧
      mfind u.reqs r = none ∧ requestsKept s u r ∧ quiet s u) ∧
    (q.dest = .none → ∃ u, exec (.requestReply r) s = .next u ∧ mfind u.reqs r = none ∧ requestsKept s u r ∧ quiet s u)) ∧
  (∀ (s : State) (r e k : Nat) (q : Req), mfind s.reqs r = some q → q.stage = .failed k → k / 64 = 2 → q.src = .elem e → q.supervisor = false → (∀ pos, q.dest ≠ .plane pos) →
    (s.grove (groveOf e)).traps.length < 16 → (s.grove (groveOf e)).waitingTraps = [] → ∃ u x, exec (.requestReply r) s = .next u ∧
      mfind u.reqs r = none ∧ (∀ y, y ≠ r → (mfind s.reqs y = none → mfind u.reqs y = none) ∧ ∀ z, mfind s.reqs y = some z → z.stage ≠ .joining → mfind u.reqs y = some z) ∧ (u.elem e).stopped = true ∧ (u.grove (groveOf e)).traps = (s.grove (groveOf e)).traps ++ [x] ∧
      x.cause = k ∧ x.src = 0 ∧ x.str = q.strand.toNat ∧ x.slot = q.slot ∧ x.addr = BitVec.ofNat 64 q.addr ∧ (q.tid ≠ 0 → mfind u.outst q.tid = none) ∧ quiet s u) ∧
  (∀ (s : State) (e n : Nat) (f : Fence), (s.elem e).fences[n]? = some f → (s.elem e).withdrawn = [] → ∃ u, exec (.fenceComplete (.elem e) n) s = .next u ∧
    (u.elem e).fences = (if fenceDone s f then (s.elem e).fences.eraseIdx n else (s.elem e).fences) ∧ quiet s u ∧ restKept s u) ∧
  (∀ (s : State) (g n : Nat) (f : Fence), (s.grove g).fences[n]? = some f → (s.grove g).withdrawn = [] → ∃ u, exec (.fenceComplete (.seq g) n) s = .next u ∧
    (u.grove g).fences = (if fenceDone s f then (s.grove g).fences.eraseIdx n else (s.grove g).fences) ∧ quiet s u ∧ restKept s u) ∧
  (∀ (s : State) (f : Fence), (∀ r ∈ f.waits, performed s r = true) → fenceDone s f = true) ∧
  (∀ (s : State) (serial rid : Nat) (ws : List (Option Word)) (c : Nat), awaited s serial rid = none → ∃ u, exec (.remoteReply serial rid ws c) s = .next u ∧
    u.lateReplies = (if rid = 0 then s.lateReplies else s.lateReplies + 1) ∧ (rid ≠ 0 → (serial, rid) ∉ u.staleRids) ∧ u.reqs = s.reqs ∧ quiet s u) ∧
  (∀ (s : State) (serial rid r : Nat) (q : Req) (w : Word), awaited s serial rid = some (r, q) →
    (q.kind = .load false → q.left = none → q.size = 8 → q.addr % 8 = 0 → ∃ u x, exec (.remoteReply serial rid [some w] 0) s = .next u ∧ mfind u.reqs r = some x ∧ x.stage = .done w 0 ∧
      requestsKept s u r ∧ quiet s u) ∧
    (∀ c, c ≠ 0 → q.kind ≠ .absent → ∃ u, exec (.remoteReply serial rid [] c) s = .next u ∧ mfind u.reqs r = some { q with stage := .failed c, rid := 0, left := none } ∧ requestsKept s u r ∧ quiet s u) ∧
    (q.kind = .store → q.left = none → (∀ m a b, q.src ≠ .remote m a b) → ∀ ws, ∃ u, exec (.remoteReply serial rid ws 0) s = .next u ∧ mfind u.reqs r = none ∧ requestsKept s u r ∧ quiet s u)) ∧
  (∀ (s : State) (r e off x : Nat) (q : Req) (p : BitVec 16), mfind s.reqs r = some q → q.kind = .wait p → q.stage = .deferred → q.target = .bank e off → q.src = .elem x →
    (s.task q.tag).dry = none →
    (q.since + watchdog (s.task q.tag) ≤ s.tb.toNat → (s.grove (groveOf x)).traps.length < 16 → (s.grove (groveOf x)).waitingTraps = [] →
      ∃ u y, exec (.barrierShort r) s = .next u ∧ (u.elem x).stopped = true ∧ (u.grove (groveOf x)).traps = (s.grove (groveOf x)).traps ++ [y] ∧ y.cause = 0x145 ∧
        y.info.toNat = (wordAt s.mem (bankAddr e (off / 8 * 8))).toNat % 2 ^ 24 ∧ quiet s u) ∧
    (s.tb.toNat < q.since + watchdog (s.task q.tag) → exec (.barrierShort r) s = .next s))

/-- The charge controller: allowanceRecall returns a grove's allowance to the central count (R187); dry clears refusals that the balance covers, draws the whole automatic top-up where that is enough and the reserve holds it (R190), and else makes the task dry with its blocked cost and grace window and raises 0x100 (R189, R191); graceExpired makes it vanish (R191); boostFallback ends boost at the allowance (R202); caskPour and pourGrant pour a packet or queue the pour (R398, R400). -/
def Obligations.MeterMoves : Prop :=
  (∀ (s : State) (g t : Nat), s.taskOfGrove g = some t → isLive s t = true → mfind s.tasks t ≠ none → g ∈ (s.task t).groves → (s.task t).groves.Nodup →
    ∃ u, exec (.allowanceRecall g) s = .next u ∧ (u.grove g).allowance = 0 ∧ (u.task t).central = (s.task t).central + (s.grove g).allowance ∧
      balance u t = balance s t ∧ quiet s u ∧ restKept s u) ∧
  (∀ (s : State) (t : Nat) (r : Refused) (l : List Refused) (blocked left : Nat), (s.task t).refusals = r :: l → (s.task t).dry = none → isLive s t = true → mfind s.tasks t ≠ none →
    blocked = blockedCost (s.task t) → left = topupLeft (s.task t) →
    (blocked ≤ balance s t → ∃ u, exec (.dry t) s = .next u ∧ (u.task t).refusals = [] ∧ (u.task t).dry = none ∧ balance u t = balance s t ∧ quiet s u) ∧
    (balance s t < blocked → blocked ≤ balance s t + 16 * left → left ≤ (s.ctx (s.task t).ctx).reserve → ∃ u, exec (.dry t) s = .next u ∧
      (u.task t).refusals = [] ∧ (u.task t).dry = none ∧ balance u t = balance s t + 16 * left ∧ (u.task t).topped = (s.task t).topped + left ∧
      (u.ctx (s.task t).ctx).reserve = (s.ctx (s.task t).ctx).reserve - left ∧ quiet s u) ∧
    (balance s t + 16 * left < blocked ∨ balance s t < blocked ∧ (s.ctx (s.task t).ctx).reserve < left → trapRoom s r.grove → ∃ u, exec (.dry t) s = .next u ∧
      (u.task t).dry = some ⟨blocked, s.tb.toNat + graceOf (s.task t)⟩ ∧ balance u t = balance s t ∧ trapped s u r.grove 0x100 6 ∧ registersKept s u none ∧ predicatesKept s u ∧ stickyKept s u)) ∧
  (∀ (s : State) (t : Nat) (d : Dry), (s.task t).dry = some d → isLive s t = true →
    (d.deadline ≤ s.tb.toNat → ∃ u, exec (.graceExpired t) s = .next u ∧ hasVanished s u t) ∧
    (s.tb.toNat < d.deadline → exec (.graceExpired t) s = .next s)) ∧
  (∀ (s : State) (t : Nat), mfind s.tasks t ≠ none → (s.task t).boosting = true → ∃ u, exec (.boostFallback t) s = .next u ∧ quiet s u ∧
    ((s.ctx (s.task t).ctx).boost ≤ ((s.task t).boostDrops + 3) / 4 → (u.task t).boosting = false ∧ (u.task t).fellBack = true) ∧
    (((s.task t).boostDrops + 3) / 4 < (s.ctx (s.task t).ctx).boost → (u.task t).boosting = true)) ∧
  (∀ (s : State) (g t : Nat), s.taskOfGrove g = some t → mfind s.tasks t ≠ none → wantsPour s g = true →
    (g ∉ s.pours → ∃ u, exec (.caskPour g) s = .next u ∧ quiet s u ∧
      (s.pours = [] → Config.drawOk s.moveNo = true → (u.grove g).held = (s.grove g).held + 16 ∧ (u.task t).poured = (s.task t).poured + 1) ∧
      (s.pours ≠ [] ∨ Config.drawOk s.moveNo = false → u.pours = s.pours ++ [g])) ∧
    (∀ rest, s.pours = g :: rest → ∃ u, exec (.pourGrant true) s = .next u ∧ u.pours = rest ∧ (u.grove g).held = (s.grove g).held + 16 ∧ (u.task t).poured = (s.task t).poured + 1 ∧ quiet s u)) ∧
  (∀ s : State, exec (.pourGrant false) s = .next s)

/-- The end of a task: commitTask (M11, R27, R104, R197) of a task that has ended, with its producers committed, leaves its tag committed, its groves free and its whole packets in the reserve, and its tentative sectors read full; vanish (M12, R198) follows a vanished producer, and gives its log a record of kind vanish with cause 0x106 (R199); bankHandover (M13, R86) passes a HAND 2 bank to the launched successor, which becomes a dependent. forkStall and progressStall (R63) raise 0x143 and 0x144 once an interval has passed, the fork standing still until its trap's return (R307). -/
def Obligations.TaskEndMoves : Prop :=
  (∀ (s : State) (t : Nat), mfind s.tasks t ≠ none →
    (taskEnded s t = true → producersDone s t = true → ∃ u, exec (.commitTask t) s = .next u ∧ mget TagState.free u.tags t = .committed ∧
      (∀ h ∈ (s.task t).groves, (u.grove h).task = none) ∧ (u.task t).groves = [] ∧
      (successorKey (s.task t) = none → ((s.ctx (s.task t).ctx).reserve + balance s t / 16 < 2 ^ 48 → (u.ctx (s.task t).ctx).reserve = (s.ctx (s.task t).ctx).reserve + balance s t / 16) ∧
        (mget [] s.voids t = [] → ∀ n, (s.sector n).st = 2 → (s.sector n).tag.toNat = t → sectorView u n = .full))) ∧
    (taskEnded s t = false ∨ producersDone s t = false → exec (.commitTask t) s = .next s)) ∧
  (∀ (s : State) (t p : Nat), isLive s t = true → p ∈ (s.task t).producers → mget TagState.free s.tags p = .vanished → ∃ u v w, exec (.vanish t) s = .next u ∧ hasVanished s u t ∧
    u = entryEnded (logRecord v (s.task t).ctx (s.task t).part (s.task t).entry w) (entryKey (s.task t).part (s.task t).entryIndex) t ∧
    ((s.task t).rows * (s.task t).cols < 2 ^ 12 → t < 2 ^ 14 → (w.headD 0).toNat / 2 ^ 56 = 3 ∧ (w.headD 0).toNat / 2 ^ 47 % 2 ^ 9 = 0x106 ∧ (w.headD 0).toNat % 2 ^ 14 = t)) ∧
  (∀ (s : State) (e b t n : Nat), s.taskOfElem e = some t → handoverReady s e b t = true → isLive s t = true → nextOwner s (s.task t) = some (.held n) →
    mfind s.tasks n ≠ none → ((s.task n).producers.contains t = true ∨ ((s.task n).producers.filter (isLive s)).length < 8) → ∃ u, exec (.bankHandover e b) s = .next u ∧
      (u.bank (e * 6 + b)).owner = .held n ∧ t ∈ (u.task n).producers ∧ (∀ x, x ≠ e * 6 + b → u.bank x = s.bank x) ∧ u.mem = s.mem ∧ u.words = s.words ∧ registersKept s u none ∧ predicatesKept s u) ∧
  (∀ (s : State) (e t : Nat) (c : BitVec 6), s.taskOfElem e = some t → (s.task t).dry = none →
    (stalledBranches s e c (watchdog (s.task t)) ≠ [] → (s.elem e).forkStops.contains c.toNat = false → trapRoom s (groveOf e) → ∃ u, exec (.forkStall e c) s = .next u ∧ trapped s u (groveOf e) 0x143 4 ∧
      (u.elem e).forkStops.contains c.toNat = true ∧ quiet s u ∧ u.fabric = s.fabric) ∧
    (stalledBranches s e c (watchdog (s.task t)) = [] ∨ (s.elem e).forkStops.contains c.toNat = true → exec (.forkStall e c) s = .next s)) ∧
  (∀ (s : State) (t g : Nat) (l : List Nat), (s.task t).groves = g :: l → isLive s t = true → (s.task t).dry = none → (s.task t).stalled = false → (s.task t).starting = false → mfind s.tasks t ≠ none →
    ((s.task t).progress + watchdog (s.task t) ≤ s.tb.toNat → trapRoom s g → ∃ u, exec (.progressStall t) s = .next u ∧ trapped s u g 0x144 5 ∧ (u.task t).stalled = true ∧ quiet s u) ∧
    (s.tb.toNat < (s.task t).progress + watchdog (s.task t) → exec (.progressStall t) s = .next s))

/-- The engines of an element: matrixIntake writes a data token of an open run to the next word of its buffer (R214); matrixTileStep of class INT8 accumulates the exact products of its tiles, saturated to 32 bits (R45, R215), at its cost, and is a refused issue without; a node raises the ownership cause 0x088 where its task holds the bank of a buffer no more (R86); matrixTileWrite writes an output tile to its buffer or sends it word by word, then its end mark (R216); converterToken takes an input mark or sends a formed token (R219, R220); cornerTurnCollect and cornerTurnEmit fill a block of 64 payloads and send it transposed (R222). -/
def Obligations.EngineMoves : Prop :=
  (∀ (s : State) (e slot : Nat) (d w : Desc) (t : Token) (rest : List Token), nodeOf s e 1 = some (slot, d) → w = mxAwin (s.elem e).active d →
    nodeTakes s e slot = true → ownsWindow s e w = true → mxIntake d = true → (s.elem e).matrix.ended = false → (s.elem e).active.fifo (mxAch d) = t :: rest → t.mark = 0 → t.frame = 2 →
    (s.elem e).matrix.runOpen = true → (s.elem e).matrix.discard = false → (s.elem e).matrix.fill < bufBytes w / 8 → Memory.wf s.mem = true →
    ∃ u a, exec (.matrixIntake e) s = .next u ∧ a = bankAddr e (bufOff w (s.elem e).matrix.aFill (s.elem e).matrix.fill / 8 * 8) ∧
      wordAt u.mem a = (if t.pres then t.payload else 0) ∧ (∀ b, b < a ∨ a + 8 ≤ b → byteAt u.mem b = byteAt s.mem b) ∧
      (u.elem e).matrix.fill = (s.elem e).matrix.fill + 1 ∧ (u.elem e).matrix.runOpen = true ∧ takesHead s u e (mxAch d) ∧ registersKept s u none ∧ predicatesKept s u) ∧
  (∀ (s : State) (e slot : Nat) (d : Desc) (m : MatrixState), nodeOf s e 1 = some (slot, d) → nodeTakes s e slot = true → stepReady s e d = true → m = (s.elem e).matrix →
    (ownsWindow s e (mxAwin (s.elem e).active d) = false ∨ ownsWindow s e (mxBwin (s.elem e).active d) = false → exec (.matrixTileStep e) s = .next (raiseNode s e slot 0x088)) ∧
    (ownsWindow s e (mxAwin (s.elem e).active d) = true → ownsWindow s e (mxBwin (s.elem e).active d) = true →
     (canPay s (groveOf e) (mxCost (mxClass d)) = true → ∃ u, exec (.matrixTileStep e) s = .next u ∧ (u.elem e).matrix.done = m.done + 1 ∧
      (m.step = mxLastStep d → (u.elem e).matrix.step = 0 ∧ (u.elem e).matrix.writing = true) ∧ (m.step ≠ mxLastStep d → (u.elem e).matrix.step = m.step + 1 ∧ (u.elem e).matrix.writing = false) ∧
      (mxClass d = 2 → mxAfmt d = 9 → mxBfmt d = 9 → 256 ≤ bufBytes (mxAwin (s.elem e).active d) → 256 ≤ bufBytes (mxBwin (s.elem e).active d) → ∀ i j, i < 8 → j < 8 →
        let x := ((List.range 32).map (fun k => tileByte s e (mxAwin (s.elem e).active d) m.aRead (32 * i + k) * tileByte s e (mxBwin (s.elem e).active d) m.bRead (32 * j + k))).sum +
          (if m.step = 0 then 0 else Int.bmod (m.acc.getD (8 * i + j) 0 % 2 ^ 32) (2 ^ 32))
        Int.bmod ((u.elem e).matrix.acc.getD (8 * i + j) 0) (2 ^ 32) = max (-(2 ^ 31)) (min (2 ^ 31 - 1) x)) ∧
      registersKept s u none ∧ predicatesKept s u ∧ u.mem = s.mem) ∧
    (canPay s (groveOf e) (mxCost (mxClass d)) = false → exec (.matrixTileStep e) s = .next (refuse s (groveOf e) (mxCost (mxClass d)))))) ∧
  (∀ (s : State) (e slot : Nat) (d w : Desc) (m : MatrixState), nodeOf s e 1 = some (slot, d) → nodeRuns s e slot = true → m = (s.elem e).matrix → m.ended = false →
    w = mxCwin (s.elem e).active d →
    (m.writing = true → mxOutChan d = false → ownsWindow s e w = true → Memory.wf s.mem = true → ∃ u, exec (.matrixTileWrite e) s = .next u ∧
      (∀ n v, m.output[n]? = some v → wordAt u.mem (bankAddr e (bufOff w m.cFill n / 8 * 8)) = v) ∧
      (∀ b, b < bankAddr e (bufOff w m.cFill 0 / 8 * 8) ∨ bankAddr e (bufOff w m.cFill 0 / 8 * 8) + 8 * m.output.length ≤ b → byteAt u.mem b = byteAt s.mem b) ∧
      (u.elem e).matrix.tile = m.tile + 1 ∧ (u.elem e).matrix.writing = false ∧ (u.elem e).matrix.ended = (mxTiles d != 0 && m.tile + 1 == mxTiles d) ∧ registersKept s u none ∧ predicatesKept s u) ∧
    (∀ v rest, m.writing = true → mxOutChan d = true → m.output = v :: rest → hasRoom s e (mxOch d) [] = true → ∃ u, exec (.matrixTileWrite e) s = .next u ∧
      sendsToken s u e (mxOch d) (fun x => x.payload = v ∧ x.frame = (if m.outFirst then 1 else if rest = [] then 3 else 2)) ∧ (u.elem e).matrix.output = rest ∧
      (rest = [] → (u.elem e).matrix.tile = m.tile + 1) ∧ unitsKept s u) ∧
    (∀ t, m.writing = false → m.eos = some t → t.mark = 3 → hasRoom s e (mxOch d) [] = true → ∃ u, exec (.matrixTileWrite e) s = .next u ∧
      sendsToken s u e (mxOch d) (fun x => x.mark = 3) ∧ (u.elem e).matrix.ended = true ∧ registersKept s u none ∧ predicatesKept s u)) ∧
  (∀ (s : State) (e slot : Nat) (d : Desc) (c : ConvState), nodeOf s e 2 = some (slot, d) → c = (s.elem e).conv →
    (∀ t rest, c.output = t :: rest → t.mark ≠ 3 → nodeRuns s e slot = true → hasRoom s e (cvOch d) [] = true →
      (canPay s (groveOf e) 2 = true → ∃ u, exec (.converterToken e) s = .next u ∧
        sendsToken s u e (cvOch d) (fun x => x.payload = t.payload ∧ x.mark = t.mark ∧ x.gen = t.gen ∧ x.frame = t.frame ∧ x.pres = t.pres) ∧ (u.elem e).conv.output = rest ∧ unitsKept s u) ∧
      (canPay s (groveOf e) 2 = false → exec (.converterToken e) s = .next (refuse s (groveOf e) 2))) ∧
    (∀ t rest, c.output = [] → c.bitsHeld = 0 → c.group = [] → c.scales = [] → nodeTakes s e slot = true → headOf s e (cvIch d) = some t → t.isWave = false → t.mark ≠ 0 →
      (s.elem e).active.fifo (cvIch d) = t :: rest → ∃ u, exec (.converterToken e) s = .next u ∧ takesHead s u e (cvIch d) ∧ (u.elem e).conv.output = [{ t with tid := 0 }] ∧ unitsKept s u)) ∧
  (∀ (s : State) (e slot : Nat) (d : Desc) (x : TurnState), nodeOf s e 3 = some (slot, d) → x = (s.elem e).turn →
    (∀ t rest, nodeTakes s e slot = true → x.emitting = false → x.after = none → x.block.length < 63 → (s.elem e).active.fifo (ctIch d) = t :: rest → t.mark = 0 → t.pres = true →
      ∃ u, exec (.cornerTurnCollect e) s = .next u ∧ takesHead s u e (ctIch d) ∧ (u.elem e).turn.block = x.block ++ [t] ∧ unitsKept s u) ∧
    (nodeRuns s e slot = true → x.emitting = false → x.block.length = 64 →
      (canPay s (groveOf e) 8 = true → ∃ u, exec (.cornerTurnEmit e) s = .next u ∧ (u.elem e).turn.emitting = true ∧ (u.elem e).turn.output.length = 64 ∧
        (∀ m n, m < 64 → n < 64 → ctBit d = true → (((u.elem e).turn.output.getD m {}).payload).getLsbD n = ((x.block.getD n {}).payload).getLsbD m) ∧
        (∀ m, m < 64 → ctBit d = false → ((u.elem e).turn.output.getD m {}).payload = (x.block.getD (8 * (m % 8) + m / 8) {}).payload) ∧ unitsKept s u) ∧
      (canPay s (groveOf e) 8 = false → exec (.cornerTurnEmit e) s = .next (refuse s (groveOf e) 8))) ∧
    (∀ t rest, nodeRuns s e slot = true → x.emitting = true → x.output = t :: rest → t.mark = 0 → hasRoom s e (ctOch d) [] = true → ∃ u, exec (.cornerTurnEmit e) s = .next u ∧
      sendsToken s u e (ctOch d) (fun y => y.payload = t.payload ∧ y.mark = 0 ∧ y.gen = t.gen) ∧ (u.elem e).turn.output = rest ∧ unitsKept s u))

/-- The lookup-cell array (R239 to R252): an intake takes a token into its next slice; a block load writes tables and wiring in turn; a sweep gives every cell of its groups the table bit that its six selected bits name, all read as they were before it; lcctx, lcin and lcout act in queue order, a reserved selector and a slice of an enabled intake raising 0x151. -/
def Obligations.ArrayMoves : Prop :=
  (∀ (s : State) (e slot ch base : Nat) (b : Bool) (d : Desc) (t : Token) (rest : List Token), nodeOf s e 4 = some (slot, d) → intakeOf (s.elem e).active b = some (ch, base) →
    intakeRuns s e slot = true → (s.elem e).active.fifo ch = t :: rest → t.mark = 0 → intakeCount (s.elem e).lc b < 64 → batchComplete (s.elem e) = false →
    ∃ u, exec (.lcIntake e b) s = .next u ∧ takesHead s u e ch ∧ mget 0 (u.elem e).lc.slices (base + intakeCount (s.elem e).lc b) = (if t.pres then t.payload else 0) ∧
      intakeCount (u.elem e).lc b = intakeCount (s.elem e).lc b + 1 ∧ unitsKept s u) ∧
  (∀ (s : State) (e n i : Nat) (k : BitVec 2) (pos : BitVec 6) (ch : BitVec 5) (q : List (LcOp × BitVec 2 × Nat)) (t : Token) (rest : List Token),
    (s.elem e).lc.queue = (.load pos ch i false, k, n) :: q → arrayRuns s e = true → (s.elem e).active.fifo ch.toNat = t :: rest → t.mark = 0 → t.pres = true →
    (i < 127 → i % 2 = 0 → ∃ u, exec (.lcLoadBlock e) s = .next u ∧ takesHead s u e ch.toNat ∧ (u.elem e).lc.queue = (.load pos ch (i + 1) false, k, n) :: q ∧
      mget 0 (u.elem e).lc.table (pos.toNat / 8 * 512 + 64 * (pos.toNat % 8) + i / 2) = t.payload ∧ unitsKept s u) ∧
    (i < 127 → i % 2 = 1 → badWiring t.payload = false → ∃ u, exec (.lcLoadBlock e) s = .next u ∧ takesHead s u e ch.toNat ∧ (u.elem e).lc.queue = (.load pos ch (i + 1) false, k, n) :: q ∧
      mget resetWiring (u.elem e).lc.wiring (pos.toNat / 8 * 512 + 64 * (pos.toNat % 8) + i / 2) = t.payload ∧ unitsKept s u) ∧
    (i = 127 → badWiring t.payload = false → ∃ u, exec (.lcLoadBlock e) s = .next u ∧ (u.elem e).lc.queue = q ∧ unitsKept s u) ∧
    (i = 127 → badWiring t.payload = true → trapRoom s (groveOf e) → ∃ u, exec (.lcLoadBlock e) s = .next u ∧ (u.elem e).lc.queue = q ∧ (u.elem e).stopped = true ∧ trapped s u (groveOf e) 0x150 0)) ∧
  (∀ (s : State) (e n m : Nat) (rel : Bool) (k : BitVec 2) (q : List (LcOp × BitVec 2 × Nat)), (s.elem e).lc.queue = (.sweep n rel, k, m) :: q → arrayRuns s e = true → batchComplete (s.elem e) = true →
    (canPay s (groveOf e) (8 * n) = true → ∃ u, exec (.lcSweep e) s = .next u ∧ (u.elem e).lc.queue = q ∧
      (∀ c b, c < 64 * n → b < 64 → (mget 0 (u.elem e).lc.level c).getLsbD b =
        (mget 0 (s.elem e).lc.table ((s.elem e).lc.context.toNat * 512 + c)).getLsbD
          (((List.range 6).map (fun j => if (selected (s.elem e).lc (selectorOf (mget resetWiring (s.elem e).lc.wiring ((s.elem e).lc.context.toNat * 512 + c)) j)).getLsbD b then 2 ^ j else 0)).sum)) ∧
      (∀ c, 64 * n ≤ c → mget 0 (u.elem e).lc.level c = mget 0 (s.elem e).lc.level c) ∧ (u.elem e).lc.slices = (s.elem e).lc.slices ∧
      (rel = true → (u.elem e).lc.countA = 0 ∧ (u.elem e).lc.countB = 0) ∧ unitsKept s u) ∧
    (canPay s (groveOf e) (8 * n) = false → exec (.lcSweep e) s = .next (refuse s (groveOf e) (8 * n)))) ∧
  (∀ (s : State) (e n : Nat) (k : BitVec 2) (o : LcOp) (q : List (LcOp × BitVec 2 × Nat)), (s.elem e).lc.queue = (o, k, n) :: q → arrayRuns s e = true →
    (∀ c, o = .ctx c → ∃ u, exec (.lcQueueOp e) s = .next u ∧ (u.elem e).lc.queue = q ∧ (u.elem e).lc.context = c ∧ unitsKept s u) ∧
    (∀ v x, o = .put v x → intakeSlice (s.elem e).active x.toNat = false → ∃ u, exec (.lcQueueOp e) s = .next u ∧ (u.elem e).lc.queue = q ∧ mget 0 (u.elem e).lc.slices x.toNat = v ∧ unitsKept s u) ∧
    (∀ v x, o = .put v x → intakeSlice (s.elem e).active x.toNat = true → trapRoom s (groveOf e) → ∃ u, exec (.lcQueueOp e) s = .next u ∧ (u.elem e).lc.queue = q ∧ trapped s u (groveOf e) 0x151 0 ∧ unitsKept s u) ∧
    (∀ c sel g tid, o = .out (.reg c) sel g tid → sel.toNat < 0x302 → c.toNat < 16 → ∃ u, exec (.lcQueueOp e) s = .next u ∧ (u.elem e).lc.queue = q ∧
      regVal { u with cur := .slot e k n } c = selected (s.elem e).lc sel.toNat ∧ memoryKept s u) ∧
    (∀ ch sel g tid, o = .out (.chan ch) sel g tid → sel.toNat < 0x302 → ∃ u, exec (.lcQueueOp e) s = .next u ∧ (u.elem e).lc.queue = q ∧
      sendsToken s u e ch.toNat (fun x => x.payload = selected (s.elem e).lc sel.toNat ∧ x.gen = g) ∧ unitsKept s u) ∧
    (∀ d sel g tid, o = .out d sel g tid → 0x302 ≤ sel.toNat → trapRoom s (groveOf e) → ∃ u, exec (.lcQueueOp e) s = .next u ∧ (u.elem e).lc.queue = q ∧ trapped s u (groveOf e) 0x151 0 ∧ unitsKept s u))

/-- The race unit and the placer: raceIntake takes a candidate at 2 drops (R286); raceRelease ends the round when every intake shows an end mark, and gives the winners' word to its register (R287, R288); the winners are the first k of the candidates ranked by key and then index; placerSizing, of the first place of its die and behind the sequencer's earlier accesses, reads the histogram word by word, sizes the strips (each expert with tokens has one and its share of the rest, rounded down, and those with the largest remainders one more, S in all), writes FIRST and NSTRIP word by word, in the places of R294's table (which the words of R300 do not fit, assumption 21), and with nothing to preload gives the status and ends (R294, R295, R297, R298); placePreload puts the template plane with its own s7 into position 1 of a target, at 24 drops (R296). -/
def Obligations.RaceAndPlacerMoves : Prop :=
  (∀ (s : State) (e slot : Nat) (b : Bool) (d : Desc) (t : Token) (rest : List Token), nodeOf s e 5 = some (slot, d) → (s.elem e).active.fifo (rcChan d b) = t :: rest →
    intakeRuns s e slot = true → (b = false ∨ rcIntakeB d = true) → (s.elem e).race.armed.isSome = true → (s.elem e).race.overRange = false → t.mark = 0 → t.pres = true → rcPair d = false →
    (canPay s (groveOf e) 2 = true → (s.elem e).race.cands.length < 256 → ∃ u, exec (.raceIntake e b) s = .next u ∧ takesHead s u e (rcChan d b) ∧
      (u.elem e).race.cands = (s.elem e).race.cands ++ [(t.payload.toNat / 2 ^ 32 % 2 ^ 8, t.payload.toNat % 2 ^ 32)] ∧ unitsKept s u) ∧
    (canPay s (groveOf e) 2 = false → exec (.raceIntake e b) s = .next (refuse s (groveOf e) 2))) ∧
  (∀ (s : State) (e slot k tid : Nat) (d : Desc) (c : BitVec 6) (st : BitVec 2) (g : BitVec 4) (marks : List Token) (v : Word), nodeOf s e 5 = some (slot, d) → nodeRuns s e slot = true →
    (s.elem e).race.eos = none → (s.elem e).race.armed = some (k, .reg c, st, g, tid) → roundMarks s e d = some marks → c.toNat < 16 → raceResult (winners k (s.elem e).race.cands) = some v →
    ∃ u, exec (.raceRelease e) s = .next u ∧ regVal { u with cur := .slot e st 0 } c = v ∧ (u.elem e).race.armed = none ∧ (u.elem e).race.finished = marks.any (fun t => t.mark == 3) ∧ memoryKept s u) ∧
  (∀ (s : State) (e slot : Nat) (d : Desc) (ch : BitVec 5) (k : BitVec 2) (g : BitVec 4), nodeOf s e 5 = some (slot, d) → nodeRuns s e slot = true → (s.elem e).race.eos = some (ch, k, g) →
    hasRoom s e ch.toNat [] = true → ∃ u, exec (.raceRelease e) s = .next u ∧ sendsToken s u e ch.toNat (fun x => x.mark = 3 ∧ x.gen = g) ∧ (u.elem e).race.eos = none ∧ registersKept s u none ∧ predicatesKept s u) ∧
  (∀ (k : Nat) (cs : List (Nat × Nat)), ∃ l : List (Nat × Nat), l.Perm cs ∧ l.Pairwise (fun x y => outranks y x = false) ∧ winners k cs = (l.take k).map (fun c => c.1)) ∧
  (∀ (ws : List Nat) (z : Nat), ws.getLast? = some z → ws.length ≤ 8 → (∀ w ∈ ws, w < 256) → ∃ v, raceResult ws = some v ∧ ∀ j, j < 8 → v.toNat / 2 ^ (8 * j) % 2 ^ 8 = ws.getD j z) ∧
  (∀ (s : State) (g : Nat) (p : Place), (s.grove g).place = some p → placeFirst s g p = true → placeFenced s p = true → histIdle s p = true →
    (∀ e off, p.sized = none → p.reads.length < plExperts p.header → resolveAddr s (.seq g) (p.hist + BitVec.ofNat 64 (8 * p.reads.length)).toNat = some (.bank e off) →
      ∃ u q, exec (.placerSizing g) s = .next u ∧ mfind u.reqs s.nextReq = some q ∧ q.src = .seq g ∧ q.kind = .load false ∧ q.size = 8 ∧ q.dest = .hist ∧ q.target = .bank e off ∧
        q.supervisor = p.supervisor ∧ q.stage = .sent ∧ (u.grove g).place = some { p with req := some s.nextReq } ∧ requestsKept s u s.nextReq ∧ quiet s u) ∧
    (∀ ns strips, p.sized = none → plExperts p.header ≤ p.reads.length → plImage p.header = 0 → ns = p.reads.map (fun v => bits v.toNat 0 32) → strips = clearingStrips s g p.header →
      ∃ u, exec (.placerSizing g) s = .next u ∧ (u.grove g).place = some { p with
        writes := List.zipWith sizedWord p.reads (dealStrips (allot ns strips.length) strips), sized := some (placeStatus (ns.filter (· != 0)).length strips.length, []) } ∧ quiet s u ∧ restKept s u) ∧
    (∀ e off v vs x, p.sized = some x → p.writes = v :: vs → resolveAddr s (.seq g) (p.hist + BitVec.ofNat 64 (8 * (plExperts p.header - p.writes.length))).toNat = some (.bank e off) →
      ∃ u q, exec (.placerSizing g) s = .next u ∧ mfind u.reqs s.nextReq = some q ∧ q.src = .seq g ∧ q.kind = .store ∧ q.size = 8 ∧ q.data = v ∧ q.dest = .hist ∧ q.target = .bank e off ∧
        q.stage = .sent ∧ (u.grove g).place = some { p with writes := vs, req := some s.nextReq } ∧ requestsKept s u s.nextReq ∧ quiet s u) ∧
    (∀ st, p.sized = some (st, []) → p.writes = [] → p.supervisor = false → p.d.toNat < 16 → ∃ u, exec (.placerSizing g) s = .next u ∧ (u.grove g).place = none ∧
      reg (u.grove g).taskBank.w p.d.toNat = st ∧ memoryKept s u ∧ restKept s u)) ∧
  (∀ (s : State) (g : Nat) (p : Place), (s.grove g).place = some p → placeFirst s g p = false ∨ placeFenced s p = false ∨ histIdle s p = false → exec (.placerSizing g) s = .next s) ∧
  (∀ (v : Word) (strips : List Nat), strips.length < 256 → strips.headD 0 < 256 → (sizedWord v strips).toNat % 2 ^ 32 = v.toNat % 2 ^ 32 ∧
    (sizedWord v strips).toNat / 2 ^ 32 % 2 ^ 8 = strips.length ∧ (sizedWord v strips).toNat / 2 ^ 40 % 2 ^ 8 = strips.headD 0 ∧ (sizedWord v strips).toNat / 2 ^ 48 = v.toNat / 2 ^ 48) ∧
  (∀ (ns : List Nat) (n f z : Nat), z = (ns.filter (· != 0)).length → f = n - z →
    (ns.sum = 0 ∨ n < z → allot ns n = ns.map (fun _ => 0)) ∧
    (ns.sum ≠ 0 → z ≤ n → (allot ns n).length = ns.length ∧ (allot ns n).sum = n ∧ ∀ (i c : Nat), ns[i]? = some c →
      (c = 0 → (allot ns n)[i]? = some 0) ∧
      (c ≠ 0 → (allot ns n)[i]? = some (1 + f * c / ns.sum) ∨ (allot ns n)[i]? = some (2 + f * c / ns.sum)) ∧
      (∀ (j d : Nat), ns[j]? = some d → c ≠ 0 → d ≠ 0 → (allot ns n)[i]? = some (2 + f * c / ns.sum) → (allot ns n)[j]? = some (1 + f * d / ns.sum) →
        f * d % ns.sum < f * c % ns.sum ∨ f * d % ns.sum = f * c % ns.sum ∧ i < j))) ∧
  (∀ (s : State) (g e v : Nat) (p : Place) (st : Word) (rest : List (Nat × Nat)), (s.grove g).place = some p → p.sized = some (st, (e, v) :: rest) → p.writes = [] → histIdle s p = true → holdsFrame (s.elem e) 1 = false → p.supervisor = false →
    (canPay s (groveOf e) 24 = true → ∃ u x, exec (.placePreload g) s = .next u ∧ underAt (u.elem e) 1 = .plane x ∧
      x.pool = (loadPlane s (templateOf s g p.header e) (plImage p.header)).pool ∧ x.sreg[7]? = some (BitVec.ofNat 64 v) ∧
      (rest ≠ [] → ∃ y, (u.grove g).place = some y ∧ y.sized = some (st, rest)) ∧ (rest = [] → (u.grove g).place = none) ∧ memoryKept s u) ∧
    (canPay s (groveOf e) 24 = false → exec (.placePreload g) s = .next (refuse s (groveOf e) 24)))

/-- Streams (R223 to R231): agAccess, in a grove that does not wait for a pour at an empty cask (R400), starts a burst only where its cost can be taken, sends the next access of an own-bank read or write stream as one request once the earlier commands that reach its port have made theirs (R90), and enqueues an answered word with its frame and marks; a write stream ends at end.3; a gather reads at its base plus eight times the index. streamCommandRetire takes a finished command out of its queue, pushes its sync-FIFO token while that FIFO holds fewer than 15, and lets a sequencer that waits for the AG go on once its commands have all retired. sparseSetStep emits a key that both lists have, drops the smaller key of an intersection, and closes with end.3. -/
def Obligations.StreamMoves : Prop :=
  (∀ (s : State) (g n off : Nat) (c : AgCmd) (cs : List AgCmd) (k : BitVec 2), ((s.grove g).ag n).queue = c :: cs → c.started = true → ((s.grove g).ag n).stopped = false → atFloor s g = false → (s.elem (agElem g n)).frozen = false →
    c.kind = .affine k → c.stage.inbound = false → bySector c.stage = false → nextToken c = none → c.ended = false → c.next < patternWords c.stage → c.supervisor = false →
    (c.next < c.charged → (patternAddr c.stage c.next).toNat % 8 = 0 → portFree s g n c (patternAddr c.stage c.next) = true → resolveAddr s (.ag g n) (patternAddr c.stage c.next).toNat = some (.bank (agElem g n) off) →
      ∃ u q, exec (.agAccess g n) s = .next u ∧ mfind u.reqs s.nextReq = some q ∧ q.src = .ag g n ∧ q.kind = .load false ∧ q.size = 8 ∧ q.target = .bank (agElem g n) off ∧ q.pos = c.next ∧ q.stage = .sent ∧
        ((u.grove g).ag n).queue = { c with next := c.next + 1, checked := if c.next < c.checked then c.checked else c.charged, leaves := if c.next < c.checked then c.leaves else [] } :: cs ∧ requestsKept s u s.nextReq ∧ unitsKept s u) ∧
    (c.charged ≤ c.next → ((s.grove g).ag n).paused = false → portFree s g n c (patternAddr c.stage c.next) = true → (s.grove g).atPoint = false → canPay s g (burstCost s g n c c.next) = false →
      exec (.agAccess g n) s = .next (refuse s g (burstCost s g n c c.next)))) ∧
  (∀ (s : State) (g n off : Nat) (c : AgCmd) (cs : List AgCmd) (k : BitVec 2) (t : Token) (rest : List Token), ((s.grove g).ag n).queue = c :: cs → c.started = true → ((s.grove g).ag n).stopped = false → atFloor s g = false → (s.elem (agElem g n)).frozen = false →
    c.kind = .affine k → c.stage.inbound = true → bySector c.stage = false → c.ended = false → c.next < patternWords c.stage → (s.elem (agElem g n)).active.fifo c.stage.ch.toNat = t :: rest →
    (t.mark = 0 → t.pres = true → c.next < c.charged → ((burstWrites c).filter isGlobal = [] ∨ c.next < c.checked) → (patternAddr c.stage c.next).toNat % 8 = 0 → portFree s g n c (patternAddr c.stage c.next) = true → resolveAddr s (.ag g n) (patternAddr c.stage c.next).toNat = some (.bank (agElem g n) off) →
      ∃ u q, exec (.agAccess g n) s = .next u ∧ mfind u.reqs s.nextReq = some q ∧ q.kind = .store ∧ q.size = 8 ∧ q.data = t.payload ∧ q.target = .bank (agElem g n) off ∧ q.stage = .sent ∧
        ((u.grove g).ag n).queue = { c with next := c.next + 1, checked := if c.next < c.checked then c.checked else c.charged, leaves := if c.next < c.checked then c.leaves else [] } :: cs ∧ takesHead s u (agElem g n) c.stage.ch.toNat ∧ unitsKept s u) ∧
    (t.mark = 3 → c.buffer = [] → ∃ u, exec (.agAccess g n) s = .next u ∧ ((u.grove g).ag n).queue = { c with ended := true } :: cs ∧ takesHead s u (agElem g n) c.stage.ch.toNat ∧ unitsKept s u)) ∧
  (∀ (s : State) (g n off : Nat) (c : AgCmd) (cs : List AgCmd) (ch : BitVec 5) (f : Bool) (t : Token) (rest : List Token), ((s.grove g).ag n).queue = c :: cs → c.started = true → ((s.grove g).ag n).stopped = false → atFloor s g = false → (s.elem (agElem g n)).frozen = false →
    c.kind = .gather ch f → nextToken c = none → c.ended = false → (s.elem (agElem g n)).active.fifo ch.toNat = t :: rest → t.mark = 0 → t.pres = true → c.next < c.charged →
    (c.stage.base + 8 * t.payload).toNat % 8 = 0 → portFree s g n c (c.stage.base + 8 * t.payload) = true → resolveAddr s (.ag g n) (c.stage.base + 8 * t.payload).toNat = some (.bank (agElem g n) off) →
    ∃ u q, exec (.agAccess g n) s = .next u ∧ mfind u.reqs s.nextReq = some q ∧ q.kind = .load false ∧ q.size = 8 ∧ q.target = .bank (agElem g n) off ∧ q.stage = .sent ∧ takesHead s u (agElem g n) ch.toNat ∧ unitsKept s u) ∧
  (∀ (s : State) (g n : Nat) (c d : AgCmd) (cs : List AgCmd) (t : Token), ((s.grove g).ag n).queue = c :: cs → c.started = true → ((s.grove g).ag n).stopped = false → atFloor s g = false → (s.elem (agElem g n)).frozen = false → nextToken c = some (t, d) → t.mark ≠ 3 →
    hasRoom s (agElem g n) c.stage.ch.toNat [] = true → ∃ u, exec (.agAccess g n) s = .next u ∧
      sendsToken s u (agElem g n) c.stage.ch.toNat (fun x => x.payload = t.payload ∧ x.mark = t.mark ∧ x.frame = t.frame ∧ x.pres = t.pres) ∧ ((u.grove g).ag n).queue = d :: cs ∧ unitsKept s u) ∧
  (∀ (c : AgCmd) (k : BitVec 2) (w : Word), c.kind = .affine k → c.stage.inbound = false → c.index = none → mfind c.replies c.sent = some (some w) →
    ∃ t d, nextToken c = some (t, d) ∧ t.payload = w ∧ t.mark = 0 ∧ d.sent = c.sent + 1 ∧ (k = 0 → d.index = none ∧ t.frame = 0) ∧
      (k ≠ 0 → c.sent + 1 = patternWords c.stage → ∃ m, d.index = some m ∧ m.mark = 3)) ∧
  (∀ (s : State) (g n : Nat) (c : AgCmd) (cs : List AgCmd) (k : BitVec 2), ((s.grove g).ag n).queue = c :: cs → c.started = true → c.kind = .affine k → cmdDone s g n c = true →
    ((∀ f, c.push = some f → mget 0 (s.grove g).fifos f.toNat < 15) → ∃ u, exec (.streamCommandRetire g n) s = .next u ∧ ((u.grove g).ag n).queue = cs ∧
      (∀ f, c.push = some f → mget 0 (u.grove g).fifos f.toNat = mget 0 (s.grove g).fifos f.toNat + 1) ∧ (c.push = none → (u.grove g).fifos = (s.grove g).fifos) ∧
      ((s.grove g).bank.hold = .streams n → (haveRetired u g n → (u.grove g).bank.hold = .none) ∧ (¬ haveRetired u g n → (u.grove g).bank.hold = .streams n)) ∧ unitsKept s u) ∧
    (∀ f, c.push = some f → 15 ≤ mget 0 (s.grove g).fifos f.toNat → exec (.streamCommandRetire g n) s = .next s)) ∧
  (∀ (s : State) (g n : Nat) (a b : AgCmd) (as bs : List AgCmd) (d : Desc) (merge : Bool) (r : BitVec 6), ((s.grove g).ag n).queue = a :: as → ((s.grove g).ag (n + 1)).queue = b :: bs →
    a.started = true → b.started = true → ((s.grove g).ag n).stopped = false → atFloor s g = false → ((s.grove g).ag (n + 1)).stopped = false → (s.elem (agElem g n)).frozen = false → pairDesc s g n = some d →
    a.kind = .set merge true r → a.supervisor = false → a.exhausted = false →
    (∀ x, a.phase = 0 → a.key = some x → b.key = some x → hasRoom s (agElem g n) (wbits d.w0 22 5) [] = true → canPay s g (1 + pathCost s (agElem g n) (wbits d.w0 22 5)) = true →
      ∃ u, exec (.sparseSetStep g n) s = .next u ∧ sendsToken s u (agElem g n) (wbits d.w0 22 5) (fun t => t.payload = x ∧ t.mark = 0) ∧
        ((u.grove g).ag n).queue = { a with key := none, count := a.count + 1 } :: as ∧ ((u.grove g).ag (n + 1)).queue = { b with key := none } :: bs ∧ unitsKept s u) ∧
    (∀ x y, a.phase = 0 → merge = false → a.key = some x → b.key = some y → x.toNat < y.toNat → ∃ u, exec (.sparseSetStep g n) s = .next u ∧
      ((u.grove g).ag n).queue = { a with key := none } :: as ∧ ((u.grove g).ag (n + 1)).queue = b :: bs ∧ u.fabric = s.fabric ∧ unitsKept s u) ∧
    (a.phase = 2 → hasRoom s (agElem g n) (wbits d.w0 22 5) [] = true → ∃ u, exec (.sparseSetStep g n) s = .next u ∧ sendsToken s u (agElem g n) (wbits d.w0 22 5) (fun t => t.mark = 3) ∧
      ((u.grove g).ag n).queue = { a with phase := 3 } :: as))

/-- Planes and grid calls (R258 to R272): ploadComplete starts a preload at its cost and puts the plane of the load into its position; planeSwap exchanges the active plane with position 1 at 16 drops, and is a refused issue without; freezePoint stops an element at its point with its requests withdrawn, at 48 drops; gridCallSwitch of an exchange call makes the plane of position 1 active and keeps the caller as a frame; gridReturn thaws it, and the return that was armed is armed no more; loadChange puts a launched load into effect. That an element is at its freeze point where a marker stands behind tokens that no unit takes, as at a channel's head (assumption 31), and that a preload whose position a caller's frame has taken waits for the return (assumption 30), are the model's reading. -/
def Obligations.PlaneMoves : Prop :=
  (∀ (s : State) (e k : Nat) (l : Preload) (rest : List Preload), (s.elem e).preloads = l :: rest → 1 ≤ l.pos → l.pos ≤ 3 → (s.elem e).stopped = false → holdsFrame (s.elem e) l.pos = false → cacheImage l.image = some k → (loadPlane s e k).present = true →
    (l.started = true → ∃ u p, exec (.ploadComplete e l.pos) s = .next u ∧ underAt (u.elem e) l.pos = .plane p ∧ p.pool = (loadPlane s e k).pool ∧ (u.elem e).preloads = rest ∧
      (u.elem e).active = (s.elem e).active ∧ unitsKept s u) ∧
    (l.started = false → l.free = false → nodeRuns s e 32 = true →
      (canPay s (groveOf e) 24 = true → ∃ u, exec (.ploadComplete e l.pos) s = .next u ∧ { l with started := true } ∈ (u.elem e).preloads ∧ (u.elem e).under = (s.elem e).under ∧ unitsKept s u) ∧
      (canPay s (groveOf e) 24 = false → exec (.ploadComplete e l.pos) s = .next (refuse s (groveOf e) 24)))) ∧
  (∀ (s : State) (e : Nat) (p : Plane), swapReady s e = true → nodeRuns s e 32 = true → underAt (s.elem e) 1 = .plane p → p.present = true →
    (canPay s (groveOf e) 16 = true → ∃ u x, exec (.planeSwap e) s = .next u ∧ (u.elem e).active.pool = p.pool ∧ (u.elem e).active.strands = p.strands ∧ (u.elem e).active.armk = 0 ∧
      underAt (u.elem e) 1 = .plane x ∧ x.pool = (s.elem e).active.pool ∧ x.strands = (s.elem e).active.strands ∧ (u.elem e).sticky = (s.elem e).sticky ∧ memoryKept s u) ∧
    (canPay s (groveOf e) 16 = false → exec (.planeSwap e) s = .next (refuse s (groveOf e) 16))) ∧
  (∀ (s : State) (e t k : Nat) (x : Bool), s.taskOfElem e = some t → (s.task t).wave = some (.freeze x k) → (s.elem e).active.present = true → (s.elem e).frozen = false → (s.elem e).stopped = false →
    (s.elem e).nodeStops = [] → (s.task t).dry = none → recordQueued (s.grove (groveOf e)) t false = false → ((s.elem e).called = true ∨ markersIn s (s.task t).groves 6 e = true) → enginesDone s e = true → agsPaused s e = true →
    requestsSettled s (ofElement e) false = true →
    (canPay s (groveOf e) 48 = true → ∃ u, exec (.freezePoint e) s = .next u ∧ (u.elem e).frozen = true ∧ mayFire u e = false ∧ (u.elem e).withdrawn = (s.reqs.filter (fun r => ofElement e r.2)).map (fun r => (r.1, withdrawn s r.2)) ∧
      (∀ r q, (r, q) ∈ s.reqs → ofElement e q = true → mfind u.reqs r = none) ∧ unitsKept s u) ∧
    (canPay s (groveOf e) 48 = false → exec (.freezePoint e) s = .next (refuse s (groveOf e) 48))) ∧
  (∀ (s : State) (t e k : Nat) (p : Plane), (s.task t).wave = some (.freeze true k) → isLive s t = true → (s.task t).dry = none → switchReady s t = true → listedElems s (s.task t).groves = [e] → mfind s.tasks t ≠ none →
    payPart s t (switchParts s [e] true k) = none → underAt (s.elem e) 1 = .plane p → ∃ u f, exec (.gridCallSwitch t) s = .next u ∧ (u.task t).wave = none ∧ (u.task t).depth = (s.task t).depth + 1 ∧
      (u.elem e).active.pool = p.pool ∧ (u.elem e).active.strands = p.strands ∧ (u.elem e).frozen = false ∧ underAt (u.elem e) 1 = .frame f ∧ f.plane.pool = (s.elem e).active.pool ∧ f.plane.strands = (s.elem e).active.strands ∧
      f.plane.callx = true ∧ memoryKept s u) ∧
  (∀ (s : State) (t e : Nat) (f : Frame), isLive s t = true → (s.task t).dry = none → returnReady s t = true → listedElems s (s.task t).groves = [e] → mfind s.tasks t ≠ none → payPart s t (returnParts s [e]) = none →
    underAt (s.elem e) 1 = .frame f → f.plane.callx = true → ∃ u, exec (.gridReturn t) s = .next u ∧ (u.task t).returning = (s.task t).returning.filter (· != (s.task t).depth) ∧ (u.task t).depth = (s.task t).depth - 1 ∧
      (u.elem e).active.pool = f.plane.pool ∧ (u.elem e).active.strands = f.plane.strands ∧ underAt (u.elem e) 1 = .empty ∧ (u.elem e).fences = f.flight.fences ∧ memoryKept s u) ∧
  (∀ (s : State) (t : Nat), (s.task t).starting = true → isLive s t = true → drained s (s.task t).groves = true → (s.task t).dry = none → (s.task t).feeDue = 0 → (s.task t).suspended = none → mfind s.tasks t ≠ none →
    ∃ u, exec (.loadChange t) s = .next u ∧ (u.task t).starting = false ∧ (u.task t).tstart = s.tb.toNat ∧
      (∀ g ∈ (s.task t).groves, (u.grove g).sticky = 0 ∧ ((s.grove g).level = 0 → (u.grove g).pc = 0)) ∧
      (∀ g ∈ (s.task t).groves, ∀ e ∈ groveElems g, (loadPlane s e 0).present = true → (u.elem e).active.pool = (loadPlane s e 0).pool ∧ (u.elem e).active.strands = (loadPlane s e 0).strands))

/-- Waves and suspension (R353, R363 to R374): waveEntryPoint and wavePoint stop an element that is due, with its requests withdrawn and its slots silent, and a sequencer at its point; waveComplete marks a wave done; suspension releases the region with a save, or goes on as if no wave had run where a spill is blocked, past the cellar's length (R368) or, by the model's choice, at a cellar page that cannot be written (assumption 23); what counts as a marker at the head of a bound channel is the model's reading (assumption 31); suspendRequest arms a wave or is refused, endSuspendedTask ends a suspended task that no resume has given groves, or is refused; taskResume gives a region of the same shape where the partition's TDI is not in ERROR (R381); tagScrub rewrites a finished task's sectors and frees its tag. -/
def Obligations.WaveMoves : Prop :=
  (∀ (s : State) (e t : Nat) (m : BitVec 3) (entry : Bool), s.taskOfElem e = some t → (s.task t).armedWave = false → waveMark (s.task t) = some m → (s.task t).dry = none → mayStop s t e = true →
    (entry = true → (s.elem e).stopped = true ∨ atEntry s (s.task t).groves e = true) →
    (entry = false → (s.elem e).stopped = true ∨ holdsChkpt s e = false ∧ hasBound s (s.task t).groves e = true ∧ markersHeld s t m e = true) →
    ∃ u, exec (if entry then .waveEntryPoint (.elem e) else .wavePoint e) s = .next u ∧ (u.elem e).frozen = true ∧ mayFire u e = false ∧ (u.elem e).withdrawn = (s.reqs.filter (fun r => ofElement e r.2)).map (fun r => (r.1, withdrawn s r.2)) ∧
      (∀ r q, (r, q) ∈ s.reqs → ofElement e q = true → mfind u.reqs r = none) ∧ unitsKept s u) ∧
  (∀ (s : State) (g t : Nat) (m : BitVec 3), s.taskOfGrove g = some t → (s.task t).armedWave = false → waveMark (s.task t) = some m → (s.task t).dry = none → (s.grove g).stopped = false → (s.grove g).entered = true →
    (s.grove g).atPoint = false → (s.grove g).place = none → requestsSettled s (ofSequencer g) false = true →
    ∃ u, exec (.waveEntryPoint (.seq g)) s = .next u ∧ (u.grove g).atPoint = true ∧ (u.grove g).withdrawn = (s.reqs.filter (fun r => ofSequencer g r.2)).map (fun r => (r.1, withdrawn s r.2)) ∧ unitsKept s u) ∧
  (∀ (s : State) (t : Nat) (m : BitVec 3), waveMark (s.task t) = some m → isLive s t = true → (s.task t).dry = none → mfind s.tasks t ≠ none → (∀ e ∈ waveElems s (s.task t).groves, atPoint s e = true) →
    (∀ g ∈ (s.task t).groves, (s.grove g).atPoint = true ∧ agsSettled s g = true ∧ recordQueued (s.grove g) t true = false) → fabricEmpty s (s.task t).groves = true → exitsMarked s t m = true →
    ∃ u, exec (.waveComplete t) s = .next u ∧ (u.task t).waveDone = true ∧ unitsKept s u ∧ restKept s u) ∧
  (∀ (s : State) (t : Nat), (s.task t).waveDone = true → isLive s t = true → (s.task t).dry = none → mfind s.tasks t ≠ none →
    (spillBlocked s t = false → saveHeld s t = false → ∃ u v, exec (.suspension t) s = .next u ∧ (u.task t).suspended = some v ∧ v.held = (s.task t).groves ∧ (u.task t).groves = [] ∧ (u.task t).wave = none ∧
      balance u t = balance s t ∧ isLive u t = true ∧ ∀ g ∈ (s.task t).groves, (u.grove g).task = none) ∧
    (spillBlocked s t = true → ∃ u, exec (.suspension t) s = .next u ∧ (u.task t).wave = none ∧ (u.task t).waveDone = false ∧ (u.task t).groves = (s.task t).groves ∧
      (∀ g ∈ (s.task t).groves, (u.grove g).suspState = 2 ∧ (u.grove g).atPoint = false) ∧ (∀ e ∈ listedElems s (s.task t).groves, (u.elem e).frozen = false ∧ (u.elem e).entered = false) ∧ memoryKept s u)) ∧
  (∀ (s : State) (g : Nat),
    (∀ t, suspendable s g = some t → mfind s.tasks t ≠ none → ∃ u, exec (.suspendRequest g) s = .next u ∧ (u.task t).armedWave = true ∧ (u.task t).saveArea = (s.grove g).savea ∧
      (∀ h ∈ (s.task t).groves, (u.grove h).suspState = 1) ∧ unitsKept s u) ∧
    (suspendable s g = none → ∃ u, exec (.suspendRequest g) s = .next u ∧ (u.grove g).suspState = 2 ∧ u.tasks = s.tasks ∧ unitsKept s u) ∧
    (∀ t, featureOn s 3 = true → isLive s t = true → (s.task t).suspended.isSome = true → (s.task t).groves = [] → s.partOfGrove g = some (s.ctx (s.task t).ctx).part →
      ∃ u, exec (.endSuspendedTask g t) s = .next u ∧ hasVanished s u t ∧ (u.grove g).suspState ≠ 2) ∧
    (∀ t, featureOn s 3 = false ∨ isLive s t = false ∨ (s.task t).suspended.isSome = false ∨ (s.task t).groves ≠ [] → ∃ u, exec (.endSuspendedTask g t) s = .next u ∧ (u.grove g).suspState = 2 ∧ u.tasks = s.tasks ∧ unitsKept s u)) ∧
  (∀ (s : State) (t : Nat) (v : Saved) (o : Nat × Nat), (s.task t).suspended = some v → isLive s t = true → mfind s.tasks t ≠ none → (s.task t).groves = [] → inError s (s.task t).part = false →
    anotherFirst s (s.task t).part (enPrio (s.task t).entry, (s.task t).due0, (s.task t).entryIndex) = false → resumeRegion s (s.task t) v = some o → ∃ u, exec (.taskResume t) s = .next u ∧
      (u.task t).groves = rectangle o.1 o.2 (s.task t).rows (s.task t).cols ∧ (u.task t).starting = true ∧ (u.task t).suspended = some v ∧
      ∀ g ∈ rectangle o.1 o.2 (s.task t).rows (s.task t).cols, (u.grove g).task = some t) ∧
  (∀ (s : State) (t : Nat), tagNeeded s t = false → (mget TagState.free s.tags t = .committed ∨ mget TagState.free s.tags t = .vanished) → ∃ u, exec (.tagScrub t) s = .next u ∧
    mget TagState.free u.tags t = .free ∧ mfind u.tasks t = none ∧ (∀ n, (s.sector n).st = 2 → (s.sector n).tag.toNat = t →
      sectorView u n = if mget TagState.free s.tags t = .committed then .full else .empty) ∧ u.mem = s.mem ∧ registersKept s u none)

/-- The scheduler (R319 to R334): slotTableRead waits while the entry's sector is tentative (R83), notes a changed entry for its next slot start, forgets a change that is undone, and stages a valid one that no reason rejects, with the first start at least 50 microseconds after the first read that found V set and in step with its period; where a read of it, of its image or of the entry after it fails its check it waits (R83, R388; assumption 9); slotStart makes the launch pending and moves the start on by the period; launch gives a pending launch its region, a free tag, its meter of the budget less the pour fee, and its groves; timeBaseAdjust steps an offset over 1 ms and slews the others. -/
def Obligations.SchedulerMoves : Prop :=
  (∀ (s : State) (p n : Nat), s.stage = 8 → n < (s.part p).tableLen → (mfind s.parts p).isSome = true →
    (entryHeld s p n = true → exec (.slotTableRead p n) s = .next s) ∧
    (∀ cause, entryHeld s p n = false → deviceCheck s (entryPlace s p n) = some cause → ∃ u, exec (.slotTableRead p n) s = .next u ∧ u.staged = s.staged ∧ unitsKept s u ∧ restKept s u) ∧
    (deviceCheck s (entryPlace s p n) = none →
    ((mget {} s.staged (entryKey p n)).valid = true → entryHeld s p n = false →
      ∃ u, exec (.slotTableRead p n) s = .next u ∧
      (mget {} u.staged (entryKey p n)).next = (if readEntry s p n = (mget {} s.staged (entryKey p n)).entry then none else some (readEntry s p n)) ∧
      (mget {} u.staged (entryKey p n)).entry = (mget {} s.staged (entryKey p n)).entry ∧ unitsKept s u) ∧
    ((mget {} s.staged (entryKey p n)).valid = false →
      (enBit (readEntry s p n) 63 = false → entryHeld s p n = false → ∃ u, exec (.slotTableRead p n) s = .next u ∧ (mget {} u.staged (entryKey p n)).valid = false ∧ (mget {} u.staged (entryKey p n)).spent = false ∧
        (mget {} u.staged (entryKey p n)).soon = none ∧ unitsKept s u ∧ restKept s u) ∧
      (enBit (readEntry s p n) 63 = true → (mget {} s.staged (entryKey p n)).spent = true → exec (.slotTableRead p n) s = .next s)) ∧
    (∀ (e : Entry) (base size : Nat), (mget {} s.staged (entryKey p n)).valid = false → (mget {} s.staged (entryKey p n)).spent = false → e = readEntry s p n → enBit e 63 = true → entryHeld s p n = false → nextHeld s p e = false →
      s.ctxs.any (fun x => x.1 == enCtx e && x.2.part == p) = true → (s.ctx (enCtx e)).log = some (base, size) → logPages s (enCtx e) base size = true →
      ∃ u, exec (.slotTableRead p n) s = .next u ∧ ∀ i, deviceReads s (enCtx e) (enImage e) 64 = true → deviceWaits s (enCtx e) (enImage e) 64 = false → entryReason s e (imageSize s e) = none →
        deviceWaits s (enCtx e) (enImage e) (imageSize s e) = false → stageFault s p e (imageSize s e) = none →
        readImage (fun j => deviceByte s (enCtx e) (enImage e + j)) = some i → stagingReason s p e (some i) = none →
        (mget {} u.staged (entryKey p n)).valid = true ∧ (mget {} u.staged (entryKey p n)).entry = e ∧ (mget {} u.staged (entryKey p n)).image = i ∧
        (mget {} u.staged (entryKey p n)).start = firstStart e ((mget {} s.staged (entryKey p n)).soon.getD (s.tb.toNat + 50000)) ∧ (mget {} u.staged (entryKey p n)).soon = none ∧ unitsKept s u))) ∧
  (∀ (e : Entry) (t : Nat), t ≤ firstStart e t ∧ (enPeriod e ≠ 0 → enStart e ≤ firstStart e t ∧ (firstStart e t - enStart e) % enPeriod e = 0)) ∧
  (∀ (s : State) (p n : Nat) (x : Staged), x = mget {} s.staged (entryKey p n) → x.valid = true → enChained x.entry = false → x.start ≤ s.tb.toNat → x.pending = none → x.running = none → x.next = none →
    ∃ u d, exec (.slotStart p n) s = .next u ∧ (mget {} u.staged (entryKey p n)).pending = some d ∧ d.start = x.start ∧ d.entry = x.entry ∧ d.image = x.image ∧
      (enPeriod x.entry ≠ 0 → (mget {} u.staged (entryKey p n)).start = x.start + enPeriod x.entry ∧ (mget {} u.staged (entryKey p n)).valid = true) ∧
      (enPeriod x.entry = 0 → (mget {} u.staged (entryKey p n)).valid = false ∧ (mget {} u.staged (entryKey p n)).spent = true) ∧ unitsKept s u) ∧
  (∀ (s : State) (p n : Nat) (d : Due) (o : Nat × Nat), (mget {} s.staged (entryKey p n)).pending = some d → d.blocked = false → inError s p = false → anotherFirst s p (enPrio d.entry, d.start, n) = false →
    regionReason s p d.entry d.image = none → findRegion s p d.entry d.image = some o → deviceWaits s (enCtx d.entry) (enArgs d.entry) 32 = false → deviceFails s (enCtx d.entry) (enArgs d.entry) 32 = false → reservedArgs s d.entry = false → enBudget d.entry ≤ (s.ctx (enCtx d.entry)).reserve → badArgs s d.entry = false → freeTags s ≠ [] →
    ∃ u tag, exec (.launch p n) s = .next u ∧ tag ∈ freeTags s ∧ mget TagState.free u.tags tag = .live ∧ (u.task tag).central = 16 * enBudget d.entry - enFee d.entry ∧
      (u.ctx (enCtx d.entry)).reserve = (s.ctx (enCtx d.entry)).reserve - enBudget d.entry ∧ (u.task tag).starting = true ∧
      (u.task tag).groves = rectangle o.1 o.2 (enRows d.entry) (enCols d.entry) ∧ (∀ g ∈ rectangle o.1 o.2 (enRows d.entry) (enCols d.entry), (u.grove g).task = some tag) ∧
      (mget {} u.staged (entryKey p n)).pending = none ∧ (mget {} u.staged (entryKey p n)).running = some tag) ∧
  (∀ (s : State) (offset : Int), (offset ≤ 1000000 → exec (.timeBaseAdjust offset) s = .next s) ∧
    (1000000 < offset → ∃ u, exec (.timeBaseAdjust offset) s = .next u ∧ u.tb = laterTime s.tb offset.toNat ∧
      ((∀ x ∈ s.staged, startCame s x.2 = false) → u.tasks = s.tasks ∧ registersKept s u none ∧ predicatesKept s u)))

/-- The host port and attestation (R379 to R386): hostWrite and hostRead reach the bytes of an open BAR 2 and are answered as unsupported where it is closed; a write performs its first sector and leaves the others queued, and a read waits while a part is queued; tdiStateChange sets the state, and ERROR ends every task of the partition; ideKeyProgram takes a key for one of 65 streams over a session; getMeasurements answers with a signed digest, keyExchange with what the responder offers, and keyUpdate changes a port's key. PF0's BAR 0 shows OFFER, STAGE and ERR; the address at which a host read finds that BAR is the model's (assumption 30). Registers written from outside (R303, R383, R409); PF0's mailbox answers with the counts of a context as they were at the last commit or vanish, and how it is asked is the model's (assumption 30). The free values of assumptions 8 and 9 stand for keys, digests and signatures. -/
def Obligations.HostMoves : Prop :=
  (∀ (s : State) (vf a pa : Nat) (b : BitVec 8) (ide : Bool), barOpen s vf ide = true → barAddr (s.part (vf - 1)) a = some pa → barSectors (s.part (vf - 1)) a 1 = some [pa / 64] → sectorView s (pa / 64) = .full → Memory.wf s.mem = true → mget [] s.hostQueue vf = [] →
    (∃ u, exec (.hostWrite vf a [b] ide) s = .next u ∧ byteAt u.mem pa = b ∧ (∀ x, x ≠ pa → byteAt u.mem x = byteAt s.mem x) ∧ (u.sector (pa / 64)).st = 1 ∧ registersKept s u none ∧ predicatesKept s u) ∧
    (∃ u, exec (.hostRead vf a 1 ide) s = .next u ∧ unitsKept s u ∧ u.outputs = s.outputs ++ [if macFails s (pa / 64) none = true then .poisoned else .readData [byteAt s.mem pa]])) ∧
  (∀ (s : State) (vf a : Nat) (d : List (BitVec 8)) (ide : Bool) (ns : List Nat), barOpen s vf ide = true → barSectors (s.part (vf - 1)) a d.length = some ns → d ≠ [] →
    (mget [] s.hostQueue vf = [] → hostWaits s ((barSectors (s.part (vf - 1)) a (min d.length (64 - a % 64))).getD []) = false →
      ∃ u, exec (.hostWrite vf a d ide) s = .next u ∧ mget [] u.hostQueue vf = splitWrite (d.length - 1) (a + (64 - a % 64)) (d.drop (64 - a % 64))) ∧
    (mget [] s.hostQueue vf ≠ [] → ∀ n m, barSectors (s.part (vf - 1)) a n = some m → exec (.hostRead vf a n ide) s = .next s)) ∧
  (∀ (s : State) (vf a : Nat) (d : List (BitVec 8)) (ide : Bool), barOpen s vf ide = false → d ≠ [] → a < barZero → (vf = 0 → 0x10000 ≤ a) → (∃ u, exec (.hostWrite vf a d ide) s = .next u ∧ u.outputs = s.outputs ++ [.unsupported] ∧ unitsKept s u) ∧
    (∀ n, ∃ u, exec (.hostRead vf a n ide) s = .next u ∧ u.outputs = s.outputs ++ [.unsupported] ∧ unitsKept s u)) ∧
  (∀ (s : State) (p : Nat) (st : TdiState), (featureOn s 0 = false → exec (.tdiStateChange p st) s = .next s) ∧ (mfind s.parts p ≠ none → featureOn s 0 = true → ∃ u, exec (.tdiStateChange p st) s = .next u ∧ (u.part p).tdi = st ∧ (st ≠ .error → s.waiting = [] → u.tasks = s.tasks ∧ unitsKept s u) ∧
    (st = .error → ∀ t ∈ partTasks s p, mget TagState.free u.tags t = .vanished))) ∧
  (∀ (s : State) (n k : Nat), (s.sessions = [] ∨ 64 < n → exec (.ideKeyProgram n k) s = .next s) ∧
    (s.sessions ≠ [] → n ≤ 64 → ∃ u, exec (.ideKeyProgram n k) s = .next u ∧ mget 0 u.ideKeys n = k ∧ (∀ m, m ≠ n → mget 0 u.ideKeys m = mget 0 s.ideKeys m) ∧ (s.waiting = [] → unitsKept s u))) ∧
  (∀ (s : State) (n : Nat), (∃ u, exec (.getMeasurements n true) s = .next u ∧ u.outputs = s.outputs ++ [.measurementLog s.measureLog] ∧ unitsKept s u) ∧
    (∃ u, exec (.getMeasurements n false) s = .next u ∧ u.outputs = s.outputs ++ [.measurement n (sha3 (bytes512 (mget 0 s.measures n))) (Config.signature s.aliasKey (bytes512 (sha3 (bytes512 (mget 0 s.measures n)))))] ∧ unitsKept s u)) ∧
  (∀ (s : State) (n : Nat), ∃ u, exec (.keyExchange n) s = .next u ∧ mget 0 u.sessions n = Config.sessionKey n s.moveNo ∧
    u.outputs = s.outputs ++ [.session n (Config.sessionKey n s.moveNo) [.ed448, .sha3x512, .secp384r1, .aes256gcm] Config.identityChain s.aliasKey] ∧ unitsKept s u) ∧
  (∀ (s : State) (ide : Bool),
    (∃ u bs, exec (.hostRead 0 barZero 8 ide) s = .next u ∧ u.outputs = s.outputs ++ [.readData bs] ∧ bs.length = 8 ∧ littleEndian bs = s.offer.toNat ∧ unitsKept s u) ∧
    (∃ u bs, exec (.hostRead 0 (barZero + 0x20) 8 ide) s = .next u ∧ u.outputs = s.outputs ++ [.readData bs] ∧ bs.length = 8 ∧
      littleEndian bs % 16 = s.stage.toNat ∧ littleEndian bs / 16 = (if s.err then 1 else 0) ∧ unitsKept s u)) ∧
  (∀ (s : State) (n k salt : Nat), (∃ u, exec (.keyUpdate n true k salt) s = .next u ∧ (mget {} u.berovo n).txKey = k ∧ (mget {} u.berovo n).txSalt = salt ∧ (mget {} u.berovo n).rxKey = (mget {} s.berovo n).rxKey ∧ unitsKept s u) ∧
    (∃ u, exec (.keyUpdate n false k salt) s = .next u ∧ (mget {} u.berovo n).rxKey = k ∧ (mget {} u.berovo n).rxSalt = salt ∧ (mget {} u.berovo n).txKey = (mget {} s.berovo n).txKey ∧ unitsKept s u)) ∧
  (∀ (s : State) (g c : Nat) (v : Word), (∃ u, exec (.registerWrite (.sys g 1 true) v) s = .next u ∧ (u.grove g).svec = v.setWidth 14 ∧ unitsKept s u) ∧
    (exec (.registerWrite (.sys g 1 false) v) s = .next s) ∧
    (s.negotiated = false → ∃ u, exec (.registerWrite .ackHigh v) s = .next u ∧ u.ackHigh = v ∧ unitsKept s u) ∧
    (mfind s.ctxs c ≠ none → ∃ u, exec (.registerWrite (.reserve c) v) s = .next u ∧ ((s.ctx c).reserve + v.toNat < 2 ^ 48 → (u.ctx c).reserve = (s.ctx c).reserve + v.toNat) ∧
      ((s.ctx c).shown + v.toNat < 2 ^ 48 → (u.ctx c).shown = (s.ctx c).shown + v.toNat) ∧ unitsKept s u) ∧
    (mfind s.ctxs v.toNat ≠ none → v ≠ 65536 → ∃ u bs, exec (.registerWrite (.mailbox 0) v) s = .next u ∧ u.outputs = s.outputs ++ [.readData bs] ∧ bs.length = 40 ∧ ((s.ctx v.toNat).shown < 2 ^ 64 → littleEndian (bs.take 8) = (s.ctx v.toNat).shown) ∧ unitsKept s u))

/-- Berovo links and accesses from other modules (R390 to R395): a bad frame is discarded and counted, one for this module is taken in with its SEQ and its credit returned in a frame on VC 3, one for another is sent on at one hop less within the credit of its VC and the life of its key, and waits without; the route to a module is the monitor's to set (R391); creditReturn gives back at most the grant of 512 beats, and lets go what waits in the window queue within it (R92, R391); remoteRequest adds a request to HBM, one that marks sectors under a proxy tag and waiting for one where none is free, or stops at an address outside it, in the model's own fault noSuchMemory (assumption 25); resolve makes the proxies of a source full or empty and is acknowledged on VC 2; resolveAck counts down; linkFailure takes a port down. That a message of one payload beat takes 3 beats of credit, that credit goes to the module at the other end of the port, and that the credit of VC 3 is owed until the next credit of another VC or half a grant, are the model's choices (assumption 30). -/
def Obligations.LinkMoves : Prop :=
  (∀ (s : State) (n : Nat) (h : BitVec 128) (l : List (BitVec 128)) (ok : Bool), (mget {} s.berovo n).up = true →
    (frBad (mget {} s.berovo n) h l ok = true → ∃ u, exec (.berovoFrameReceive n h l ok) s = .next u ∧ (mget {} u.berovo n).discarded = (mget {} s.berovo n).discarded + 1 ∧ u.outputs = s.outputs ∧ unitsKept s u) ∧
    (frBad (mget {} s.berovo n) h l ok = false → frDest h = s.moduleNo → ∃ u, exec (.berovoFrameReceive n h l ok) s = .next u ∧ (mget {} u.berovo n).rxSeq = frSeq h + 1 ∧ unitsKept s u ∧
      (frVc h ≠ 3 → creditDue s n → ∃ hd, returnsCredit s n hd ∧ u.outputs = s.outputs ++ [.message n hd 0 (.credit (frVc h) (frBeats h))]) ∧
      (frVc h = 3 → (mget {} s.berovo n).owed + frBeats h < 256 → (mget {} u.berovo n).owed = (mget {} s.berovo n).owed + frBeats h ∧ u.outputs = s.outputs)) ∧
    (∀ out y, frBad (mget {} s.berovo n) h l ok = false → frDest h ≠ s.moduleNo → linkRoute s (frDest h) = out → y = mget {} s.berovo out →
      (y.up = false ∨ mget [] y.window (frVc h) ≠ [] ∨ mget vcGrant y.credit (frVc h) < frBeats h ∨ keyLife ≤ y.txFrames → exec (.berovoFrameReceive n h l ok) s = .next s) ∧
      (y.up = true → mget [] y.window (frVc h) = [] → frBeats h ≤ mget vcGrant y.credit (frVc h) → y.txFrames < keyLife → out ≠ n → frVc h = 3 → (mget {} s.berovo n).owed + frBeats h < 256 →
        ∃ u, exec (.berovoFrameReceive n h l ok) s = .next u ∧ (mget {} u.berovo n).rxSeq = frSeq h + 1 ∧ (mget {} u.berovo n).owed = (mget {} s.berovo n).owed + frBeats h ∧ u.outputs = s.outputs ++ [.frame out (frOnward h y.txSeq) l] ∧ unitsKept s u) ∧
      (y.up = true → mget [] y.window (frVc h) = [] → frBeats h ≤ mget vcGrant y.credit (frVc h) → y.txFrames < keyLife → out ≠ n → frVc h ≠ 3 → creditDue s n →
        ∃ u hd, exec (.berovoFrameReceive n h l ok) s = .next u ∧ (mget {} u.berovo n).rxSeq = frSeq h + 1 ∧ (mget {} u.berovo out).txSeq = y.txSeq + 1 ∧
          mget vcGrant (mget {} u.berovo out).credit (frVc h) + frBeats h = mget vcGrant y.credit (frVc h) ∧ returnsCredit s n hd ∧
          u.outputs = s.outputs ++ [.frame out (frOnward h y.txSeq) l, .message n hd 0 (.credit (frVc h) (frBeats h))] ∧ unitsKept s u))) ∧
  (∀ (h : BitVec 128) (n : Nat), 0 < frTtl h → frTtl (frOnward h n) = frTtl h - 1 ∧ frSeq (frOnward h n) = n % 2 ^ 64 ∧ frDest (frOnward h n) = frDest h ∧ frVc (frOnward h n) = frVc h) ∧
  (∀ (s : State) (n vc b c : Nat), c = min 512 (mget vcGrant (mget {} s.berovo n).credit vc + b) → ∃ u, exec (.creditReturn n vc b) s = .next u ∧ unitsKept s u ∧
    (mget {} u.berovo n).owed = (mget {} s.berovo n).owed ∧
    ((mget {} s.berovo n).up = false ∨ mget [] (mget {} s.berovo n).window vc = [] → mget vcGrant (mget {} u.berovo n).credit vc = c ∧ u.outputs = s.outputs) ∧
    (∀ w q, (mget {} s.berovo n).up = true → mget [] (mget {} s.berovo n).window vc = w :: q → w.beats ≤ c → (mget {} s.berovo n).txFrames < keyLife → vc < 4 → w.dest ≤ 4607 →
      ∃ hd os, frDest hd = w.dest ∧ frVc hd = vc ∧ frSeq hd = (mget {} s.berovo n).txSeq % 2 ^ 64 ∧ u.outputs = s.outputs ++ .message n hd (firstBeat w.msg) w.msg :: os)) ∧
  (∀ (s : State) (m : Nat) (v : Word), ∃ u, exec (.registerWrite (.route m) v) s = .next u ∧ linkRoute u m = v.toNat ∧ (∀ x, x ≠ m → linkRoute u x = linkRoute s x) ∧ unitsKept s u) ∧
  (∀ (s : State) (src serial rid pa size : Nat) (how : RemoteAccess),
    (pa < hbmEnd → ∃ u q, exec (.remoteRequest src serial rid pa size .read how) s = .next u ∧ mfind u.reqs s.nextReq = some q ∧ q.kind = .load false ∧ q.target = .hbm pa ∧ q.size = size ∧
      q.src = .remote src serial rid ∧ q.supervisor = how.outside ∧ requestsKept s u s.nextReq ∧ unitsKept s u) ∧
    (∀ w t, pa < hbmEnd → proxyTag s src serial = some t → ∃ u q, exec (.remoteRequest src serial rid pa size (.write [some w]) how) s = .next u ∧ mfind u.reqs s.nextReq = some q ∧
      q.kind = .store ∧ q.data = w ∧ q.target = .hbm pa ∧ q.tag = t ∧ u.tags = s.tags ∧ requestsKept s u s.nextReq ∧ unitsKept s u) ∧
    (∀ w, pa < hbmEnd → proxyTag s src serial = none → freeTags s ≠ [] → how.pl = false → how.outside = false → ∃ u q tag, exec (.remoteRequest src serial rid pa size (.write [some w]) how) s = .next u ∧
      mfind u.reqs s.nextReq = some q ∧ q.kind = .store ∧ q.data = w ∧ q.target = .hbm pa ∧ q.tag = tag ∧ tag ∈ freeTags s ∧ mget TagState.free u.tags tag = .proxy src serial ∧ requestsKept s u s.nextReq ∧ unitsKept s u) ∧
    (∀ ws, pa < hbmEnd → proxyTag s src serial = none → freeTags s = [] → how.pl = false → how.outside = false → exec (.remoteRequest src serial rid pa size (.write ws) how) s = .next s) ∧
    (∀ op, hbmEnd ≤ pa → exec (.remoteRequest src serial rid pa size op how) s = .fault (.noSuchMemory pa))) ∧
  (∀ (s : State) (src serial n : Nat) (commit : Bool), n = linkRoute s src → ∃ u, exec (.resolve src serial commit) s = .next u ∧ registersKept s u none ∧ predicatesKept s u ∧
    (s.waiting = [] → (∀ t, mget TagState.free s.tags t = .proxy src serial → mget [] s.voids t = []) → memoryKept s u ∧
      ((mget {} s.berovo n).up = true → mget [] (mget {} s.berovo n).window 2 = [] → 3 ≤ mget vcGrant (mget {} s.berovo n).credit 2 → (mget {} s.berovo n).txFrames < keyLife → src ≤ 4607 →
        ∃ hd bt, frDest hd = src ∧ frVc hd = 2 ∧ u.outputs = s.outputs ++ [.message n hd bt (.resolveAck serial)])) ∧
    ∀ t, mget TagState.free u.tags t = if mget TagState.free s.tags t = .proxy src serial then (if commit then .committed else .vanished) else mget TagState.free s.tags t) ∧
  (∀ (s : State) (t m : Nat), m ∈ (s.task t).resolving → isLive s t = false → ∃ u, exec (.resolveAck t m) s = .next u ∧ (u.task t).resolving = (s.task t).resolving.filter (· != m) ∧
    registersKept s u none ∧ predicatesKept s u ∧ (((s.task t).resolving.filter (· != m)) ≠ [] → memoryKept s u)) ∧
  (∀ (s : State) (n : Nat), ∃ u, exec (.linkFailure n) s = .next u ∧ (mget {} u.berovo n).up = false ∧ (∀ m, m ≠ n → mget {} u.berovo m = mget {} s.berovo m) ∧ unitsKept s u) ∧
  (∀ (s : State) (m : Nat), ∃ u, exec (.zwitexLostModule m) s = .next u ∧ registersKept s u none ∧ predicatesKept s u ∧ (s.waiting = [] → memoryKept s u) ∧ ∀ t n, mget TagState.free s.tags t = .proxy m n → mget TagState.free u.tags t = .vanished)

/-- Gating, sensors and retirement (R399, R402 to R404, R410): elementGate rests an element and elementWake ends its rest when something has arrived; sensorSample keeps the reading and quarantines one out of range, a temperature over 105 degrees making the grove hot; guardSupplyShortfall and sramSoftError retire the grove and end its task; groveRestore returns a grove that is signed for and has passed its self-test. -/
def Obligations.PowerMoves : Prop :=
  (∀ (s : State) (e : Nat), (elemRests s e = true → (s.elem e).resting = false → ∃ u, exec (.elementGate e) s = .next u ∧ (u.elem e).resting = true ∧ (u.elem e).idleSince = s.tb.toNat ∧ unitsKept s u) ∧
    (elemRests s e = false ∨ (s.elem e).resting = true → exec (.elementGate e) s = .next s) ∧
    ((s.elem e).resting = true → hasArrival s e = true → ∃ u, exec (.elementWake e) s = .next u ∧ (u.elem e).resting = false ∧ (u.elem e).gated = false ∧ unitsKept s u) ∧
    ((s.elem e).resting = false → exec (.elementWake e) s = .next s)) ∧
  (∀ (s : State) (g code : Nat) (k : SensorKind), ∃ u, exec (.sensorSample g k code) s = .next u ∧ (sensorOf (u.grove g) k).code = code ∧ unitsKept s u ∧
    (outOfRange k (Config.sensorMilli k code) = true ∨ (sensorOf (s.grove g) k).quarantined = true → (sensorOf (u.grove g) k).quarantined = true) ∧
    (k = .temperature → (sensorOf (u.grove g) k).quarantined = false → 105000 < Config.sensorMilli k code → (u.grove g).hot = true)) ∧
  (∀ (s : State) (g : Nat), ∀ i ∈ [Instr.guardSupplyShortfall g, .sramSoftError g], ∃ u, exec i s = .next u ∧ g ∈ u.retired ∧
    (∀ t, s.taskOfGrove g = some t → isLive s t = true → mget TagState.free u.tags t = .vanished) ∧ (∀ h, h ≠ g → (h ∈ u.retired ↔ h ∈ s.retired))) ∧
  (∀ (s : State) (g : Nat), (∃ u, exec (.groveRestore g true true) s = .next u ∧ (∀ h, h ∈ u.retired ↔ h ∈ s.retired ∧ h ≠ g) ∧ unitsKept s u) ∧
    exec (.groveRestore g false true) s = .next s ∧ exec (.groveRestore g true false) s = .next s)

/-- Bring-up (R406 to R409): reset with an accepted image in the active slot reaches stage 8 with nothing negotiated, no task and nothing in the HBM or the banks, with the time and the number that a peer gives, and stops in error at a stage that fails, or at stage 6 where that number is over 4,607; that memory reads zero after reset, and that the time is 0 without a peer, are the model's (assumptions 3, 5 and 26); the first write of ACK enables what was offered and closes negotiation, and one of a feature that was not offered is an error; a verified image goes to the inactive slot, which becomes the active one. -/
def Obligations.BringUpMoves : Prop :=
  (∀ (s : State) (b : BootInput), b.net = none → badPeer b = false → s.slotA.active = true → s.slotA.image.verified = true → s.fuse ≤ s.slotA.image.version →
    (b.failAt = 0 → ∃ u, exec (.reset b) s = .next u ∧ u.stage = 8 ∧ u.err = false ∧ u.negotiated = false ∧ u.ack = 0 ∧ u.tasks = [] ∧ u.reqs = [] ∧ u.tb = (match b.peer with
        | some p => p.time
        | none => 0) ∧ (∀ p, b.peer = some p → u.moduleNo = p.number) ∧ (∀ a, a < hostBase → byteAt u.mem a = 0) ∧
      (∀ g, readSys u g 1 = 12288 ∧ readSys u g 2 = 12288 ∧ readSys u g 0 = 0)) ∧
    (1 ≤ b.failAt → b.failAt ≤ 7 → ∃ u, exec (.reset b) s = .next u ∧ u.stage = BitVec.ofNat 4 b.failAt ∧ u.err = true ∧ u.slotA.failedBoots = s.slotA.failedBoots + 1)) ∧
  (∀ (s : State) (b : BootInput), b.net = none → badPeer b = true → s.slotA.active = true → s.slotA.image.verified = true → s.fuse ≤ s.slotA.image.version → b.failAt = 0 →
    ∃ u, exec (.reset b) s = .next u ∧ u.stage = 6 ∧ u.err = true) ∧
  (∀ (s : State) (lo hi : Word), s.stage = 8 → s.negotiated = false →
    (lo &&& ~~~s.offer = 0 → s.ackHigh = 0 → hi = 0 → ∃ u, exec (.featureAck lo hi) s = .next u ∧ u.ack = lo ∧ u.negotiated = true ∧ u.err = s.err ∧ unitsKept s u) ∧
    (lo &&& ~~~s.offer ≠ 0 ∨ s.ackHigh ≠ 0 ∨ hi ≠ 0 → ∃ u, exec (.featureAck lo hi) s = .next u ∧ u.err = true ∧ u.ack = s.ack ∧ u.negotiated = true ∧ unitsKept s u)) ∧
  (∀ (s : State) (lo hi : Word), s.negotiated = true → exec (.featureAck lo hi) s = .next s) ∧
  (∀ (s : State) (f : Firmware), ∀ i ∈ [Instr.firmwareUpdate f, .zwitexFirmwareTransfer f], ∃ u, exec i s = .next u ∧ unitsKept s u ∧ u.fuse = s.fuse ∧ u.running = s.running ∧
    (f.verified = true → s.slotA.active = true → u.slotB.image = f ∧ u.slotB.active = true ∧ u.slotA.image = s.slotA.image ∧ u.slotA.active = false) ∧
    (f.verified = true → s.slotA.active = false → u.slotA.image = f ∧ u.slotA.active = true ∧ u.slotB.image = s.slotB.image ∧ u.slotB.active = false) ∧
    (f.verified = false → s.slotA.active = true → u.slotA = s.slotA))

/-- The supervisor image that call 4 of a grove names can be read: no sector of it waits or fails its check (R83, R381, R388). -/
def imageReads (s : State) (g : Nat) : Prop :=
  ∀ c va, c = unitCtx s (.seq g) → va = (reg (s.grove g).superBank.w 1).toNat →
    deviceWaits s c va 64 = false ∧ deviceWaits s c va (superSize s c va) = false ∧ deviceFault s c va (superSize s c va) = none

/-- Monitor calls (R412) and Zwitex (R413): a waiting call is answered in w0 of the supervisor bank and the sequencer goes on; features, the grove map, guard drops, the supervisor image, all ones for numbers 5 to 63. Zwitex sets the time by R319, the module number up to 4,607, the hop table while no task runs, gives the event log, clears a quarantine, and changes a partition's service between its tasks. Call 4 waits while a sector of the image is tentative, and where one fails its check it answers all ones, by the model's choice (assumption 30). The command that makes a context, which R413 does not list and which waits for no task, is the model's (assumption 11); that a command which the module's state does not allow has no effect is the model's reading (assumption 26). -/
def Obligations.ManagementMoves : Prop :=
  (∀ (s : State) (g n : Nat) (c : BitVec 6), (s.grove g).superBank.hold = .monitor c → n = c.toNat → ∀ (i : Instr) (v : Word),
    (i = .monitorCallFeatures g ∧ n = 0 ∧ v = s.ack) ∨ (i = .monitorCallFeatures g ∧ n = 1 ∧ v = 0) ∨
    (i = .monitorCallGroveMap g ∧ n = 2 ∧ v = mapWord s (reg (s.grove g).superBank.w 1).toNat) ∨
    (i = .monitorCallGuardDrops g ∧ n = 3 ∧ ∃ p, s.partOfGrove g = some p ∧ v = BitVec.ofNat 64 (s.part p).guard) ∨
    (i = .monitorCallReplaceImage g ∧ n = 4 ∧ (s.grove g).task = none ∧ imageReads s g ∧ v = 0) ∨ (i = .monitorCallInvalid g ∧ 5 ≤ n ∧ v = BitVec.allOnes 64) →
    ∃ u, exec i s = .next u ∧ reg (u.grove g).superBank.w 0 = v ∧ (∀ j, j < 16 → j ≠ 0 → reg (u.grove g).superBank.w j = reg (s.grove g).superBank.w j) ∧ (u.grove g).superBank.hold = .none ∧
      (u.grove g).taskBank = (s.grove g).taskBank ∧ (u.grove g).pc = (s.grove g).pc ∧ memoryKept s u) ∧
  (∀ (s : State) (n b : Nat), b < 64 → (n ≤ 41 → (mapWord s n).getLsbD b = decide (64 * n + b ∉ s.retired)) ∧ (41 < n → (mapWord s n).getLsbD b = true)) ∧
  (∀ (s : State) (g : Nat), (s.grove g).task.isSome = true → exec (.monitorCallReplaceImage g) s = .next s) ∧
  (∀ (s : State) (g c va : Nat), callNo s g = some 4 → (s.grove g).task = none → c = unitCtx s (.seq g) → va = (reg (s.grove g).superBank.w 1).toNat →
    (deviceWaits s c va 64 = true → exec (.monitorCallReplaceImage g) s = .next s) ∧
    (∀ cause, deviceWaits s c va 64 = false → deviceWaits s c va (superSize s c va) = false → deviceFault s c va (superSize s c va) = some cause →
      ∃ u, exec (.monitorCallReplaceImage g) s = .next u ∧ reg (u.grove g).superBank.w 0 = BitVec.allOnes 64 ∧ (u.grove g).superBank.hold = .none ∧ (u.grove g).imem = (s.grove g).imem ∧ memoryKept s u)) ∧
  (∀ (s : State) (t : Nat), (t ≤ s.tb.toNat + 1000000 → exec (.zwitexTime t) s = .next s) ∧ (s.tb.toNat + 1000000 < t → t < 2 ^ 64 → ∃ u, exec (.zwitexTime t) s = .next u ∧ u.tb.toNat = t)) ∧
  (∀ (s : State) (n : Nat), (n ≤ 4607 → ∃ u, exec (.zwitexModuleNumber n) s = .next u ∧ u.moduleNo = n ∧ unitsKept s u) ∧ (4607 < n → exec (.zwitexModuleNumber n) s = .next s)) ∧
  (∀ (s : State) (m h : Nat), ((∀ t ∈ s.tasks, isLive s t.1 = false) → ∃ u, exec (.zwitexHopTable m h) s = .next u ∧ mget 0 u.hops m = h ∧ (∀ x, x ≠ m → mget 0 u.hops x = mget 0 s.hops x) ∧ unitsKept s u) ∧
    ((∃ t ∈ s.tasks, isLive s t.1 = true) → exec (.zwitexHopTable m h) s = .next s)) ∧
  (∀ s : State, ∃ u, exec .zwitexEventLogRead s = .next u ∧ u.outputs = s.outputs ++ [.eventLog s.eventLog] ∧ u.eventLog = s.eventLog ∧ unitsKept s u) ∧
  (∀ (s : State) (g : Nat) (k : SensorKind), ∃ u, exec (.zwitexQuarantineClear g k) s = .next u ∧ (sensorOf (u.grove g) k).quarantined = false ∧ (sensorOf (u.grove g) k).code = (sensorOf (s.grove g) k).code ∧ unitsKept s u) ∧
  (∀ (s : State) (p n root boost : Nat) (ev : Bool), mfind s.parts p ≠ none →
    (n < 65536 → mfind s.ctxs n = none → root % 8192 = 0 → inPartition s p root = true → ∃ u, exec (.zwitexPartitionCommand (.context p n root boost)) s = .next u ∧ (u.ctx n).part = p ∧ (u.ctx n).root = root ∧ (u.ctx n).boost = boost ∧ (u.ctx n).reserve = 0 ∧ unitsKept s u) ∧
    (partTasks s p = [] → ∃ u, exec (.zwitexPartitionCommand (.service p ev)) s = .next u ∧ (u.part p).service = ev ∧ unitsKept s u) ∧
    (partTasks s p ≠ [] → exec (.zwitexPartitionCommand (.service p ev)) s = .next s))

/-- Every step keeps the canonical form of the byte memory: addresses rise, and no listed byte equals what an unlisted address reads as; so equal memories are equal data. Reset memory has the form. -/
def Obligations.StepsKeepMemoryCanonical : Prop :=
  Memory.wf State.reset.mem = true ∧ ∀ s t : State, Memory.wf s.mem = true → step s = .next t → Memory.wf t.mem = true
end

