-- ==== Sys2Proof/Laws/Encoding.lean ====
section
/-! SUPPORT. The fields of an assembled word, one lemma for each field of each format (R105, R109), and what decode makes of a word that was assembled. -/

namespace Sys2Proof.Laws

open Sys2Proof

/-- A field as a bit vector is the field as a number, cut to its length. -/
theorem fb_eq_fld (len : Nat) (w : IWord) (lo : Nat) : fb len w lo = BitVec.ofNat len (fld w lo len) := by
  apply BitVec.eq_of_toNat_eq
  simp [fb, fld]

theorem asm_26_6 (t op d a b m : Nat) (_ : t < 64) (_ : op < 64) (_ : d < 64) (_ : a < 64) (_ : b < 64) (_ : m < 4) : fld (asm t op d a b m) 26 6 = t := by simp [fld, asm]; omega
theorem asm_20_6 (t op d a b m : Nat) (_ : t < 64) (_ : op < 64) (_ : d < 64) (_ : a < 64) (_ : b < 64) (_ : m < 4) : fld (asm t op d a b m) 20 6 = op := by simp [fld, asm]; omega
theorem asm_14_6 (t op d a b m : Nat) (_ : t < 64) (_ : op < 64) (_ : d < 64) (_ : a < 64) (_ : b < 64) (_ : m < 4) : fld (asm t op d a b m) 14 6 = d := by simp [fld, asm]; omega
theorem asm_17_3 (t op d a b m : Nat) (_ : t < 64) (_ : op < 64) (_ : d < 64) (_ : a < 64) (_ : b < 64) (_ : m < 4) : fld (asm t op d a b m) 17 3 = d / 8 := by simp [fld, asm]; omega
theorem asm_14_3 (t op d a b m : Nat) (_ : t < 64) (_ : op < 64) (_ : d < 64) (_ : a < 64) (_ : b < 64) (_ : m < 4) : fld (asm t op d a b m) 14 3 = d % 8 := by simp [fld, asm]; omega
theorem asm_8_6 (t op d a b m : Nat) (_ : t < 64) (_ : op < 64) (_ : d < 64) (_ : a < 64) (_ : b < 64) (_ : m < 4) : fld (asm t op d a b m) 8 6 = a := by simp [fld, asm]; omega
theorem asm_8_3 (t op d a b m : Nat) (_ : t < 64) (_ : op < 64) (_ : d < 64) (_ : a < 64) (_ : b < 64) (_ : m < 4) : fld (asm t op d a b m) 8 3 = a % 8 := by simp [fld, asm]; omega
theorem asm_2_6 (t op d a b m : Nat) (_ : t < 64) (_ : op < 64) (_ : d < 64) (_ : a < 64) (_ : b < 64) (_ : m < 4) : fld (asm t op d a b m) 2 6 = b := by simp [fld, asm]; omega
theorem asm_2_3 (t op d a b m : Nat) (_ : t < 64) (_ : op < 64) (_ : d < 64) (_ : a < 64) (_ : b < 64) (_ : m < 4) : fld (asm t op d a b m) 2 3 = b % 8 := by simp [fld, asm]; omega
theorem asm_2_1 (t op d a b m : Nat) (_ : t < 64) (_ : op < 64) (_ : d < 64) (_ : a < 64) (_ : b < 64) (_ : m < 4) : fld (asm t op d a b m) 2 1 = b % 2 := by simp [fld, asm]; omega
theorem asm_0_2 (t op d a b m : Nat) (_ : t < 64) (_ : op < 64) (_ : d < 64) (_ : a < 64) (_ : b < 64) (_ : m < 4) : fld (asm t op d a b m) 0 2 = m := by simp [fld, asm]; omega

theorem asmRRI_26_6 (t op d a imm : Nat) (_ : t < 64) (_ : op < 64) (_ : d < 64) (_ : a < 64) (_ : imm < 256) : fld (asmRRI t op d a imm) 26 6 = t := by simp [fld, asmRRI]; omega
theorem asmRRI_20_6 (t op d a imm : Nat) (_ : t < 64) (_ : op < 64) (_ : d < 64) (_ : a < 64) (_ : imm < 256) : fld (asmRRI t op d a imm) 20 6 = op := by simp [fld, asmRRI]; omega
theorem asmRRI_14_6 (t op d a imm : Nat) (_ : t < 64) (_ : op < 64) (_ : d < 64) (_ : a < 64) (_ : imm < 256) : fld (asmRRI t op d a imm) 14 6 = d := by simp [fld, asmRRI]; omega
theorem asmRRI_17_3 (t op d a imm : Nat) (_ : t < 64) (_ : op < 64) (_ : d < 64) (_ : a < 64) (_ : imm < 256) : fld (asmRRI t op d a imm) 17 3 = d / 8 := by simp [fld, asmRRI]; omega
theorem asmRRI_14_3 (t op d a imm : Nat) (_ : t < 64) (_ : op < 64) (_ : d < 64) (_ : a < 64) (_ : imm < 256) : fld (asmRRI t op d a imm) 14 3 = d % 8 := by simp [fld, asmRRI]; omega
theorem asmRRI_8_6 (t op d a imm : Nat) (_ : t < 64) (_ : op < 64) (_ : d < 64) (_ : a < 64) (_ : imm < 256) : fld (asmRRI t op d a imm) 8 6 = a := by simp [fld, asmRRI]; omega
theorem asmRRI_6_2 (t op d a imm : Nat) (_ : t < 64) (_ : op < 64) (_ : d < 64) (_ : a < 64) (_ : imm < 256) : fld (asmRRI t op d a imm) 6 2 = imm / 64 := by simp [fld, asmRRI]; omega
theorem asmRRI_0_6 (t op d a imm : Nat) (_ : t < 64) (_ : op < 64) (_ : d < 64) (_ : a < 64) (_ : imm < 256) : fld (asmRRI t op d a imm) 0 6 = imm % 64 := by simp [fld, asmRRI]; omega
theorem asmRRI_0_8 (t op d a imm : Nat) (_ : t < 64) (_ : op < 64) (_ : d < 64) (_ : a < 64) (_ : imm < 256) : fld (asmRRI t op d a imm) 0 8 = imm := by simp [fld, asmRRI]; omega

theorem asmRI_26_6 (t op d imm : Nat) (_ : t < 64) (_ : op < 64) (_ : d < 64) (_ : imm < 16384) : fld (asmRI t op d imm) 26 6 = t := by simp [fld, asmRI]; omega
theorem asmRI_20_6 (t op d imm : Nat) (_ : t < 64) (_ : op < 64) (_ : d < 64) (_ : imm < 16384) : fld (asmRI t op d imm) 20 6 = op := by simp [fld, asmRI]; omega
theorem asmRI_14_6 (t op d imm : Nat) (_ : t < 64) (_ : op < 64) (_ : d < 64) (_ : imm < 16384) : fld (asmRI t op d imm) 14 6 = d := by simp [fld, asmRI]; omega
theorem asmRI_14_3 (t op d imm : Nat) (_ : t < 64) (_ : op < 64) (_ : d < 64) (_ : imm < 16384) : fld (asmRI t op d imm) 14 3 = d % 8 := by simp [fld, asmRI]; omega
theorem asmRI_0_14 (t op d imm : Nat) (_ : t < 64) (_ : op < 64) (_ : d < 64) (_ : imm < 16384) : fld (asmRI t op d imm) 0 14 = imm := by simp [fld, asmRI]; omega

theorem asmJ_26_6 (t op offset : Nat) (_ : t < 64) (_ : op < 64) (_ : offset < 1048576) : fld (asmJ t op offset) 26 6 = t := by simp [fld, asmJ]; omega
theorem asmJ_20_6 (t op offset : Nat) (_ : t < 64) (_ : op < 64) (_ : offset < 1048576) : fld (asmJ t op offset) 20 6 = op := by simp [fld, asmJ]; omega
theorem asmJ_0_20 (t op offset : Nat) (_ : t < 64) (_ : op < 64) (_ : offset < 1048576) : fld (asmJ t op offset) 0 20 = offset := by simp [fld, asmJ]; omega

theorem asmV_26_6 (vop lt rm cc st cx : Nat) (_ : vop < 32) (_ : lt < 16) (_ : rm < 8) (_ : cc < 8) (_ : st < 16) (_ : cx < 64) : fld (asmV vop lt rm cc st cx) 26 6 = 63 := by simp [fld, asmV]; omega
theorem asmV_21_5 (vop lt rm cc st cx : Nat) (_ : vop < 32) (_ : lt < 16) (_ : rm < 8) (_ : cc < 8) (_ : st < 16) (_ : cx < 64) : fld (asmV vop lt rm cc st cx) 21 5 = vop := by simp [fld, asmV]; omega
theorem asmV_17_4 (vop lt rm cc st cx : Nat) (_ : vop < 32) (_ : lt < 16) (_ : rm < 8) (_ : cc < 8) (_ : st < 16) (_ : cx < 64) : fld (asmV vop lt rm cc st cx) 17 4 = lt := by simp [fld, asmV]; omega
theorem asmV_14_3 (vop lt rm cc st cx : Nat) (_ : vop < 32) (_ : lt < 16) (_ : rm < 8) (_ : cc < 8) (_ : st < 16) (_ : cx < 64) : fld (asmV vop lt rm cc st cx) 14 3 = rm := by simp [fld, asmV]; omega
theorem asmV_11_3 (vop lt rm cc st cx : Nat) (_ : vop < 32) (_ : lt < 16) (_ : rm < 8) (_ : cc < 8) (_ : st < 16) (_ : cx < 64) : fld (asmV vop lt rm cc st cx) 11 3 = cc := by simp [fld, asmV]; omega
theorem asmV_7_4 (vop lt rm cc st cx : Nat) (_ : vop < 32) (_ : lt < 16) (_ : rm < 8) (_ : cc < 8) (_ : st < 16) (_ : cx < 64) : fld (asmV vop lt rm cc st cx) 7 4 = st := by simp [fld, asmV]; omega
theorem asmV_0_6 (vop lt rm cc st cx : Nat) (_ : vop < 32) (_ : lt < 16) (_ : rm < 8) (_ : cc < 8) (_ : st < 16) (_ : cx < 64) : fld (asmV vop lt rm cc st cx) 0 6 = cx := by simp [fld, asmV]; omega

theorem asmW_26_6 (seq pred succ : Nat) (_ : seq < 256) (_ : pred < 256) (_ : succ < 256) : fld (asmW seq pred succ) 26 6 = 63 := by simp [fld, asmW]; omega
theorem asmW_16_8 (seq pred succ : Nat) (_ : seq < 256) (_ : pred < 256) (_ : succ < 256) : fld (asmW seq pred succ) 16 8 = seq := by simp [fld, asmW]; omega
theorem asmW_8_8 (seq pred succ : Nat) (_ : seq < 256) (_ : pred < 256) (_ : succ < 256) : fld (asmW seq pred succ) 8 8 = pred := by simp [fld, asmW]; omega
theorem asmW_0_8 (seq pred succ : Nat) (_ : seq < 256) (_ : pred < 256) (_ : succ < 256) : fld (asmW seq pred succ) 0 8 = succ := by simp [fld, asmW]; omega

theorem asmS_26_6 (flags agid sfld : Nat) (_ : flags < 1024) (_ : agid < 512) (_ : sfld < 128) : fld (asmS flags agid sfld) 26 6 = 63 := by simp [fld, asmS]; omega
theorem asmS_25_1 (flags agid sfld : Nat) (_ : flags < 1024) (_ : agid < 512) (_ : sfld < 128) : fld (asmS flags agid sfld) 25 1 = flags / 512 := by simp [fld, asmS]; omega
theorem asmS_21_4 (flags agid sfld : Nat) (_ : flags < 1024) (_ : agid < 512) (_ : sfld < 128) : fld (asmS flags agid sfld) 21 4 = flags / 32 % 16 := by simp [fld, asmS]; omega
theorem asmS_20_1 (flags agid sfld : Nat) (_ : flags < 1024) (_ : agid < 512) (_ : sfld < 128) : fld (asmS flags agid sfld) 20 1 = flags / 16 % 2 := by simp [fld, asmS]; omega
theorem asmS_16_4 (flags agid sfld : Nat) (_ : flags < 1024) (_ : agid < 512) (_ : sfld < 128) : fld (asmS flags agid sfld) 16 4 = flags % 16 := by simp [fld, asmS]; omega
theorem asmS_7_9 (flags agid sfld : Nat) (_ : flags < 1024) (_ : agid < 512) (_ : sfld < 128) : fld (asmS flags agid sfld) 7 9 = agid := by simp [fld, asmS]; omega
theorem asmS_6_1 (flags agid sfld : Nat) (_ : flags < 1024) (_ : agid < 512) (_ : sfld < 128) : fld (asmS flags agid sfld) 6 1 = sfld / 64 := by simp [fld, asmS]; omega
theorem asmS_5_1 (flags agid sfld : Nat) (_ : flags < 1024) (_ : agid < 512) (_ : sfld < 128) : fld (asmS flags agid sfld) 5 1 = sfld / 32 % 2 := by simp [fld, asmS]; omega
theorem asmS_0_5 (flags agid sfld : Nat) (_ : flags < 1024) (_ : agid < 512) (_ : sfld < 128) : fld (asmS flags agid sfld) 0 5 = sfld % 32 := by simp [fld, asmS]; omega
theorem asmS_0_2 (flags agid sfld : Nat) (_ : flags < 1024) (_ : agid < 512) (_ : sfld < 128) : fld (asmS flags agid sfld) 0 2 = sfld % 4 := by simp [fld, asmS]; omega

/-- A decoded instruction that encodes to the word, or to both words, is what decode gives (R106). -/
theorem decode_of_loose {w0 w1 : IWord} {i : Instr} (h : decodeLoose w0 w1 = .ok i) (he : encode i = [w0] ∨ encode i = [w0, w1]) : decode w0 w1 = .ok i := by
  simp only [decode, h, if_pos he]

/-- Field T of a well-formed instruction's first word is a trigger entry (R108). -/
theorem trigger_of_wellFormed {i : Instr} {w : IWord} {l : List IWord} (he : encode i = w :: l) (h : wellFormed i = true) : fld w 26 6 ≠ 63 := by
  simp only [wellFormed, triggerOk, he, Bool.and_eq_true, bne_iff_ne] at h
  exact h.1.1.2

end Sys2Proof.Laws
end

