-- ==== Sys2Proof/Laws/Map.lean ====
section
/-! SUPPORT. Laws of the sparse tables and of the byte memory: reading after writing, and the canonical form. -/

namespace Sys2Proof.Machine

theorem mfind_mset {α : Type} (m : SMap α) (i j : Nat) (x : α) : mfind (mset m i x) j = if j = i then some x else mfind m j := by
  induction m with
  | nil => simp [mset, mfind]
  | cons p t ih =>
    obtain ⟨k, v⟩ := p
    by_cases h : i < k
    · simp [mset, mfind, h]
    · by_cases e : i = k
      · subst e; by_cases j = i <;> simp_all [mset, mfind]
      · by_cases h' : j = k
        · subst h'; simp [mset, mfind, h, e, Ne.symm e]
        · simp [mset, mfind, h, e, h', ih]

@[simp] theorem mfind_mset_same {α : Type} (m : SMap α) (i : Nat) (x : α) : mfind (mset m i x) i = some x := by simp [mfind_mset]

theorem mget_mset {α : Type} (d : α) (m : SMap α) (i j : Nat) (x : α) : mget d (mset m i x) j = if j = i then x else mget d m j := by
  by_cases h : j = i <;> simp [mget, mfind_mset, h]

@[simp] theorem mget_mset_same {α : Type} (d : α) (m : SMap α) (i : Nat) (x : α) : mget d (mset m i x) i = x := by simp [mget_mset]

theorem mget_mset_other {α : Type} (d : α) (m : SMap α) {i j : Nat} (x : α) (h : j ≠ i) : mget d (mset m i x) j = mget d m j := by simp [mget_mset, h]

theorem mget_mmod {α : Type} (d : α) (m : SMap α) (i j : Nat) (f : α → α) : mget d (mmod d m i f) j = if j = i then f (mget d m i) else mget d m j := by
  simp [mmod, mget_mset]

theorem mfind_merase {α : Type} (m : SMap α) (i j : Nat) : mfind (merase m i) j = if j = i then none else mfind m j := by
  induction m with
  | nil => simp [merase, mfind]
  | cons p t ih =>
    obtain ⟨k, v⟩ := p
    by_cases h : i = k
    · subst h; by_cases h' : j = i <;> simp_all [merase, mfind]
    · by_cases h' : j = k
      · subst h'; simp [merase, mfind, h, Ne.symm h]
      · simp [merase, mfind, h, h', ih]

/-- A memory above a bound is one above any lower bound. -/
theorem memoryAbove_weaken {m : Memory} {lo hi : Nat} (h : lo ≤ hi) (w : memoryAbove (some hi) m = true) : memoryAbove (some lo) m = true := by
  cases m with
  | nil => rfl
  | cons p t => simp [memoryAbove] at w ⊢; exact ⟨⟨by omega, w.1.2⟩, w.2⟩

theorem memoryAbove_none {m : Memory} {lo : Nat} (w : memoryAbove (some lo) m = true) : memoryAbove none m = true := by
  cases m with
  | nil => rfl
  | cons p t => simp [memoryAbove] at w ⊢; exact ⟨w.1.2, w.2⟩

/-- An address at or below the bound of a memory is not listed. -/
theorem byteAt_below {m : Memory} {lo a : Nat} (h : a ≤ lo) (w : memoryAbove (some lo) m = true) : byteAt m a = unlistedByte := by
  induction m generalizing lo with
  | nil => rfl
  | cons p t ih =>
    obtain ⟨k, v⟩ := p
    simp [memoryAbove] at w
    have : a ≠ k := by omega
    simp only [byteAt, this, if_false]
    exact ih (lo := k) (by omega) w.2

theorem setByte_above {m : Memory} {lo a : Nat} {b : Byte} (h : lo < a) (w : memoryAbove (some lo) m = true) : memoryAbove (some lo) (setByte m a b) = true := by
  induction m generalizing lo with
  | nil => by_cases hb : b = unlistedByte <;> simp [setByte, memoryAbove, hb, h]
  | cons p t ih =>
    obtain ⟨k, v⟩ := p
    simp [memoryAbove] at w
    by_cases h1 : a < k
    · by_cases hb : b = unlistedByte
      · simp [setByte, h1, hb, memoryAbove, w]
      · simp [setByte, h1, hb, memoryAbove, w, h]
    · by_cases h2 : a = k
      · subst h2
        by_cases hb : b = unlistedByte
        · simp [setByte, hb, memoryAbove_weaken (Nat.le_of_lt h) w.2]
        · simp [setByte, hb, memoryAbove, h, w.2]
      · have h3 : k < a := by omega
        simp only [setByte, h1, h2, if_false, memoryAbove, w, Bool.and_eq_true, decide_eq_true_eq]
        exact ⟨⟨trivial, by simpa using w.1.2⟩, ih h3 w.2⟩

/-- Writing a byte keeps the canonical form. -/
theorem setByte_wf {m : Memory} (a : Nat) (b : Byte) (w : Memory.wf m = true) : Memory.wf (setByte m a b) = true := by
  cases m with
  | nil => by_cases hb : b = unlistedByte <;> simp [setByte, Memory.wf, memoryAbove, hb]
  | cons p t =>
    obtain ⟨k, v⟩ := p
    simp [Memory.wf, memoryAbove] at w
    by_cases h1 : a < k
    · by_cases hb : b = unlistedByte <;> simp [setByte, Memory.wf, h1, hb, memoryAbove, w]
    · by_cases h2 : a = k
      · subst h2
        by_cases hb : b = unlistedByte
        · simp [setByte, hb, Memory.wf, memoryAbove_none w.2]
        · simp [setByte, hb, Memory.wf, memoryAbove, w.2]
      · have h3 : k < a := by omega
        simp only [setByte, h1, h2, if_false, Memory.wf, memoryAbove, Bool.and_eq_true]
        exact ⟨by simpa using w.1, setByte_above h3 w.2⟩

/-- A byte reads as it was written last. -/
theorem byteAt_setByte_above {m : Memory} {lo a : Nat} (b : Byte) (c : Nat) (w : memoryAbove (some lo) m = true) :
    byteAt (setByte m a b) c = if c = a then b else byteAt m c := by
  induction m generalizing lo with
  | nil =>
    by_cases hb : b = unlistedByte <;> by_cases hc : c = a <;> simp [setByte, byteAt, hb, hc]
  | cons p t ih =>
    obtain ⟨k, v⟩ := p
    simp [memoryAbove] at w
    by_cases h1 : a < k
    · by_cases hb : b = unlistedByte
      · by_cases hc : c = a
        · subst hc
          have : c ≠ k := by omega
          simp [setByte, h1, hb, byteAt, this, byteAt_below (Nat.le_of_lt h1) w.2]
        · simp [setByte, h1, hb, hc]
      · simp [setByte, h1, hb, byteAt]
    · by_cases h2 : a = k
      · subst h2
        by_cases hb : b = unlistedByte
        · by_cases hc : c = a
          · subst hc; simp [setByte, hb, byteAt_below (Nat.le_refl c) w.2]
          · simp [setByte, hb, byteAt, hc]
        · by_cases hc : c = a <;> simp [setByte, hb, byteAt, hc]
      · by_cases hc : c = k
        · subst hc
          have : c ≠ a := by omega
          simp [setByte, h1, h2, byteAt, this]
        · simp [setByte, h1, h2, byteAt, hc, ih w.2]

theorem byteAt_setByte {m : Memory} (w : Memory.wf m = true) (a : Nat) (b : Byte) (c : Nat) :
    byteAt (setByte m a b) c = if c = a then b else byteAt m c := by
  cases m with
  | nil => by_cases hb : b = unlistedByte <;> by_cases hc : c = a <;> simp [setByte, byteAt, hb, hc]
  | cons p t =>
    obtain ⟨k, v⟩ := p
    by_cases h : k = 0
    · simp [Memory.wf, memoryAbove] at w
      by_cases h1 : a < k
      · omega
      · by_cases h2 : a = k
        · subst h2
          by_cases hb : b = unlistedByte
          · by_cases hc : c = a
            · subst hc; simp [setByte, hb, byteAt_below (Nat.le_refl c) w.2]
            · simp [setByte, hb, byteAt, hc]
          · by_cases hc : c = a <;> simp [setByte, hb, byteAt, hc]
        · by_cases hc : c = k
          · subst hc
            have : c ≠ a := by omega
            simp [setByte, h1, h2, byteAt, this]
          · simp [setByte, h1, h2, byteAt, hc, byteAt_setByte_above b c w.2]
    · apply byteAt_setByte_above (lo := 0)
      simp [Memory.wf, memoryAbove] at w ⊢
      exact ⟨⟨by omega, w.1⟩, w.2⟩

theorem writeBytes_wf {m : Memory} (a v n : Nat) (w : Memory.wf m = true) : Memory.wf (writeBytes m a v n) = true := by
  induction n generalizing m a v with
  | zero => exact w
  | succ n ih => exact ih (a + 1) (v / 256) (setByte_wf a _ w)

theorem setWord_wf {m : Memory} (a : Nat) (v : Word) (w : Memory.wf m = true) : Memory.wf (setWord m a v) = true := writeBytes_wf a v.toNat 8 w

theorem setBytes_wf {m : Memory} (a : Nat) (bs : List Byte) (w : Memory.wf m = true) : Memory.wf (setBytes m a bs) = true := by
  induction bs generalizing m a with
  | nil => exact w
  | cons b bs ih => exact ih (a + 1) (setByte_wf a b w)

theorem filter_above {m : Memory} {lo : Nat} (p : Host.Cell → Bool) (w : memoryAbove (some lo) m = true) : memoryAbove (some lo) (m.filter p) = true := by
  induction m generalizing lo with
  | nil => rfl
  | cons c t ih =>
    obtain ⟨k, v⟩ := c
    simp [memoryAbove] at w
    by_cases h : p (k, v) = true
    · simp [List.filter_cons_of_pos h, memoryAbove, w, ih w.2]
    · simp [List.filter_cons_of_neg h]
      exact ih (memoryAbove_weaken (Nat.le_of_lt w.1.1) w.2)

/-- Removing cells keeps the canonical form. -/
theorem filter_wf {m : Memory} (p : Host.Cell → Bool) (w : Memory.wf m = true) : Memory.wf (m.filter p) = true := by
  cases m with
  | nil => rfl
  | cons c t =>
    obtain ⟨k, v⟩ := c
    simp [Memory.wf, memoryAbove] at w
    by_cases h : p (k, v) = true
    · simp [List.filter_cons_of_pos h, Memory.wf, memoryAbove, w, filter_above p w.2]
    · simp [List.filter_cons_of_neg h]
      exact memoryAbove_none (filter_above p w.2)

theorem clearBytes_wf {m : Memory} (a n : Nat) (w : Memory.wf m = true) : Memory.wf (clearBytes m a n) = true := filter_wf _ w

/-- Writing n bytes leaves every other address as it was. -/
theorem byteAt_writeBytes_other {m : Memory} (w : Memory.wf m = true) (a v n c : Nat) (h : c < a ∨ a + n ≤ c) : byteAt (writeBytes m a v n) c = byteAt m c := by
  induction n generalizing m a v with
  | zero => rfl
  | succ n ih =>
    have hc : c ≠ a := by omega
    rw [writeBytes, ih (setByte_wf a _ w) (a + 1) (v / 256) (by omega), byteAt_setByte w]
    simp [hc]

/-- n bytes read as they were written last. -/
theorem readBytes_writeBytes {m : Memory} (w : Memory.wf m = true) (a v n : Nat) : readBytes (writeBytes m a v n) a n = v % 256 ^ n := by
  induction n generalizing m a v with
  | zero => simp [readBytes, Nat.mod_one]
  | succ n ih =>
    rw [writeBytes, readBytes, ih (setByte_wf a _ w), byteAt_writeBytes_other (setByte_wf a _ w) _ _ _ _ (by omega), byteAt_setByte w]
    have e : (256 : Nat) ^ (n + 1) = 256 * 256 ^ n := by rw [Nat.pow_succ, Nat.mul_comm]
    rw [e, Nat.mod_mul]
    simp

/-- A word reads as it was written last. -/
theorem wordAt_setWord {m : Memory} (w : Memory.wf m = true) (a : Nat) (v : Word) : wordAt (setWord m a v) a = v := by
  rw [wordAt, setWord, readBytes_writeBytes w]
  apply BitVec.eq_of_toNat_eq
  simp [Nat.mod_eq_of_lt v.isLt]

/-- The bytes that a range is cleared of read as unlisted ones, the others as before. -/
theorem byteAt_clearBytes (m : Memory) (a n c : Nat) : byteAt (clearBytes m a n) c = if a ≤ c ∧ c < a + n then unlistedByte else byteAt m c := by
  induction m with
  | nil => simp [clearBytes, byteAt]
  | cons p t ih =>
    obtain ⟨k, v⟩ := p
    unfold clearBytes at ih ⊢
    by_cases h : (decide (k < a) || decide (a + n ≤ k)) = true
    · rw [List.filter_cons_of_pos (by simpa using h)]
      simp at h
      by_cases hc : c = k
      · subst hc
        have : ¬(a ≤ c ∧ c < a + n) := by omega
        simp [byteAt, this]
      · simp [byteAt, hc, ih]
    · rw [List.filter_cons_of_neg (by simpa using h)]
      simp at h
      by_cases hc : c = k
      · subst hc
        rw [ih]
        simp [h]
      · simp [byteAt, hc, ih]

end Sys2Proof.Machine
end

