-- ==== Sys2Proof/Laws/PerInstr.lean ====
section
/-! SUPPORT. What holds of every instruction as syntax, one lemma for each constructor. -/

namespace Sys2Proof.Laws

-- Proofs one after another: many at once take more memory than a check has.
set_option Elab.async false

open Sys2Proof

namespace RoundTrip

/-- Decoding the words of a well-formed instruction gives it back, whatever follows a one-word instruction (R105 to R114). A row that is a move or an event is no word and is not well-formed. -/
def Statement (i : Instr) : Prop :=
  wellFormed i = true →
    (∃ w, encode i = [w] ∧ ∀ v, decode w v = .ok i) ∨ (∃ w v, encode i = [w, v] ∧ decode w v = .ok i)

theorem loose_scalar {w v : IWord} {op : Nat} (ht : fld w 26 6 ≠ 63) (h : fld w 20 6 = op) (hl : isLongOp op = false) (h2 : op < 16) : decodeLoose w v = looseScalar w := by
  subst h
  simp [decodeLoose, ht, hl, h2]

theorem loose_lane {w v : IWord} {op : Nat} (ht : fld w 26 6 ≠ 63) (h : fld w 20 6 = op) (hl : isLongOp op = false) (h1 : 16 ≤ op) (h2 : op < 32) : decodeLoose w v = looseLane w := by
  subst h
  simp [decodeLoose, ht, hl, h2, Nat.not_lt.mpr h1]

theorem loose_rest {w v : IWord} {op : Nat} (ht : fld w 26 6 ≠ 63) (h : fld w 20 6 = op) (hl : isLongOp op = false) (h1 : 32 ≤ op) : decodeLoose w v = looseRest w := by
  have h2 : ¬ fld w 20 6 < 16 := by omega
  have h3 : ¬ fld w 20 6 < 32 := by omega
  subst h
  simp [decodeLoose, ht, hl, h2, h3]

theorem loose_long {w v : IWord} {i : Instr} {op : Nat} (ht : fld w 26 6 ≠ 63) (h : fld w 20 6 = op) (hl : isLongOp op = true) (hv : fld v 26 6 = 63) (hi : looseLong w v = .ok i) : decodeLoose w v = .ok i := by
  subst h
  simp [decodeLoose, ht, hl, hv, hi]

/-- A row with no words. -/
theorem of_no_word {i : Instr} (he : encode i = []) : Statement i := by
  intro h
  simp [wellFormed, isWord, he] at h

/-- A row of one word. -/
theorem of_word {i : Instr} {w : IWord} (he : encode i = [w]) (hd : wellFormed i = true → fld w 26 6 ≠ 63 → ∀ v, decodeLoose w v = .ok i) : Statement i :=
  fun h => .inl ⟨w, he, fun v => decode_of_loose (hd h (trigger_of_wellFormed he h) v) (.inl he)⟩

/-- A row of two words. -/
theorem of_words {i : Instr} {w v : IWord} (he : encode i = [w, v]) (hd : wellFormed i = true → fld w 26 6 ≠ 63 → decodeLoose w v = .ok i) : Statement i :=
  fun h => .inr ⟨w, v, he, decode_of_loose (hd h (trigger_of_wellFormed he h)) (.inr he)⟩

theorem add : ∀ t d a b, Statement (.add t d a b) := by
  intro t d a b
  refine of_word rfl fun _ ht _ => ?_
  rw [loose_scalar ht (asm_20_6 _ _ _ _ _ _ (by omega) (by omega) (by omega) (by omega) (by omega) (by omega)) rfl (by omega), looseScalar]
  simp (disch := omega) only [asm_20_6, asm_0_2, fb_eq_fld, asm_26_6, asm_14_6, asm_8_6, asm_2_6, BitVec.ofNat_toNat, BitVec.setWidth_eq]
theorem sub : ∀ t d a b, Statement (.sub t d a b) := by
  intro t d a b
  refine of_word rfl fun _ ht _ => ?_
  rw [loose_scalar ht (asm_20_6 _ _ _ _ _ _ (by omega) (by omega) (by omega) (by omega) (by omega) (by omega)) rfl (by omega), looseScalar]
  simp (disch := omega) only [asm_20_6, asm_0_2, fb_eq_fld, asm_26_6, asm_14_6, asm_8_6, asm_2_6, BitVec.ofNat_toNat, BitVec.setWidth_eq]
theorem mul : ∀ t d a b, Statement (.mul t d a b) := by
  intro t d a b
  refine of_word rfl fun _ ht _ => ?_
  rw [loose_scalar ht (asm_20_6 _ _ _ _ _ _ (by omega) (by omega) (by omega) (by omega) (by omega) (by omega)) rfl (by omega), looseScalar]
  simp (disch := omega) only [asm_20_6, asm_0_2, fb_eq_fld, asm_26_6, asm_14_6, asm_8_6, asm_2_6, BitVec.ofNat_toNat, BitVec.setWidth_eq]
theorem mulh : ∀ t d a b, Statement (.mulh t d a b) := by
  intro t d a b
  refine of_word rfl fun _ ht _ => ?_
  rw [loose_scalar ht (asm_20_6 _ _ _ _ _ _ (by omega) (by omega) (by omega) (by omega) (by omega) (by omega)) rfl (by omega), looseScalar]
  simp (disch := omega) only [asm_20_6, asm_0_2, fb_eq_fld, asm_26_6, asm_14_6, asm_8_6, asm_2_6, BitVec.ofNat_toNat, BitVec.setWidth_eq]
theorem mulhu : ∀ t d a b, Statement (.mulhu t d a b) := by
  intro t d a b
  refine of_word rfl fun _ ht _ => ?_
  rw [loose_scalar ht (asm_20_6 _ _ _ _ _ _ (by omega) (by omega) (by omega) (by omega) (by omega) (by omega)) rfl (by omega), looseScalar]
  simp (disch := omega) only [asm_20_6, asm_0_2, fb_eq_fld, asm_26_6, asm_14_6, asm_8_6, asm_2_6, BitVec.ofNat_toNat, BitVec.setWidth_eq]
theorem div : ∀ t d a b, Statement (.div t d a b) := by
  intro t d a b
  refine of_word rfl fun _ ht _ => ?_
  rw [loose_scalar ht (asm_20_6 _ _ _ _ _ _ (by omega) (by omega) (by omega) (by omega) (by omega) (by omega)) rfl (by omega), looseScalar]
  simp (disch := omega) only [asm_20_6, asm_0_2, fb_eq_fld, asm_26_6, asm_14_6, asm_8_6, asm_2_6, BitVec.ofNat_toNat, BitVec.setWidth_eq]
theorem rem : ∀ t d a b, Statement (.rem t d a b) := by
  intro t d a b
  refine of_word rfl fun _ ht _ => ?_
  rw [loose_scalar ht (asm_20_6 _ _ _ _ _ _ (by omega) (by omega) (by omega) (by omega) (by omega) (by omega)) rfl (by omega), looseScalar]
  simp (disch := omega) only [asm_20_6, asm_0_2, fb_eq_fld, asm_26_6, asm_14_6, asm_8_6, asm_2_6, BitVec.ofNat_toNat, BitVec.setWidth_eq]
theorem rotl : ∀ t d a b, Statement (.rotl t d a b) := by
  intro t d a b
  refine of_word rfl fun _ ht _ => ?_
  rw [loose_scalar ht (asm_20_6 _ _ _ _ _ _ (by omega) (by omega) (by omega) (by omega) (by omega) (by omega)) rfl (by omega), looseScalar]
  simp (disch := omega) only [asm_20_6, asm_0_2, fb_eq_fld, asm_26_6, asm_14_6, asm_8_6, asm_2_6, BitVec.ofNat_toNat, BitVec.setWidth_eq]
theorem and : ∀ t d a b, Statement (.and t d a b) := by
  intro t d a b
  refine of_word rfl fun _ ht _ => ?_
  rw [loose_scalar ht (asm_20_6 _ _ _ _ _ _ (by omega) (by omega) (by omega) (by omega) (by omega) (by omega)) rfl (by omega), looseScalar]
  simp (disch := omega) only [asm_20_6, asm_0_2, fb_eq_fld, asm_26_6, asm_14_6, asm_8_6, asm_2_6, BitVec.ofNat_toNat, BitVec.setWidth_eq]
theorem or : ∀ t d a b, Statement (.or t d a b) := by
  intro t d a b
  refine of_word rfl fun _ ht _ => ?_
  rw [loose_scalar ht (asm_20_6 _ _ _ _ _ _ (by omega) (by omega) (by omega) (by omega) (by omega) (by omega)) rfl (by omega), looseScalar]
  simp (disch := omega) only [asm_20_6, asm_0_2, fb_eq_fld, asm_26_6, asm_14_6, asm_8_6, asm_2_6, BitVec.ofNat_toNat, BitVec.setWidth_eq]
theorem xor : ∀ t d a b, Statement (.xor t d a b) := by
  intro t d a b
  refine of_word rfl fun _ ht _ => ?_
  rw [loose_scalar ht (asm_20_6 _ _ _ _ _ _ (by omega) (by omega) (by omega) (by omega) (by omega) (by omega)) rfl (by omega), looseScalar]
  simp (disch := omega) only [asm_20_6, asm_0_2, fb_eq_fld, asm_26_6, asm_14_6, asm_8_6, asm_2_6, BitVec.ofNat_toNat, BitVec.setWidth_eq]
theorem andn : ∀ t d a b, Statement (.andn t d a b) := by
  intro t d a b
  refine of_word rfl fun _ ht _ => ?_
  rw [loose_scalar ht (asm_20_6 _ _ _ _ _ _ (by omega) (by omega) (by omega) (by omega) (by omega) (by omega)) rfl (by omega), looseScalar]
  simp (disch := omega) only [asm_20_6, asm_0_2, fb_eq_fld, asm_26_6, asm_14_6, asm_8_6, asm_2_6, BitVec.ofNat_toNat, BitVec.setWidth_eq]
theorem orn : ∀ t d a b, Statement (.orn t d a b) := by
  intro t d a b
  refine of_word rfl fun _ ht _ => ?_
  rw [loose_scalar ht (asm_20_6 _ _ _ _ _ _ (by omega) (by omega) (by omega) (by omega) (by omega) (by omega)) rfl (by omega), looseScalar]
  simp (disch := omega) only [asm_20_6, asm_0_2, fb_eq_fld, asm_26_6, asm_14_6, asm_8_6, asm_2_6, BitVec.ofNat_toNat, BitVec.setWidth_eq]
theorem shl : ∀ t d a b, Statement (.shl t d a b) := by
  intro t d a b
  refine of_word rfl fun _ ht _ => ?_
  rw [loose_scalar ht (asm_20_6 _ _ _ _ _ _ (by omega) (by omega) (by omega) (by omega) (by omega) (by omega)) rfl (by omega), looseScalar]
  simp (disch := omega) only [asm_20_6, asm_0_2, fb_eq_fld, asm_26_6, asm_14_6, asm_8_6, asm_2_6, BitVec.ofNat_toNat, BitVec.setWidth_eq]
theorem shr : ∀ t d a b, Statement (.shr t d a b) := by
  intro t d a b
  refine of_word rfl fun _ ht _ => ?_
  rw [loose_scalar ht (asm_20_6 _ _ _ _ _ _ (by omega) (by omega) (by omega) (by omega) (by omega) (by omega)) rfl (by omega), looseScalar]
  simp (disch := omega) only [asm_20_6, asm_0_2, fb_eq_fld, asm_26_6, asm_14_6, asm_8_6, asm_2_6, BitVec.ofNat_toNat, BitVec.setWidth_eq]
theorem sar : ∀ t d a b, Statement (.sar t d a b) := by
  intro t d a b
  refine of_word rfl fun _ ht _ => ?_
  rw [loose_scalar ht (asm_20_6 _ _ _ _ _ _ (by omega) (by omega) (by omega) (by omega) (by omega) (by omega)) rfl (by omega), looseScalar]
  simp (disch := omega) only [asm_20_6, asm_0_2, fb_eq_fld, asm_26_6, asm_14_6, asm_8_6, asm_2_6, BitVec.ofNat_toNat, BitVec.setWidth_eq]
theorem min : ∀ t d a b, Statement (.min t d a b) := by
  intro t d a b
  refine of_word rfl fun _ ht _ => ?_
  rw [loose_scalar ht (asm_20_6 _ _ _ _ _ _ (by omega) (by omega) (by omega) (by omega) (by omega) (by omega)) rfl (by omega), looseScalar]
  simp (disch := omega) only [asm_20_6, asm_0_2, fb_eq_fld, asm_26_6, asm_14_6, asm_8_6, asm_2_6, BitVec.ofNat_toNat, BitVec.setWidth_eq]
theorem max : ∀ t d a b, Statement (.max t d a b) := by
  intro t d a b
  refine of_word rfl fun _ ht _ => ?_
  rw [loose_scalar ht (asm_20_6 _ _ _ _ _ _ (by omega) (by omega) (by omega) (by omega) (by omega) (by omega)) rfl (by omega), looseScalar]
  simp (disch := omega) only [asm_20_6, asm_0_2, fb_eq_fld, asm_26_6, asm_14_6, asm_8_6, asm_2_6, BitVec.ofNat_toNat, BitVec.setWidth_eq]
theorem minu : ∀ t d a b, Statement (.minu t d a b) := by
  intro t d a b
  refine of_word rfl fun _ ht _ => ?_
  rw [loose_scalar ht (asm_20_6 _ _ _ _ _ _ (by omega) (by omega) (by omega) (by omega) (by omega) (by omega)) rfl (by omega), looseScalar]
  simp (disch := omega) only [asm_20_6, asm_0_2, fb_eq_fld, asm_26_6, asm_14_6, asm_8_6, asm_2_6, BitVec.ofNat_toNat, BitVec.setWidth_eq]
theorem maxu : ∀ t d a b, Statement (.maxu t d a b) := by
  intro t d a b
  refine of_word rfl fun _ ht _ => ?_
  rw [loose_scalar ht (asm_20_6 _ _ _ _ _ _ (by omega) (by omega) (by omega) (by omega) (by omega) (by omega)) rfl (by omega), looseScalar]
  simp (disch := omega) only [asm_20_6, asm_0_2, fb_eq_fld, asm_26_6, asm_14_6, asm_8_6, asm_2_6, BitVec.ofNat_toNat, BitVec.setWidth_eq]
theorem bfx : ∀ t d a b, Statement (.bfx t d a b) := by
  intro t d a b
  refine of_word rfl fun _ ht _ => ?_
  rw [loose_scalar ht (asm_20_6 _ _ _ _ _ _ (by omega) (by omega) (by omega) (by omega) (by omega) (by omega)) rfl (by omega), looseScalar]
  simp (disch := omega) only [asm_20_6, asm_0_2, fb_eq_fld, asm_26_6, asm_14_6, asm_8_6, asm_2_6, BitVec.ofNat_toNat, BitVec.setWidth_eq]
theorem bfi : ∀ t d a b, Statement (.bfi t d a b) := by
  intro t d a b
  refine of_word rfl fun _ ht _ => ?_
  rw [loose_scalar ht (asm_20_6 _ _ _ _ _ _ (by omega) (by omega) (by omega) (by omega) (by omega) (by omega)) rfl (by omega), looseScalar]
  simp (disch := omega) only [asm_20_6, asm_0_2, fb_eq_fld, asm_26_6, asm_14_6, asm_8_6, asm_2_6, BitVec.ofNat_toNat, BitVec.setWidth_eq]
theorem mov : ∀ t d a, Statement (.mov t d a) := by
  intro t d a
  refine of_word rfl fun _ ht _ => ?_
  rw [loose_scalar ht (asm_20_6 _ _ _ _ _ _ (by omega) (by omega) (by omega) (by omega) (by omega) (by omega)) rfl (by omega), looseScalar]
  simp (disch := omega) only [asm_20_6, asm_0_2, asm_2_6, fb_eq_fld, asm_26_6, asm_14_6, asm_8_6, if_true, BitVec.ofNat_toNat, BitVec.setWidth_eq]
theorem abs : ∀ t d a, Statement (.abs t d a) := by
  intro t d a
  refine of_word rfl fun _ ht _ => ?_
  rw [loose_scalar ht (asm_20_6 _ _ _ _ _ _ (by omega) (by omega) (by omega) (by omega) (by omega) (by omega)) rfl (by omega), looseScalar]
  simp (disch := omega) only [asm_20_6, asm_0_2, asm_2_6, fb_eq_fld, asm_26_6, asm_14_6, asm_8_6, if_true, BitVec.ofNat_toNat, BitVec.setWidth_eq]
theorem clz : ∀ t d a, Statement (.clz t d a) := by
  intro t d a
  refine of_word rfl fun _ ht _ => ?_
  rw [loose_scalar ht (asm_20_6 _ _ _ _ _ _ (by omega) (by omega) (by omega) (by omega) (by omega) (by omega)) rfl (by omega), looseScalar]
  simp (disch := omega) only [asm_20_6, asm_0_2, asm_2_6, fb_eq_fld, asm_26_6, asm_14_6, asm_8_6, if_true, BitVec.ofNat_toNat, BitVec.setWidth_eq]
theorem ctz : ∀ t d a, Statement (.ctz t d a) := by
  intro t d a
  refine of_word rfl fun _ ht _ => ?_
  rw [loose_scalar ht (asm_20_6 _ _ _ _ _ _ (by omega) (by omega) (by omega) (by omega) (by omega) (by omega)) rfl (by omega), looseScalar]
  simp (disch := omega) only [asm_20_6, asm_0_2, asm_2_6, fb_eq_fld, asm_26_6, asm_14_6, asm_8_6, if_true, BitVec.ofNat_toNat, BitVec.setWidth_eq]
theorem popc : ∀ t d a, Statement (.popc t d a) := by
  intro t d a
  refine of_word rfl fun _ ht _ => ?_
  rw [loose_scalar ht (asm_20_6 _ _ _ _ _ _ (by omega) (by omega) (by omega) (by omega) (by omega) (by omega)) rfl (by omega), looseScalar]
  simp (disch := omega) only [asm_20_6, asm_0_2, asm_2_6, fb_eq_fld, asm_26_6, asm_14_6, asm_8_6, if_true, BitVec.ofNat_toNat, BitVec.setWidth_eq]
theorem selP0P3 : ∀ t d a b k, Statement (.selP0P3 t d a b k) := by
  intro t d a b k
  refine of_word rfl fun _ ht _ => ?_
  rw [loose_scalar ht (asm_20_6 _ _ _ _ _ _ (by omega) (by omega) (by omega) (by omega) (by omega) (by omega)) rfl (by omega), looseScalar]
  simp (disch := omega) only [asm_20_6, fb_eq_fld, asm_26_6, asm_14_6, asm_8_6, asm_2_6, asm_0_2, BitVec.ofNat_toNat, BitVec.setWidth_eq]
theorem selP4P7 : ∀ t d a b k, Statement (.selP4P7 t d a b k) := by
  intro t d a b k
  refine of_word rfl fun _ ht _ => ?_
  rw [loose_scalar ht (asm_20_6 _ _ _ _ _ _ (by omega) (by omega) (by omega) (by omega) (by omega) (by omega)) rfl (by omega), looseScalar]
  simp (disch := omega) only [asm_20_6, fb_eq_fld, asm_26_6, asm_14_6, asm_8_6, asm_2_6, asm_0_2, BitVec.ofNat_toNat, BitVec.setWidth_eq]
theorem cmp : ∀ t c k a b, Statement (.cmp t c k a b) := by
  intro t c k a b
  refine of_word rfl fun h ht _ => ?_
  rw [loose_scalar ht (asm_20_6 _ _ _ _ _ _ (by omega) (by omega) (by omega) (by omega) (by omega) (by omega)) rfl (by omega), looseScalar]
  have e0 : (c.toNat * 8 + k.toNat) / 8 = c.toNat := by omega
  have e1 : (c.toNat * 8 + k.toNat) % 8 = k.toNat := by omega
  have hc : c.toNat < 6 := by
    simp only [wellFormed, conditionOk, Bool.and_eq_true, decide_eq_true_eq] at h
    exact h.1.2
  simp (disch := omega) only [asm_20_6, asm_0_2, asm_17_3, fb_eq_fld, asm_26_6, asm_17_3, asm_14_3, asm_8_6, asm_2_6, e0, e1, hc, if_true, BitVec.ofNat_toNat, BitVec.setWidth_eq]
theorem pand : ∀ t k i j, Statement (.pand t k i j) := by
  intro t k i j
  refine of_word rfl fun _ ht _ => ?_
  rw [loose_scalar ht (asm_20_6 _ _ _ _ _ _ (by omega) (by omega) (by omega) (by omega) (by omega) (by omega)) rfl (by omega), looseScalar]
  have e0 : k.toNat / 8 = 0 := by omega
  have e1 : k.toNat % 8 = k.toNat := by omega
  have e2 : i.toNat % 8 = i.toNat := by omega
  have e3 : j.toNat % 8 = j.toNat := by omega
  simp (disch := omega) only [asm_20_6, asm_0_2, asm_17_3, fb_eq_fld, asm_26_6, asm_14_3, asm_8_3, asm_2_3, e0, e1, e2, e3, BitVec.ofNat_toNat, BitVec.setWidth_eq]
theorem por : ∀ t k i j, Statement (.por t k i j) := by
  intro t k i j
  refine of_word rfl fun _ ht _ => ?_
  rw [loose_scalar ht (asm_20_6 _ _ _ _ _ _ (by omega) (by omega) (by omega) (by omega) (by omega) (by omega)) rfl (by omega), looseScalar]
  have e0 : (k.toNat + 8) / 8 = 1 := by omega
  have e1 : (k.toNat + 8) % 8 = k.toNat := by omega
  have e2 : i.toNat % 8 = i.toNat := by omega
  have e3 : j.toNat % 8 = j.toNat := by omega
  simp (disch := omega) only [asm_20_6, asm_0_2, asm_17_3, fb_eq_fld, asm_26_6, asm_14_3, asm_8_3, asm_2_3, e0, e1, e2, e3, BitVec.ofNat_toNat, BitVec.setWidth_eq]
theorem pxor : ∀ t k i j, Statement (.pxor t k i j) := by
  intro t k i j
  refine of_word rfl fun _ ht _ => ?_
  rw [loose_scalar ht (asm_20_6 _ _ _ _ _ _ (by omega) (by omega) (by omega) (by omega) (by omega) (by omega)) rfl (by omega), looseScalar]
  have e0 : (k.toNat + 16) / 8 = 2 := by omega
  have e1 : (k.toNat + 16) % 8 = k.toNat := by omega
  have e2 : i.toNat % 8 = i.toNat := by omega
  have e3 : j.toNat % 8 = j.toNat := by omega
  simp (disch := omega) only [asm_20_6, asm_0_2, asm_17_3, fb_eq_fld, asm_26_6, asm_14_3, asm_8_3, asm_2_3, e0, e1, e2, e3, BitVec.ofNat_toNat, BitVec.setWidth_eq]
theorem pnot : ∀ t k i, Statement (.pnot t k i) := by
  intro t k i
  refine of_word rfl fun _ ht _ => ?_
  rw [loose_scalar ht (asm_20_6 _ _ _ _ _ _ (by omega) (by omega) (by omega) (by omega) (by omega) (by omega)) rfl (by omega), looseScalar]
  have e0 : (k.toNat + 24) / 8 = 3 := by omega
  have e1 : (k.toNat + 24) % 8 = k.toNat := by omega
  have e2 : i.toNat % 8 = i.toNat := by omega
  simp (disch := omega) only [asm_20_6, asm_0_2, asm_17_3, fb_eq_fld, asm_26_6, asm_14_3, asm_8_3, e0, e1, e2, BitVec.ofNat_toNat, BitVec.setWidth_eq]
theorem pset : ∀ t k v, Statement (.pset t k v) := by
  intro t k v
  refine of_word rfl fun _ ht _ => ?_
  rw [loose_scalar ht (asm_20_6 _ _ _ _ _ _ (by omega) (by omega) (by omega) (by omega) (by omega) (by omega)) rfl (by omega), looseScalar]
  have e0 : (k.toNat + 32) / 8 = 4 := by omega
  have e1 : (k.toNat + 32) % 8 = k.toNat := by omega
  have e2 : v.toNat % 2 = v.toNat := by omega
  simp (disch := omega) only [asm_20_6, asm_0_2, asm_17_3, fb_eq_fld, asm_26_6, asm_14_3, asm_2_1, e0, e1, e2, BitVec.ofNat_toNat, BitVec.setWidth_eq]
theorem pmov : ∀ t k a, Statement (.pmov t k a) := by
  intro t k a
  refine of_word rfl fun _ ht _ => ?_
  rw [loose_scalar ht (asm_20_6 _ _ _ _ _ _ (by omega) (by omega) (by omega) (by omega) (by omega) (by omega)) rfl (by omega), looseScalar]
  have e0 : (k.toNat + 40) / 8 = 5 := by omega
  have e1 : (k.toNat + 40) % 8 = k.toNat := by omega
  simp (disch := omega) only [asm_20_6, asm_0_2, asm_17_3, fb_eq_fld, asm_26_6, asm_14_3, asm_8_6, e0, e1, BitVec.ofNat_toNat, BitVec.setWidth_eq]
theorem cmpi : ∀ t c k a i, Statement (.cmpi t c k a i) := by
  intro t c k a i
  refine of_word rfl fun h ht _ => ?_
  rw [loose_scalar ht (asmRRI_20_6 _ _ _ _ _ (by omega) (by omega) (by omega) (by omega) (by omega)) rfl (by omega), looseScalar]
  have e0 : (c.toNat * 8 + k.toNat) / 8 = c.toNat := by omega
  have e1 : (c.toNat * 8 + k.toNat) % 8 = k.toNat := by omega
  have hc : c.toNat < 6 := by
    simp only [wellFormed, conditionOk, Bool.and_eq_true, decide_eq_true_eq] at h
    exact h.1.2
  simp (disch := omega) only [asmRRI_20_6, asmRRI_17_3, fb_eq_fld, asmRRI_26_6, asmRRI_17_3, asmRRI_14_3, asmRRI_8_6, asmRRI_0_8, e0, e1, hc, if_true, BitVec.ofNat_toNat, BitVec.setWidth_eq]
theorem addi : ∀ t d a i, Statement (.addi t d a i) := by
  intro t d a i
  refine of_word rfl fun _ ht _ => ?_
  rw [loose_scalar ht (asmRRI_20_6 _ _ _ _ _ (by omega) (by omega) (by omega) (by omega) (by omega)) rfl (by omega), looseScalar]
  simp (disch := omega) only [asmRRI_20_6, fb_eq_fld, asmRRI_26_6, asmRRI_14_6, asmRRI_8_6, asmRRI_0_8, BitVec.ofNat_toNat, BitVec.setWidth_eq]
theorem shli : ∀ t d a n, Statement (.shli t d a n) := by
  intro t d a n
  refine of_word rfl fun _ ht _ => ?_
  rw [loose_scalar ht (asmRRI_20_6 _ _ _ _ _ (by omega) (by omega) (by omega) (by omega) (by omega)) rfl (by omega), looseScalar]
  have e0 : n.toNat / 64 = 0 := by omega
  have e1 : n.toNat % 64 = n.toNat := by omega
  simp (disch := omega) only [asmRRI_20_6, asmRRI_6_2, fb_eq_fld, asmRRI_26_6, asmRRI_14_6, asmRRI_8_6, asmRRI_0_6, e0, e1, BitVec.ofNat_toNat, BitVec.setWidth_eq]
theorem shri : ∀ t d a n, Statement (.shri t d a n) := by
  intro t d a n
  refine of_word rfl fun _ ht _ => ?_
  rw [loose_scalar ht (asmRRI_20_6 _ _ _ _ _ (by omega) (by omega) (by omega) (by omega) (by omega)) rfl (by omega), looseScalar]
  have e0 : (n.toNat + 64) / 64 = 1 := by omega
  have e1 : (n.toNat + 64) % 64 = n.toNat := by omega
  simp (disch := omega) only [asmRRI_20_6, asmRRI_6_2, fb_eq_fld, asmRRI_26_6, asmRRI_14_6, asmRRI_8_6, asmRRI_0_6, e0, e1, BitVec.ofNat_toNat, BitVec.setWidth_eq]
theorem sari : ∀ t d a n, Statement (.sari t d a n) := by
  intro t d a n
  refine of_word rfl fun _ ht _ => ?_
  rw [loose_scalar ht (asmRRI_20_6 _ _ _ _ _ (by omega) (by omega) (by omega) (by omega) (by omega)) rfl (by omega), looseScalar]
  have e0 : (n.toNat + 128) / 64 = 2 := by omega
  have e1 : (n.toNat + 128) % 64 = n.toNat := by omega
  simp (disch := omega) only [asmRRI_20_6, asmRRI_6_2, fb_eq_fld, asmRRI_26_6, asmRRI_14_6, asmRRI_8_6, asmRRI_0_6, e0, e1, BitVec.ofNat_toNat, BitVec.setWidth_eq]
theorem extend : ∀ t d a n, Statement (.extend t d a n) := by
  intro t d a n
  refine of_word rfl fun _ ht _ => ?_
  rw [loose_scalar ht (asmRRI_20_6 _ _ _ _ _ (by omega) (by omega) (by omega) (by omega) (by omega)) rfl (by omega), looseScalar]
  have e0 : (n.toNat + 192) / 64 = 3 := by omega
  have e1 : (n.toNat + 192) % 64 = n.toNat := by omega
  simp (disch := omega) only [asmRRI_20_6, asmRRI_6_2, fb_eq_fld, asmRRI_26_6, asmRRI_14_6, asmRRI_8_6, asmRRI_0_6, e0, e1, BitVec.ofNat_toNat, BitVec.setWidth_eq]
theorem movi : ∀ t d i, Statement (.movi t d i) := by
  intro t d i
  refine of_word rfl fun _ ht _ => ?_
  rw [loose_scalar ht (asmRI_20_6 _ _ _ _ (by omega) (by omega) (by omega) (by omega)) rfl (by omega), looseScalar]
  simp (disch := omega) only [asmRI_20_6, fb_eq_fld, asmRI_26_6, asmRI_14_6, asmRI_0_14, BitVec.ofNat_toNat, BitVec.setWidth_eq]
theorem movh : ∀ t d i, Statement (.movh t d i) := by
  intro t d i
  refine of_word rfl fun _ ht _ => ?_
  rw [loose_scalar ht (asmRI_20_6 _ _ _ _ (by omega) (by omega) (by omega) (by omega)) rfl (by omega), looseScalar]
  simp (disch := omega) only [asmRI_20_6, fb_eq_fld, asmRI_26_6, asmRI_14_6, asmRI_0_14, BitVec.ofNat_toNat, BitVec.setWidth_eq]
theorem vaddF32 : ∀ t d a b, Statement (.vaddF32 t d a b) := by
  intro t d a b
  refine of_word rfl fun _ ht _ => ?_
  rw [loose_lane ht (asm_20_6 _ _ _ _ _ _ (by omega) (by omega) (by omega) (by omega) (by omega) (by omega)) rfl (by omega) (by omega), looseLane]
  simp (disch := omega) only [asm_20_6, asm_0_2, fb_eq_fld, asm_26_6, asm_14_6, asm_8_6, asm_2_6, BitVec.ofNat_toNat, BitVec.setWidth_eq]
theorem vaddBf16 : ∀ t d a b, Statement (.vaddBf16 t d a b) := by
  intro t d a b
  refine of_word rfl fun _ ht _ => ?_
  rw [loose_lane ht (asm_20_6 _ _ _ _ _ _ (by omega) (by omega) (by omega) (by omega) (by omega) (by omega)) rfl (by omega) (by omega), looseLane]
  simp (disch := omega) only [asm_20_6, asm_0_2, fb_eq_fld, asm_26_6, asm_14_6, asm_8_6, asm_2_6, BitVec.ofNat_toNat, BitVec.setWidth_eq]
theorem vaddF16 : ∀ t d a b, Statement (.vaddF16 t d a b) := by
  intro t d a b
  refine of_word rfl fun _ ht _ => ?_
  rw [loose_lane ht (asm_20_6 _ _ _ _ _ _ (by omega) (by omega) (by omega) (by omega) (by omega) (by omega)) rfl (by omega) (by omega), looseLane]
  simp (disch := omega) only [asm_20_6, asm_0_2, fb_eq_fld, asm_26_6, asm_14_6, asm_8_6, asm_2_6, BitVec.ofNat_toNat, BitVec.setWidth_eq]
theorem vaddI32 : ∀ t d a b, Statement (.vaddI32 t d a b) := by
  intro t d a b
  refine of_word rfl fun _ ht _ => ?_
  rw [loose_lane ht (asm_20_6 _ _ _ _ _ _ (by omega) (by omega) (by omega) (by omega) (by omega) (by omega)) rfl (by omega) (by omega), looseLane]
  simp (disch := omega) only [asm_20_6, asm_0_2, fb_eq_fld, asm_26_6, asm_14_6, asm_8_6, asm_2_6, BitVec.ofNat_toNat, BitVec.setWidth_eq]
theorem vsubF32 : ∀ t d a b, Statement (.vsubF32 t d a b) := by
  intro t d a b
  refine of_word rfl fun _ ht _ => ?_
  rw [loose_lane ht (asm_20_6 _ _ _ _ _ _ (by omega) (by omega) (by omega) (by omega) (by omega) (by omega)) rfl (by omega) (by omega), looseLane]
  simp (disch := omega) only [asm_20_6, asm_0_2, fb_eq_fld, asm_26_6, asm_14_6, asm_8_6, asm_2_6, BitVec.ofNat_toNat, BitVec.setWidth_eq]
theorem vsubBf16 : ∀ t d a b, Statement (.vsubBf16 t d a b) := by
  intro t d a b
  refine of_word rfl fun _ ht _ => ?_
  rw [loose_lane ht (asm_20_6 _ _ _ _ _ _ (by omega) (by omega) (by omega) (by omega) (by omega) (by omega)) rfl (by omega) (by omega), looseLane]
  simp (disch := omega) only [asm_20_6, asm_0_2, fb_eq_fld, asm_26_6, asm_14_6, asm_8_6, asm_2_6, BitVec.ofNat_toNat, BitVec.setWidth_eq]
theorem vsubF16 : ∀ t d a b, Statement (.vsubF16 t d a b) := by
  intro t d a b
  refine of_word rfl fun _ ht _ => ?_
  rw [loose_lane ht (asm_20_6 _ _ _ _ _ _ (by omega) (by omega) (by omega) (by omega) (by omega) (by omega)) rfl (by omega) (by omega), looseLane]
  simp (disch := omega) only [asm_20_6, asm_0_2, fb_eq_fld, asm_26_6, asm_14_6, asm_8_6, asm_2_6, BitVec.ofNat_toNat, BitVec.setWidth_eq]
theorem vsubI32 : ∀ t d a b, Statement (.vsubI32 t d a b) := by
  intro t d a b
  refine of_word rfl fun _ ht _ => ?_
  rw [loose_lane ht (asm_20_6 _ _ _ _ _ _ (by omega) (by omega) (by omega) (by omega) (by omega) (by omega)) rfl (by omega) (by omega), looseLane]
  simp (disch := omega) only [asm_20_6, asm_0_2, fb_eq_fld, asm_26_6, asm_14_6, asm_8_6, asm_2_6, BitVec.ofNat_toNat, BitVec.setWidth_eq]
theorem vmulF32 : ∀ t d a b, Statement (.vmulF32 t d a b) := by
  intro t d a b
  refine of_word rfl fun _ ht _ => ?_
  rw [loose_lane ht (asm_20_6 _ _ _ _ _ _ (by omega) (by omega) (by omega) (by omega) (by omega) (by omega)) rfl (by omega) (by omega), looseLane]
  simp (disch := omega) only [asm_20_6, asm_0_2, fb_eq_fld, asm_26_6, asm_14_6, asm_8_6, asm_2_6, BitVec.ofNat_toNat, BitVec.setWidth_eq]
theorem vmulBf16 : ∀ t d a b, Statement (.vmulBf16 t d a b) := by
  intro t d a b
  refine of_word rfl fun _ ht _ => ?_
  rw [loose_lane ht (asm_20_6 _ _ _ _ _ _ (by omega) (by omega) (by omega) (by omega) (by omega) (by omega)) rfl (by omega) (by omega), looseLane]
  simp (disch := omega) only [asm_20_6, asm_0_2, fb_eq_fld, asm_26_6, asm_14_6, asm_8_6, asm_2_6, BitVec.ofNat_toNat, BitVec.setWidth_eq]
theorem vmulF16 : ∀ t d a b, Statement (.vmulF16 t d a b) := by
  intro t d a b
  refine of_word rfl fun _ ht _ => ?_
  rw [loose_lane ht (asm_20_6 _ _ _ _ _ _ (by omega) (by omega) (by omega) (by omega) (by omega) (by omega)) rfl (by omega) (by omega), looseLane]
  simp (disch := omega) only [asm_20_6, asm_0_2, fb_eq_fld, asm_26_6, asm_14_6, asm_8_6, asm_2_6, BitVec.ofNat_toNat, BitVec.setWidth_eq]
theorem vmulI32 : ∀ t d a b, Statement (.vmulI32 t d a b) := by
  intro t d a b
  refine of_word rfl fun _ ht _ => ?_
  rw [loose_lane ht (asm_20_6 _ _ _ _ _ _ (by omega) (by omega) (by omega) (by omega) (by omega) (by omega)) rfl (by omega) (by omega), looseLane]
  simp (disch := omega) only [asm_20_6, asm_0_2, fb_eq_fld, asm_26_6, asm_14_6, asm_8_6, asm_2_6, BitVec.ofNat_toNat, BitVec.setWidth_eq]
theorem vminF32 : ∀ t d a b, Statement (.vminF32 t d a b) := by
  intro t d a b
  refine of_word rfl fun _ ht _ => ?_
  rw [loose_lane ht (asm_20_6 _ _ _ _ _ _ (by omega) (by omega) (by omega) (by omega) (by omega) (by omega)) rfl (by omega) (by omega), looseLane]
  simp (disch := omega) only [asm_20_6, asm_0_2, fb_eq_fld, asm_26_6, asm_14_6, asm_8_6, asm_2_6, BitVec.ofNat_toNat, BitVec.setWidth_eq]
theorem vminBf16 : ∀ t d a b, Statement (.vminBf16 t d a b) := by
  intro t d a b
  refine of_word rfl fun _ ht _ => ?_
  rw [loose_lane ht (asm_20_6 _ _ _ _ _ _ (by omega) (by omega) (by omega) (by omega) (by omega) (by omega)) rfl (by omega) (by omega), looseLane]
  simp (disch := omega) only [asm_20_6, asm_0_2, fb_eq_fld, asm_26_6, asm_14_6, asm_8_6, asm_2_6, BitVec.ofNat_toNat, BitVec.setWidth_eq]
theorem vminF16 : ∀ t d a b, Statement (.vminF16 t d a b) := by
  intro t d a b
  refine of_word rfl fun _ ht _ => ?_
  rw [loose_lane ht (asm_20_6 _ _ _ _ _ _ (by omega) (by omega) (by omega) (by omega) (by omega) (by omega)) rfl (by omega) (by omega), looseLane]
  simp (disch := omega) only [asm_20_6, asm_0_2, fb_eq_fld, asm_26_6, asm_14_6, asm_8_6, asm_2_6, BitVec.ofNat_toNat, BitVec.setWidth_eq]
theorem vminI32 : ∀ t d a b, Statement (.vminI32 t d a b) := by
  intro t d a b
  refine of_word rfl fun _ ht _ => ?_
  rw [loose_lane ht (asm_20_6 _ _ _ _ _ _ (by omega) (by omega) (by omega) (by omega) (by omega) (by omega)) rfl (by omega) (by omega), looseLane]
  simp (disch := omega) only [asm_20_6, asm_0_2, fb_eq_fld, asm_26_6, asm_14_6, asm_8_6, asm_2_6, BitVec.ofNat_toNat, BitVec.setWidth_eq]
theorem vmaxF32 : ∀ t d a b, Statement (.vmaxF32 t d a b) := by
  intro t d a b
  refine of_word rfl fun _ ht _ => ?_
  rw [loose_lane ht (asm_20_6 _ _ _ _ _ _ (by omega) (by omega) (by omega) (by omega) (by omega) (by omega)) rfl (by omega) (by omega), looseLane]
  simp (disch := omega) only [asm_20_6, asm_0_2, fb_eq_fld, asm_26_6, asm_14_6, asm_8_6, asm_2_6, BitVec.ofNat_toNat, BitVec.setWidth_eq]
theorem vmaxBf16 : ∀ t d a b, Statement (.vmaxBf16 t d a b) := by
  intro t d a b
  refine of_word rfl fun _ ht _ => ?_
  rw [loose_lane ht (asm_20_6 _ _ _ _ _ _ (by omega) (by omega) (by omega) (by omega) (by omega) (by omega)) rfl (by omega) (by omega), looseLane]
  simp (disch := omega) only [asm_20_6, asm_0_2, fb_eq_fld, asm_26_6, asm_14_6, asm_8_6, asm_2_6, BitVec.ofNat_toNat, BitVec.setWidth_eq]
theorem vmaxF16 : ∀ t d a b, Statement (.vmaxF16 t d a b) := by
  intro t d a b
  refine of_word rfl fun _ ht _ => ?_
  rw [loose_lane ht (asm_20_6 _ _ _ _ _ _ (by omega) (by omega) (by omega) (by omega) (by omega) (by omega)) rfl (by omega) (by omega), looseLane]
  simp (disch := omega) only [asm_20_6, asm_0_2, fb_eq_fld, asm_26_6, asm_14_6, asm_8_6, asm_2_6, BitVec.ofNat_toNat, BitVec.setWidth_eq]
theorem vmaxI32 : ∀ t d a b, Statement (.vmaxI32 t d a b) := by
  intro t d a b
  refine of_word rfl fun _ ht _ => ?_
  rw [loose_lane ht (asm_20_6 _ _ _ _ _ _ (by omega) (by omega) (by omega) (by omega) (by omega) (by omega)) rfl (by omega) (by omega), looseLane]
  simp (disch := omega) only [asm_20_6, asm_0_2, fb_eq_fld, asm_26_6, asm_14_6, asm_8_6, asm_2_6, BitVec.ofNat_toNat, BitVec.setWidth_eq]
theorem vdotBf16 : ∀ t d a b, Statement (.vdotBf16 t d a b) := by
  intro t d a b
  refine of_word rfl fun _ ht _ => ?_
  rw [loose_lane ht (asm_20_6 _ _ _ _ _ _ (by omega) (by omega) (by omega) (by omega) (by omega) (by omega)) rfl (by omega) (by omega), looseLane]
  simp (disch := omega) only [asm_20_6, asm_0_2, fb_eq_fld, asm_26_6, asm_14_6, asm_8_6, asm_2_6, BitVec.ofNat_toNat, BitVec.setWidth_eq]
theorem vdotE4m3 : ∀ t d a b, Statement (.vdotE4m3 t d a b) := by
  intro t d a b
  refine of_word rfl fun _ ht _ => ?_
  rw [loose_lane ht (asm_20_6 _ _ _ _ _ _ (by omega) (by omega) (by omega) (by omega) (by omega) (by omega)) rfl (by omega) (by omega), looseLane]
  simp (disch := omega) only [asm_20_6, asm_0_2, fb_eq_fld, asm_26_6, asm_14_6, asm_8_6, asm_2_6, BitVec.ofNat_toNat, BitVec.setWidth_eq]
theorem vdotE5m2 : ∀ t d a b, Statement (.vdotE5m2 t d a b) := by
  intro t d a b
  refine of_word rfl fun _ ht _ => ?_
  rw [loose_lane ht (asm_20_6 _ _ _ _ _ _ (by omega) (by omega) (by omega) (by omega) (by omega) (by omega)) rfl (by omega) (by omega), looseLane]
  simp (disch := omega) only [asm_20_6, asm_0_2, fb_eq_fld, asm_26_6, asm_14_6, asm_8_6, asm_2_6, BitVec.ofNat_toNat, BitVec.setWidth_eq]
theorem vdotI8 : ∀ t d a b, Statement (.vdotI8 t d a b) := by
  intro t d a b
  refine of_word rfl fun _ ht _ => ?_
  rw [loose_lane ht (asm_20_6 _ _ _ _ _ _ (by omega) (by omega) (by omega) (by omega) (by omega) (by omega)) rfl (by omega) (by omega), looseLane]
  simp (disch := omega) only [asm_20_6, asm_0_2, fb_eq_fld, asm_26_6, asm_14_6, asm_8_6, asm_2_6, BitVec.ofNat_toNat, BitVec.setWidth_eq]
theorem vsumF32 : ∀ t d a, Statement (.vsumF32 t d a) := by
  intro t d a
  refine of_word rfl fun _ ht _ => ?_
  rw [loose_lane ht (asm_20_6 _ _ _ _ _ _ (by omega) (by omega) (by omega) (by omega) (by omega) (by omega)) rfl (by omega) (by omega), looseLane]
  simp (disch := omega) only [asm_20_6, asm_0_2, fb_eq_fld, asm_26_6, asm_14_6, asm_8_6, BitVec.ofNat_toNat, BitVec.setWidth_eq]
theorem vsumBf16 : ∀ t d a, Statement (.vsumBf16 t d a) := by
  intro t d a
  refine of_word rfl fun _ ht _ => ?_
  rw [loose_lane ht (asm_20_6 _ _ _ _ _ _ (by omega) (by omega) (by omega) (by omega) (by omega) (by omega)) rfl (by omega) (by omega), looseLane]
  simp (disch := omega) only [asm_20_6, asm_0_2, fb_eq_fld, asm_26_6, asm_14_6, asm_8_6, BitVec.ofNat_toNat, BitVec.setWidth_eq]
theorem vsumF16 : ∀ t d a, Statement (.vsumF16 t d a) := by
  intro t d a
  refine of_word rfl fun _ ht _ => ?_
  rw [loose_lane ht (asm_20_6 _ _ _ _ _ _ (by omega) (by omega) (by omega) (by omega) (by omega) (by omega)) rfl (by omega) (by omega), looseLane]
  simp (disch := omega) only [asm_20_6, asm_0_2, fb_eq_fld, asm_26_6, asm_14_6, asm_8_6, BitVec.ofNat_toNat, BitVec.setWidth_eq]
theorem vsumI32 : ∀ t d a, Statement (.vsumI32 t d a) := by
  intro t d a
  refine of_word rfl fun _ ht _ => ?_
  rw [loose_lane ht (asm_20_6 _ _ _ _ _ _ (by omega) (by omega) (by omega) (by omega) (by omega) (by omega)) rfl (by omega) (by omega), looseLane]
  simp (disch := omega) only [asm_20_6, asm_0_2, fb_eq_fld, asm_26_6, asm_14_6, asm_8_6, BitVec.ofNat_toNat, BitVec.setWidth_eq]
theorem vabsF32 : ∀ t d a, Statement (.vabsF32 t d a) := by
  intro t d a
  refine of_word rfl fun _ ht _ => ?_
  rw [loose_lane ht (asm_20_6 _ _ _ _ _ _ (by omega) (by omega) (by omega) (by omega) (by omega) (by omega)) rfl (by omega) (by omega), looseLane]
  simp (disch := omega) only [asm_20_6, asm_0_2, fb_eq_fld, asm_26_6, asm_14_6, asm_8_6, BitVec.ofNat_toNat, BitVec.setWidth_eq]
theorem vabsBf16 : ∀ t d a, Statement (.vabsBf16 t d a) := by
  intro t d a
  refine of_word rfl fun _ ht _ => ?_
  rw [loose_lane ht (asm_20_6 _ _ _ _ _ _ (by omega) (by omega) (by omega) (by omega) (by omega) (by omega)) rfl (by omega) (by omega), looseLane]
  simp (disch := omega) only [asm_20_6, asm_0_2, fb_eq_fld, asm_26_6, asm_14_6, asm_8_6, BitVec.ofNat_toNat, BitVec.setWidth_eq]
theorem vabsF16 : ∀ t d a, Statement (.vabsF16 t d a) := by
  intro t d a
  refine of_word rfl fun _ ht _ => ?_
  rw [loose_lane ht (asm_20_6 _ _ _ _ _ _ (by omega) (by omega) (by omega) (by omega) (by omega) (by omega)) rfl (by omega) (by omega), looseLane]
  simp (disch := omega) only [asm_20_6, asm_0_2, fb_eq_fld, asm_26_6, asm_14_6, asm_8_6, BitVec.ofNat_toNat, BitVec.setWidth_eq]
theorem vabsI32 : ∀ t d a, Statement (.vabsI32 t d a) := by
  intro t d a
  refine of_word rfl fun _ ht _ => ?_
  rw [loose_lane ht (asm_20_6 _ _ _ _ _ _ (by omega) (by omega) (by omega) (by omega) (by omega) (by omega)) rfl (by omega) (by omega), looseLane]
  simp (disch := omega) only [asm_20_6, asm_0_2, fb_eq_fld, asm_26_6, asm_14_6, asm_8_6, BitVec.ofNat_toNat, BitVec.setWidth_eq]
theorem vnegF32 : ∀ t d a, Statement (.vnegF32 t d a) := by
  intro t d a
  refine of_word rfl fun _ ht _ => ?_
  rw [loose_lane ht (asm_20_6 _ _ _ _ _ _ (by omega) (by omega) (by omega) (by omega) (by omega) (by omega)) rfl (by omega) (by omega), looseLane]
  simp (disch := omega) only [asm_20_6, asm_0_2, fb_eq_fld, asm_26_6, asm_14_6, asm_8_6, BitVec.ofNat_toNat, BitVec.setWidth_eq]
theorem vnegBf16 : ∀ t d a, Statement (.vnegBf16 t d a) := by
  intro t d a
  refine of_word rfl fun _ ht _ => ?_
  rw [loose_lane ht (asm_20_6 _ _ _ _ _ _ (by omega) (by omega) (by omega) (by omega) (by omega) (by omega)) rfl (by omega) (by omega), looseLane]
  simp (disch := omega) only [asm_20_6, asm_0_2, fb_eq_fld, asm_26_6, asm_14_6, asm_8_6, BitVec.ofNat_toNat, BitVec.setWidth_eq]
theorem vnegF16 : ∀ t d a, Statement (.vnegF16 t d a) := by
  intro t d a
  refine of_word rfl fun _ ht _ => ?_
  rw [loose_lane ht (asm_20_6 _ _ _ _ _ _ (by omega) (by omega) (by omega) (by omega) (by omega) (by omega)) rfl (by omega) (by omega), looseLane]
  simp (disch := omega) only [asm_20_6, asm_0_2, fb_eq_fld, asm_26_6, asm_14_6, asm_8_6, BitVec.ofNat_toNat, BitVec.setWidth_eq]
theorem vnegI32 : ∀ t d a, Statement (.vnegI32 t d a) := by
  intro t d a
  refine of_word rfl fun _ ht _ => ?_
  rw [loose_lane ht (asm_20_6 _ _ _ _ _ _ (by omega) (by omega) (by omega) (by omega) (by omega) (by omega)) rfl (by omega) (by omega), looseLane]
  simp (disch := omega) only [asm_20_6, asm_0_2, fb_eq_fld, asm_26_6, asm_14_6, asm_8_6, BitVec.ofNat_toNat, BitVec.setWidth_eq]
theorem vsel8 : ∀ t d a b, Statement (.vsel8 t d a b) := by
  intro t d a b
  refine of_word rfl fun _ ht _ => ?_
  rw [loose_lane ht (asm_20_6 _ _ _ _ _ _ (by omega) (by omega) (by omega) (by omega) (by omega) (by omega)) rfl (by omega) (by omega), looseLane]
  simp (disch := omega) only [asm_20_6, asm_0_2, fb_eq_fld, asm_26_6, asm_14_6, asm_8_6, asm_2_6, BitVec.ofNat_toNat, BitVec.setWidth_eq]
theorem vsel16 : ∀ t d a b, Statement (.vsel16 t d a b) := by
  intro t d a b
  refine of_word rfl fun _ ht _ => ?_
  rw [loose_lane ht (asm_20_6 _ _ _ _ _ _ (by omega) (by omega) (by omega) (by omega) (by omega) (by omega)) rfl (by omega) (by omega), looseLane]
  simp (disch := omega) only [asm_20_6, asm_0_2, fb_eq_fld, asm_26_6, asm_14_6, asm_8_6, asm_2_6, BitVec.ofNat_toNat, BitVec.setWidth_eq]
theorem vsel32 : ∀ t d a b, Statement (.vsel32 t d a b) := by
  intro t d a b
  refine of_word rfl fun _ ht _ => ?_
  rw [loose_lane ht (asm_20_6 _ _ _ _ _ _ (by omega) (by omega) (by omega) (by omega) (by omega) (by omega)) rfl (by omega) (by omega), looseLane]
  simp (disch := omega) only [asm_20_6, asm_0_2, fb_eq_fld, asm_26_6, asm_14_6, asm_8_6, asm_2_6, BitVec.ofNat_toNat, BitVec.setWidth_eq]
theorem vsel64 : ∀ t d a b, Statement (.vsel64 t d a b) := by
  intro t d a b
  refine of_word rfl fun _ ht _ => ?_
  rw [loose_lane ht (asm_20_6 _ _ _ _ _ _ (by omega) (by omega) (by omega) (by omega) (by omega) (by omega)) rfl (by omega) (by omega), looseLane]
  simp (disch := omega) only [asm_20_6, asm_0_2, fb_eq_fld, asm_26_6, asm_14_6, asm_8_6, asm_2_6, BitVec.ofNat_toNat, BitVec.setWidth_eq]
theorem vsplat8 : ∀ t d a, Statement (.vsplat8 t d a) := by
  intro t d a
  refine of_word rfl fun _ ht _ => ?_
  rw [loose_lane ht (asm_20_6 _ _ _ _ _ _ (by omega) (by omega) (by omega) (by omega) (by omega) (by omega)) rfl (by omega) (by omega), looseLane]
  simp (disch := omega) only [asm_20_6, asm_0_2, fb_eq_fld, asm_26_6, asm_14_6, asm_8_6, BitVec.ofNat_toNat, BitVec.setWidth_eq]
theorem vsplat16 : ∀ t d a, Statement (.vsplat16 t d a) := by
  intro t d a
  refine of_word rfl fun _ ht _ => ?_
  rw [loose_lane ht (asm_20_6 _ _ _ _ _ _ (by omega) (by omega) (by omega) (by omega) (by omega) (by omega)) rfl (by omega) (by omega), looseLane]
  simp (disch := omega) only [asm_20_6, asm_0_2, fb_eq_fld, asm_26_6, asm_14_6, asm_8_6, BitVec.ofNat_toNat, BitVec.setWidth_eq]
theorem vsplat32 : ∀ t d a, Statement (.vsplat32 t d a) := by
  intro t d a
  refine of_word rfl fun _ ht _ => ?_
  rw [loose_lane ht (asm_20_6 _ _ _ _ _ _ (by omega) (by omega) (by omega) (by omega) (by omega) (by omega)) rfl (by omega) (by omega), looseLane]
  simp (disch := omega) only [asm_20_6, asm_0_2, fb_eq_fld, asm_26_6, asm_14_6, asm_8_6, BitVec.ofNat_toNat, BitVec.setWidth_eq]
theorem vsplat64 : ∀ t d a, Statement (.vsplat64 t d a) := by
  intro t d a
  refine of_word rfl fun _ ht _ => ?_
  rw [loose_lane ht (asm_20_6 _ _ _ _ _ _ (by omega) (by omega) (by omega) (by omega) (by omega) (by omega)) rfl (by omega) (by omega), looseLane]
  simp (disch := omega) only [asm_20_6, asm_0_2, fb_eq_fld, asm_26_6, asm_14_6, asm_8_6, BitVec.ofNat_toNat, BitVec.setWidth_eq]
theorem vrcpeF32 : ∀ t d a, Statement (.vrcpeF32 t d a) := by
  intro t d a
  refine of_word rfl fun _ ht _ => ?_
  rw [loose_lane ht (asm_20_6 _ _ _ _ _ _ (by omega) (by omega) (by omega) (by omega) (by omega) (by omega)) rfl (by omega) (by omega), looseLane]
  simp (disch := omega) only [asm_20_6, asm_0_2, fb_eq_fld, asm_26_6, asm_14_6, asm_8_6, BitVec.ofNat_toNat, BitVec.setWidth_eq]
theorem vrcpeF64 : ∀ t d a, Statement (.vrcpeF64 t d a) := by
  intro t d a
  refine of_word rfl fun _ ht _ => ?_
  rw [loose_lane ht (asm_20_6 _ _ _ _ _ _ (by omega) (by omega) (by omega) (by omega) (by omega) (by omega)) rfl (by omega) (by omega), looseLane]
  simp (disch := omega) only [asm_20_6, asm_0_2, fb_eq_fld, asm_26_6, asm_14_6, asm_8_6, BitVec.ofNat_toNat, BitVec.setWidth_eq]
theorem vrsqeF32 : ∀ t d a, Statement (.vrsqeF32 t d a) := by
  intro t d a
  refine of_word rfl fun _ ht _ => ?_
  rw [loose_lane ht (asm_20_6 _ _ _ _ _ _ (by omega) (by omega) (by omega) (by omega) (by omega) (by omega)) rfl (by omega) (by omega), looseLane]
  simp (disch := omega) only [asm_20_6, asm_0_2, fb_eq_fld, asm_26_6, asm_14_6, asm_8_6, BitVec.ofNat_toNat, BitVec.setWidth_eq]
theorem vrsqeF64 : ∀ t d a, Statement (.vrsqeF64 t d a) := by
  intro t d a
  refine of_word rfl fun _ ht _ => ?_
  rw [loose_lane ht (asm_20_6 _ _ _ _ _ _ (by omega) (by omega) (by omega) (by omega) (by omega) (by omega)) rfl (by omega) (by omega), looseLane]
  simp (disch := omega) only [asm_20_6, asm_0_2, fb_eq_fld, asm_26_6, asm_14_6, asm_8_6, BitVec.ofNat_toNat, BitVec.setWidth_eq]
theorem vexp2F32 : ∀ t d a, Statement (.vexp2F32 t d a) := by
  intro t d a
  refine of_word rfl fun _ ht _ => ?_
  rw [loose_lane ht (asm_20_6 _ _ _ _ _ _ (by omega) (by omega) (by omega) (by omega) (by omega) (by omega)) rfl (by omega) (by omega), looseLane]
  simp (disch := omega) only [asm_20_6, asm_0_2, fb_eq_fld, asm_26_6, asm_14_6, asm_8_6, BitVec.ofNat_toNat, BitVec.setWidth_eq]
theorem vdivF32 : ∀ t d a b, Statement (.vdivF32 t d a b) := by
  intro t d a b
  refine of_word rfl fun _ ht _ => ?_
  rw [loose_lane ht (asm_20_6 _ _ _ _ _ _ (by omega) (by omega) (by omega) (by omega) (by omega) (by omega)) rfl (by omega) (by omega), looseLane]
  simp (disch := omega) only [asm_20_6, asm_0_2, fb_eq_fld, asm_26_6, asm_14_6, asm_8_6, asm_2_6, BitVec.ofNat_toNat, BitVec.setWidth_eq]
theorem vscaleF32 : ∀ t d a b, Statement (.vscaleF32 t d a b) := by
  intro t d a b
  refine of_word rfl fun _ ht _ => ?_
  rw [loose_lane ht (asm_20_6 _ _ _ _ _ _ (by omega) (by omega) (by omega) (by omega) (by omega) (by omega)) rfl (by omega) (by omega), looseLane]
  simp (disch := omega) only [asm_20_6, asm_0_2, fb_eq_fld, asm_26_6, asm_14_6, asm_8_6, asm_2_6, BitVec.ofNat_toNat, BitVec.setWidth_eq]
theorem vscaleBf16 : ∀ t d a b, Statement (.vscaleBf16 t d a b) := by
  intro t d a b
  refine of_word rfl fun _ ht _ => ?_
  rw [loose_lane ht (asm_20_6 _ _ _ _ _ _ (by omega) (by omega) (by omega) (by omega) (by omega) (by omega)) rfl (by omega) (by omega), looseLane]
  simp (disch := omega) only [asm_20_6, asm_0_2, fb_eq_fld, asm_26_6, asm_14_6, asm_8_6, asm_2_6, BitVec.ofNat_toNat, BitVec.setWidth_eq]
theorem vaddF64 : ∀ t d a b, Statement (.vaddF64 t d a b) := by
  intro t d a b
  refine of_word rfl fun _ ht _ => ?_
  rw [loose_lane ht (asm_20_6 _ _ _ _ _ _ (by omega) (by omega) (by omega) (by omega) (by omega) (by omega)) rfl (by omega) (by omega), looseLane]
  simp (disch := omega) only [asm_20_6, asm_0_2, fb_eq_fld, asm_26_6, asm_14_6, asm_8_6, asm_2_6, BitVec.ofNat_toNat, BitVec.setWidth_eq]
theorem vsubF64 : ∀ t d a b, Statement (.vsubF64 t d a b) := by
  intro t d a b
  refine of_word rfl fun _ ht _ => ?_
  rw [loose_lane ht (asm_20_6 _ _ _ _ _ _ (by omega) (by omega) (by omega) (by omega) (by omega) (by omega)) rfl (by omega) (by omega), looseLane]
  simp (disch := omega) only [asm_20_6, asm_0_2, fb_eq_fld, asm_26_6, asm_14_6, asm_8_6, asm_2_6, BitVec.ofNat_toNat, BitVec.setWidth_eq]
theorem vmulF64 : ∀ t d a b, Statement (.vmulF64 t d a b) := by
  intro t d a b
  refine of_word rfl fun _ ht _ => ?_
  rw [loose_lane ht (asm_20_6 _ _ _ _ _ _ (by omega) (by omega) (by omega) (by omega) (by omega) (by omega)) rfl (by omega) (by omega), looseLane]
  simp (disch := omega) only [asm_20_6, asm_0_2, fb_eq_fld, asm_26_6, asm_14_6, asm_8_6, asm_2_6, BitVec.ofNat_toNat, BitVec.setWidth_eq]
theorem vaddI16 : ∀ t d a b, Statement (.vaddI16 t d a b) := by
  intro t d a b
  refine of_word rfl fun _ ht _ => ?_
  rw [loose_lane ht (asm_20_6 _ _ _ _ _ _ (by omega) (by omega) (by omega) (by omega) (by omega) (by omega)) rfl (by omega) (by omega), looseLane]
  simp (disch := omega) only [asm_20_6, asm_0_2, fb_eq_fld, asm_26_6, asm_14_6, asm_8_6, asm_2_6, BitVec.ofNat_toNat, BitVec.setWidth_eq]
theorem vsubI16 : ∀ t d a b, Statement (.vsubI16 t d a b) := by
  intro t d a b
  refine of_word rfl fun _ ht _ => ?_
  rw [loose_lane ht (asm_20_6 _ _ _ _ _ _ (by omega) (by omega) (by omega) (by omega) (by omega) (by omega)) rfl (by omega) (by omega), looseLane]
  simp (disch := omega) only [asm_20_6, asm_0_2, fb_eq_fld, asm_26_6, asm_14_6, asm_8_6, asm_2_6, BitVec.ofNat_toNat, BitVec.setWidth_eq]
theorem vaddI8 : ∀ t d a b, Statement (.vaddI8 t d a b) := by
  intro t d a b
  refine of_word rfl fun _ ht _ => ?_
  rw [loose_lane ht (asm_20_6 _ _ _ _ _ _ (by omega) (by omega) (by omega) (by omega) (by omega) (by omega)) rfl (by omega) (by omega), looseLane]
  simp (disch := omega) only [asm_20_6, asm_0_2, fb_eq_fld, asm_26_6, asm_14_6, asm_8_6, asm_2_6, BitVec.ofNat_toNat, BitVec.setWidth_eq]
theorem vsubI8 : ∀ t d a b, Statement (.vsubI8 t d a b) := by
  intro t d a b
  refine of_word rfl fun _ ht _ => ?_
  rw [loose_lane ht (asm_20_6 _ _ _ _ _ _ (by omega) (by omega) (by omega) (by omega) (by omega) (by omega)) rfl (by omega) (by omega), looseLane]
  simp (disch := omega) only [asm_20_6, asm_0_2, fb_eq_fld, asm_26_6, asm_14_6, asm_8_6, asm_2_6, BitVec.ofNat_toNat, BitVec.setWidth_eq]
theorem vaddLong : ∀ t d a b lt rm, Statement (.vaddLong t d a b lt rm) := by
  intro t d a b lt rm
  refine of_words rfl fun _ ht => ?_
  refine loose_long ht (asm_20_6 _ _ _ _ _ _ (by omega) (by omega) (by omega) (by omega) (by omega) (by omega)) rfl (asmV_26_6 _ _ _ _ _ _ (by omega) (by omega) (by omega) (by omega) (by omega) (by omega)) ?_
  simp (disch := omega) only [looseLong, looseVop, asm_20_6, asm_0_2, asmV_21_5, fb_eq_fld, asm_26_6, asm_14_6, asm_8_6, asm_2_6, asmV_17_4, asmV_14_3, BitVec.ofNat_toNat, BitVec.setWidth_eq]
theorem vsubLong : ∀ t d a b lt rm, Statement (.vsubLong t d a b lt rm) := by
  intro t d a b lt rm
  refine of_words rfl fun _ ht => ?_
  refine loose_long ht (asm_20_6 _ _ _ _ _ _ (by omega) (by omega) (by omega) (by omega) (by omega) (by omega)) rfl (asmV_26_6 _ _ _ _ _ _ (by omega) (by omega) (by omega) (by omega) (by omega) (by omega)) ?_
  simp (disch := omega) only [looseLong, looseVop, asm_20_6, asm_0_2, asmV_21_5, fb_eq_fld, asm_26_6, asm_14_6, asm_8_6, asm_2_6, asmV_17_4, asmV_14_3, BitVec.ofNat_toNat, BitVec.setWidth_eq]
theorem vmulLong : ∀ t d a b lt rm, Statement (.vmulLong t d a b lt rm) := by
  intro t d a b lt rm
  refine of_words rfl fun _ ht => ?_
  refine loose_long ht (asm_20_6 _ _ _ _ _ _ (by omega) (by omega) (by omega) (by omega) (by omega) (by omega)) rfl (asmV_26_6 _ _ _ _ _ _ (by omega) (by omega) (by omega) (by omega) (by omega) (by omega)) ?_
  simp (disch := omega) only [looseLong, looseVop, asm_20_6, asm_0_2, asmV_21_5, fb_eq_fld, asm_26_6, asm_14_6, asm_8_6, asm_2_6, asmV_17_4, asmV_14_3, BitVec.ofNat_toNat, BitVec.setWidth_eq]
theorem vfma : ∀ t d a b c lt rm, Statement (.vfma t d a b c lt rm) := by
  intro t d a b c lt rm
  refine of_words rfl fun _ ht => ?_
  refine loose_long ht (asm_20_6 _ _ _ _ _ _ (by omega) (by omega) (by omega) (by omega) (by omega) (by omega)) rfl (asmV_26_6 _ _ _ _ _ _ (by omega) (by omega) (by omega) (by omega) (by omega) (by omega)) ?_
  simp (disch := omega) only [looseLong, looseVop, asm_20_6, asm_0_2, asmV_21_5, fb_eq_fld, asm_26_6, asm_14_6, asm_8_6, asm_2_6, asmV_0_6, asmV_17_4, asmV_14_3, BitVec.ofNat_toNat, BitVec.setWidth_eq]
theorem vfms : ∀ t d a b c lt rm, Statement (.vfms t d a b c lt rm) := by
  intro t d a b c lt rm
  refine of_words rfl fun _ ht => ?_
  refine loose_long ht (asm_20_6 _ _ _ _ _ _ (by omega) (by omega) (by omega) (by omega) (by omega) (by omega)) rfl (asmV_26_6 _ _ _ _ _ _ (by omega) (by omega) (by omega) (by omega) (by omega) (by omega)) ?_
  simp (disch := omega) only [looseLong, looseVop, asm_20_6, asm_0_2, asmV_21_5, fb_eq_fld, asm_26_6, asm_14_6, asm_8_6, asm_2_6, asmV_0_6, asmV_17_4, asmV_14_3, BitVec.ofNat_toNat, BitVec.setWidth_eq]
theorem vminLong : ∀ t d a b lt, Statement (.vminLong t d a b lt) := by
  intro t d a b lt
  refine of_words rfl fun _ ht => ?_
  refine loose_long ht (asm_20_6 _ _ _ _ _ _ (by omega) (by omega) (by omega) (by omega) (by omega) (by omega)) rfl (asmV_26_6 _ _ _ _ _ _ (by omega) (by omega) (by omega) (by omega) (by omega) (by omega)) ?_
  simp (disch := omega) only [looseLong, looseVop, asm_20_6, asm_0_2, asmV_21_5, fb_eq_fld, asm_26_6, asm_14_6, asm_8_6, asm_2_6, asmV_17_4, BitVec.ofNat_toNat, BitVec.setWidth_eq]
theorem vmaxLong : ∀ t d a b lt, Statement (.vmaxLong t d a b lt) := by
  intro t d a b lt
  refine of_words rfl fun _ ht => ?_
  refine loose_long ht (asm_20_6 _ _ _ _ _ _ (by omega) (by omega) (by omega) (by omega) (by omega) (by omega)) rfl (asmV_26_6 _ _ _ _ _ _ (by omega) (by omega) (by omega) (by omega) (by omega) (by omega)) ?_
  simp (disch := omega) only [looseLong, looseVop, asm_20_6, asm_0_2, asmV_21_5, fb_eq_fld, asm_26_6, asm_14_6, asm_8_6, asm_2_6, asmV_17_4, BitVec.ofNat_toNat, BitVec.setWidth_eq]
theorem vabsLong : ∀ t d a lt, Statement (.vabsLong t d a lt) := by
  intro t d a lt
  refine of_words rfl fun _ ht => ?_
  refine loose_long ht (asm_20_6 _ _ _ _ _ _ (by omega) (by omega) (by omega) (by omega) (by omega) (by omega)) rfl (asmV_26_6 _ _ _ _ _ _ (by omega) (by omega) (by omega) (by omega) (by omega) (by omega)) ?_
  simp (disch := omega) only [looseLong, looseVop, asm_20_6, asm_0_2, asmV_21_5, fb_eq_fld, asm_26_6, asm_14_6, asm_8_6, asmV_17_4, BitVec.ofNat_toNat, BitVec.setWidth_eq]
theorem vnegLong : ∀ t d a lt, Statement (.vnegLong t d a lt) := by
  intro t d a lt
  refine of_words rfl fun _ ht => ?_
  refine loose_long ht (asm_20_6 _ _ _ _ _ _ (by omega) (by omega) (by omega) (by omega) (by omega) (by omega)) rfl (asmV_26_6 _ _ _ _ _ _ (by omega) (by omega) (by omega) (by omega) (by omega) (by omega)) ?_
  simp (disch := omega) only [looseLong, looseVop, asm_20_6, asm_0_2, asmV_21_5, fb_eq_fld, asm_26_6, asm_14_6, asm_8_6, asmV_17_4, BitVec.ofNat_toNat, BitVec.setWidth_eq]
theorem vcmp : ∀ t d a b lt cc, Statement (.vcmp t d a b lt cc) := by
  intro t d a b lt cc
  refine of_words rfl fun _ ht => ?_
  refine loose_long ht (asm_20_6 _ _ _ _ _ _ (by omega) (by omega) (by omega) (by omega) (by omega) (by omega)) rfl (asmV_26_6 _ _ _ _ _ _ (by omega) (by omega) (by omega) (by omega) (by omega) (by omega)) ?_
  simp (disch := omega) only [looseLong, looseVop, asm_20_6, asm_0_2, asmV_21_5, fb_eq_fld, asm_26_6, asm_14_6, asm_8_6, asm_2_6, asmV_17_4, asmV_11_3, BitVec.ofNat_toNat, BitVec.setWidth_eq]
theorem vselLong : ∀ t d a b lt, Statement (.vselLong t d a b lt) := by
  intro t d a b lt
  refine of_words rfl fun _ ht => ?_
  refine loose_long ht (asm_20_6 _ _ _ _ _ _ (by omega) (by omega) (by omega) (by omega) (by omega) (by omega)) rfl (asmV_26_6 _ _ _ _ _ _ (by omega) (by omega) (by omega) (by omega) (by omega) (by omega)) ?_
  simp (disch := omega) only [looseLong, looseVop, asm_20_6, asm_0_2, asmV_21_5, fb_eq_fld, asm_26_6, asm_14_6, asm_8_6, asm_2_6, asmV_17_4, BitVec.ofNat_toNat, BitVec.setWidth_eq]
theorem vdotLong : ∀ t d a b lt rm, Statement (.vdotLong t d a b lt rm) := by
  intro t d a b lt rm
  refine of_words rfl fun _ ht => ?_
  refine loose_long ht (asm_20_6 _ _ _ _ _ _ (by omega) (by omega) (by omega) (by omega) (by omega) (by omega)) rfl (asmV_26_6 _ _ _ _ _ _ (by omega) (by omega) (by omega) (by omega) (by omega) (by omega)) ?_
  simp (disch := omega) only [looseLong, looseVop, asm_20_6, asm_0_2, asmV_21_5, fb_eq_fld, asm_26_6, asm_14_6, asm_8_6, asm_2_6, asmV_17_4, asmV_14_3, BitVec.ofNat_toNat, BitVec.setWidth_eq]
theorem vsumLong : ∀ t d a lt rm, Statement (.vsumLong t d a lt rm) := by
  intro t d a lt rm
  refine of_words rfl fun _ ht => ?_
  refine loose_long ht (asm_20_6 _ _ _ _ _ _ (by omega) (by omega) (by omega) (by omega) (by omega) (by omega)) rfl (asmV_26_6 _ _ _ _ _ _ (by omega) (by omega) (by omega) (by omega) (by omega) (by omega)) ?_
  simp (disch := omega) only [looseLong, looseVop, asm_20_6, asm_0_2, asmV_21_5, fb_eq_fld, asm_26_6, asm_14_6, asm_8_6, asmV_17_4, asmV_14_3, BitVec.ofNat_toNat, BitVec.setWidth_eq]
theorem vrcpeLong : ∀ t d a lt, Statement (.vrcpeLong t d a lt) := by
  intro t d a lt
  refine of_words rfl fun _ ht => ?_
  refine loose_long ht (asm_20_6 _ _ _ _ _ _ (by omega) (by omega) (by omega) (by omega) (by omega) (by omega)) rfl (asmV_26_6 _ _ _ _ _ _ (by omega) (by omega) (by omega) (by omega) (by omega) (by omega)) ?_
  simp (disch := omega) only [looseLong, looseVop, asm_20_6, asm_0_2, asmV_21_5, fb_eq_fld, asm_26_6, asm_14_6, asm_8_6, asmV_17_4, BitVec.ofNat_toNat, BitVec.setWidth_eq]
theorem vrsqeLong : ∀ t d a lt, Statement (.vrsqeLong t d a lt) := by
  intro t d a lt
  refine of_words rfl fun _ ht => ?_
  refine loose_long ht (asm_20_6 _ _ _ _ _ _ (by omega) (by omega) (by omega) (by omega) (by omega) (by omega)) rfl (asmV_26_6 _ _ _ _ _ _ (by omega) (by omega) (by omega) (by omega) (by omega) (by omega)) ?_
  simp (disch := omega) only [looseLong, looseVop, asm_20_6, asm_0_2, asmV_21_5, fb_eq_fld, asm_26_6, asm_14_6, asm_8_6, asmV_17_4, BitVec.ofNat_toNat, BitVec.setWidth_eq]
theorem vexp2Long : ∀ t d a lt rm, Statement (.vexp2Long t d a lt rm) := by
  intro t d a lt rm
  refine of_words rfl fun _ ht => ?_
  refine loose_long ht (asm_20_6 _ _ _ _ _ _ (by omega) (by omega) (by omega) (by omega) (by omega) (by omega)) rfl (asmV_26_6 _ _ _ _ _ _ (by omega) (by omega) (by omega) (by omega) (by omega) (by omega)) ?_
  simp (disch := omega) only [looseLong, looseVop, asm_20_6, asm_0_2, asmV_21_5, fb_eq_fld, asm_26_6, asm_14_6, asm_8_6, asmV_17_4, asmV_14_3, BitVec.ofNat_toNat, BitVec.setWidth_eq]
theorem vdivLong : ∀ t d a b lt rm, Statement (.vdivLong t d a b lt rm) := by
  intro t d a b lt rm
  refine of_words rfl fun _ ht => ?_
  refine loose_long ht (asm_20_6 _ _ _ _ _ _ (by omega) (by omega) (by omega) (by omega) (by omega) (by omega)) rfl (asmV_26_6 _ _ _ _ _ _ (by omega) (by omega) (by omega) (by omega) (by omega) (by omega)) ?_
  simp (disch := omega) only [looseLong, looseVop, asm_20_6, asm_0_2, asmV_21_5, fb_eq_fld, asm_26_6, asm_14_6, asm_8_6, asm_2_6, asmV_17_4, asmV_14_3, BitVec.ofNat_toNat, BitVec.setWidth_eq]
theorem vscaleLong : ∀ t d a b lt rm, Statement (.vscaleLong t d a b lt rm) := by
  intro t d a b lt rm
  refine of_words rfl fun _ ht => ?_
  refine loose_long ht (asm_20_6 _ _ _ _ _ _ (by omega) (by omega) (by omega) (by omega) (by omega) (by omega)) rfl (asmV_26_6 _ _ _ _ _ _ (by omega) (by omega) (by omega) (by omega) (by omega) (by omega)) ?_
  simp (disch := omega) only [looseLong, looseVop, asm_20_6, asm_0_2, asmV_21_5, fb_eq_fld, asm_26_6, asm_14_6, asm_8_6, asm_2_6, asmV_17_4, asmV_14_3, BitVec.ofNat_toNat, BitVec.setWidth_eq]
theorem vcvt : ∀ t d a lt st, Statement (.vcvt t d a lt st) := by
  intro t d a lt st
  refine of_words rfl fun _ ht => ?_
  refine loose_long ht (asm_20_6 _ _ _ _ _ _ (by omega) (by omega) (by omega) (by omega) (by omega) (by omega)) rfl (asmV_26_6 _ _ _ _ _ _ (by omega) (by omega) (by omega) (by omega) (by omega) (by omega)) ?_
  simp (disch := omega) only [looseLong, looseVop, asm_20_6, asm_0_2, asmV_21_5, fb_eq_fld, asm_26_6, asm_14_6, asm_8_6, asmV_17_4, asmV_7_4, BitVec.ofNat_toNat, BitVec.setWidth_eq]
theorem vshuf : ∀ t d a b lt, Statement (.vshuf t d a b lt) := by
  intro t d a b lt
  refine of_words rfl fun _ ht => ?_
  refine loose_long ht (asm_20_6 _ _ _ _ _ _ (by omega) (by omega) (by omega) (by omega) (by omega) (by omega)) rfl (asmV_26_6 _ _ _ _ _ _ (by omega) (by omega) (by omega) (by omega) (by omega) (by omega)) ?_
  simp (disch := omega) only [looseLong, looseVop, asm_20_6, asm_0_2, asmV_21_5, fb_eq_fld, asm_26_6, asm_14_6, asm_8_6, asm_2_6, asmV_17_4, BitVec.ofNat_toNat, BitVec.setWidth_eq]
theorem vpack : ∀ t d a b lt, Statement (.vpack t d a b lt) := by
  intro t d a b lt
  refine of_words rfl fun _ ht => ?_
  refine loose_long ht (asm_20_6 _ _ _ _ _ _ (by omega) (by omega) (by omega) (by omega) (by omega) (by omega)) rfl (asmV_26_6 _ _ _ _ _ _ (by omega) (by omega) (by omega) (by omega) (by omega) (by omega)) ?_
  simp (disch := omega) only [looseLong, looseVop, asm_20_6, asm_0_2, asmV_21_5, fb_eq_fld, asm_26_6, asm_14_6, asm_8_6, asm_2_6, asmV_17_4, BitVec.ofNat_toNat, BitVec.setWidth_eq]
theorem vunpk : ∀ t d a lt, Statement (.vunpk t d a lt) := by
  intro t d a lt
  refine of_words rfl fun _ ht => ?_
  refine loose_long ht (asm_20_6 _ _ _ _ _ _ (by omega) (by omega) (by omega) (by omega) (by omega) (by omega)) rfl (asmV_26_6 _ _ _ _ _ _ (by omega) (by omega) (by omega) (by omega) (by omega) (by omega)) ?_
  simp (disch := omega) only [looseLong, looseVop, asm_20_6, asm_0_2, asmV_21_5, fb_eq_fld, asm_26_6, asm_14_6, asm_8_6, asmV_17_4, BitVec.ofNat_toNat, BitVec.setWidth_eq]
theorem vsplatLong : ∀ t d a lt, Statement (.vsplatLong t d a lt) := by
  intro t d a lt
  refine of_words rfl fun _ ht => ?_
  refine loose_long ht (asm_20_6 _ _ _ _ _ _ (by omega) (by omega) (by omega) (by omega) (by omega) (by omega)) rfl (asmV_26_6 _ _ _ _ _ _ (by omega) (by omega) (by omega) (by omega) (by omega) (by omega)) ?_
  simp (disch := omega) only [looseLong, looseVop, asm_20_6, asm_0_2, asmV_21_5, fb_eq_fld, asm_26_6, asm_14_6, asm_8_6, asmV_17_4, BitVec.ofNat_toNat, BitVec.setWidth_eq]
theorem deq : ∀ t d a, Statement (.deq t d a) := by
  intro t d a
  refine of_word rfl fun _ ht _ => ?_
  rw [loose_rest ht (asm_20_6 _ _ _ _ _ _ (by omega) (by omega) (by omega) (by omega) (by omega) (by omega)) rfl (by omega), looseRest]
  simp (disch := omega) only [asm_20_6, asm_0_2, fb_eq_fld, asm_26_6, asm_14_6, asm_8_6, BitVec.ofNat_toNat, BitVec.setWidth_eq]
theorem peek : ∀ t d a, Statement (.peek t d a) := by
  intro t d a
  refine of_word rfl fun _ ht _ => ?_
  rw [loose_rest ht (asm_20_6 _ _ _ _ _ _ (by omega) (by omega) (by omega) (by omega) (by omega) (by omega)) rfl (by omega), looseRest]
  simp (disch := omega) only [asm_20_6, asm_0_2, fb_eq_fld, asm_26_6, asm_14_6, asm_8_6, BitVec.ofNat_toNat, BitVec.setWidth_eq]
theorem send : ∀ t d a, Statement (.send t d a) := by
  intro t d a
  refine of_word rfl fun _ ht _ => ?_
  rw [loose_rest ht (asm_20_6 _ _ _ _ _ _ (by omega) (by omega) (by omega) (by omega) (by omega) (by omega)) rfl (by omega), looseRest]
  simp (disch := omega) only [asm_20_6, asm_0_2, fb_eq_fld, asm_26_6, asm_14_6, asm_8_6, BitVec.ofNat_toNat, BitVec.setWidth_eq]
theorem fwd : ∀ t d a, Statement (.fwd t d a) := by
  intro t d a
  refine of_word rfl fun _ ht _ => ?_
  rw [loose_rest ht (asm_20_6 _ _ _ _ _ _ (by omega) (by omega) (by omega) (by omega) (by omega) (by omega)) rfl (by omega), looseRest]
  simp (disch := omega) only [asm_20_6, asm_0_2, fb_eq_fld, asm_26_6, asm_14_6, asm_8_6, BitVec.ofNat_toNat, BitVec.setWidth_eq]
theorem toss : ∀ t a, Statement (.toss t a) := by
  intro t a
  refine of_word rfl fun _ ht _ => ?_
  rw [loose_rest ht (asm_20_6 _ _ _ _ _ _ (by omega) (by omega) (by omega) (by omega) (by omega) (by omega)) rfl (by omega), looseRest]
  simp (disch := omega) only [asm_20_6, asm_0_2, fb_eq_fld, asm_26_6, asm_8_6, BitVec.ofNat_toNat, BitVec.setWidth_eq]
theorem mark : ∀ t d b, Statement (.mark t d b) := by
  intro t d b
  refine of_word rfl fun _ ht _ => ?_
  rw [loose_rest ht (asm_20_6 _ _ _ _ _ _ (by omega) (by omega) (by omega) (by omega) (by omega) (by omega)) rfl (by omega), looseRest]
  simp (disch := omega) only [asm_20_6, asm_0_2, fb_eq_fld, asm_26_6, asm_14_6, asm_2_6, BitVec.ofNat_toNat, BitVec.setWidth_eq]
theorem gnext : ∀ t, Statement (.gnext t) := by
  intro t
  refine of_word rfl fun _ ht _ => ?_
  rw [loose_rest ht (asm_20_6 _ _ _ _ _ _ (by omega) (by omega) (by omega) (by omega) (by omega) (by omega)) rfl (by omega), looseRest]
  simp (disch := omega) only [asm_20_6, asm_0_2, fb_eq_fld, asm_26_6, BitVec.ofNat_toNat, BitVec.setWidth_eq]
theorem steerP0P3 : ∀ t d a b k, Statement (.steerP0P3 t d a b k) := by
  intro t d a b k
  refine of_word rfl fun _ ht _ => ?_
  rw [loose_rest ht (asm_20_6 _ _ _ _ _ _ (by omega) (by omega) (by omega) (by omega) (by omega) (by omega)) rfl (by omega), looseRest]
  simp (disch := omega) only [asm_20_6, fb_eq_fld, asm_26_6, asm_14_6, asm_8_6, asm_2_6, asm_0_2, BitVec.ofNat_toNat, BitVec.setWidth_eq]
theorem steerP4P7 : ∀ t d a b k, Statement (.steerP4P7 t d a b k) := by
  intro t d a b k
  refine of_word rfl fun _ ht _ => ?_
  rw [loose_rest ht (asm_20_6 _ _ _ _ _ _ (by omega) (by omega) (by omega) (by omega) (by omega) (by omega)) rfl (by omega), looseRest]
  simp (disch := omega) only [asm_20_6, fb_eq_fld, asm_26_6, asm_14_6, asm_8_6, asm_2_6, asm_0_2, BitVec.ofNat_toNat, BitVec.setWidth_eq]
theorem selectP0P3 : ∀ t d a b k, Statement (.selectP0P3 t d a b k) := by
  intro t d a b k
  refine of_word rfl fun _ ht _ => ?_
  rw [loose_rest ht (asm_20_6 _ _ _ _ _ _ (by omega) (by omega) (by omega) (by omega) (by omega) (by omega)) rfl (by omega), looseRest]
  simp (disch := omega) only [asm_20_6, fb_eq_fld, asm_26_6, asm_14_6, asm_8_6, asm_2_6, asm_0_2, BitVec.ofNat_toNat, BitVec.setWidth_eq]
theorem selectP4P7 : ∀ t d a b k, Statement (.selectP4P7 t d a b k) := by
  intro t d a b k
  refine of_word rfl fun _ ht _ => ?_
  rw [loose_rest ht (asm_20_6 _ _ _ _ _ _ (by omega) (by omega) (by omega) (by omega) (by omega) (by omega)) rfl (by omega), looseRest]
  simp (disch := omega) only [asm_20_6, fb_eq_fld, asm_26_6, asm_14_6, asm_8_6, asm_2_6, asm_0_2, BitVec.ofNat_toNat, BitVec.setWidth_eq]
theorem selectMrgP0P3 : ∀ t d a b k, Statement (.selectMrgP0P3 t d a b k) := by
  intro t d a b k
  refine of_word rfl fun _ ht _ => ?_
  rw [loose_rest ht (asm_20_6 _ _ _ _ _ _ (by omega) (by omega) (by omega) (by omega) (by omega) (by omega)) rfl (by omega), looseRest]
  simp (disch := omega) only [asm_20_6, fb_eq_fld, asm_26_6, asm_14_6, asm_8_6, asm_2_6, asm_0_2, BitVec.ofNat_toNat, BitVec.setWidth_eq]
theorem selectMrgP4P7 : ∀ t d a b k, Statement (.selectMrgP4P7 t d a b k) := by
  intro t d a b k
  refine of_word rfl fun _ ht _ => ?_
  rw [loose_rest ht (asm_20_6 _ _ _ _ _ _ (by omega) (by omega) (by omega) (by omega) (by omega) (by omega)) rfl (by omega), looseRest]
  simp (disch := omega) only [asm_20_6, fb_eq_fld, asm_26_6, asm_14_6, asm_8_6, asm_2_6, asm_0_2, BitVec.ofNat_toNat, BitVec.setWidth_eq]
theorem ld : ∀ t d a i, Statement (.ld t d a i) := by
  intro t d a i
  refine of_word rfl fun _ ht _ => ?_
  rw [loose_rest ht (asmRRI_20_6 _ _ _ _ _ (by omega) (by omega) (by omega) (by omega) (by omega)) rfl (by omega), looseRest]
  simp (disch := omega) only [asmRRI_20_6, fb_eq_fld, asmRRI_26_6, asmRRI_14_6, asmRRI_8_6, asmRRI_0_8, BitVec.ofNat_toNat, BitVec.setWidth_eq]
theorem st : ∀ t d a i, Statement (.st t d a i) := by
  intro t d a i
  refine of_word rfl fun _ ht _ => ?_
  rw [loose_rest ht (asmRRI_20_6 _ _ _ _ _ (by omega) (by omega) (by omega) (by omega) (by omega)) rfl (by omega), looseRest]
  simp (disch := omega) only [asmRRI_20_6, fb_eq_fld, asmRRI_26_6, asmRRI_14_6, asmRRI_8_6, asmRRI_0_8, BitVec.ofNat_toNat, BitVec.setWidth_eq]
theorem ldS : ∀ t d a s, Statement (.ldS t d a s) := by
  intro t d a s
  refine of_word rfl fun _ ht _ => ?_
  rw [loose_rest ht (asm_20_6 _ _ _ _ _ _ (by omega) (by omega) (by omega) (by omega) (by omega) (by omega)) rfl (by omega), looseRest]
  simp (disch := omega) only [asm_20_6, asm_0_2, fb_eq_fld, asm_26_6, asm_14_6, asm_8_6, asm_2_6, BitVec.ofNat_toNat, BitVec.setWidth_eq]
theorem ldZ : ∀ t d a s, Statement (.ldZ t d a s) := by
  intro t d a s
  refine of_word rfl fun _ ht _ => ?_
  rw [loose_rest ht (asm_20_6 _ _ _ _ _ _ (by omega) (by omega) (by omega) (by omega) (by omega) (by omega)) rfl (by omega), looseRest]
  simp (disch := omega) only [asm_20_6, asm_0_2, fb_eq_fld, asm_26_6, asm_14_6, asm_8_6, asm_2_6, BitVec.ofNat_toNat, BitVec.setWidth_eq]
theorem stNarrow : ∀ t d a s, Statement (.stNarrow t d a s) := by
  intro t d a s
  refine of_word rfl fun _ ht _ => ?_
  rw [loose_rest ht (asm_20_6 _ _ _ _ _ _ (by omega) (by omega) (by omega) (by omega) (by omega) (by omega)) rfl (by omega), looseRest]
  simp (disch := omega) only [asm_20_6, asm_0_2, fb_eq_fld, asm_26_6, asm_14_6, asm_8_6, asm_2_6, BitVec.ofNat_toNat, BitVec.setWidth_eq]
theorem acas : ∀ t d a b, Statement (.acas t d a b) := by
  intro t d a b
  refine of_word rfl fun _ ht _ => ?_
  rw [loose_rest ht (asm_20_6 _ _ _ _ _ _ (by omega) (by omega) (by omega) (by omega) (by omega) (by omega)) rfl (by omega), looseRest]
  simp (disch := omega) only [asm_20_6, asm_0_2, fb_eq_fld, asm_26_6, asm_14_6, asm_8_6, asm_2_6, BitVec.ofNat_toNat, BitVec.setWidth_eq]
theorem ldg : ∀ t d a seq pred succ, Statement (.ldg t d a seq pred succ) := by
  intro t d a seq pred succ
  refine of_words rfl fun _ ht => ?_
  refine loose_long ht (asm_20_6 _ _ _ _ _ _ (by omega) (by omega) (by omega) (by omega) (by omega) (by omega)) rfl (asmW_26_6 _ _ _ (by omega) (by omega) (by omega)) ?_
  simp (disch := omega) only [looseLong, asm_20_6, asm_0_2, fb_eq_fld, asm_26_6, asm_14_6, asm_8_6, asmW_16_8, asmW_8_8, asmW_0_8, BitVec.ofNat_toNat, BitVec.setWidth_eq]
theorem stg : ∀ t d a seq pred succ, Statement (.stg t d a seq pred succ) := by
  intro t d a seq pred succ
  refine of_words rfl fun _ ht => ?_
  refine loose_long ht (asm_20_6 _ _ _ _ _ _ (by omega) (by omega) (by omega) (by omega) (by omega) (by omega)) rfl (asmW_26_6 _ _ _ (by omega) (by omega) (by omega)) ?_
  simp (disch := omega) only [looseLong, asm_20_6, asm_0_2, fb_eq_fld, asm_26_6, asm_14_6, asm_8_6, asmW_16_8, asmW_8_8, asmW_0_8, BitVec.ofNat_toNat, BitVec.setWidth_eq]
theorem tfull : ∀ t a, Statement (.tfull t a) := by
  intro t a
  refine of_word rfl fun _ ht _ => ?_
  rw [loose_rest ht (asm_20_6 _ _ _ _ _ _ (by omega) (by omega) (by omega) (by omega) (by omega) (by omega)) rfl (by omega), looseRest]
  simp (disch := omega) only [asm_20_6, asm_0_2, fb_eq_fld, asm_26_6, asm_8_6, BitVec.ofNat_toNat, BitVec.setWidth_eq]
theorem tempty : ∀ t a, Statement (.tempty t a) := by
  intro t a
  refine of_word rfl fun _ ht _ => ?_
  rw [loose_rest ht (asm_20_6 _ _ _ _ _ _ (by omega) (by omega) (by omega) (by omega) (by omega) (by omega)) rfl (by omega), looseRest]
  simp (disch := omega) only [asm_20_6, asm_0_2, fb_eq_fld, asm_26_6, asm_8_6, BitVec.ofNat_toNat, BitVec.setWidth_eq]
theorem void : ∀ t a b, Statement (.void t a b) := by
  intro t a b
  refine of_word rfl fun _ ht _ => ?_
  rw [loose_rest ht (asm_20_6 _ _ _ _ _ _ (by omega) (by omega) (by omega) (by omega) (by omega) (by omega)) rfl (by omega), looseRest]
  simp (disch := omega) only [asm_20_6, asm_0_2, fb_eq_fld, asm_26_6, asm_8_6, asm_2_6, BitVec.ofNat_toNat, BitVec.setWidth_eq]
theorem acc : ∀ t a b, Statement (.acc t a b) := by
  intro t a b
  refine of_word rfl fun _ ht _ => ?_
  rw [loose_rest ht (asm_20_6 _ _ _ _ _ _ (by omega) (by omega) (by omega) (by omega) (by omega) (by omega)) rfl (by omega), looseRest]
  simp (disch := omega) only [asm_20_6, asm_0_2, fb_eq_fld, asm_26_6, asm_8_6, asm_2_6, BitVec.ofNat_toNat, BitVec.setWidth_eq]
theorem acvtGen : ∀ t d a b, Statement (.acvtGen t d a b) := by
  intro t d a b
  refine of_word rfl fun _ ht _ => ?_
  rw [loose_rest ht (asm_20_6 _ _ _ _ _ _ (by omega) (by omega) (by omega) (by omega) (by omega) (by omega)) rfl (by omega), looseRest]
  simp (disch := omega) only [asm_20_6, asm_0_2, fb_eq_fld, asm_26_6, asm_14_6, asm_8_6, asm_2_6, BitVec.ofNat_toNat, BitVec.setWidth_eq]
theorem acvtRel : ∀ t d a b, Statement (.acvtRel t d a b) := by
  intro t d a b
  refine of_word rfl fun _ ht _ => ?_
  rw [loose_rest ht (asm_20_6 _ _ _ _ _ _ (by omega) (by omega) (by omega) (by omega) (by omega) (by omega)) rfl (by omega), looseRest]
  simp (disch := omega) only [asm_20_6, asm_0_2, fb_eq_fld, asm_26_6, asm_14_6, asm_8_6, asm_2_6, BitVec.ofNat_toNat, BitVec.setWidth_eq]
theorem ain : ∀ t k a b, Statement (.ain t k a b) := by
  intro t k a b
  refine of_word rfl fun _ ht _ => ?_
  rw [loose_rest ht (asm_20_6 _ _ _ _ _ _ (by omega) (by omega) (by omega) (by omega) (by omega) (by omega)) rfl (by omega), looseRest]
  have e0 : k.toNat % 8 = k.toNat := by omega
  simp (disch := omega) only [asm_20_6, asm_0_2, fb_eq_fld, asm_26_6, asm_14_3, asm_8_6, asm_2_6, e0, BitVec.ofNat_toNat, BitVec.setWidth_eq]
theorem axch : ∀ t d a b, Statement (.axch t d a b) := by
  intro t d a b
  refine of_word rfl fun _ ht _ => ?_
  rw [loose_rest ht (asm_20_6 _ _ _ _ _ _ (by omega) (by omega) (by omega) (by omega) (by omega) (by omega)) rfl (by omega), looseRest]
  simp (disch := omega) only [asm_20_6, asm_0_2, fb_eq_fld, asm_26_6, asm_14_6, asm_8_6, asm_2_6, BitVec.ofNat_toNat, BitVec.setWidth_eq]
theorem aadd : ∀ t d a b, Statement (.aadd t d a b) := by
  intro t d a b
  refine of_word rfl fun _ ht _ => ?_
  rw [loose_rest ht (asm_20_6 _ _ _ _ _ _ (by omega) (by omega) (by omega) (by omega) (by omega) (by omega)) rfl (by omega), looseRest]
  simp (disch := omega) only [asm_20_6, asm_0_2, fb_eq_fld, asm_26_6, asm_14_6, asm_8_6, asm_2_6, BitVec.ofNat_toNat, BitVec.setWidth_eq]
theorem aaddf : ∀ t d a b, Statement (.aaddf t d a b) := by
  intro t d a b
  refine of_word rfl fun _ ht _ => ?_
  rw [loose_rest ht (asm_20_6 _ _ _ _ _ _ (by omega) (by omega) (by omega) (by omega) (by omega) (by omega)) rfl (by omega), looseRest]
  simp (disch := omega) only [asm_20_6, asm_0_2, fb_eq_fld, asm_26_6, asm_14_6, asm_8_6, asm_2_6, BitVec.ofNat_toNat, BitVec.setWidth_eq]
theorem amin : ∀ t d a b, Statement (.amin t d a b) := by
  intro t d a b
  refine of_word rfl fun _ ht _ => ?_
  rw [loose_rest ht (asm_20_6 _ _ _ _ _ _ (by omega) (by omega) (by omega) (by omega) (by omega) (by omega)) rfl (by omega), looseRest]
  simp (disch := omega) only [asm_20_6, asm_0_2, fb_eq_fld, asm_26_6, asm_14_6, asm_8_6, asm_2_6, BitVec.ofNat_toNat, BitVec.setWidth_eq]
theorem amax : ∀ t d a b, Statement (.amax t d a b) := by
  intro t d a b
  refine of_word rfl fun _ ht _ => ?_
  rw [loose_rest ht (asm_20_6 _ _ _ _ _ _ (by omega) (by omega) (by omega) (by omega) (by omega) (by omega)) rfl (by omega), looseRest]
  simp (disch := omega) only [asm_20_6, asm_0_2, fb_eq_fld, asm_26_6, asm_14_6, asm_8_6, asm_2_6, BitVec.ofNat_toNat, BitVec.setWidth_eq]
theorem aminu : ∀ t d a b, Statement (.aminu t d a b) := by
  intro t d a b
  refine of_word rfl fun _ ht _ => ?_
  rw [loose_rest ht (asm_20_6 _ _ _ _ _ _ (by omega) (by omega) (by omega) (by omega) (by omega) (by omega)) rfl (by omega), looseRest]
  simp (disch := omega) only [asm_20_6, asm_0_2, fb_eq_fld, asm_26_6, asm_14_6, asm_8_6, asm_2_6, BitVec.ofNat_toNat, BitVec.setWidth_eq]
theorem amaxu : ∀ t d a b, Statement (.amaxu t d a b) := by
  intro t d a b
  refine of_word rfl fun _ ht _ => ?_
  rw [loose_rest ht (asm_20_6 _ _ _ _ _ _ (by omega) (by omega) (by omega) (by omega) (by omega) (by omega)) rfl (by omega), looseRest]
  simp (disch := omega) only [asm_20_6, asm_0_2, fb_eq_fld, asm_26_6, asm_14_6, asm_8_6, asm_2_6, BitVec.ofNat_toNat, BitVec.setWidth_eq]
theorem aand : ∀ t d a b, Statement (.aand t d a b) := by
  intro t d a b
  refine of_word rfl fun _ ht _ => ?_
  rw [loose_rest ht (asm_20_6 _ _ _ _ _ _ (by omega) (by omega) (by omega) (by omega) (by omega) (by omega)) rfl (by omega), looseRest]
  simp (disch := omega) only [asm_20_6, asm_0_2, fb_eq_fld, asm_26_6, asm_14_6, asm_8_6, asm_2_6, BitVec.ofNat_toNat, BitVec.setWidth_eq]
theorem aor : ∀ t d a b, Statement (.aor t d a b) := by
  intro t d a b
  refine of_word rfl fun _ ht _ => ?_
  rw [loose_rest ht (asm_20_6 _ _ _ _ _ _ (by omega) (by omega) (by omega) (by omega) (by omega) (by omega)) rfl (by omega), looseRest]
  simp (disch := omega) only [asm_20_6, asm_0_2, fb_eq_fld, asm_26_6, asm_14_6, asm_8_6, asm_2_6, BitVec.ofNat_toNat, BitVec.setWidth_eq]
theorem fenceE : ∀ t, Statement (.fenceE t) := by
  intro t
  refine of_word rfl fun _ ht _ => ?_
  rw [loose_rest ht (asm_20_6 _ _ _ _ _ _ (by omega) (by omega) (by omega) (by omega) (by omega) (by omega)) rfl (by omega), looseRest]
  simp (disch := omega) only [asm_20_6, asm_0_2, asm_2_6, fb_eq_fld, asm_26_6, BitVec.ofNat_toNat, BitVec.setWidth_eq]
theorem fenceG : ∀ t, Statement (.fenceG t) := by
  intro t
  refine of_word rfl fun _ ht _ => ?_
  rw [loose_rest ht (asm_20_6 _ _ _ _ _ _ (by omega) (by omega) (by omega) (by omega) (by omega) (by omega)) rfl (by omega), looseRest]
  simp (disch := omega) only [asm_20_6, asm_0_2, asm_2_6, fb_eq_fld, asm_26_6, BitVec.ofNat_toNat, BitVec.setWidth_eq]
theorem fenceT : ∀ t, Statement (.fenceT t) := by
  intro t
  refine of_word rfl fun _ ht _ => ?_
  rw [loose_rest ht (asm_20_6 _ _ _ _ _ _ (by omega) (by omega) (by omega) (by omega) (by omega) (by omega)) rfl (by omega), looseRest]
  simp (disch := omega) only [asm_20_6, asm_0_2, asm_2_6, fb_eq_fld, asm_26_6, BitVec.ofNat_toNat, BitVec.setWidth_eq]
theorem fenceM : ∀ t, Statement (.fenceM t) := by
  intro t
  refine of_word rfl fun _ ht _ => ?_
  rw [loose_rest ht (asm_20_6 _ _ _ _ _ _ (by omega) (by omega) (by omega) (by omega) (by omega) (by omega)) rfl (by omega), looseRest]
  simp (disch := omega) only [asm_20_6, asm_0_2, asm_2_6, fb_eq_fld, asm_26_6, BitVec.ofNat_toNat, BitVec.setWidth_eq]
theorem fenceD : ∀ t, Statement (.fenceD t) := by
  intro t
  refine of_word rfl fun _ ht _ => ?_
  rw [loose_rest ht (asm_20_6 _ _ _ _ _ _ (by omega) (by omega) (by omega) (by omega) (by omega) (by omega)) rfl (by omega), looseRest]
  simp (disch := omega) only [asm_20_6, asm_0_2, asm_2_6, fb_eq_fld, asm_26_6, BitVec.ofNat_toNat, BitVec.setWidth_eq]
theorem barArrive : ∀ t a b, Statement (.barArrive t a b) := by
  intro t a b
  refine of_word rfl fun _ ht _ => ?_
  rw [loose_rest ht (asm_20_6 _ _ _ _ _ _ (by omega) (by omega) (by omega) (by omega) (by omega) (by omega)) rfl (by omega), looseRest]
  simp (disch := omega) only [asm_20_6, asm_0_2, asm_2_6, fb_eq_fld, asm_26_6, asm_8_6, asm_2_6, BitVec.ofNat_toNat, BitVec.setWidth_eq]
theorem barWait : ∀ t a b, Statement (.barWait t a b) := by
  intro t a b
  refine of_word rfl fun _ ht _ => ?_
  rw [loose_rest ht (asm_20_6 _ _ _ _ _ _ (by omega) (by omega) (by omega) (by omega) (by omega) (by omega)) rfl (by omega), looseRest]
  simp (disch := omega) only [asm_20_6, asm_0_2, asm_2_6, fb_eq_fld, asm_26_6, asm_8_6, asm_2_6, BitVec.ofNat_toNat, BitVec.setWidth_eq]
theorem atTb : ∀ t d a, Statement (.atTb t d a) := by
  intro t d a
  refine of_word rfl fun _ ht _ => ?_
  rw [loose_rest ht (asm_20_6 _ _ _ _ _ _ (by omega) (by omega) (by omega) (by omega) (by omega) (by omega)) rfl (by omega), looseRest]
  simp (disch := omega) only [asm_20_6, asm_0_2, asm_2_6, fb_eq_fld, asm_26_6, asm_14_6, asm_8_6, BitVec.ofNat_toNat, BitVec.setWidth_eq]
theorem evset : ∀ t a, Statement (.evset t a) := by
  intro t a
  refine of_word rfl fun _ ht _ => ?_
  rw [loose_rest ht (asm_20_6 _ _ _ _ _ _ (by omega) (by omega) (by omega) (by omega) (by omega) (by omega)) rfl (by omega), looseRest]
  simp (disch := omega) only [asm_20_6, asm_0_2, fb_eq_fld, asm_26_6, asm_8_6, BitVec.ofNat_toNat, BitVec.setWidth_eq]
theorem evwait : ∀ t a, Statement (.evwait t a) := by
  intro t a
  refine of_word rfl fun _ ht _ => ?_
  rw [loose_rest ht (asm_20_6 _ _ _ _ _ _ (by omega) (by omega) (by omega) (by omega) (by omega) (by omega)) rfl (by omega), looseRest]
  simp (disch := omega) only [asm_20_6, asm_0_2, fb_eq_fld, asm_26_6, asm_8_6, BitVec.ofNat_toNat, BitVec.setWidth_eq]
theorem evclr : ∀ t a, Statement (.evclr t a) := by
  intro t a
  refine of_word rfl fun _ ht _ => ?_
  rw [loose_rest ht (asm_20_6 _ _ _ _ _ _ (by omega) (by omega) (by omega) (by omega) (by omega) (by omega)) rfl (by omega), looseRest]
  simp (disch := omega) only [asm_20_6, asm_0_2, fb_eq_fld, asm_26_6, asm_8_6, BitVec.ofNat_toNat, BitVec.setWidth_eq]
theorem chkpt : ∀ t n, Statement (.chkpt t n) := by
  intro t n
  refine of_word rfl fun _ ht _ => ?_
  rw [loose_rest ht (asmRI_20_6 _ _ _ _ (by omega) (by omega) (by omega) (by omega)) rfl (by omega), looseRest]
  simp (disch := omega) only [asmRI_20_6, fb_eq_fld, asmRI_26_6, asmRI_0_14, BitVec.ofNat_toNat, BitVec.setWidth_eq]
theorem refill : ∀ t a, Statement (.refill t a) := by
  intro t a
  refine of_word rfl fun _ ht _ => ?_
  rw [loose_rest ht (asm_20_6 _ _ _ _ _ _ (by omega) (by omega) (by omega) (by omega) (by omega) (by omega)) rfl (by omega), looseRest]
  simp (disch := omega) only [asm_20_6, asm_0_2, fb_eq_fld, asm_26_6, asm_8_6, BitVec.ofNat_toNat, BitVec.setWidth_eq]
theorem commit : ∀ t a, Statement (.commit t a) := by
  intro t a
  refine of_word rfl fun _ ht _ => ?_
  rw [loose_rest ht (asm_20_6 _ _ _ _ _ _ (by omega) (by omega) (by omega) (by omega) (by omega) (by omega)) rfl (by omega), looseRest]
  simp (disch := omega) only [asm_20_6, asm_0_2, fb_eq_fld, asm_26_6, asm_8_6, BitVec.ofNat_toNat, BitVec.setWidth_eq]
theorem abort : ∀ t a, Statement (.abort t a) := by
  intro t a
  refine of_word rfl fun _ ht _ => ?_
  rw [loose_rest ht (asm_20_6 _ _ _ _ _ _ (by omega) (by omega) (by omega) (by omega) (by omega) (by omega)) rfl (by omega), looseRest]
  simp (disch := omega) only [asm_20_6, asm_0_2, fb_eq_fld, asm_26_6, asm_8_6, BitVec.ofNat_toNat, BitVec.setWidth_eq]
theorem lcld : ∀ t d a b, Statement (.lcld t d a b) := by
  intro t d a b
  refine of_word rfl fun _ ht _ => ?_
  rw [loose_rest ht (asm_20_6 _ _ _ _ _ _ (by omega) (by omega) (by omega) (by omega) (by omega) (by omega)) rfl (by omega), looseRest]
  simp (disch := omega) only [asm_20_6, asm_0_2, asm_14_6, fb_eq_fld, asm_26_6, asm_14_6, asm_8_6, asm_2_6, BitVec.ofNat_toNat, BitVec.setWidth_eq]
theorem lcctx : ∀ t a b, Statement (.lcctx t a b) := by
  intro t a b
  refine of_word rfl fun _ ht _ => ?_
  rw [loose_rest ht (asm_20_6 _ _ _ _ _ _ (by omega) (by omega) (by omega) (by omega) (by omega) (by omega)) rfl (by omega), looseRest]
  simp (disch := omega) only [asm_20_6, asm_0_2, asm_14_6, fb_eq_fld, asm_26_6, asm_8_6, asm_2_6, BitVec.ofNat_toNat, BitVec.setWidth_eq]
theorem lcin : ∀ t a b, Statement (.lcin t a b) := by
  intro t a b
  refine of_word rfl fun _ ht _ => ?_
  rw [loose_rest ht (asm_20_6 _ _ _ _ _ _ (by omega) (by omega) (by omega) (by omega) (by omega) (by omega)) rfl (by omega), looseRest]
  simp (disch := omega) only [asm_20_6, asm_0_2, asm_14_6, fb_eq_fld, asm_26_6, asm_8_6, asm_2_6, BitVec.ofNat_toNat, BitVec.setWidth_eq]
theorem lcev : ∀ t a b, Statement (.lcev t a b) := by
  intro t a b
  refine of_word rfl fun _ ht _ => ?_
  rw [loose_rest ht (asm_20_6 _ _ _ _ _ _ (by omega) (by omega) (by omega) (by omega) (by omega) (by omega)) rfl (by omega), looseRest]
  simp (disch := omega) only [asm_20_6, asm_0_2, asm_14_6, fb_eq_fld, asm_26_6, asm_8_6, asm_2_6, BitVec.ofNat_toNat, BitVec.setWidth_eq]
theorem lcevRel : ∀ t a b, Statement (.lcevRel t a b) := by
  intro t a b
  refine of_word rfl fun _ ht _ => ?_
  rw [loose_rest ht (asm_20_6 _ _ _ _ _ _ (by omega) (by omega) (by omega) (by omega) (by omega) (by omega)) rfl (by omega), looseRest]
  simp (disch := omega) only [asm_20_6, asm_0_2, asm_14_6, fb_eq_fld, asm_26_6, asm_8_6, asm_2_6, BitVec.ofNat_toNat, BitVec.setWidth_eq]
theorem lcout : ∀ t d a b, Statement (.lcout t d a b) := by
  intro t d a b
  refine of_word rfl fun _ ht _ => ?_
  rw [loose_rest ht (asm_20_6 _ _ _ _ _ _ (by omega) (by omega) (by omega) (by omega) (by omega) (by omega)) rfl (by omega), looseRest]
  simp (disch := omega) only [asm_20_6, asm_0_2, fb_eq_fld, asm_26_6, asm_14_6, asm_8_6, asm_2_6, BitVec.ofNat_toNat, BitVec.setWidth_eq]
theorem bpt : ∀ t d a, Statement (.bpt t d a) := by
  intro t d a
  refine of_word rfl fun _ ht _ => ?_
  rw [loose_rest ht (asm_20_6 _ _ _ _ _ _ (by omega) (by omega) (by omega) (by omega) (by omega) (by omega)) rfl (by omega), looseRest]
  simp (disch := omega) only [asm_20_6, asm_0_2, fb_eq_fld, asm_26_6, asm_14_6, asm_8_6, BitVec.ofNat_toNat, BitVec.setWidth_eq]
theorem raceK : ∀ t d a b, Statement (.raceK t d a b) := by
  intro t d a b
  refine of_word rfl fun _ ht _ => ?_
  rw [loose_rest ht (asm_20_6 _ _ _ _ _ _ (by omega) (by omega) (by omega) (by omega) (by omega) (by omega)) rfl (by omega), looseRest]
  simp (disch := omega) only [asm_20_6, asm_0_2, fb_eq_fld, asm_26_6, asm_14_6, asm_8_6, asm_2_6, BitVec.ofNat_toNat, BitVec.setWidth_eq]
theorem place : ∀ t d a b, Statement (.place t d a b) := by
  intro t d a b
  refine of_word rfl fun _ ht _ => ?_
  rw [loose_rest ht (asm_20_6 _ _ _ _ _ _ (by omega) (by omega) (by omega) (by omega) (by omega) (by omega)) rfl (by omega), looseRest]
  simp (disch := omega) only [asm_20_6, asm_0_2, fb_eq_fld, asm_26_6, asm_14_6, asm_8_6, asm_2_6, BitVec.ofNat_toNat, BitVec.setWidth_eq]
theorem pload : ∀ t a b, Statement (.pload t a b) := by
  intro t a b
  refine of_word rfl fun _ ht _ => ?_
  rw [loose_rest ht (asm_20_6 _ _ _ _ _ _ (by omega) (by omega) (by omega) (by omega) (by omega) (by omega)) rfl (by omega), looseRest]
  simp (disch := omega) only [asm_20_6, asm_0_2, fb_eq_fld, asm_26_6, asm_8_6, asm_2_6, BitVec.ofNat_toNat, BitVec.setWidth_eq]
theorem pswap : ∀ t b, Statement (.pswap t b) := by
  intro t b
  refine of_word rfl fun _ ht _ => ?_
  rw [loose_rest ht (asm_20_6 _ _ _ _ _ _ (by omega) (by omega) (by omega) (by omega) (by omega) (by omega)) rfl (by omega), looseRest]
  simp (disch := omega) only [asm_20_6, asm_0_2, fb_eq_fld, asm_26_6, asm_2_6, BitVec.ofNat_toNat, BitVec.setWidth_eq]
theorem gcall : ∀ t a b, Statement (.gcall t a b) := by
  intro t a b
  refine of_word rfl fun _ ht _ => ?_
  rw [loose_rest ht (asm_20_6 _ _ _ _ _ _ (by omega) (by omega) (by omega) (by omega) (by omega) (by omega)) rfl (by omega), looseRest]
  simp (disch := omega) only [asm_20_6, asm_0_2, fb_eq_fld, asm_26_6, asm_8_6, asm_2_6, BitVec.ofNat_toNat, BitVec.setWidth_eq]
theorem gret : ∀ t a, Statement (.gret t a) := by
  intro t a
  refine of_word rfl fun _ ht _ => ?_
  rw [loose_rest ht (asm_20_6 _ _ _ _ _ _ (by omega) (by omega) (by omega) (by omega) (by omega) (by omega)) rfl (by omega), looseRest]
  simp (disch := omega) only [asm_20_6, asm_0_2, fb_eq_fld, asm_26_6, asm_8_6, BitVec.ofNat_toNat, BitVec.setWidth_eq]
theorem sbind : ∀ t a ag ch inb sector, Statement (.sbind t a ag ch inb sector) := by
  intro t a ag ch inb sector
  refine of_words rfl fun _ ht => ?_
  refine loose_long ht (asm_20_6 _ _ _ _ _ _ (by omega) (by omega) (by omega) (by omega) (by omega) (by omega)) rfl (asmS_26_6 _ _ _ (by omega) (by omega) (by omega)) ?_
  have e0 : (ch.toNat + inb.toNat * 32 + sector.toNat * 64) % 32 = ch.toNat := by omega
  have e1 : (ch.toNat + inb.toNat * 32 + sector.toNat * 64) / 32 % 2 = inb.toNat := by omega
  have e2 : (ch.toNat + inb.toNat * 32 + sector.toNat * 64) / 64 = sector.toNat := by omega
  simp (disch := omega) only [looseLong, asm_20_6, asm_0_2, fb_eq_fld, asm_26_6, asm_8_6, asmS_7_9, asmS_0_5, asmS_5_1, asmS_6_1, e0, e1, e2, BitVec.ofNat_toNat, BitVec.setWidth_eq]
theorem spat : ∀ t a b ag, Statement (.spat t a b ag) := by
  intro t a b ag
  refine of_words rfl fun _ ht => ?_
  refine loose_long ht (asm_20_6 _ _ _ _ _ _ (by omega) (by omega) (by omega) (by omega) (by omega) (by omega)) rfl (asmS_26_6 _ _ _ (by omega) (by omega) (by omega)) ?_
  simp (disch := omega) only [looseLong, asm_20_6, asm_0_2, fb_eq_fld, asm_26_6, asm_8_6, asm_2_6, asmS_7_9, BitVec.ofNat_toNat, BitVec.setWidth_eq]
theorem sgo : ∀ t ag k push pfifo pop qfifo, Statement (.sgo t ag k push pfifo pop qfifo) := by
  intro t ag k push pfifo pop qfifo
  refine of_words rfl fun _ ht => ?_
  refine loose_long ht (asm_20_6 _ _ _ _ _ _ (by omega) (by omega) (by omega) (by omega) (by omega) (by omega)) rfl (asmS_26_6 _ _ _ (by simp only [flagBits]; omega) (by omega) (by omega)) ?_
  have e0 : (push.toNat * 512 + pfifo.toNat * 32 + pop.toNat * 16 + qfifo.toNat) / 512 = push.toNat := by omega
  have e1 : (push.toNat * 512 + pfifo.toNat * 32 + pop.toNat * 16 + qfifo.toNat) / 32 % 16 = pfifo.toNat := by omega
  have e2 : (push.toNat * 512 + pfifo.toNat * 32 + pop.toNat * 16 + qfifo.toNat) / 16 % 2 = pop.toNat := by omega
  have e3 : (push.toNat * 512 + pfifo.toNat * 32 + pop.toNat * 16 + qfifo.toNat) % 16 = qfifo.toNat := by omega
  have e4 : k.toNat % 4 = k.toNat := by omega
  simp (disch := omega) only [looseLong, asm_20_6, asm_0_2, fb_eq_fld, flagBits, asm_26_6, asmS_7_9, asmS_0_2, asmS_25_1, asmS_21_4, asmS_20_1, asmS_16_4, e0, e1, e2, e3, e4, BitVec.ofNat_toNat, BitVec.setWidth_eq]
theorem swait : ∀ t ag, Statement (.swait t ag) := by
  intro t ag
  refine of_words rfl fun _ ht => ?_
  refine loose_long ht (asm_20_6 _ _ _ _ _ _ (by omega) (by omega) (by omega) (by omega) (by omega) (by omega)) rfl (asmS_26_6 _ _ _ (by omega) (by omega) (by omega)) ?_
  simp (disch := omega) only [looseLong, asm_20_6, asm_0_2, fb_eq_fld, asm_26_6, asmS_7_9, BitVec.ofNat_toNat, BitVec.setWidth_eq]
theorem sbar : ∀ t, Statement (.sbar t) := by
  intro t
  refine of_words rfl fun _ ht => ?_
  refine loose_long ht (asm_20_6 _ _ _ _ _ _ (by omega) (by omega) (by omega) (by omega) (by omega) (by omega)) rfl (asmS_26_6 _ _ _ (by omega) (by omega) (by omega)) ?_
  simp (disch := omega) only [looseLong, asm_20_6, asm_0_2, fb_eq_fld, asm_26_6, BitVec.ofNat_toNat, BitVec.setWidth_eq]
theorem scopy : ∀ t a b ag push pfifo pop qfifo, Statement (.scopy t a b ag push pfifo pop qfifo) := by
  intro t a b ag push pfifo pop qfifo
  refine of_words rfl fun _ ht => ?_
  refine loose_long ht (asm_20_6 _ _ _ _ _ _ (by omega) (by omega) (by omega) (by omega) (by omega) (by omega)) rfl (asmS_26_6 _ _ _ (by simp only [flagBits]; omega) (by omega) (by omega)) ?_
  have e0 : (push.toNat * 512 + pfifo.toNat * 32 + pop.toNat * 16 + qfifo.toNat) / 512 = push.toNat := by omega
  have e1 : (push.toNat * 512 + pfifo.toNat * 32 + pop.toNat * 16 + qfifo.toNat) / 32 % 16 = pfifo.toNat := by omega
  have e2 : (push.toNat * 512 + pfifo.toNat * 32 + pop.toNat * 16 + qfifo.toNat) / 16 % 2 = pop.toNat := by omega
  have e3 : (push.toNat * 512 + pfifo.toNat * 32 + pop.toNat * 16 + qfifo.toNat) % 16 = qfifo.toNat := by omega
  simp (disch := omega) only [looseLong, asm_20_6, asm_0_2, fb_eq_fld, flagBits, asm_26_6, asm_8_6, asm_2_6, asmS_7_9, asmS_25_1, asmS_21_4, asmS_20_1, asmS_16_4, e0, e1, e2, e3, BitVec.ofNat_toNat, BitVec.setWidth_eq]
theorem sgath : ∀ t ag ch fwdend push pfifo pop qfifo, Statement (.sgath t ag ch fwdend push pfifo pop qfifo) := by
  intro t ag ch fwdend push pfifo pop qfifo
  refine of_words rfl fun _ ht => ?_
  refine loose_long ht (asm_20_6 _ _ _ _ _ _ (by omega) (by omega) (by omega) (by omega) (by omega) (by omega)) rfl (asmS_26_6 _ _ _ (by simp only [flagBits]; omega) (by omega) (by omega)) ?_
  have e0 : (push.toNat * 512 + pfifo.toNat * 32 + pop.toNat * 16 + qfifo.toNat) / 512 = push.toNat := by omega
  have e1 : (push.toNat * 512 + pfifo.toNat * 32 + pop.toNat * 16 + qfifo.toNat) / 32 % 16 = pfifo.toNat := by omega
  have e2 : (push.toNat * 512 + pfifo.toNat * 32 + pop.toNat * 16 + qfifo.toNat) / 16 % 2 = pop.toNat := by omega
  have e3 : (push.toNat * 512 + pfifo.toNat * 32 + pop.toNat * 16 + qfifo.toNat) % 16 = qfifo.toNat := by omega
  have e4 : (ch.toNat + fwdend.toNat * 32) % 32 = ch.toNat := by omega
  have e5 : (ch.toNat + fwdend.toNat * 32) / 32 % 2 = fwdend.toNat := by omega
  simp (disch := omega) only [looseLong, asm_20_6, asm_0_2, fb_eq_fld, flagBits, asm_26_6, asmS_7_9, asmS_0_5, asmS_5_1, asmS_25_1, asmS_21_4, asmS_20_1, asmS_16_4, e0, e1, e2, e3, e4, e5, BitVec.ofNat_toNat, BitVec.setWidth_eq]
theorem sscat : ∀ t ag ch push pfifo pop qfifo, Statement (.sscat t ag ch push pfifo pop qfifo) := by
  intro t ag ch push pfifo pop qfifo
  refine of_words rfl fun _ ht => ?_
  refine loose_long ht (asm_20_6 _ _ _ _ _ _ (by omega) (by omega) (by omega) (by omega) (by omega) (by omega)) rfl (asmS_26_6 _ _ _ (by simp only [flagBits]; omega) (by omega) (by omega)) ?_
  have e0 : (push.toNat * 512 + pfifo.toNat * 32 + pop.toNat * 16 + qfifo.toNat) / 512 = push.toNat := by omega
  have e1 : (push.toNat * 512 + pfifo.toNat * 32 + pop.toNat * 16 + qfifo.toNat) / 32 % 16 = pfifo.toNat := by omega
  have e2 : (push.toNat * 512 + pfifo.toNat * 32 + pop.toNat * 16 + qfifo.toNat) / 16 % 2 = pop.toNat := by omega
  have e3 : (push.toNat * 512 + pfifo.toNat * 32 + pop.toNat * 16 + qfifo.toNat) % 16 = qfifo.toNat := by omega
  have e4 : ch.toNat % 32 = ch.toNat := by omega
  simp (disch := omega) only [looseLong, asm_20_6, asm_0_2, fb_eq_fld, flagBits, asm_26_6, asmS_7_9, asmS_0_5, asmS_25_1, asmS_21_4, asmS_20_1, asmS_16_4, e0, e1, e2, e3, e4, BitVec.ofNat_toNat, BitVec.setWidth_eq]
theorem sisect : ∀ t d ag push pfifo pop qfifo, Statement (.sisect t d ag push pfifo pop qfifo) := by
  intro t d ag push pfifo pop qfifo
  refine of_words rfl fun _ ht => ?_
  refine loose_long ht (asm_20_6 _ _ _ _ _ _ (by omega) (by omega) (by omega) (by omega) (by omega) (by omega)) rfl (asmS_26_6 _ _ _ (by simp only [flagBits]; omega) (by omega) (by omega)) ?_
  have e0 : (push.toNat * 512 + pfifo.toNat * 32 + pop.toNat * 16 + qfifo.toNat) / 512 = push.toNat := by omega
  have e1 : (push.toNat * 512 + pfifo.toNat * 32 + pop.toNat * 16 + qfifo.toNat) / 32 % 16 = pfifo.toNat := by omega
  have e2 : (push.toNat * 512 + pfifo.toNat * 32 + pop.toNat * 16 + qfifo.toNat) / 16 % 2 = pop.toNat := by omega
  have e3 : (push.toNat * 512 + pfifo.toNat * 32 + pop.toNat * 16 + qfifo.toNat) % 16 = qfifo.toNat := by omega
  simp (disch := omega) only [looseLong, asm_20_6, asm_0_2, fb_eq_fld, flagBits, asm_26_6, asm_14_6, asmS_7_9, asmS_25_1, asmS_21_4, asmS_20_1, asmS_16_4, e0, e1, e2, e3, BitVec.ofNat_toNat, BitVec.setWidth_eq]
theorem smerge : ∀ t d ag push pfifo pop qfifo, Statement (.smerge t d ag push pfifo pop qfifo) := by
  intro t d ag push pfifo pop qfifo
  refine of_words rfl fun _ ht => ?_
  refine loose_long ht (asm_20_6 _ _ _ _ _ _ (by omega) (by omega) (by omega) (by omega) (by omega) (by omega)) rfl (asmS_26_6 _ _ _ (by simp only [flagBits]; omega) (by omega) (by omega)) ?_
  have e0 : (push.toNat * 512 + pfifo.toNat * 32 + pop.toNat * 16 + qfifo.toNat) / 512 = push.toNat := by omega
  have e1 : (push.toNat * 512 + pfifo.toNat * 32 + pop.toNat * 16 + qfifo.toNat) / 32 % 16 = pfifo.toNat := by omega
  have e2 : (push.toNat * 512 + pfifo.toNat * 32 + pop.toNat * 16 + qfifo.toNat) / 16 % 2 = pop.toNat := by omega
  have e3 : (push.toNat * 512 + pfifo.toNat * 32 + pop.toNat * 16 + qfifo.toNat) % 16 = qfifo.toNat := by omega
  simp (disch := omega) only [looseLong, asm_20_6, asm_0_2, fb_eq_fld, flagBits, asm_26_6, asm_14_6, asmS_7_9, asmS_25_1, asmS_21_4, asmS_20_1, asmS_16_4, e0, e1, e2, e3, BitVec.ofNat_toNat, BitVec.setWidth_eq]
theorem branch : ∀ t o, Statement (.branch t o) := by
  intro t o
  refine of_word rfl fun _ ht _ => ?_
  rw [loose_rest ht (asmJ_20_6 _ _ _ (by omega) (by omega) (by omega)) rfl (by omega), looseRest]
  simp (disch := omega) only [asmJ_20_6, fb_eq_fld, asmJ_26_6, asmJ_0_20, BitVec.ofNat_toNat, BitVec.setWidth_eq]
theorem call : ∀ t o, Statement (.call t o) := by
  intro t o
  refine of_word rfl fun _ ht _ => ?_
  rw [loose_rest ht (asmJ_20_6 _ _ _ (by omega) (by omega) (by omega)) rfl (by omega), looseRest]
  simp (disch := omega) only [asmJ_20_6, fb_eq_fld, asmJ_26_6, asmJ_0_20, BitVec.ofNat_toNat, BitVec.setWidth_eq]
theorem nop : ∀ t, Statement (.nop t) := by
  intro t
  refine of_word rfl fun _ ht _ => ?_
  rw [loose_rest ht (asm_20_6 _ _ _ _ _ _ (by omega) (by omega) (by omega) (by omega) (by omega) (by omega)) rfl (by omega), looseRest]
  simp (disch := omega) only [asm_20_6, asm_0_2, asm_2_6, asm_14_6, fb_eq_fld, asm_26_6, BitVec.ofNat_toNat, BitVec.setWidth_eq]
theorem halt : ∀ t, Statement (.halt t) := by
  intro t
  refine of_word rfl fun _ ht _ => ?_
  rw [loose_rest ht (asm_20_6 _ _ _ _ _ _ (by omega) (by omega) (by omega) (by omega) (by omega) (by omega)) rfl (by omega), looseRest]
  simp (disch := omega) only [asm_20_6, asm_0_2, asm_2_6, asm_14_6, fb_eq_fld, asm_26_6, BitVec.ofNat_toNat, BitVec.setWidth_eq]
theorem trap : ∀ t n, Statement (.trap t n) := by
  intro t n
  refine of_word rfl fun _ ht _ => ?_
  rw [loose_rest ht (asm_20_6 _ _ _ _ _ _ (by omega) (by omega) (by omega) (by omega) (by omega) (by omega)) rfl (by omega), looseRest]
  simp (disch := omega) only [asm_20_6, asm_0_2, asm_2_6, asm_14_6, fb_eq_fld, asm_26_6, asm_8_6, BitVec.ofNat_toNat, BitVec.setWidth_eq]
theorem ret : ∀ t a, Statement (.ret t a) := by
  intro t a
  refine of_word rfl fun _ ht _ => ?_
  rw [loose_rest ht (asm_20_6 _ _ _ _ _ _ (by omega) (by omega) (by omega) (by omega) (by omega) (by omega)) rfl (by omega), looseRest]
  simp (disch := omega) only [asm_20_6, asm_0_2, asm_2_6, asm_14_6, fb_eq_fld, asm_26_6, asm_8_6, BitVec.ofNat_toNat, BitVec.setWidth_eq]
theorem wait : ∀ t a, Statement (.wait t a) := by
  intro t a
  refine of_word rfl fun _ ht _ => ?_
  rw [loose_rest ht (asm_20_6 _ _ _ _ _ _ (by omega) (by omega) (by omega) (by omega) (by omega) (by omega)) rfl (by omega), looseRest]
  simp (disch := omega) only [asm_20_6, asm_0_2, asm_2_6, asm_14_6, fb_eq_fld, asm_26_6, asm_8_6, BitVec.ofNat_toNat, BitVec.setWidth_eq]
theorem loopDec : ∀ t k a, Statement (.loopDec t k a) := by
  intro t k a
  refine of_word rfl fun _ ht _ => ?_
  rw [loose_rest ht (asm_20_6 _ _ _ _ _ _ (by omega) (by omega) (by omega) (by omega) (by omega) (by omega)) rfl (by omega), looseRest]
  have e0 : k.toNat % 8 = k.toNat := by omega
  simp (disch := omega) only [asm_20_6, asm_0_2, asm_2_6, asm_14_6, fb_eq_fld, asm_26_6, asm_14_3, asm_8_6, e0, BitVec.ofNat_toNat, BitVec.setWidth_eq]
theorem sret : ∀ t, Statement (.sret t) := by
  intro t
  refine of_word rfl fun _ ht _ => ?_
  rw [loose_rest ht (asm_20_6 _ _ _ _ _ _ (by omega) (by omega) (by omega) (by omega) (by omega) (by omega)) rfl (by omega), looseRest]
  simp (disch := omega) only [asm_20_6, asm_0_2, asm_2_6, asm_14_6, fb_eq_fld, asm_26_6, BitVec.ofNat_toNat, BitVec.setWidth_eq]
theorem mfsr : ∀ t d n, Statement (.mfsr t d n) := by
  intro t d n
  refine of_word rfl fun _ ht _ => ?_
  rw [loose_rest ht (asm_20_6 _ _ _ _ _ _ (by omega) (by omega) (by omega) (by omega) (by omega) (by omega)) rfl (by omega), looseRest]
  simp (disch := omega) only [asm_20_6, asm_0_2, asm_2_6, asm_14_6, fb_eq_fld, asm_26_6, asm_14_6, asm_8_6, BitVec.ofNat_toNat, BitVec.setWidth_eq]
theorem mtsr : ∀ t n a, Statement (.mtsr t n a) := by
  intro t n a
  refine of_word rfl fun _ ht _ => ?_
  rw [loose_rest ht (asm_20_6 _ _ _ _ _ _ (by omega) (by omega) (by omega) (by omega) (by omega) (by omega)) rfl (by omega), looseRest]
  simp (disch := omega) only [asm_20_6, asm_0_2, asm_2_6, asm_14_6, fb_eq_fld, asm_26_6, asm_14_6, asm_8_6, BitVec.ofNat_toNat, BitVec.setWidth_eq]
theorem tlbinv : ∀ t a, Statement (.tlbinv t a) := by
  intro t a
  refine of_word rfl fun _ ht _ => ?_
  rw [loose_rest ht (asm_20_6 _ _ _ _ _ _ (by omega) (by omega) (by omega) (by omega) (by omega) (by omega)) rfl (by omega), looseRest]
  simp (disch := omega) only [asm_20_6, asm_0_2, asm_2_6, asm_14_6, fb_eq_fld, asm_26_6, asm_8_6, BitVec.ofNat_toNat, BitVec.setWidth_eq]
theorem tlbinva : ∀ t, Statement (.tlbinva t) := by
  intro t
  refine of_word rfl fun _ ht _ => ?_
  rw [loose_rest ht (asm_20_6 _ _ _ _ _ _ (by omega) (by omega) (by omega) (by omega) (by omega) (by omega)) rfl (by omega), looseRest]
  simp (disch := omega) only [asm_20_6, asm_0_2, asm_2_6, asm_14_6, fb_eq_fld, asm_26_6, BitVec.ofNat_toNat, BitVec.setWidth_eq]
theorem agpause : ∀ t a, Statement (.agpause t a) := by
  intro t a
  refine of_word rfl fun _ ht _ => ?_
  rw [loose_rest ht (asm_20_6 _ _ _ _ _ _ (by omega) (by omega) (by omega) (by omega) (by omega) (by omega)) rfl (by omega), looseRest]
  simp (disch := omega) only [asm_20_6, asm_0_2, asm_2_6, asm_14_6, fb_eq_fld, asm_26_6, asm_8_6, BitVec.ofNat_toNat, BitVec.setWidth_eq]
theorem agpatch : ∀ t a, Statement (.agpatch t a) := by
  intro t a
  refine of_word rfl fun _ ht _ => ?_
  rw [loose_rest ht (asm_20_6 _ _ _ _ _ _ (by omega) (by omega) (by omega) (by omega) (by omega) (by omega)) rfl (by omega), looseRest]
  simp (disch := omega) only [asm_20_6, asm_0_2, asm_2_6, asm_14_6, fb_eq_fld, asm_26_6, asm_8_6, BitVec.ofNat_toNat, BitVec.setWidth_eq]
theorem fltack : ∀ t a, Statement (.fltack t a) := by
  intro t a
  refine of_word rfl fun _ ht _ => ?_
  rw [loose_rest ht (asm_20_6 _ _ _ _ _ _ (by omega) (by omega) (by omega) (by omega) (by omega) (by omega)) rfl (by omega), looseRest]
  simp (disch := omega) only [asm_20_6, asm_0_2, asm_2_6, asm_14_6, fb_eq_fld, asm_26_6, asm_8_6, BitVec.ofNat_toNat, BitVec.setWidth_eq]
theorem illegalWord : ∀ x0, Statement (.illegalWord x0) := fun _ => of_no_word rfl
theorem skippedWord : Statement .skippedWord := of_no_word rfl
theorem tokenHop : ∀ x0 x1 x2, Statement (.tokenHop x0 x1 x2) := fun _ _ _ => of_no_word rfl
theorem tokenDeliver : ∀ x0 x1, Statement (.tokenDeliver x0 x1) := fun _ _ => of_no_word rfl
theorem requestAdmit : ∀ x0, Statement (.requestAdmit x0) := fun _ => of_no_word rfl
theorem requestServe : ∀ x0 x1, Statement (.requestServe x0 x1) := fun _ _ => of_no_word rfl
theorem deferredReadWake : ∀ x0, Statement (.deferredReadWake x0) := fun _ => of_no_word rfl
theorem requestReply : ∀ x0, Statement (.requestReply x0) := fun _ => of_no_word rfl
theorem waveRequestRelease : ∀ x0, Statement (.waveRequestRelease x0) := fun _ => of_no_word rfl
theorem fenceComplete : ∀ x0 x1, Statement (.fenceComplete x0 x1) := fun _ _ => of_no_word rfl
theorem atEmit : ∀ x0 x1, Statement (.atEmit x0 x1) := fun _ _ => of_no_word rfl
theorem sequencerWaitExpire : ∀ x0, Statement (.sequencerWaitExpire x0) := fun _ => of_no_word rfl
theorem allowanceRecall : ∀ x0, Statement (.allowanceRecall x0) := fun _ => of_no_word rfl
theorem dry : ∀ x0, Statement (.dry x0) := fun _ => of_no_word rfl
theorem graceExpired : ∀ x0, Statement (.graceExpired x0) := fun _ => of_no_word rfl
theorem boostFallback : ∀ x0, Statement (.boostFallback x0) := fun _ => of_no_word rfl
theorem caskPour : ∀ x0, Statement (.caskPour x0) := fun _ => of_no_word rfl
theorem pourGrant : ∀ x0, Statement (.pourGrant x0) := fun _ => of_no_word rfl
theorem commitTask : ∀ x0, Statement (.commitTask x0) := fun _ => of_no_word rfl
theorem vanish : ∀ x0, Statement (.vanish x0) := fun _ => of_no_word rfl
theorem bankHandover : ∀ x0 x1, Statement (.bankHandover x0 x1) := fun _ _ => of_no_word rfl
theorem matrixIntake : ∀ x0, Statement (.matrixIntake x0) := fun _ => of_no_word rfl
theorem matrixTileStep : ∀ x0, Statement (.matrixTileStep x0) := fun _ => of_no_word rfl
theorem matrixTileWrite : ∀ x0, Statement (.matrixTileWrite x0) := fun _ => of_no_word rfl
theorem converterToken : ∀ x0, Statement (.converterToken x0) := fun _ => of_no_word rfl
theorem cornerTurnCollect : ∀ x0, Statement (.cornerTurnCollect x0) := fun _ => of_no_word rfl
theorem cornerTurnEmit : ∀ x0, Statement (.cornerTurnEmit x0) := fun _ => of_no_word rfl
theorem agAccess : ∀ x0 x1, Statement (.agAccess x0 x1) := fun _ _ => of_no_word rfl
theorem streamCommandRetire : ∀ x0 x1, Statement (.streamCommandRetire x0 x1) := fun _ _ => of_no_word rfl
theorem sparseSetStep : ∀ x0 x1, Statement (.sparseSetStep x0 x1) := fun _ _ => of_no_word rfl
theorem lcIntake : ∀ x0 x1, Statement (.lcIntake x0 x1) := fun _ _ => of_no_word rfl
theorem lcLoadBlock : ∀ x0, Statement (.lcLoadBlock x0) := fun _ => of_no_word rfl
theorem lcSweep : ∀ x0, Statement (.lcSweep x0) := fun _ => of_no_word rfl
theorem lcQueueOp : ∀ x0, Statement (.lcQueueOp x0) := fun _ => of_no_word rfl
theorem raceIntake : ∀ x0 x1, Statement (.raceIntake x0 x1) := fun _ _ => of_no_word rfl
theorem raceRelease : ∀ x0, Statement (.raceRelease x0) := fun _ => of_no_word rfl
theorem placerSizing : ∀ x0, Statement (.placerSizing x0) := fun _ => of_no_word rfl
theorem placePreload : ∀ x0, Statement (.placePreload x0) := fun _ => of_no_word rfl
theorem ploadComplete : ∀ x0 x1, Statement (.ploadComplete x0 x1) := fun _ _ => of_no_word rfl
theorem planeSwap : ∀ x0, Statement (.planeSwap x0) := fun _ => of_no_word rfl
theorem loadChange : ∀ x0, Statement (.loadChange x0) := fun _ => of_no_word rfl
theorem freezePoint : ∀ x0, Statement (.freezePoint x0) := fun _ => of_no_word rfl
theorem gridCallSwitch : ∀ x0, Statement (.gridCallSwitch x0) := fun _ => of_no_word rfl
theorem gridReturn : ∀ x0, Statement (.gridReturn x0) := fun _ => of_no_word rfl
theorem waveEntryPoint : ∀ x0, Statement (.waveEntryPoint x0) := fun _ => of_no_word rfl
theorem wavePoint : ∀ x0, Statement (.wavePoint x0) := fun _ => of_no_word rfl
theorem waveComplete : ∀ x0, Statement (.waveComplete x0) := fun _ => of_no_word rfl
theorem suspension : ∀ x0, Statement (.suspension x0) := fun _ => of_no_word rfl
theorem taskResume : ∀ x0, Statement (.taskResume x0) := fun _ => of_no_word rfl
theorem tagScrub : ∀ x0, Statement (.tagScrub x0) := fun _ => of_no_word rfl
theorem forkStall : ∀ x0 x1, Statement (.forkStall x0 x1) := fun _ _ => of_no_word rfl
theorem progressStall : ∀ x0, Statement (.progressStall x0) := fun _ => of_no_word rfl
theorem barrierShort : ∀ x0, Statement (.barrierShort x0) := fun _ => of_no_word rfl
theorem trapEntry : ∀ x0, Statement (.trapEntry x0) := fun _ => of_no_word rfl
theorem tableWalk : ∀ x0 x1, Statement (.tableWalk x0 x1) := fun _ _ => of_no_word rfl
theorem slotTableRead : ∀ x0 x1, Statement (.slotTableRead x0 x1) := fun _ _ => of_no_word rfl
theorem slotStart : ∀ x0 x1, Statement (.slotStart x0 x1) := fun _ _ => of_no_word rfl
theorem launch : ∀ x0 x1, Statement (.launch x0 x1) := fun _ _ => of_no_word rfl
theorem timeBaseAdjust : ∀ x0, Statement (.timeBaseAdjust x0) := fun _ => of_no_word rfl
theorem hostWrite : ∀ x0 x1 x2 x3, Statement (.hostWrite x0 x1 x2 x3) := fun _ _ _ _ => of_no_word rfl
theorem hostRead : ∀ x0 x1 x2 x3, Statement (.hostRead x0 x1 x2 x3) := fun _ _ _ _ => of_no_word rfl
theorem tdiStateChange : ∀ x0 x1, Statement (.tdiStateChange x0 x1) := fun _ _ => of_no_word rfl
theorem ideKeyProgram : ∀ x0 x1, Statement (.ideKeyProgram x0 x1) := fun _ _ => of_no_word rfl
theorem getMeasurements : ∀ x0 x1, Statement (.getMeasurements x0 x1) := fun _ _ => of_no_word rfl
theorem keyExchange : ∀ x0, Statement (.keyExchange x0) := fun _ => of_no_word rfl
theorem keyUpdate : ∀ x0 x1 x2 x3, Statement (.keyUpdate x0 x1 x2 x3) := fun _ _ _ _ => of_no_word rfl
theorem berovoFrameReceive : ∀ x0 x1 x2 x3, Statement (.berovoFrameReceive x0 x1 x2 x3) := fun _ _ _ _ => of_no_word rfl
theorem creditReturn : ∀ x0 x1 x2, Statement (.creditReturn x0 x1 x2) := fun _ _ _ => of_no_word rfl
theorem remoteRequest : ∀ x0 x1 x2 x3 x4 x5 x6, Statement (.remoteRequest x0 x1 x2 x3 x4 x5 x6) := fun _ _ _ _ _ _ _ => of_no_word rfl
theorem remoteReply : ∀ x0 x1 x2 x3, Statement (.remoteReply x0 x1 x2 x3) := fun _ _ _ _ => of_no_word rfl
theorem resolve : ∀ x0 x1 x2, Statement (.resolve x0 x1 x2) := fun _ _ _ => of_no_word rfl
theorem resolveAck : ∀ x0 x1, Statement (.resolveAck x0 x1) := fun _ _ => of_no_word rfl
theorem remoteAccessTimeout : ∀ x0, Statement (.remoteAccessTimeout x0) := fun _ => of_no_word rfl
theorem sensorSample : ∀ x0 x1 x2, Statement (.sensorSample x0 x1 x2) := fun _ _ _ => of_no_word rfl
theorem elementGate : ∀ x0, Statement (.elementGate x0) := fun _ => of_no_word rfl
theorem elementWake : ∀ x0, Statement (.elementWake x0) := fun _ => of_no_word rfl
theorem guardSupplyShortfall : ∀ x0, Statement (.guardSupplyShortfall x0) := fun _ => of_no_word rfl
theorem sramSoftError : ∀ x0, Statement (.sramSoftError x0) := fun _ => of_no_word rfl
theorem reset : ∀ x0, Statement (.reset x0) := fun _ => of_no_word rfl
theorem featureAck : ∀ x0 x1, Statement (.featureAck x0 x1) := fun _ _ => of_no_word rfl
theorem firmwareUpdate : ∀ x0, Statement (.firmwareUpdate x0) := fun _ => of_no_word rfl
theorem suspendRequest : ∀ x0, Statement (.suspendRequest x0) := fun _ => of_no_word rfl
theorem endSuspendedTask : ∀ x0 x1, Statement (.endSuspendedTask x0 x1) := fun _ _ => of_no_word rfl
theorem registerWrite : ∀ x0 x1, Statement (.registerWrite x0 x1) := fun _ _ => of_no_word rfl
theorem monitorCallFeatures : ∀ x0, Statement (.monitorCallFeatures x0) := fun _ => of_no_word rfl
theorem monitorCallGroveMap : ∀ x0, Statement (.monitorCallGroveMap x0) := fun _ => of_no_word rfl
theorem monitorCallGuardDrops : ∀ x0, Statement (.monitorCallGuardDrops x0) := fun _ => of_no_word rfl
theorem monitorCallReplaceImage : ∀ x0, Statement (.monitorCallReplaceImage x0) := fun _ => of_no_word rfl
theorem monitorCallInvalid : ∀ x0, Statement (.monitorCallInvalid x0) := fun _ => of_no_word rfl
theorem zwitexTime : ∀ x0, Statement (.zwitexTime x0) := fun _ => of_no_word rfl
theorem zwitexModuleNumber : ∀ x0, Statement (.zwitexModuleNumber x0) := fun _ => of_no_word rfl
theorem zwitexHopTable : ∀ x0 x1, Statement (.zwitexHopTable x0 x1) := fun _ _ => of_no_word rfl
theorem zwitexFirmwareTransfer : ∀ x0, Statement (.zwitexFirmwareTransfer x0) := fun _ => of_no_word rfl
theorem zwitexEventLogRead : Statement .zwitexEventLogRead := of_no_word rfl
theorem zwitexQuarantineClear : ∀ x0 x1, Statement (.zwitexQuarantineClear x0 x1) := fun _ _ => of_no_word rfl
theorem zwitexPartitionCommand : ∀ x0, Statement (.zwitexPartitionCommand x0) := fun _ => of_no_word rfl
theorem zwitexLostModule : ∀ x0, Statement (.zwitexLostModule x0) := fun _ => of_no_word rfl
theorem groveRestore : ∀ x0 x1 x2, Statement (.groveRestore x0 x1 x2) := fun _ _ _ => of_no_word rfl
theorem linkFailure : ∀ x0, Statement (.linkFailure x0) := fun _ => of_no_word rfl

end RoundTrip

end Sys2Proof.Laws
end

