-- ==== Sys2Proof/Laws/State.lean ====
section
/-! SUPPORT. Laws of the state: one lemma per field and per reading for each named update. -/

namespace Sys2Proof.Machine

@[simp] theorem State.setElem_agenda (s : State) (e : Nat) (x : Elem) : (s.setElem e x).agenda = s.agenda := rfl
@[simp] theorem State.setElem_moveNo (s : State) (e : Nat) (x : Elem) : (s.setElem e x).moveNo = s.moveNo := rfl
@[simp] theorem State.setElem_cur (s : State) (e : Nat) (x : Elem) : (s.setElem e x).cur = s.cur := rfl
@[simp] theorem State.setElem_nextReq (s : State) (e : Nat) (x : Elem) : (s.setElem e x).nextReq = s.nextReq := rfl
@[simp] theorem State.setElem_nextTok (s : State) (e : Nat) (x : Elem) : (s.setElem e x).nextTok = s.nextTok := rfl
@[simp] theorem State.setElem_tb (s : State) (e : Nat) (x : Elem) : (s.setElem e x).tb = s.tb := rfl
@[simp] theorem State.setElem_groves (s : State) (e : Nat) (x : Elem) : (s.setElem e x).groves = s.groves := rfl
@[simp] theorem State.setElem_mem (s : State) (e : Nat) (x : Elem) : (s.setElem e x).mem = s.mem := rfl
@[simp] theorem State.setElem_words (s : State) (e : Nat) (x : Elem) : (s.setElem e x).words = s.words := rfl
@[simp] theorem State.setElem_sectors (s : State) (e : Nat) (x : Elem) : (s.setElem e x).sectors = s.sectors := rfl
@[simp] theorem State.setElem_voids (s : State) (e : Nat) (x : Elem) : (s.setElem e x).voids = s.voids := rfl
@[simp] theorem State.setElem_waiting (s : State) (e : Nat) (x : Elem) : (s.setElem e x).waiting = s.waiting := rfl
@[simp] theorem State.setElem_windows (s : State) (e : Nat) (x : Elem) : (s.setElem e x).windows = s.windows := rfl
@[simp] theorem State.setElem_banks (s : State) (e : Nat) (x : Elem) : (s.setElem e x).banks = s.banks := rfl
@[simp] theorem State.setElem_fabric (s : State) (e : Nat) (x : Elem) : (s.setElem e x).fabric = s.fabric := rfl
@[simp] theorem State.setElem_outst (s : State) (e : Nat) (x : Elem) : (s.setElem e x).outst = s.outst := rfl
@[simp] theorem State.setElem_reqs (s : State) (e : Nat) (x : Elem) : (s.setElem e x).reqs = s.reqs := rfl
@[simp] theorem State.setElem_ports (s : State) (e : Nat) (x : Elem) : (s.setElem e x).ports = s.ports := rfl
@[simp] theorem State.setElem_tasks (s : State) (e : Nat) (x : Elem) : (s.setElem e x).tasks = s.tasks := rfl
@[simp] theorem State.setElem_tags (s : State) (e : Nat) (x : Elem) : (s.setElem e x).tags = s.tags := rfl
@[simp] theorem State.setElem_ctxs (s : State) (e : Nat) (x : Elem) : (s.setElem e x).ctxs = s.ctxs := rfl
@[simp] theorem State.setElem_parts (s : State) (e : Nat) (x : Elem) : (s.setElem e x).parts = s.parts := rfl
@[simp] theorem State.setElem_staged (s : State) (e : Nat) (x : Elem) : (s.setElem e x).staged = s.staged := rfl
@[simp] theorem State.setElem_serial (s : State) (e : Nat) (x : Elem) : (s.setElem e x).serial = s.serial := rfl
@[simp] theorem State.setElem_guardPool (s : State) (e : Nat) (x : Elem) : (s.setElem e x).guardPool = s.guardPool := rfl
@[simp] theorem State.setElem_totals (s : State) (e : Nat) (x : Elem) : (s.setElem e x).totals = s.totals := rfl
@[simp] theorem State.setElem_stage (s : State) (e : Nat) (x : Elem) : (s.setElem e x).stage = s.stage := rfl
@[simp] theorem State.setElem_err (s : State) (e : Nat) (x : Elem) : (s.setElem e x).err = s.err := rfl
@[simp] theorem State.setElem_offer (s : State) (e : Nat) (x : Elem) : (s.setElem e x).offer = s.offer := rfl
@[simp] theorem State.setElem_ack (s : State) (e : Nat) (x : Elem) : (s.setElem e x).ack = s.ack := rfl
@[simp] theorem State.setElem_ackHigh (s : State) (e : Nat) (x : Elem) : (s.setElem e x).ackHigh = s.ackHigh := rfl
@[simp] theorem State.setElem_negotiated (s : State) (e : Nat) (x : Elem) : (s.setElem e x).negotiated = s.negotiated := rfl
@[simp] theorem State.setElem_moduleNo (s : State) (e : Nat) (x : Elem) : (s.setElem e x).moduleNo = s.moduleNo := rfl
@[simp] theorem State.setElem_hops (s : State) (e : Nat) (x : Elem) : (s.setElem e x).hops = s.hops := rfl
@[simp] theorem State.setElem_retired (s : State) (e : Nat) (x : Elem) : (s.setElem e x).retired = s.retired := rfl
@[simp] theorem State.setElem_eventLog (s : State) (e : Nat) (x : Elem) : (s.setElem e x).eventLog = s.eventLog := rfl
@[simp] theorem State.setElem_measures (s : State) (e : Nat) (x : Elem) : (s.setElem e x).measures = s.measures := rfl
@[simp] theorem State.setElem_measureLog (s : State) (e : Nat) (x : Elem) : (s.setElem e x).measureLog = s.measureLog := rfl
@[simp] theorem State.setElem_aliasKey (s : State) (e : Nat) (x : Elem) : (s.setElem e x).aliasKey = s.aliasKey := rfl
@[simp] theorem State.setElem_slotA (s : State) (e : Nat) (x : Elem) : (s.setElem e x).slotA = s.slotA := rfl
@[simp] theorem State.setElem_slotB (s : State) (e : Nat) (x : Elem) : (s.setElem e x).slotB = s.slotB := rfl
@[simp] theorem State.setElem_fuse (s : State) (e : Nat) (x : Elem) : (s.setElem e x).fuse = s.fuse := rfl
@[simp] theorem State.setElem_running (s : State) (e : Nat) (x : Elem) : (s.setElem e x).running = s.running := rfl
@[simp] theorem State.setElem_ideKeys (s : State) (e : Nat) (x : Elem) : (s.setElem e x).ideKeys = s.ideKeys := rfl
@[simp] theorem State.setElem_sessions (s : State) (e : Nat) (x : Elem) : (s.setElem e x).sessions = s.sessions := rfl
@[simp] theorem State.setElem_keys (s : State) (e : Nat) (x : Elem) : (s.setElem e x).keys = s.keys := rfl
@[simp] theorem State.setElem_sectorKeys (s : State) (e : Nat) (x : Elem) : (s.setElem e x).sectorKeys = s.sectorKeys := rfl
@[simp] theorem State.setElem_badMacs (s : State) (e : Nat) (x : Elem) : (s.setElem e x).badMacs = s.badMacs := rfl
@[simp] theorem State.setElem_msix (s : State) (e : Nat) (x : Elem) : (s.setElem e x).msix = s.msix := rfl
@[simp] theorem State.setElem_routes (s : State) (e : Nat) (x : Elem) : (s.setElem e x).routes = s.routes := rfl
@[simp] theorem State.setElem_hostQueue (s : State) (e : Nat) (x : Elem) : (s.setElem e x).hostQueue = s.hostQueue := rfl
@[simp] theorem State.setElem_berovo (s : State) (e : Nat) (x : Elem) : (s.setElem e x).berovo = s.berovo := rfl
@[simp] theorem State.setElem_pours (s : State) (e : Nat) (x : Elem) : (s.setElem e x).pours = s.pours := rfl
@[simp] theorem State.setElem_outputs (s : State) (e : Nat) (x : Elem) : (s.setElem e x).outputs = s.outputs := rfl
@[simp] theorem State.setElem_lateReplies (s : State) (e : Nat) (x : Elem) : (s.setElem e x).lateReplies = s.lateReplies := rfl
@[simp] theorem State.setElem_staleRids (s : State) (e : Nat) (x : Elem) : (s.setElem e x).staleRids = s.staleRids := rfl
@[simp] theorem State.setElem_branchSince (s : State) (e : Nat) (x : Elem) : (s.setElem e x).branchSince = s.branchSince := rfl
@[simp] theorem State.setElem_grove (s : State) (e : Nat) (x : Elem) (i : Nat) : (s.setElem e x).grove i = s.grove i := rfl
@[simp] theorem State.setElem_task (s : State) (e : Nat) (x : Elem) (i : Nat) : (s.setElem e x).task i = s.task i := rfl
@[simp] theorem State.setElem_taskOpt (s : State) (e : Nat) (x : Elem) (i : Nat) : (s.setElem e x).task? i = s.task? i := rfl
@[simp] theorem State.setElem_ctx (s : State) (e : Nat) (x : Elem) (i : Nat) : (s.setElem e x).ctx i = s.ctx i := rfl
@[simp] theorem State.setElem_part (s : State) (e : Nat) (x : Elem) (i : Nat) : (s.setElem e x).part i = s.part i := rfl
@[simp] theorem State.setElem_port (s : State) (e : Nat) (x : Elem) (i : Nat) : (s.setElem e x).port i = s.port i := rfl
@[simp] theorem State.setElem_bank (s : State) (e : Nat) (x : Elem) (i : Nat) : (s.setElem e x).bank i = s.bank i := rfl
@[simp] theorem State.setElem_window (s : State) (e : Nat) (x : Elem) (i : Nat) : (s.setElem e x).window i = s.window i := rfl
@[simp] theorem State.setElem_wordMeta (s : State) (e : Nat) (x : Elem) (i : Nat) : (s.setElem e x).wordMeta i = s.wordMeta i := rfl
@[simp] theorem State.setElem_sector (s : State) (e : Nat) (x : Elem) (i : Nat) : (s.setElem e x).sector i = s.sector i := rfl
@[simp] theorem State.setElem_tokens (s : State) (e : Nat) (x : Elem) (i : Nat) : (s.setElem e x).tokens i = s.tokens i := rfl
@[simp] theorem State.setElem_reqOpt (s : State) (e : Nat) (x : Elem) (i : Nat) : (s.setElem e x).req? i = s.req? i := rfl
@[simp] theorem State.setElem_taskOfGrove (s : State) (e : Nat) (x : Elem) (i : Nat) : (s.setElem e x).taskOfGrove i = s.taskOfGrove i := rfl
@[simp] theorem State.setElem_taskOfElem (s : State) (e : Nat) (x : Elem) (i : Nat) : (s.setElem e x).taskOfElem i = s.taskOfElem i := rfl
@[simp] theorem State.setElem_partOfGrove (s : State) (e : Nat) (x : Elem) (i : Nat) : (s.setElem e x).partOfGrove i = s.partOfGrove i := rfl
@[simp] theorem State.setElem_supervising (s : State) (e : Nat) (x : Elem) : (s.setElem e x).supervising = s.supervising := rfl

@[simp] theorem State.modElem_agenda (s : State) (e : Nat) (f : Elem → Elem) : (s.modElem e f).agenda = s.agenda := rfl
@[simp] theorem State.modElem_moveNo (s : State) (e : Nat) (f : Elem → Elem) : (s.modElem e f).moveNo = s.moveNo := rfl
@[simp] theorem State.modElem_cur (s : State) (e : Nat) (f : Elem → Elem) : (s.modElem e f).cur = s.cur := rfl
@[simp] theorem State.modElem_nextReq (s : State) (e : Nat) (f : Elem → Elem) : (s.modElem e f).nextReq = s.nextReq := rfl
@[simp] theorem State.modElem_nextTok (s : State) (e : Nat) (f : Elem → Elem) : (s.modElem e f).nextTok = s.nextTok := rfl
@[simp] theorem State.modElem_tb (s : State) (e : Nat) (f : Elem → Elem) : (s.modElem e f).tb = s.tb := rfl
@[simp] theorem State.modElem_groves (s : State) (e : Nat) (f : Elem → Elem) : (s.modElem e f).groves = s.groves := rfl
@[simp] theorem State.modElem_mem (s : State) (e : Nat) (f : Elem → Elem) : (s.modElem e f).mem = s.mem := rfl
@[simp] theorem State.modElem_words (s : State) (e : Nat) (f : Elem → Elem) : (s.modElem e f).words = s.words := rfl
@[simp] theorem State.modElem_sectors (s : State) (e : Nat) (f : Elem → Elem) : (s.modElem e f).sectors = s.sectors := rfl
@[simp] theorem State.modElem_voids (s : State) (e : Nat) (f : Elem → Elem) : (s.modElem e f).voids = s.voids := rfl
@[simp] theorem State.modElem_waiting (s : State) (e : Nat) (f : Elem → Elem) : (s.modElem e f).waiting = s.waiting := rfl
@[simp] theorem State.modElem_windows (s : State) (e : Nat) (f : Elem → Elem) : (s.modElem e f).windows = s.windows := rfl
@[simp] theorem State.modElem_banks (s : State) (e : Nat) (f : Elem → Elem) : (s.modElem e f).banks = s.banks := rfl
@[simp] theorem State.modElem_fabric (s : State) (e : Nat) (f : Elem → Elem) : (s.modElem e f).fabric = s.fabric := rfl
@[simp] theorem State.modElem_outst (s : State) (e : Nat) (f : Elem → Elem) : (s.modElem e f).outst = s.outst := rfl
@[simp] theorem State.modElem_reqs (s : State) (e : Nat) (f : Elem → Elem) : (s.modElem e f).reqs = s.reqs := rfl
@[simp] theorem State.modElem_ports (s : State) (e : Nat) (f : Elem → Elem) : (s.modElem e f).ports = s.ports := rfl
@[simp] theorem State.modElem_tasks (s : State) (e : Nat) (f : Elem → Elem) : (s.modElem e f).tasks = s.tasks := rfl
@[simp] theorem State.modElem_tags (s : State) (e : Nat) (f : Elem → Elem) : (s.modElem e f).tags = s.tags := rfl
@[simp] theorem State.modElem_ctxs (s : State) (e : Nat) (f : Elem → Elem) : (s.modElem e f).ctxs = s.ctxs := rfl
@[simp] theorem State.modElem_parts (s : State) (e : Nat) (f : Elem → Elem) : (s.modElem e f).parts = s.parts := rfl
@[simp] theorem State.modElem_staged (s : State) (e : Nat) (f : Elem → Elem) : (s.modElem e f).staged = s.staged := rfl
@[simp] theorem State.modElem_serial (s : State) (e : Nat) (f : Elem → Elem) : (s.modElem e f).serial = s.serial := rfl
@[simp] theorem State.modElem_guardPool (s : State) (e : Nat) (f : Elem → Elem) : (s.modElem e f).guardPool = s.guardPool := rfl
@[simp] theorem State.modElem_totals (s : State) (e : Nat) (f : Elem → Elem) : (s.modElem e f).totals = s.totals := rfl
@[simp] theorem State.modElem_stage (s : State) (e : Nat) (f : Elem → Elem) : (s.modElem e f).stage = s.stage := rfl
@[simp] theorem State.modElem_err (s : State) (e : Nat) (f : Elem → Elem) : (s.modElem e f).err = s.err := rfl
@[simp] theorem State.modElem_offer (s : State) (e : Nat) (f : Elem → Elem) : (s.modElem e f).offer = s.offer := rfl
@[simp] theorem State.modElem_ack (s : State) (e : Nat) (f : Elem → Elem) : (s.modElem e f).ack = s.ack := rfl
@[simp] theorem State.modElem_ackHigh (s : State) (e : Nat) (f : Elem → Elem) : (s.modElem e f).ackHigh = s.ackHigh := rfl
@[simp] theorem State.modElem_negotiated (s : State) (e : Nat) (f : Elem → Elem) : (s.modElem e f).negotiated = s.negotiated := rfl
@[simp] theorem State.modElem_moduleNo (s : State) (e : Nat) (f : Elem → Elem) : (s.modElem e f).moduleNo = s.moduleNo := rfl
@[simp] theorem State.modElem_hops (s : State) (e : Nat) (f : Elem → Elem) : (s.modElem e f).hops = s.hops := rfl
@[simp] theorem State.modElem_retired (s : State) (e : Nat) (f : Elem → Elem) : (s.modElem e f).retired = s.retired := rfl
@[simp] theorem State.modElem_eventLog (s : State) (e : Nat) (f : Elem → Elem) : (s.modElem e f).eventLog = s.eventLog := rfl
@[simp] theorem State.modElem_measures (s : State) (e : Nat) (f : Elem → Elem) : (s.modElem e f).measures = s.measures := rfl
@[simp] theorem State.modElem_measureLog (s : State) (e : Nat) (f : Elem → Elem) : (s.modElem e f).measureLog = s.measureLog := rfl
@[simp] theorem State.modElem_aliasKey (s : State) (e : Nat) (f : Elem → Elem) : (s.modElem e f).aliasKey = s.aliasKey := rfl
@[simp] theorem State.modElem_slotA (s : State) (e : Nat) (f : Elem → Elem) : (s.modElem e f).slotA = s.slotA := rfl
@[simp] theorem State.modElem_slotB (s : State) (e : Nat) (f : Elem → Elem) : (s.modElem e f).slotB = s.slotB := rfl
@[simp] theorem State.modElem_fuse (s : State) (e : Nat) (f : Elem → Elem) : (s.modElem e f).fuse = s.fuse := rfl
@[simp] theorem State.modElem_running (s : State) (e : Nat) (f : Elem → Elem) : (s.modElem e f).running = s.running := rfl
@[simp] theorem State.modElem_ideKeys (s : State) (e : Nat) (f : Elem → Elem) : (s.modElem e f).ideKeys = s.ideKeys := rfl
@[simp] theorem State.modElem_sessions (s : State) (e : Nat) (f : Elem → Elem) : (s.modElem e f).sessions = s.sessions := rfl
@[simp] theorem State.modElem_keys (s : State) (e : Nat) (f : Elem → Elem) : (s.modElem e f).keys = s.keys := rfl
@[simp] theorem State.modElem_sectorKeys (s : State) (e : Nat) (f : Elem → Elem) : (s.modElem e f).sectorKeys = s.sectorKeys := rfl
@[simp] theorem State.modElem_badMacs (s : State) (e : Nat) (f : Elem → Elem) : (s.modElem e f).badMacs = s.badMacs := rfl
@[simp] theorem State.modElem_msix (s : State) (e : Nat) (f : Elem → Elem) : (s.modElem e f).msix = s.msix := rfl
@[simp] theorem State.modElem_routes (s : State) (e : Nat) (f : Elem → Elem) : (s.modElem e f).routes = s.routes := rfl
@[simp] theorem State.modElem_hostQueue (s : State) (e : Nat) (f : Elem → Elem) : (s.modElem e f).hostQueue = s.hostQueue := rfl
@[simp] theorem State.modElem_berovo (s : State) (e : Nat) (f : Elem → Elem) : (s.modElem e f).berovo = s.berovo := rfl
@[simp] theorem State.modElem_pours (s : State) (e : Nat) (f : Elem → Elem) : (s.modElem e f).pours = s.pours := rfl
@[simp] theorem State.modElem_outputs (s : State) (e : Nat) (f : Elem → Elem) : (s.modElem e f).outputs = s.outputs := rfl
@[simp] theorem State.modElem_lateReplies (s : State) (e : Nat) (f : Elem → Elem) : (s.modElem e f).lateReplies = s.lateReplies := rfl
@[simp] theorem State.modElem_staleRids (s : State) (e : Nat) (f : Elem → Elem) : (s.modElem e f).staleRids = s.staleRids := rfl
@[simp] theorem State.modElem_branchSince (s : State) (e : Nat) (f : Elem → Elem) : (s.modElem e f).branchSince = s.branchSince := rfl
@[simp] theorem State.modElem_grove (s : State) (e : Nat) (f : Elem → Elem) (i : Nat) : (s.modElem e f).grove i = s.grove i := rfl
@[simp] theorem State.modElem_task (s : State) (e : Nat) (f : Elem → Elem) (i : Nat) : (s.modElem e f).task i = s.task i := rfl
@[simp] theorem State.modElem_taskOpt (s : State) (e : Nat) (f : Elem → Elem) (i : Nat) : (s.modElem e f).task? i = s.task? i := rfl
@[simp] theorem State.modElem_ctx (s : State) (e : Nat) (f : Elem → Elem) (i : Nat) : (s.modElem e f).ctx i = s.ctx i := rfl
@[simp] theorem State.modElem_part (s : State) (e : Nat) (f : Elem → Elem) (i : Nat) : (s.modElem e f).part i = s.part i := rfl
@[simp] theorem State.modElem_port (s : State) (e : Nat) (f : Elem → Elem) (i : Nat) : (s.modElem e f).port i = s.port i := rfl
@[simp] theorem State.modElem_bank (s : State) (e : Nat) (f : Elem → Elem) (i : Nat) : (s.modElem e f).bank i = s.bank i := rfl
@[simp] theorem State.modElem_window (s : State) (e : Nat) (f : Elem → Elem) (i : Nat) : (s.modElem e f).window i = s.window i := rfl
@[simp] theorem State.modElem_wordMeta (s : State) (e : Nat) (f : Elem → Elem) (i : Nat) : (s.modElem e f).wordMeta i = s.wordMeta i := rfl
@[simp] theorem State.modElem_sector (s : State) (e : Nat) (f : Elem → Elem) (i : Nat) : (s.modElem e f).sector i = s.sector i := rfl
@[simp] theorem State.modElem_tokens (s : State) (e : Nat) (f : Elem → Elem) (i : Nat) : (s.modElem e f).tokens i = s.tokens i := rfl
@[simp] theorem State.modElem_reqOpt (s : State) (e : Nat) (f : Elem → Elem) (i : Nat) : (s.modElem e f).req? i = s.req? i := rfl
@[simp] theorem State.modElem_taskOfGrove (s : State) (e : Nat) (f : Elem → Elem) (i : Nat) : (s.modElem e f).taskOfGrove i = s.taskOfGrove i := rfl
@[simp] theorem State.modElem_taskOfElem (s : State) (e : Nat) (f : Elem → Elem) (i : Nat) : (s.modElem e f).taskOfElem i = s.taskOfElem i := rfl
@[simp] theorem State.modElem_partOfGrove (s : State) (e : Nat) (f : Elem → Elem) (i : Nat) : (s.modElem e f).partOfGrove i = s.partOfGrove i := rfl
@[simp] theorem State.modElem_supervising (s : State) (e : Nat) (f : Elem → Elem) : (s.modElem e f).supervising = s.supervising := rfl

@[simp] theorem State.setGrove_agenda (s : State) (g : Nat) (x : Grove) : (s.setGrove g x).agenda = s.agenda := rfl
@[simp] theorem State.setGrove_moveNo (s : State) (g : Nat) (x : Grove) : (s.setGrove g x).moveNo = s.moveNo := rfl
@[simp] theorem State.setGrove_cur (s : State) (g : Nat) (x : Grove) : (s.setGrove g x).cur = s.cur := rfl
@[simp] theorem State.setGrove_nextReq (s : State) (g : Nat) (x : Grove) : (s.setGrove g x).nextReq = s.nextReq := rfl
@[simp] theorem State.setGrove_nextTok (s : State) (g : Nat) (x : Grove) : (s.setGrove g x).nextTok = s.nextTok := rfl
@[simp] theorem State.setGrove_tb (s : State) (g : Nat) (x : Grove) : (s.setGrove g x).tb = s.tb := rfl
@[simp] theorem State.setGrove_elems (s : State) (g : Nat) (x : Grove) : (s.setGrove g x).elems = s.elems := rfl
@[simp] theorem State.setGrove_mem (s : State) (g : Nat) (x : Grove) : (s.setGrove g x).mem = s.mem := rfl
@[simp] theorem State.setGrove_words (s : State) (g : Nat) (x : Grove) : (s.setGrove g x).words = s.words := rfl
@[simp] theorem State.setGrove_sectors (s : State) (g : Nat) (x : Grove) : (s.setGrove g x).sectors = s.sectors := rfl
@[simp] theorem State.setGrove_voids (s : State) (g : Nat) (x : Grove) : (s.setGrove g x).voids = s.voids := rfl
@[simp] theorem State.setGrove_waiting (s : State) (g : Nat) (x : Grove) : (s.setGrove g x).waiting = s.waiting := rfl
@[simp] theorem State.setGrove_windows (s : State) (g : Nat) (x : Grove) : (s.setGrove g x).windows = s.windows := rfl
@[simp] theorem State.setGrove_banks (s : State) (g : Nat) (x : Grove) : (s.setGrove g x).banks = s.banks := rfl
@[simp] theorem State.setGrove_fabric (s : State) (g : Nat) (x : Grove) : (s.setGrove g x).fabric = s.fabric := rfl
@[simp] theorem State.setGrove_outst (s : State) (g : Nat) (x : Grove) : (s.setGrove g x).outst = s.outst := rfl
@[simp] theorem State.setGrove_reqs (s : State) (g : Nat) (x : Grove) : (s.setGrove g x).reqs = s.reqs := rfl
@[simp] theorem State.setGrove_ports (s : State) (g : Nat) (x : Grove) : (s.setGrove g x).ports = s.ports := rfl
@[simp] theorem State.setGrove_tasks (s : State) (g : Nat) (x : Grove) : (s.setGrove g x).tasks = s.tasks := rfl
@[simp] theorem State.setGrove_tags (s : State) (g : Nat) (x : Grove) : (s.setGrove g x).tags = s.tags := rfl
@[simp] theorem State.setGrove_ctxs (s : State) (g : Nat) (x : Grove) : (s.setGrove g x).ctxs = s.ctxs := rfl
@[simp] theorem State.setGrove_parts (s : State) (g : Nat) (x : Grove) : (s.setGrove g x).parts = s.parts := rfl
@[simp] theorem State.setGrove_staged (s : State) (g : Nat) (x : Grove) : (s.setGrove g x).staged = s.staged := rfl
@[simp] theorem State.setGrove_serial (s : State) (g : Nat) (x : Grove) : (s.setGrove g x).serial = s.serial := rfl
@[simp] theorem State.setGrove_guardPool (s : State) (g : Nat) (x : Grove) : (s.setGrove g x).guardPool = s.guardPool := rfl
@[simp] theorem State.setGrove_totals (s : State) (g : Nat) (x : Grove) : (s.setGrove g x).totals = s.totals := rfl
@[simp] theorem State.setGrove_stage (s : State) (g : Nat) (x : Grove) : (s.setGrove g x).stage = s.stage := rfl
@[simp] theorem State.setGrove_err (s : State) (g : Nat) (x : Grove) : (s.setGrove g x).err = s.err := rfl
@[simp] theorem State.setGrove_offer (s : State) (g : Nat) (x : Grove) : (s.setGrove g x).offer = s.offer := rfl
@[simp] theorem State.setGrove_ack (s : State) (g : Nat) (x : Grove) : (s.setGrove g x).ack = s.ack := rfl
@[simp] theorem State.setGrove_ackHigh (s : State) (g : Nat) (x : Grove) : (s.setGrove g x).ackHigh = s.ackHigh := rfl
@[simp] theorem State.setGrove_negotiated (s : State) (g : Nat) (x : Grove) : (s.setGrove g x).negotiated = s.negotiated := rfl
@[simp] theorem State.setGrove_moduleNo (s : State) (g : Nat) (x : Grove) : (s.setGrove g x).moduleNo = s.moduleNo := rfl
@[simp] theorem State.setGrove_hops (s : State) (g : Nat) (x : Grove) : (s.setGrove g x).hops = s.hops := rfl
@[simp] theorem State.setGrove_retired (s : State) (g : Nat) (x : Grove) : (s.setGrove g x).retired = s.retired := rfl
@[simp] theorem State.setGrove_eventLog (s : State) (g : Nat) (x : Grove) : (s.setGrove g x).eventLog = s.eventLog := rfl
@[simp] theorem State.setGrove_measures (s : State) (g : Nat) (x : Grove) : (s.setGrove g x).measures = s.measures := rfl
@[simp] theorem State.setGrove_measureLog (s : State) (g : Nat) (x : Grove) : (s.setGrove g x).measureLog = s.measureLog := rfl
@[simp] theorem State.setGrove_aliasKey (s : State) (g : Nat) (x : Grove) : (s.setGrove g x).aliasKey = s.aliasKey := rfl
@[simp] theorem State.setGrove_slotA (s : State) (g : Nat) (x : Grove) : (s.setGrove g x).slotA = s.slotA := rfl
@[simp] theorem State.setGrove_slotB (s : State) (g : Nat) (x : Grove) : (s.setGrove g x).slotB = s.slotB := rfl
@[simp] theorem State.setGrove_fuse (s : State) (g : Nat) (x : Grove) : (s.setGrove g x).fuse = s.fuse := rfl
@[simp] theorem State.setGrove_running (s : State) (g : Nat) (x : Grove) : (s.setGrove g x).running = s.running := rfl
@[simp] theorem State.setGrove_ideKeys (s : State) (g : Nat) (x : Grove) : (s.setGrove g x).ideKeys = s.ideKeys := rfl
@[simp] theorem State.setGrove_sessions (s : State) (g : Nat) (x : Grove) : (s.setGrove g x).sessions = s.sessions := rfl
@[simp] theorem State.setGrove_keys (s : State) (g : Nat) (x : Grove) : (s.setGrove g x).keys = s.keys := rfl
@[simp] theorem State.setGrove_sectorKeys (s : State) (g : Nat) (x : Grove) : (s.setGrove g x).sectorKeys = s.sectorKeys := rfl
@[simp] theorem State.setGrove_badMacs (s : State) (g : Nat) (x : Grove) : (s.setGrove g x).badMacs = s.badMacs := rfl
@[simp] theorem State.setGrove_msix (s : State) (g : Nat) (x : Grove) : (s.setGrove g x).msix = s.msix := rfl
@[simp] theorem State.setGrove_routes (s : State) (g : Nat) (x : Grove) : (s.setGrove g x).routes = s.routes := rfl
@[simp] theorem State.setGrove_hostQueue (s : State) (g : Nat) (x : Grove) : (s.setGrove g x).hostQueue = s.hostQueue := rfl
@[simp] theorem State.setGrove_berovo (s : State) (g : Nat) (x : Grove) : (s.setGrove g x).berovo = s.berovo := rfl
@[simp] theorem State.setGrove_pours (s : State) (g : Nat) (x : Grove) : (s.setGrove g x).pours = s.pours := rfl
@[simp] theorem State.setGrove_outputs (s : State) (g : Nat) (x : Grove) : (s.setGrove g x).outputs = s.outputs := rfl
@[simp] theorem State.setGrove_lateReplies (s : State) (g : Nat) (x : Grove) : (s.setGrove g x).lateReplies = s.lateReplies := rfl
@[simp] theorem State.setGrove_staleRids (s : State) (g : Nat) (x : Grove) : (s.setGrove g x).staleRids = s.staleRids := rfl
@[simp] theorem State.setGrove_branchSince (s : State) (g : Nat) (x : Grove) : (s.setGrove g x).branchSince = s.branchSince := rfl
@[simp] theorem State.setGrove_elem (s : State) (g : Nat) (x : Grove) (i : Nat) : (s.setGrove g x).elem i = s.elem i := rfl
@[simp] theorem State.setGrove_task (s : State) (g : Nat) (x : Grove) (i : Nat) : (s.setGrove g x).task i = s.task i := rfl
@[simp] theorem State.setGrove_taskOpt (s : State) (g : Nat) (x : Grove) (i : Nat) : (s.setGrove g x).task? i = s.task? i := rfl
@[simp] theorem State.setGrove_ctx (s : State) (g : Nat) (x : Grove) (i : Nat) : (s.setGrove g x).ctx i = s.ctx i := rfl
@[simp] theorem State.setGrove_part (s : State) (g : Nat) (x : Grove) (i : Nat) : (s.setGrove g x).part i = s.part i := rfl
@[simp] theorem State.setGrove_port (s : State) (g : Nat) (x : Grove) (i : Nat) : (s.setGrove g x).port i = s.port i := rfl
@[simp] theorem State.setGrove_bank (s : State) (g : Nat) (x : Grove) (i : Nat) : (s.setGrove g x).bank i = s.bank i := rfl
@[simp] theorem State.setGrove_window (s : State) (g : Nat) (x : Grove) (i : Nat) : (s.setGrove g x).window i = s.window i := rfl
@[simp] theorem State.setGrove_wordMeta (s : State) (g : Nat) (x : Grove) (i : Nat) : (s.setGrove g x).wordMeta i = s.wordMeta i := rfl
@[simp] theorem State.setGrove_sector (s : State) (g : Nat) (x : Grove) (i : Nat) : (s.setGrove g x).sector i = s.sector i := rfl
@[simp] theorem State.setGrove_tokens (s : State) (g : Nat) (x : Grove) (i : Nat) : (s.setGrove g x).tokens i = s.tokens i := rfl
@[simp] theorem State.setGrove_reqOpt (s : State) (g : Nat) (x : Grove) (i : Nat) : (s.setGrove g x).req? i = s.req? i := rfl
@[simp] theorem State.setGrove_partOfGrove (s : State) (g : Nat) (x : Grove) (i : Nat) : (s.setGrove g x).partOfGrove i = s.partOfGrove i := rfl

@[simp] theorem State.modGrove_agenda (s : State) (g : Nat) (f : Grove → Grove) : (s.modGrove g f).agenda = s.agenda := rfl
@[simp] theorem State.modGrove_moveNo (s : State) (g : Nat) (f : Grove → Grove) : (s.modGrove g f).moveNo = s.moveNo := rfl
@[simp] theorem State.modGrove_cur (s : State) (g : Nat) (f : Grove → Grove) : (s.modGrove g f).cur = s.cur := rfl
@[simp] theorem State.modGrove_nextReq (s : State) (g : Nat) (f : Grove → Grove) : (s.modGrove g f).nextReq = s.nextReq := rfl
@[simp] theorem State.modGrove_nextTok (s : State) (g : Nat) (f : Grove → Grove) : (s.modGrove g f).nextTok = s.nextTok := rfl
@[simp] theorem State.modGrove_tb (s : State) (g : Nat) (f : Grove → Grove) : (s.modGrove g f).tb = s.tb := rfl
@[simp] theorem State.modGrove_elems (s : State) (g : Nat) (f : Grove → Grove) : (s.modGrove g f).elems = s.elems := rfl
@[simp] theorem State.modGrove_mem (s : State) (g : Nat) (f : Grove → Grove) : (s.modGrove g f).mem = s.mem := rfl
@[simp] theorem State.modGrove_words (s : State) (g : Nat) (f : Grove → Grove) : (s.modGrove g f).words = s.words := rfl
@[simp] theorem State.modGrove_sectors (s : State) (g : Nat) (f : Grove → Grove) : (s.modGrove g f).sectors = s.sectors := rfl
@[simp] theorem State.modGrove_voids (s : State) (g : Nat) (f : Grove → Grove) : (s.modGrove g f).voids = s.voids := rfl
@[simp] theorem State.modGrove_waiting (s : State) (g : Nat) (f : Grove → Grove) : (s.modGrove g f).waiting = s.waiting := rfl
@[simp] theorem State.modGrove_windows (s : State) (g : Nat) (f : Grove → Grove) : (s.modGrove g f).windows = s.windows := rfl
@[simp] theorem State.modGrove_banks (s : State) (g : Nat) (f : Grove → Grove) : (s.modGrove g f).banks = s.banks := rfl
@[simp] theorem State.modGrove_fabric (s : State) (g : Nat) (f : Grove → Grove) : (s.modGrove g f).fabric = s.fabric := rfl
@[simp] theorem State.modGrove_outst (s : State) (g : Nat) (f : Grove → Grove) : (s.modGrove g f).outst = s.outst := rfl
@[simp] theorem State.modGrove_reqs (s : State) (g : Nat) (f : Grove → Grove) : (s.modGrove g f).reqs = s.reqs := rfl
@[simp] theorem State.modGrove_ports (s : State) (g : Nat) (f : Grove → Grove) : (s.modGrove g f).ports = s.ports := rfl
@[simp] theorem State.modGrove_tasks (s : State) (g : Nat) (f : Grove → Grove) : (s.modGrove g f).tasks = s.tasks := rfl
@[simp] theorem State.modGrove_tags (s : State) (g : Nat) (f : Grove → Grove) : (s.modGrove g f).tags = s.tags := rfl
@[simp] theorem State.modGrove_ctxs (s : State) (g : Nat) (f : Grove → Grove) : (s.modGrove g f).ctxs = s.ctxs := rfl
@[simp] theorem State.modGrove_parts (s : State) (g : Nat) (f : Grove → Grove) : (s.modGrove g f).parts = s.parts := rfl
@[simp] theorem State.modGrove_staged (s : State) (g : Nat) (f : Grove → Grove) : (s.modGrove g f).staged = s.staged := rfl
@[simp] theorem State.modGrove_serial (s : State) (g : Nat) (f : Grove → Grove) : (s.modGrove g f).serial = s.serial := rfl
@[simp] theorem State.modGrove_guardPool (s : State) (g : Nat) (f : Grove → Grove) : (s.modGrove g f).guardPool = s.guardPool := rfl
@[simp] theorem State.modGrove_totals (s : State) (g : Nat) (f : Grove → Grove) : (s.modGrove g f).totals = s.totals := rfl
@[simp] theorem State.modGrove_stage (s : State) (g : Nat) (f : Grove → Grove) : (s.modGrove g f).stage = s.stage := rfl
@[simp] theorem State.modGrove_err (s : State) (g : Nat) (f : Grove → Grove) : (s.modGrove g f).err = s.err := rfl
@[simp] theorem State.modGrove_offer (s : State) (g : Nat) (f : Grove → Grove) : (s.modGrove g f).offer = s.offer := rfl
@[simp] theorem State.modGrove_ack (s : State) (g : Nat) (f : Grove → Grove) : (s.modGrove g f).ack = s.ack := rfl
@[simp] theorem State.modGrove_ackHigh (s : State) (g : Nat) (f : Grove → Grove) : (s.modGrove g f).ackHigh = s.ackHigh := rfl
@[simp] theorem State.modGrove_negotiated (s : State) (g : Nat) (f : Grove → Grove) : (s.modGrove g f).negotiated = s.negotiated := rfl
@[simp] theorem State.modGrove_moduleNo (s : State) (g : Nat) (f : Grove → Grove) : (s.modGrove g f).moduleNo = s.moduleNo := rfl
@[simp] theorem State.modGrove_hops (s : State) (g : Nat) (f : Grove → Grove) : (s.modGrove g f).hops = s.hops := rfl
@[simp] theorem State.modGrove_retired (s : State) (g : Nat) (f : Grove → Grove) : (s.modGrove g f).retired = s.retired := rfl
@[simp] theorem State.modGrove_eventLog (s : State) (g : Nat) (f : Grove → Grove) : (s.modGrove g f).eventLog = s.eventLog := rfl
@[simp] theorem State.modGrove_measures (s : State) (g : Nat) (f : Grove → Grove) : (s.modGrove g f).measures = s.measures := rfl
@[simp] theorem State.modGrove_measureLog (s : State) (g : Nat) (f : Grove → Grove) : (s.modGrove g f).measureLog = s.measureLog := rfl
@[simp] theorem State.modGrove_aliasKey (s : State) (g : Nat) (f : Grove → Grove) : (s.modGrove g f).aliasKey = s.aliasKey := rfl
@[simp] theorem State.modGrove_slotA (s : State) (g : Nat) (f : Grove → Grove) : (s.modGrove g f).slotA = s.slotA := rfl
@[simp] theorem State.modGrove_slotB (s : State) (g : Nat) (f : Grove → Grove) : (s.modGrove g f).slotB = s.slotB := rfl
@[simp] theorem State.modGrove_fuse (s : State) (g : Nat) (f : Grove → Grove) : (s.modGrove g f).fuse = s.fuse := rfl
@[simp] theorem State.modGrove_running (s : State) (g : Nat) (f : Grove → Grove) : (s.modGrove g f).running = s.running := rfl
@[simp] theorem State.modGrove_ideKeys (s : State) (g : Nat) (f : Grove → Grove) : (s.modGrove g f).ideKeys = s.ideKeys := rfl
@[simp] theorem State.modGrove_sessions (s : State) (g : Nat) (f : Grove → Grove) : (s.modGrove g f).sessions = s.sessions := rfl
@[simp] theorem State.modGrove_keys (s : State) (g : Nat) (f : Grove → Grove) : (s.modGrove g f).keys = s.keys := rfl
@[simp] theorem State.modGrove_sectorKeys (s : State) (g : Nat) (f : Grove → Grove) : (s.modGrove g f).sectorKeys = s.sectorKeys := rfl
@[simp] theorem State.modGrove_badMacs (s : State) (g : Nat) (f : Grove → Grove) : (s.modGrove g f).badMacs = s.badMacs := rfl
@[simp] theorem State.modGrove_msix (s : State) (g : Nat) (f : Grove → Grove) : (s.modGrove g f).msix = s.msix := rfl
@[simp] theorem State.modGrove_routes (s : State) (g : Nat) (f : Grove → Grove) : (s.modGrove g f).routes = s.routes := rfl
@[simp] theorem State.modGrove_hostQueue (s : State) (g : Nat) (f : Grove → Grove) : (s.modGrove g f).hostQueue = s.hostQueue := rfl
@[simp] theorem State.modGrove_berovo (s : State) (g : Nat) (f : Grove → Grove) : (s.modGrove g f).berovo = s.berovo := rfl
@[simp] theorem State.modGrove_pours (s : State) (g : Nat) (f : Grove → Grove) : (s.modGrove g f).pours = s.pours := rfl
@[simp] theorem State.modGrove_outputs (s : State) (g : Nat) (f : Grove → Grove) : (s.modGrove g f).outputs = s.outputs := rfl
@[simp] theorem State.modGrove_lateReplies (s : State) (g : Nat) (f : Grove → Grove) : (s.modGrove g f).lateReplies = s.lateReplies := rfl
@[simp] theorem State.modGrove_staleRids (s : State) (g : Nat) (f : Grove → Grove) : (s.modGrove g f).staleRids = s.staleRids := rfl
@[simp] theorem State.modGrove_branchSince (s : State) (g : Nat) (f : Grove → Grove) : (s.modGrove g f).branchSince = s.branchSince := rfl
@[simp] theorem State.modGrove_elem (s : State) (g : Nat) (f : Grove → Grove) (i : Nat) : (s.modGrove g f).elem i = s.elem i := rfl
@[simp] theorem State.modGrove_task (s : State) (g : Nat) (f : Grove → Grove) (i : Nat) : (s.modGrove g f).task i = s.task i := rfl
@[simp] theorem State.modGrove_taskOpt (s : State) (g : Nat) (f : Grove → Grove) (i : Nat) : (s.modGrove g f).task? i = s.task? i := rfl
@[simp] theorem State.modGrove_ctx (s : State) (g : Nat) (f : Grove → Grove) (i : Nat) : (s.modGrove g f).ctx i = s.ctx i := rfl
@[simp] theorem State.modGrove_part (s : State) (g : Nat) (f : Grove → Grove) (i : Nat) : (s.modGrove g f).part i = s.part i := rfl
@[simp] theorem State.modGrove_port (s : State) (g : Nat) (f : Grove → Grove) (i : Nat) : (s.modGrove g f).port i = s.port i := rfl
@[simp] theorem State.modGrove_bank (s : State) (g : Nat) (f : Grove → Grove) (i : Nat) : (s.modGrove g f).bank i = s.bank i := rfl
@[simp] theorem State.modGrove_window (s : State) (g : Nat) (f : Grove → Grove) (i : Nat) : (s.modGrove g f).window i = s.window i := rfl
@[simp] theorem State.modGrove_wordMeta (s : State) (g : Nat) (f : Grove → Grove) (i : Nat) : (s.modGrove g f).wordMeta i = s.wordMeta i := rfl
@[simp] theorem State.modGrove_sector (s : State) (g : Nat) (f : Grove → Grove) (i : Nat) : (s.modGrove g f).sector i = s.sector i := rfl
@[simp] theorem State.modGrove_tokens (s : State) (g : Nat) (f : Grove → Grove) (i : Nat) : (s.modGrove g f).tokens i = s.tokens i := rfl
@[simp] theorem State.modGrove_reqOpt (s : State) (g : Nat) (f : Grove → Grove) (i : Nat) : (s.modGrove g f).req? i = s.req? i := rfl
@[simp] theorem State.modGrove_partOfGrove (s : State) (g : Nat) (f : Grove → Grove) (i : Nat) : (s.modGrove g f).partOfGrove i = s.partOfGrove i := rfl

@[simp] theorem State.setTask_agenda (s : State) (t : Nat) (x : Task) : (s.setTask t x).agenda = s.agenda := rfl
@[simp] theorem State.setTask_moveNo (s : State) (t : Nat) (x : Task) : (s.setTask t x).moveNo = s.moveNo := rfl
@[simp] theorem State.setTask_cur (s : State) (t : Nat) (x : Task) : (s.setTask t x).cur = s.cur := rfl
@[simp] theorem State.setTask_nextReq (s : State) (t : Nat) (x : Task) : (s.setTask t x).nextReq = s.nextReq := rfl
@[simp] theorem State.setTask_nextTok (s : State) (t : Nat) (x : Task) : (s.setTask t x).nextTok = s.nextTok := rfl
@[simp] theorem State.setTask_tb (s : State) (t : Nat) (x : Task) : (s.setTask t x).tb = s.tb := rfl
@[simp] theorem State.setTask_elems (s : State) (t : Nat) (x : Task) : (s.setTask t x).elems = s.elems := rfl
@[simp] theorem State.setTask_groves (s : State) (t : Nat) (x : Task) : (s.setTask t x).groves = s.groves := rfl
@[simp] theorem State.setTask_mem (s : State) (t : Nat) (x : Task) : (s.setTask t x).mem = s.mem := rfl
@[simp] theorem State.setTask_words (s : State) (t : Nat) (x : Task) : (s.setTask t x).words = s.words := rfl
@[simp] theorem State.setTask_sectors (s : State) (t : Nat) (x : Task) : (s.setTask t x).sectors = s.sectors := rfl
@[simp] theorem State.setTask_voids (s : State) (t : Nat) (x : Task) : (s.setTask t x).voids = s.voids := rfl
@[simp] theorem State.setTask_waiting (s : State) (t : Nat) (x : Task) : (s.setTask t x).waiting = s.waiting := rfl
@[simp] theorem State.setTask_windows (s : State) (t : Nat) (x : Task) : (s.setTask t x).windows = s.windows := rfl
@[simp] theorem State.setTask_banks (s : State) (t : Nat) (x : Task) : (s.setTask t x).banks = s.banks := rfl
@[simp] theorem State.setTask_fabric (s : State) (t : Nat) (x : Task) : (s.setTask t x).fabric = s.fabric := rfl
@[simp] theorem State.setTask_outst (s : State) (t : Nat) (x : Task) : (s.setTask t x).outst = s.outst := rfl
@[simp] theorem State.setTask_reqs (s : State) (t : Nat) (x : Task) : (s.setTask t x).reqs = s.reqs := rfl
@[simp] theorem State.setTask_ports (s : State) (t : Nat) (x : Task) : (s.setTask t x).ports = s.ports := rfl
@[simp] theorem State.setTask_tags (s : State) (t : Nat) (x : Task) : (s.setTask t x).tags = s.tags := rfl
@[simp] theorem State.setTask_ctxs (s : State) (t : Nat) (x : Task) : (s.setTask t x).ctxs = s.ctxs := rfl
@[simp] theorem State.setTask_parts (s : State) (t : Nat) (x : Task) : (s.setTask t x).parts = s.parts := rfl
@[simp] theorem State.setTask_staged (s : State) (t : Nat) (x : Task) : (s.setTask t x).staged = s.staged := rfl
@[simp] theorem State.setTask_serial (s : State) (t : Nat) (x : Task) : (s.setTask t x).serial = s.serial := rfl
@[simp] theorem State.setTask_guardPool (s : State) (t : Nat) (x : Task) : (s.setTask t x).guardPool = s.guardPool := rfl
@[simp] theorem State.setTask_totals (s : State) (t : Nat) (x : Task) : (s.setTask t x).totals = s.totals := rfl
@[simp] theorem State.setTask_stage (s : State) (t : Nat) (x : Task) : (s.setTask t x).stage = s.stage := rfl
@[simp] theorem State.setTask_err (s : State) (t : Nat) (x : Task) : (s.setTask t x).err = s.err := rfl
@[simp] theorem State.setTask_offer (s : State) (t : Nat) (x : Task) : (s.setTask t x).offer = s.offer := rfl
@[simp] theorem State.setTask_ack (s : State) (t : Nat) (x : Task) : (s.setTask t x).ack = s.ack := rfl
@[simp] theorem State.setTask_ackHigh (s : State) (t : Nat) (x : Task) : (s.setTask t x).ackHigh = s.ackHigh := rfl
@[simp] theorem State.setTask_negotiated (s : State) (t : Nat) (x : Task) : (s.setTask t x).negotiated = s.negotiated := rfl
@[simp] theorem State.setTask_moduleNo (s : State) (t : Nat) (x : Task) : (s.setTask t x).moduleNo = s.moduleNo := rfl
@[simp] theorem State.setTask_hops (s : State) (t : Nat) (x : Task) : (s.setTask t x).hops = s.hops := rfl
@[simp] theorem State.setTask_retired (s : State) (t : Nat) (x : Task) : (s.setTask t x).retired = s.retired := rfl
@[simp] theorem State.setTask_eventLog (s : State) (t : Nat) (x : Task) : (s.setTask t x).eventLog = s.eventLog := rfl
@[simp] theorem State.setTask_measures (s : State) (t : Nat) (x : Task) : (s.setTask t x).measures = s.measures := rfl
@[simp] theorem State.setTask_measureLog (s : State) (t : Nat) (x : Task) : (s.setTask t x).measureLog = s.measureLog := rfl
@[simp] theorem State.setTask_aliasKey (s : State) (t : Nat) (x : Task) : (s.setTask t x).aliasKey = s.aliasKey := rfl
@[simp] theorem State.setTask_slotA (s : State) (t : Nat) (x : Task) : (s.setTask t x).slotA = s.slotA := rfl
@[simp] theorem State.setTask_slotB (s : State) (t : Nat) (x : Task) : (s.setTask t x).slotB = s.slotB := rfl
@[simp] theorem State.setTask_fuse (s : State) (t : Nat) (x : Task) : (s.setTask t x).fuse = s.fuse := rfl
@[simp] theorem State.setTask_running (s : State) (t : Nat) (x : Task) : (s.setTask t x).running = s.running := rfl
@[simp] theorem State.setTask_ideKeys (s : State) (t : Nat) (x : Task) : (s.setTask t x).ideKeys = s.ideKeys := rfl
@[simp] theorem State.setTask_sessions (s : State) (t : Nat) (x : Task) : (s.setTask t x).sessions = s.sessions := rfl
@[simp] theorem State.setTask_keys (s : State) (t : Nat) (x : Task) : (s.setTask t x).keys = s.keys := rfl
@[simp] theorem State.setTask_sectorKeys (s : State) (t : Nat) (x : Task) : (s.setTask t x).sectorKeys = s.sectorKeys := rfl
@[simp] theorem State.setTask_badMacs (s : State) (t : Nat) (x : Task) : (s.setTask t x).badMacs = s.badMacs := rfl
@[simp] theorem State.setTask_msix (s : State) (t : Nat) (x : Task) : (s.setTask t x).msix = s.msix := rfl
@[simp] theorem State.setTask_routes (s : State) (t : Nat) (x : Task) : (s.setTask t x).routes = s.routes := rfl
@[simp] theorem State.setTask_hostQueue (s : State) (t : Nat) (x : Task) : (s.setTask t x).hostQueue = s.hostQueue := rfl
@[simp] theorem State.setTask_berovo (s : State) (t : Nat) (x : Task) : (s.setTask t x).berovo = s.berovo := rfl
@[simp] theorem State.setTask_pours (s : State) (t : Nat) (x : Task) : (s.setTask t x).pours = s.pours := rfl
@[simp] theorem State.setTask_outputs (s : State) (t : Nat) (x : Task) : (s.setTask t x).outputs = s.outputs := rfl
@[simp] theorem State.setTask_lateReplies (s : State) (t : Nat) (x : Task) : (s.setTask t x).lateReplies = s.lateReplies := rfl
@[simp] theorem State.setTask_staleRids (s : State) (t : Nat) (x : Task) : (s.setTask t x).staleRids = s.staleRids := rfl
@[simp] theorem State.setTask_branchSince (s : State) (t : Nat) (x : Task) : (s.setTask t x).branchSince = s.branchSince := rfl
@[simp] theorem State.setTask_elem (s : State) (t : Nat) (x : Task) (i : Nat) : (s.setTask t x).elem i = s.elem i := rfl
@[simp] theorem State.setTask_grove (s : State) (t : Nat) (x : Task) (i : Nat) : (s.setTask t x).grove i = s.grove i := rfl
@[simp] theorem State.setTask_ctx (s : State) (t : Nat) (x : Task) (i : Nat) : (s.setTask t x).ctx i = s.ctx i := rfl
@[simp] theorem State.setTask_part (s : State) (t : Nat) (x : Task) (i : Nat) : (s.setTask t x).part i = s.part i := rfl
@[simp] theorem State.setTask_port (s : State) (t : Nat) (x : Task) (i : Nat) : (s.setTask t x).port i = s.port i := rfl
@[simp] theorem State.setTask_bank (s : State) (t : Nat) (x : Task) (i : Nat) : (s.setTask t x).bank i = s.bank i := rfl
@[simp] theorem State.setTask_window (s : State) (t : Nat) (x : Task) (i : Nat) : (s.setTask t x).window i = s.window i := rfl
@[simp] theorem State.setTask_wordMeta (s : State) (t : Nat) (x : Task) (i : Nat) : (s.setTask t x).wordMeta i = s.wordMeta i := rfl
@[simp] theorem State.setTask_sector (s : State) (t : Nat) (x : Task) (i : Nat) : (s.setTask t x).sector i = s.sector i := rfl
@[simp] theorem State.setTask_tokens (s : State) (t : Nat) (x : Task) (i : Nat) : (s.setTask t x).tokens i = s.tokens i := rfl
@[simp] theorem State.setTask_reqOpt (s : State) (t : Nat) (x : Task) (i : Nat) : (s.setTask t x).req? i = s.req? i := rfl
@[simp] theorem State.setTask_taskOfGrove (s : State) (t : Nat) (x : Task) (i : Nat) : (s.setTask t x).taskOfGrove i = s.taskOfGrove i := rfl
@[simp] theorem State.setTask_taskOfElem (s : State) (t : Nat) (x : Task) (i : Nat) : (s.setTask t x).taskOfElem i = s.taskOfElem i := rfl
@[simp] theorem State.setTask_partOfGrove (s : State) (t : Nat) (x : Task) (i : Nat) : (s.setTask t x).partOfGrove i = s.partOfGrove i := rfl
@[simp] theorem State.setTask_supervising (s : State) (t : Nat) (x : Task) : (s.setTask t x).supervising = s.supervising := rfl

@[simp] theorem State.modTask_agenda (s : State) (t : Nat) (f : Task → Task) : (s.modTask t f).agenda = s.agenda := by unfold State.modTask; split <;> rfl
@[simp] theorem State.modTask_moveNo (s : State) (t : Nat) (f : Task → Task) : (s.modTask t f).moveNo = s.moveNo := by unfold State.modTask; split <;> rfl
@[simp] theorem State.modTask_cur (s : State) (t : Nat) (f : Task → Task) : (s.modTask t f).cur = s.cur := by unfold State.modTask; split <;> rfl
@[simp] theorem State.modTask_nextReq (s : State) (t : Nat) (f : Task → Task) : (s.modTask t f).nextReq = s.nextReq := by unfold State.modTask; split <;> rfl
@[simp] theorem State.modTask_nextTok (s : State) (t : Nat) (f : Task → Task) : (s.modTask t f).nextTok = s.nextTok := by unfold State.modTask; split <;> rfl
@[simp] theorem State.modTask_tb (s : State) (t : Nat) (f : Task → Task) : (s.modTask t f).tb = s.tb := by unfold State.modTask; split <;> rfl
@[simp] theorem State.modTask_elems (s : State) (t : Nat) (f : Task → Task) : (s.modTask t f).elems = s.elems := by unfold State.modTask; split <;> rfl
@[simp] theorem State.modTask_groves (s : State) (t : Nat) (f : Task → Task) : (s.modTask t f).groves = s.groves := by unfold State.modTask; split <;> rfl
@[simp] theorem State.modTask_mem (s : State) (t : Nat) (f : Task → Task) : (s.modTask t f).mem = s.mem := by unfold State.modTask; split <;> rfl
@[simp] theorem State.modTask_words (s : State) (t : Nat) (f : Task → Task) : (s.modTask t f).words = s.words := by unfold State.modTask; split <;> rfl
@[simp] theorem State.modTask_sectors (s : State) (t : Nat) (f : Task → Task) : (s.modTask t f).sectors = s.sectors := by unfold State.modTask; split <;> rfl
@[simp] theorem State.modTask_voids (s : State) (t : Nat) (f : Task → Task) : (s.modTask t f).voids = s.voids := by unfold State.modTask; split <;> rfl
@[simp] theorem State.modTask_waiting (s : State) (t : Nat) (f : Task → Task) : (s.modTask t f).waiting = s.waiting := by unfold State.modTask; split <;> rfl
@[simp] theorem State.modTask_windows (s : State) (t : Nat) (f : Task → Task) : (s.modTask t f).windows = s.windows := by unfold State.modTask; split <;> rfl
@[simp] theorem State.modTask_banks (s : State) (t : Nat) (f : Task → Task) : (s.modTask t f).banks = s.banks := by unfold State.modTask; split <;> rfl
@[simp] theorem State.modTask_fabric (s : State) (t : Nat) (f : Task → Task) : (s.modTask t f).fabric = s.fabric := by unfold State.modTask; split <;> rfl
@[simp] theorem State.modTask_outst (s : State) (t : Nat) (f : Task → Task) : (s.modTask t f).outst = s.outst := by unfold State.modTask; split <;> rfl
@[simp] theorem State.modTask_reqs (s : State) (t : Nat) (f : Task → Task) : (s.modTask t f).reqs = s.reqs := by unfold State.modTask; split <;> rfl
@[simp] theorem State.modTask_ports (s : State) (t : Nat) (f : Task → Task) : (s.modTask t f).ports = s.ports := by unfold State.modTask; split <;> rfl
@[simp] theorem State.modTask_tags (s : State) (t : Nat) (f : Task → Task) : (s.modTask t f).tags = s.tags := by unfold State.modTask; split <;> rfl
@[simp] theorem State.modTask_ctxs (s : State) (t : Nat) (f : Task → Task) : (s.modTask t f).ctxs = s.ctxs := by unfold State.modTask; split <;> rfl
@[simp] theorem State.modTask_parts (s : State) (t : Nat) (f : Task → Task) : (s.modTask t f).parts = s.parts := by unfold State.modTask; split <;> rfl
@[simp] theorem State.modTask_staged (s : State) (t : Nat) (f : Task → Task) : (s.modTask t f).staged = s.staged := by unfold State.modTask; split <;> rfl
@[simp] theorem State.modTask_serial (s : State) (t : Nat) (f : Task → Task) : (s.modTask t f).serial = s.serial := by unfold State.modTask; split <;> rfl
@[simp] theorem State.modTask_guardPool (s : State) (t : Nat) (f : Task → Task) : (s.modTask t f).guardPool = s.guardPool := by unfold State.modTask; split <;> rfl
@[simp] theorem State.modTask_totals (s : State) (t : Nat) (f : Task → Task) : (s.modTask t f).totals = s.totals := by unfold State.modTask; split <;> rfl
@[simp] theorem State.modTask_stage (s : State) (t : Nat) (f : Task → Task) : (s.modTask t f).stage = s.stage := by unfold State.modTask; split <;> rfl
@[simp] theorem State.modTask_err (s : State) (t : Nat) (f : Task → Task) : (s.modTask t f).err = s.err := by unfold State.modTask; split <;> rfl
@[simp] theorem State.modTask_offer (s : State) (t : Nat) (f : Task → Task) : (s.modTask t f).offer = s.offer := by unfold State.modTask; split <;> rfl
@[simp] theorem State.modTask_ack (s : State) (t : Nat) (f : Task → Task) : (s.modTask t f).ack = s.ack := by unfold State.modTask; split <;> rfl
@[simp] theorem State.modTask_ackHigh (s : State) (t : Nat) (f : Task → Task) : (s.modTask t f).ackHigh = s.ackHigh := by unfold State.modTask; split <;> rfl
@[simp] theorem State.modTask_negotiated (s : State) (t : Nat) (f : Task → Task) : (s.modTask t f).negotiated = s.negotiated := by unfold State.modTask; split <;> rfl
@[simp] theorem State.modTask_moduleNo (s : State) (t : Nat) (f : Task → Task) : (s.modTask t f).moduleNo = s.moduleNo := by unfold State.modTask; split <;> rfl
@[simp] theorem State.modTask_hops (s : State) (t : Nat) (f : Task → Task) : (s.modTask t f).hops = s.hops := by unfold State.modTask; split <;> rfl
@[simp] theorem State.modTask_retired (s : State) (t : Nat) (f : Task → Task) : (s.modTask t f).retired = s.retired := by unfold State.modTask; split <;> rfl
@[simp] theorem State.modTask_eventLog (s : State) (t : Nat) (f : Task → Task) : (s.modTask t f).eventLog = s.eventLog := by unfold State.modTask; split <;> rfl
@[simp] theorem State.modTask_measures (s : State) (t : Nat) (f : Task → Task) : (s.modTask t f).measures = s.measures := by unfold State.modTask; split <;> rfl
@[simp] theorem State.modTask_measureLog (s : State) (t : Nat) (f : Task → Task) : (s.modTask t f).measureLog = s.measureLog := by unfold State.modTask; split <;> rfl
@[simp] theorem State.modTask_aliasKey (s : State) (t : Nat) (f : Task → Task) : (s.modTask t f).aliasKey = s.aliasKey := by unfold State.modTask; split <;> rfl
@[simp] theorem State.modTask_slotA (s : State) (t : Nat) (f : Task → Task) : (s.modTask t f).slotA = s.slotA := by unfold State.modTask; split <;> rfl
@[simp] theorem State.modTask_slotB (s : State) (t : Nat) (f : Task → Task) : (s.modTask t f).slotB = s.slotB := by unfold State.modTask; split <;> rfl
@[simp] theorem State.modTask_fuse (s : State) (t : Nat) (f : Task → Task) : (s.modTask t f).fuse = s.fuse := by unfold State.modTask; split <;> rfl
@[simp] theorem State.modTask_running (s : State) (t : Nat) (f : Task → Task) : (s.modTask t f).running = s.running := by unfold State.modTask; split <;> rfl
@[simp] theorem State.modTask_ideKeys (s : State) (t : Nat) (f : Task → Task) : (s.modTask t f).ideKeys = s.ideKeys := by unfold State.modTask; split <;> rfl
@[simp] theorem State.modTask_sessions (s : State) (t : Nat) (f : Task → Task) : (s.modTask t f).sessions = s.sessions := by unfold State.modTask; split <;> rfl
@[simp] theorem State.modTask_keys (s : State) (t : Nat) (f : Task → Task) : (s.modTask t f).keys = s.keys := by unfold State.modTask; split <;> rfl
@[simp] theorem State.modTask_sectorKeys (s : State) (t : Nat) (f : Task → Task) : (s.modTask t f).sectorKeys = s.sectorKeys := by unfold State.modTask; split <;> rfl
@[simp] theorem State.modTask_badMacs (s : State) (t : Nat) (f : Task → Task) : (s.modTask t f).badMacs = s.badMacs := by unfold State.modTask; split <;> rfl
@[simp] theorem State.modTask_msix (s : State) (t : Nat) (f : Task → Task) : (s.modTask t f).msix = s.msix := by unfold State.modTask; split <;> rfl
@[simp] theorem State.modTask_routes (s : State) (t : Nat) (f : Task → Task) : (s.modTask t f).routes = s.routes := by unfold State.modTask; split <;> rfl
@[simp] theorem State.modTask_hostQueue (s : State) (t : Nat) (f : Task → Task) : (s.modTask t f).hostQueue = s.hostQueue := by unfold State.modTask; split <;> rfl
@[simp] theorem State.modTask_berovo (s : State) (t : Nat) (f : Task → Task) : (s.modTask t f).berovo = s.berovo := by unfold State.modTask; split <;> rfl
@[simp] theorem State.modTask_pours (s : State) (t : Nat) (f : Task → Task) : (s.modTask t f).pours = s.pours := by unfold State.modTask; split <;> rfl
@[simp] theorem State.modTask_outputs (s : State) (t : Nat) (f : Task → Task) : (s.modTask t f).outputs = s.outputs := by unfold State.modTask; split <;> rfl
@[simp] theorem State.modTask_lateReplies (s : State) (t : Nat) (f : Task → Task) : (s.modTask t f).lateReplies = s.lateReplies := by unfold State.modTask; split <;> rfl
@[simp] theorem State.modTask_staleRids (s : State) (t : Nat) (f : Task → Task) : (s.modTask t f).staleRids = s.staleRids := by unfold State.modTask; split <;> rfl
@[simp] theorem State.modTask_branchSince (s : State) (t : Nat) (f : Task → Task) : (s.modTask t f).branchSince = s.branchSince := by unfold State.modTask; split <;> rfl
@[simp] theorem State.modTask_elem (s : State) (t : Nat) (f : Task → Task) (i : Nat) : (s.modTask t f).elem i = s.elem i := by unfold State.modTask; split <;> rfl
@[simp] theorem State.modTask_grove (s : State) (t : Nat) (f : Task → Task) (i : Nat) : (s.modTask t f).grove i = s.grove i := by unfold State.modTask; split <;> rfl
@[simp] theorem State.modTask_ctx (s : State) (t : Nat) (f : Task → Task) (i : Nat) : (s.modTask t f).ctx i = s.ctx i := by unfold State.modTask; split <;> rfl
@[simp] theorem State.modTask_part (s : State) (t : Nat) (f : Task → Task) (i : Nat) : (s.modTask t f).part i = s.part i := by unfold State.modTask; split <;> rfl
@[simp] theorem State.modTask_port (s : State) (t : Nat) (f : Task → Task) (i : Nat) : (s.modTask t f).port i = s.port i := by unfold State.modTask; split <;> rfl
@[simp] theorem State.modTask_bank (s : State) (t : Nat) (f : Task → Task) (i : Nat) : (s.modTask t f).bank i = s.bank i := by unfold State.modTask; split <;> rfl
@[simp] theorem State.modTask_window (s : State) (t : Nat) (f : Task → Task) (i : Nat) : (s.modTask t f).window i = s.window i := by unfold State.modTask; split <;> rfl
@[simp] theorem State.modTask_wordMeta (s : State) (t : Nat) (f : Task → Task) (i : Nat) : (s.modTask t f).wordMeta i = s.wordMeta i := by unfold State.modTask; split <;> rfl
@[simp] theorem State.modTask_sector (s : State) (t : Nat) (f : Task → Task) (i : Nat) : (s.modTask t f).sector i = s.sector i := by unfold State.modTask; split <;> rfl
@[simp] theorem State.modTask_tokens (s : State) (t : Nat) (f : Task → Task) (i : Nat) : (s.modTask t f).tokens i = s.tokens i := by unfold State.modTask; split <;> rfl
@[simp] theorem State.modTask_reqOpt (s : State) (t : Nat) (f : Task → Task) (i : Nat) : (s.modTask t f).req? i = s.req? i := by unfold State.modTask; split <;> rfl
@[simp] theorem State.modTask_taskOfGrove (s : State) (t : Nat) (f : Task → Task) (i : Nat) : (s.modTask t f).taskOfGrove i = s.taskOfGrove i := by unfold State.modTask; split <;> rfl
@[simp] theorem State.modTask_taskOfElem (s : State) (t : Nat) (f : Task → Task) (i : Nat) : (s.modTask t f).taskOfElem i = s.taskOfElem i := by unfold State.modTask; split <;> rfl
@[simp] theorem State.modTask_partOfGrove (s : State) (t : Nat) (f : Task → Task) (i : Nat) : (s.modTask t f).partOfGrove i = s.partOfGrove i := by unfold State.modTask; split <;> rfl
@[simp] theorem State.modTask_supervising (s : State) (t : Nat) (f : Task → Task) : (s.modTask t f).supervising = s.supervising := by unfold State.modTask; split <;> rfl

@[simp] theorem State.modCtx_agenda (s : State) (c : Nat) (f : Ctx → Ctx) : (s.modCtx c f).agenda = s.agenda := rfl
@[simp] theorem State.modCtx_moveNo (s : State) (c : Nat) (f : Ctx → Ctx) : (s.modCtx c f).moveNo = s.moveNo := rfl
@[simp] theorem State.modCtx_cur (s : State) (c : Nat) (f : Ctx → Ctx) : (s.modCtx c f).cur = s.cur := rfl
@[simp] theorem State.modCtx_nextReq (s : State) (c : Nat) (f : Ctx → Ctx) : (s.modCtx c f).nextReq = s.nextReq := rfl
@[simp] theorem State.modCtx_nextTok (s : State) (c : Nat) (f : Ctx → Ctx) : (s.modCtx c f).nextTok = s.nextTok := rfl
@[simp] theorem State.modCtx_tb (s : State) (c : Nat) (f : Ctx → Ctx) : (s.modCtx c f).tb = s.tb := rfl
@[simp] theorem State.modCtx_elems (s : State) (c : Nat) (f : Ctx → Ctx) : (s.modCtx c f).elems = s.elems := rfl
@[simp] theorem State.modCtx_groves (s : State) (c : Nat) (f : Ctx → Ctx) : (s.modCtx c f).groves = s.groves := rfl
@[simp] theorem State.modCtx_mem (s : State) (c : Nat) (f : Ctx → Ctx) : (s.modCtx c f).mem = s.mem := rfl
@[simp] theorem State.modCtx_words (s : State) (c : Nat) (f : Ctx → Ctx) : (s.modCtx c f).words = s.words := rfl
@[simp] theorem State.modCtx_sectors (s : State) (c : Nat) (f : Ctx → Ctx) : (s.modCtx c f).sectors = s.sectors := rfl
@[simp] theorem State.modCtx_voids (s : State) (c : Nat) (f : Ctx → Ctx) : (s.modCtx c f).voids = s.voids := rfl
@[simp] theorem State.modCtx_waiting (s : State) (c : Nat) (f : Ctx → Ctx) : (s.modCtx c f).waiting = s.waiting := rfl
@[simp] theorem State.modCtx_windows (s : State) (c : Nat) (f : Ctx → Ctx) : (s.modCtx c f).windows = s.windows := rfl
@[simp] theorem State.modCtx_banks (s : State) (c : Nat) (f : Ctx → Ctx) : (s.modCtx c f).banks = s.banks := rfl
@[simp] theorem State.modCtx_fabric (s : State) (c : Nat) (f : Ctx → Ctx) : (s.modCtx c f).fabric = s.fabric := rfl
@[simp] theorem State.modCtx_outst (s : State) (c : Nat) (f : Ctx → Ctx) : (s.modCtx c f).outst = s.outst := rfl
@[simp] theorem State.modCtx_reqs (s : State) (c : Nat) (f : Ctx → Ctx) : (s.modCtx c f).reqs = s.reqs := rfl
@[simp] theorem State.modCtx_ports (s : State) (c : Nat) (f : Ctx → Ctx) : (s.modCtx c f).ports = s.ports := rfl
@[simp] theorem State.modCtx_tasks (s : State) (c : Nat) (f : Ctx → Ctx) : (s.modCtx c f).tasks = s.tasks := rfl
@[simp] theorem State.modCtx_tags (s : State) (c : Nat) (f : Ctx → Ctx) : (s.modCtx c f).tags = s.tags := rfl
@[simp] theorem State.modCtx_parts (s : State) (c : Nat) (f : Ctx → Ctx) : (s.modCtx c f).parts = s.parts := rfl
@[simp] theorem State.modCtx_staged (s : State) (c : Nat) (f : Ctx → Ctx) : (s.modCtx c f).staged = s.staged := rfl
@[simp] theorem State.modCtx_serial (s : State) (c : Nat) (f : Ctx → Ctx) : (s.modCtx c f).serial = s.serial := rfl
@[simp] theorem State.modCtx_guardPool (s : State) (c : Nat) (f : Ctx → Ctx) : (s.modCtx c f).guardPool = s.guardPool := rfl
@[simp] theorem State.modCtx_totals (s : State) (c : Nat) (f : Ctx → Ctx) : (s.modCtx c f).totals = s.totals := rfl
@[simp] theorem State.modCtx_stage (s : State) (c : Nat) (f : Ctx → Ctx) : (s.modCtx c f).stage = s.stage := rfl
@[simp] theorem State.modCtx_err (s : State) (c : Nat) (f : Ctx → Ctx) : (s.modCtx c f).err = s.err := rfl
@[simp] theorem State.modCtx_offer (s : State) (c : Nat) (f : Ctx → Ctx) : (s.modCtx c f).offer = s.offer := rfl
@[simp] theorem State.modCtx_ack (s : State) (c : Nat) (f : Ctx → Ctx) : (s.modCtx c f).ack = s.ack := rfl
@[simp] theorem State.modCtx_ackHigh (s : State) (c : Nat) (f : Ctx → Ctx) : (s.modCtx c f).ackHigh = s.ackHigh := rfl
@[simp] theorem State.modCtx_negotiated (s : State) (c : Nat) (f : Ctx → Ctx) : (s.modCtx c f).negotiated = s.negotiated := rfl
@[simp] theorem State.modCtx_moduleNo (s : State) (c : Nat) (f : Ctx → Ctx) : (s.modCtx c f).moduleNo = s.moduleNo := rfl
@[simp] theorem State.modCtx_hops (s : State) (c : Nat) (f : Ctx → Ctx) : (s.modCtx c f).hops = s.hops := rfl
@[simp] theorem State.modCtx_retired (s : State) (c : Nat) (f : Ctx → Ctx) : (s.modCtx c f).retired = s.retired := rfl
@[simp] theorem State.modCtx_eventLog (s : State) (c : Nat) (f : Ctx → Ctx) : (s.modCtx c f).eventLog = s.eventLog := rfl
@[simp] theorem State.modCtx_measures (s : State) (c : Nat) (f : Ctx → Ctx) : (s.modCtx c f).measures = s.measures := rfl
@[simp] theorem State.modCtx_measureLog (s : State) (c : Nat) (f : Ctx → Ctx) : (s.modCtx c f).measureLog = s.measureLog := rfl
@[simp] theorem State.modCtx_aliasKey (s : State) (c : Nat) (f : Ctx → Ctx) : (s.modCtx c f).aliasKey = s.aliasKey := rfl
@[simp] theorem State.modCtx_slotA (s : State) (c : Nat) (f : Ctx → Ctx) : (s.modCtx c f).slotA = s.slotA := rfl
@[simp] theorem State.modCtx_slotB (s : State) (c : Nat) (f : Ctx → Ctx) : (s.modCtx c f).slotB = s.slotB := rfl
@[simp] theorem State.modCtx_fuse (s : State) (c : Nat) (f : Ctx → Ctx) : (s.modCtx c f).fuse = s.fuse := rfl
@[simp] theorem State.modCtx_running (s : State) (c : Nat) (f : Ctx → Ctx) : (s.modCtx c f).running = s.running := rfl
@[simp] theorem State.modCtx_ideKeys (s : State) (c : Nat) (f : Ctx → Ctx) : (s.modCtx c f).ideKeys = s.ideKeys := rfl
@[simp] theorem State.modCtx_sessions (s : State) (c : Nat) (f : Ctx → Ctx) : (s.modCtx c f).sessions = s.sessions := rfl
@[simp] theorem State.modCtx_keys (s : State) (c : Nat) (f : Ctx → Ctx) : (s.modCtx c f).keys = s.keys := rfl
@[simp] theorem State.modCtx_sectorKeys (s : State) (c : Nat) (f : Ctx → Ctx) : (s.modCtx c f).sectorKeys = s.sectorKeys := rfl
@[simp] theorem State.modCtx_badMacs (s : State) (c : Nat) (f : Ctx → Ctx) : (s.modCtx c f).badMacs = s.badMacs := rfl
@[simp] theorem State.modCtx_msix (s : State) (c : Nat) (f : Ctx → Ctx) : (s.modCtx c f).msix = s.msix := rfl
@[simp] theorem State.modCtx_routes (s : State) (c : Nat) (f : Ctx → Ctx) : (s.modCtx c f).routes = s.routes := rfl
@[simp] theorem State.modCtx_hostQueue (s : State) (c : Nat) (f : Ctx → Ctx) : (s.modCtx c f).hostQueue = s.hostQueue := rfl
@[simp] theorem State.modCtx_berovo (s : State) (c : Nat) (f : Ctx → Ctx) : (s.modCtx c f).berovo = s.berovo := rfl
@[simp] theorem State.modCtx_pours (s : State) (c : Nat) (f : Ctx → Ctx) : (s.modCtx c f).pours = s.pours := rfl
@[simp] theorem State.modCtx_outputs (s : State) (c : Nat) (f : Ctx → Ctx) : (s.modCtx c f).outputs = s.outputs := rfl
@[simp] theorem State.modCtx_lateReplies (s : State) (c : Nat) (f : Ctx → Ctx) : (s.modCtx c f).lateReplies = s.lateReplies := rfl
@[simp] theorem State.modCtx_staleRids (s : State) (c : Nat) (f : Ctx → Ctx) : (s.modCtx c f).staleRids = s.staleRids := rfl
@[simp] theorem State.modCtx_branchSince (s : State) (c : Nat) (f : Ctx → Ctx) : (s.modCtx c f).branchSince = s.branchSince := rfl
@[simp] theorem State.modCtx_elem (s : State) (c : Nat) (f : Ctx → Ctx) (i : Nat) : (s.modCtx c f).elem i = s.elem i := rfl
@[simp] theorem State.modCtx_grove (s : State) (c : Nat) (f : Ctx → Ctx) (i : Nat) : (s.modCtx c f).grove i = s.grove i := rfl
@[simp] theorem State.modCtx_task (s : State) (c : Nat) (f : Ctx → Ctx) (i : Nat) : (s.modCtx c f).task i = s.task i := rfl
@[simp] theorem State.modCtx_taskOpt (s : State) (c : Nat) (f : Ctx → Ctx) (i : Nat) : (s.modCtx c f).task? i = s.task? i := rfl
@[simp] theorem State.modCtx_part (s : State) (c : Nat) (f : Ctx → Ctx) (i : Nat) : (s.modCtx c f).part i = s.part i := rfl
@[simp] theorem State.modCtx_port (s : State) (c : Nat) (f : Ctx → Ctx) (i : Nat) : (s.modCtx c f).port i = s.port i := rfl
@[simp] theorem State.modCtx_bank (s : State) (c : Nat) (f : Ctx → Ctx) (i : Nat) : (s.modCtx c f).bank i = s.bank i := rfl
@[simp] theorem State.modCtx_window (s : State) (c : Nat) (f : Ctx → Ctx) (i : Nat) : (s.modCtx c f).window i = s.window i := rfl
@[simp] theorem State.modCtx_wordMeta (s : State) (c : Nat) (f : Ctx → Ctx) (i : Nat) : (s.modCtx c f).wordMeta i = s.wordMeta i := rfl
@[simp] theorem State.modCtx_sector (s : State) (c : Nat) (f : Ctx → Ctx) (i : Nat) : (s.modCtx c f).sector i = s.sector i := rfl
@[simp] theorem State.modCtx_tokens (s : State) (c : Nat) (f : Ctx → Ctx) (i : Nat) : (s.modCtx c f).tokens i = s.tokens i := rfl
@[simp] theorem State.modCtx_reqOpt (s : State) (c : Nat) (f : Ctx → Ctx) (i : Nat) : (s.modCtx c f).req? i = s.req? i := rfl
@[simp] theorem State.modCtx_taskOfGrove (s : State) (c : Nat) (f : Ctx → Ctx) (i : Nat) : (s.modCtx c f).taskOfGrove i = s.taskOfGrove i := rfl
@[simp] theorem State.modCtx_taskOfElem (s : State) (c : Nat) (f : Ctx → Ctx) (i : Nat) : (s.modCtx c f).taskOfElem i = s.taskOfElem i := rfl
@[simp] theorem State.modCtx_partOfGrove (s : State) (c : Nat) (f : Ctx → Ctx) (i : Nat) : (s.modCtx c f).partOfGrove i = s.partOfGrove i := rfl
@[simp] theorem State.modCtx_supervising (s : State) (c : Nat) (f : Ctx → Ctx) : (s.modCtx c f).supervising = s.supervising := rfl

@[simp] theorem State.modPart_agenda (s : State) (p : Nat) (f : Part → Part) : (s.modPart p f).agenda = s.agenda := rfl
@[simp] theorem State.modPart_moveNo (s : State) (p : Nat) (f : Part → Part) : (s.modPart p f).moveNo = s.moveNo := rfl
@[simp] theorem State.modPart_cur (s : State) (p : Nat) (f : Part → Part) : (s.modPart p f).cur = s.cur := rfl
@[simp] theorem State.modPart_nextReq (s : State) (p : Nat) (f : Part → Part) : (s.modPart p f).nextReq = s.nextReq := rfl
@[simp] theorem State.modPart_nextTok (s : State) (p : Nat) (f : Part → Part) : (s.modPart p f).nextTok = s.nextTok := rfl
@[simp] theorem State.modPart_tb (s : State) (p : Nat) (f : Part → Part) : (s.modPart p f).tb = s.tb := rfl
@[simp] theorem State.modPart_elems (s : State) (p : Nat) (f : Part → Part) : (s.modPart p f).elems = s.elems := rfl
@[simp] theorem State.modPart_groves (s : State) (p : Nat) (f : Part → Part) : (s.modPart p f).groves = s.groves := rfl
@[simp] theorem State.modPart_mem (s : State) (p : Nat) (f : Part → Part) : (s.modPart p f).mem = s.mem := rfl
@[simp] theorem State.modPart_words (s : State) (p : Nat) (f : Part → Part) : (s.modPart p f).words = s.words := rfl
@[simp] theorem State.modPart_sectors (s : State) (p : Nat) (f : Part → Part) : (s.modPart p f).sectors = s.sectors := rfl
@[simp] theorem State.modPart_voids (s : State) (p : Nat) (f : Part → Part) : (s.modPart p f).voids = s.voids := rfl
@[simp] theorem State.modPart_waiting (s : State) (p : Nat) (f : Part → Part) : (s.modPart p f).waiting = s.waiting := rfl
@[simp] theorem State.modPart_windows (s : State) (p : Nat) (f : Part → Part) : (s.modPart p f).windows = s.windows := rfl
@[simp] theorem State.modPart_banks (s : State) (p : Nat) (f : Part → Part) : (s.modPart p f).banks = s.banks := rfl
@[simp] theorem State.modPart_fabric (s : State) (p : Nat) (f : Part → Part) : (s.modPart p f).fabric = s.fabric := rfl
@[simp] theorem State.modPart_outst (s : State) (p : Nat) (f : Part → Part) : (s.modPart p f).outst = s.outst := rfl
@[simp] theorem State.modPart_reqs (s : State) (p : Nat) (f : Part → Part) : (s.modPart p f).reqs = s.reqs := rfl
@[simp] theorem State.modPart_ports (s : State) (p : Nat) (f : Part → Part) : (s.modPart p f).ports = s.ports := rfl
@[simp] theorem State.modPart_tasks (s : State) (p : Nat) (f : Part → Part) : (s.modPart p f).tasks = s.tasks := rfl
@[simp] theorem State.modPart_tags (s : State) (p : Nat) (f : Part → Part) : (s.modPart p f).tags = s.tags := rfl
@[simp] theorem State.modPart_ctxs (s : State) (p : Nat) (f : Part → Part) : (s.modPart p f).ctxs = s.ctxs := rfl
@[simp] theorem State.modPart_staged (s : State) (p : Nat) (f : Part → Part) : (s.modPart p f).staged = s.staged := rfl
@[simp] theorem State.modPart_serial (s : State) (p : Nat) (f : Part → Part) : (s.modPart p f).serial = s.serial := rfl
@[simp] theorem State.modPart_guardPool (s : State) (p : Nat) (f : Part → Part) : (s.modPart p f).guardPool = s.guardPool := rfl
@[simp] theorem State.modPart_totals (s : State) (p : Nat) (f : Part → Part) : (s.modPart p f).totals = s.totals := rfl
@[simp] theorem State.modPart_stage (s : State) (p : Nat) (f : Part → Part) : (s.modPart p f).stage = s.stage := rfl
@[simp] theorem State.modPart_err (s : State) (p : Nat) (f : Part → Part) : (s.modPart p f).err = s.err := rfl
@[simp] theorem State.modPart_offer (s : State) (p : Nat) (f : Part → Part) : (s.modPart p f).offer = s.offer := rfl
@[simp] theorem State.modPart_ack (s : State) (p : Nat) (f : Part → Part) : (s.modPart p f).ack = s.ack := rfl
@[simp] theorem State.modPart_ackHigh (s : State) (p : Nat) (f : Part → Part) : (s.modPart p f).ackHigh = s.ackHigh := rfl
@[simp] theorem State.modPart_negotiated (s : State) (p : Nat) (f : Part → Part) : (s.modPart p f).negotiated = s.negotiated := rfl
@[simp] theorem State.modPart_moduleNo (s : State) (p : Nat) (f : Part → Part) : (s.modPart p f).moduleNo = s.moduleNo := rfl
@[simp] theorem State.modPart_hops (s : State) (p : Nat) (f : Part → Part) : (s.modPart p f).hops = s.hops := rfl
@[simp] theorem State.modPart_retired (s : State) (p : Nat) (f : Part → Part) : (s.modPart p f).retired = s.retired := rfl
@[simp] theorem State.modPart_eventLog (s : State) (p : Nat) (f : Part → Part) : (s.modPart p f).eventLog = s.eventLog := rfl
@[simp] theorem State.modPart_measures (s : State) (p : Nat) (f : Part → Part) : (s.modPart p f).measures = s.measures := rfl
@[simp] theorem State.modPart_measureLog (s : State) (p : Nat) (f : Part → Part) : (s.modPart p f).measureLog = s.measureLog := rfl
@[simp] theorem State.modPart_aliasKey (s : State) (p : Nat) (f : Part → Part) : (s.modPart p f).aliasKey = s.aliasKey := rfl
@[simp] theorem State.modPart_slotA (s : State) (p : Nat) (f : Part → Part) : (s.modPart p f).slotA = s.slotA := rfl
@[simp] theorem State.modPart_slotB (s : State) (p : Nat) (f : Part → Part) : (s.modPart p f).slotB = s.slotB := rfl
@[simp] theorem State.modPart_fuse (s : State) (p : Nat) (f : Part → Part) : (s.modPart p f).fuse = s.fuse := rfl
@[simp] theorem State.modPart_running (s : State) (p : Nat) (f : Part → Part) : (s.modPart p f).running = s.running := rfl
@[simp] theorem State.modPart_ideKeys (s : State) (p : Nat) (f : Part → Part) : (s.modPart p f).ideKeys = s.ideKeys := rfl
@[simp] theorem State.modPart_sessions (s : State) (p : Nat) (f : Part → Part) : (s.modPart p f).sessions = s.sessions := rfl
@[simp] theorem State.modPart_keys (s : State) (p : Nat) (f : Part → Part) : (s.modPart p f).keys = s.keys := rfl
@[simp] theorem State.modPart_sectorKeys (s : State) (p : Nat) (f : Part → Part) : (s.modPart p f).sectorKeys = s.sectorKeys := rfl
@[simp] theorem State.modPart_badMacs (s : State) (p : Nat) (f : Part → Part) : (s.modPart p f).badMacs = s.badMacs := rfl
@[simp] theorem State.modPart_msix (s : State) (p : Nat) (f : Part → Part) : (s.modPart p f).msix = s.msix := rfl
@[simp] theorem State.modPart_routes (s : State) (p : Nat) (f : Part → Part) : (s.modPart p f).routes = s.routes := rfl
@[simp] theorem State.modPart_hostQueue (s : State) (p : Nat) (f : Part → Part) : (s.modPart p f).hostQueue = s.hostQueue := rfl
@[simp] theorem State.modPart_berovo (s : State) (p : Nat) (f : Part → Part) : (s.modPart p f).berovo = s.berovo := rfl
@[simp] theorem State.modPart_pours (s : State) (p : Nat) (f : Part → Part) : (s.modPart p f).pours = s.pours := rfl
@[simp] theorem State.modPart_outputs (s : State) (p : Nat) (f : Part → Part) : (s.modPart p f).outputs = s.outputs := rfl
@[simp] theorem State.modPart_lateReplies (s : State) (p : Nat) (f : Part → Part) : (s.modPart p f).lateReplies = s.lateReplies := rfl
@[simp] theorem State.modPart_staleRids (s : State) (p : Nat) (f : Part → Part) : (s.modPart p f).staleRids = s.staleRids := rfl
@[simp] theorem State.modPart_branchSince (s : State) (p : Nat) (f : Part → Part) : (s.modPart p f).branchSince = s.branchSince := rfl
@[simp] theorem State.modPart_elem (s : State) (p : Nat) (f : Part → Part) (i : Nat) : (s.modPart p f).elem i = s.elem i := rfl
@[simp] theorem State.modPart_grove (s : State) (p : Nat) (f : Part → Part) (i : Nat) : (s.modPart p f).grove i = s.grove i := rfl
@[simp] theorem State.modPart_task (s : State) (p : Nat) (f : Part → Part) (i : Nat) : (s.modPart p f).task i = s.task i := rfl
@[simp] theorem State.modPart_taskOpt (s : State) (p : Nat) (f : Part → Part) (i : Nat) : (s.modPart p f).task? i = s.task? i := rfl
@[simp] theorem State.modPart_ctx (s : State) (p : Nat) (f : Part → Part) (i : Nat) : (s.modPart p f).ctx i = s.ctx i := rfl
@[simp] theorem State.modPart_port (s : State) (p : Nat) (f : Part → Part) (i : Nat) : (s.modPart p f).port i = s.port i := rfl
@[simp] theorem State.modPart_bank (s : State) (p : Nat) (f : Part → Part) (i : Nat) : (s.modPart p f).bank i = s.bank i := rfl
@[simp] theorem State.modPart_window (s : State) (p : Nat) (f : Part → Part) (i : Nat) : (s.modPart p f).window i = s.window i := rfl
@[simp] theorem State.modPart_wordMeta (s : State) (p : Nat) (f : Part → Part) (i : Nat) : (s.modPart p f).wordMeta i = s.wordMeta i := rfl
@[simp] theorem State.modPart_sector (s : State) (p : Nat) (f : Part → Part) (i : Nat) : (s.modPart p f).sector i = s.sector i := rfl
@[simp] theorem State.modPart_tokens (s : State) (p : Nat) (f : Part → Part) (i : Nat) : (s.modPart p f).tokens i = s.tokens i := rfl
@[simp] theorem State.modPart_reqOpt (s : State) (p : Nat) (f : Part → Part) (i : Nat) : (s.modPart p f).req? i = s.req? i := rfl
@[simp] theorem State.modPart_taskOfGrove (s : State) (p : Nat) (f : Part → Part) (i : Nat) : (s.modPart p f).taskOfGrove i = s.taskOfGrove i := rfl
@[simp] theorem State.modPart_taskOfElem (s : State) (p : Nat) (f : Part → Part) (i : Nat) : (s.modPart p f).taskOfElem i = s.taskOfElem i := rfl
@[simp] theorem State.modPart_supervising (s : State) (p : Nat) (f : Part → Part) : (s.modPart p f).supervising = s.supervising := rfl

@[simp] theorem State.modPort_agenda (s : State) (p : Nat) (f : Port → Port) : (s.modPort p f).agenda = s.agenda := rfl
@[simp] theorem State.modPort_moveNo (s : State) (p : Nat) (f : Port → Port) : (s.modPort p f).moveNo = s.moveNo := rfl
@[simp] theorem State.modPort_cur (s : State) (p : Nat) (f : Port → Port) : (s.modPort p f).cur = s.cur := rfl
@[simp] theorem State.modPort_nextReq (s : State) (p : Nat) (f : Port → Port) : (s.modPort p f).nextReq = s.nextReq := rfl
@[simp] theorem State.modPort_nextTok (s : State) (p : Nat) (f : Port → Port) : (s.modPort p f).nextTok = s.nextTok := rfl
@[simp] theorem State.modPort_tb (s : State) (p : Nat) (f : Port → Port) : (s.modPort p f).tb = s.tb := rfl
@[simp] theorem State.modPort_elems (s : State) (p : Nat) (f : Port → Port) : (s.modPort p f).elems = s.elems := rfl
@[simp] theorem State.modPort_groves (s : State) (p : Nat) (f : Port → Port) : (s.modPort p f).groves = s.groves := rfl
@[simp] theorem State.modPort_mem (s : State) (p : Nat) (f : Port → Port) : (s.modPort p f).mem = s.mem := rfl
@[simp] theorem State.modPort_words (s : State) (p : Nat) (f : Port → Port) : (s.modPort p f).words = s.words := rfl
@[simp] theorem State.modPort_sectors (s : State) (p : Nat) (f : Port → Port) : (s.modPort p f).sectors = s.sectors := rfl
@[simp] theorem State.modPort_voids (s : State) (p : Nat) (f : Port → Port) : (s.modPort p f).voids = s.voids := rfl
@[simp] theorem State.modPort_waiting (s : State) (p : Nat) (f : Port → Port) : (s.modPort p f).waiting = s.waiting := rfl
@[simp] theorem State.modPort_windows (s : State) (p : Nat) (f : Port → Port) : (s.modPort p f).windows = s.windows := rfl
@[simp] theorem State.modPort_banks (s : State) (p : Nat) (f : Port → Port) : (s.modPort p f).banks = s.banks := rfl
@[simp] theorem State.modPort_fabric (s : State) (p : Nat) (f : Port → Port) : (s.modPort p f).fabric = s.fabric := rfl
@[simp] theorem State.modPort_outst (s : State) (p : Nat) (f : Port → Port) : (s.modPort p f).outst = s.outst := rfl
@[simp] theorem State.modPort_reqs (s : State) (p : Nat) (f : Port → Port) : (s.modPort p f).reqs = s.reqs := rfl
@[simp] theorem State.modPort_tasks (s : State) (p : Nat) (f : Port → Port) : (s.modPort p f).tasks = s.tasks := rfl
@[simp] theorem State.modPort_tags (s : State) (p : Nat) (f : Port → Port) : (s.modPort p f).tags = s.tags := rfl
@[simp] theorem State.modPort_ctxs (s : State) (p : Nat) (f : Port → Port) : (s.modPort p f).ctxs = s.ctxs := rfl
@[simp] theorem State.modPort_parts (s : State) (p : Nat) (f : Port → Port) : (s.modPort p f).parts = s.parts := rfl
@[simp] theorem State.modPort_staged (s : State) (p : Nat) (f : Port → Port) : (s.modPort p f).staged = s.staged := rfl
@[simp] theorem State.modPort_serial (s : State) (p : Nat) (f : Port → Port) : (s.modPort p f).serial = s.serial := rfl
@[simp] theorem State.modPort_guardPool (s : State) (p : Nat) (f : Port → Port) : (s.modPort p f).guardPool = s.guardPool := rfl
@[simp] theorem State.modPort_totals (s : State) (p : Nat) (f : Port → Port) : (s.modPort p f).totals = s.totals := rfl
@[simp] theorem State.modPort_stage (s : State) (p : Nat) (f : Port → Port) : (s.modPort p f).stage = s.stage := rfl
@[simp] theorem State.modPort_err (s : State) (p : Nat) (f : Port → Port) : (s.modPort p f).err = s.err := rfl
@[simp] theorem State.modPort_offer (s : State) (p : Nat) (f : Port → Port) : (s.modPort p f).offer = s.offer := rfl
@[simp] theorem State.modPort_ack (s : State) (p : Nat) (f : Port → Port) : (s.modPort p f).ack = s.ack := rfl
@[simp] theorem State.modPort_ackHigh (s : State) (p : Nat) (f : Port → Port) : (s.modPort p f).ackHigh = s.ackHigh := rfl
@[simp] theorem State.modPort_negotiated (s : State) (p : Nat) (f : Port → Port) : (s.modPort p f).negotiated = s.negotiated := rfl
@[simp] theorem State.modPort_moduleNo (s : State) (p : Nat) (f : Port → Port) : (s.modPort p f).moduleNo = s.moduleNo := rfl
@[simp] theorem State.modPort_hops (s : State) (p : Nat) (f : Port → Port) : (s.modPort p f).hops = s.hops := rfl
@[simp] theorem State.modPort_retired (s : State) (p : Nat) (f : Port → Port) : (s.modPort p f).retired = s.retired := rfl
@[simp] theorem State.modPort_eventLog (s : State) (p : Nat) (f : Port → Port) : (s.modPort p f).eventLog = s.eventLog := rfl
@[simp] theorem State.modPort_measures (s : State) (p : Nat) (f : Port → Port) : (s.modPort p f).measures = s.measures := rfl
@[simp] theorem State.modPort_measureLog (s : State) (p : Nat) (f : Port → Port) : (s.modPort p f).measureLog = s.measureLog := rfl
@[simp] theorem State.modPort_aliasKey (s : State) (p : Nat) (f : Port → Port) : (s.modPort p f).aliasKey = s.aliasKey := rfl
@[simp] theorem State.modPort_slotA (s : State) (p : Nat) (f : Port → Port) : (s.modPort p f).slotA = s.slotA := rfl
@[simp] theorem State.modPort_slotB (s : State) (p : Nat) (f : Port → Port) : (s.modPort p f).slotB = s.slotB := rfl
@[simp] theorem State.modPort_fuse (s : State) (p : Nat) (f : Port → Port) : (s.modPort p f).fuse = s.fuse := rfl
@[simp] theorem State.modPort_running (s : State) (p : Nat) (f : Port → Port) : (s.modPort p f).running = s.running := rfl
@[simp] theorem State.modPort_ideKeys (s : State) (p : Nat) (f : Port → Port) : (s.modPort p f).ideKeys = s.ideKeys := rfl
@[simp] theorem State.modPort_sessions (s : State) (p : Nat) (f : Port → Port) : (s.modPort p f).sessions = s.sessions := rfl
@[simp] theorem State.modPort_keys (s : State) (p : Nat) (f : Port → Port) : (s.modPort p f).keys = s.keys := rfl
@[simp] theorem State.modPort_sectorKeys (s : State) (p : Nat) (f : Port → Port) : (s.modPort p f).sectorKeys = s.sectorKeys := rfl
@[simp] theorem State.modPort_badMacs (s : State) (p : Nat) (f : Port → Port) : (s.modPort p f).badMacs = s.badMacs := rfl
@[simp] theorem State.modPort_msix (s : State) (p : Nat) (f : Port → Port) : (s.modPort p f).msix = s.msix := rfl
@[simp] theorem State.modPort_routes (s : State) (p : Nat) (f : Port → Port) : (s.modPort p f).routes = s.routes := rfl
@[simp] theorem State.modPort_hostQueue (s : State) (p : Nat) (f : Port → Port) : (s.modPort p f).hostQueue = s.hostQueue := rfl
@[simp] theorem State.modPort_berovo (s : State) (p : Nat) (f : Port → Port) : (s.modPort p f).berovo = s.berovo := rfl
@[simp] theorem State.modPort_pours (s : State) (p : Nat) (f : Port → Port) : (s.modPort p f).pours = s.pours := rfl
@[simp] theorem State.modPort_outputs (s : State) (p : Nat) (f : Port → Port) : (s.modPort p f).outputs = s.outputs := rfl
@[simp] theorem State.modPort_lateReplies (s : State) (p : Nat) (f : Port → Port) : (s.modPort p f).lateReplies = s.lateReplies := rfl
@[simp] theorem State.modPort_staleRids (s : State) (p : Nat) (f : Port → Port) : (s.modPort p f).staleRids = s.staleRids := rfl
@[simp] theorem State.modPort_branchSince (s : State) (p : Nat) (f : Port → Port) : (s.modPort p f).branchSince = s.branchSince := rfl
@[simp] theorem State.modPort_elem (s : State) (p : Nat) (f : Port → Port) (i : Nat) : (s.modPort p f).elem i = s.elem i := rfl
@[simp] theorem State.modPort_grove (s : State) (p : Nat) (f : Port → Port) (i : Nat) : (s.modPort p f).grove i = s.grove i := rfl
@[simp] theorem State.modPort_task (s : State) (p : Nat) (f : Port → Port) (i : Nat) : (s.modPort p f).task i = s.task i := rfl
@[simp] theorem State.modPort_taskOpt (s : State) (p : Nat) (f : Port → Port) (i : Nat) : (s.modPort p f).task? i = s.task? i := rfl
@[simp] theorem State.modPort_ctx (s : State) (p : Nat) (f : Port → Port) (i : Nat) : (s.modPort p f).ctx i = s.ctx i := rfl
@[simp] theorem State.modPort_part (s : State) (p : Nat) (f : Port → Port) (i : Nat) : (s.modPort p f).part i = s.part i := rfl
@[simp] theorem State.modPort_bank (s : State) (p : Nat) (f : Port → Port) (i : Nat) : (s.modPort p f).bank i = s.bank i := rfl
@[simp] theorem State.modPort_window (s : State) (p : Nat) (f : Port → Port) (i : Nat) : (s.modPort p f).window i = s.window i := rfl
@[simp] theorem State.modPort_wordMeta (s : State) (p : Nat) (f : Port → Port) (i : Nat) : (s.modPort p f).wordMeta i = s.wordMeta i := rfl
@[simp] theorem State.modPort_sector (s : State) (p : Nat) (f : Port → Port) (i : Nat) : (s.modPort p f).sector i = s.sector i := rfl
@[simp] theorem State.modPort_tokens (s : State) (p : Nat) (f : Port → Port) (i : Nat) : (s.modPort p f).tokens i = s.tokens i := rfl
@[simp] theorem State.modPort_reqOpt (s : State) (p : Nat) (f : Port → Port) (i : Nat) : (s.modPort p f).req? i = s.req? i := rfl
@[simp] theorem State.modPort_taskOfGrove (s : State) (p : Nat) (f : Port → Port) (i : Nat) : (s.modPort p f).taskOfGrove i = s.taskOfGrove i := rfl
@[simp] theorem State.modPort_taskOfElem (s : State) (p : Nat) (f : Port → Port) (i : Nat) : (s.modPort p f).taskOfElem i = s.taskOfElem i := rfl
@[simp] theorem State.modPort_partOfGrove (s : State) (p : Nat) (f : Port → Port) (i : Nat) : (s.modPort p f).partOfGrove i = s.partOfGrove i := rfl
@[simp] theorem State.modPort_supervising (s : State) (p : Nat) (f : Port → Port) : (s.modPort p f).supervising = s.supervising := rfl

@[simp] theorem State.modBank_agenda (s : State) (b : Nat) (f : Bank → Bank) : (s.modBank b f).agenda = s.agenda := rfl
@[simp] theorem State.modBank_moveNo (s : State) (b : Nat) (f : Bank → Bank) : (s.modBank b f).moveNo = s.moveNo := rfl
@[simp] theorem State.modBank_cur (s : State) (b : Nat) (f : Bank → Bank) : (s.modBank b f).cur = s.cur := rfl
@[simp] theorem State.modBank_nextReq (s : State) (b : Nat) (f : Bank → Bank) : (s.modBank b f).nextReq = s.nextReq := rfl
@[simp] theorem State.modBank_nextTok (s : State) (b : Nat) (f : Bank → Bank) : (s.modBank b f).nextTok = s.nextTok := rfl
@[simp] theorem State.modBank_tb (s : State) (b : Nat) (f : Bank → Bank) : (s.modBank b f).tb = s.tb := rfl
@[simp] theorem State.modBank_elems (s : State) (b : Nat) (f : Bank → Bank) : (s.modBank b f).elems = s.elems := rfl
@[simp] theorem State.modBank_groves (s : State) (b : Nat) (f : Bank → Bank) : (s.modBank b f).groves = s.groves := rfl
@[simp] theorem State.modBank_mem (s : State) (b : Nat) (f : Bank → Bank) : (s.modBank b f).mem = s.mem := rfl
@[simp] theorem State.modBank_words (s : State) (b : Nat) (f : Bank → Bank) : (s.modBank b f).words = s.words := rfl
@[simp] theorem State.modBank_sectors (s : State) (b : Nat) (f : Bank → Bank) : (s.modBank b f).sectors = s.sectors := rfl
@[simp] theorem State.modBank_voids (s : State) (b : Nat) (f : Bank → Bank) : (s.modBank b f).voids = s.voids := rfl
@[simp] theorem State.modBank_waiting (s : State) (b : Nat) (f : Bank → Bank) : (s.modBank b f).waiting = s.waiting := rfl
@[simp] theorem State.modBank_windows (s : State) (b : Nat) (f : Bank → Bank) : (s.modBank b f).windows = s.windows := rfl
@[simp] theorem State.modBank_fabric (s : State) (b : Nat) (f : Bank → Bank) : (s.modBank b f).fabric = s.fabric := rfl
@[simp] theorem State.modBank_outst (s : State) (b : Nat) (f : Bank → Bank) : (s.modBank b f).outst = s.outst := rfl
@[simp] theorem State.modBank_reqs (s : State) (b : Nat) (f : Bank → Bank) : (s.modBank b f).reqs = s.reqs := rfl
@[simp] theorem State.modBank_ports (s : State) (b : Nat) (f : Bank → Bank) : (s.modBank b f).ports = s.ports := rfl
@[simp] theorem State.modBank_tasks (s : State) (b : Nat) (f : Bank → Bank) : (s.modBank b f).tasks = s.tasks := rfl
@[simp] theorem State.modBank_tags (s : State) (b : Nat) (f : Bank → Bank) : (s.modBank b f).tags = s.tags := rfl
@[simp] theorem State.modBank_ctxs (s : State) (b : Nat) (f : Bank → Bank) : (s.modBank b f).ctxs = s.ctxs := rfl
@[simp] theorem State.modBank_parts (s : State) (b : Nat) (f : Bank → Bank) : (s.modBank b f).parts = s.parts := rfl
@[simp] theorem State.modBank_staged (s : State) (b : Nat) (f : Bank → Bank) : (s.modBank b f).staged = s.staged := rfl
@[simp] theorem State.modBank_serial (s : State) (b : Nat) (f : Bank → Bank) : (s.modBank b f).serial = s.serial := rfl
@[simp] theorem State.modBank_guardPool (s : State) (b : Nat) (f : Bank → Bank) : (s.modBank b f).guardPool = s.guardPool := rfl
@[simp] theorem State.modBank_totals (s : State) (b : Nat) (f : Bank → Bank) : (s.modBank b f).totals = s.totals := rfl
@[simp] theorem State.modBank_stage (s : State) (b : Nat) (f : Bank → Bank) : (s.modBank b f).stage = s.stage := rfl
@[simp] theorem State.modBank_err (s : State) (b : Nat) (f : Bank → Bank) : (s.modBank b f).err = s.err := rfl
@[simp] theorem State.modBank_offer (s : State) (b : Nat) (f : Bank → Bank) : (s.modBank b f).offer = s.offer := rfl
@[simp] theorem State.modBank_ack (s : State) (b : Nat) (f : Bank → Bank) : (s.modBank b f).ack = s.ack := rfl
@[simp] theorem State.modBank_ackHigh (s : State) (b : Nat) (f : Bank → Bank) : (s.modBank b f).ackHigh = s.ackHigh := rfl
@[simp] theorem State.modBank_negotiated (s : State) (b : Nat) (f : Bank → Bank) : (s.modBank b f).negotiated = s.negotiated := rfl
@[simp] theorem State.modBank_moduleNo (s : State) (b : Nat) (f : Bank → Bank) : (s.modBank b f).moduleNo = s.moduleNo := rfl
@[simp] theorem State.modBank_hops (s : State) (b : Nat) (f : Bank → Bank) : (s.modBank b f).hops = s.hops := rfl
@[simp] theorem State.modBank_retired (s : State) (b : Nat) (f : Bank → Bank) : (s.modBank b f).retired = s.retired := rfl
@[simp] theorem State.modBank_eventLog (s : State) (b : Nat) (f : Bank → Bank) : (s.modBank b f).eventLog = s.eventLog := rfl
@[simp] theorem State.modBank_measures (s : State) (b : Nat) (f : Bank → Bank) : (s.modBank b f).measures = s.measures := rfl
@[simp] theorem State.modBank_measureLog (s : State) (b : Nat) (f : Bank → Bank) : (s.modBank b f).measureLog = s.measureLog := rfl
@[simp] theorem State.modBank_aliasKey (s : State) (b : Nat) (f : Bank → Bank) : (s.modBank b f).aliasKey = s.aliasKey := rfl
@[simp] theorem State.modBank_slotA (s : State) (b : Nat) (f : Bank → Bank) : (s.modBank b f).slotA = s.slotA := rfl
@[simp] theorem State.modBank_slotB (s : State) (b : Nat) (f : Bank → Bank) : (s.modBank b f).slotB = s.slotB := rfl
@[simp] theorem State.modBank_fuse (s : State) (b : Nat) (f : Bank → Bank) : (s.modBank b f).fuse = s.fuse := rfl
@[simp] theorem State.modBank_running (s : State) (b : Nat) (f : Bank → Bank) : (s.modBank b f).running = s.running := rfl
@[simp] theorem State.modBank_ideKeys (s : State) (b : Nat) (f : Bank → Bank) : (s.modBank b f).ideKeys = s.ideKeys := rfl
@[simp] theorem State.modBank_sessions (s : State) (b : Nat) (f : Bank → Bank) : (s.modBank b f).sessions = s.sessions := rfl
@[simp] theorem State.modBank_keys (s : State) (b : Nat) (f : Bank → Bank) : (s.modBank b f).keys = s.keys := rfl
@[simp] theorem State.modBank_sectorKeys (s : State) (b : Nat) (f : Bank → Bank) : (s.modBank b f).sectorKeys = s.sectorKeys := rfl
@[simp] theorem State.modBank_badMacs (s : State) (b : Nat) (f : Bank → Bank) : (s.modBank b f).badMacs = s.badMacs := rfl
@[simp] theorem State.modBank_msix (s : State) (b : Nat) (f : Bank → Bank) : (s.modBank b f).msix = s.msix := rfl
@[simp] theorem State.modBank_routes (s : State) (b : Nat) (f : Bank → Bank) : (s.modBank b f).routes = s.routes := rfl
@[simp] theorem State.modBank_hostQueue (s : State) (b : Nat) (f : Bank → Bank) : (s.modBank b f).hostQueue = s.hostQueue := rfl
@[simp] theorem State.modBank_berovo (s : State) (b : Nat) (f : Bank → Bank) : (s.modBank b f).berovo = s.berovo := rfl
@[simp] theorem State.modBank_pours (s : State) (b : Nat) (f : Bank → Bank) : (s.modBank b f).pours = s.pours := rfl
@[simp] theorem State.modBank_outputs (s : State) (b : Nat) (f : Bank → Bank) : (s.modBank b f).outputs = s.outputs := rfl
@[simp] theorem State.modBank_lateReplies (s : State) (b : Nat) (f : Bank → Bank) : (s.modBank b f).lateReplies = s.lateReplies := rfl
@[simp] theorem State.modBank_staleRids (s : State) (b : Nat) (f : Bank → Bank) : (s.modBank b f).staleRids = s.staleRids := rfl
@[simp] theorem State.modBank_branchSince (s : State) (b : Nat) (f : Bank → Bank) : (s.modBank b f).branchSince = s.branchSince := rfl
@[simp] theorem State.modBank_elem (s : State) (b : Nat) (f : Bank → Bank) (i : Nat) : (s.modBank b f).elem i = s.elem i := rfl
@[simp] theorem State.modBank_grove (s : State) (b : Nat) (f : Bank → Bank) (i : Nat) : (s.modBank b f).grove i = s.grove i := rfl
@[simp] theorem State.modBank_task (s : State) (b : Nat) (f : Bank → Bank) (i : Nat) : (s.modBank b f).task i = s.task i := rfl
@[simp] theorem State.modBank_taskOpt (s : State) (b : Nat) (f : Bank → Bank) (i : Nat) : (s.modBank b f).task? i = s.task? i := rfl
@[simp] theorem State.modBank_ctx (s : State) (b : Nat) (f : Bank → Bank) (i : Nat) : (s.modBank b f).ctx i = s.ctx i := rfl
@[simp] theorem State.modBank_part (s : State) (b : Nat) (f : Bank → Bank) (i : Nat) : (s.modBank b f).part i = s.part i := rfl
@[simp] theorem State.modBank_port (s : State) (b : Nat) (f : Bank → Bank) (i : Nat) : (s.modBank b f).port i = s.port i := rfl
@[simp] theorem State.modBank_window (s : State) (b : Nat) (f : Bank → Bank) (i : Nat) : (s.modBank b f).window i = s.window i := rfl
@[simp] theorem State.modBank_wordMeta (s : State) (b : Nat) (f : Bank → Bank) (i : Nat) : (s.modBank b f).wordMeta i = s.wordMeta i := rfl
@[simp] theorem State.modBank_sector (s : State) (b : Nat) (f : Bank → Bank) (i : Nat) : (s.modBank b f).sector i = s.sector i := rfl
@[simp] theorem State.modBank_tokens (s : State) (b : Nat) (f : Bank → Bank) (i : Nat) : (s.modBank b f).tokens i = s.tokens i := rfl
@[simp] theorem State.modBank_reqOpt (s : State) (b : Nat) (f : Bank → Bank) (i : Nat) : (s.modBank b f).req? i = s.req? i := rfl
@[simp] theorem State.modBank_taskOfGrove (s : State) (b : Nat) (f : Bank → Bank) (i : Nat) : (s.modBank b f).taskOfGrove i = s.taskOfGrove i := rfl
@[simp] theorem State.modBank_taskOfElem (s : State) (b : Nat) (f : Bank → Bank) (i : Nat) : (s.modBank b f).taskOfElem i = s.taskOfElem i := rfl
@[simp] theorem State.modBank_partOfGrove (s : State) (b : Nat) (f : Bank → Bank) (i : Nat) : (s.modBank b f).partOfGrove i = s.partOfGrove i := rfl
@[simp] theorem State.modBank_supervising (s : State) (b : Nat) (f : Bank → Bank) : (s.modBank b f).supervising = s.supervising := rfl

@[simp] theorem State.modWindow_agenda (s : State) (w : Nat) (f : WinState → WinState) : (s.modWindow w f).agenda = s.agenda := rfl
@[simp] theorem State.modWindow_moveNo (s : State) (w : Nat) (f : WinState → WinState) : (s.modWindow w f).moveNo = s.moveNo := rfl
@[simp] theorem State.modWindow_cur (s : State) (w : Nat) (f : WinState → WinState) : (s.modWindow w f).cur = s.cur := rfl
@[simp] theorem State.modWindow_nextReq (s : State) (w : Nat) (f : WinState → WinState) : (s.modWindow w f).nextReq = s.nextReq := rfl
@[simp] theorem State.modWindow_nextTok (s : State) (w : Nat) (f : WinState → WinState) : (s.modWindow w f).nextTok = s.nextTok := rfl
@[simp] theorem State.modWindow_tb (s : State) (w : Nat) (f : WinState → WinState) : (s.modWindow w f).tb = s.tb := rfl
@[simp] theorem State.modWindow_elems (s : State) (w : Nat) (f : WinState → WinState) : (s.modWindow w f).elems = s.elems := rfl
@[simp] theorem State.modWindow_groves (s : State) (w : Nat) (f : WinState → WinState) : (s.modWindow w f).groves = s.groves := rfl
@[simp] theorem State.modWindow_mem (s : State) (w : Nat) (f : WinState → WinState) : (s.modWindow w f).mem = s.mem := rfl
@[simp] theorem State.modWindow_words (s : State) (w : Nat) (f : WinState → WinState) : (s.modWindow w f).words = s.words := rfl
@[simp] theorem State.modWindow_sectors (s : State) (w : Nat) (f : WinState → WinState) : (s.modWindow w f).sectors = s.sectors := rfl
@[simp] theorem State.modWindow_voids (s : State) (w : Nat) (f : WinState → WinState) : (s.modWindow w f).voids = s.voids := rfl
@[simp] theorem State.modWindow_waiting (s : State) (w : Nat) (f : WinState → WinState) : (s.modWindow w f).waiting = s.waiting := rfl
@[simp] theorem State.modWindow_banks (s : State) (w : Nat) (f : WinState → WinState) : (s.modWindow w f).banks = s.banks := rfl
@[simp] theorem State.modWindow_fabric (s : State) (w : Nat) (f : WinState → WinState) : (s.modWindow w f).fabric = s.fabric := rfl
@[simp] theorem State.modWindow_outst (s : State) (w : Nat) (f : WinState → WinState) : (s.modWindow w f).outst = s.outst := rfl
@[simp] theorem State.modWindow_reqs (s : State) (w : Nat) (f : WinState → WinState) : (s.modWindow w f).reqs = s.reqs := rfl
@[simp] theorem State.modWindow_ports (s : State) (w : Nat) (f : WinState → WinState) : (s.modWindow w f).ports = s.ports := rfl
@[simp] theorem State.modWindow_tasks (s : State) (w : Nat) (f : WinState → WinState) : (s.modWindow w f).tasks = s.tasks := rfl
@[simp] theorem State.modWindow_tags (s : State) (w : Nat) (f : WinState → WinState) : (s.modWindow w f).tags = s.tags := rfl
@[simp] theorem State.modWindow_ctxs (s : State) (w : Nat) (f : WinState → WinState) : (s.modWindow w f).ctxs = s.ctxs := rfl
@[simp] theorem State.modWindow_parts (s : State) (w : Nat) (f : WinState → WinState) : (s.modWindow w f).parts = s.parts := rfl
@[simp] theorem State.modWindow_staged (s : State) (w : Nat) (f : WinState → WinState) : (s.modWindow w f).staged = s.staged := rfl
@[simp] theorem State.modWindow_serial (s : State) (w : Nat) (f : WinState → WinState) : (s.modWindow w f).serial = s.serial := rfl
@[simp] theorem State.modWindow_guardPool (s : State) (w : Nat) (f : WinState → WinState) : (s.modWindow w f).guardPool = s.guardPool := rfl
@[simp] theorem State.modWindow_totals (s : State) (w : Nat) (f : WinState → WinState) : (s.modWindow w f).totals = s.totals := rfl
@[simp] theorem State.modWindow_stage (s : State) (w : Nat) (f : WinState → WinState) : (s.modWindow w f).stage = s.stage := rfl
@[simp] theorem State.modWindow_err (s : State) (w : Nat) (f : WinState → WinState) : (s.modWindow w f).err = s.err := rfl
@[simp] theorem State.modWindow_offer (s : State) (w : Nat) (f : WinState → WinState) : (s.modWindow w f).offer = s.offer := rfl
@[simp] theorem State.modWindow_ack (s : State) (w : Nat) (f : WinState → WinState) : (s.modWindow w f).ack = s.ack := rfl
@[simp] theorem State.modWindow_ackHigh (s : State) (w : Nat) (f : WinState → WinState) : (s.modWindow w f).ackHigh = s.ackHigh := rfl
@[simp] theorem State.modWindow_negotiated (s : State) (w : Nat) (f : WinState → WinState) : (s.modWindow w f).negotiated = s.negotiated := rfl
@[simp] theorem State.modWindow_moduleNo (s : State) (w : Nat) (f : WinState → WinState) : (s.modWindow w f).moduleNo = s.moduleNo := rfl
@[simp] theorem State.modWindow_hops (s : State) (w : Nat) (f : WinState → WinState) : (s.modWindow w f).hops = s.hops := rfl
@[simp] theorem State.modWindow_retired (s : State) (w : Nat) (f : WinState → WinState) : (s.modWindow w f).retired = s.retired := rfl
@[simp] theorem State.modWindow_eventLog (s : State) (w : Nat) (f : WinState → WinState) : (s.modWindow w f).eventLog = s.eventLog := rfl
@[simp] theorem State.modWindow_measures (s : State) (w : Nat) (f : WinState → WinState) : (s.modWindow w f).measures = s.measures := rfl
@[simp] theorem State.modWindow_measureLog (s : State) (w : Nat) (f : WinState → WinState) : (s.modWindow w f).measureLog = s.measureLog := rfl
@[simp] theorem State.modWindow_aliasKey (s : State) (w : Nat) (f : WinState → WinState) : (s.modWindow w f).aliasKey = s.aliasKey := rfl
@[simp] theorem State.modWindow_slotA (s : State) (w : Nat) (f : WinState → WinState) : (s.modWindow w f).slotA = s.slotA := rfl
@[simp] theorem State.modWindow_slotB (s : State) (w : Nat) (f : WinState → WinState) : (s.modWindow w f).slotB = s.slotB := rfl
@[simp] theorem State.modWindow_fuse (s : State) (w : Nat) (f : WinState → WinState) : (s.modWindow w f).fuse = s.fuse := rfl
@[simp] theorem State.modWindow_running (s : State) (w : Nat) (f : WinState → WinState) : (s.modWindow w f).running = s.running := rfl
@[simp] theorem State.modWindow_ideKeys (s : State) (w : Nat) (f : WinState → WinState) : (s.modWindow w f).ideKeys = s.ideKeys := rfl
@[simp] theorem State.modWindow_sessions (s : State) (w : Nat) (f : WinState → WinState) : (s.modWindow w f).sessions = s.sessions := rfl
@[simp] theorem State.modWindow_keys (s : State) (w : Nat) (f : WinState → WinState) : (s.modWindow w f).keys = s.keys := rfl
@[simp] theorem State.modWindow_sectorKeys (s : State) (w : Nat) (f : WinState → WinState) : (s.modWindow w f).sectorKeys = s.sectorKeys := rfl
@[simp] theorem State.modWindow_badMacs (s : State) (w : Nat) (f : WinState → WinState) : (s.modWindow w f).badMacs = s.badMacs := rfl
@[simp] theorem State.modWindow_msix (s : State) (w : Nat) (f : WinState → WinState) : (s.modWindow w f).msix = s.msix := rfl
@[simp] theorem State.modWindow_routes (s : State) (w : Nat) (f : WinState → WinState) : (s.modWindow w f).routes = s.routes := rfl
@[simp] theorem State.modWindow_hostQueue (s : State) (w : Nat) (f : WinState → WinState) : (s.modWindow w f).hostQueue = s.hostQueue := rfl
@[simp] theorem State.modWindow_berovo (s : State) (w : Nat) (f : WinState → WinState) : (s.modWindow w f).berovo = s.berovo := rfl
@[simp] theorem State.modWindow_pours (s : State) (w : Nat) (f : WinState → WinState) : (s.modWindow w f).pours = s.pours := rfl
@[simp] theorem State.modWindow_outputs (s : State) (w : Nat) (f : WinState → WinState) : (s.modWindow w f).outputs = s.outputs := rfl
@[simp] theorem State.modWindow_lateReplies (s : State) (w : Nat) (f : WinState → WinState) : (s.modWindow w f).lateReplies = s.lateReplies := rfl
@[simp] theorem State.modWindow_staleRids (s : State) (w : Nat) (f : WinState → WinState) : (s.modWindow w f).staleRids = s.staleRids := rfl
@[simp] theorem State.modWindow_branchSince (s : State) (w : Nat) (f : WinState → WinState) : (s.modWindow w f).branchSince = s.branchSince := rfl
@[simp] theorem State.modWindow_elem (s : State) (w : Nat) (f : WinState → WinState) (i : Nat) : (s.modWindow w f).elem i = s.elem i := rfl
@[simp] theorem State.modWindow_grove (s : State) (w : Nat) (f : WinState → WinState) (i : Nat) : (s.modWindow w f).grove i = s.grove i := rfl
@[simp] theorem State.modWindow_task (s : State) (w : Nat) (f : WinState → WinState) (i : Nat) : (s.modWindow w f).task i = s.task i := rfl
@[simp] theorem State.modWindow_taskOpt (s : State) (w : Nat) (f : WinState → WinState) (i : Nat) : (s.modWindow w f).task? i = s.task? i := rfl
@[simp] theorem State.modWindow_ctx (s : State) (w : Nat) (f : WinState → WinState) (i : Nat) : (s.modWindow w f).ctx i = s.ctx i := rfl
@[simp] theorem State.modWindow_part (s : State) (w : Nat) (f : WinState → WinState) (i : Nat) : (s.modWindow w f).part i = s.part i := rfl
@[simp] theorem State.modWindow_port (s : State) (w : Nat) (f : WinState → WinState) (i : Nat) : (s.modWindow w f).port i = s.port i := rfl
@[simp] theorem State.modWindow_bank (s : State) (w : Nat) (f : WinState → WinState) (i : Nat) : (s.modWindow w f).bank i = s.bank i := rfl
@[simp] theorem State.modWindow_wordMeta (s : State) (w : Nat) (f : WinState → WinState) (i : Nat) : (s.modWindow w f).wordMeta i = s.wordMeta i := rfl
@[simp] theorem State.modWindow_sector (s : State) (w : Nat) (f : WinState → WinState) (i : Nat) : (s.modWindow w f).sector i = s.sector i := rfl
@[simp] theorem State.modWindow_tokens (s : State) (w : Nat) (f : WinState → WinState) (i : Nat) : (s.modWindow w f).tokens i = s.tokens i := rfl
@[simp] theorem State.modWindow_reqOpt (s : State) (w : Nat) (f : WinState → WinState) (i : Nat) : (s.modWindow w f).req? i = s.req? i := rfl
@[simp] theorem State.modWindow_taskOfGrove (s : State) (w : Nat) (f : WinState → WinState) (i : Nat) : (s.modWindow w f).taskOfGrove i = s.taskOfGrove i := rfl
@[simp] theorem State.modWindow_taskOfElem (s : State) (w : Nat) (f : WinState → WinState) (i : Nat) : (s.modWindow w f).taskOfElem i = s.taskOfElem i := rfl
@[simp] theorem State.modWindow_partOfGrove (s : State) (w : Nat) (f : WinState → WinState) (i : Nat) : (s.modWindow w f).partOfGrove i = s.partOfGrove i := rfl
@[simp] theorem State.modWindow_supervising (s : State) (w : Nat) (f : WinState → WinState) : (s.modWindow w f).supervising = s.supervising := rfl

@[simp] theorem State.setWordMeta_agenda (s : State) (w : Nat) (m : WordMeta) : (s.setWordMeta w m).agenda = s.agenda := rfl
@[simp] theorem State.setWordMeta_moveNo (s : State) (w : Nat) (m : WordMeta) : (s.setWordMeta w m).moveNo = s.moveNo := rfl
@[simp] theorem State.setWordMeta_cur (s : State) (w : Nat) (m : WordMeta) : (s.setWordMeta w m).cur = s.cur := rfl
@[simp] theorem State.setWordMeta_nextReq (s : State) (w : Nat) (m : WordMeta) : (s.setWordMeta w m).nextReq = s.nextReq := rfl
@[simp] theorem State.setWordMeta_nextTok (s : State) (w : Nat) (m : WordMeta) : (s.setWordMeta w m).nextTok = s.nextTok := rfl
@[simp] theorem State.setWordMeta_tb (s : State) (w : Nat) (m : WordMeta) : (s.setWordMeta w m).tb = s.tb := rfl
@[simp] theorem State.setWordMeta_elems (s : State) (w : Nat) (m : WordMeta) : (s.setWordMeta w m).elems = s.elems := rfl
@[simp] theorem State.setWordMeta_groves (s : State) (w : Nat) (m : WordMeta) : (s.setWordMeta w m).groves = s.groves := rfl
@[simp] theorem State.setWordMeta_mem (s : State) (w : Nat) (m : WordMeta) : (s.setWordMeta w m).mem = s.mem := rfl
@[simp] theorem State.setWordMeta_sectors (s : State) (w : Nat) (m : WordMeta) : (s.setWordMeta w m).sectors = s.sectors := rfl
@[simp] theorem State.setWordMeta_voids (s : State) (w : Nat) (m : WordMeta) : (s.setWordMeta w m).voids = s.voids := rfl
@[simp] theorem State.setWordMeta_waiting (s : State) (w : Nat) (m : WordMeta) : (s.setWordMeta w m).waiting = s.waiting := rfl
@[simp] theorem State.setWordMeta_windows (s : State) (w : Nat) (m : WordMeta) : (s.setWordMeta w m).windows = s.windows := rfl
@[simp] theorem State.setWordMeta_banks (s : State) (w : Nat) (m : WordMeta) : (s.setWordMeta w m).banks = s.banks := rfl
@[simp] theorem State.setWordMeta_fabric (s : State) (w : Nat) (m : WordMeta) : (s.setWordMeta w m).fabric = s.fabric := rfl
@[simp] theorem State.setWordMeta_outst (s : State) (w : Nat) (m : WordMeta) : (s.setWordMeta w m).outst = s.outst := rfl
@[simp] theorem State.setWordMeta_reqs (s : State) (w : Nat) (m : WordMeta) : (s.setWordMeta w m).reqs = s.reqs := rfl
@[simp] theorem State.setWordMeta_ports (s : State) (w : Nat) (m : WordMeta) : (s.setWordMeta w m).ports = s.ports := rfl
@[simp] theorem State.setWordMeta_tasks (s : State) (w : Nat) (m : WordMeta) : (s.setWordMeta w m).tasks = s.tasks := rfl
@[simp] theorem State.setWordMeta_tags (s : State) (w : Nat) (m : WordMeta) : (s.setWordMeta w m).tags = s.tags := rfl
@[simp] theorem State.setWordMeta_ctxs (s : State) (w : Nat) (m : WordMeta) : (s.setWordMeta w m).ctxs = s.ctxs := rfl
@[simp] theorem State.setWordMeta_parts (s : State) (w : Nat) (m : WordMeta) : (s.setWordMeta w m).parts = s.parts := rfl
@[simp] theorem State.setWordMeta_staged (s : State) (w : Nat) (m : WordMeta) : (s.setWordMeta w m).staged = s.staged := rfl
@[simp] theorem State.setWordMeta_serial (s : State) (w : Nat) (m : WordMeta) : (s.setWordMeta w m).serial = s.serial := rfl
@[simp] theorem State.setWordMeta_guardPool (s : State) (w : Nat) (m : WordMeta) : (s.setWordMeta w m).guardPool = s.guardPool := rfl
@[simp] theorem State.setWordMeta_totals (s : State) (w : Nat) (m : WordMeta) : (s.setWordMeta w m).totals = s.totals := rfl
@[simp] theorem State.setWordMeta_stage (s : State) (w : Nat) (m : WordMeta) : (s.setWordMeta w m).stage = s.stage := rfl
@[simp] theorem State.setWordMeta_err (s : State) (w : Nat) (m : WordMeta) : (s.setWordMeta w m).err = s.err := rfl
@[simp] theorem State.setWordMeta_offer (s : State) (w : Nat) (m : WordMeta) : (s.setWordMeta w m).offer = s.offer := rfl
@[simp] theorem State.setWordMeta_ack (s : State) (w : Nat) (m : WordMeta) : (s.setWordMeta w m).ack = s.ack := rfl
@[simp] theorem State.setWordMeta_ackHigh (s : State) (w : Nat) (m : WordMeta) : (s.setWordMeta w m).ackHigh = s.ackHigh := rfl
@[simp] theorem State.setWordMeta_negotiated (s : State) (w : Nat) (m : WordMeta) : (s.setWordMeta w m).negotiated = s.negotiated := rfl
@[simp] theorem State.setWordMeta_moduleNo (s : State) (w : Nat) (m : WordMeta) : (s.setWordMeta w m).moduleNo = s.moduleNo := rfl
@[simp] theorem State.setWordMeta_hops (s : State) (w : Nat) (m : WordMeta) : (s.setWordMeta w m).hops = s.hops := rfl
@[simp] theorem State.setWordMeta_retired (s : State) (w : Nat) (m : WordMeta) : (s.setWordMeta w m).retired = s.retired := rfl
@[simp] theorem State.setWordMeta_eventLog (s : State) (w : Nat) (m : WordMeta) : (s.setWordMeta w m).eventLog = s.eventLog := rfl
@[simp] theorem State.setWordMeta_measures (s : State) (w : Nat) (m : WordMeta) : (s.setWordMeta w m).measures = s.measures := rfl
@[simp] theorem State.setWordMeta_measureLog (s : State) (w : Nat) (m : WordMeta) : (s.setWordMeta w m).measureLog = s.measureLog := rfl
@[simp] theorem State.setWordMeta_aliasKey (s : State) (w : Nat) (m : WordMeta) : (s.setWordMeta w m).aliasKey = s.aliasKey := rfl
@[simp] theorem State.setWordMeta_slotA (s : State) (w : Nat) (m : WordMeta) : (s.setWordMeta w m).slotA = s.slotA := rfl
@[simp] theorem State.setWordMeta_slotB (s : State) (w : Nat) (m : WordMeta) : (s.setWordMeta w m).slotB = s.slotB := rfl
@[simp] theorem State.setWordMeta_fuse (s : State) (w : Nat) (m : WordMeta) : (s.setWordMeta w m).fuse = s.fuse := rfl
@[simp] theorem State.setWordMeta_running (s : State) (w : Nat) (m : WordMeta) : (s.setWordMeta w m).running = s.running := rfl
@[simp] theorem State.setWordMeta_ideKeys (s : State) (w : Nat) (m : WordMeta) : (s.setWordMeta w m).ideKeys = s.ideKeys := rfl
@[simp] theorem State.setWordMeta_sessions (s : State) (w : Nat) (m : WordMeta) : (s.setWordMeta w m).sessions = s.sessions := rfl
@[simp] theorem State.setWordMeta_keys (s : State) (w : Nat) (m : WordMeta) : (s.setWordMeta w m).keys = s.keys := rfl
@[simp] theorem State.setWordMeta_sectorKeys (s : State) (w : Nat) (m : WordMeta) : (s.setWordMeta w m).sectorKeys = s.sectorKeys := rfl
@[simp] theorem State.setWordMeta_badMacs (s : State) (w : Nat) (m : WordMeta) : (s.setWordMeta w m).badMacs = s.badMacs := rfl
@[simp] theorem State.setWordMeta_msix (s : State) (w : Nat) (m : WordMeta) : (s.setWordMeta w m).msix = s.msix := rfl
@[simp] theorem State.setWordMeta_routes (s : State) (w : Nat) (m : WordMeta) : (s.setWordMeta w m).routes = s.routes := rfl
@[simp] theorem State.setWordMeta_hostQueue (s : State) (w : Nat) (m : WordMeta) : (s.setWordMeta w m).hostQueue = s.hostQueue := rfl
@[simp] theorem State.setWordMeta_berovo (s : State) (w : Nat) (m : WordMeta) : (s.setWordMeta w m).berovo = s.berovo := rfl
@[simp] theorem State.setWordMeta_pours (s : State) (w : Nat) (m : WordMeta) : (s.setWordMeta w m).pours = s.pours := rfl
@[simp] theorem State.setWordMeta_outputs (s : State) (w : Nat) (m : WordMeta) : (s.setWordMeta w m).outputs = s.outputs := rfl
@[simp] theorem State.setWordMeta_lateReplies (s : State) (w : Nat) (m : WordMeta) : (s.setWordMeta w m).lateReplies = s.lateReplies := rfl
@[simp] theorem State.setWordMeta_staleRids (s : State) (w : Nat) (m : WordMeta) : (s.setWordMeta w m).staleRids = s.staleRids := rfl
@[simp] theorem State.setWordMeta_branchSince (s : State) (w : Nat) (m : WordMeta) : (s.setWordMeta w m).branchSince = s.branchSince := rfl
@[simp] theorem State.setWordMeta_elem (s : State) (w : Nat) (m : WordMeta) (i : Nat) : (s.setWordMeta w m).elem i = s.elem i := rfl
@[simp] theorem State.setWordMeta_grove (s : State) (w : Nat) (m : WordMeta) (i : Nat) : (s.setWordMeta w m).grove i = s.grove i := rfl
@[simp] theorem State.setWordMeta_task (s : State) (w : Nat) (m : WordMeta) (i : Nat) : (s.setWordMeta w m).task i = s.task i := rfl
@[simp] theorem State.setWordMeta_taskOpt (s : State) (w : Nat) (m : WordMeta) (i : Nat) : (s.setWordMeta w m).task? i = s.task? i := rfl
@[simp] theorem State.setWordMeta_ctx (s : State) (w : Nat) (m : WordMeta) (i : Nat) : (s.setWordMeta w m).ctx i = s.ctx i := rfl
@[simp] theorem State.setWordMeta_part (s : State) (w : Nat) (m : WordMeta) (i : Nat) : (s.setWordMeta w m).part i = s.part i := rfl
@[simp] theorem State.setWordMeta_port (s : State) (w : Nat) (m : WordMeta) (i : Nat) : (s.setWordMeta w m).port i = s.port i := rfl
@[simp] theorem State.setWordMeta_bank (s : State) (w : Nat) (m : WordMeta) (i : Nat) : (s.setWordMeta w m).bank i = s.bank i := rfl
@[simp] theorem State.setWordMeta_window (s : State) (w : Nat) (m : WordMeta) (i : Nat) : (s.setWordMeta w m).window i = s.window i := rfl
@[simp] theorem State.setWordMeta_sector (s : State) (w : Nat) (m : WordMeta) (i : Nat) : (s.setWordMeta w m).sector i = s.sector i := rfl
@[simp] theorem State.setWordMeta_tokens (s : State) (w : Nat) (m : WordMeta) (i : Nat) : (s.setWordMeta w m).tokens i = s.tokens i := rfl
@[simp] theorem State.setWordMeta_reqOpt (s : State) (w : Nat) (m : WordMeta) (i : Nat) : (s.setWordMeta w m).req? i = s.req? i := rfl
@[simp] theorem State.setWordMeta_taskOfGrove (s : State) (w : Nat) (m : WordMeta) (i : Nat) : (s.setWordMeta w m).taskOfGrove i = s.taskOfGrove i := rfl
@[simp] theorem State.setWordMeta_taskOfElem (s : State) (w : Nat) (m : WordMeta) (i : Nat) : (s.setWordMeta w m).taskOfElem i = s.taskOfElem i := rfl
@[simp] theorem State.setWordMeta_partOfGrove (s : State) (w : Nat) (m : WordMeta) (i : Nat) : (s.setWordMeta w m).partOfGrove i = s.partOfGrove i := rfl
@[simp] theorem State.setWordMeta_supervising (s : State) (w : Nat) (m : WordMeta) : (s.setWordMeta w m).supervising = s.supervising := rfl

@[simp] theorem State.setSector_agenda (s : State) (n : Nat) (m : SectorMeta) : (s.setSector n m).agenda = s.agenda := rfl
@[simp] theorem State.setSector_moveNo (s : State) (n : Nat) (m : SectorMeta) : (s.setSector n m).moveNo = s.moveNo := rfl
@[simp] theorem State.setSector_cur (s : State) (n : Nat) (m : SectorMeta) : (s.setSector n m).cur = s.cur := rfl
@[simp] theorem State.setSector_nextReq (s : State) (n : Nat) (m : SectorMeta) : (s.setSector n m).nextReq = s.nextReq := rfl
@[simp] theorem State.setSector_nextTok (s : State) (n : Nat) (m : SectorMeta) : (s.setSector n m).nextTok = s.nextTok := rfl
@[simp] theorem State.setSector_tb (s : State) (n : Nat) (m : SectorMeta) : (s.setSector n m).tb = s.tb := rfl
@[simp] theorem State.setSector_elems (s : State) (n : Nat) (m : SectorMeta) : (s.setSector n m).elems = s.elems := rfl
@[simp] theorem State.setSector_groves (s : State) (n : Nat) (m : SectorMeta) : (s.setSector n m).groves = s.groves := rfl
@[simp] theorem State.setSector_mem (s : State) (n : Nat) (m : SectorMeta) : (s.setSector n m).mem = s.mem := rfl
@[simp] theorem State.setSector_words (s : State) (n : Nat) (m : SectorMeta) : (s.setSector n m).words = s.words := rfl
@[simp] theorem State.setSector_voids (s : State) (n : Nat) (m : SectorMeta) : (s.setSector n m).voids = s.voids := rfl
@[simp] theorem State.setSector_waiting (s : State) (n : Nat) (m : SectorMeta) : (s.setSector n m).waiting = s.waiting := rfl
@[simp] theorem State.setSector_windows (s : State) (n : Nat) (m : SectorMeta) : (s.setSector n m).windows = s.windows := rfl
@[simp] theorem State.setSector_banks (s : State) (n : Nat) (m : SectorMeta) : (s.setSector n m).banks = s.banks := rfl
@[simp] theorem State.setSector_fabric (s : State) (n : Nat) (m : SectorMeta) : (s.setSector n m).fabric = s.fabric := rfl
@[simp] theorem State.setSector_outst (s : State) (n : Nat) (m : SectorMeta) : (s.setSector n m).outst = s.outst := rfl
@[simp] theorem State.setSector_reqs (s : State) (n : Nat) (m : SectorMeta) : (s.setSector n m).reqs = s.reqs := rfl
@[simp] theorem State.setSector_ports (s : State) (n : Nat) (m : SectorMeta) : (s.setSector n m).ports = s.ports := rfl
@[simp] theorem State.setSector_tasks (s : State) (n : Nat) (m : SectorMeta) : (s.setSector n m).tasks = s.tasks := rfl
@[simp] theorem State.setSector_tags (s : State) (n : Nat) (m : SectorMeta) : (s.setSector n m).tags = s.tags := rfl
@[simp] theorem State.setSector_ctxs (s : State) (n : Nat) (m : SectorMeta) : (s.setSector n m).ctxs = s.ctxs := rfl
@[simp] theorem State.setSector_parts (s : State) (n : Nat) (m : SectorMeta) : (s.setSector n m).parts = s.parts := rfl
@[simp] theorem State.setSector_staged (s : State) (n : Nat) (m : SectorMeta) : (s.setSector n m).staged = s.staged := rfl
@[simp] theorem State.setSector_serial (s : State) (n : Nat) (m : SectorMeta) : (s.setSector n m).serial = s.serial := rfl
@[simp] theorem State.setSector_guardPool (s : State) (n : Nat) (m : SectorMeta) : (s.setSector n m).guardPool = s.guardPool := rfl
@[simp] theorem State.setSector_totals (s : State) (n : Nat) (m : SectorMeta) : (s.setSector n m).totals = s.totals := rfl
@[simp] theorem State.setSector_stage (s : State) (n : Nat) (m : SectorMeta) : (s.setSector n m).stage = s.stage := rfl
@[simp] theorem State.setSector_err (s : State) (n : Nat) (m : SectorMeta) : (s.setSector n m).err = s.err := rfl
@[simp] theorem State.setSector_offer (s : State) (n : Nat) (m : SectorMeta) : (s.setSector n m).offer = s.offer := rfl
@[simp] theorem State.setSector_ack (s : State) (n : Nat) (m : SectorMeta) : (s.setSector n m).ack = s.ack := rfl
@[simp] theorem State.setSector_ackHigh (s : State) (n : Nat) (m : SectorMeta) : (s.setSector n m).ackHigh = s.ackHigh := rfl
@[simp] theorem State.setSector_negotiated (s : State) (n : Nat) (m : SectorMeta) : (s.setSector n m).negotiated = s.negotiated := rfl
@[simp] theorem State.setSector_moduleNo (s : State) (n : Nat) (m : SectorMeta) : (s.setSector n m).moduleNo = s.moduleNo := rfl
@[simp] theorem State.setSector_hops (s : State) (n : Nat) (m : SectorMeta) : (s.setSector n m).hops = s.hops := rfl
@[simp] theorem State.setSector_retired (s : State) (n : Nat) (m : SectorMeta) : (s.setSector n m).retired = s.retired := rfl
@[simp] theorem State.setSector_eventLog (s : State) (n : Nat) (m : SectorMeta) : (s.setSector n m).eventLog = s.eventLog := rfl
@[simp] theorem State.setSector_measures (s : State) (n : Nat) (m : SectorMeta) : (s.setSector n m).measures = s.measures := rfl
@[simp] theorem State.setSector_measureLog (s : State) (n : Nat) (m : SectorMeta) : (s.setSector n m).measureLog = s.measureLog := rfl
@[simp] theorem State.setSector_aliasKey (s : State) (n : Nat) (m : SectorMeta) : (s.setSector n m).aliasKey = s.aliasKey := rfl
@[simp] theorem State.setSector_slotA (s : State) (n : Nat) (m : SectorMeta) : (s.setSector n m).slotA = s.slotA := rfl
@[simp] theorem State.setSector_slotB (s : State) (n : Nat) (m : SectorMeta) : (s.setSector n m).slotB = s.slotB := rfl
@[simp] theorem State.setSector_fuse (s : State) (n : Nat) (m : SectorMeta) : (s.setSector n m).fuse = s.fuse := rfl
@[simp] theorem State.setSector_running (s : State) (n : Nat) (m : SectorMeta) : (s.setSector n m).running = s.running := rfl
@[simp] theorem State.setSector_ideKeys (s : State) (n : Nat) (m : SectorMeta) : (s.setSector n m).ideKeys = s.ideKeys := rfl
@[simp] theorem State.setSector_sessions (s : State) (n : Nat) (m : SectorMeta) : (s.setSector n m).sessions = s.sessions := rfl
@[simp] theorem State.setSector_keys (s : State) (n : Nat) (m : SectorMeta) : (s.setSector n m).keys = s.keys := rfl
@[simp] theorem State.setSector_sectorKeys (s : State) (n : Nat) (m : SectorMeta) : (s.setSector n m).sectorKeys = s.sectorKeys := rfl
@[simp] theorem State.setSector_badMacs (s : State) (n : Nat) (m : SectorMeta) : (s.setSector n m).badMacs = s.badMacs := rfl
@[simp] theorem State.setSector_msix (s : State) (n : Nat) (m : SectorMeta) : (s.setSector n m).msix = s.msix := rfl
@[simp] theorem State.setSector_routes (s : State) (n : Nat) (m : SectorMeta) : (s.setSector n m).routes = s.routes := rfl
@[simp] theorem State.setSector_hostQueue (s : State) (n : Nat) (m : SectorMeta) : (s.setSector n m).hostQueue = s.hostQueue := rfl
@[simp] theorem State.setSector_berovo (s : State) (n : Nat) (m : SectorMeta) : (s.setSector n m).berovo = s.berovo := rfl
@[simp] theorem State.setSector_pours (s : State) (n : Nat) (m : SectorMeta) : (s.setSector n m).pours = s.pours := rfl
@[simp] theorem State.setSector_outputs (s : State) (n : Nat) (m : SectorMeta) : (s.setSector n m).outputs = s.outputs := rfl
@[simp] theorem State.setSector_lateReplies (s : State) (n : Nat) (m : SectorMeta) : (s.setSector n m).lateReplies = s.lateReplies := rfl
@[simp] theorem State.setSector_staleRids (s : State) (n : Nat) (m : SectorMeta) : (s.setSector n m).staleRids = s.staleRids := rfl
@[simp] theorem State.setSector_branchSince (s : State) (n : Nat) (m : SectorMeta) : (s.setSector n m).branchSince = s.branchSince := rfl
@[simp] theorem State.setSector_elem (s : State) (n : Nat) (m : SectorMeta) (i : Nat) : (s.setSector n m).elem i = s.elem i := rfl
@[simp] theorem State.setSector_grove (s : State) (n : Nat) (m : SectorMeta) (i : Nat) : (s.setSector n m).grove i = s.grove i := rfl
@[simp] theorem State.setSector_task (s : State) (n : Nat) (m : SectorMeta) (i : Nat) : (s.setSector n m).task i = s.task i := rfl
@[simp] theorem State.setSector_taskOpt (s : State) (n : Nat) (m : SectorMeta) (i : Nat) : (s.setSector n m).task? i = s.task? i := rfl
@[simp] theorem State.setSector_ctx (s : State) (n : Nat) (m : SectorMeta) (i : Nat) : (s.setSector n m).ctx i = s.ctx i := rfl
@[simp] theorem State.setSector_part (s : State) (n : Nat) (m : SectorMeta) (i : Nat) : (s.setSector n m).part i = s.part i := rfl
@[simp] theorem State.setSector_port (s : State) (n : Nat) (m : SectorMeta) (i : Nat) : (s.setSector n m).port i = s.port i := rfl
@[simp] theorem State.setSector_bank (s : State) (n : Nat) (m : SectorMeta) (i : Nat) : (s.setSector n m).bank i = s.bank i := rfl
@[simp] theorem State.setSector_window (s : State) (n : Nat) (m : SectorMeta) (i : Nat) : (s.setSector n m).window i = s.window i := rfl
@[simp] theorem State.setSector_wordMeta (s : State) (n : Nat) (m : SectorMeta) (i : Nat) : (s.setSector n m).wordMeta i = s.wordMeta i := rfl
@[simp] theorem State.setSector_tokens (s : State) (n : Nat) (m : SectorMeta) (i : Nat) : (s.setSector n m).tokens i = s.tokens i := rfl
@[simp] theorem State.setSector_reqOpt (s : State) (n : Nat) (m : SectorMeta) (i : Nat) : (s.setSector n m).req? i = s.req? i := rfl
@[simp] theorem State.setSector_taskOfGrove (s : State) (n : Nat) (m : SectorMeta) (i : Nat) : (s.setSector n m).taskOfGrove i = s.taskOfGrove i := rfl
@[simp] theorem State.setSector_taskOfElem (s : State) (n : Nat) (m : SectorMeta) (i : Nat) : (s.setSector n m).taskOfElem i = s.taskOfElem i := rfl
@[simp] theorem State.setSector_partOfGrove (s : State) (n : Nat) (m : SectorMeta) (i : Nat) : (s.setSector n m).partOfGrove i = s.partOfGrove i := rfl
@[simp] theorem State.setSector_supervising (s : State) (n : Nat) (m : SectorMeta) : (s.setSector n m).supervising = s.supervising := rfl

@[simp] theorem State.setTokens_agenda (s : State) (k : Nat) (q : List Token) : (s.setTokens k q).agenda = s.agenda := rfl
@[simp] theorem State.setTokens_moveNo (s : State) (k : Nat) (q : List Token) : (s.setTokens k q).moveNo = s.moveNo := rfl
@[simp] theorem State.setTokens_cur (s : State) (k : Nat) (q : List Token) : (s.setTokens k q).cur = s.cur := rfl
@[simp] theorem State.setTokens_nextReq (s : State) (k : Nat) (q : List Token) : (s.setTokens k q).nextReq = s.nextReq := rfl
@[simp] theorem State.setTokens_nextTok (s : State) (k : Nat) (q : List Token) : (s.setTokens k q).nextTok = s.nextTok := rfl
@[simp] theorem State.setTokens_tb (s : State) (k : Nat) (q : List Token) : (s.setTokens k q).tb = s.tb := rfl
@[simp] theorem State.setTokens_elems (s : State) (k : Nat) (q : List Token) : (s.setTokens k q).elems = s.elems := rfl
@[simp] theorem State.setTokens_groves (s : State) (k : Nat) (q : List Token) : (s.setTokens k q).groves = s.groves := rfl
@[simp] theorem State.setTokens_mem (s : State) (k : Nat) (q : List Token) : (s.setTokens k q).mem = s.mem := rfl
@[simp] theorem State.setTokens_words (s : State) (k : Nat) (q : List Token) : (s.setTokens k q).words = s.words := rfl
@[simp] theorem State.setTokens_sectors (s : State) (k : Nat) (q : List Token) : (s.setTokens k q).sectors = s.sectors := rfl
@[simp] theorem State.setTokens_voids (s : State) (k : Nat) (q : List Token) : (s.setTokens k q).voids = s.voids := rfl
@[simp] theorem State.setTokens_waiting (s : State) (k : Nat) (q : List Token) : (s.setTokens k q).waiting = s.waiting := rfl
@[simp] theorem State.setTokens_windows (s : State) (k : Nat) (q : List Token) : (s.setTokens k q).windows = s.windows := rfl
@[simp] theorem State.setTokens_banks (s : State) (k : Nat) (q : List Token) : (s.setTokens k q).banks = s.banks := rfl
@[simp] theorem State.setTokens_outst (s : State) (k : Nat) (q : List Token) : (s.setTokens k q).outst = s.outst := rfl
@[simp] theorem State.setTokens_reqs (s : State) (k : Nat) (q : List Token) : (s.setTokens k q).reqs = s.reqs := rfl
@[simp] theorem State.setTokens_ports (s : State) (k : Nat) (q : List Token) : (s.setTokens k q).ports = s.ports := rfl
@[simp] theorem State.setTokens_tasks (s : State) (k : Nat) (q : List Token) : (s.setTokens k q).tasks = s.tasks := rfl
@[simp] theorem State.setTokens_tags (s : State) (k : Nat) (q : List Token) : (s.setTokens k q).tags = s.tags := rfl
@[simp] theorem State.setTokens_ctxs (s : State) (k : Nat) (q : List Token) : (s.setTokens k q).ctxs = s.ctxs := rfl
@[simp] theorem State.setTokens_parts (s : State) (k : Nat) (q : List Token) : (s.setTokens k q).parts = s.parts := rfl
@[simp] theorem State.setTokens_staged (s : State) (k : Nat) (q : List Token) : (s.setTokens k q).staged = s.staged := rfl
@[simp] theorem State.setTokens_serial (s : State) (k : Nat) (q : List Token) : (s.setTokens k q).serial = s.serial := rfl
@[simp] theorem State.setTokens_guardPool (s : State) (k : Nat) (q : List Token) : (s.setTokens k q).guardPool = s.guardPool := rfl
@[simp] theorem State.setTokens_totals (s : State) (k : Nat) (q : List Token) : (s.setTokens k q).totals = s.totals := rfl
@[simp] theorem State.setTokens_stage (s : State) (k : Nat) (q : List Token) : (s.setTokens k q).stage = s.stage := rfl
@[simp] theorem State.setTokens_err (s : State) (k : Nat) (q : List Token) : (s.setTokens k q).err = s.err := rfl
@[simp] theorem State.setTokens_offer (s : State) (k : Nat) (q : List Token) : (s.setTokens k q).offer = s.offer := rfl
@[simp] theorem State.setTokens_ack (s : State) (k : Nat) (q : List Token) : (s.setTokens k q).ack = s.ack := rfl
@[simp] theorem State.setTokens_ackHigh (s : State) (k : Nat) (q : List Token) : (s.setTokens k q).ackHigh = s.ackHigh := rfl
@[simp] theorem State.setTokens_negotiated (s : State) (k : Nat) (q : List Token) : (s.setTokens k q).negotiated = s.negotiated := rfl
@[simp] theorem State.setTokens_moduleNo (s : State) (k : Nat) (q : List Token) : (s.setTokens k q).moduleNo = s.moduleNo := rfl
@[simp] theorem State.setTokens_hops (s : State) (k : Nat) (q : List Token) : (s.setTokens k q).hops = s.hops := rfl
@[simp] theorem State.setTokens_retired (s : State) (k : Nat) (q : List Token) : (s.setTokens k q).retired = s.retired := rfl
@[simp] theorem State.setTokens_eventLog (s : State) (k : Nat) (q : List Token) : (s.setTokens k q).eventLog = s.eventLog := rfl
@[simp] theorem State.setTokens_measures (s : State) (k : Nat) (q : List Token) : (s.setTokens k q).measures = s.measures := rfl
@[simp] theorem State.setTokens_measureLog (s : State) (k : Nat) (q : List Token) : (s.setTokens k q).measureLog = s.measureLog := rfl
@[simp] theorem State.setTokens_aliasKey (s : State) (k : Nat) (q : List Token) : (s.setTokens k q).aliasKey = s.aliasKey := rfl
@[simp] theorem State.setTokens_slotA (s : State) (k : Nat) (q : List Token) : (s.setTokens k q).slotA = s.slotA := rfl
@[simp] theorem State.setTokens_slotB (s : State) (k : Nat) (q : List Token) : (s.setTokens k q).slotB = s.slotB := rfl
@[simp] theorem State.setTokens_fuse (s : State) (k : Nat) (q : List Token) : (s.setTokens k q).fuse = s.fuse := rfl
@[simp] theorem State.setTokens_running (s : State) (k : Nat) (q : List Token) : (s.setTokens k q).running = s.running := rfl
@[simp] theorem State.setTokens_ideKeys (s : State) (k : Nat) (q : List Token) : (s.setTokens k q).ideKeys = s.ideKeys := rfl
@[simp] theorem State.setTokens_sessions (s : State) (k : Nat) (q : List Token) : (s.setTokens k q).sessions = s.sessions := rfl
@[simp] theorem State.setTokens_keys (s : State) (k : Nat) (q : List Token) : (s.setTokens k q).keys = s.keys := rfl
@[simp] theorem State.setTokens_sectorKeys (s : State) (k : Nat) (q : List Token) : (s.setTokens k q).sectorKeys = s.sectorKeys := rfl
@[simp] theorem State.setTokens_badMacs (s : State) (k : Nat) (q : List Token) : (s.setTokens k q).badMacs = s.badMacs := rfl
@[simp] theorem State.setTokens_msix (s : State) (k : Nat) (q : List Token) : (s.setTokens k q).msix = s.msix := rfl
@[simp] theorem State.setTokens_routes (s : State) (k : Nat) (q : List Token) : (s.setTokens k q).routes = s.routes := rfl
@[simp] theorem State.setTokens_hostQueue (s : State) (k : Nat) (q : List Token) : (s.setTokens k q).hostQueue = s.hostQueue := rfl
@[simp] theorem State.setTokens_berovo (s : State) (k : Nat) (q : List Token) : (s.setTokens k q).berovo = s.berovo := rfl
@[simp] theorem State.setTokens_pours (s : State) (k : Nat) (q : List Token) : (s.setTokens k q).pours = s.pours := rfl
@[simp] theorem State.setTokens_outputs (s : State) (k : Nat) (q : List Token) : (s.setTokens k q).outputs = s.outputs := rfl
@[simp] theorem State.setTokens_lateReplies (s : State) (k : Nat) (q : List Token) : (s.setTokens k q).lateReplies = s.lateReplies := rfl
@[simp] theorem State.setTokens_staleRids (s : State) (k : Nat) (q : List Token) : (s.setTokens k q).staleRids = s.staleRids := rfl
@[simp] theorem State.setTokens_branchSince (s : State) (k : Nat) (q : List Token) : (s.setTokens k q).branchSince = s.branchSince := rfl
@[simp] theorem State.setTokens_elem (s : State) (k : Nat) (q : List Token) (i : Nat) : (s.setTokens k q).elem i = s.elem i := rfl
@[simp] theorem State.setTokens_grove (s : State) (k : Nat) (q : List Token) (i : Nat) : (s.setTokens k q).grove i = s.grove i := rfl
@[simp] theorem State.setTokens_task (s : State) (k : Nat) (q : List Token) (i : Nat) : (s.setTokens k q).task i = s.task i := rfl
@[simp] theorem State.setTokens_taskOpt (s : State) (k : Nat) (q : List Token) (i : Nat) : (s.setTokens k q).task? i = s.task? i := rfl
@[simp] theorem State.setTokens_ctx (s : State) (k : Nat) (q : List Token) (i : Nat) : (s.setTokens k q).ctx i = s.ctx i := rfl
@[simp] theorem State.setTokens_part (s : State) (k : Nat) (q : List Token) (i : Nat) : (s.setTokens k q).part i = s.part i := rfl
@[simp] theorem State.setTokens_port (s : State) (k : Nat) (q : List Token) (i : Nat) : (s.setTokens k q).port i = s.port i := rfl
@[simp] theorem State.setTokens_bank (s : State) (k : Nat) (q : List Token) (i : Nat) : (s.setTokens k q).bank i = s.bank i := rfl
@[simp] theorem State.setTokens_window (s : State) (k : Nat) (q : List Token) (i : Nat) : (s.setTokens k q).window i = s.window i := rfl
@[simp] theorem State.setTokens_wordMeta (s : State) (k : Nat) (q : List Token) (i : Nat) : (s.setTokens k q).wordMeta i = s.wordMeta i := rfl
@[simp] theorem State.setTokens_sector (s : State) (k : Nat) (q : List Token) (i : Nat) : (s.setTokens k q).sector i = s.sector i := rfl
@[simp] theorem State.setTokens_reqOpt (s : State) (k : Nat) (q : List Token) (i : Nat) : (s.setTokens k q).req? i = s.req? i := rfl
@[simp] theorem State.setTokens_taskOfGrove (s : State) (k : Nat) (q : List Token) (i : Nat) : (s.setTokens k q).taskOfGrove i = s.taskOfGrove i := rfl
@[simp] theorem State.setTokens_taskOfElem (s : State) (k : Nat) (q : List Token) (i : Nat) : (s.setTokens k q).taskOfElem i = s.taskOfElem i := rfl
@[simp] theorem State.setTokens_partOfGrove (s : State) (k : Nat) (q : List Token) (i : Nat) : (s.setTokens k q).partOfGrove i = s.partOfGrove i := rfl
@[simp] theorem State.setTokens_supervising (s : State) (k : Nat) (q : List Token) : (s.setTokens k q).supervising = s.supervising := rfl

@[simp] theorem State.setReq_agenda (s : State) (r : Nat) (x : Req) : (s.setReq r x).agenda = s.agenda := rfl
@[simp] theorem State.setReq_moveNo (s : State) (r : Nat) (x : Req) : (s.setReq r x).moveNo = s.moveNo := rfl
@[simp] theorem State.setReq_cur (s : State) (r : Nat) (x : Req) : (s.setReq r x).cur = s.cur := rfl
@[simp] theorem State.setReq_nextReq (s : State) (r : Nat) (x : Req) : (s.setReq r x).nextReq = s.nextReq := rfl
@[simp] theorem State.setReq_nextTok (s : State) (r : Nat) (x : Req) : (s.setReq r x).nextTok = s.nextTok := rfl
@[simp] theorem State.setReq_tb (s : State) (r : Nat) (x : Req) : (s.setReq r x).tb = s.tb := rfl
@[simp] theorem State.setReq_elems (s : State) (r : Nat) (x : Req) : (s.setReq r x).elems = s.elems := rfl
@[simp] theorem State.setReq_groves (s : State) (r : Nat) (x : Req) : (s.setReq r x).groves = s.groves := rfl
@[simp] theorem State.setReq_mem (s : State) (r : Nat) (x : Req) : (s.setReq r x).mem = s.mem := rfl
@[simp] theorem State.setReq_words (s : State) (r : Nat) (x : Req) : (s.setReq r x).words = s.words := rfl
@[simp] theorem State.setReq_sectors (s : State) (r : Nat) (x : Req) : (s.setReq r x).sectors = s.sectors := rfl
@[simp] theorem State.setReq_voids (s : State) (r : Nat) (x : Req) : (s.setReq r x).voids = s.voids := rfl
@[simp] theorem State.setReq_waiting (s : State) (r : Nat) (x : Req) : (s.setReq r x).waiting = s.waiting := rfl
@[simp] theorem State.setReq_windows (s : State) (r : Nat) (x : Req) : (s.setReq r x).windows = s.windows := rfl
@[simp] theorem State.setReq_banks (s : State) (r : Nat) (x : Req) : (s.setReq r x).banks = s.banks := rfl
@[simp] theorem State.setReq_fabric (s : State) (r : Nat) (x : Req) : (s.setReq r x).fabric = s.fabric := rfl
@[simp] theorem State.setReq_outst (s : State) (r : Nat) (x : Req) : (s.setReq r x).outst = s.outst := rfl
@[simp] theorem State.setReq_ports (s : State) (r : Nat) (x : Req) : (s.setReq r x).ports = s.ports := rfl
@[simp] theorem State.setReq_tasks (s : State) (r : Nat) (x : Req) : (s.setReq r x).tasks = s.tasks := rfl
@[simp] theorem State.setReq_tags (s : State) (r : Nat) (x : Req) : (s.setReq r x).tags = s.tags := rfl
@[simp] theorem State.setReq_ctxs (s : State) (r : Nat) (x : Req) : (s.setReq r x).ctxs = s.ctxs := rfl
@[simp] theorem State.setReq_parts (s : State) (r : Nat) (x : Req) : (s.setReq r x).parts = s.parts := rfl
@[simp] theorem State.setReq_staged (s : State) (r : Nat) (x : Req) : (s.setReq r x).staged = s.staged := rfl
@[simp] theorem State.setReq_serial (s : State) (r : Nat) (x : Req) : (s.setReq r x).serial = s.serial := rfl
@[simp] theorem State.setReq_guardPool (s : State) (r : Nat) (x : Req) : (s.setReq r x).guardPool = s.guardPool := rfl
@[simp] theorem State.setReq_totals (s : State) (r : Nat) (x : Req) : (s.setReq r x).totals = s.totals := rfl
@[simp] theorem State.setReq_stage (s : State) (r : Nat) (x : Req) : (s.setReq r x).stage = s.stage := rfl
@[simp] theorem State.setReq_err (s : State) (r : Nat) (x : Req) : (s.setReq r x).err = s.err := rfl
@[simp] theorem State.setReq_offer (s : State) (r : Nat) (x : Req) : (s.setReq r x).offer = s.offer := rfl
@[simp] theorem State.setReq_ack (s : State) (r : Nat) (x : Req) : (s.setReq r x).ack = s.ack := rfl
@[simp] theorem State.setReq_ackHigh (s : State) (r : Nat) (x : Req) : (s.setReq r x).ackHigh = s.ackHigh := rfl
@[simp] theorem State.setReq_negotiated (s : State) (r : Nat) (x : Req) : (s.setReq r x).negotiated = s.negotiated := rfl
@[simp] theorem State.setReq_moduleNo (s : State) (r : Nat) (x : Req) : (s.setReq r x).moduleNo = s.moduleNo := rfl
@[simp] theorem State.setReq_hops (s : State) (r : Nat) (x : Req) : (s.setReq r x).hops = s.hops := rfl
@[simp] theorem State.setReq_retired (s : State) (r : Nat) (x : Req) : (s.setReq r x).retired = s.retired := rfl
@[simp] theorem State.setReq_eventLog (s : State) (r : Nat) (x : Req) : (s.setReq r x).eventLog = s.eventLog := rfl
@[simp] theorem State.setReq_measures (s : State) (r : Nat) (x : Req) : (s.setReq r x).measures = s.measures := rfl
@[simp] theorem State.setReq_measureLog (s : State) (r : Nat) (x : Req) : (s.setReq r x).measureLog = s.measureLog := rfl
@[simp] theorem State.setReq_aliasKey (s : State) (r : Nat) (x : Req) : (s.setReq r x).aliasKey = s.aliasKey := rfl
@[simp] theorem State.setReq_slotA (s : State) (r : Nat) (x : Req) : (s.setReq r x).slotA = s.slotA := rfl
@[simp] theorem State.setReq_slotB (s : State) (r : Nat) (x : Req) : (s.setReq r x).slotB = s.slotB := rfl
@[simp] theorem State.setReq_fuse (s : State) (r : Nat) (x : Req) : (s.setReq r x).fuse = s.fuse := rfl
@[simp] theorem State.setReq_running (s : State) (r : Nat) (x : Req) : (s.setReq r x).running = s.running := rfl
@[simp] theorem State.setReq_ideKeys (s : State) (r : Nat) (x : Req) : (s.setReq r x).ideKeys = s.ideKeys := rfl
@[simp] theorem State.setReq_sessions (s : State) (r : Nat) (x : Req) : (s.setReq r x).sessions = s.sessions := rfl
@[simp] theorem State.setReq_keys (s : State) (r : Nat) (x : Req) : (s.setReq r x).keys = s.keys := rfl
@[simp] theorem State.setReq_sectorKeys (s : State) (r : Nat) (x : Req) : (s.setReq r x).sectorKeys = s.sectorKeys := rfl
@[simp] theorem State.setReq_badMacs (s : State) (r : Nat) (x : Req) : (s.setReq r x).badMacs = s.badMacs := rfl
@[simp] theorem State.setReq_msix (s : State) (r : Nat) (x : Req) : (s.setReq r x).msix = s.msix := rfl
@[simp] theorem State.setReq_routes (s : State) (r : Nat) (x : Req) : (s.setReq r x).routes = s.routes := rfl
@[simp] theorem State.setReq_hostQueue (s : State) (r : Nat) (x : Req) : (s.setReq r x).hostQueue = s.hostQueue := rfl
@[simp] theorem State.setReq_berovo (s : State) (r : Nat) (x : Req) : (s.setReq r x).berovo = s.berovo := rfl
@[simp] theorem State.setReq_pours (s : State) (r : Nat) (x : Req) : (s.setReq r x).pours = s.pours := rfl
@[simp] theorem State.setReq_outputs (s : State) (r : Nat) (x : Req) : (s.setReq r x).outputs = s.outputs := rfl
@[simp] theorem State.setReq_lateReplies (s : State) (r : Nat) (x : Req) : (s.setReq r x).lateReplies = s.lateReplies := rfl
@[simp] theorem State.setReq_staleRids (s : State) (r : Nat) (x : Req) : (s.setReq r x).staleRids = s.staleRids := rfl
@[simp] theorem State.setReq_branchSince (s : State) (r : Nat) (x : Req) : (s.setReq r x).branchSince = s.branchSince := rfl
@[simp] theorem State.setReq_elem (s : State) (r : Nat) (x : Req) (i : Nat) : (s.setReq r x).elem i = s.elem i := rfl
@[simp] theorem State.setReq_grove (s : State) (r : Nat) (x : Req) (i : Nat) : (s.setReq r x).grove i = s.grove i := rfl
@[simp] theorem State.setReq_task (s : State) (r : Nat) (x : Req) (i : Nat) : (s.setReq r x).task i = s.task i := rfl
@[simp] theorem State.setReq_taskOpt (s : State) (r : Nat) (x : Req) (i : Nat) : (s.setReq r x).task? i = s.task? i := rfl
@[simp] theorem State.setReq_ctx (s : State) (r : Nat) (x : Req) (i : Nat) : (s.setReq r x).ctx i = s.ctx i := rfl
@[simp] theorem State.setReq_part (s : State) (r : Nat) (x : Req) (i : Nat) : (s.setReq r x).part i = s.part i := rfl
@[simp] theorem State.setReq_port (s : State) (r : Nat) (x : Req) (i : Nat) : (s.setReq r x).port i = s.port i := rfl
@[simp] theorem State.setReq_bank (s : State) (r : Nat) (x : Req) (i : Nat) : (s.setReq r x).bank i = s.bank i := rfl
@[simp] theorem State.setReq_window (s : State) (r : Nat) (x : Req) (i : Nat) : (s.setReq r x).window i = s.window i := rfl
@[simp] theorem State.setReq_wordMeta (s : State) (r : Nat) (x : Req) (i : Nat) : (s.setReq r x).wordMeta i = s.wordMeta i := rfl
@[simp] theorem State.setReq_sector (s : State) (r : Nat) (x : Req) (i : Nat) : (s.setReq r x).sector i = s.sector i := rfl
@[simp] theorem State.setReq_tokens (s : State) (r : Nat) (x : Req) (i : Nat) : (s.setReq r x).tokens i = s.tokens i := rfl
@[simp] theorem State.setReq_taskOfGrove (s : State) (r : Nat) (x : Req) (i : Nat) : (s.setReq r x).taskOfGrove i = s.taskOfGrove i := rfl
@[simp] theorem State.setReq_taskOfElem (s : State) (r : Nat) (x : Req) (i : Nat) : (s.setReq r x).taskOfElem i = s.taskOfElem i := rfl
@[simp] theorem State.setReq_partOfGrove (s : State) (r : Nat) (x : Req) (i : Nat) : (s.setReq r x).partOfGrove i = s.partOfGrove i := rfl
@[simp] theorem State.setReq_supervising (s : State) (r : Nat) (x : Req) : (s.setReq r x).supervising = s.supervising := rfl

@[simp] theorem State.dropReq_agenda (s : State) (r : Nat) : (s.dropReq r).agenda = s.agenda := rfl
@[simp] theorem State.dropReq_moveNo (s : State) (r : Nat) : (s.dropReq r).moveNo = s.moveNo := rfl
@[simp] theorem State.dropReq_cur (s : State) (r : Nat) : (s.dropReq r).cur = s.cur := rfl
@[simp] theorem State.dropReq_nextReq (s : State) (r : Nat) : (s.dropReq r).nextReq = s.nextReq := rfl
@[simp] theorem State.dropReq_nextTok (s : State) (r : Nat) : (s.dropReq r).nextTok = s.nextTok := rfl
@[simp] theorem State.dropReq_tb (s : State) (r : Nat) : (s.dropReq r).tb = s.tb := rfl
@[simp] theorem State.dropReq_elems (s : State) (r : Nat) : (s.dropReq r).elems = s.elems := rfl
@[simp] theorem State.dropReq_groves (s : State) (r : Nat) : (s.dropReq r).groves = s.groves := rfl
@[simp] theorem State.dropReq_mem (s : State) (r : Nat) : (s.dropReq r).mem = s.mem := rfl
@[simp] theorem State.dropReq_words (s : State) (r : Nat) : (s.dropReq r).words = s.words := rfl
@[simp] theorem State.dropReq_sectors (s : State) (r : Nat) : (s.dropReq r).sectors = s.sectors := rfl
@[simp] theorem State.dropReq_voids (s : State) (r : Nat) : (s.dropReq r).voids = s.voids := rfl
@[simp] theorem State.dropReq_waiting (s : State) (r : Nat) : (s.dropReq r).waiting = s.waiting := rfl
@[simp] theorem State.dropReq_windows (s : State) (r : Nat) : (s.dropReq r).windows = s.windows := rfl
@[simp] theorem State.dropReq_banks (s : State) (r : Nat) : (s.dropReq r).banks = s.banks := rfl
@[simp] theorem State.dropReq_fabric (s : State) (r : Nat) : (s.dropReq r).fabric = s.fabric := rfl
@[simp] theorem State.dropReq_outst (s : State) (r : Nat) : (s.dropReq r).outst = s.outst := rfl
@[simp] theorem State.dropReq_ports (s : State) (r : Nat) : (s.dropReq r).ports = s.ports := rfl
@[simp] theorem State.dropReq_tasks (s : State) (r : Nat) : (s.dropReq r).tasks = s.tasks := rfl
@[simp] theorem State.dropReq_tags (s : State) (r : Nat) : (s.dropReq r).tags = s.tags := rfl
@[simp] theorem State.dropReq_ctxs (s : State) (r : Nat) : (s.dropReq r).ctxs = s.ctxs := rfl
@[simp] theorem State.dropReq_parts (s : State) (r : Nat) : (s.dropReq r).parts = s.parts := rfl
@[simp] theorem State.dropReq_staged (s : State) (r : Nat) : (s.dropReq r).staged = s.staged := rfl
@[simp] theorem State.dropReq_serial (s : State) (r : Nat) : (s.dropReq r).serial = s.serial := rfl
@[simp] theorem State.dropReq_guardPool (s : State) (r : Nat) : (s.dropReq r).guardPool = s.guardPool := rfl
@[simp] theorem State.dropReq_totals (s : State) (r : Nat) : (s.dropReq r).totals = s.totals := rfl
@[simp] theorem State.dropReq_stage (s : State) (r : Nat) : (s.dropReq r).stage = s.stage := rfl
@[simp] theorem State.dropReq_err (s : State) (r : Nat) : (s.dropReq r).err = s.err := rfl
@[simp] theorem State.dropReq_offer (s : State) (r : Nat) : (s.dropReq r).offer = s.offer := rfl
@[simp] theorem State.dropReq_ack (s : State) (r : Nat) : (s.dropReq r).ack = s.ack := rfl
@[simp] theorem State.dropReq_ackHigh (s : State) (r : Nat) : (s.dropReq r).ackHigh = s.ackHigh := rfl
@[simp] theorem State.dropReq_negotiated (s : State) (r : Nat) : (s.dropReq r).negotiated = s.negotiated := rfl
@[simp] theorem State.dropReq_moduleNo (s : State) (r : Nat) : (s.dropReq r).moduleNo = s.moduleNo := rfl
@[simp] theorem State.dropReq_hops (s : State) (r : Nat) : (s.dropReq r).hops = s.hops := rfl
@[simp] theorem State.dropReq_retired (s : State) (r : Nat) : (s.dropReq r).retired = s.retired := rfl
@[simp] theorem State.dropReq_eventLog (s : State) (r : Nat) : (s.dropReq r).eventLog = s.eventLog := rfl
@[simp] theorem State.dropReq_measures (s : State) (r : Nat) : (s.dropReq r).measures = s.measures := rfl
@[simp] theorem State.dropReq_measureLog (s : State) (r : Nat) : (s.dropReq r).measureLog = s.measureLog := rfl
@[simp] theorem State.dropReq_aliasKey (s : State) (r : Nat) : (s.dropReq r).aliasKey = s.aliasKey := rfl
@[simp] theorem State.dropReq_slotA (s : State) (r : Nat) : (s.dropReq r).slotA = s.slotA := rfl
@[simp] theorem State.dropReq_slotB (s : State) (r : Nat) : (s.dropReq r).slotB = s.slotB := rfl
@[simp] theorem State.dropReq_fuse (s : State) (r : Nat) : (s.dropReq r).fuse = s.fuse := rfl
@[simp] theorem State.dropReq_running (s : State) (r : Nat) : (s.dropReq r).running = s.running := rfl
@[simp] theorem State.dropReq_ideKeys (s : State) (r : Nat) : (s.dropReq r).ideKeys = s.ideKeys := rfl
@[simp] theorem State.dropReq_sessions (s : State) (r : Nat) : (s.dropReq r).sessions = s.sessions := rfl
@[simp] theorem State.dropReq_keys (s : State) (r : Nat) : (s.dropReq r).keys = s.keys := rfl
@[simp] theorem State.dropReq_sectorKeys (s : State) (r : Nat) : (s.dropReq r).sectorKeys = s.sectorKeys := rfl
@[simp] theorem State.dropReq_badMacs (s : State) (r : Nat) : (s.dropReq r).badMacs = s.badMacs := rfl
@[simp] theorem State.dropReq_msix (s : State) (r : Nat) : (s.dropReq r).msix = s.msix := rfl
@[simp] theorem State.dropReq_routes (s : State) (r : Nat) : (s.dropReq r).routes = s.routes := rfl
@[simp] theorem State.dropReq_hostQueue (s : State) (r : Nat) : (s.dropReq r).hostQueue = s.hostQueue := rfl
@[simp] theorem State.dropReq_berovo (s : State) (r : Nat) : (s.dropReq r).berovo = s.berovo := rfl
@[simp] theorem State.dropReq_pours (s : State) (r : Nat) : (s.dropReq r).pours = s.pours := rfl
@[simp] theorem State.dropReq_outputs (s : State) (r : Nat) : (s.dropReq r).outputs = s.outputs := rfl
@[simp] theorem State.dropReq_lateReplies (s : State) (r : Nat) : (s.dropReq r).lateReplies = s.lateReplies := rfl
@[simp] theorem State.dropReq_staleRids (s : State) (r : Nat) : (s.dropReq r).staleRids = s.staleRids := rfl
@[simp] theorem State.dropReq_branchSince (s : State) (r : Nat) : (s.dropReq r).branchSince = s.branchSince := rfl
@[simp] theorem State.dropReq_elem (s : State) (r : Nat) (i : Nat) : (s.dropReq r).elem i = s.elem i := rfl
@[simp] theorem State.dropReq_grove (s : State) (r : Nat) (i : Nat) : (s.dropReq r).grove i = s.grove i := rfl
@[simp] theorem State.dropReq_task (s : State) (r : Nat) (i : Nat) : (s.dropReq r).task i = s.task i := rfl
@[simp] theorem State.dropReq_taskOpt (s : State) (r : Nat) (i : Nat) : (s.dropReq r).task? i = s.task? i := rfl
@[simp] theorem State.dropReq_ctx (s : State) (r : Nat) (i : Nat) : (s.dropReq r).ctx i = s.ctx i := rfl
@[simp] theorem State.dropReq_part (s : State) (r : Nat) (i : Nat) : (s.dropReq r).part i = s.part i := rfl
@[simp] theorem State.dropReq_port (s : State) (r : Nat) (i : Nat) : (s.dropReq r).port i = s.port i := rfl
@[simp] theorem State.dropReq_bank (s : State) (r : Nat) (i : Nat) : (s.dropReq r).bank i = s.bank i := rfl
@[simp] theorem State.dropReq_window (s : State) (r : Nat) (i : Nat) : (s.dropReq r).window i = s.window i := rfl
@[simp] theorem State.dropReq_wordMeta (s : State) (r : Nat) (i : Nat) : (s.dropReq r).wordMeta i = s.wordMeta i := rfl
@[simp] theorem State.dropReq_sector (s : State) (r : Nat) (i : Nat) : (s.dropReq r).sector i = s.sector i := rfl
@[simp] theorem State.dropReq_tokens (s : State) (r : Nat) (i : Nat) : (s.dropReq r).tokens i = s.tokens i := rfl
@[simp] theorem State.dropReq_taskOfGrove (s : State) (r : Nat) (i : Nat) : (s.dropReq r).taskOfGrove i = s.taskOfGrove i := rfl
@[simp] theorem State.dropReq_taskOfElem (s : State) (r : Nat) (i : Nat) : (s.dropReq r).taskOfElem i = s.taskOfElem i := rfl
@[simp] theorem State.dropReq_partOfGrove (s : State) (r : Nat) (i : Nat) : (s.dropReq r).partOfGrove i = s.partOfGrove i := rfl
@[simp] theorem State.dropReq_supervising (s : State) (r : Nat) : (s.dropReq r).supervising = s.supervising := rfl

@[simp] theorem State.modReq_agenda (s : State) (r : Nat) (f : Req → Req) : (s.modReq r f).agenda = s.agenda := by unfold State.modReq; split <;> rfl
@[simp] theorem State.modReq_moveNo (s : State) (r : Nat) (f : Req → Req) : (s.modReq r f).moveNo = s.moveNo := by unfold State.modReq; split <;> rfl
@[simp] theorem State.modReq_cur (s : State) (r : Nat) (f : Req → Req) : (s.modReq r f).cur = s.cur := by unfold State.modReq; split <;> rfl
@[simp] theorem State.modReq_nextReq (s : State) (r : Nat) (f : Req → Req) : (s.modReq r f).nextReq = s.nextReq := by unfold State.modReq; split <;> rfl
@[simp] theorem State.modReq_nextTok (s : State) (r : Nat) (f : Req → Req) : (s.modReq r f).nextTok = s.nextTok := by unfold State.modReq; split <;> rfl
@[simp] theorem State.modReq_tb (s : State) (r : Nat) (f : Req → Req) : (s.modReq r f).tb = s.tb := by unfold State.modReq; split <;> rfl
@[simp] theorem State.modReq_elems (s : State) (r : Nat) (f : Req → Req) : (s.modReq r f).elems = s.elems := by unfold State.modReq; split <;> rfl
@[simp] theorem State.modReq_groves (s : State) (r : Nat) (f : Req → Req) : (s.modReq r f).groves = s.groves := by unfold State.modReq; split <;> rfl
@[simp] theorem State.modReq_mem (s : State) (r : Nat) (f : Req → Req) : (s.modReq r f).mem = s.mem := by unfold State.modReq; split <;> rfl
@[simp] theorem State.modReq_words (s : State) (r : Nat) (f : Req → Req) : (s.modReq r f).words = s.words := by unfold State.modReq; split <;> rfl
@[simp] theorem State.modReq_sectors (s : State) (r : Nat) (f : Req → Req) : (s.modReq r f).sectors = s.sectors := by unfold State.modReq; split <;> rfl
@[simp] theorem State.modReq_voids (s : State) (r : Nat) (f : Req → Req) : (s.modReq r f).voids = s.voids := by unfold State.modReq; split <;> rfl
@[simp] theorem State.modReq_waiting (s : State) (r : Nat) (f : Req → Req) : (s.modReq r f).waiting = s.waiting := by unfold State.modReq; split <;> rfl
@[simp] theorem State.modReq_windows (s : State) (r : Nat) (f : Req → Req) : (s.modReq r f).windows = s.windows := by unfold State.modReq; split <;> rfl
@[simp] theorem State.modReq_banks (s : State) (r : Nat) (f : Req → Req) : (s.modReq r f).banks = s.banks := by unfold State.modReq; split <;> rfl
@[simp] theorem State.modReq_fabric (s : State) (r : Nat) (f : Req → Req) : (s.modReq r f).fabric = s.fabric := by unfold State.modReq; split <;> rfl
@[simp] theorem State.modReq_outst (s : State) (r : Nat) (f : Req → Req) : (s.modReq r f).outst = s.outst := by unfold State.modReq; split <;> rfl
@[simp] theorem State.modReq_ports (s : State) (r : Nat) (f : Req → Req) : (s.modReq r f).ports = s.ports := by unfold State.modReq; split <;> rfl
@[simp] theorem State.modReq_tasks (s : State) (r : Nat) (f : Req → Req) : (s.modReq r f).tasks = s.tasks := by unfold State.modReq; split <;> rfl
@[simp] theorem State.modReq_tags (s : State) (r : Nat) (f : Req → Req) : (s.modReq r f).tags = s.tags := by unfold State.modReq; split <;> rfl
@[simp] theorem State.modReq_ctxs (s : State) (r : Nat) (f : Req → Req) : (s.modReq r f).ctxs = s.ctxs := by unfold State.modReq; split <;> rfl
@[simp] theorem State.modReq_parts (s : State) (r : Nat) (f : Req → Req) : (s.modReq r f).parts = s.parts := by unfold State.modReq; split <;> rfl
@[simp] theorem State.modReq_staged (s : State) (r : Nat) (f : Req → Req) : (s.modReq r f).staged = s.staged := by unfold State.modReq; split <;> rfl
@[simp] theorem State.modReq_serial (s : State) (r : Nat) (f : Req → Req) : (s.modReq r f).serial = s.serial := by unfold State.modReq; split <;> rfl
@[simp] theorem State.modReq_guardPool (s : State) (r : Nat) (f : Req → Req) : (s.modReq r f).guardPool = s.guardPool := by unfold State.modReq; split <;> rfl
@[simp] theorem State.modReq_totals (s : State) (r : Nat) (f : Req → Req) : (s.modReq r f).totals = s.totals := by unfold State.modReq; split <;> rfl
@[simp] theorem State.modReq_stage (s : State) (r : Nat) (f : Req → Req) : (s.modReq r f).stage = s.stage := by unfold State.modReq; split <;> rfl
@[simp] theorem State.modReq_err (s : State) (r : Nat) (f : Req → Req) : (s.modReq r f).err = s.err := by unfold State.modReq; split <;> rfl
@[simp] theorem State.modReq_offer (s : State) (r : Nat) (f : Req → Req) : (s.modReq r f).offer = s.offer := by unfold State.modReq; split <;> rfl
@[simp] theorem State.modReq_ack (s : State) (r : Nat) (f : Req → Req) : (s.modReq r f).ack = s.ack := by unfold State.modReq; split <;> rfl
@[simp] theorem State.modReq_ackHigh (s : State) (r : Nat) (f : Req → Req) : (s.modReq r f).ackHigh = s.ackHigh := by unfold State.modReq; split <;> rfl
@[simp] theorem State.modReq_negotiated (s : State) (r : Nat) (f : Req → Req) : (s.modReq r f).negotiated = s.negotiated := by unfold State.modReq; split <;> rfl
@[simp] theorem State.modReq_moduleNo (s : State) (r : Nat) (f : Req → Req) : (s.modReq r f).moduleNo = s.moduleNo := by unfold State.modReq; split <;> rfl
@[simp] theorem State.modReq_hops (s : State) (r : Nat) (f : Req → Req) : (s.modReq r f).hops = s.hops := by unfold State.modReq; split <;> rfl
@[simp] theorem State.modReq_retired (s : State) (r : Nat) (f : Req → Req) : (s.modReq r f).retired = s.retired := by unfold State.modReq; split <;> rfl
@[simp] theorem State.modReq_eventLog (s : State) (r : Nat) (f : Req → Req) : (s.modReq r f).eventLog = s.eventLog := by unfold State.modReq; split <;> rfl
@[simp] theorem State.modReq_measures (s : State) (r : Nat) (f : Req → Req) : (s.modReq r f).measures = s.measures := by unfold State.modReq; split <;> rfl
@[simp] theorem State.modReq_measureLog (s : State) (r : Nat) (f : Req → Req) : (s.modReq r f).measureLog = s.measureLog := by unfold State.modReq; split <;> rfl
@[simp] theorem State.modReq_aliasKey (s : State) (r : Nat) (f : Req → Req) : (s.modReq r f).aliasKey = s.aliasKey := by unfold State.modReq; split <;> rfl
@[simp] theorem State.modReq_slotA (s : State) (r : Nat) (f : Req → Req) : (s.modReq r f).slotA = s.slotA := by unfold State.modReq; split <;> rfl
@[simp] theorem State.modReq_slotB (s : State) (r : Nat) (f : Req → Req) : (s.modReq r f).slotB = s.slotB := by unfold State.modReq; split <;> rfl
@[simp] theorem State.modReq_fuse (s : State) (r : Nat) (f : Req → Req) : (s.modReq r f).fuse = s.fuse := by unfold State.modReq; split <;> rfl
@[simp] theorem State.modReq_running (s : State) (r : Nat) (f : Req → Req) : (s.modReq r f).running = s.running := by unfold State.modReq; split <;> rfl
@[simp] theorem State.modReq_ideKeys (s : State) (r : Nat) (f : Req → Req) : (s.modReq r f).ideKeys = s.ideKeys := by unfold State.modReq; split <;> rfl
@[simp] theorem State.modReq_sessions (s : State) (r : Nat) (f : Req → Req) : (s.modReq r f).sessions = s.sessions := by unfold State.modReq; split <;> rfl
@[simp] theorem State.modReq_keys (s : State) (r : Nat) (f : Req → Req) : (s.modReq r f).keys = s.keys := by unfold State.modReq; split <;> rfl
@[simp] theorem State.modReq_sectorKeys (s : State) (r : Nat) (f : Req → Req) : (s.modReq r f).sectorKeys = s.sectorKeys := by unfold State.modReq; split <;> rfl
@[simp] theorem State.modReq_badMacs (s : State) (r : Nat) (f : Req → Req) : (s.modReq r f).badMacs = s.badMacs := by unfold State.modReq; split <;> rfl
@[simp] theorem State.modReq_msix (s : State) (r : Nat) (f : Req → Req) : (s.modReq r f).msix = s.msix := by unfold State.modReq; split <;> rfl
@[simp] theorem State.modReq_routes (s : State) (r : Nat) (f : Req → Req) : (s.modReq r f).routes = s.routes := by unfold State.modReq; split <;> rfl
@[simp] theorem State.modReq_hostQueue (s : State) (r : Nat) (f : Req → Req) : (s.modReq r f).hostQueue = s.hostQueue := by unfold State.modReq; split <;> rfl
@[simp] theorem State.modReq_berovo (s : State) (r : Nat) (f : Req → Req) : (s.modReq r f).berovo = s.berovo := by unfold State.modReq; split <;> rfl
@[simp] theorem State.modReq_pours (s : State) (r : Nat) (f : Req → Req) : (s.modReq r f).pours = s.pours := by unfold State.modReq; split <;> rfl
@[simp] theorem State.modReq_outputs (s : State) (r : Nat) (f : Req → Req) : (s.modReq r f).outputs = s.outputs := by unfold State.modReq; split <;> rfl
@[simp] theorem State.modReq_lateReplies (s : State) (r : Nat) (f : Req → Req) : (s.modReq r f).lateReplies = s.lateReplies := by unfold State.modReq; split <;> rfl
@[simp] theorem State.modReq_staleRids (s : State) (r : Nat) (f : Req → Req) : (s.modReq r f).staleRids = s.staleRids := by unfold State.modReq; split <;> rfl
@[simp] theorem State.modReq_branchSince (s : State) (r : Nat) (f : Req → Req) : (s.modReq r f).branchSince = s.branchSince := by unfold State.modReq; split <;> rfl
@[simp] theorem State.modReq_elem (s : State) (r : Nat) (f : Req → Req) (i : Nat) : (s.modReq r f).elem i = s.elem i := by unfold State.modReq; split <;> rfl
@[simp] theorem State.modReq_grove (s : State) (r : Nat) (f : Req → Req) (i : Nat) : (s.modReq r f).grove i = s.grove i := by unfold State.modReq; split <;> rfl
@[simp] theorem State.modReq_task (s : State) (r : Nat) (f : Req → Req) (i : Nat) : (s.modReq r f).task i = s.task i := by unfold State.modReq; split <;> rfl
@[simp] theorem State.modReq_taskOpt (s : State) (r : Nat) (f : Req → Req) (i : Nat) : (s.modReq r f).task? i = s.task? i := by unfold State.modReq; split <;> rfl
@[simp] theorem State.modReq_ctx (s : State) (r : Nat) (f : Req → Req) (i : Nat) : (s.modReq r f).ctx i = s.ctx i := by unfold State.modReq; split <;> rfl
@[simp] theorem State.modReq_part (s : State) (r : Nat) (f : Req → Req) (i : Nat) : (s.modReq r f).part i = s.part i := by unfold State.modReq; split <;> rfl
@[simp] theorem State.modReq_port (s : State) (r : Nat) (f : Req → Req) (i : Nat) : (s.modReq r f).port i = s.port i := by unfold State.modReq; split <;> rfl
@[simp] theorem State.modReq_bank (s : State) (r : Nat) (f : Req → Req) (i : Nat) : (s.modReq r f).bank i = s.bank i := by unfold State.modReq; split <;> rfl
@[simp] theorem State.modReq_window (s : State) (r : Nat) (f : Req → Req) (i : Nat) : (s.modReq r f).window i = s.window i := by unfold State.modReq; split <;> rfl
@[simp] theorem State.modReq_wordMeta (s : State) (r : Nat) (f : Req → Req) (i : Nat) : (s.modReq r f).wordMeta i = s.wordMeta i := by unfold State.modReq; split <;> rfl
@[simp] theorem State.modReq_sector (s : State) (r : Nat) (f : Req → Req) (i : Nat) : (s.modReq r f).sector i = s.sector i := by unfold State.modReq; split <;> rfl
@[simp] theorem State.modReq_tokens (s : State) (r : Nat) (f : Req → Req) (i : Nat) : (s.modReq r f).tokens i = s.tokens i := by unfold State.modReq; split <;> rfl
@[simp] theorem State.modReq_taskOfGrove (s : State) (r : Nat) (f : Req → Req) (i : Nat) : (s.modReq r f).taskOfGrove i = s.taskOfGrove i := by unfold State.modReq; split <;> rfl
@[simp] theorem State.modReq_taskOfElem (s : State) (r : Nat) (f : Req → Req) (i : Nat) : (s.modReq r f).taskOfElem i = s.taskOfElem i := by unfold State.modReq; split <;> rfl
@[simp] theorem State.modReq_partOfGrove (s : State) (r : Nat) (f : Req → Req) (i : Nat) : (s.modReq r f).partOfGrove i = s.partOfGrove i := by unfold State.modReq; split <;> rfl
@[simp] theorem State.modReq_supervising (s : State) (r : Nat) (f : Req → Req) : (s.modReq r f).supervising = s.supervising := by unfold State.modReq; split <;> rfl

@[simp] theorem State.emit_agenda (s : State) (o : Output) : (s.emit o).agenda = s.agenda := rfl
@[simp] theorem State.emit_moveNo (s : State) (o : Output) : (s.emit o).moveNo = s.moveNo := rfl
@[simp] theorem State.emit_cur (s : State) (o : Output) : (s.emit o).cur = s.cur := rfl
@[simp] theorem State.emit_nextReq (s : State) (o : Output) : (s.emit o).nextReq = s.nextReq := rfl
@[simp] theorem State.emit_nextTok (s : State) (o : Output) : (s.emit o).nextTok = s.nextTok := rfl
@[simp] theorem State.emit_tb (s : State) (o : Output) : (s.emit o).tb = s.tb := rfl
@[simp] theorem State.emit_elems (s : State) (o : Output) : (s.emit o).elems = s.elems := rfl
@[simp] theorem State.emit_groves (s : State) (o : Output) : (s.emit o).groves = s.groves := rfl
@[simp] theorem State.emit_mem (s : State) (o : Output) : (s.emit o).mem = s.mem := rfl
@[simp] theorem State.emit_words (s : State) (o : Output) : (s.emit o).words = s.words := rfl
@[simp] theorem State.emit_sectors (s : State) (o : Output) : (s.emit o).sectors = s.sectors := rfl
@[simp] theorem State.emit_voids (s : State) (o : Output) : (s.emit o).voids = s.voids := rfl
@[simp] theorem State.emit_waiting (s : State) (o : Output) : (s.emit o).waiting = s.waiting := rfl
@[simp] theorem State.emit_windows (s : State) (o : Output) : (s.emit o).windows = s.windows := rfl
@[simp] theorem State.emit_banks (s : State) (o : Output) : (s.emit o).banks = s.banks := rfl
@[simp] theorem State.emit_fabric (s : State) (o : Output) : (s.emit o).fabric = s.fabric := rfl
@[simp] theorem State.emit_outst (s : State) (o : Output) : (s.emit o).outst = s.outst := rfl
@[simp] theorem State.emit_reqs (s : State) (o : Output) : (s.emit o).reqs = s.reqs := rfl
@[simp] theorem State.emit_ports (s : State) (o : Output) : (s.emit o).ports = s.ports := rfl
@[simp] theorem State.emit_tasks (s : State) (o : Output) : (s.emit o).tasks = s.tasks := rfl
@[simp] theorem State.emit_tags (s : State) (o : Output) : (s.emit o).tags = s.tags := rfl
@[simp] theorem State.emit_ctxs (s : State) (o : Output) : (s.emit o).ctxs = s.ctxs := rfl
@[simp] theorem State.emit_parts (s : State) (o : Output) : (s.emit o).parts = s.parts := rfl
@[simp] theorem State.emit_staged (s : State) (o : Output) : (s.emit o).staged = s.staged := rfl
@[simp] theorem State.emit_serial (s : State) (o : Output) : (s.emit o).serial = s.serial := rfl
@[simp] theorem State.emit_guardPool (s : State) (o : Output) : (s.emit o).guardPool = s.guardPool := rfl
@[simp] theorem State.emit_totals (s : State) (o : Output) : (s.emit o).totals = s.totals := rfl
@[simp] theorem State.emit_stage (s : State) (o : Output) : (s.emit o).stage = s.stage := rfl
@[simp] theorem State.emit_err (s : State) (o : Output) : (s.emit o).err = s.err := rfl
@[simp] theorem State.emit_offer (s : State) (o : Output) : (s.emit o).offer = s.offer := rfl
@[simp] theorem State.emit_ack (s : State) (o : Output) : (s.emit o).ack = s.ack := rfl
@[simp] theorem State.emit_ackHigh (s : State) (o : Output) : (s.emit o).ackHigh = s.ackHigh := rfl
@[simp] theorem State.emit_negotiated (s : State) (o : Output) : (s.emit o).negotiated = s.negotiated := rfl
@[simp] theorem State.emit_moduleNo (s : State) (o : Output) : (s.emit o).moduleNo = s.moduleNo := rfl
@[simp] theorem State.emit_hops (s : State) (o : Output) : (s.emit o).hops = s.hops := rfl
@[simp] theorem State.emit_retired (s : State) (o : Output) : (s.emit o).retired = s.retired := rfl
@[simp] theorem State.emit_eventLog (s : State) (o : Output) : (s.emit o).eventLog = s.eventLog := rfl
@[simp] theorem State.emit_measures (s : State) (o : Output) : (s.emit o).measures = s.measures := rfl
@[simp] theorem State.emit_measureLog (s : State) (o : Output) : (s.emit o).measureLog = s.measureLog := rfl
@[simp] theorem State.emit_aliasKey (s : State) (o : Output) : (s.emit o).aliasKey = s.aliasKey := rfl
@[simp] theorem State.emit_slotA (s : State) (o : Output) : (s.emit o).slotA = s.slotA := rfl
@[simp] theorem State.emit_slotB (s : State) (o : Output) : (s.emit o).slotB = s.slotB := rfl
@[simp] theorem State.emit_fuse (s : State) (o : Output) : (s.emit o).fuse = s.fuse := rfl
@[simp] theorem State.emit_running (s : State) (o : Output) : (s.emit o).running = s.running := rfl
@[simp] theorem State.emit_ideKeys (s : State) (o : Output) : (s.emit o).ideKeys = s.ideKeys := rfl
@[simp] theorem State.emit_sessions (s : State) (o : Output) : (s.emit o).sessions = s.sessions := rfl
@[simp] theorem State.emit_keys (s : State) (o : Output) : (s.emit o).keys = s.keys := rfl
@[simp] theorem State.emit_sectorKeys (s : State) (o : Output) : (s.emit o).sectorKeys = s.sectorKeys := rfl
@[simp] theorem State.emit_badMacs (s : State) (o : Output) : (s.emit o).badMacs = s.badMacs := rfl
@[simp] theorem State.emit_msix (s : State) (o : Output) : (s.emit o).msix = s.msix := rfl
@[simp] theorem State.emit_routes (s : State) (o : Output) : (s.emit o).routes = s.routes := rfl
@[simp] theorem State.emit_hostQueue (s : State) (o : Output) : (s.emit o).hostQueue = s.hostQueue := rfl
@[simp] theorem State.emit_berovo (s : State) (o : Output) : (s.emit o).berovo = s.berovo := rfl
@[simp] theorem State.emit_pours (s : State) (o : Output) : (s.emit o).pours = s.pours := rfl
@[simp] theorem State.emit_lateReplies (s : State) (o : Output) : (s.emit o).lateReplies = s.lateReplies := rfl
@[simp] theorem State.emit_staleRids (s : State) (o : Output) : (s.emit o).staleRids = s.staleRids := rfl
@[simp] theorem State.emit_branchSince (s : State) (o : Output) : (s.emit o).branchSince = s.branchSince := rfl
@[simp] theorem State.emit_elem (s : State) (o : Output) (i : Nat) : (s.emit o).elem i = s.elem i := rfl
@[simp] theorem State.emit_grove (s : State) (o : Output) (i : Nat) : (s.emit o).grove i = s.grove i := rfl
@[simp] theorem State.emit_task (s : State) (o : Output) (i : Nat) : (s.emit o).task i = s.task i := rfl
@[simp] theorem State.emit_taskOpt (s : State) (o : Output) (i : Nat) : (s.emit o).task? i = s.task? i := rfl
@[simp] theorem State.emit_ctx (s : State) (o : Output) (i : Nat) : (s.emit o).ctx i = s.ctx i := rfl
@[simp] theorem State.emit_part (s : State) (o : Output) (i : Nat) : (s.emit o).part i = s.part i := rfl
@[simp] theorem State.emit_port (s : State) (o : Output) (i : Nat) : (s.emit o).port i = s.port i := rfl
@[simp] theorem State.emit_bank (s : State) (o : Output) (i : Nat) : (s.emit o).bank i = s.bank i := rfl
@[simp] theorem State.emit_window (s : State) (o : Output) (i : Nat) : (s.emit o).window i = s.window i := rfl
@[simp] theorem State.emit_wordMeta (s : State) (o : Output) (i : Nat) : (s.emit o).wordMeta i = s.wordMeta i := rfl
@[simp] theorem State.emit_sector (s : State) (o : Output) (i : Nat) : (s.emit o).sector i = s.sector i := rfl
@[simp] theorem State.emit_tokens (s : State) (o : Output) (i : Nat) : (s.emit o).tokens i = s.tokens i := rfl
@[simp] theorem State.emit_reqOpt (s : State) (o : Output) (i : Nat) : (s.emit o).req? i = s.req? i := rfl
@[simp] theorem State.emit_taskOfGrove (s : State) (o : Output) (i : Nat) : (s.emit o).taskOfGrove i = s.taskOfGrove i := rfl
@[simp] theorem State.emit_taskOfElem (s : State) (o : Output) (i : Nat) : (s.emit o).taskOfElem i = s.taskOfElem i := rfl
@[simp] theorem State.emit_partOfGrove (s : State) (o : Output) (i : Nat) : (s.emit o).partOfGrove i = s.partOfGrove i := rfl
@[simp] theorem State.emit_supervising (s : State) (o : Output) : (s.emit o).supervising = s.supervising := rfl

@[simp] theorem State.setElem_elem (s : State) (e : Nat) (x : Elem) (i : Nat) : (s.setElem e x).elem i = if i = e then x else s.elem i := by
  simp [State.setElem, State.elem, mget_mset]

@[simp] theorem State.modElem_elem (s : State) (e : Nat) (f : Elem → Elem) (i : Nat) : (s.modElem e f).elem i = if i = e then f (s.elem e) else s.elem i := by
  simp [State.modElem]

@[simp] theorem State.setGrove_grove (s : State) (g : Nat) (x : Grove) (i : Nat) : (s.setGrove g x).grove i = if i = g then x else s.grove i := by
  simp [State.setGrove, State.grove, mget_mset]

@[simp] theorem State.modGrove_grove (s : State) (g : Nat) (f : Grove → Grove) (i : Nat) : (s.modGrove g f).grove i = if i = g then f (s.grove g) else s.grove i := by
  simp [State.modGrove]

@[simp] theorem State.setTask_task (s : State) (t : Nat) (x : Task) (i : Nat) : (s.setTask t x).task i = if i = t then x else s.task i := by
  simp [State.setTask, State.task, mget_mset]

theorem State.modTask_task (s : State) (t : Nat) (f : Task → Task) (i : Nat) :
    (s.modTask t f).task i = if i = t ∧ (mfind s.tasks t).isSome then f (s.task t) else s.task i := by
  unfold State.modTask
  split
  · rename_i x h
    by_cases e : i = t <;> simp [e, h, State.task, mget, State.setTask, mfind_mset]
  · rename_i h; simp [h]

@[simp] theorem State.modCtx_ctx (s : State) (c : Nat) (f : Ctx → Ctx) (i : Nat) : (s.modCtx c f).ctx i = if i = c then f (s.ctx c) else s.ctx i := by
  simp [State.modCtx, State.ctx, mget_mmod]

@[simp] theorem State.modPart_part (s : State) (p : Nat) (f : Part → Part) (i : Nat) : (s.modPart p f).part i = if i = p then f (s.part p) else s.part i := by
  simp [State.modPart, State.part, mget_mmod]

@[simp] theorem State.modPort_port (s : State) (p : Nat) (f : Port → Port) (i : Nat) : (s.modPort p f).port i = if i = p then f (s.port p) else s.port i := by
  simp [State.modPort, State.port, mget_mmod]

@[simp] theorem State.modBank_bank (s : State) (b : Nat) (f : Bank → Bank) (i : Nat) : (s.modBank b f).bank i = if i = b then f (s.bank b) else s.bank i := by
  simp [State.modBank, State.bank, mget_mmod]

@[simp] theorem State.modWindow_window (s : State) (w : Nat) (f : WinState → WinState) (i : Nat) : (s.modWindow w f).window i = if i = w then f (s.window w) else s.window i := by
  simp [State.modWindow, State.window, mget_mmod]

@[simp] theorem State.setWordMeta_wordMeta (s : State) (w : Nat) (m : WordMeta) (i : Nat) : (s.setWordMeta w m).wordMeta i = if i = w then m else s.wordMeta i := by
  simp [State.setWordMeta, State.wordMeta, mget_mset]

@[simp] theorem State.setSector_sector (s : State) (n : Nat) (m : SectorMeta) (i : Nat) : (s.setSector n m).sector i = if i = n then m else s.sector i := by
  simp [State.setSector, State.sector, mget_mset]

@[simp] theorem State.setTokens_tokens (s : State) (k : Nat) (q : List Token) (i : Nat) : (s.setTokens k q).tokens i = if i = k then q else s.tokens i := by
  simp [State.setTokens, State.tokens, mget_mset]

@[simp] theorem State.setReq_reqOpt (s : State) (r : Nat) (x : Req) (i : Nat) : (s.setReq r x).req? i = if i = r then some x else s.req? i := by
  simp [State.setReq, State.req?, mfind_mset]

@[simp] theorem State.dropReq_reqOpt (s : State) (r i : Nat) : (s.dropReq r).req? i = if i = r then none else s.req? i := by
  simp [State.dropReq, State.req?, mfind_merase]

@[simp] theorem State.emit_outputs (s : State) (o : Output) : (s.emit o).outputs = s.outputs ++ [o] := rfl

/-- A word of a register file reads as it was set. -/
theorem reg_setAt {n : Nat} (v : Vector Word n) (i j : Nat) (x : Word) : reg (setAt v i x) j = if j = i ∧ i < n then x else reg v j := by
  unfold reg setAt
  by_cases h : j = i
  · subst h
    by_cases hj : j < n
    · simp [hj]
    · simp [hj]
  · simp [h, Ne.symm h]

theorem Plane.setStrand_strand (p : Plane) (k j : Nat) (x : Strand) : (p.setStrand k x).strand j = if j = k ∧ k < 4 then x else p.strand j := by
  unfold Plane.setStrand Plane.strand setAt
  by_cases h : j = k
  · subst h
    by_cases hj : j < 4
    · simp [hj]
    · simp [hj]
  · simp [h, Ne.symm h]

end Sys2Proof.Machine
end

