-- ==== Sys2Proof/Safety.lean ====
section
/-! DEFINITION. Safe runs: the machine neither faults nor refuses. -/

namespace Sys2Proof

/-- Does an outcome go on? -/
def goesOn (o : Host.Outcome Machine.State Machine.Fault Machine.Refusal) : Bool :=
  match o with
  | .next _ => true
  | .fault _ => false
  | .refused _ => false

/-- A run of a number of steps that neither faults nor is refused. -/
def safeRun (n : Nat) : Bool := goesOn (core.run n core.reset)

/-- A run of a number of steps from a state that neither faults nor is refused. -/
def safeRunFrom (n : Nat) (s : Machine.State) : Bool := goesOn (core.run n s)

end Sys2Proof
end

