-- ==== Sys2Proof/Tests/Slice0.lean ====
section
/-! SUPPORT. Tests: the checks of WellFormed, words written out from the spec's encodings, and for every statement a state that meets its hypotheses, clause by clause. Expected results are worked out from the rules of the spec that each test cites. -/

namespace Sys2Proof.Tests

-- Proofs one after another: many at once take more memory than a check has.
set_option Elab.async false

open Sys2Proof Sys2Proof.Machine Sys2Proof.Claims

/-- A state whose next word is at slot 0 of c(0,0), strand 0, every inbound channel holding one token of payload 8; a task with balance to spare holds grove 0. -/
def atSlot : State := { placeSlot .reset 0 0 with cur := .slot 0 0 0 }

/-- The same with the next word at word 12 of grove 0, at task level. -/
def atWord : State := { placeWord .reset 0 0 false with cur := .word 0 12 }

/-- The same at supervisor level. -/
def atSuper : State := { placeWord .reset 0 0 true with cur := .word 0 12 }

/-- A state with a changed element 0, grove 0 or task 1. -/
def elem0 (s : State) (f : Elem → Elem) : State := s.modElem 0 f
def grove0 (s : State) (f : Grove → Grove) : State := s.modGrove 0 f
def task1 (s : State) (f : Task → Task) : State := s.modTask 1 f

/-- Registers of strand 0 of element 0, from w0 on. -/
def withW (s : State) (l : List Word) : State :=
  elem0 s (fun x => { x with active := x.active.setStrand 0 { x.active.strand 0 with w := ⟨(l ++ List.replicate 16 0).take 16 |>.toArray, by simp⟩ } })

/-- Does an outcome go on to a state with a property? -/
def goes (o : Host.Outcome State Fault Refusal) (p : State → Bool) : Bool :=
  match o with
  | .next t => p t
  | _ => false

/-! ### Well-formedness: an ill-formed term for each check -/

theorem test_wellFormed_accepts : wellFormed (.add 0 1 2 3) = true ∧ wellFormed (.vcmp 0 2 1 2 5 2) = true ∧ wellFormed (.ldg 0 1 2 0 0xFF 1) = true := by decide
theorem test_isWord_refuses : isWord (.boostFallback 1) = false ∧ wellFormed (.boostFallback 1) = false := by decide
theorem test_triggerOk_refuses : triggerOk (.add 63 1 2 3) = false ∧ wellFormed (.add 63 1 2 3) = false := by decide
theorem test_conditionOk_refuses : conditionOk (.cmp 0 6 0 1 2) = false ∧ conditionOk (.cmpi 0 7 0 1 2) = false ∧ wellFormed (.cmp 0 6 0 1 2) = false := by decide
theorem test_detailsOk_refuses : detailsOk (.pswap 0 4) = false ∧ detailsOk (.vaddLong 0 1 2 3 9 0) = false ∧ wellFormed (.pswap 0 4) = false := by decide

/-! ### Words written out in the spec, by family (R105 to R114) -/

theorem test_decode_scalar : decode 0x00B8C2C8 0 = .ok (.cmpi 0 4 3 2 200) ∧
    decode 0x1838E440 0 = .ok (.and 6 35 36 16) ∧
    decode 0x08A84005 0 = .ok (.pset 2 1 1) ∧
    decode 0x147BE608 0 = .ok (.clz 5 47 38) ∧
    decode 0x00E93FFF 0 = .ok (.movi 0 36 0x3FFF) ∧
    decode 0x00F90400 0 = .ok (.movh 0 36 0x400) ∧
    decode 0x00C92408 0 = .ok (.addi 0 36 36 8) := by
  refine ⟨by rfl, by rfl, by rfl, by rfl, by rfl, by rfl, by rfl⟩
theorem test_decode_lanes : decode 0x05086181 0 = .ok (.vaddBf16 1 33 33 32) ∧
    decode 0x01F14600 0xFE4A0380 = .ok (.vcvt 0 5 6 5 7) ∧
    decode 0x01F08108 0xFD2A1000 = .ok (.vcmp 0 2 1 2 5 2) ∧
    decode 0x01F10108 0xFC6A0003 = .ok (.vfma 0 4 1 2 3 5 0) := by
  refine ⟨by rfl, by rfl, by rfl, by rfl⟩
theorem test_decode_channels : decode 0x0A08A003 0 = .ok (.fwd 2 34 32) ∧
    decode 0x12102000 0 = .ok (.toss 4 32) ∧
    decode 0x062A64B6 0 = .ok (.steerP0P3 1 41 36 45 2) ∧
    decode 0x065AE09B 0 = .ok (.selectP4P7 1 43 32 38 3) := by
  refine ⟨by rfl, by rfl, by rfl, by rfl⟩
theorem test_decode_memory : decode 0x0E984000 0 = .ok (.st 3 33 0 0) ∧
    decode 0x1AE42344 0 = .ok (.aadd 6 16 35 17) ∧
    decode 0x0AC02200 0 = .ok (.tfull 2 34) ∧
    decode 0x07000686 0 = .ok (.barWait 1 6 33) ∧
    decode 0x1F00078D 0 = .ok (.barArrive 7 7 35) := by
  refine ⟨by rfl, by rfl, by rfl, by rfl, by rfl⟩
theorem test_decode_streams : decode 0x03802700 0xFC000A20 = .ok (.sbind 0 39 20 0 1 0) ∧
    decode 0x03800002 0xFC000100 = .ok (.sgo 0 2 0 0 0 0 0) ∧
    decode 0x03A28000 0xFC000000 = .ok (.sisect 0 10 0 0 0 0 0) := by
  refine ⟨by rfl, by rfl, by rfl⟩
theorem test_decode_metering : decode 0x03300300 0 = .ok (.refill 0 3) ∧
    decode 0x03301001 0 = .ok (.commit 0 16) ∧
    decode 0x03301002 0 = .ok (.abort 0 16) ∧
    decode 0x03200000 0 = .ok (.chkpt 0 0) := by
  refine ⟨by rfl, by rfl, by rfl, by rfl⟩
theorem test_decode_cells : decode 0x07488090 0 = .ok (.lcld 1 34 0 36) ∧
    decode 0x174041A3 0 = .ok (.lcevRel 5 1 40) ∧
    decode 0x1B58C2A4 0 = .ok (.lcout 6 35 2 41) := by
  refine ⟨by rfl, by rfl, by rfl⟩
theorem test_decode_race : decode 0x0358110A 0 = .ok (.raceK 0 32 17 2) := by rfl
theorem test_decode_planes : decode 0x03600110 0 = .ok (.pload 0 1 4) ∧
    decode 0x0360000D 0 = .ok (.pswap 0 3) ∧
    decode 0x03601042 0 = .ok (.gcall 0 16 16) ∧
    decode 0x03601003 0 = .ok (.gret 0 16) := by
  refine ⟨by rfl, by rfl, by rfl, by rfl⟩
theorem test_decode_control : decode 0x07CFFFFD 0 = .ok (.branch 1 0xFFFFD) ∧
    decode 0x03E00114 0 = .ok (.loopDec 0 0 1) ∧
    decode 0x03E00004 0 = .ok (.halt 0) ∧
    decode 0x03E00508 0 = .ok (.trap 0 5) := by
  refine ⟨by rfl, by rfl, by rfl, by rfl⟩
theorem test_decode_system : decode 0x03E00018 0 = .ok (.sret 0) ∧
    decode 0x03E04501 0 = .ok (.mfsr 0 1 5) ∧
    decode 0x03E04302 0 = .ok (.mtsr 0 1 3) ∧
    decode 0x03100200 0 = .ok (.evset 0 2) ∧
    decode 0x03E00203 0 = .ok (.tlbinv 0 2) ∧
    decode 0x03E10203 0 = .ok (.fltack 0 2) := by
  refine ⟨by rfl, by rfl, by rfl, by rfl, by rfl, by rfl⟩

/-- A word of each format, bit by bit: add t 1, d 0, a 16, b 2 is 000001 000001 000000 010000 000010 00. -/
theorem test_decode_bits : decode 0b00000100000100000001000000001000 0 = .ok (.add 1 0 16 2) ∧ decode 0b00000000111000000100000000000100 0 = .ok (.movi 0 1 4) ∧
    decode 0b00000000101110001100001011001000 0 = .ok (.cmpi 0 4 3 2 200) ∧ decode 0b00000111110011111111111111111101 0 = .ok (.branch 1 0xFFFFD) := by
  refine ⟨by rfl, by rfl, by rfl, by rfl⟩

/-- Unassigned opcodes, minors and empty slots are rejected by name (R108, R111). -/
theorem test_decode_rejects : decode 0xFC000000 0 = .error .continuationFirst ∧ decode 0x00000000 0 = .error .illegalOpcode ∧ decode 0x03700000 0 = .error .illegalOpcode := by
  refine ⟨by rfl, by rfl, by rfl⟩

/-! ### Witnesses: states and operands that meet the hypotheses of the statements -/

theorem witness_EncodeDecodeRoundTrip : wellFormed (.add 0 1 2 3) = true ∧ wellFormed (.smerge 62 1 511 1 15 1 15) = true := by decide

theorem witness_StepRunsTheDecodedInstruction_slot :
    let s : State := { placeSlot .reset 0x00100044 0 with agenda := [.fire 0] }
    let s' : State := { s with agenda := [], moveNo := s.moveNo + 1, tb := laterTime s.tb (Config.freeElapsed s.moveNo), guardPool := s.guardPool - (Config.guardDraw s.moveNo : Int) }
    s.agenda = [.fire 0] ∧ selectSlot s' 0 = some (0, 0) ∧ decode (slotWords s' 0 0).1 (slotWords s' 0 0).2 = .ok (.add 0 0 0 17) ∧
      wordDetail (curKind (.slot 0 0 0)) (slotWords s' 0 0).1 (slotWords s' 0 0).2 = none := by
  refine ⟨rfl, by decide, by rfl, by decide⟩

theorem witness_StepRunsTheDecodedInstruction_sequencer :
    let s : State := placeWord .reset 0x00100044 0 false
    let s' : State := { s with agenda := [], moveNo := s.moveNo + 1, tb := laterTime s.tb (Config.freeElapsed s.moveNo), guardPool := s.guardPool - (Config.guardDraw s.moveNo : Int) }
    s.agenda = [.issue 0] ∧ mayIssue s' 0 = true ∧ guardHolds (s'.grove 0) (fld (imemWord s' 0 (s'.grove 0).pc) 26 6) = true ∧
      decode (imemWord s' 0 (s'.grove 0).pc) (imemWord s' 0 ((s'.grove 0).pc + 1)) = .ok (.add 0 0 0 17) ∧
      wordDetail .seq (imemWord s' 0 (s'.grove 0).pc) (imemWord s' 0 ((s'.grove 0).pc + 1)) = none := by
  refine ⟨rfl, by decide, by decide, by rfl, by decide⟩

theorem witness_StepRunsTheDecodedInstruction_move : isMove (.trapEntry 0) = true ∧ isMove (.tokenHop 0 (.out 0) false) = true := by decide

theorem witness_TwoSourceAndImmediateResults : srcVal atSlot 1 = some 0 ∧ srcVal atSlot 33 = some 8 ∧ issuable atSlot (.add 0 34 1 33) = true ∧
    issuable atSlot (.sub 0 16 33 33) = true ∧ srcVal atWord 47 = some 0 ∧ issuable atWord (.maxu 0 32 47 17) = true := by decide

theorem witness_DivisionResults : issuable atWord (.div 0 1 17 17) = true ∧ valOf atWord 17 ≠ 0 ∧ issuable atWord (.rem 0 1 17 16) = true ∧ valOf atWord 16 = 0 ∧
    (atWord.grove 0).strapen.getLsbD 1 = false ∧ ((grove0 atWord (fun x => { x with strapen := 2 })).grove 0).strapen.getLsbD 1 = true ∧
    issuable (grove0 atWord (fun x => { x with strapen := 2 })) (.div 0 1 17 16) = true ∧ (atWord.grove 0).level = 0 := by decide

/-- A supervisor word with the trap for a zero divisor enabled. -/
theorem witness_DivisionResults_supervisor : issuable (grove0 atSuper (fun x => { x with strapen := 2 })) (.div 0 1 17 16) = true ∧ valOf (grove0 atSuper (fun x => { x with strapen := 2 })) 16 = 0 ∧
    ((grove0 atSuper (fun x => { x with strapen := 2 })).grove 0).strapen.getLsbD 1 = true ∧ ((grove0 atSuper (fun x => { x with strapen := 2 })).grove 0).level ≠ 0 := by decide

/-- The other case of that word by R312: w1 keeps its value, SFLT is set, and the next word follows. -/
theorem test_div_supervisor : goes (exec (.div 0 1 17 16) (grove0 atSuper (fun x => { x with strapen := 2 }))) (fun t => (t.grove 0).sflt && reg (t.grove 0).superBank.w 1 == 0 && (t.grove 0).pc == 13) = true := by decide

theorem witness_BitFieldAndSelectResults : srcVal atSlot 0 = some 0 ∧ srcVal atSlot 33 = some 8 ∧ issuable atSlot (.bfx 0 34 0 33) = true ∧ issuable atSlot (.bfi 0 31 0 33) = true ∧
    issuable atSlot (.bfi 0 15 0 33) = true ∧ issuable atWord (.bfi 0 47 0 17) = true ∧ curKind atSlot.cur ≠ .seq ∧ curKind atWord.cur = .seq := by decide

theorem witness_UnaryResults : srcVal atSlot 33 = some 8 ∧ issuable atSlot (.mov 0 34 33) = true ∧ issuable atSlot (.popc 0 15 33) = true ∧ issuable atWord (.clz 0 47 17) = true := by decide

theorem witness_TwoSourceAndImmediateResults_immediate : srcVal atSlot 33 = some 8 ∧ issuable atSlot (.extend 0 34 33 63) = true ∧ issuable atSlot (.shli 0 1 33 0) = true ∧ issuable atSlot (.addi 0 1 33 0x80) = true ∧
    issuable atSlot (.movi 0 63 0x2000) = true ∧ issuable atSlot (.movh 0 15 0x3FFF) = true ∧ issuable atWord (.movh 0 47 0) = true := by decide

theorem witness_BitFieldAndSelectResults_select : issuable atSlot (.selP0P3 0 34 33 35 3) = true ∧ issuable atSlot (.selP4P7 0 1 33 33 0) = true ∧ srcVal atSlot 33 = some 8 ∧ srcVal atSlot 35 = some 8 := by decide

/-- atSlot with an absent token at the head of i1. -/
def absentHead : State := elem0 atSlot (fun x => { x with active := x.active.setFifo 1 [{ pres := false }] })

theorem witness_BitFieldAndSelectResults_absent : srcVal absentHead 33 = none ∧ issuable absentHead (.selP4P7 0 1 33 2 3) = true := by decide

theorem witness_PredicateResults : issuable atSlot (.cmp 0 5 7 33 34) = true ∧ issuable absentHead (.cmp 0 0 0 33 34) = true ∧ issuable atSlot (.cmpi 0 4 0 33 255) = true ∧ issuable absentHead (.cmpi 0 2 0 33 128) = true ∧
    issuable atSlot (.pand 0 7 7 0) = true ∧ issuable atSlot (.por 0 0 1 2) = true ∧ issuable atSlot (.pxor 0 0 1 2) = true ∧ issuable atSlot (.pnot 0 0 7) = true ∧
    issuable atSlot (.pset 0 7 0) = true ∧ issuable atSlot (.pmov 0 3 33) = true ∧ issuable absentHead (.pmov 0 3 33) = true ∧ srcVal absentHead 33 = none ∧ srcVal atSlot 34 = some 8 := by decide

theorem witness_AbsentSourceResults : srcVal absentHead 33 = none ∧ issuable absentHead (.add 0 34 33 1) = true ∧ issuable absentHead (.bfi 0 1 2 33) = true ∧ issuable absentHead (.mov 0 34 33) = true ∧
    chanOf atSlot 31 = none ∧ chanOf atSlot 32 = some 0 := by decide

theorem witness_WrittenValuesReadBack : readable (curKind atSlot.cur) true 15 = true ∧ readable (curKind atSlot.cur) true 31 = true ∧ readable (curKind atWord.cur) true 47 = true ∧ readable (curKind atSlot.cur) true 16 = false := by decide

theorem witness_ValueWordsFrame : issuable atSlot (.bfi 0 15 33 34) = true ∧ valueWord (.bfi 0 15 33 34) = some 15 ∧ goes (exec (.bfi 0 15 33 34) atSlot) (fun _ => true) = true ∧
    issuable atSlot (.pset 0 7 1) = true ∧ predicateWord (.pset 0 7 1) = some 7 ∧ goes (exec (.pset 0 7 1) atSlot) (fun _ => true) = true := by decide

/-- atSlot with a task that holds no drop. -/
def poor : State := task1 atSlot (fun x => { x with central := 0 })
/-- atSlot with nothing in i1. -/
def emptyHead : State := elem0 atSlot (fun x => { x with active := x.active.setFifo 1 [] })

theorem witness_WordsThatMayNotIssue : isWord (.add 0 1 33 2) = true ∧ lowest (sigDetails (curKind emptyHead.cur) (wordSig (.add 0 1 33 2))) = none ∧ wordReady emptyHead (wordSig (.add 0 1 33 2)) = false ∧
    wordReady poor (wordSig (.add 0 1 33 2)) = true ∧ affordable poor (wordSig (.add 0 1 33 2)) = false ∧
    lowest (sigDetails (curKind atSlot.cur) (wordSig (.add 0 17 33 2))) = some 3 ∧
    lowest (sigDetails (curKind atWord.cur) (wordSig (.branch 0 0xFFFFF))) = none ∧ wordReady atWord (wordSig (.branch 0 0xFFFF3)) = true ∧
    16384 ≤ (curAddr atWord + (0xFFFF3 : BitVec 20).signExtend 64).toNat := by decide

theorem witness_IssueTakesCostAndSources : issuable atSlot (.add 0 34 33 33) = true ∧ atSlot.supervising = false ∧ atSlot.taskOfGrove (curGrove atSlot) = some 1 ∧ mfind atSlot.tasks 1 ≠ none ∧
    curGrove atSlot ∈ (atSlot.task 1).groves ∧ (atSlot.task 1).groves.Nodup ∧ (wordSig (.add 0 34 33 33)).free = false ∧ issuable atSuper (.sret 0) = true ∧ atSuper.supervising = true ∧
    issuable atWord (.div 0 1 2 17) = true := by decide

theorem test_issue_takes_cost : balance (issued atSlot (.add 0 1 33 33)) 1 + 1 = balance atSlot 1 ∧ ((issued atSlot (.add 0 1 33 33)).elem 0).active.fifo 1 = [] ∧
    ((issued atSlot (.add 0 1 33 33)).elem 0).active.fifo 2 = [placedToken] ∧ ((issued atWord (.div 0 1 2 17)).grove 0).pc = 13 := by decide

theorem witness_ReadyRegisterWordsIssue : Instr.add ∈ twoSource.map (fun p => p.1) ++ [.bfx, .bfi] ∧ (∀ c ∈ [(15 : BitVec 6), 0, 15], c ∉ pendingRegs atSlot) ∧
    atSlot.taskOfGrove (groveOf 0) = some 1 ∧ (atSlot.task 1).dry = none ∧ (atSlot.task 1).refusals = [] ∧ (wordSig (.add 0 15 0 15)).cost ≤ balance atSlot 1 := by
  refine ⟨by simp [twoSource], by decide, by decide, by decide, by decide, by decide⟩

/-- A state whose grove 0 has sixteen trap records. -/
def fullQueue (s : State) : State := grove0 s (fun x => { x with traps := List.replicate 16 { cause := 0x102, src := 1 } })

theorem witness_CausesStopAndRecord : (atSlot.grove (groveOf 0)).traps.length < 16 ∧ (atSlot.grove (groveOf 0)).waitingTraps = [] ∧ (atWord.grove 0).level = 0 ∧ atWord.cur = .word 0 12 ∧
    16 ≤ ((fullQueue atSlot).grove 0).traps.length ∧ (fullQueue atSlot).cur = .slot 0 0 0 ∧ (fullQueue atWord).cur = .word 0 12 ∧ ((fullQueue atWord).grove 0).level = 0 := by decide

/-- First and last details of the classes that go to the supervisor vector, and some that do not. -/
theorem witness_CausesStopAndRecord_causes : toSupervisor 0x000 ∧ toSupervisor 0x009 ∧ toSupervisor 0x045 ∧ toSupervisor 0x089 ∧ toSupervisor 0x0C5 ∧ toSupervisor 0x100 ∧ toSupervisor 0x104 ∧ toSupervisor 0x141 ∧ toSupervisor 0x153 ∧ toSupervisor 0x188 ∧ toSupervisor 0x1C3 ∧
    ¬ toSupervisor 0x101 ∧ ¬ toSupervisor 0x105 ∧ ¬ toSupervisor 0x108 ∧ ¬ toSupervisor 0x140 ∧ ¬ toSupervisor 0x1C4 ∧ ¬ toSupervisor 0x1C9 := by simp [toSupervisor]

theorem witness_PrivilegedWordsTrapAtTaskLevel : atWord.cur = .word 0 12 ∧ (atWord.grove 0).level = 0 ∧ dryHere atWord = false ∧
    (∀ i ∈ [Instr.evset 0 1, .evwait 0 1, .evclr 0 1, .sret 0, .tlbinv 0 1, .tlbinva 0, .agpause 0 1, .agpatch 0 1, .fltack 0 1], lowest (sigDetails .seq (wordSig i)) = none) := by decide

/-- A trap record for each test. -/
def someTrap : TrapRec := { cause := 0x102, src := 0, str := 2, slot := 31, eid := 0x400, addr := 9, info := 7, word := 0x04101008, tb := 100, serial := 5, tag := 1, bal := 3 }

/-- A state whose grove 0 has records in its trap queue. -/
def queued (s : State) (l : List TrapRec) : State := grove0 s (fun x => { x with traps := l })

theorem witness_TrapEntryTakesTheHeadRecord : ((queued atWord [someTrap]).grove 0).traps = [someTrap] ∧ ((queued atWord [someTrap]).grove 0).level = 0 ∧ ((queued atWord [someTrap]).grove 0).intrap = false ∧
    ((queued atWord [someTrap]).grove 0).pc < 16384 ∧
    someTrap.cause < 512 ∧ someTrap.src < 8 ∧ someTrap.str < 4 ∧ someTrap.slot < 32 ∧ someTrap.eid.toNat < 2 ^ 37 ∧ someTrap.wordAddr < 16384 ∧ someTrap.serial < 2 ^ 32 ∧ someTrap.tag < 16384 := by decide

/-- A sequencer that holds for a time, and one that holds for a stream. -/
def holding (h : Hold) : State := grove0 (queued atWord [someTrap]) (fun x => { x with taskBank := { x.taskBank with hold := h } })

theorem test_trap_entry : goes (exec (.trapEntry 0) (queued atWord [someTrap])) (fun t => (t.grove 0).pc == 12288 && (t.grove 0).epc == 0 && (t.grove 0).level == 1 && (t.grove 0).intrap && reg (t.grove 0).tr 1 == 9 &&
    (reg (t.grove 0).tr 0).toNat == 0x102 * 2 ^ 55 + 2 * 2 ^ 50 + 31 * 2 ^ 45 + 0x400) = true ∧
    goes (exec (.trapEntry 0) (holding (.time 5))) (fun t => (t.grove 0).epc == 0 && (t.grove 0).taskBank.hold == .time 5) = true ∧ goes (exec (.trapEntry 0) (holding (.streams 3))) (fun t => (t.grove 0).epc == 0 && (t.grove 0).taskBank.hold == .streams 3) = true := by decide

/-- A handler of grove 0 at its sret, with the records it has queued. -/
def handler (l : List TrapRec) : State := grove0 (queued atSuper l) (fun x => { x with handling := l.head?, intrap := true, epc := 77, thalt := true })

theorem witness_SretReturns : (handler [someTrap]).cur = .word 0 12 ∧ ((handler [someTrap]).grove 0).level ≠ 0 ∧ ((handler [someTrap]).grove 0).handling = some someTrap ∧
    ((handler [someTrap]).grove 0).traps = someTrap :: [] ∧ ((handler [someTrap]).grove 0).waitingTraps = [] ∧
    ((handler [{ someTrap with unit := .elem 0 }, someTrap]).grove 0).traps = { someTrap with unit := .elem 0 } :: [someTrap] ∧ isLive (handler [someTrap]) someTrap.tag = true ∧
    (∀ h ∈ [someTrap], h.unit ≠ .elem 0) ∧ (∀ h ∈ [someTrap], h.unit ≠ .seq 0) := by decide

theorem test_sret : goes (exec (.sret 0) (handler [someTrap])) (fun t => (t.grove 0).pc == 77 && (t.grove 0).level == 0 && !(t.grove 0).intrap && (t.grove 0).halted && (t.grove 0).traps.isEmpty) = true ∧
    goes (exec (.sret 0) (handler [someTrap, { someTrap with cause := 0x100 }])) (fun t => (t.grove 0).pc == 12288 && (t.grove 0).level == 1 && (t.grove 0).epc == 77 && (reg (t.grove 0).tr 0).toNat / 2 ^ 55 == 0x100) = true := by decide

theorem witness_TrapWordResults : issuable atSlot (.trap 0 5) = true ∧ issuable atWord (.trap 0 63) = true ∧ (atWord.grove 0).level = 0 ∧ issuable atSuper (.trap 0 4) = true ∧ (atSuper.grove 0).level ≠ 0 := by decide

theorem test_trap_word : goes (exec (.trap 0 5) atSlot) (fun t => (t.grove 0).traps.map (fun r => (r.cause, r.info)) == [(0x1C1, 5)] && balance t 1 + 1 == balance atSlot 1) = true ∧
    goes (exec (.trap 0 4) atSuper) (fun t => (t.grove 0).superBank.hold == .monitor 4 && balance t 1 == balance atSuper 1) = true := by decide

theorem witness_FlowResults : issuable atWord (.branch 0 0xFFFF4) = true ∧ (curAddr atWord + (0xFFFF4 : BitVec 20).signExtend 64).toNat < 16384 ∧ issuable atWord (.call 0 16371) = true ∧
    (curAddr atWord + (16371 : BitVec 20).signExtend 64).toNat < 16384 ∧ issuable atWord (.ret 0 47) = true ∧ (regVal atWord 47).toNat < 16384 ∧ issuable atWord (.loopDec 0 7 15) = true ∧
    issuable atWord (.wait 0 17) = true ∧ issuable atSlot (.nop 0) = true ∧ issuable atWord (.halt 0) = true ∧ issuable atSlot (.halt 0) = true := by decide

set_option maxRecDepth 4000 in
theorem test_flow : goes (exec (.branch 0 0xFFFFD) atWord) (fun t => (t.grove 0).pc == 9) = true ∧ goes (exec (.call 0 16371) atWord) (fun t => (t.grove 0).pc == 16383 && regVal t 47 == 13) = true ∧
    goes (exec (.loopDec 0 7 15) atWord) (fun t => regVal t 15 == 0xFFFFFFFFFFFFFFFF && pred t 7) = true ∧ goes (exec (.wait 0 17) atWord) (fun t => (t.grove 0).taskBank.hold == .time 1) = true ∧
    goes (exec (.halt 0) atSlot) (fun t => ((t.elem 0).active.strand 0).halted && !((t.elem 0).active.strand 1).halted) = true := by decide

theorem witness_SkippedWordsAndWaitsPass : ((holding (.time 0)).grove 0).bank.hold = .time 0 ∧ (0 : Word).toNat ≤ (holding (.time 0)).tb.toNat ∧ ((holding (.time 1)).grove 0).bank.hold = .time 1 ∧
    (holding (.time 1)).tb.toNat < (1 : Word).toNat := by decide

/-- A sequencer of a partition of one grove. -/
def inPart0 : State := { atSuper with parts := [(0, { rows := 1, cols := 1 })] }

theorem witness_SkippedWordsAndWaitsPass_step :
    let s : State := grove0 (placeWord .reset 0x04100044 0 false) (fun x => { x with taskBank := { x.taskBank with guard := [(1, 0x01010000)] } })
    let s' : State := { s with agenda := [], moveNo := s.moveNo + 1, tb := laterTime s.tb (Config.freeElapsed s.moveNo), guardPool := s.guardPool - (Config.guardDraw s.moveNo : Int) }
    s.agenda = [.issue 0] ∧ mayIssue s' 0 = true ∧ ¬ ((s'.grove 0).level = 0 ∧ (s'.grove 0).sbase.toNat ≤ (s'.grove 0).pc) ∧
      fld (imemWord s' 0 (s'.grove 0).pc) 26 6 = 1 ∧ guardHolds (s'.grove 0) (fld (imemWord s' 0 (s'.grove 0).pc) 26 6) = false := by
  refine ⟨rfl, by decide, by decide, by decide, by decide⟩

/-- A word whose guard fails is passed: the PC moves by one word, or by two where a continuation word follows (R116). -/
theorem test_skipped_word : goes (exec .skippedWord atWord) (fun t => (t.grove 0).pc == 13 && balance t 1 == balance atWord 1) = true ∧
    goes (exec .skippedWord (grove0 atWord (fun x => { x with imem := [(12, 0x03A28000), (13, 0xFC000000)] }))) (fun t => (t.grove 0).pc == 14) = true := by decide

theorem witness_SystemRegisterResults : issuable atWord (.mfsr 0 1 13) = true ∧ issuable atWord (.mfsr 0 1 5) = true ∧ issuable atSuper (.mfsr 0 1 5) = true ∧ atSuper.supervising = true ∧ atWord.supervising = false ∧
    issuable atSuper (.mtsr 0 29 17) = true ∧ issuable atWord (.mtsr 0 63 17) = true ∧ taskDenied 63 = false ∧ issuable atWord (.mtsr 0 14 17) = true ∧ (atWord.grove 0).traps.length ≤ 16 ∧
    (State.reset.grove 0).task = none ∧ (atWord.grove 0).task = some 1 ∧ (atWord.task 1).serial < 2 ^ 32 ∧ issuable atWord (.mtsr 0 3 17) = true := by decide

/-- A fault record that is valid, in the place that the selector names. -/
def recorded : State := grove0 inPart0 (fun x => { x with faults := setAt x.faults 0 { valid := true, fields := 5, va := 3 } })

theorem witness_SystemRegisterResults_registers : (0 : Nat) < 2 ^ 12 ∧ (atWord.grove 0).regionIndex < 2 ^ 12 ∧ (atWord.grove 0).faults[(atWord.grove 0).frsel.toNat]? = some {} ∧ ({} : FaultRec).valid = false ∧
    (recorded.grove 0).faults[(recorded.grove 0).frsel.toNat]? = some { valid := true, fields := 5, va := 3 } ∧ State.reset.partOfGrove 0 = none ∧ inPart0.partOfGrove 0 = some 0 ∧ (inPart0.part 0).granules.length < 2 ^ 11 ∧
    (inPart0.part 0).rows < 2 ^ 6 ∧ (inPart0.part 0).cols < 2 ^ 6 := by decide

theorem test_system_registers : goes (exec (.mtsr 0 14 17) atWord) (fun t => (t.grove 0).strapen == 1) = true ∧ goes (exec (.mfsr 0 1 2) atSuper) (fun t => regVal t 1 == 12288) = true ∧
    goes (exec (.mfsr 0 1 2) atWord) (fun t => (t.grove 0).traps.map (·.cause) == [0x1C0] && balance t 1 + 1 == balance atWord 1) = true := by decide

theorem witness_TranslationWordResults : issuable atSuper (.fltack 0 1) = true ∧ issuable atSuper (.agpause 0 1) = true ∧ issuable atSuper (.agpatch 0 1) = true ∧ issuable atSuper (.tlbinv 0 1) = true ∧
    issuable atSuper (.tlbinva 0) = true ∧ (atSuper.grove 0).level ≠ 0 := by decide

theorem witness_ChannelWordResults : issuable atSlot (.deq 0 15 33) = true ∧ srcVal atSlot 33 = some 8 ∧ issuable absentHead (.deq 0 1 33) = true ∧ issuable atSlot (.peek 0 1 63) = true ∧ issuable atSlot (.send 0 33 2) = true ∧
    issuable absentHead (.send 0 33 33) = true ∧ issuable atSlot (.fwd 0 32 33) = true ∧ issuable atSlot (.toss 0 63) = true ∧ issuable atSlot (.mark 0 33 1) = true ∧ issuable atSlot (.mark 0 63 3) = true ∧
    issuable atSlot (.gnext 0) = true ∧ (31 : Nat) < 32 ∧ atSlot.nextTok ≠ 0 := by decide

theorem test_channel_words : goes (exec (.fwd 0 32 33) atSlot) (fun t => (t.tokens (queueKey 0 (.out 0))).map (·.payload) == [8] && ((t.elem 0).active.fifo 1).isEmpty) = true ∧
    goes (exec (.mark 0 33 2) atSlot) (fun t => (t.tokens (queueKey 0 (.out 1))).map (fun x => (x.mark, x.payload)) == [(2, 0)]) = true ∧
    goes (exec (.gnext 0) atSlot) (fun t => ((t.elem 0).active.strand 0).gen == 1 && ((t.elem 0).active.strand 1).gen == 0) = true := by decide

/-- atSlot with an end mark at the head of a channel. -/
def endHead (s : State) (ch : Nat) : State := elem0 s (fun x => { x with active := x.active.setFifo ch [{ mark := 3, payload := 5 }] })

theorem witness_SteerAndSelectResults : issuable atSlot (.steerP0P3 0 34 33 35 3) = true ∧ issuable atSlot (.steerP4P7 0 34 2 35 0) = true ∧ issuable atSlot (.steerP0P3 0 34 33 34 3) = true ∧ issuable atSlot (.selectP0P3 0 34 33 35 0) = true ∧
    endMark atSlot 33 = none ∧ endMark atSlot 35 = none ∧ issuable (endHead (endHead atSlot 1) 3) (.selectP4P7 0 34 33 35 3) = true ∧ (endMark (endHead (endHead atSlot 1) 3) 33).isSome = true ∧
    (endMark (endHead (endHead atSlot 1) 3) 35).isSome = true ∧ issuable (endHead atSlot 1) (.selectP0P3 0 2 33 35 0) = true ∧ (endMark (endHead atSlot 1) 33).isSome ≠ (endMark (endHead atSlot 1) 35).isSome ∧
    issuable atSlot (.selectMrgP0P3 0 34 33 35 0) = true ∧ issuable atSlot (.selectMrgP4P7 0 1 33 35 3) = true ∧ srcVal atSlot 33 = some 8 ∧ srcVal absentHead 33 = none ∧ sourceHead atSlot 0 1 = some placedToken := by decide

theorem test_steer_one_output : goes (exec (.steerP0P3 0 34 33 34 3) (endHead atSlot 1)) (fun t => (t.tokens (queueKey 0 (.out 2))).map (fun x => (x.mark, x.payload, x.pres)) == [(0, 5, true)]) = true := by decide

theorem test_select_join : goes (exec (.selectP0P3 0 34 33 35 0) (endHead atSlot 1)) (fun t => (t.grove 0).traps.map (·.cause) == [0x147] && ((t.elem 0).active.fifo 3).length == 1) = true ∧
    goes (exec (.selectP0P3 0 34 33 35 0) (endHead (endHead atSlot 1) 3)) (fun t => (t.tokens (queueKey 0 (.out 2))).map (fun x => (x.mark, x.payload)) == [(3, 5)]) = true := by decide

theorem witness_LaneWordResults : issuable atSlot (.vdivF32 0 1 2 3) = true ∧ laneSources atSlot [2, 3] = some [0, 0] ∧ trapEnables atSlot = 0 ∧
    issuable absentHead (.vfma 0 34 33 2 3 5 4) = true ∧ laneSources absentHead [33, 2, 3] = none := by decide

theorem witness_LaneWordResults_form : laneForm (.vdivF32 0 1 2 3) = some (16, 5, 0, 0, 1, [2, 3]) ∧ laneForm (.vfma 0 34 33 2 3 5 4) = some (3, 5, 0, 4, 34, [33, 2, 3]) := ⟨rfl, rfl⟩

/-- atSlot with the trap for a zero divisor enabled in strand 0, and 1.0 in w2. -/
def trapping : State := elem0 (withW atSlot [0, 0, 0x3F8000003F800000]) (fun x => { x with active := x.active.setStrand 0 { x.active.strand 0 with traps := 0x3F } })

theorem witness_LaneWordResults_traps : issuable trapping (.vdivF32 0 1 2 3) = true ∧ laneSources trapping [2, 3] = some [0x3F8000003F800000, 0] ∧
    (laneEval 16 5 0 0 (laneRounding trapping [2, 3] 0) (curPreds trapping) 0x3F8000003F800000 0 0).2 &&& trapEnables trapping ≠ 0 ∧ (trapping.grove (groveOf 0)).traps.length < 16 ∧ (trapping.grove (groveOf 0)).waitingTraps = [] ∧
    issuable atSlot (.vfma 0 34 33 2 3 5 4) = true ∧ laneSources atSlot [33, 2, 3] = some [8, 0, 0] := by decide +kernel

theorem test_lane_trap : goes (exec (.vdivF32 0 1 2 3) trapping) (fun t => (t.elem 0).stopped && (t.grove 0).traps.map (·.cause) == [0x041] && regVal t 1 == 0x7F8000007F800000) = true := by decide +kernel

/-- Lanes for the clauses on floating-point values: finite ones, a zero, an infinity and a NaN, by the fields of R36. -/
theorem witness_FloatLaneArithmetic : realOf .f32 false 0x3FC00000 = some (3 / 2) ∧ realOf .f32 false 0x80000000 = some 0 ∧ realOf .f32 true 1 = some 0 ∧ realOf .e4m3 false 0x38 = some 1 ∧
    isNanOf .f32 0x7FC00000 ∧ isNanOf .e4m3 0x7F ∧ 0xFF800000 % FpFormat.f32.signBit = FpFormat.f32.inf ∧ 0x7F800000 / FpFormat.f32.signBit ≠ 0xFF800000 / FpFormat.f32.signBit ∧ (3 / 2 : Rat) ≠ 0 := by
  refine ⟨by decide +kernel, by decide +kernel, by decide +kernel, by decide +kernel, ?_, ?_, by decide, by decide, by decide +kernel⟩
  · show FpFormat.f32.inf < 0x7FC00000 % FpFormat.f32.signBit; decide
  · show 0x7F % FpFormat.e4m3.signBit + 1 = FpFormat.e4m3.signBit; decide

theorem witness_FloatLaneConversions : realOf .f32 false 0x3FC00000 = some ((1 * (1 + (((64 : Nat) : Rat) + 0) / 128) * twoTo 0 : Rat)) ∧ realOf .f32 false 0x40000000 = some ((1 * (1 + (((0 : Nat) : Rat) + 0) / 128) * twoTo 1 : Rat)) ∧ (1 : Int) = 2 * 0 + (1 : Nat) ∧
    realOf .f32 false 0x3F800000 = some ((1 : Int) : Rat) ∧ (128 : Rat) ≤ 129 ∧ (-151 : Rat) < -150 ∧ realOf .f32 false 0x3C800000 = some ((((0 : Int) : Rat) + ((1 : Nat) : Rat) / 64 + 0 : Rat)) ∧
    (2 * 8479954 - 1) ^ 64 ≤ 2 ^ (1536 + 1) ∧ 2 ^ (1536 + 1) < (2 * 8479954 + 1) ^ 64 := by decide +kernel

/-- By hand: 1.5 times 2.0 plus 0.25 is 3.25, and 2 to 3.0 is 8.0 (R140, R147). -/
theorem test_float_lanes : goes (exec (.vfma 0 1 2 3 4 5 0) (withW atSlot [0, 0, 0x3FC00000, 0x40000000, 0x3E800000])) (fun t => regVal t 1 == 0x40500000) = true ∧
    goes (exec (.vexp2F32 0 1 2) (withW atSlot [0, 0, 0x40400000])) (fun t => regVal t 1 == 0x3F80000041000000) = true := by decide +kernel

theorem witness_CompareLanesWritePredicates : srcVal atSlot 33 = some 8 ∧ srcVal atSlot 2 = some 0 ∧ issuable atSlot (.vcmp 0 0 33 2 0 5) = true ∧ issuable atSlot (.vcmp 0 6 33 2 2 0) = true := by decide

/-- An absent source, an infinity beside a finite number, and an order of a NaN with its trap enabled. -/
theorem witness_CompareLanesWritePredicates_more : issuable absentHead (.vcmp 0 0 33 2 0 5) = true ∧ srcVal absentHead 33 = none ∧ placeOf .f32 false 0xFF800000 = some (-1, 0) ∧ placeOf .f32 false 0x3FC00000 = some (0, 3 / 2) ∧
    placeOf .f32 false 0x7F800000 = some (1, 0) ∧ issuable trapping (.vcmp 0 0 2 3 5 2) = true := by decide +kernel

/-- Lanes of each kind for signs and extremes: a number, a quiet and a signalling NaN, and a subnormal. -/
theorem witness_FloatLaneResults : (fpRead .f32 false 0x3FC00000).isNan = false ∧ (fpRead .f32 false 0x7FC00000).isNan = true ∧ 0x7FC00000 % 2 ^ 23 = 2 ^ 22 ∧ 0x7FA00000 % 2 ^ 23 < 2 ^ 22 ∧ (fpRead .f32 false 0x7FA00000).isNan = true ∧
    0x80000001 % FpFormat.f32.signBit < 2 ^ FpFormat.f32.manBits ∧ 0x80000000 % FpFormat.f32.signBit = 0 := by decide +kernel

theorem test_vcmp_infinity : goes (exec (.vcmp 0 0 2 3 5 2) (withW atSlot [0, 0, 0x3F800000FF800000, 0x3F8000003F800000])) (fun t => pred t 0 && !pred t 1) = true := by decide +kernel

/-- One division of the lanes chapter: 3.0 and 1.0 by 2.0 and 1.875 (R148). -/
theorem test_vdiv : goes (exec (.vdivF32 0 7 8 9) (withW atSlot [0, 0, 0, 0, 0, 0, 0, 0, 0x404000003F800000, 0x400000003FF00000])) (fun t => regVal t 7 == 0x3FC000003F088889 && (t.elem 0).sticky[0]?.getD 0 == 16) = true := by decide

/-- The conversion of the lanes chapter: 1.0 and -3.0 of E4M3 to FP32 (R149). -/
theorem test_vcvt : goes (exec (.vcvt 0 5 6 5 7) (withW atSlot [0, 0, 0, 0, 0, 0, 0xC438])) (fun t => regVal t 5 == 0xC04000003F800000) = true := by decide

/-- Generic addresses of the element's own bank 1 and of nothing. -/
def ownBank : Word := 0xFF00000000010000
def nowhere : Word := 0xFF00000000060000

/-- atSlot with w0 at an aligned bank address, w1 misaligned, w2 in no window, w3 a GLOBAL address. -/
def pointing : State := withW atSlot [ownBank, ownBank + 1, nowhere, 0x1000]

theorem witness_LoadsSendOneRequest : srcVal absentHead 33 = none ∧ issuable absentHead (.ld 0 1 33 0) = true ∧ issuable absentHead (.ldS 0 1 33 2) = true ∧ issuable absentHead (.ldZ 0 1 33 0) = true ∧
    issuable absentHead (.ldg 0 1 33 0 0xFF 1) = true ∧ srcVal pointing 0 = some ownBank ∧ issuable pointing (.ld 0 4 0 0x7F) = true ∧ addressCause pointing (ownBank + 127 * 8) 8 false = none ∧
    issuable pointing (.ld 0 34 0 0) = true ∧ issuable pointing (.ldS 0 4 0 2) = true ∧ addressCause pointing ownBank (2 ^ 2) false = none ∧ issuable pointing (.ldZ 0 4 1 0) = true ∧
    addressCause pointing (ownBank + 1) (2 ^ 0) false = none ∧ issuable pointing (.ldg 0 4 0 0 0xFF 1) = true ∧ addressCause pointing ownBank 8 false = none ∧ addressCause pointing 0x1000 8 false = none := by decide

theorem test_load_request : goes (exec (.ldS 0 4 1 0) pointing) (fun t => t.reqs.map (fun r => (r.2.size, r.2.target)) == [(1, Target.bank 0 0x10001)] && t.reqs.all (fun r => r.2.dest == .reg 4 && r.2.stage == .sent)) = true ∧
    goes (exec (.ld 0 4 3 0x80) pointing) (fun t => t.reqs.map (fun r => (r.2.addr, r.2.stage)) == [(0xC00, Stage.xlate)]) = true := by decide

theorem witness_StoresSendOneRequest : srcVal pointing 0 = some ownBank ∧ srcVal pointing 33 = some 8 ∧ issuable pointing (.st 0 33 0 0x80) = true ∧ addressCause pointing (ownBank - 1024) 8 false = none ∧
    issuable pointing (.stNarrow 0 33 0 1) = true ∧ addressCause pointing ownBank (2 ^ 1) false = none ∧ issuable pointing (.stg 0 33 0 0 0xFF 1) = true ∧ addressCause pointing ownBank 8 false = none ∧
    rangeCause pointing ownBank 8 = none ∧ rangeCause pointing ownBank 0 = none ∧ issuable pointing (.void 0 0 33) = true ∧ issuable pointing (.void 0 0 16) = true ∧
    srcVal absentHead 33 = none ∧ issuable absentHead (.st 0 33 2 0) = true ∧ issuable absentHead (.stNarrow 0 33 2 0) = true ∧ issuable absentHead (.void 0 33 2) = true ∧ issuable absentHead (.stg 0 33 2 0 0xFF 1) = true := by decide

theorem test_store_request : goes (exec (.st 0 33 0 1) pointing) (fun t => t.reqs.map (fun r => (r.2.data, r.2.target)) == [(8, Target.bank 0 0x10008)]) = true := by decide

theorem witness_AtomicsSendOneRequest : srcVal pointing 0 = some ownBank ∧ addressCause pointing ownBank 8 true = none ∧ srcVal pointing 33 = some 8 ∧ issuable pointing (.aadd 0 4 0 33) = true ∧ issuable pointing (.acas 0 4 0 33) = true ∧
    issuable pointing (.acc 0 0 33) = true ∧ issuable pointing (.tfull 0 0) = true ∧ issuable pointing (.tempty 0 0) = true ∧ issuable pointing (.barArrive 0 0 33) = true ∧ issuable pointing (.barWait 0 0 33) = true := by decide

/-- pointing with an absent token at the head of i1. -/
def pointingAbsent : State := elem0 pointing (fun x => { x with active := x.active.setFifo 1 [{ pres := false }] })

theorem witness_AtomicsSendOneRequest_absent : srcVal pointingAbsent 33 = none ∧ issuable pointingAbsent (.axch 0 4 0 33) = true ∧ issuable pointingAbsent (.barArrive 0 0 33) = true ∧ addressCause pointingAbsent ownBank 8 true = none := by decide

theorem witness_AtomicsSendOneRequest_nowhere : issuable absentHead (.aadd 0 4 33 2) = true ∧ issuable absentHead (.acc 0 33 2) = true ∧ issuable absentHead (.tfull 0 33) = true ∧ issuable absentHead (.tempty 0 33) = true ∧
    issuable absentHead (.barArrive 0 33 2) = true ∧ issuable absentHead (.barWait 0 33 2) = true ∧ issuable pointingAbsent (.acc 0 0 33) = true := by decide

theorem witness_AddressesAndTheirCauses : accessOf pointing (.ld 0 4 2 0) = some (nowhere, 8, false) ∧ issuable pointing (.ld 0 4 2 0) = true ∧ addressCause pointing nowhere 8 false = some 0x080 ∧
    accessOf pointing (.st 0 33 1 0) = some (ownBank + 1, 8, false) ∧ issuable pointing (.st 0 33 1 0) = true ∧ addressCause pointing (ownBank + 1) 8 false = some 0x081 ∧
    accessOf pointing (.aadd 0 4 3 33) = some (0x1000, 8, true) ∧ issuable pointing (.aadd 0 4 3 33) = true ∧ addressCause pointing 0x1000 8 true = some 0x082 := by decide

theorem test_address_causes : goes (exec (.ld 0 4 2 0) pointing) (fun t => (t.grove 0).traps.map (fun r => (r.cause, r.addr)) == [(0x080, nowhere)] && t.reqs.isEmpty) = true ∧
    goes (exec (.st 0 33 1 0) pointing) (fun t => (t.grove 0).traps.map (·.cause) == [0x081] && ((t.elem 0).active.fifo 1).length == 1) = true ∧
    goes (exec (.aadd 0 4 3 33) pointing) (fun t => (t.grove 0).traps.map (·.cause) == [0x082]) = true := by decide

theorem witness_AddressesAndTheirCauses_windows : (0x5FFFF : Nat) < 0x60000 ∧ (0x60000 : Nat) < 2 ^ 52 ∧ (unitRegion atSlot (.elem 0))[0]? = some 0 ∧ resolveAddr atSlot (.elem 0) (0xFF1 * 2 ^ 52 + 127 * 0x60000 + 0x5FFFF) = some (.bank (mElem 0 127) 0x5FFFF) ∧
    resolveAddr atSlot (.elem 0) (0xFF2 * 2 ^ 52 + 255 * 0x60000) = some (.bank (elemAt 0 255) 0) ∧ resolveAddr atSlot (.elem 0) (2 ^ 52) = none := by decide

theorem witness_AddressesAndTheirCauses_conversions : srcVal pointing 33 = some 8 ∧ issuable pointing (.acvtGen 0 4 33 0) = true ∧ (8 : Word).toNat < spaceSize pointing 0 ∧ srcVal pointing 2 = some nowhere ∧ issuable pointing (.acvtGen 0 4 2 3) = true ∧
    spaceSize pointing 3 ≤ nowhere.toNat ∧ issuable pointing (.acvtRel 0 4 0 0) = true ∧ spaceBase 0 ≤ ownBank.toNat ∧ ownBank.toNat < spaceBase 0 + spaceSize pointing 0 ∧
    issuable pointing (.acvtRel 0 4 2 0) = true ∧ ¬ (nowhere.toNat < spaceBase 0 + spaceSize pointing 0) ∧ issuable pointing (.ain 0 7 0 3) = true := by decide

theorem witness_FenceTimeAndEventResults : issuable atSlot (.fenceE 0) = true ∧ issuable atSlot (.fenceD 0) = true ∧ issuable atWord (.fenceM 0) = true ∧ issuable atSlot (.atTb 0 33 33) = true ∧ srcVal atSlot 33 = some 8 ∧
    issuable absentHead (.atTb 0 33 33) = true ∧ srcVal absentHead 33 = none := by decide

/-- A supervisor of a partition that holds grove 0 and context 0, with w0 naming event 0 of it and w1 event 255 of context 9. -/
def inPart : State :=
  let s := grove0 atSuper (fun x => { x with superBank := { x.superBank with w := setAt x.superBank.w 1 0x9000000FF } })
  { s with parts := [(0, { rows := 1, cols := 1 })], ctxs := [(0, { events := 1 })] }

theorem witness_FenceTimeAndEventResults_events : inPart.cur = .word 0 12 ∧ (inPart.grove 0).level ≠ 0 ∧ (regVal inPart 0).toNat / 2 ^ 32 % 2 ^ 16 = 0 ∧ (regVal inPart 0).toNat % 256 = 0 ∧ ctxHere inPart 0 = true ∧
    issuable inPart (.evset 0 0) = true ∧ issuable inPart (.evclr 0 0) = true ∧ issuable inPart (.evwait 0 0) = true ∧ (regVal inPart 1).toNat / 2 ^ 32 % 2 ^ 16 = 9 ∧ (regVal inPart 1).toNat % 256 = 255 ∧ ctxHere inPart 9 = false ∧
    issuable inPart (.evset 0 1) = true ∧ issuable inPart (.evwait 0 1) = true := by decide

theorem test_events : goes (exec (.evclr 0 0) inPart) (fun t => (t.ctx 0).events == 0) = true ∧ goes (exec (.evset 0 0) inPart) (fun t => (t.ctx 0).events == 1) = true := by decide

/-- A state whose context 0 has packets in reserve. -/
def withReserve (s : State) (n : Nat) : State := { s with ctxs := [(0, { reserve := n })] }

theorem witness_MeterWordResults_refill : issuable (withReserve atSlot 8) (.refill 0 33) = true ∧ srcVal atSlot 33 = some 8 ∧ curTask (withReserve atSlot 8) = some 1 ∧
    (8 : Word).toNat ≤ ((withReserve atSlot 8).ctx (atSlot.task 1).ctx).reserve ∧ ((withReserve atSlot 7).ctx (atSlot.task 1).ctx).reserve < (8 : Word).toNat ∧ issuable (withReserve atSlot 7) (.refill 0 33) = true ∧
    mfind atSlot.tasks 1 ≠ none ∧ curGrove atSlot ∈ (atSlot.task 1).groves ∧ (atSlot.task 1).groves.Nodup ∧ issuable atSlot (.refill 0 16) = true ∧ srcVal atSlot 16 = some 0 ∧
    issuable absentHead (.refill 0 33) = true ∧ srcVal absentHead 33 = none := by decide

/-- A supervisor of a grove that no task holds. -/
def noTask : State := grove0 atSuper (fun x => { x with task := none })

theorem witness_MeterWordResults : curTask noTask = none ∧ issuable noTask (.refill 0 17) = true ∧ issuable noTask (.chkpt 0 0) = true ∧ issuable noTask (.abort 0 17) = true ∧
    issuable atWord (.commit 0 17) = true ∧ (atWord.grove 0).level = 0 ∧ (atWord.grove 0).regionIndex = 0 ∧ atWord.taskOfGrove 0 = some 1 ∧ issuable atSuper (.commit 0 17) = true ∧ (atSuper.grove 0).level ≠ 0 ∧
    issuable atSlot (.abort 0 33) = true ∧ curTask atSlot = some 1 ∧ isLive atSlot 1 = true ∧ issuable absentHead (.abort 0 33) = true ∧ issuable atSlot (.chkpt 0 16383) = true ∧ (atSlot.task 1).superseded = false := by decide

/-- A task with a wave pending, and one that is superseded. -/
def armed (s : State) : State := task1 s (fun x => { x with armedWave := true })
def superseded : State := task1 atSlot (fun x => { x with superseded := true })

theorem witness_MeterWordResults_waves : issuable (armed atSlot) (.chkpt 0 5) = true ∧ wavePending ((armed atSlot).task 1) = true ∧ issuable (armed atWord) (.chkpt 0 5) = true ∧ wavePending ((armed atWord).task 1) = true ∧ ((armed atWord).grove 0).level = 0 ∧
    issuable superseded (.chkpt 0 5) = true ∧ (superseded.task 1).superseded = true ∧ isLive superseded 1 = true := by decide

theorem test_meter_words : goes (exec (.refill 0 33) (withReserve atSlot 8)) (fun t => (t.ctx 0).reserve == 0 && balance t 1 == balance atSlot 1 - 1 + 128 && (t.task 1).refilled == 8) = true ∧
    goes (exec (.refill 0 33) (withReserve atSlot 7)) (fun t => (t.grove 0).traps.map (·.cause) == [0x103]) = true ∧
    goes (exec (.commit 0 17) atWord) (fun t => (t.grove 0).halted && (t.task 1).user == 1) = true ∧ goes (exec (.abort 0 33) atSlot) (fun t => mget TagState.free t.tags 1 == .vanished) = true := by decide

/-- atSlot with a node descriptor in slot 0 of its plane. -/
def withNode (s : State) (d : Desc) : State := elem0 s (fun x => { x with active := { x.active with node := [(0, d)] } })

theorem witness_LookupRaceAndPlaceResults_race : nodeOf atSlot 0 5 = none ∧ issuable atSlot (.raceK 0 1 33 8) = true ∧ nodeOf (withNode atSlot ⟨0x50000000, 0, 0, 0⟩) 0 5 ≠ none ∧
    issuable (withNode atSlot ⟨0x50000000, 0, 0, 0⟩) (.raceK 0 34 33 1) = true ∧ srcVal atSlot 33 = some 8 ∧
    issuable (withNode absentHead ⟨0x50000000, 0, 0, 0⟩) (.raceK 0 34 33 1) = true ∧ srcVal (withNode absentHead ⟨0x50000000, 0, 0, 0⟩) 33 = none := by decide

/-- A sequencer with the header of an area of one element of one grove in w1, a histogram address in w2 that names a bank of m-index 0, the last word of its CLUSTER window in w3, a GLOBAL one in w4 and a misaligned one in w5. -/
def placing : State := grove0 atWord (fun x => { x with taskBank := { x.taskBank with
  w := #v[0, 0x4100000000, 0xFF10000000000000, 0xFF10000002FFFFF8, 0x1000, 0x1001, 0, 0, 0, 0, 0, 0, 0, 0, 0, 0] } })

theorem witness_LookupRaceAndPlaceResults_place : placing.cur = .word 0 12 ∧ issuable placing (.place 0 5 1 2) = true ∧ badArea placing 0 (regVal placing 1) = false ∧ badArea placing 0 (regVal placing 0) = true ∧ issuable placing (.place 0 5 0 2) = true ∧
    addressCause placing (regVal placing 2) 8 false = none ∧ resolveAddr placing (.seq 0) (regVal placing 2).toNat = some (.bank (mElem 0 0) 0) ∧ pastWindow placing (regVal placing 2) (plExperts (regVal placing 1)) = false ∧
    addressCause placing (regVal placing 4) 8 false = none ∧ resolveAddr placing (.seq 0) (regVal placing 4).toNat = some (.global 0x1000) ∧ pastWindow placing (regVal placing 4) (plExperts (regVal placing 1)) = false ∧
    issuable placing (.place 0 5 1 4) = true ∧ issuable placing (.place 0 5 1 5) = true ∧ addressCause placing (regVal placing 5) 8 false = some 0x081 := by decide

/-- The same with the header of two experts. -/
def placing2 : State := grove0 placing (fun x => { x with taskBank := { x.taskBank with w := setAt x.taskBank.w 1 0x0100004100000000 } })

theorem witness_LookupRaceAndPlaceResults_place_window : issuable placing2 (.place 0 5 1 3) = true ∧ badArea placing2 0 (regVal placing2 1) = false ∧ addressCause placing2 (regVal placing2 3) 8 false = none ∧
    resolveAddr placing2 (.seq 0) (regVal placing2 3).toNat = some (.bank (mElem 0 127) 0x5FFF8) ∧ pastWindow placing2 0xFF1000000005FFF8 (plExperts (regVal placing2 1)) = false ∧ pastWindow placing2 (regVal placing2 3) (plExperts (regVal placing2 1)) = true := by decide

theorem witness_LookupRaceAndPlaceResults_cells : issuable atSlot (.lcld 0 34 56 33) = true ∧ issuable atSlot (.lcctx 0 7 33) = true ∧ issuable atSlot (.lcev 0 8 33) = true ∧ issuable atSlot (.lcevRel 0 1 33) = true ∧
    srcVal atSlot 33 = some 8 ∧ issuable absentHead (.lcctx 0 7 33) = true ∧ issuable atSlot (.lcin 0 33 34) = true ∧ issuable absentHead (.lcin 0 33 34) = true ∧ issuable atSlot (.lcout 0 35 34 33) = true ∧
    issuable absentHead (.lcout 0 35 34 33) = true ∧ issuable absentHead (.lcout 0 35 33 34) = true ∧ srcVal absentHead 34 = some 8 ∧ srcVal absentHead 33 = none ∧ issuable atSlot (.bpt 0 1 33) = true := by decide

theorem test_bpt : goes (exec (.bpt 0 1 33) atSlot) (fun t => regVal t 1 == 0x01000000) = true := by decide

/-- Position 1 of element 0 holding a plane, or a frozen frame. -/
def withPlane (s : State) : State := elem0 s (fun x => { x with under := setAt x.under 0 (.plane { present := true }) })
def withFrame (s : State) : State := elem0 s (fun x => { x with under := setAt x.under 0 (.frame {}) })
/-- An image reference for plane 1 of the load, and one to memory. -/
def planeOne : Word := 0x4000000000000001

/-- Registers of grove 0 with image references in w1 (plane 1 of the load) and w2 (memory). -/
def loading (s : State) : State := grove0 s (fun x => { x with taskBank := { x.taskBank with w := setAt (setAt x.taskBank.w 1 planeOne) 2 0x40 } })

theorem witness_PlaneWordResults_element : issuable (withW atSlot [planeOne]) (.pload 0 1 0) = true ∧ (cacheImage planeOne).isSome = true ∧ holdsFrame ((withW atSlot [planeOne]).elem 0) 1 = false ∧
    issuable (withFrame (withW atSlot [planeOne])) (.pload 0 1 0) = true ∧ holdsFrame ((withFrame (withW atSlot [planeOne])).elem 0) 1 = true ∧ issuable atSlot (.pload 0 3 17) = true ∧ srcVal atSlot 17 = some 1 ∧
    (cacheImage 1).isSome = false ∧ memoryImage 1 = false ∧ memoryImage 0x40 = true ∧ issuable atSlot (.pswap 0 1) = true ∧ canArm (atSlot.elem 0) = false ∧ canArm ((withPlane atSlot).elem 0) = true ∧
    issuable (withPlane atSlot) (.pswap 0 3) = true ∧ (atSlot.elem 0).active.armk = 0 ∧ issuable absentHead (.pload 0 1 33) = true := by decide

/-- withPlane with a swap armed already. -/
def armedSwap : State := elem0 (withPlane atSlot) (fun x => { x with active := { x.active with armk := 2 } })

theorem witness_PlaneWordResults_armed : issuable armedSwap (.pswap 0 1) = true ∧ canArm (armedSwap.elem 0) = true ∧ (armedSwap.elem 0).active.armk ≠ 0 := by decide

set_option maxRecDepth 8000 in
theorem witness_PlaneWordResults_sequencer : issuable (loading atWord) (.pload 0 1 1) = true ∧ (∀ e ∈ groveElems 0, holdsFrame ((loading atWord).elem e) 1 = false) ∧ cacheImage (regVal (loading atWord) 1) = some 1 ∧
    memoryImage (regVal (loading atWord) 1) = false ∧ issuable (loading atWord) (.pload 0 3 2) = true ∧ memoryImage (regVal (loading atWord) 2) = true ∧ issuable atWord (.pload 0 1 17) = true ∧ cacheImage (regVal atWord 17) = none ∧
    memoryImage (regVal atWord 17) = false ∧ issuable atWord (.pswap 0 2) = true := by decide

theorem witness_PlaneWordResults_calls : issuable (loading atWord) (.gcall 0 16 17) = true ∧ (loading atWord).taskOfGrove 0 = some 1 ∧ callCause ((loading atWord).task 1) ((loading atWord).grove 0).cellarn.toNat 16 (regVal (loading atWord) 16) = none ∧
    callCause ((loading atWord).task 1) ((loading atWord).grove 0).cellarn.toNat 17 (regVal (loading atWord) 17) = some 0x183 ∧ issuable (loading atWord) (.gcall 0 17 17) = true ∧ issuable absentHead (.gcall 0 16 33) = true ∧
    issuable atSlot (.gret 0 33) = true ∧ (atSlot.task 1).depth = 0 ∧ ((task1 atSlot (fun x => { x with depth := 1 })).task 1).depth ≠ 0 ∧ issuable (task1 atSlot (fun x => { x with depth := 1 })) (.gret 0 33) = true ∧ issuable absentHead (.gret 0 33) = true := by decide

theorem test_planes : goes (exec (.pswap 0 1) atSlot) (fun t => (t.grove 0).traps.map (·.cause) == [0x180]) = true ∧ goes (exec (.pswap 0 3) (withPlane atSlot)) (fun t => (t.elem 0).active.armk == 3) = true ∧
    goes (exec (.gret 0 33) atSlot) (fun t => (t.grove 0).traps.map (·.cause) == [0x186]) = true ∧ goes (exec (.gcall 0 16 17) (loading atWord)) (fun t => (t.task 1).wave == some (.freeze true 0)) = true := by decide

/-- AG 0 of grove 0 with a staging state that names a bank of its own element, m-index 0, for reading, and AG 1 too. -/
def stBank : Staging := { base := 0xFF10000000000000, ch := 1, strides := 8, counts := 0 }
def staged : State := grove0 atWord (fun x => { x with ags := [(0, { staging := stBank }), (1, { staging := stBank })], taskBank := { x.taskBank with w := setAt (setAt x.taskBank.w 1 0xFF10000000000000) 2 8 } })
/-- The same for writing. -/
def stagedIn : State := grove0 staged (fun x => { x with ags := [(0, { staging := { stBank with inbound := true } }), (1, { staging := stBank })] })
/-- staged with a sparse set unit for the pair of AGs 0 and 1. -/
def stagedSet : State := staged.modElem (agElem 0 0) (fun x => { x with active := { x.active with node := [(0, ⟨0x70000000, 0, 0, 0⟩)] } })
/-- A leaf that may be read and written, installed for the first page of GLOBAL of context 0. -/
def page : TlbEntry := { ctx := 0, va := 0, size := 65536, leaf := 0xB010000000000000 }
def mapped (s : State) : State := grove0 s (fun x => { x with tlb := [page] })
/-- mapped with AG 0 staged to write GLOBAL address 64. -/
def stagedGlobal : State := grove0 (mapped staged) (fun x => { x with ags := [(0, { staging := { stBank with base := 64, inbound := true } })], taskBank := { x.taskBank with w := setAt x.taskBank.w 3 64 } })

theorem witness_StreamWordResults_staging : issuable staged (.sbind 0 1 0 5 1 0) = true ∧ (regVal staged 1).toNat / 2 ^ 52 ≠ 0 ∧ issuable stagedGlobal (.sbind 0 3 0 5 1 1) = true ∧ (regVal stagedGlobal 3).toNat / 2 ^ 52 = 0 ∧
    (match (patchExtent (issued stagedGlobal (.sbind 0 3 0 5 1 1)) 0 0 64).2 with | .ok _ => true | .error _ => false) = true ∧ issuable staged (.spat 0 1 2 511) = true := by decide

theorem witness_StreamWordResults_sgo : issuable staged (.sgo 0 0 3 1 15 1 0) = true ∧ stagingOk staged 0 0 stBank = true ∧ stBank.inbound = false ∧ issuable stagedIn (.sgo 0 0 0 0 0 0 0) = true ∧ isGlobal stBank.base = false ∧
    issuable stagedIn (.sgo 0 0 1 0 0 0 0) = true ∧ issuable atWord (.sgo 0 2 0 0 0 0 0) = true ∧ issuable stagedGlobal (.sgo 0 0 0 0 0 0 0) = true ∧ stagingOk stagedGlobal 0 0 { stBank with base := 64, inbound := true } = true ∧
    (checkWrites (issued stagedGlobal (.sgo 0 0 0 0 0 0 0)) 0 0 stagedGlobal.supervising (spanPages 64 71)).2.denied = none := by decide

theorem witness_StreamWordResults_copies : issuable staged (.scopy 0 1 2 0 0 0 0 0) = true ∧ copyOk staged 0 0 (regVal staged 1) stBank (regVal staged 2).toNat = true ∧ isGlobal (regVal staged 1) = false ∧
    issuable staged (.scopy 0 1 0 0 0 0 0 0) = true ∧ copyOk staged 0 0 (regVal staged 1) stBank (regVal staged 0).toNat = false ∧ issuable stagedGlobal (.scopy 0 3 2 0 0 0 0 0) = true ∧
    copyOk stagedGlobal 0 0 64 { stBank with base := 64, inbound := true } 8 = true := by decide

theorem witness_StreamWordResults_sets : issuable staged (.sgath 0 0 31 1 0 0 0 0) = true ∧ issuable stagedIn (.sgath 0 0 31 1 0 0 0 0) = true ∧ issuable stagedIn (.sscat 0 0 31 0 0 0 0) = true ∧ issuable staged (.sscat 0 0 31 0 0 0 0) = true ∧
    issuable staged (.sisect 0 5 0 0 0 0 0) = true ∧ pairDesc staged 0 0 = none ∧ issuable stagedSet (.smerge 0 5 0 1 15 1 15) = true ∧ (pairDesc stagedSet 0 0).isSome = true ∧ stagingOk stagedSet 0 1 stBank = true ∧
    issuable staged (.swait 0 0) = true ∧ issuable staged (.sbar 0) = true := by decide

/-- An AG with a command that has not retired, and one whose command a frame of an element of the grove keeps. -/
theorem witness_StreamWordResults_retired : ¬ haveRetired (grove0 staged (fun x => { x with ags := [(0, { queue := [{ kind := .affine 0, stage := stBank }] })] })) 0 0 ∧
    ¬ haveRetired (elem0 staged (fun x => { x with under := setAt x.under 0 (.frame { flight := { ags := [(0, { queue := [{ kind := .affine 0, stage := stBank }] })] } }) })) 0 0 ∧
    haveRetired atWord 0 0 := by
  refine ⟨?_, ?_, ?_⟩
  · rintro ⟨h, -⟩; exact absurd (h (0, { queue := [{ kind := .affine 0, stage := stBank }] }) (by decide) rfl) (by decide)
  · rintro ⟨-, h⟩
    exact absurd (h (0, (elem0 staged (fun x => { x with under := setAt x.under 0 (.frame { flight := { ags := [(0, { queue := [{ kind := .affine 0, stage := stBank }] })] } }) })).elem 0) (by decide) rfl
      { flight := { ags := [(0, { queue := [{ kind := .affine 0, stage := stBank }] })] } } (by decide) (0, { queue := [{ kind := .affine 0, stage := stBank }] }) (by decide) rfl) (by decide)
  · exact ⟨by decide, by decide⟩

theorem test_streams : goes (exec (.sgo 0 0 3 1 15 1 0) staged) (fun t => ((t.grove 0).ag 0).queue.map (fun c => (c.kind, c.push, c.pop)) == [(.affine 3, some 15, some 0)]) = true ∧
    goes (exec (.sscat 0 0 31 0 0 0 0) staged) (fun t => (t.grove 0).traps.map (·.cause) == [0x14C]) = true ∧
    goes (exec (.smerge 0 5 0 1 15 1 15) stagedSet) (fun t => ((t.grove 0).ag 1).queue.map (·.kind) == [.set true false 5]) = true := by decide

/-! ### Events -/

/-- A state with one token of class 0 in an outbound queue of element 0 and a route entry for that class. -/
def routed (w : IWord) (t : Token) : State :=
  (elem0 atSlot (fun x => { x with active := { x.active with route := [(0, w)] } })).setTokens (queueKey 0 (.out 0)) [t]

/-- A valid entry: east to channel 3; to channel 3 at the element itself; north, off the module; east and local. -/
def eastRoute : IWord := 0x00010068
def localRoute : IWord := 0x00010061
def northRoute : IWord := 0x00010070
def bothRoute : IWord := 0x00010069

theorem witness_TokenMoves_hop : routerHeld (routed eastRoute { tid := 5 }) 0 (.out 0) = false ∧ routerHeld (routed northRoute {}) 0 (.out 0) = false ∧ routerHeld (routed bothRoute {}) 0 (.out 0) = false ∧ (routed eastRoute { tid := 5 }).tokens (queueKey 0 (.out 0)) = [{ tid := 5 }] ∧ routeValid eastRoute = true ∧ routeBranches eastRoute = [some .east] ∧ neighbour 0 .east = some 1 ∧
    ((routed eastRoute {}).tokens (queueKey 1 (.inq (opposite .east) (BitVec.ofNat 5 (routeDch eastRoute))))).length < hopCapacity 0 1 ∧ routeValid 0 = false ∧ routeBranches northRoute = [some .north] ∧ neighbour 0 .north = none ∧
    2 ≤ (routeBranches bothRoute).length ∧ (∀ b ∈ routeBranches bothRoute, ((routed bothRoute {}).tokens (queueKey 0 (.branch 0 b))).length < 16) := by decide

theorem witness_TokenMoves_hop_full : hopCapacity 0 1 ≤ (((routed eastRoute {}).setTokens (queueKey 1 (.inq .west 3)) [{}, {}]).tokens (queueKey 1 (.inq (opposite .east) (BitVec.ofNat 5 (routeDch eastRoute))))).length := by decide

theorem witness_TokenMoves_parity_full : hopCapacity 0 1 ≤ (((routed eastRoute { tid := 5 }).setTokens (queueKey 1 (.inq .west 3)) [{}, {}]).tokens (queueKey 1 (.inq .west 3))).length := by decide

/-- A token that a parity failure loses stays where the next buffer is full (R93). -/
theorem test_hop_parity_full : goes (exec (.tokenHop 0 (.out 0) true) ((routed eastRoute {}).setTokens (queueKey 1 (.inq .west 3)) [{}, {}])) (fun t => (t.tokens (queueKey 0 (.out 0))).length == 1 && t.eventLog.isEmpty) = true := by decide

theorem test_token_hop : goes (exec (.tokenHop 0 (.out 0) false) (routed eastRoute { payload := 7 })) (fun t => (t.tokens (queueKey 1 (.inq .west 3))).map (·.payload) == [7] && (t.tokens (queueKey 0 (.out 0))).isEmpty) = true ∧
    goes (exec (.tokenHop 0 (.out 0) false) (routed northRoute {})) (fun t => (t.grove 0).traps.map (·.cause) == [0x142]) = true ∧
    goes (exec (.tokenHop 0 (.out 0) false) (routed bothRoute { payload := 7 })) (fun t => (t.tokens (queueKey 0 (.branch 0 (some .east)))).length == 1 && (t.tokens (queueKey 0 (.branch 0 none))).length == 1) = true := by decide

theorem witness_TokenMoves_deliver : routerHeld (routed localRoute {}) 0 (.out 0) = false ∧ (routed localRoute {}).tokens (queueKey 0 (.out 0)) = [{}] ∧ routeValid localRoute = true ∧ routeBranches localRoute = [none] ∧ routeDch localRoute = 3 ∧ discards (routed localRoute {}) 0 3 = false ∧
    decodes (((routed localRoute {}).elem 0).active.chanWord 3) = false ∧ slotsUsed (((routed localRoute {}).elem 0).active.fifo 3) < chanDepth (((routed localRoute {}).elem 0).active.chanWord 3) ∧
    ((endHead (routed localRoute { mark := 3, payload := 2 }) 2).elem 0).active.fifo 2 ≠ [] := by decide

/-- routed with channel 3 full, and with an end mark of rank 1 as its last token. -/
def fullChannel : State := elem0 (routed localRoute {}) (fun x => { x with active := x.active.setFifo 3 [{}, {}] })
def heldMark : State := elem0 (routed localRoute { mark := 3, payload := 2 }) (fun x => { x with active := x.active.setFifo 3 [{ mark := 1 }] })

theorem witness_TokenMoves_deliver_full : chanDepth ((fullChannel.elem 0).active.chanWord 3) ≤ slotsUsed ((fullChannel.elem 0).active.fifo 3) ∧ (heldMark.elem 0).active.fifo 3 = [{ mark := 1 }] ∧ Token.isEnd { mark := 3, payload := 2 } = true := by decide

theorem test_token_deliver : goes (exec (.tokenDeliver 0 (.out 0)) (routed localRoute { payload := 7 })) (fun t => ((t.elem 0).active.fifo 3).map (·.payload) == [8, 7]) = true ∧
    goes (exec (.tokenDeliver 0 (.out 0)) heldMark) (fun t => ((t.elem 0).active.fifo 3).map (fun x => (x.mark, x.payload)) == [(3, 2)]) = true := by decide

/-- A pending at of element 0 whose time has come, and one to come. -/
def pendingAt (v : Word) : State := { elem0 atSlot (fun x => { x with ats := [{ ch := 2, target := v, strand := 0, gen := 0, tid := 5 }] }) with outst := [(5, { elem := 0, ch := 2, copies := 0, gen := 0, strand := 0, cls := 2 })] }

theorem witness_TokenMoves_at : ((pendingAt 0).elem 0).ats[0]? = some { ch := 2, target := 0, strand := 0, gen := 0, tid := 5 } ∧ ((pendingAt 0).elem 0).frozen = false ∧ atFloor (pendingAt 0) (groveOf 0) = false ∧ (0 : Word).toNat ≤ (pendingAt 0).tb.toNat ∧ (pendingAt 1).tb.toNat < (1 : Word).toNat := by decide

theorem test_at_emit : goes (exec (.atEmit 0 0) (pendingAt 0)) (fun t => (t.tokens (queueKey 0 (.out 2))).length == 1 && (t.elem 0).ats.isEmpty) = true := by decide

/-- atSlot with a request 7 and bank 0 of element 0 held by task 1. -/
def asking (q : Req) : State := { atSlot with reqs := [(7, q)], banks := [(0, { owner := .held 1 })] }
/-- A load of element 0 from a bank word at a stage. -/
def loadOf (st : Stage) : Req := { src := .elem 0, tag := 1, kind := .load false, addr := 0xFF00000000000000, target := .bank 0 0, stage := st, dest := .reg 3 }

theorem witness_RequestMoves_admit : mfind (asking (loadOf .sent)).reqs 7 = some (loadOf .sent) ∧ pathBlocked (asking (loadOf .sent)) 7 (loadOf .sent) = false ∧ portRoom (asking (loadOf .sent)) 7 (loadOf .sent) = true ∧
    portRoom { asking (loadOf .sent) with ports := [(0, { queue := List.replicate 16 9 })] } 7 (loadOf .sent) = false ∧
    portStopped (asking (loadOf .sent)) (loadOf .sent) = false ∧ portStopped { asking (loadOf .sent) with pours := [0] } (loadOf .sent) = true := by decide

/-- A held request of a chain whose PRED request 6 is on its way to the same bank, and one whose PRED request is at another unit. -/
def heldReq : Req := { loadOf .held with wave := some ⟨1, 0, 2⟩, pred := some ⟨6, some (.bank 0 0)⟩ }
def holdingReq : State := { asking heldReq with reqs := [(6, { loadOf .queued with wave := some ⟨0, 0xFF, 1⟩ }), (7, heldReq)] }
def afterReq : Req := { heldReq with stage := .after 6, pred := some ⟨6, some (.bank 1 0)⟩ }
def afterState (st : Stage) : State := { asking afterReq with reqs := [(6, { loadOf st with target := .bank 1 0 }), (7, afterReq)] }

theorem witness_RequestMoves_held : mfind holdingReq.reqs 7 = some heldReq ∧ heldReq.wave = some ⟨1, 0, 2⟩ ∧ heldReq.pred = some ⟨6, some (.bank 0 0)⟩ ∧ portOf (.bank 0 0) = portOf heldReq.target ∧
    mfind (asking { heldReq with pred := none }).reqs 7 = some { heldReq with pred := none } ∧ mfind (afterState .queued).reqs 7 = some afterReq ∧ afterReq.destination.isSome = true ∧
    (some (Target.bank 1 0)).map portOf ≠ some (portOf afterReq.target) ∧ performed (afterState .queued) 6 = false ∧ performed (afterState (.done 0 0)) 6 = true ∧
    ({ afterReq with kind := .absent, scope := 3, pred := none } : Req).destination = none := by decide

theorem test_held : goes (exec (.waveRequestRelease 7) holdingReq) (fun t => (t.reqs.map (fun r => r.2.stage)) == [Stage.queued, Stage.sent]) = true ∧
    goes (exec (.waveRequestRelease 7) (afterState .queued)) (fun t => t == afterState .queued) = true ∧
    goes (exec (.waveRequestRelease 7) (afterState (.done 0 0))) (fun t => t.reqs.map (fun r => (r.2.stage, r.2.wave.map (·.pred))) == [(Stage.done 0 0, none), (Stage.sent, some 0xFF)]) = true := by decide

/-- A request to GLOBAL that waits for its translation. -/
def xlating : Req := { loadOf .xlate with addr := 0x100, target := .bank 0 0 }

theorem witness_RequestMoves_walk : tlbFind (mapped (asking xlating)) (groveOfUnit xlating.src) (unitCtx (mapped (asking xlating)) xlating.src) xlating.addr = some page ∧ (requestParts (mapped (asking xlating)) xlating page.leaf page.size).2 = .ok [] ∧
    (requestParts (mapped (asking xlating)) xlating 0 page.size).2 = .error 0x0C2 ∧ tlbFind (asking xlating) 0 0 0x100 = none ∧ ((asking xlating).ctx 0).root < hbmEnd ∧
    hbmEnd ≤ ({ asking xlating with ctxs := [(0, { root := 2 ^ 60 })] }.ctx 0).root ∧ (match walk (asking xlating) 0 0x100 with | .error k => k == 0x0C0 | .ok _ => false) = true := by decide

/-- A page table for GLOBAL address 0x100: three tables and a 64 KiB leaf, in granule 0 of partition 0. -/
def tables : State :=
  { asking xlating with
    mem := setWord (setWord (setWord (setWord [] 0x10000 0x4000000000000020) 0x20000 0x4000000000000030) 0x30000 0x4000000000000040) 0x40000 0xB010000000000005
    ctxs := [(0, { root := 0x10000 })], parts := [(0, { granules := [0], keys := [1] })], sectors := [(0x400, ⟨1, 0⟩), (0x800, ⟨1, 0⟩), (0xC00, ⟨1, 0⟩), (0x1000, ⟨1, 0⟩)] }

theorem witness_RequestMoves_tables : ((tables).ctx 0).root < hbmEnd ∧ walk tables 0 0x100 = .ok (0xB010000000000005, 65536) ∧ mfind tables.reqs 7 = some xlating ∧ xlating.stage = .xlate := ⟨by decide, by rfl, by decide, by decide⟩

theorem test_table_walk : goes (exec (.tableWalk 7 0) tables) (fun t => t.reqs.map (fun r => (r.2.stage, r.2.target)) == [(Stage.sent, Target.hbm 0x50100)] && (t.grove 0).tlb.map (fun x => (x.va, x.size)) == [(0, 65536)]) = true ∧
    goes (exec (.tableWalk 7 0) (asking xlating)) (fun t => t.reqs.map (fun r => r.2.stage) == [Stage.failed 0x0C0]) = true := by decide

/-- A request to another module that has left. -/
def remoteReq : Req := { loadOf .deferred with target := .module 3 0x40, rid := 9 }

theorem witness_RequestMoves_timeout : mfind (asking remoteReq).reqs 7 = some remoteReq ∧ remoteReq.target = .module 3 0x40 ∧ remoteReq.since + 1000000 ≤ ({ asking remoteReq with tb := 1000000 } : State).tb.toNat ∧ (asking remoteReq).tb.toNat < remoteReq.since + 1000000 := by decide

/-- A queued request at the head of its port. -/
def serving (q : Req) : State := { asking q with ports := [(0, { queue := [7] })] }
def storeOf (v : Word) : Req := { loadOf .queued with kind := .store, data := v, dest := .none }
def atomicOf (op : AtomicOp) (v : Word) : Req := { loadOf .queued with kind := .atomic op, data := v }
def contribution (v : Word) : Req := { loadOf .queued with kind := .contribute, data := v, dest := .none }

theorem witness_BankServing_plain : mfind (serving (loadOf .queued)).reqs 7 = some (loadOf .queued) ∧ nextServed (serving (loadOf .queued)) (portOf (.bank 0 0)) = some 7 ∧ ownsBank (serving (loadOf .queued)) (loadOf .queued) 0 = true ∧
    windowOf ((serving (loadOf .queued)).elem 0).active 0 = none ∧ (0 : Nat) % 8 + 8 ≤ 8 ∧ nextServed (serving (storeOf 7)) 0 = some 7 ∧ Memory.wf (serving (storeOf 7)).mem = true ∧
    nextServed (serving (atomicOf .add 7)) 0 = some 7 ∧ isC 0 = true ∧ isC 1 = false ∧ ((serving (loadOf .queued)).elem 0).gated = false ∧ portStopped (serving (loadOf .queued)) (loadOf .queued) = false := by decide

/-- The same at a bank of an M element. -/
def servingM (q : Req) : State := { atSlot with reqs := [(7, { q with target := .bank 1 0 })], banks := [(6, { owner := .held 1 })], ports := [(6, { queue := [7] })] }

theorem witness_BankServing_atomic : nextServed (servingM (atomicOf .add 7)) (portOf (.bank 1 0)) = some 7 ∧ ownsBank (servingM (atomicOf .add 7)) (atomicOf .add 7) 6 = true ∧ windowOf ((servingM (atomicOf .add 7)).elem 1).active 0 = none ∧ isC 1 = false := by decide

/-- Memory with bank words of elements 0 and 1. -/
def holdingWord (s : State) (v : Word) : State := { s with mem := setWord (setWord [] (bankAddr 0 0) v) (bankAddr 1 0) v }

theorem test_serve_plain : goes (exec (.requestServe 7 false) (holdingWord (serving { loadOf .queued with kind := .load true, size := 2 }) 0x8001)) (fun t => t.reqs.map (fun r => r.2.stage) == [Stage.done 0xFFFFFFFFFFFF8001 0]) = true ∧
    goes (exec (.requestServe 7 false) (serving { storeOf 0x1234 with size := 2 })) (fun t => readBytes t.mem (bankAddr 0 0) 8 == 0x1234 && t.reqs.isEmpty) = true ∧
    goes (exec (.requestServe 7 false) (holdingWord (servingM (atomicOf .max 7)) 0xFFFFFFFFFFFFFFFF)) (fun t => wordAt t.mem (bankAddr 1 0) == 7 && t.reqs.map (fun r => r.2.stage) == [Stage.done 0xFFFFFFFFFFFFFFFF 0]) = true := by decide

/-- Element 0 with an SA window over its first 64 bytes, and element 1 with an AC window of two contributions over its. -/
def saWindow : Desc := ⟨0x60000000, 0, 64, 0⟩
def acWindow : Desc := ⟨0x60802000, 0, 64, 0⟩
def inWindow (s : State) : State := (withNode s saWindow).modElem 1 (fun x => { x with active := { x.active with present := true, node := [(0, acWindow)] } })
def filled (s : State) : State := { s with words := [(bankWord 0 0, { full := true }), (bankWord 1 0, { full := true })] }

theorem witness_BankServing_windows : windowOf ((inWindow (serving (loadOf .queued))).elem 0).active 0 = some saWindow ∧ winOrg saWindow = 0 ∧ winMode saWindow = 0 ∧ intakeWindow ((inWindow (serving (loadOf .queued))).elem 0).active = none ∧
    nextServed (inWindow (serving (loadOf .queued))) 0 = some 7 ∧ ((inWindow (serving (loadOf .queued))).wordMeta (bankWord 0 0)).full = false ∧ ((filled (inWindow (serving (loadOf .queued)))).wordMeta (bankWord 0 0)).full = true ∧
    nextServed (filled (inWindow (serving (loadOf .queued)))) 0 = some 7 ∧ nextServed (filled (inWindow (serving (storeOf 7)))) 0 = some 7 ∧
    windowOf ((inWindow (servingM (contribution 7))).elem 1).active 0 = some acWindow ∧ winMode acWindow = 1 ∧ winAcn acWindow = 2 ∧ nextServed (inWindow (servingM (contribution 7))) 6 = some 7 ∧
    nextServed (filled (inWindow (servingM (contribution 7)))) 6 = some 7 := by decide

/-- A port whose deferred list is full. -/
def deferredFull : State := { inWindow (serving (loadOf .queued)) with ports := [(0, { queue := [7], deferred := List.replicate 64 9 })] }

theorem witness_BankServing_deferred : nextServed deferredFull 0 = some 7 ∧ 64 ≤ (deferredFull.port 0).deferred.length := by decide

/-- A deferred load whose word has become full. -/
def waking : State := { filled (inWindow (asking (loadOf .deferred))) with ports := [(0, { deferred := [7] })] }

theorem witness_BankServing_wake : mfind waking.reqs 7 = some (loadOf .deferred) ∧ (waking.port (portOf (.bank 0 0))).deferred = [7] ∧ ownsBank waking (loadOf .deferred) 0 = true ∧ (waking.wordMeta (bankWord 0 0)).full = true ∧
    windowOf (waking.elem 0).active 0 = some saWindow := by decide

theorem test_windows : goes (exec (.requestServe 7 false) (inWindow (serving (loadOf .queued)))) (fun t => t.reqs.map (fun r => r.2.stage) == [Stage.deferred]) = true ∧
    goes (exec (.requestServe 7 false) (filled (inWindow (serving (storeOf 7))))) (fun t => t.reqs.map (fun r => r.2.stage) == [Stage.failed 0x083]) = true ∧
    goes (exec (.requestServe 7 false) (inWindow (servingM (contribution 7)))) (fun t => t.wordMeta (bankWord 1 0) == { full := false, spent := 1 } && wordAt t.mem (bankAddr 1 0) == 7) = true ∧
    goes (exec (.deferredReadWake 7) (holdingWord waking 5)) (fun t => t.reqs.map (fun r => r.2.stage) == [Stage.done 5 0]) = true := by decide

/-- Element 1 with one window over its first 64 bytes: an operand store of one buffer in modes 0 and 2, a FIFO, and a line buffer of four words a line. -/
def opWindow (mode : Nat) : Desc := ⟨BitVec.ofNat 32 (0x60100000 + mode * 0x800000), 0, 64, 0⟩
def fifoWindow : Desc := ⟨0x60200000, 0, 64, 0⟩
def lineWindow : Desc := ⟨0x60300000, 0, 64, 4⟩
def atWin (d : Desc) (w : WinState) (q : Req) : State :=
  { (servingM q).modElem 1 (fun x => { x with active := { x.active with present := true, node := [(0, d)] } }) with windows := [(winKey 1 d, w)] }

theorem witness_BankServing_organisations : (∀ d ∈ [(opWindow 0, 1), (opWindow 2, 1), (fifoWindow, 2), (lineWindow, 3)], ∀ q ∈ [loadOf .queued, storeOf 7, { storeOf 0 with kind := .tagFull }],
      nextServed (atWin d.1 {} q) (portOf (.bank 1 0)) = some 7 ∧ windowOf ((atWin d.1 {} q).elem 1).active 0 = some d.1 ∧ winOrg d.1 = d.2 ∧ intakeWindow ((atWin d.1 {} q).elem 1).active = none ∧
      ownsBank (atWin d.1 {} q) { q with target := .bank 1 0 } 6 = true ∧ portStopped (atWin d.1 {} q) { q with target := .bank 1 0 } = false ∧ ((atWin d.1 {} q).elem 1).gated = false) ∧
    winMode (opWindow 0) = 0 ∧ winMode (opWindow 2) = 2 ∧ (0 - winBase (opWindow 0)) / bufBytes (opWindow 0) = 0 ∧ ((atWin (opWindow 0) { tags := 1 } (storeOf 7)).window (winKey 1 (opWindow 0))).tags.getLsbD 0 = true ∧
    ((atWin (opWindow 0) {} (storeOf 7)).window (winKey 1 (opWindow 0))).tags.getLsbD 0 = false ∧ ((atWin (opWindow 0) {} (storeOf 7)).wordMeta (bankWord 1 0)).full = false ∧ Memory.wf (atWin (opWindow 0) {} (storeOf 7)).mem = true ∧
    winLen fifoWindow / 8 = 8 ∧ winBase fifoWindow = 0 ∧ winLine lineWindow = 4 ∧ winLen lineWindow / (8 * winLine lineWindow) = 2 ∧ windowOf ((atWin fifoWindow {} (storeOf 7)).elem 1).active 8 = some fifoWindow := by decide

/-- By hand: a store fills one word of eight, so the tag stays empty; the FIFO's third store lands in its third word; the newest complete line is line 0 (R80 to R82). -/
theorem test_organisations : goes (exec (.requestServe 7 false) (atWin (opWindow 0) {} (storeOf 7))) (fun t => wordAt t.mem (bankAddr 1 0) == 7 && (t.window (winKey 1 (opWindow 0))).tags == 0) = true ∧
    goes (exec (.requestServe 7 false) (atWin fifoWindow { head := 1, count := 1 } (storeOf 7))) (fun t => wordAt t.mem (bankAddr 1 16) == 7 && (t.window (winKey 1 fifoWindow)).count == 2) = true ∧
    goes (exec (.requestServe 7 false) (holdingWord (atWin lineWindow { appended := 4 } (loadOf .queued)) 9)) (fun t => t.reqs.map (fun r => r.2.stage) == [Stage.done 9 0]) = true := by decide

/-- A request at the port of HBM address 0x1000, its sector 64 in a state, its task 1 with producer 2. -/
def atHbm (m : SectorMeta) (q : Req) : State :=
  { task1 atSlot (fun x => { x with producers := [2] }) with reqs := [(7, { q with target := .hbm 0x1000 })], ports := [(portOf (.hbm 0x1000), { queue := [7] })], sectors := [(64, m)], tags := [(1, .live), (2, .live), (3, .live)] }

theorem witness_BankServing_sectors : (∀ q ∈ [loadOf .queued, storeOf 7], nextServed (atHbm {} q) (portOf (.hbm 0x1000)) = some 7 ∧ q.pl = false ∧ q.carry = false ∧ q.supervisor = false ∧ q.size = 8 ∧ macFails (atHbm {} q) 64 q.key = false) ∧
    sectorView (atHbm ⟨0, 0⟩ (loadOf .queued)) 64 = .empty ∧ sectorView (atHbm ⟨1, 0⟩ (loadOf .queued)) 64 = .full ∧ sectorView (atHbm ⟨2, 1⟩ (loadOf .queued)) 64 = .tentative 1 ∧ sectorView (atHbm ⟨2, 2⟩ (loadOf .queued)) 64 = .tentative 2 ∧
    sectorView (atHbm ⟨2, 3⟩ (loadOf .queued)) 64 = .tentative 3 ∧ 2 ∈ ((atHbm ⟨2, 2⟩ (loadOf .queued)).task 1).producers ∧ 3 ∉ ((atHbm ⟨2, 3⟩ (loadOf .queued)).task 1).producers ∧ Memory.wf (atHbm {} (storeOf 7)).mem = true := by decide

theorem test_sectors : goes (exec (.requestServe 7 false) (atHbm ⟨0, 0⟩ (storeOf 7))) (fun t => wordAt t.mem 0x1000 == 7 && t.sector 64 == ⟨2, 1⟩) = true ∧
    goes (exec (.requestServe 7 false) (atHbm ⟨2, 3⟩ (loadOf .queued))) (fun t => t.reqs.map (fun r => r.2.stage) == [Stage.deferred]) = true := by decide

/-- aaddf by hand: 1.5 + 2.0 in lane 0 and -1.0 + 1.0 in lane 1 (R42, R168). -/
theorem test_aaddf : goes (exec (.requestServe 7 false) (holdingWord (servingM (atomicOf .addf 0x3F80000040000000)) 0xBF8000003FC00000)) (fun t => wordAt t.mem (bankAddr 1 0) == 0x40600000) = true := by decide +kernel

theorem witness_ReplyMoves_reply : mfind (asking (loadOf (.done 9 0))).reqs 7 = some (loadOf (.done 9 0)) ∧ (loadOf (.done 9 0)).src = .elem 0 ∧ (loadOf (.done 9 0)).dest = .reg 3 ∧
    replyBlocked (asking { loadOf (.done 9 0) with dest := .chan 4 }) 7 { loadOf (.done 9 0) with dest := .chan 4 } = false ∧ mfind (asking (loadOf (.failed 0x083))).reqs 7 = some (loadOf (.failed 0x083)) ∧ 0x083 / 64 = 2 ∧
    ((asking (loadOf (.failed 0x083))).grove (groveOf 0)).traps.length < 16 ∧ ((asking (loadOf (.failed 0x083))).grove (groveOf 0)).waitingTraps = [] := by decide

theorem test_replies : goes (exec (.requestReply 7) (asking (loadOf (.done 9 0)))) (fun t => regVal t 3 == 9 && t.reqs.isEmpty) = true ∧
    goes (exec (.requestReply 7) (asking { loadOf (.done 9 0) with dest := .chan 4 })) (fun t => (t.tokens (queueKey 0 (.out 4))).map (·.payload) == [9]) = true ∧
    goes (exec (.requestReply 7) (asking (loadOf (.failed 0x083)))) (fun t => (t.elem 0).stopped && (t.grove 0).traps.map (fun r => (r.cause, r.addr)) == [(0x083, 0xFF00000000000000)]) = true := by decide

/-- Element 0 and grove 0 with a fence over request 7. -/
def fenced (q : Req) : State := grove0 (elem0 (asking q) (fun x => { x with fences := [{ strand := 0, scope := 0, waits := [7] }] })) (fun x => { x with fences := [{ strand := 0, scope := 0, waits := [] }] })

theorem witness_ReplyMoves_fences : ((fenced (loadOf .sent)).elem 0).fences[0]? = some { strand := 0, scope := 0, waits := [7] } ∧ ((fenced (loadOf .sent)).elem 0).withdrawn = [] ∧ ((fenced (loadOf .sent)).grove 0).fences[0]? = some { strand := 0, scope := 0, waits := [] } ∧
    ((fenced (loadOf .sent)).grove 0).withdrawn = [] ∧ performed (fenced (loadOf (.done 0 0))) 7 = true ∧ fenceDone (fenced (loadOf .sent)) { strand := 0, scope := 0, waits := [7] } = false := by decide

theorem witness_ReplyMoves_remote : awaited (asking { remoteReq with kind := .store, dest := .none }) 0 9 = some (7, { remoteReq with kind := .store, dest := .none }) ∧ remoteReq.left = none ∧ awaited (asking remoteReq) 0 9 = some (7, remoteReq) ∧ awaited (asking remoteReq) 0 0 = none ∧ awaited (asking remoteReq) 0 8 = none ∧ remoteReq.kind = .load false ∧ remoteReq.size = 8 ∧ remoteReq.addr % 8 = 0 := by decide

/-- A wait of element 0 at a barrier word, deferred. -/
def waitReq : Req := { loadOf .deferred with kind := .wait 1, dest := .none }

theorem witness_ReplyMoves_barrier : mfind (asking waitReq).reqs 7 = some waitReq ∧ ((asking waitReq).task 1).dry = none ∧ waitReq.since + watchdog ((asking waitReq).task 1) ≤ (asking waitReq).tb.toNat ∧
    (task1 (asking waitReq) (fun x => { x with entry := ⟨#v[0x10000, 0, 0, 0, 0, 0, 0, 0]⟩ })).tb.toNat < waitReq.since + watchdog ((task1 (asking waitReq) (fun x => { x with entry := ⟨#v[0x10000, 0, 0, 0, 0, 0, 0, 0]⟩ })).task 1) := by decide

theorem test_barrier_short : goes (exec (.barrierShort 7) (asking waitReq)) (fun t => (t.grove 0).traps.map (·.cause) == [0x145] && (t.elem 0).stopped) = true := by decide

theorem witness_MeterMoves_recall : atSlot.taskOfGrove 0 = some 1 ∧ isLive atSlot 1 = true ∧ mfind atSlot.tasks 1 ≠ none ∧ 0 ∈ (atSlot.task 1).groves ∧ (atSlot.task 1).groves.Nodup := by decide

/-- Task 1 with a refused issue of cost 20, c drops and a top-up of one packet a grove allows, and r packets in reserve. -/
def refusedAt (c r : Nat) : State := { task1 atSlot (fun x => { x with central := c, refusals := [⟨0, 20⟩], entry := ⟨#v[5, 0, 0, 0, 0, 0, 0x1000000000000, 0]⟩ }) with ctxs := [(0, { reserve := r })] }

theorem witness_MeterMoves_dry : ((refusedAt 20 0).task 1).refusals = [⟨0, 20⟩] ∧ ((refusedAt 20 0).task 1).dry = none ∧ isLive (refusedAt 20 0) 1 = true ∧ blockedCost ((refusedAt 20 0).task 1) = 20 ∧ topupLeft ((refusedAt 20 0).task 1) = 1 ∧
    20 ≤ balance (refusedAt 20 0) 1 ∧ balance (refusedAt 19 1) 1 < 20 ∧ 20 ≤ balance (refusedAt 4 1) 1 + 16 * 1 ∧ 1 ≤ ((refusedAt 4 1).ctx 0).reserve ∧ balance (refusedAt 3 1) 1 + 16 * 1 < 20 ∧ ((refusedAt 19 0).ctx 0).reserve < 1 ∧
    ((refusedAt 3 1).grove 0).traps.length < 16 := by decide

theorem test_dry : goes (exec (.dry 1) (refusedAt 4 1)) (fun t => balance t 1 == 20 && (t.ctx 0).reserve == 0 && (t.task 1).refusals.isEmpty) = true ∧
    goes (exec (.dry 1) (refusedAt 3 1)) (fun t => (t.task 1).dry == some ⟨20, 5000⟩ && balance t 1 == 3 && (t.grove 0).traps.map (·.cause) == [0x100]) = true := by decide

/-- A dry task whose grace window ends at a time. -/
def dryUntil (n : Nat) : State := task1 atSlot (fun x => { x with dry := some ⟨20, n⟩ })
/-- A boosting task in a context with an allowance. -/
def boosting (n : Nat) : State := { task1 atSlot (fun x => { x with boosting := true, boostDrops := 4 }) with ctxs := [(0, { boost := n })] }
/-- A grove whose cask stands below its target. -/
def pouring : State := grove0 (task1 atSlot (fun x => { x with packets := 4 })) (fun x => { x with isolated := false, segments := 2 })

theorem witness_MeterMoves_rest : ((dryUntil 0).task 1).dry = some ⟨20, 0⟩ ∧ isLive (dryUntil 0) 1 = true ∧ (0 : Nat) ≤ (dryUntil 0).tb.toNat ∧ (dryUntil 1).tb.toNat < 1 ∧ ((boosting 1).task 1).boosting = true ∧
    ((boosting 1).ctx 0).boost ≤ (((boosting 1).task 1).boostDrops + 3) / 4 ∧ (((boosting 2).task 1).boostDrops + 3) / 4 < ((boosting 2).ctx 0).boost ∧ wantsPour pouring 0 = true ∧ 0 ∉ pouring.pours ∧
    wantsPour { pouring with pours := [0] } 0 = true ∧ pouring.taskOfGrove 0 = some 1 := by decide

theorem test_meter : goes (exec (.graceExpired 1) (dryUntil 0)) (fun t => mget TagState.free t.tags 1 == .vanished && (t.grove 0).task == none) = true ∧
    goes (exec (.boostFallback 1) (boosting 1)) (fun t => !(t.task 1).boosting && (t.task 1).fellBack) = true ∧ goes (exec (.pourGrant true) { pouring with pours := [0] }) (fun t => (t.grove 0).held == 16 && t.pours.isEmpty) = true := by decide

/-- A task that has ended: its sequencer halted, nothing on its way. -/
def ended : State := (placedTask .reset).modGrove 0 (fun x => { x with task := some 1 })

set_option maxRecDepth 8000 in
theorem witness_TaskEndMoves_commit : taskEnded ended 1 = true ∧ producersDone ended 1 = true ∧ mfind ended.tasks 1 ≠ none ∧ successorKey (ended.task 1) = none ∧ mget [] ended.voids 1 = [] ∧ taskEnded atSlot 1 = false ∧
    producersDone (task1 ended (fun x => { x with producers := [2] })) 1 = false := by decide

set_option maxRecDepth 8000 in
theorem test_commit : goes (exec (.commitTask 1) (task1 ended (fun x => { x with central := 33 }))) (fun t => mget TagState.free t.tags 1 == .committed && (t.ctx 0).reserve == 2 && (t.grove 0).task == none) = true := by decide

/-- Task 1 with a vanished producer. -/
def orphan : State := { task1 atSlot (fun x => { x with producers := [2] }) with tags := [(1, .live), (2, .vanished)] }

theorem witness_TaskEndMoves_vanish : isLive orphan 1 = true ∧ 2 ∈ (orphan.task 1).producers ∧ mget TagState.free orphan.tags 2 = .vanished ∧ (orphan.task 1).rows * (orphan.task 1).cols < 2 ^ 12 ∧ (1 : Nat) < 2 ^ 14 := by decide

/-- Task 1 holding bank 0 of element 0 under HAND 2, its mark enqueued, and a launched successor, task 2. -/
def handing : State :=
  { task1 (withNode atSlot ⟨0x60000800, 0, 64, 0⟩) (fun x => { x with successor := some 2, entry := ⟨#v[0, 0, 0, 0, 0, 0, 0, 5]⟩ }) with
    banks := [(0, { owner := .held 1, marked := true })] }.setTask 2 { groves := [1] }
def handing2 : State := { handing with tags := [(1, .live), (2, .live)] }

theorem witness_TaskEndMoves_handover : handing2.taskOfElem 0 = some 1 ∧ handoverReady handing2 0 0 1 = true ∧ isLive handing2 1 = true ∧ nextOwner handing2 (handing2.task 1) = some (.held 2) ∧ mfind handing2.tasks 2 ≠ none ∧
    ((handing2.task 2).producers.filter (isLive handing2)).length < 8 := by decide

/-- A branch buffer of element 0 that has been full since 0, with a watchdog interval of no time and of 1 microsecond. -/
def stuck (n : Nat) : State :=
  { task1 (routed bothRoute {}) (fun x => { x with entry := ⟨#v[BitVec.ofNat 64 (n * 65536), 0, 0, 0, 0, 0, 0, 0]⟩ }) with branchSince := [(queueKey 0 (.branch 0 (some .east)), 0)] }.setTokens (queueKey 0 (.branch 0 (some .east))) (List.replicate 16 {})

theorem witness_TaskEndMoves_stalls : (stuck 0).taskOfElem 0 = some 1 ∧ ((stuck 0).task 1).dry = none ∧ stalledBranches (stuck 0) 0 0 (watchdog ((stuck 0).task 1)) ≠ [] ∧ ((stuck 0).elem 0).forkStops.contains 0 = false ∧ stalledBranches (stuck 1) 0 0 (watchdog ((stuck 1).task 1)) = [] ∧
    (atSlot.task 1).groves = [0] ∧ (atSlot.task 1).stalled = false ∧ (atSlot.task 1).starting = false ∧ (atSlot.task 1).progress + watchdog (atSlot.task 1) ≤ atSlot.tb.toNat ∧
    (stuck 1).tb.toNat < ((stuck 1).task 1).progress + watchdog ((stuck 1).task 1) := by decide

theorem test_task_ends : goes (exec (.vanish 1) orphan) (fun t => mget TagState.free t.tags 1 == .vanished) = true ∧ goes (exec (.bankHandover 0 0) handing2) (fun t => (t.bank 0).owner == .held 2 && (t.task 2).producers == [1]) = true ∧
    goes (exec (.forkStall 0 0) (stuck 0)) (fun t => (t.grove 0).traps.map (·.cause) == [0x143]) = true ∧ goes (exec (.progressStall 1) atSlot) (fun t => (t.grove 0).traps.map (·.cause) == [0x144]) = true := by decide

/-- Matrix node of class INT8 with an intake from channel 3, windows 0, 1 and 2 of one buffer of 256 bytes. -/
def mxNode : Desc := ⟨0x15322000, 0x050C0000, 0, 0⟩
/-- The same that writes its tiles to channel 0. -/
def mxOut : Desc := ⟨0x15321000, 0x050C0000, 1, 0⟩
def window3 (n : Nat) : Desc := ⟨BitVec.ofNat 32 (0x60100000 + n * 0x2000000), BitVec.ofNat 32 (n * 0x10000), 256, 0⟩
/-- Element 0 with a matrix node in descriptor slot 0 in a state, and a token of frame 2 in channel 3. -/
def atMatrix (d : Desc) (m : MatrixState) : State :=
  { elem0 atSlot (fun x => { x with
      matrix := m
      active := { x.active with node := [(0, d), (1, window3 0), (2, window3 1), (3, window3 2)], queue := [(3, [{ payload := 9, frame := 2 }])] } }) with
    banks := [(0, { owner := .held 1 }), (1, { owner := .held 1 }), (2, { owner := .held 1 })] }
/-- The same with every bank free. -/
def atMatrixFree (d : Desc) (m : MatrixState) : State := { atMatrix d m with banks := [] }

theorem witness_EngineMoves_intake : nodeOf (atMatrix mxNode { runOpen := true }) 0 1 = some (0, mxNode) ∧ ownsWindow (atMatrix mxNode { runOpen := true }) 0 (mxAwin ((atMatrix mxNode {}).elem 0).active mxNode) = true ∧ nodeTakes (atMatrix mxNode { runOpen := true }) 0 0 = true ∧ mxIntake mxNode = true ∧ mxAch mxNode = 3 ∧
    (0 : Nat) < bufBytes (mxAwin ((atMatrix mxNode {}).elem 0).active mxNode) / 8 ∧ Memory.wf (atMatrix mxNode {}).mem = true ∧ bufBytes (window3 0) = 256 := by decide

/-- atMatrix with the tags of both operand buffers full. -/
def stepping : State := { atMatrix mxOut {} with windows := [(winKey 0 (window3 0), { tags := 1 }), (winKey 0 (window3 1), { tags := 1 })] }

theorem witness_EngineMoves_step : nodeOf stepping 0 1 = some (0, mxOut) ∧ ownsWindow stepping 0 (mxAwin (stepping.elem 0).active mxOut) = true ∧ ownsWindow stepping 0 (mxBwin (stepping.elem 0).active mxOut) = true ∧
    stepReady { stepping with banks := [] } 0 mxOut = true ∧ ownsWindow { stepping with banks := [] } 0 (mxAwin (stepping.elem 0).active mxOut) = false ∧ nodeTakes stepping 0 0 = true ∧ stepReady stepping 0 mxOut = true ∧ canPay stepping (groveOf 0) (mxCost (mxClass mxOut)) = true ∧
    canPay (task1 stepping (fun x => { x with central := 511 })) (groveOf 0) (mxCost (mxClass mxOut)) = false ∧ mxClass mxOut = 2 ∧ mxAfmt mxOut = 9 ∧ mxBfmt mxOut = 9 ∧ 256 ≤ bufBytes (mxAwin (stepping.elem 0).active mxOut) ∧
    256 ≤ bufBytes (mxBwin (stepping.elem 0).active mxOut) ∧ mxLastStep mxOut = 0 := by decide

theorem witness_EngineMoves_write : ownsWindow (atMatrix mxNode { writing := true, output := [1, 2] }) 0 (window3 2) = true ∧ nodeRuns (atMatrix mxNode { writing := true, output := [1, 2] }) 0 0 = true ∧ mxOutChan mxNode = false ∧ mxOutChan mxOut = true ∧ hasRoom (atMatrix mxOut { writing := true, output := [1] }) 0 (mxOch mxOut) [] = true := by decide

theorem test_matrix_write : goes (exec (.matrixTileWrite 0) (atMatrix mxNode { writing := true, output := [1, 2] })) (fun t => wordAt t.mem (bankAddr 0 0x20008) == 2 && (t.elem 0).matrix.tile == 1) = true ∧
    goes (exec (.matrixTileWrite 0) (atMatrix mxOut { writing := true, output := [5], outFirst := false })) (fun t => (t.tokens (queueKey 0 (.out 0))).map (fun x => (x.payload, x.frame)) == [(5, 3)]) = true ∧
    goes (exec (.matrixIntake 0) (atMatrix mxNode { runOpen := true })) (fun t => wordAt t.mem (bankAddr 0 0) == 9 && (t.elem 0).matrix.fill == 1) = true ∧
    goes (exec (.matrixIntake 0) (atMatrixFree mxNode { runOpen := true })) (fun t => (t.grove 0).traps.map (·.cause) == [0x088]) = true := by decide

/-- The first element of grove 0 that carries a converter (R21), and the first M element of it. -/
def cvE : Nat := elemAt 0 20
def ctE : Nat := mElem 0 0
/-- Element cvE with a converter from channel 0 to channel 1 in a state. -/
def atConv (c : ConvState) : State :=
  atSlot.modElem cvE (fun x => { x with conv := c, active := { x.active with present := true, node := [(0, ⟨0x20000008, 0, 0, 0⟩)], queue := [(0, [{ mark := 3 }])] } })
/-- Element ctE with a corner-turn node from channel 0 to channel 1 in a state. -/
def atTurn (x : TurnState) : State :=
  atSlot.modElem ctE (fun y => { y with turn := x, active := { y.active with present := true, node := [(0, ⟨0x38020000, 0, 0, 0⟩)], queue := [(0, [placedToken])] } })

theorem witness_EngineMoves_converter : nodeOf (atConv {}) cvE 2 = some (0, ⟨0x20000008, 0, 0, 0⟩) ∧ nodeRuns (atConv { output := [{ payload := 5 }] }) cvE 0 = true ∧ cvIch ⟨0x20000008, 0, 0, 0⟩ = 0 ∧ cvOch ⟨0x20000008, 0, 0, 0⟩ = 1 ∧
    hasRoom (atConv { output := [{ payload := 5 }] }) cvE 1 [] = true ∧ groveOf cvE = 0 ∧ canPay (atConv {}) 0 2 = true ∧ canPay (task1 (atConv {}) (fun x => { x with central := 1 })) 0 2 = false ∧ nodeTakes (atConv {}) cvE 0 = true ∧ headOf (atConv {}) cvE 0 = some { mark := 3 } := by decide

theorem witness_EngineMoves_turn : nodeOf (atTurn {}) ctE 3 = some (0, ⟨0x38020000, 0, 0, 0⟩) ∧ nodeTakes (atTurn {}) ctE 0 = true ∧ ctIch ⟨0x38020000, 0, 0, 0⟩ = 0 ∧ ctOch ⟨0x38020000, 0, 0, 0⟩ = 1 ∧ ((atTurn {}).elem ctE).active.fifo 0 = [placedToken] ∧
    (List.replicate 64 placedToken).length = 64 ∧ nodeRuns (atTurn { block := List.replicate 64 placedToken }) ctE 0 = true ∧ groveOf ctE = 0 ∧ canPay (atTurn {}) 0 8 = true ∧ canPay (task1 (atTurn {}) (fun x => { x with central := 7 })) 0 8 = false ∧
    hasRoom (atTurn { emitting := true, output := [placedToken] }) ctE 1 [] = true := by decide

theorem test_converter : goes (exec (.converterToken cvE) (atConv { output := [{ payload := 5 }] })) (fun t => (t.tokens (queueKey cvE (.out 1))).map (·.payload) == [5] && (t.elem cvE).conv.output.isEmpty) = true ∧
    goes (exec (.cornerTurnCollect ctE) (atTurn {})) (fun t => (t.elem ctE).turn.block.length == 1) = true ∧
    goes (exec (.cornerTurnEmit ctE) (atTurn { emitting := true, output := [placedToken] })) (fun t => (t.tokens (queueKey ctE (.out 1))).map (·.payload) == [8]) = true := by decide

/-- Element 0 with a lookup-cell array whose intake A takes channel 2 into slices from 0, and operations in its queue. -/
def lcNode : Desc := ⟨0x48800000, 0, 0, 0⟩
def atArray (q : List (LcOp × BitVec 2 × Nat)) : State := elem0 (withNode atSlot lcNode) (fun x => { x with lc := { x.lc with queue := q } })
/-- The same with its batch complete. -/
def batched (q : List (LcOp × BitVec 2 × Nat)) : State := elem0 (atArray q) (fun x => { x with lc := { x.lc with countA := 64 } })

theorem witness_ArrayMoves_intake : nodeOf (atArray []) 0 4 = some (0, lcNode) ∧ intakeOf ((atArray []).elem 0).active false = some (2, 0) ∧ nodeRuns (atArray []) 0 0 = true ∧ nodeRuns (elem0 (atArray []) (fun x => { x with passed := true })) 0 0 = true ∧ ((atArray []).elem 0).active.fifo 2 = [placedToken] ∧
    batchComplete ((atArray []).elem 0) = false := by decide

/-- A wiring word with a reserved selector at the head of channel 4. -/
def badWord (q : List (LcOp × BitVec 2 × Nat)) : State := elem0 (atArray q) (fun x => { x with active := x.active.setFifo 4 [{ payload := 0x3FF }] })

theorem witness_ArrayMoves_load : arrayRuns (atArray [(.load 0 4 0 false, 0, 3)]) 0 = true ∧ ((atArray [(.load 0 4 126 false, 0, 3)]).elem 0).active.fifo 4 = [placedToken] ∧ badWiring 8 = false ∧ badWiring 0x3FF = true ∧
    ((badWord [(.load 63 4 127 false, 0, 3)]).elem 0).active.fifo 4 = [{ payload := 0x3FF }] ∧ arrayRuns (badWord [(.load 63 4 127 false, 0, 3)]) 0 = true := by decide

theorem witness_ArrayMoves_sweep : arrayRuns (batched [(.sweep 8 true, 0, 1)]) 0 = true ∧ batchComplete ((batched [(.sweep 8 true, 0, 1)]).elem 0) = true ∧ canPay (batched [(.sweep 8 true, 0, 1)]) (groveOf 0) (8 * 8) = true ∧
    canPay (task1 (batched [(.sweep 1 false, 0, 1)]) (fun x => { x with central := 7 })) (groveOf 0) (8 * 1) = false := by decide

theorem witness_ArrayMoves_queue : arrayRuns (atArray [(.ctx 7, 0, 1)]) 0 = true ∧ intakeSlice ((atArray []).elem 0).active 64 = false ∧ intakeSlice ((atArray []).elem 0).active 63 = true ∧ (0x301 : BitVec 10).toNat < 0x302 ∧
    0x302 ≤ (0x302 : BitVec 10).toNat := by decide

theorem test_array : goes (exec (.lcIntake 0 false) (atArray [])) (fun t => mget 0 (t.elem 0).lc.slices 0 == 8 && (t.elem 0).lc.countA == 1) = true ∧
    goes (exec (.lcQueueOp 0) (atArray [(.put 5 64, 0, 1)])) (fun t => mget 0 (t.elem 0).lc.slices 64 == 5) = true ∧ goes (exec (.lcQueueOp 0) (atArray [(.put 5 63, 0, 1)])) (fun t => (t.grove 0).traps.map (·.cause) == [0x151]) = true ∧
    goes (exec (.lcQueueOp 0) (atArray [(.out (.reg 3) 0x301 0 0, 0, 1)])) (fun t => regVal t 3 == 0xFFFFFFFFFFFFFFFF) = true := by decide

/-- Element 0 with a race unit whose intake A takes channel 2, in a state. -/
def rcNode : Desc := ⟨0x50800000, 0, 0, 0⟩
def atRace (r : RaceState) : State := elem0 (withNode atSlot rcNode) (fun x => { x with race := r })
def raceEnds (r : RaceState) : State := elem0 (atRace r) (fun x => { x with active := x.active.setFifo 2 [{ mark := 3 }] })
def armedRace (k : Nat) (d : Dest) (cs : List (Nat × Nat)) : RaceState := { armed := some (k, d, 0, 0, 0), cands := cs }

theorem witness_RaceAndPlacerMoves_race : nodeOf (atRace (armedRace 2 (.reg 3) [])) 0 5 = some (0, rcNode) ∧ rcChan rcNode false = 2 ∧ ((atRace (armedRace 2 (.reg 3) [])).elem 0).active.fifo 2 = [placedToken] ∧
    nodeRuns (atRace (armedRace 2 (.reg 3) [])) 0 0 = true ∧ rcIntakeB rcNode = false ∧ rcPair rcNode = false ∧ canPay (atRace (armedRace 2 (.reg 3) [])) (groveOf 0) 2 = true ∧ canPay (task1 (atRace (armedRace 2 (.reg 3) [])) (fun x => { x with central := 1 })) 0 2 = false ∧
    roundMarks (raceEnds (armedRace 2 (.reg 3) [(7, 5), (1, 9)])) 0 rcNode = some [{ mark := 3 }] ∧ raceResult (winners 2 [(7, 5), (1, 9)]) = some 0x0707070707070701 ∧
    hasRoom (atRace { eos := some (4, 0, 0) }) 0 4 [] = true ∧ nodeRuns (atRace { eos := some (4, 0, 0) }) 0 0 = true := by decide

theorem test_race : goes (exec (.raceRelease 0) (raceEnds (armedRace 2 (.reg 3) [(7, 5), (1, 9)]))) (fun t => regVal t 3 == 0x0707070707070701 && (t.elem 0).race.finished) = true ∧
    goes (exec (.raceIntake 0 false) (atRace (armedRace 2 (.reg 3) []))) (fun t => (t.elem 0).race.cands == [(0, 8)]) = true := by decide

/-- A place of one expert with no image, at the placer. -/
def aPlace : Place := { header := 0x4100000000, hist := 0xFF10000000000000, d := 5, supervisor := false, order := 1 }
def atPlacer (p : Place) : State := grove0 placing (fun x => { x with place := some p })
/-- The same once its word has been read, once its strips are sized, and once the word is written. -/
def readPlace : Place := { aPlace with reads := [3] }
def sizedPlace1 : Place := { readPlace with writes := [sizedWord 3 [0]], sized := some (placeStatus 1 1, []) }

theorem witness_RaceAndPlacerMoves_sizing : ((atPlacer aPlace).grove 0).place = some aPlace ∧ placeFirst (atPlacer aPlace) 0 aPlace = true ∧ placeFenced (atPlacer aPlace) aPlace = true ∧ histIdle (atPlacer aPlace) aPlace = true ∧ aPlace.reads.length < plExperts aPlace.header ∧
    resolveAddr (atPlacer aPlace) (.seq 0) (aPlace.hist + BitVec.ofNat 64 (8 * aPlace.reads.length)).toNat = some (.bank (mElem 0 0) 0) ∧ plExperts readPlace.header ≤ readPlace.reads.length ∧ plImage readPlace.header = 0 ∧
    placeFirst (atPlacer readPlace) 0 readPlace = true ∧ resolveAddr (atPlacer sizedPlace1) (.seq 0) (sizedPlace1.hist + BitVec.ofNat 64 (8 * (plExperts sizedPlace1.header - sizedPlace1.writes.length))).toNat = some (.bank (mElem 0 0) 0) ∧
    histIdle { atPlacer aPlace with reqs := [(7, loadOf .sent)] } { aPlace with req := some 7 } = false ∧ placeFenced { atPlacer aPlace with reqs := [(7, loadOf .sent)] } { aPlace with waits := [7] } = false := by decide

/-- A place that has been sized, with elements to preload. -/
def sizedPlace (l : List (Nat × Nat)) : State := atPlacer { aPlace with header := 0x4140000000, sized := some (0, l) }

theorem witness_RaceAndPlacerMoves_preload : ((sizedPlace [(0, 7), (2, 7)]).grove 0).place.isSome = true ∧ holdsFrame ((sizedPlace [(0, 7), (2, 7)]).elem 0) 1 = false ∧ canPay (sizedPlace [(0, 7)]) (groveOf 0) 24 = true ∧
    canPay (task1 (sizedPlace [(0, 7)]) (fun x => { x with central := 23 })) (groveOf 0) 24 = false := by decide

/-- One expert that 3 tokens count, in a one-grove area: its word 3 keeps the count, and has strip 0 as its first of one (R294, R295). -/
theorem test_placer : goes (exec (.placerSizing 0) (atPlacer aPlace)) (fun t => t.reqs.map (fun r => (r.2.kind, r.2.target, r.2.dest)) == [(.load false, .bank (mElem 0 0) 0, .hist)]) = true ∧
    goes (exec (.placerSizing 0) (atPlacer readPlace)) (fun t => (t.grove 0).place.map (fun p => p.writes) == some [0x100000003]) = true ∧
    goes (exec (.placerSizing 0) (atPlacer sizedPlace1)) (fun t => t.reqs.map (fun r => (r.2.kind, r.2.data)) == [(.store, sizedWord 3 [0])]) = true ∧
    goes (exec (.placerSizing 0) (atPlacer { sizedPlace1 with writes := [] })) (fun t => (t.grove 0).place == none) = true ∧
    goes (exec (.placePreload 0) (sizedPlace [(0, 7)])) (fun t => (t.grove 0).place == none && (match underAt (t.elem 0) 1 with | .plane p => reg p.sreg 7 == 7 | _ => false)) = true := by decide

/-- AG 0 of grove 0 with a command at the head of its queue; stBank is a pattern of one word at the start of its own bank. -/
def atAg (c : AgCmd) : State := grove0 atWord (fun x => { x with ags := [(0, { queue := [c] })] })
def agCmd (k : AgKind) : AgCmd := { kind := k, stage := stBank, started := true, charged := 1 }
def agIn (k : AgKind) : AgCmd := { agCmd k with stage := { stBank with inbound := true } }
def agHead (s : State) (t : Token) : State := s.modElem (agElem 0 0) (fun x => { x with active := { x.active with present := true, queue := [(1, [t])] } })

theorem witness_StreamMoves_read : ((atAg (agCmd (.affine 0))).elem (agElem 0 0)).frozen = false ∧ portFree (atAg (agCmd (.affine 0))) 0 0 (agCmd (.affine 0)) (patternAddr stBank 0) = true ∧ ((((atAg (agCmd (.affine 0))).grove 0).ag 0).queue == [agCmd (.affine 0)]) = true ∧ (((atAg (agCmd (.affine 0))).grove 0).ag 0).stopped = false ∧ bySector stBank = false ∧
    nextToken (agCmd (.affine 0)) = none ∧ (agCmd (.affine 0)).next < patternWords stBank ∧ (patternAddr stBank 0).toNat % 8 = 0 ∧
    resolveAddr (atAg (agCmd (.affine 0))) (.ag 0 0) (patternAddr stBank 0).toNat = some (.bank (agElem 0 0) 0) := by decide

/-- A command whose burst is not paid for yet, and too little to pay for it. -/
def poorAg : State := task1 (atAg { agCmd (.affine 0) with charged := 0 }) (fun x => { x with central := 0 })

theorem witness_StreamMoves_refused : ((poorAg.grove 0).ag 0).paused = false ∧ portFree poorAg 0 0 { agCmd (.affine 0) with charged := 0 } (patternAddr stBank 0) = true ∧ (poorAg.elem (agElem 0 0)).frozen = false ∧ (poorAg.grove 0).atPoint = false ∧ canPay poorAg 0 (burstCost poorAg 0 0 { agCmd (.affine 0) with charged := 0 } 0) = false := by decide

theorem witness_StreamMoves_write : portFree (agHead (atAg (agIn (.affine 0))) placedToken) 0 0 (agIn (.affine 0)) (patternAddr stBank 0) = true ∧ ((agHead (atAg (agIn (.affine 0))) placedToken).elem (agElem 0 0)).active.fifo 1 = [placedToken] ∧ (burstWrites (agIn (.affine 0))).filter isGlobal = [] ∧ ((agHead (atAg (agIn (.affine 0))) placedToken).elem (agElem 0 0)).frozen = false ∧ placedToken.mark = 0 ∧ placedToken.pres = true ∧
    resolveAddr (agHead (atAg (agIn (.affine 0))) placedToken) (.ag 0 0) (patternAddr stBank 0).toNat = some (.bank (agElem 0 0) 0) ∧
    ((agHead (atAg (agIn (.affine 0))) { mark := 3 }).elem (agElem 0 0)).active.fifo 1 = [{ mark := 3 }] := by decide

theorem witness_StreamMoves_gather : portFree (agHead (atAg (agCmd (.gather 1 false))) placedToken) 0 0 (agCmd (.gather 1 false)) (stBank.base + 8 * placedToken.payload) = true ∧ nextToken (agCmd (.gather 1 false)) = none ∧ (stBank.base + 8 * placedToken.payload).toNat % 8 = 0 ∧
    resolveAddr (agHead (atAg (agCmd (.gather 1 false))) placedToken) (.ag 0 0) (stBank.base + 8 * placedToken.payload).toNat = some (.bank (agElem 0 0) 64) := by decide

/-- A command whose one access is answered. -/
def answered (k : BitVec 2) : AgCmd := { agCmd (.affine k) with next := 1, replies := [(0, some 5)] }

theorem witness_StreamMoves_word : (nextToken (answered 0)).isSome = true ∧ ((nextToken (answered 1)).map (fun x => x.1.mark)) = some 0 ∧ hasRoom (atAg (answered 0)) (agElem 0 0) 1 [] = true ∧ (answered 1).sent + 1 = patternWords stBank := by decide

/-- A command that is done, with a push, and a FIFO at a count. -/
def doneAg (n : Nat) : State := grove0 (atAg { answered 0 with replies := [], sent := 1, push := some 3 }) (fun x => { x with fifos := [(3, n)] })

theorem witness_StreamMoves_retire : cmdDone (doneAg 14) 0 0 { answered 0 with replies := [], sent := 1, push := some 3 } = true ∧ mget 0 ((doneAg 14).grove 0).fifos 3 < 15 ∧ 15 ≤ mget 0 ((doneAg 15).grove 0).fifos 3 := by decide

/-- AGs 0 and 1 with the two sides of an intersection. -/
def setOp (a b : AgCmd) : State := grove0 stagedSet (fun x => { x with ags := [(0, { queue := [a] }), (1, { queue := [b] })] })
def side (first : Bool) (k : Option Word) : AgCmd := { agCmd (.set false first 3) with key := k }

theorem witness_StreamMoves_set : pairDesc (setOp (side true (some 5)) (side false (some 5))) 0 0 = some ⟨0x70000000, 0, 0, 0⟩ ∧ ((setOp (side true none) (side false none)).elem (agElem 0 0)).frozen = false ∧
    hasRoom (setOp (side true (some 5)) (side false (some 5))) (agElem 0 0) (wbits 0x70000000 22 5) [] = true ∧
    canPay (setOp (side true (some 5)) (side false (some 5))) 0 (1 + pathCost (setOp (side true (some 5)) (side false (some 5))) (agElem 0 0) (wbits 0x70000000 22 5)) = true ∧ (5 : Word).toNat < (6 : Word).toNat ∧
    hasRoom (setOp { side true none with phase := 2 } (side false none)) (agElem 0 0) (wbits 0x70000000 22 5) [] = true := by decide

theorem test_stream_moves : goes (exec (.agAccess 0 0) (atAg (agCmd (.affine 0)))) (fun t => t.reqs.map (fun r => (r.2.kind, r.2.target)) == [(.load false, .bank (agElem 0 0) 0)]) = true ∧
    goes (exec (.agAccess 0 0) (atAg (answered 0))) (fun t => (t.tokens (queueKey (agElem 0 0) (.out 1))).map (·.payload) == [5]) = true ∧
    goes (exec (.streamCommandRetire 0 0) (doneAg 14)) (fun t => ((t.grove 0).ag 0).queue == [] && mget 0 (t.grove 0).fifos 3 == 15) = true ∧
    goes (exec (.sparseSetStep 0 0) (setOp (side true (some 5)) (side false (some 6)))) (fun t => (((t.grove 0).ag 0).queue.map (·.key) == [none]) && (((t.grove 0).ag 1).queue.map (·.key) == [some 6])) = true := by decide +kernel

/-- Element 0 with an active plane of nothing, in a task whose load has a plane 1 for it. -/
def bare : State := elem0 (task1 atSlot (fun x => { x with image := { x.image with planes := [(0, { present := true }), (1, { present := true, arb := 2 })] } })) (fun x => { x with active := { present := true } })
def preloading (started : Bool) : State := elem0 bare (fun x => { x with preloads := [{ pos := 1, image := planeOne, started := started }, { pos := 3, image := planeOne }] })

theorem witness_PlaneMoves_preload : cacheImage planeOne = some 1 ∧ (loadPlane (preloading true) 0 1).present = true ∧ ((preloading true).elem 0).stopped = false ∧ nodeRuns (preloading false) 0 32 = true ∧
    ((preloading false).elem 0).preloads.head? = some { pos := 1, image := planeOne } ∧ canPay (preloading false) (groveOf 0) 24 = true ∧ canPay (task1 (preloading false) (fun x => { x with central := 23 })) (groveOf 0) 24 = false := by decide

/-- Element 0 with an armed swap whose marks have passed. -/
def swapping : State := elem0 (withPlane bare) (fun x => { x with passed := true, active := { x.active with armk := 1 } })

theorem witness_PlaneMoves_swap : swapReady swapping 0 = true ∧ nodeRuns swapping 0 32 = true ∧ underAt (swapping.elem 0) 1 = .plane { present := true } ∧ canPay swapping (groveOf 0) 16 = true ∧
    canPay (task1 swapping (fun x => { x with central := 15 })) (groveOf 0) 16 = false := by decide

/-- Element 0 under a freeze wave of an exchange call, at its entry point or with no channel bound. -/
def freezing (called : Bool) : State := elem0 (task1 (withPlane bare) (fun x => { x with wave := some (.freeze true 1) })) (fun x => { x with called := called })

theorem witness_PlaneMoves_freeze : (freezing true).taskOfElem 0 = some 1 ∧ ((freezing true).task 1).dry = none ∧ recordQueued ((freezing true).grove 0) 1 false = false ∧ ((freezing true).elem 0).nodeStops = [] ∧
    markersIn (freezing false) ((freezing false).task 1).groves 6 0 = true ∧ enginesDone (freezing true) 0 = true ∧ agsPaused (freezing true) 0 = true ∧ requestsSettled (freezing true) (ofElement 0) false = true ∧
    canPay (freezing true) (groveOf 0) 48 = true ∧ canPay (task1 (freezing true) (fun x => { x with central := 47 })) (groveOf 0) 48 = false := by decide +kernel

/-- The same with the element frozen and its part of the switch paid. -/
def callPoint : State := elem0 (freezing true) (fun x => { x with frozen := true, partPaid := 1 })

set_option maxRecDepth 8000 in
theorem witness_PlaneMoves_call : isLive callPoint 1 = true ∧ switchReady callPoint 1 = true ∧ listedElems callPoint (callPoint.task 1).groves = [0] ∧ mfind callPoint.tasks 1 ≠ none ∧
    payPart callPoint 1 (switchParts callPoint [0] true 1) = none ∧ underAt (callPoint.elem 0) 1 = .plane { present := true } := by decide

/-- A callee that has come to rest, its caller in position 1. -/
def returning : State := task1 (elem0 bare (fun x => { x with partPaid := 1, under := setAt x.under 0 (.frame { plane := { present := true, callx := true } }) })) (fun x => { x with returning := [1], depth := 1 })

set_option maxRecDepth 8000 in
theorem witness_PlaneMoves_return : isLive returning 1 = true ∧ returnReady returning 1 = true ∧ listedElems returning (returning.task 1).groves = [0] ∧ mfind returning.tasks 1 ≠ none ∧ payPart returning 1 (returnParts returning [0]) = none ∧
    underAt (returning.elem 0) 1 = .frame { plane := { present := true, callx := true } } := by decide

/-- A task that is launched and not in effect yet. -/
def loadingTask : State := task1 bare (fun x => { x with starting := true })

theorem witness_PlaneMoves_load : (loadingTask.task 1).starting = true ∧ isLive loadingTask 1 = true ∧ drained loadingTask (loadingTask.task 1).groves = true ∧ (loadingTask.task 1).feeDue = 0 ∧ (loadingTask.task 1).suspended = none ∧
    mfind loadingTask.tasks 1 ≠ none ∧ (loadingTask.grove 0).level = 0 ∧ (loadPlane loadingTask 0 0).present = true := by decide

theorem test_plane_moves_1 : goes (exec (.planeSwap 0) swapping) (fun t => (t.elem 0).active.armk == 0 && balance t 1 == 2 ^ 40 - 16) = true := by decide +kernel
theorem test_plane_moves_2 : goes (exec (.gridCallSwitch 1) callPoint) (fun t => (t.task 1).depth == 1 && !(t.elem 0).frozen) = true := by decide +kernel
theorem test_plane_moves_3 : goes (exec (.gridReturn 1) returning) (fun t => (t.task 1).depth == 0 && underAt (t.elem 0) 1 == .empty) = true := by decide +kernel

/-! ### Waves, tasks and the module -/

/-- Element 0 under a checkpoint wave of its task; with a channel that a route delivers into and its marker there. -/
def waving : State := task1 bare (fun x => { x with wave := some .checkpoint })
def marked : State := elem0 waving (fun x => { x with active := { present := true, route := [(0, localRoute)], queue := [(3, [{ mark := 4 }])] } })

set_option maxRecDepth 8000 in
theorem witness_WaveMoves_element : waving.taskOfElem 0 = some 1 ∧ (waving.task 1).armedWave = false ∧ waveMark (waving.task 1) = some 4 ∧ (waving.task 1).dry = none ∧ mayStop waving 1 0 = true ∧ atEntry waving (waving.task 1).groves 0 = true ∧
    mayStop marked 1 0 = true ∧ holdsChkpt marked 0 = false ∧ hasBound marked (marked.task 1).groves 0 = true ∧ markersHeld marked 1 4 0 = true := by decide

/-- The sequencer of grove 0 at its entry point; and everything at its point. -/
def seqEntered : State := grove0 waving (fun x => { x with entered := true })
def allStopped : State := grove0 (elem0 waving (fun x => { x with frozen := true })) (fun x => { x with atPoint := true })

theorem witness_WaveMoves_sequencer : (seqEntered.taskOfGrove 0) = some 1 ∧ (seqEntered.grove 0).stopped = false ∧ (seqEntered.grove 0).entered = true ∧ (seqEntered.grove 0).atPoint = false ∧ (seqEntered.grove 0).place = none ∧
    requestsSettled seqEntered (ofSequencer 0) false = true := by decide

set_option maxRecDepth 8000 in
theorem witness_WaveMoves_complete : isLive allStopped 1 = true ∧ mfind allStopped.tasks 1 ≠ none ∧ (∀ e ∈ waveElems allStopped (allStopped.task 1).groves, atPoint allStopped e = true) ∧
    (∀ g ∈ (allStopped.task 1).groves, (allStopped.grove g).atPoint = true ∧ agsSettled allStopped g = true ∧ recordQueued (allStopped.grove g) 1 true = false) ∧ (allStopped.task 1).dry = none ∧ fabricEmpty allStopped (allStopped.task 1).groves = true ∧
    exitsMarked allStopped 1 4 = true := by decide

/-- A completed wave; with a frame that no cellar page is left for. -/
def waveOver : State := task1 allStopped (fun x => { x with waveDone := true })
def noCellar : State := elem0 waveOver (fun x => { x with under := setAt x.under 0 (.frame {}) })

theorem witness_WaveMoves_suspension : (waveOver.task 1).waveDone = true ∧ isLive waveOver 1 = true ∧ (waveOver.task 1).dry = none ∧ spillBlocked waveOver 1 = false ∧ spillBlocked noCellar 1 = true ∧ (noCellar.task 1).waveDone = true ∧ saveHeld waveOver 1 = false := by decide

/-- Pages 0 and 1 of GLOBAL, which only supervisors write, in granule 0 of partition 0, whose region is grove 0; features 0, 3 and 4 enabled. -/
def pages : State :=
  { bare with
    mem := setWord (setWord (setWord (setWord (setWord [] 0x10000 0x4000000000000020) 0x20000 0x4000000000000030) 0x30000 0x4000000000000040) 0x40000 0xB810000000000005) 0x40008 0xB810000000000006
    ctxs := [(0, { root := 0x10000, reserve := 1000, log := some (0, 4096) })], parts := [(0, { granules := [0], keys := [1], rows := 1, cols := 1, tableBase := 0x70000, tableLen := 4 })]
    sectors := [(0, ⟨1, 0⟩), (0x1C00, ⟨1, 0⟩)], ack := 0x19, stage := 8 }
def canSave : State := task1 pages (fun x => { x with image := { x.image with chkpts := [(0, [])] } })
def nowSuspended : State := grove0 (task1 pages (fun x => { x with suspended := some { held := [0] }, groves := [] })) (fun x => { x with task := none })

theorem witness_WaveMoves_request : suspendable canSave 0 = some 1 ∧ mfind canSave.tasks 1 ≠ none ∧ suspendable pages 0 = none ∧ featureOn nowSuspended 3 = true ∧ isLive nowSuspended 1 = true ∧ (nowSuspended.task 1).suspended.isSome = true ∧ (nowSuspended.task 1).groves = [] ∧ (waveOver.task 1).groves ≠ [] ∧
    nowSuspended.partOfGrove 0 = some (nowSuspended.ctx (nowSuspended.task 1).ctx).part ∧ (pages.task 1).suspended.isSome = false := by decide +kernel

theorem witness_WaveMoves_resume : (nowSuspended.task 1).suspended = some { held := [0] } ∧ inError nowSuspended (nowSuspended.task 1).part = false ∧ anotherFirst nowSuspended 0 (enPrio (nowSuspended.task 1).entry, (nowSuspended.task 1).due0, (nowSuspended.task 1).entryIndex) = false ∧
    resumeRegion nowSuspended (nowSuspended.task 1) { held := [0] } = some (0, 0) := by decide +kernel

/-- A committed and a vanished task that are over. -/
def over2 : State := { State.reset with tags := [(5, .committed), (6, .vanished)], sectors := [(9, ⟨2, 5⟩), (10, ⟨2, 6⟩)] }

theorem witness_WaveMoves_scrub : tagNeeded over2 5 = false ∧ mget TagState.free over2.tags 5 = .committed ∧ tagNeeded over2 6 = false ∧ mget TagState.free over2.tags 6 = .vanished ∧ (over2.sector 9).st = 2 ∧ (over2.sector 9).tag.toNat = 5 := by decide +kernel

theorem test_waves_1 : goes (exec (.waveEntryPoint (.elem 0)) waving) (fun t => (t.elem 0).frozen) = true := by decide +kernel
theorem test_waves_2 : goes (exec (.wavePoint 0) marked) (fun t => (t.elem 0).frozen) = true := by decide +kernel
theorem test_waves_3 : goes (exec (.waveComplete 1) allStopped) (fun t => (t.task 1).waveDone) = true := by decide +kernel
theorem test_waves_4 : goes (exec (.suspension 1) waveOver) (fun t => (t.grove 0).task == none && (t.task 1).suspended.isSome) = true := by decide +kernel
theorem test_waves_5 : goes (exec (.suspendRequest 0) canSave) (fun t => (t.grove 0).suspState == 1) = true := by decide +kernel
theorem test_waves_7 : goes (exec (.tagScrub 5) over2) (fun t => sectorView t 9 == .full && t.tags == [(6, .vanished)]) = true := by decide +kernel

/-- A slot-table entry as the spec lays it out: valid, of one grove at row 0, column 0, with a log of one page and a budget of 100. -/
def anEntry : Entry := ⟨#v[0xA000000000000000, 60000, 0x01010000, 0, 0, 0, 100, 0]⟩
def slotTable : State := { pages with mem := setWord (setWord pages.mem 0x70000 0xA000000000000000) 0x70008 60000 }

theorem witness_SchedulerMoves_read : slotTable.stage = 8 ∧ 0 < (slotTable.part 0).tableLen ∧ (mfind slotTable.parts 0).isSome = true ∧ readEntry { slotTable with staged := [(0, { valid := true, entry := anEntry })] } 0 0 ≠ anEntry ∧
    (mget {} slotTable.staged (entryKey 0 0)).valid = false ∧ (mget {} slotTable.staged (entryKey 0 0)).spent = false ∧
    (mget {} ({ slotTable with staged := [(0, { spent := true, entry := anEntry })] } : State).staged (entryKey 0 0)).spent = true ∧ enBit (readEntry slotTable 0 1) 63 = false ∧ enBit (readEntry slotTable 0 0) 63 = true ∧
    slotTable.ctxs.any (fun x => x.1 == enCtx (readEntry slotTable 0 0) && x.2.part == 0) = true ∧ (slotTable.ctx (enCtx (readEntry slotTable 0 0))).log = some (0, 4096) ∧ logPages slotTable (enCtx (readEntry slotTable 0 0)) 0 4096 = true := by decide

theorem witness_SchedulerMoves_first : enPeriod anEntry = 0 ∧ firstStart anEntry 50000 = 60000 ∧ enPeriod ⟨#v[0, 10000, 0x2000000000, 0, 0, 0, 0, 0]⟩ ≠ 0 ∧ firstStart ⟨#v[0, 10000, 0x2000000000, 0, 0, 0, 0, 0]⟩ 50000 = 74000 := by decide

def starting0 (e : Entry) : Staged := { valid := true, entry := e, start := 60000 }

theorem witness_SchedulerMoves_start : enChained anEntry = false ∧ (starting0 anEntry).start ≤ ({ State.reset with tb := 60000 } : State).tb.toNat ∧ (starting0 anEntry).valid = true ∧ (starting0 anEntry).pending = none ∧ (starting0 anEntry).running = none ∧
    (starting0 anEntry).next = none ∧ enPeriod anEntry = 0 := by decide

/-- A pending launch of that entry, its region free. -/
def pendingLaunch : State := { grove0 slotTable (fun x => { x with task := none }) with tasks := [], tags := [], staged := [(0, { entry := anEntry, pending := some { start := 60000, entry := anEntry, image := {} } })] }

/-- An entry of one grove whose image, argument block and log lie in page 0, and an image of nothing. -/
def stagedEntry : Entry := ⟨#v[0xA000000000050005, 60000, 0x01010000, 0, 0, 0, 100, 0]⟩
def noPlanes : LoadImage := { rows := 1, cols := 1 }

/-- slotTable with an entry read before, one with the sector of the entry tentative, and one with it in a reserved state. -/
def readBefore : State := { slotTable with staged := [(0, { soon := some 70000 })] }
def heldEntry : State := { slotTable with sectors := mset slotTable.sectors 0x1C00 ⟨2, 1⟩ }
def badEntry : State := { slotTable with sectors := mset slotTable.sectors 0x1C00 ⟨3, 0⟩ }

theorem witness_SchedulerMoves_more : entryHeld heldEntry 0 0 = true ∧ entryHeld badEntry 0 0 = false ∧ deviceCheck badEntry (entryPlace badEntry 0 0) = some 0x1C6 ∧ nextHeld slotTable 0 (readEntry slotTable 0 0) = false ∧ stageFault slotTable 0 stagedEntry 64 = none ∧
    (mget {} readBefore.staged (entryKey 0 0)).soon = some 70000 ∧ inError pendingLaunch 0 = false := by decide +kernel

theorem witness_SchedulerMoves_stage : deviceCheck slotTable (entryPlace slotTable 0 0) = none ∧ entryHeld slotTable 0 0 = false ∧ enField (readEntry slotTable 0 0) 7 0 13 = 0 ∧
    deviceReads slotTable 0 (enImage stagedEntry) 64 = true ∧ deviceWaits slotTable 0 (enImage stagedEntry) 64 = false ∧ deviceFails slotTable 0 (enImage stagedEntry) 64 = false ∧
    entryReason slotTable stagedEntry 64 = none ∧ stagingReason slotTable 0 stagedEntry (some noPlanes) = none ∧
    deviceWaits pendingLaunch (enCtx anEntry) (enArgs anEntry) 32 = false ∧ deviceFails pendingLaunch (enCtx anEntry) (enArgs anEntry) 32 = false := by decide +kernel

theorem free_tags_of_none (s : State) (h : s.tags = []) : freeTags s ≠ [] := by
  have : (1 : Nat) ∈ freeTags s := by
    simp only [freeTags, h, List.mem_filter, mfind]
    exact ⟨List.mem_drop_iff_getElem.mpr ⟨0, by simp, by simp⟩, rfl⟩
  exact List.ne_nil_of_mem this

set_option maxRecDepth 8000 in
theorem witness_SchedulerMoves_launch : (mget {} pendingLaunch.staged (entryKey 0 0)).pending = some { start := 60000, entry := anEntry, image := {} } ∧ anotherFirst pendingLaunch 0 (enPrio anEntry, 60000, 0) = false ∧
    regionReason pendingLaunch 0 anEntry {} = none ∧ findRegion pendingLaunch 0 anEntry {} = some (0, 0) ∧ reservedArgs pendingLaunch anEntry = false ∧ enBudget anEntry ≤ (pendingLaunch.ctx (enCtx anEntry)).reserve ∧ badArgs pendingLaunch anEntry = false ∧ freeTags pendingLaunch ≠ [] :=
  ⟨by decide, by decide, by decide, by decide, by decide, by decide, by decide, free_tags_of_none _ rfl⟩

theorem test_scheduler : goes (exec (.slotStart 0 0) { State.reset with tb := 60000, staged := [(0, starting0 anEntry)] }) (fun t => (mget {} t.staged 0).pending.isSome && !(mget {} t.staged 0).valid) = true ∧
    goes (exec (.timeBaseAdjust 1000001) State.reset) (fun t => t.tb == 1000001) = true ∧ goes (exec (.timeBaseAdjust 1000000) State.reset) (fun t => t == State.reset) = true := by decide

theorem witness_HostMoves_bar : barOpen pages 1 false = true ∧ barAddr (pages.part 0) 5 = some 5 ∧ barSectors (pages.part 0) 5 1 = some [5 / 64] ∧ sectorView pages (5 / 64) = .full ∧ Memory.wf pages.mem = true ∧ (pages.sector (5 / 64)).st = 1 ∧
    mget [] pages.hostQueue 1 = [] ∧ barSectors (pages.part 0) 62 4 = some [0, 1] ∧ barSectors (pages.part 0) 62 2 = some [0] ∧ hostWaits pages [0] = false ∧
    barOpen pages 0 false = false ∧ barOpen { pages with parts := [(0, { tdi := .run })] } 1 false = false ∧ barOpen { pages with parts := [(0, { tdi := .run })] } 1 true = false ∧
    barOpen { pages with parts := [(0, { tdi := .run })], ideKeys := [(1, 9)] } 1 true = true ∧ macFails pages (5 / 64) none = false ∧ macFails { pages with badMacs := [0] } (5 / 64) none = true := by decide +kernel

theorem witness_HostMoves_more : mfind pages.parts 0 ≠ none ∧ State.reset.negotiated = false ∧ mfind pages.ctxs 0 ≠ none ∧ featureOn pages 0 = true ∧ pages.waiting = [] ∧ featureOn State.reset 0 = false ∧ State.reset.sessions = [] ∧ 64 ≤ 64 ∧ 64 < 65 ∧
    ({ pages with sessions := [(3, 4)] } : State).sessions ≠ [] ∧ (pages.ctx 0).reserve + 5 < 2 ^ 48 ∧ (pages.ctx 0).shown + 5 < 2 ^ 48 ∧ (pages.ctx 0).shown < 2 ^ 64 ∧ (0x10000 : Nat) < barZero := by decide

/-- PF0's registers at their places, and a message that leaves when its entry is unmasked (R380, R409). -/
theorem test_pf_registers : goes (exec (.hostRead 0 (barZero + 0x20) 8 false) { State.reset with stage := 6, err := true }) (fun t => t.outputs == [.readData [0x16, 0, 0, 0, 0, 0, 0, 0]]) = true ∧
    goes (exec (.hostWrite 0 (barZero + 0x10) [1, 0, 0, 0, 0, 0, 0, 0] false) { State.reset with stage := 8, offer := 9 }) (fun t => t.ack == 1 && t.negotiated) = true ∧
    goes (exec (.hostWrite 0 0 [8, 0, 0, 0, 0, 0, 0, 0, 7, 0, 0, 0, 0, 0, 0, 0] false) { State.reset with msix := { pending := 1 } }) (fun t => t.outputs.length == 1 && t.msix.pending == 0) = true := by decide +kernel

/-- The padding of FIPS 202, with a whole block to fill and with one byte, and the first round of the permutation on the zero state, which only its constant changes. -/
theorem test_digests : padded 72 0x06 [] = 0x06 :: List.replicate 70 0 ++ [0x80] ∧ padded 3 0x1F [1, 2] = [1, 2, 0x9F] ∧
    (chiIota 1 (rhoPi (theta (Vector.replicate 25 0)))).toList = 1 :: List.replicate 24 0 := by decide +kernel

/-- A write of four bytes across the border of two sectors; then its second part, before which a read waits. -/
theorem test_host_parts : goes (exec (.hostWrite 1 62 [1, 2, 3, 4] false) pages) (fun t => byteAt t.mem 63 == 2 && byteAt t.mem 64 == 0 && t.hostQueue == [(1, [(64, [3, 4])])]) = true ∧
    goes (exec (.hostWrite 1 0 [] false) { pages with hostQueue := [(1, [(64, [3, 4])])] }) (fun t => byteAt t.mem 65 == 4 && t.hostQueue == []) = true ∧
    goes (exec (.hostRead 1 0 1 false) { pages with hostQueue := [(1, [(64, [3, 4])])] }) (fun t => t.outputs == []) = true := by decide +kernel

theorem test_host : goes (exec (.hostWrite 1 5 [7] false) pages) (fun t => byteAt t.mem 5 == 7) = true ∧ goes (exec (.hostWrite 2 5 [7] false) pages) (fun t => t.outputs == [.unsupported] && t.mem == pages.mem) = true ∧
    goes (exec (.registerWrite (.reserve 0) 5) pages) (fun t => (t.ctx 0).reserve == 1005) = true := by decide +kernel

/-- A frame of one payload beat with TTL 5, for module 0 and for module 1. -/
def aFrame : BitVec 128 := BitVec.ofNat 128 (5 * 2 ^ 80)
def farFrame : BitVec 128 := BitVec.ofNat 128 (5 * 2 ^ 80 + 2 ^ 115)
/-- Port 0 up, and port 2, which the monitor has routed module 1 by. -/
def linked : State := { State.reset with berovo := [(0, { up := true }), (2, { up := true })], routes := [(1, 2)] }
/-- The same with the credit of a VC of port 2 spent. -/
def unlinked : State := { linked with berovo := [(0, { up := true }), (2, { up := true, credit := [(0, 2)] })] }

theorem witness_LinkMoves_here : frBad (mget {} linked.berovo 0) aFrame [0] false = true ∧ (mget {} linked.berovo 0).up = true ∧ frBad (mget {} linked.berovo 0) aFrame [0] true = false ∧ frDest aFrame = linked.moduleNo ∧ 0 < frTtl aFrame ∧
    mget [] (mget {} linked.berovo 0).window 3 = [] ∧ 3 ≤ mget vcGrant (mget {} linked.berovo 0).credit 3 ∧ (mget {} linked.berovo 0).txFrames < keyLife ∧ (mget {} linked.berovo 0).owed = 0 := by decide

theorem witness_LinkMoves_onward : frBad (mget {} linked.berovo 0) farFrame [0] true = false ∧ frDest farFrame ≠ linked.moduleNo ∧ linkRoute linked (frDest farFrame) = 2 ∧ (mget {} linked.berovo 2).up = true ∧
    mget [] (mget {} linked.berovo 2).window (frVc farFrame) = [] ∧ frBeats farFrame ≤ mget vcGrant (mget {} linked.berovo 2).credit (frVc farFrame) ∧ (mget {} linked.berovo 2).txFrames < keyLife ∧
    linkRoute unlinked (frDest farFrame) = 2 ∧ mget vcGrant (mget {} unlinked.berovo 2).credit (frVc farFrame) < frBeats farFrame := by decide

/-- The same frames on VC 3. -/
def creditFrame : BitVec 128 := BitVec.ofNat 128 (5 * 2 ^ 80 + 3 * 2 ^ 99)
def farCredit : BitVec 128 := BitVec.ofNat 128 (5 * 2 ^ 80 + 3 * 2 ^ 99 + 2 ^ 115)

theorem witness_LinkMoves_credit_frames : frVc aFrame ≠ 3 ∧ frVc farFrame ≠ 3 ∧ frVc creditFrame = 3 ∧ frBad (mget {} linked.berovo 0) creditFrame [0] true = false ∧ frDest creditFrame = linked.moduleNo ∧ (mget {} linked.berovo 0).owed + frBeats creditFrame < 256 ∧
    frVc farCredit = 3 ∧ frBad (mget {} linked.berovo 0) farCredit [0] true = false ∧ linkRoute linked (frDest farCredit) = 2 ∧ mget [] (mget {} linked.berovo 2).window (frVc farCredit) = [] ∧
    frBeats farCredit ≤ mget vcGrant (mget {} linked.berovo 2).credit (frVc farCredit) ∧ (2 : Nat) ≠ 0 := by decide

theorem test_links_owed : goes (exec (.berovoFrameReceive 0 creditFrame [0] true) linked) (fun t => t.outputs == [] && (mget {} t.berovo 0).owed == 3) = true := by decide

/-- Port 2 with a message for module 1 in its window queue of VC 0, and no credit left of it. -/
def queuedLink : State := { linked with berovo := [(2, { up := true, credit := [(0, 0)], window := [(0, [{ dest := 1, beats := 3, msg := .resolveAck 5 }])] })] }

theorem witness_LinkMoves_credit : (mget {} queuedLink.berovo 2).up = true ∧ mget [] (mget {} queuedLink.berovo 2).window 0 = [{ dest := 1, beats := 3, msg := .resolveAck 5 }] ∧ 3 ≤ min 512 (mget vcGrant (mget {} queuedLink.berovo 2).credit 0 + 3) ∧
    (mget {} queuedLink.berovo 2).txFrames < keyLife ∧ (0 : Nat) < 4 ∧ (1 : Nat) ≤ 4607 ∧ mget [] (mget {} linked.berovo 2).window 0 = [] ∧ linked.waiting = [] ∧ mget [] (mget {} linked.berovo 2).window 2 = [] ∧
    3 ≤ mget vcGrant (mget {} linked.berovo 2).credit 2 := by decide

/-- An ended task that waits for acknowledgements. -/
def resolvingTask (l : List Nat) : State := { State.reset with tasks := [(1, { resolving := l })] }

theorem witness_LinkMoves_remote : 0x1000 < hbmEnd ∧ freeTags State.reset ≠ [] ∧ proxyTag State.reset 3 9 = none ∧ ({} : RemoteAccess).pl = false ∧ ({} : RemoteAccess).outside = false ∧ proxyTag { State.reset with tags := [(2, .proxy 3 9)] } 3 9 = some 2 ∧ hbmEnd ≤ 2 ^ 60 ∧ 4 ∈ ((resolvingTask [4]).task 1).resolving ∧
    isLive (resolvingTask [4]) 1 = false ∧ ((resolvingTask [4]).task 1).resolving.filter (· != 4) = [] ∧
    ((resolvingTask [4, 5]).task 1).resolving.filter (· != 4) ≠ [] := ⟨by decide, free_tags_of_none _ rfl, by decide, by decide, by decide, by decide, by decide, by decide, by decide, by decide, by decide⟩

theorem test_links_frame : goes (exec (.berovoFrameReceive 0 aFrame [0] true) linked) (fun t => (t.outputs.map (fun o => match o with
      | .message n _ _ m => (n, m == .credit 0 3)
      | _ => (9, false))) == [(0, true)] && (mget {} t.berovo 0).rxSeq == 1) = true := by decide

theorem test_links_credit : goes (exec (.creditReturn 0 1 9) { State.reset with berovo := [(0, { credit := [(1, 510)] })] }) (fun t => mget vcGrant (mget {} t.berovo 0).credit 1 == 512) = true := by decide

theorem test_links_window : goes (exec (.creditReturn 2 0 3) queuedLink) (fun t => t.outputs.length == 1 && mget vcGrant (mget {} t.berovo 2).credit 0 == 0) = true := by decide

/-- The shares of R295 by hand: counts 13, 0, 5, 1 and 21 over ten strips leave six after one each; their shares are 1.95, 0.75, 0.15 and 3.15, so the first and the second get the two that are left. -/
theorem test_allot : allot [13, 0, 5, 1, 21] 10 = [3, 0, 2, 1, 4] := by decide

/-- An element at rest, and one at which a token has arrived. -/
def atRest (r : Bool) : State := elem0 bare (fun x => { x with resting := r })
def arrived : State := elem0 (atRest true) (fun x => { x with active := x.active.setFifo 1 [{}] })

set_option maxRecDepth 8000 in
theorem witness_PowerMoves_gating : elemRests (atRest false) 0 = true ∧ ((atRest false).elem 0).resting = false ∧ elemRests arrived 0 = false ∧ (arrived.elem 0).resting = true ∧ hasArrival arrived 0 = true := by decide

theorem witness_PowerMoves_retire : bare.taskOfGrove 0 = some 1 ∧ isLive bare 1 = true ∧ 1 ≠ 0 := by decide

theorem test_power : goes (exec (.elementGate 0) (atRest false)) (fun t => (t.elem 0).resting) = true ∧ goes (exec (.elementWake 0) arrived) (fun t => !(t.elem 0).resting) = true := by decide +kernel

theorem test_retire : goes (exec (.guardSupplyShortfall 0) bare) (fun t => t.retired == [0] && mget TagState.free t.tags 1 == .vanished) = true := by decide +kernel

/-- An image that the boot stages accept, at reset of a module whose slot A holds it. -/
def flashed : State := { State.reset with slotA := { image := { version := 3, body := 0, verified := true }, active := true }, fuse := 2 }

def boot (n : Nat) : BootInput := { failAt := n, badGroves := [], peer := none, net := none }

theorem witness_BringUpMoves : flashed.slotA.active = true ∧ flashed.slotA.image.verified = true ∧ flashed.fuse ≤ flashed.slotA.image.version ∧ (boot 0).net = none ∧ (boot 4).net = none ∧
    1 ≤ (boot 4).failAt ∧ (boot 4).failAt ≤ 7 ∧ ({ State.reset with stage := 8, offer := 9 } : State).stage = 8 ∧ (1 : Word) &&& ~~~9 = 0 ∧ (2 : Word) &&& ~~~9 ≠ 0 ∧
    ({ State.reset with negotiated := true } : State).negotiated = true ∧ ({ State.reset with slotA := { active := true } } : State).slotA.active = true ∧ ({ State.reset with slotA := { active := false } } : State).slotA.active = false := by decide

theorem test_bring_up : goes (exec (.featureAck 1 0) { State.reset with stage := 8, offer := 9 }) (fun t => t.ack == 1 && t.negotiated && !t.err) = true ∧ goes (exec (.featureAck 2 0) { State.reset with stage := 8, offer := 9 }) (fun t => t.ack == 0 && t.err) = true ∧
    goes (exec (.firmwareUpdate { version := 4, body := 0, verified := true }) flashed) (fun t => t.slotB.active && t.slotB.image.version == 4) = true := by decide

/-- A sequencer that waits for monitor call n, with register w1 at 2. -/
def calling (n : BitVec 6) : State := grove0 (inPart) (fun x => { x with superBank := { x.superBank with hold := .monitor n, w := setAt x.superBank.w 1 2 } })

theorem witness_ManagementMoves_calls : ∀ n ∈ [(0 : BitVec 6), 1, 2, 3, 4, 5, 63], ((calling n).grove 0).superBank.hold = .monitor n ∧ (calling n).partOfGrove 0 = some 0 ∧
    ((grove0 (calling n) (fun x => { x with task := none })).grove 0).task = none ∧ ((grove0 (calling n) (fun x => { x with task := some 1 })).grove 0).task.isSome = true := by decide

/-- No table maps an address where memory lists nothing, so no sector is read. -/
theorem unmapped_reads_nothing (s : State) (c va n : Nat) (hm : s.mem = []) (hb : s.badMacs = []) (hk : s.sectorKeys = []) : sectorPlaces s c va n = [] := by
  have hw (a : Nat) : wordAt s.mem a = 0 := by rw [hm]; rfl
  have hf (a k : Nat) : macFails s a (some k) = false := by simp [macFails, hb, hk, mfind]
  have hv (v : Nat) : walk s c v = .error 0x0C0 := by
    unfold walk; split
    · rfl
    · simp [walkFrom, hw, hf, show pteType 0#64 = 0 by decide]
  simp [sectorPlaces, deviceTarget, hv]

/-- The same with no task in the grove. -/
def callingFree : State := grove0 (calling 4) (fun x => { x with task := none })

theorem witness_ManagementMoves_image : imageReads callingFree 0 ∧ callNo callingFree 0 = some 4 ∧ (callingFree.grove 0).task = none := by
  refine ⟨fun c va _ _ => ?_, by decide, by decide⟩
  have h (n : Nat) : sectorPlaces callingFree c va n = [] := unmapped_reads_nothing _ _ _ _ rfl rfl rfl
  exact ⟨by rw [deviceWaits, h]; rfl, by rw [deviceWaits, h]; rfl, by rw [deviceFault, h]; rfl⟩

/-- A grove of partition 0 that no task holds, whose call 4 names page 0, an SA page here, with the first sector tentative, or of reserved state. -/
def callingAt (m : SectorMeta) : State :=
  { grove0 pages (fun x => { x with task := none, superBank := { x.superBank with hold := .monitor 4 } }) with mem := setWord pages.mem 0x40000 0xB010000000000005, sectors := [(0x1400, m), (0, ⟨1, 0⟩)], tags := [(1, .live)] }

theorem witness_ManagementMoves_waits : callNo (callingAt ⟨2, 1⟩) 0 = some 4 ∧ deviceWaits (callingAt ⟨2, 1⟩) (unitCtx (callingAt ⟨2, 1⟩) (.seq 0)) 0 64 = true ∧ reg ((callingAt ⟨2, 1⟩).grove 0).superBank.w 1 = 0 ∧
    deviceWaits (callingAt ⟨3, 0⟩) (unitCtx (callingAt ⟨3, 0⟩) (.seq 0)) 0 64 = false ∧ deviceFault (callingAt ⟨3, 0⟩) (unitCtx (callingAt ⟨3, 0⟩) (.seq 0)) 0 64 = some 0x1C6 := by decide +kernel

theorem witness_ManagementMoves_zwitex : 0 < 64 ∧ 41 ≤ 41 ∧ 41 < 42 ∧ 1000000 ≤ State.reset.tb.toNat + 1000000 ∧ State.reset.tb.toNat + 1000000 < 1000001 ∧ 1000001 < 2 ^ 64 ∧ 4607 ≤ 4607 ∧ 4607 < 4608 ∧
    (∀ t ∈ State.reset.tasks, isLive State.reset t.1 = false) ∧ (∃ t ∈ bare.tasks, isLive bare t.1 = true) ∧ mfind pages.parts 0 ≠ none ∧ mfind pages.ctxs 7 = none ∧ partTasks { pages with tasks := [] } 0 = [] ∧ partTasks pages 0 ≠ [] := by decide

theorem test_management : goes (exec (.monitorCallInvalid 0) (calling 63)) (fun t => reg (t.grove 0).superBank.w 0 == BitVec.allOnes 64) = true ∧ goes (exec (.monitorCallGroveMap 0) { calling 2 with retired := [130] }) (fun t => reg (t.grove 0).superBank.w 0 == 0xFFFFFFFFFFFFFFFB) = true ∧
    goes (exec (.zwitexModuleNumber 9) State.reset) (fun t => t.moduleNo == 9) = true := by decide

theorem witness_StepsKeepMemoryCanonical : Memory.wf pages.mem = true ∧ goes (step pages) (fun t => Memory.wf t.mem) = true := ⟨by decide, by decide +kernel⟩

end Sys2Proof.Tests
end

section
/-! PROOFS. Memory keeps its canonical form under every step (O60).

A function of the model that leaves memory alone has a lemma `f_mem`; one that writes it has a lemma `f_wf`, which asks for the form before and gives it after.
Both are stated bottom up, in the order of the model's definitions, and tagged for `simp`, so that a function's lemma only splits its own branches.
Words go through `issueWord_wf`, which asks for no more than the form of the word's effect. -/

namespace Sys2Proof.Machine

/-! ### Conditions, folds and results -/

/-- The memory of a state chosen by a condition. -/
@[simp] theorem mem_ite (c : Prop) [Decidable c] (s t : State) : (if c then s else t).mem = if c then s.mem else t.mem := apply_ite State.mem c s t

@[simp] theorem wf_ite (c : Prop) [Decidable c] (m n : Memory) :
    Memory.wf (if c then m else n) = if c then Memory.wf m else Memory.wf n := apply_ite Memory.wf c m n

/-- A fold of an operation that leaves memory alone leaves it alone. -/
theorem mem_foldl {α : Type} {f : State → α → State} (hf : ∀ s a, (f s a).mem = s.mem) (l : List α) (s : State) : (l.foldl f s).mem = s.mem := by
  induction l generalizing s with
  | nil => rfl
  | cons a l ih => exact (ih (f s a)).trans (hf s a)

/-- A fold of an operation that keeps the canonical form keeps it. -/
theorem wf_foldl {α : Type} {f : State → α → State} (hf : ∀ s a, Memory.wf s.mem = true → Memory.wf (f s a).mem = true)
    (l : List α) (s : State) (h : Memory.wf s.mem = true) :
    Memory.wf (l.foldl f s).mem = true := by
  induction l generalizing s with
  | nil => exact h
  | cons a l ih => exact ih (f s a) (hf s a h)

/-- The canonical form of the states an option holds, by the condition that chose it. -/
@[simp] theorem all_wf_ite (c : Prop) [Decidable c] (o p : Option State) :
    (if c then o else p).all (fun u => Memory.wf u.mem) = if c then o.all (fun u => Memory.wf u.mem) else p.all (fun u => Memory.wf u.mem) :=
  apply_ite (Option.all fun u => Memory.wf u.mem) c o p

/-- What a move makes of a state, or the state itself, keeps the canonical form. -/
theorem wf_getD {o : Option State} {s : State} (ho : o.all (fun u => Memory.wf u.mem) = true) (h : Memory.wf s.mem = true) :
    Memory.wf (o.getD s).mem = true := by
  cases o with
  | none => exact h
  | some u => exact ho

/-- The memory of the state in a pair, once the pair is known. -/
theorem fst_mem {α : Type} {p : State × α} {m : Memory} (hp : p.1.mem = m) {u : State} {a : α} (h : p = (u, a)) : u.mem = m := by
  rw [← hp, h]

theorem fst_wf {α : Type} {p : State × α} (hp : Memory.wf p.1.mem = true) {u : State} {a : α} (h : p = (u, a)) : Memory.wf u.mem = true := by
  rw [h] at hp
  exact hp

/-- Is the memory of the state that serving a request leaves canonical? -/
def Served.wf : Served → Bool
  | .ok s _ _ => Memory.wf s.mem
  | .part s _ => Memory.wf s.mem
  | .defer => true
  | .wait => true
  | .fail _ => true

@[simp] theorem Served.wf_ok (s : State) (v : Word) (f : Flags) : (Served.ok s v f).wf = Memory.wf s.mem := rfl

@[simp] theorem Served.wf_part (s : State) (l : List Left) : (Served.part s l).wf = Memory.wf s.mem := rfl

@[simp] theorem Served.wf_defer : Served.defer.wf = true := rfl

@[simp] theorem Served.wf_wait : Served.wait.wf = true := rfl

@[simp] theorem Served.wf_fail (k : Nat) : (Served.fail k).wf = true := rfl

@[simp] theorem Served.wf_ite (c : Prop) [Decidable c] (o p : Served) : (if c then o else p).wf = if c then o.wf else p.wf := apply_ite Served.wf c o p

/-- Is the memory of the state that a word's effect comes to canonical? -/
def Effect.wf : Effect → Bool
  | .done s _ => Memory.wf s.mem
  | .cause _ _ _ => true

@[simp] theorem Effect.wf_done (s : State) (f : Flags) : (Effect.done s f).wf = Memory.wf s.mem := rfl

@[simp] theorem Effect.wf_cause (k : Nat) (a i : Word) : (Effect.cause k a i).wf = true := rfl

@[simp] theorem Effect.wf_ite (c : Prop) [Decidable c] (o p : Effect) : (if c then o else p).wf = if c then o.wf else p.wf := apply_ite Effect.wf c o p

/-- Is the memory of the state that an outcome goes on to canonical? -/
def outcomeWf : Host.Outcome State Fault Refusal → Bool
  | .next s => Memory.wf s.mem
  | .fault _ => true
  | .refused _ => true

@[simp] theorem outcomeWf_next (s : State) : outcomeWf (.next s) = Memory.wf s.mem := rfl

@[simp] theorem outcomeWf_fault (r : Fault) : outcomeWf (.fault r) = true := rfl

@[simp] theorem outcomeWf_refused (r : Refusal) : outcomeWf (.refused r) = true := rfl

@[simp] theorem foldl_modGrove_mem {α : Type} (k : State → α → Nat) (u : State → α → Grove → Grove) (l : List α) (s : State) :
    (l.foldl (fun s a => s.modGrove (k s a) (u s a)) s).mem = s.mem :=
  mem_foldl (f := fun s a => s.modGrove (k s a) (u s a)) (fun _ _ => rfl) l s

@[simp] theorem foldl_modElem_mem {α : Type} (k : State → α → Nat) (u : State → α → Elem → Elem) (l : List α) (s : State) :
    (l.foldl (fun s a => s.modElem (k s a) (u s a)) s).mem = s.mem :=
  mem_foldl (f := fun s a => s.modElem (k s a) (u s a)) (fun _ _ => rfl) l s

@[simp] theorem foldl_modWindow_mem {α : Type} (k : State → α → Nat) (u : State → α → WinState → WinState) (l : List α) (s : State) :
    (l.foldl (fun s a => s.modWindow (k s a) (u s a)) s).mem = s.mem :=
  mem_foldl (f := fun s a => s.modWindow (k s a) (u s a)) (fun _ _ => rfl) l s

/-! ### Arrivals (Machine/Ops) -/

@[simp] theorem State.noteArrival_mem (s : State) (e : Nat) : (s.noteArrival e).mem = s.mem := by
  unfold State.noteArrival
  split <;> simp

/-! ### Translation, ports, links and device writes (Machine/Translate) -/

@[simp] theorem noteBadMac_mem (s : State) (n : Nat) : (noteBadMac s n).mem = s.mem := by
  simp [noteBadMac]

@[simp] theorem tlbFill_mem (s : State) (g victim : Nat) (t : TlbEntry) : (tlbFill s g victim t).mem = s.mem := by
  simp [tlbFill]

@[simp] theorem translate_mem (s : State) (g c v : Nat) : (translate s g c v).1.mem = s.mem := by
  simp only [translate]
  split <;> (try split) <;> simp

@[simp] theorem drainWindow_mem (s : State) (port vc : Nat) : (drainWindow s port vc).mem = s.mem := by
  simp [drainWindow]

@[simp] theorem sendPort_mem (s : State) (port vc : Nat) (w : Waiting) : (sendPort s port vc w).mem = s.mem := by
  simp [sendPort]

@[simp] theorem sendLink_mem (s : State) (m vc beats : Nat) (msg : LinkMsg) : (sendLink s m vc beats msg).mem = s.mem := by
  simp [sendLink]

@[simp] theorem emptySector_mem (s : State) (n : Nat) : (emptySector s n).mem = s.mem := by
  simp [emptySector]

@[simp] theorem writtenUnder_mem (s : State) (n : Nat) (key : Option Nat) : (writtenUnder s n key).mem = s.mem := by
  simp [writtenUnder]

@[simp] theorem deviceWrite_wf (s : State) (whole : Bool) (p : DevicePlace) (v : Word) (h : Memory.wf s.mem = true) :
    Memory.wf (deviceWrite s whole p v).mem = true := by
  simp only [deviceWrite]
  split <;> (try split) <;> simp [setWord_wf, clearBytes_wf, h]

@[simp] theorem deviceWrites_wf (s : State) (ts : List DevicePlace) (ws : List Word) (h : Memory.wf s.mem = true) :
    Memory.wf (deviceWrites s ts ws).mem = true :=
  wf_foldl (fun _ _ h => deviceWrite_wf _ _ _ _ h) _ _ h

@[simp] theorem logEvent_mem (s : State) (kind cause p g : Nat) (detail : Word) : (logEvent s kind cause p g detail).mem = s.mem := by
  simp [logEvent]

@[simp] theorem signal_mem (s : State) (p vec : Nat) : (signal s p vec).mem = s.mem := by
  simp [signal]

@[simp] theorem afterOp_mem (s : State) (o : DeviceOp) : (afterOp s o).mem = s.mem := by
  unfold afterOp
  split <;> simp

@[simp] theorem dropRecord_mem (s : State) (k : Nat) (o : DeviceOp) : (dropRecord s k o).mem = s.mem := by
  simp only [dropRecord]
  split <;> simp

@[simp] theorem deviceDo_wf (s : State) (o : DeviceOp) (h : Memory.wf s.mem = true) : Memory.wf (deviceDo s o).mem = true := by
  unfold deviceDo
  split
  · exact h
  · simp [h]
  · split <;> simp [h]

@[simp] theorem retryWaiting_wf (s : State) (h : Memory.wf s.mem = true) : Memory.wf (retryWaiting s).mem = true :=
  wf_foldl deviceDo_wf _ _ h

@[simp] theorem setTagState_wf (s : State) (t : Nat) (v : TagState) (h : Memory.wf s.mem = true) : Memory.wf (setTagState s t v).mem = true := by
  simp [setTagState, h]

@[simp] theorem logRecord_wf (s : State) (c p : Nat) (e : Entry) (words : List Word) (h : Memory.wf s.mem = true) :
    Memory.wf (logRecord s c p e words).mem = true := by
  simp [logRecord, h]

@[simp] theorem countSkip_wf (s : State) (c : Nat) (h : Memory.wf s.mem = true) : Memory.wf (countSkip s c).mem = true := by
  simp [countSkip, h]

/-! ### Meters, casks and the end of a task (Machine/Meter) -/

@[simp] theorem dropAllowances_mem (s : State) (gs : List Nat) : (dropAllowances s gs).mem = s.mem := by
  induction gs generalizing s with
  | nil => rfl
  | cons g gs ih => simp [dropAllowances, ih]

@[simp] theorem gather_mem (s : State) (t : Nat) : (gather s t).mem = s.mem := by
  simp [gather]

@[simp] theorem countCost_mem (s : State) (t g cost : Nat) : (countCost s t g cost).mem = s.mem := by
  simp [countCost]

@[simp] theorem noteStep_mem (s : State) (g : Nat) : (noteStep s g).mem = s.mem := by
  simp only [noteStep]
  split <;> simp

@[simp] theorem joinCask_mem (n : Nat) (s : State) (g : Nat) : (joinCask n s g).mem = s.mem := by
  simp [joinCask]

@[simp] theorem enableSegments_mem (s : State) (t n : Nat) : (enableSegments s t n).mem = s.mem :=
  mem_foldl (joinCask_mem _) _ _

@[simp] theorem spendFee_mem (s : State) (gs : List Nat) : (spendFee s gs).mem = s.mem := by
  simp [spendFee]

@[simp] theorem pay_mem (s : State) (g cost : Nat) : (pay s g cost).mem = s.mem := by
  unfold pay
  split
  · rfl
  · simp

@[simp] theorem refuse_mem (s : State) (g cost : Nat) : (refuse s g cost).mem = s.mem := by
  simp only [refuse]
  split <;> simp

@[simp] theorem restartBranches_mem (s : State) (mine : Nat → Bool) : (restartBranches s mine).mem = s.mem := by
  simp [restartBranches]

@[simp] theorem restartWatch_mem (s : State) (t : Nat) : (restartWatch s t).mem = s.mem := by
  simp [restartWatch]

@[simp] theorem addDrops_mem (s : State) (t g drops : Nat) : (addDrops s t g drops).mem = s.mem := by
  simp only [addDrops]
  split <;> simp

@[simp] theorem resetBank_wf (s : State) (b : Nat) (h : Memory.wf s.mem = true) : Memory.wf (resetBank s b).mem = true := by
  simp [resetBank, clearBytes_wf, h]

@[simp] theorem freeBank_wf (s : State) (b : Nat) (h : Memory.wf s.mem = true) : Memory.wf (freeBank s b).mem = true := by
  simp [freeBank, h]

@[simp] theorem vanishBank_wf (t : Nat) (s : State) (b : Nat) (h : Memory.wf s.mem = true) : Memory.wf (vanishBank t s b).mem = true := by
  simp only [vanishBank]
  split <;> (try split) <;> simp [h]

@[simp] theorem commitBank_mem (t : Nat) (next : Option Owner) (s : State) (b : Nat) : (commitBank t next s b).mem = s.mem := by
  simp only [commitBank]
  split <;> (try split) <;> simp

@[simp] theorem releaseGrove_mem (t : Nat) (s : State) (g : Nat) : (releaseGrove t s g).mem = s.mem := by
  simp [releaseGrove]

@[simp] theorem discardUnits_mem (t : Nat) (gs : List Nat) (s : State) : (discardUnits t gs s).mem = s.mem := by
  simp [discardUnits]

/-- A task's units, groves and remote resolves are given up without a write (the steps that vanish and commit share). -/
@[simp] theorem givenUp_mem (t serial : Nat) (commit : Bool) (gs ms : List Nat) (s : State) :
    (ms.foldl (fun s m => sendLink s m 2 3 (.resolve serial commit)) (gs.foldl (releaseGrove t) (discardUnits t gs s))).mem = s.mem := by
  simp [mem_foldl, mem_foldl (releaseGrove_mem t)]

@[simp] theorem drainCasks_mem (gs : List Nat) (n : Nat) (s : State) : (drainCasks gs n s).mem = s.mem := by
  induction gs generalizing n s with
  | nil => rfl
  | cons g gs ih => simp [drainCasks, ih]

@[simp] theorem settle_mem (s : State) (t : Nat) : (settle s t).mem = s.mem := by
  simp [settle]

@[simp] theorem entryEnded_mem (s : State) (k t : Nat) : (entryEnded s k t).mem = s.mem := by
  simp only [entryEnded]
  split <;> simp

@[simp] theorem parkReserved_wf (s : State) (c serial : Nat) (reset : Bool) (h : Memory.wf s.mem = true) :
    Memory.wf (parkReserved s c serial reset).mem = true := by
  refine wf_foldl (fun s b h => ?_) _ _ h
  split
  · exact freeBank_wf s b h
  · exact h

@[simp] theorem parkFor_wf (s : State) (d : Due) (h : Memory.wf s.mem = true) : Memory.wf (parkFor s d).mem = true := by
  simp only [parkFor]
  split <;> simp [h]

@[simp] theorem vanishTask_wf (s : State) (t cause ucode : Nat) (h : Memory.wf s.mem = true) : Memory.wf (vanishTask s t cause ucode).mem = true := by
  unfold vanishTask
  split
  · exact h
  · have hb (bs : List Nat) : Memory.wf (bs.foldl (vanishBank t) (settle s t)).mem = true :=
      wf_foldl (vanishBank_wf t) bs _ (by simp [h])
    simp [hb]

@[simp] theorem skipStart_wf (s : State) (e : Entry) (h : Memory.wf s.mem = true) : Memory.wf (skipStart s e).mem = true := by
  simp [skipStart, h]

@[simp] theorem supersede_wf (s : State) (t : Nat) (h : Memory.wf s.mem = true) : Memory.wf (supersede s t).mem = true := by
  simp only [supersede]
  split <;> simp [h]

@[simp] theorem wakeEntries_mem (s : State) : (wakeEntries s).mem = s.mem := by
  simp [wakeEntries]

@[simp] theorem entryDue_wf (s : State) (k start : Nat) (pred : Option Nat) (h : Memory.wf s.mem = true) : Memory.wf (entryDue s k start pred).mem = true := by
  have skip (s : State) (d : Due) (e : Entry) (h : Memory.wf s.mem = true) : Memory.wf (skipStart (parkFor s d) e).mem = true := by simp [h]
  simp only [entryDue]
  split
  · exact h
  · split
    · exact h
    · split
      · split
        · exact skip _ _ _ h
        · exact h
      · split
        · exact supersede_wf _ _ (wf_foldl (fun _ _ h => skip _ _ _ h) _ _ h)
        · exact wf_foldl (fun _ _ h => skip _ _ _ h) _ _ h
      · exact skip _ _ _ h

@[simp] theorem addVoid_mem (s : State) (t pa len : Nat) : (addVoid s t pa len).mem = s.mem := by
  simp [addVoid]

@[simp] theorem voidSectors_mem (t n k : Nat) (s : State) : (voidSectors t n k s).mem = s.mem := by
  induction k generalizing n s with
  | zero => rfl
  | succ k ih =>
    simp only [voidSectors, ih]
    split <;> simp

@[simp] theorem commitTag_wf (s : State) (t : Nat) (h : Memory.wf s.mem = true) : Memory.wf (commitTag s t).mem = true := by
  simp [commitTag, mem_foldl, h]

@[simp] theorem commitNow_wf (s : State) (t : Nat) (h : Memory.wf s.mem = true) : Memory.wf (commitNow s t).mem = true := by
  simp only [commitNow]
  split <;> split <;> (try split) <;> simp (disch := simp [mem_foldl (commitBank_mem t _), h])

/-! ### Causes and traps (Machine/Traps) -/

@[simp] theorem queueTrap_mem (s : State) (g : Nat) (r : TrapRec) : (queueTrap s g r).mem = s.mem := by
  simp [queueTrap]

@[simp] theorem machineCheck_wf (s : State) (g cause : Nat) (detail : Word) (h : Memory.wf s.mem = true) :
    Memory.wf (machineCheck s g cause detail).mem = true := by
  simp only [machineCheck]
  split <;> simp [h]

@[simp] theorem supervisorCause_wf (s : State) (g cause : Nat) (h : Memory.wf s.mem = true) : Memory.wf (supervisorCause s g cause).mem = true := by
  simp [supervisorCause, h]

@[simp] theorem stopUnit_mem (s : State) (u : Stopped) : (stopUnit s u).mem = s.mem := by
  cases u <;> rfl

@[simp] theorem raise_wf (s : State) (g : Nat) (r : TrapRec) (h : Memory.wf s.mem = true) : Memory.wf (raise s g r).mem = true := by
  simp only [raise]
  split <;> simp [h]

@[simp] theorem raiseSlot_wf (s : State) (e k n cause : Nat) (addr info : Word) (h : Memory.wf s.mem = true) :
    Memory.wf (raiseSlot s e k n cause addr info).mem = true := by
  simp [raiseSlot, h]

@[simp] theorem raiseNode_wf (s : State) (e slot cause : Nat) (h : Memory.wf s.mem = true) : Memory.wf (raiseNode s e slot cause).mem = true := by
  simp [raiseNode, h]

@[simp] theorem raiseAg_wf (s : State) (g n cause : Nat) (addr : Word) (h : Memory.wf s.mem = true) : Memory.wf (raiseAg s g n cause addr).mem = true := by
  simp [raiseAg, h]

@[simp] theorem raiseRouter_wf (s : State) (e cause : Nat) (h : Memory.wf s.mem = true) : Memory.wf (raiseRouter s e cause).mem = true := by
  simp [raiseRouter, h]

@[simp] theorem raiseFork_wf (s : State) (e : Nat) (c : BitVec 6) (cause : Nat) (mask : Word) (h : Memory.wf s.mem = true) :
    Memory.wf (raiseFork s e c cause mask).mem = true := by
  simp [raiseFork, h]

@[simp] theorem raiseSeq_wf (s : State) (g addr cause : Nat) (a info : Word) (word : IWord) (h : Memory.wf s.mem = true) :
    Memory.wf (raiseSeq s g addr cause a info word).mem = true := by
  simp only [raiseSeq]
  split <;> simp [h]

@[simp] theorem recordFault_mem (s : State) (g kind cause va c : Nat) : (recordFault s g kind cause va c).mem = s.mem := by
  simp only [recordFault]
  split <;> (try split) <;> simp

@[simp] theorem enterHandler_mem (s : State) (g : Nat) : (enterHandler s g).mem = s.mem := by
  simp only [enterHandler]
  split <;> simp

@[simp] theorem resend_mem (s : State) (u : UnitId) : (resend s u).mem = s.mem := by
  simp [resend]

@[simp] theorem resumeUnit_mem (s : State) (g : Nat) (u : Stopped) : (resumeUnit s g u).mem = s.mem := by
  unfold resumeUnit
  split
  · rfl
  · cases u <;> simp

@[simp] theorem restartStall_mem (s : State) (r : TrapRec) : (restartStall s r).mem = s.mem := by
  simp only [restartStall]
  split <;> simp

@[simp] theorem returnFromTrap_wf (s : State) (g : Nat) (h : Memory.wf s.mem = true) : Memory.wf (returnFromTrap s g).mem = true := by
  simp only [returnFromTrap]
  split <;> simp [h]

/-! ### Channels (Machine/Channels) -/

@[simp] theorem consumeCopy_mem (s : State) (tid : Nat) : (consumeCopy s tid).mem = s.mem := by
  simp only [consumeCopy]
  split <;> simp

@[simp] theorem splitCopy_mem (s : State) (tid n : Nat) : (splitCopy s tid n).mem = s.mem := by
  simp only [splitCopy]
  split <;> (try split) <;> simp

@[simp] theorem endExit_mem (s : State) (e ch : Nat) (t : Token) : (endExit s e ch t).mem = s.mem := by
  simp [endExit]

@[simp] theorem takeHead_mem (s : State) (e ch : Nat) (k : Option Nat) : (takeHead s e ch k).mem = s.mem := by
  simp only [takeHead]
  split <;> simp

@[simp] theorem noteHandMark_mem (s : State) (e ch : Nat) : (noteHandMark s e ch).mem = s.mem := by
  simp [noteHandMark, mem_foldl]

@[simp] theorem enqueueAs_mem (s : State) (e ch : Nat) (k : Nat) (t : Token) (tid : Nat) : (enqueueAs s e ch k t tid).mem = s.mem := by
  simp [enqueueAs]

@[simp] theorem enqueue_mem (s : State) (e ch k : Nat) (t : Token) : (enqueue s e ch k t).mem = s.mem := by
  simp [enqueue]

@[simp] theorem reservePlace_mem (s : State) (e ch k : Nat) (gen : BitVec 4) : (reservePlace s e ch k gen).1.mem = s.mem := by
  simp [reservePlace]

@[simp] theorem enqueueMarkers_mem (s : State) (e : Nat) (mark : BitVec 3) : (enqueueMarkers s e mark).mem = s.mem := by
  simp [enqueueMarkers, mem_foldl]

@[simp] theorem discardQueued_mem (s : State) (e : Nat) : (discardQueued s e).mem = s.mem := by
  simp [discardQueued, mem_foldl]

@[simp] theorem appendToken_mem (s : State) (e ch : Nat) (t : Token) : (appendToken s e ch t).mem = s.mem := by
  simp only [appendToken]
  split <;> (try split) <;> simp

@[simp] theorem appendDecoded_mem (s : State) (e ch tid : Nat) (ts : List Token) : (appendDecoded s e ch tid ts).mem = s.mem := by
  simp [appendDecoded, mem_foldl (appendToken_mem · e ch)]

@[simp] theorem appendClosed_mem (s : State) (e ch : Nat) (ts : List Token) : (appendClosed s e ch ts).mem = s.mem := by
  simp [appendClosed, mem_foldl]

@[simp] theorem decodeData_wf (s : State) (e ch : Nat) (t : Token) (h : Memory.wf s.mem = true) : Memory.wf (decodeData s e ch t).mem = true := by
  simp only [decodeData]
  split
  · split <;> simp [h]
  · split <;> simp [h]

@[simp] theorem arrive_wf (s : State) (e ch : Nat) (t : Token) (h : Memory.wf s.mem = true) : (arrive s e ch t).all (fun u => Memory.wf u.mem) = true := by
  simp [arrive, h]

@[simp] theorem crossLink_wf (s : State) (e : Nat) (side : Side) (vc : Nat) (t : Token) (parityBad : Bool) (h : Memory.wf s.mem = true) :
    (crossLink s e side vc t parityBad).all (fun u => Memory.wf u.mem) = true := by
  simp only [crossLink]
  split <;> simp [h]

@[simp] theorem pushBranch_mem (s : State) (k : Nat) (t : Token) : (pushBranch s k t).mem = s.mem := by
  simp [pushBranch]

@[simp] theorem popQueue_mem (s : State) (k : Nat) (q : HopQ) (rest : List Token) : (popQueue s k q rest).mem = s.mem := by
  simp only [popQueue]
  split <;> simp

@[simp] theorem forkToken_wf (s : State) (e : Nat) (bs : List (Option Side)) (t : Token) (h : Memory.wf s.mem = true) :
    (forkToken s e bs t).all (fun u => Memory.wf u.mem) = true := by
  simp [forkToken, mem_foldl, h]

@[simp] theorem hop_wf (s : State) (e : Nat) (q : HopQ) (parityBad : Bool) (h : Memory.wf s.mem = true) : Memory.wf (hop s e q parityBad).mem = true := by
  simp only [hop]
  split
  · exact h
  · refine wf_getD ?_ h
    split
    · rfl
    · split
      · rfl
      · simp [h]
      · split
        · simp [h]
        · split <;> simp [h]

@[simp] theorem deliver_wf (s : State) (e : Nat) (q : HopQ) (h : Memory.wf s.mem = true) : Memory.wf (deliver s e q).mem = true := by
  simp only [deliver]
  cases hq : s.tokens (queueKey e q) with
  | nil => exact h
  | cons t rest =>
    have ha := arrive_wf (popQueue s (queueKey e q) q rest) e (routeDch ((s.elem e).active.routeWord t.cls.toNat)) t (by simp [h])
    have hm (o : Option State) (ho : o.all (fun u => Memory.wf u.mem) = true) : Memory.wf ((o.map (fun u => u.noteArrival e)).getD s).mem = true := by
      cases o
      · exact h
      · simpa using ho
    dsimp only
    split <;> simp [hm _ ha, h]

/-! ### Requests served (Machine/Ports) -/

@[simp] theorem sendReq_mem (s : State) (r : Nat) : (sendReq s r).mem = s.mem := by
  simp only [sendReq]
  split <;> simp

@[simp] theorem resendReq_mem (s : State) (r : Nat) : (resendReq s r).mem = s.mem := by
  simp only [resendReq]
  split <;> (try split) <;> simp

@[simp] theorem retarget_mem (s : State) (u : UnitId) (r : Nat) (t : Target) (page size : Nat) : (retarget s u r t page size).mem = s.mem := by
  simp only [retarget]
  split <;> simp

@[simp] theorem voidWalk_mem (q : Req) (s : State) (xs : List (Nat × Nat)) : (voidWalk q s xs).1.mem = s.mem := by
  induction xs generalizing s with
  | nil => rfl
  | cons x xs ih =>
    have ht := translate_mem s (groveOfUnit q.src) (unitCtx s q.src) x.1
    simp only [voidWalk]
    split
    next hp => exact fst_mem ht hp
    next u _ _ hp =>
      have hu := fst_mem ht hp
      split
      · exact hu
      · split
        next hq => exact (fst_mem (ih u) hq).trans hu
        · exact (ih u).trans hu

@[simp] theorem requestParts_mem (s : State) (q : Req) (leaf : Word) (size : Nat) : (requestParts s q leaf size).1.mem = s.mem := by
  simp only [requestParts]
  split
  · rfl
  · simp
  · split <;> rfl

@[simp] theorem translated_mem (s : State) (r : Nat) (leaf : Word) (size : Nat) : (translated s r leaf size).mem = s.mem := by
  simp only [translated]
  split
  · rfl
  · split
    next hp => simp [fst_mem (requestParts_mem ..) hp]
    next hp => simp [fst_mem (requestParts_mem ..) hp]

@[simp] theorem noteChain_mem (s : State) (r : Nat) (q : Req) : (noteChain s r q).mem = s.mem := by
  simp only [noteChain]
  split <;> (try split) <;> simp

@[simp] theorem releaseJoins_mem (s : State) (u : UnitId) (k : BitVec 2) : (releaseJoins s u k).mem = s.mem := by
  simp [releaseJoins]

@[simp] theorem addReq_mem (s : State) (q : Req) (c : AddrClass) : (addReq s q c).mem = s.mem := by
  simp only [addReq]
  split <;> split <;> (try split) <;> simp

@[simp] theorem setPresence_mem (s : State) (e off : Nat) (full : Bool) (n : Nat) : (setPresence s e off full n).mem = s.mem := by
  induction n generalizing s off with
  | zero => rfl
  | succ n ih => simp [setPresence, ih]

@[simp] theorem noteWritten_mem (s : State) (e off : Nat) : (noteWritten s e off).mem = s.mem := by
  simp [noteWritten]

@[simp] theorem fillTag_mem (s : State) (e : Nat) (d : Desc) (off : Nat) : (fillTag s e d off).mem = s.mem := by
  simp [fillTag]

@[simp] theorem setTag_mem (s : State) (e : Nat) (d : Desc) (i : Nat) (full : Bool) : (setTag s e d i full).mem = s.mem := by
  simp [setTag]

@[simp] theorem putWord_wf (s : State) (e off : Nat) (v : Word) (m : WordMeta) (h : Memory.wf s.mem = true) : Memory.wf (putWord s e off v m).mem = true := by
  simp [putWord, setWord_wf, h]

@[simp] theorem voidWords_wf (s : State) (e off n : Nat) (h : Memory.wf s.mem = true) : Memory.wf (voidWords s e off n).mem = true := by
  induction n generalizing s off with
  | zero => exact h
  | succ n ih => simp [voidWords, ih, h]

@[simp] theorem voidWindows_mem (s : State) (e off len : Nat) : (voidWindows s e off len).mem = s.mem := by
  refine mem_foldl (fun s d => ?_) _ s
  split
  · simp
  · rfl

theorem putWords_wf {m : Memory} (a : Nat) (ws : List (Option Word)) (h : Memory.wf m = true) : Memory.wf (putWords m a ws) = true := by
  induction ws generalizing m a with
  | nil => exact h
  | cons w ws ih =>
    cases w with
    | none => exact ih (a + 8) h
    | some w => exact ih (a + 8) (setWord_wf a w h)

@[simp] theorem storedBytes_wf (m : Memory) (a : Nat) (q : Req) (h : Memory.wf m = true) : Memory.wf (storedBytes m a q) = true := by
  unfold storedBytes
  split
  · exact putWords_wf a _ h
  · exact writeBytes_wf a _ _ h

@[simp] theorem putSector_wf (s : State) (pa : Nat) (q : Req) (m : SectorMeta) (empty : Bool) (h : Memory.wf s.mem = true) :
    Memory.wf (putSector s pa q m empty).mem = true := by
  cases empty <;> simp [putSector, clearBytes_wf, h]

@[simp] theorem sendRequest_mem (s : State) (q : Req) (m pa rid : Nat) (op : RemoteOp) : (sendRequest s q m pa rid op).mem = s.mem := by
  simp [sendRequest]

@[simp] theorem addResolving_mem (s : State) (q : Req) (m : Nat) : (addResolving s q m).mem = s.mem := by
  simp [addResolving]

@[simp] theorem emptySectors_mem (s : State) (ns : List Nat) : (emptySectors s ns).mem = s.mem := by
  refine mem_foldl (fun s n => ?_) ns s
  split <;> rfl

@[simp] theorem noteServed_mem (s : State) (q : Req) : (noteServed s q).mem = s.mem := by
  simp only [noteServed]
  split <;> simp

@[simp] theorem replyArrives_mem (s : State) (q : Req) : (replyArrives s q).mem = s.mem := by
  simp only [replyArrives]
  split <;> simp

@[simp] theorem finishReq_mem (s : State) (r : Nat) (q : Req) (v : Word) (f : Flags) : (finishReq s r q v f).mem = s.mem := by
  simp [finishReq]

@[simp] theorem failReq_mem (s : State) (r : Nat) (q : Req) (cause : Nat) : (failReq s r q cause).mem = s.mem := by
  simp [failReq]

@[simp] theorem leavePort_mem (s : State) (r : Nat) (q : Req) : (leavePort s r q).mem = s.mem := by
  simp [leavePort]

@[simp] theorem deferReq_mem (s : State) (r : Nat) (q : Req) : (deferReq s r q).mem = s.mem := by
  unfold deferReq
  split <;> simp

@[simp] theorem servePlain_wf (s : State) (q : Req) (e off mode acn : Nat) (h : Memory.wf s.mem = true) : (servePlain s q e off mode acn).wf = true := by
  simp only [servePlain]
  split <;> simp [writeBytes_wf, h]

@[simp] theorem serveFifo_wf (s : State) (q : Req) (e off : Nat) (d : Desc) (h : Memory.wf s.mem = true) : (serveFifo s q e off d).wf = true := by
  simp only [serveFifo]
  split
  · rfl
  · split <;> simp [h]

@[simp] theorem serveLine_wf (s : State) (q : Req) (e off : Nat) (d : Desc) (h : Memory.wf s.mem = true) : (serveLine s q e off d).wf = true := by
  simp only [serveLine]
  split <;> simp [h]

/-- A tile's tag is filled after a served request without a write. -/
theorem fillTag_served_wf {o : Served} (e : Nat) (d : Desc) (off : Nat) (h : o.wf = true) :
    (match o with
      | .ok s v f => Served.ok (fillTag s e d off) v f
      | r => r).wf = true := by
  cases o with
  | ok s v f => simpa using h
  | part s l => exact h
  | defer => rfl
  | wait => rfl
  | fail k => rfl

@[simp] theorem serveTiled_wf (s : State) (q : Req) (e off : Nat) (d : Desc) (h : Memory.wf s.mem = true) : (serveTiled s q e off d).wf = true := by
  have hp : (servePlain s q e off (winMode d) (winAcn d)).wf = true := servePlain_wf _ _ _ _ _ _ h
  unfold serveTiled
  extract_lets
  split
  · simp [h]
  · simp [h]
  · split
    · rfl
    · exact fillTag_served_wf e d off hp
  · exact fillTag_served_wf e d off hp
  · exact fillTag_served_wf e d off hp
  · rfl
  · rfl
  · exact hp

theorem byHolder_wf (s : State) (q : Req) (o : Served) (h : o.wf = true) : (Served.byHolder s q o).wf = true := by
  cases o <;> simp_all [Served.byHolder]

@[simp] theorem serveBank_wf (s : State) (q : Req) (e off : Nat) (h : Memory.wf s.mem = true) : (serveBank s q e off).wf = true := by
  refine byHolder_wf s q _ ?_
  split
  · simp [h]
  · split
    · simp [h]
    · split
      · simp [h]
      · split
        · simp [h]
        · split <;> simp [h]

@[simp] theorem serveVoid_wf (s : State) (q : Req) (len : Nat) (h : Memory.wf s.mem = true) : (serveVoid s q len).wf = true := by
  unfold serveVoid
  extract_lets finish waits parts here away rids t ns
  have hf (s : State) (l : List Left) (h : Memory.wf s.mem = true) : (finish s l).wf = true := by simp [finish, h]
  have ht : t.mem = s.mem := by simp [t, mem_foldl]
  split
  · exact hf _ _ (by simp [h])
  · split
    · rfl
    · split
      · rfl
      · split
        · exact hf _ _ (by simp [ht, h])
        · exact hf _ _ (by simp [mem_foldl, ht, h])

@[simp] theorem serveHbm_wf (s : State) (q : Req) (pa : Nat) (h : Memory.wf s.mem = true) : (serveHbm s q pa).wf = true := by
  unfold serveHbm
  extract_lets n value tent store
  have hs (m : SectorMeta) (empty : Bool) : (store s m empty).wf = true := by simp [store, h]
  split
  · rfl
  · split
    · split
      · exact h
      · split <;> simp [h]
    · split
      · split <;> simp [hs]
      · split <;> simp [hs]
    · exact serveVoid_wf _ _ _ h
    · exact h
    · rfl

@[simp] theorem serveHost_wf (s : State) (q : Req) (vf a : Nat) (h : Memory.wf s.mem = true) : (serveHost s q vf a).wf = true := by
  unfold serveHost
  split
  · rfl
  · split <;> simp [h]

@[simp] theorem serveAt_wf (s : State) (q : Req) (h : Memory.wf s.mem = true) : (serveAt s q).wf = true := by
  unfold serveAt
  split
  · exact serveBank_wf _ _ _ _ h
  · exact serveHbm_wf _ _ _ h
  · exact serveHost_wf _ _ _ _ h
  · split
    · exact serveVoid_wf _ _ _ h
    · rfl

@[simp] theorem applyServed_wf (s : State) (r : Nat) (q : Req) (o : Served) (h : Memory.wf s.mem = true) (ho : o.wf = true) :
    Memory.wf (applyServed s r q o).mem = true := by
  unfold applyServed
  split
  · simpa using ho
  · simp [h]
  · exact h
  · have ht : Memory.wf _ = true := ho
    simp [ht, h]
  · simp [h]

/-! ### Flags and causes of a word (Machine/Flags) -/

@[simp] theorem pastWord_mem (s : State) (g a : Nat) : (pastWord s g a).mem = s.mem := by
  simp [pastWord]

@[simp] theorem causeAt_wf (s : State) (cause : Nat) (addr info : Word) (h : Memory.wf s.mem = true) : Memory.wf (causeAt s cause addr info).mem = true := by
  unfold causeAt
  split
  · exact raiseSlot_wf _ _ _ _ _ _ _ h
  · split <;> simp [h]

@[simp] theorem orSticky_mem (s : State) (f : Flags) : (orSticky s f).mem = s.mem := by
  simp only [orSticky]
  split <;> simp

@[simp] theorem flagCause_wf (s : State) (f : Flags) (h : Memory.wf s.mem = true) : Memory.wf (flagCause s f).mem = true := by
  simp only [flagCause]
  split <;> simp [h]

@[simp] theorem raiseFlags_wf (s : State) (f : Flags) (h : Memory.wf s.mem = true) : Memory.wf (raiseFlags s f).mem = true := by
  simp [raiseFlags, h]

/-! ### Issue: every word goes through issueWord (Machine/Operands) -/

@[simp] theorem setPred_mem (s : State) (k : Nat) (v : Bool) : (setPred s k v).mem = s.mem := by
  simp only [setPred]
  split <;> simp

@[simp] theorem consume_mem (s : State) (chs : List Nat) : (consume s chs).mem = s.mem := by
  simp only [consume]
  repeat' split
  all_goals simp [mem_foldl]

@[simp] theorem advance_mem (s : State) (i : Instr) : (advance s i).mem = s.mem := by
  simp only [advance]
  split <;> simp

@[simp] theorem advanceArb_mem (s : State) : (advanceArb s).mem = s.mem := by
  simp only [advanceArb]
  split <;> simp

@[simp] theorem payWord_mem (s : State) (cost : Nat) : (payWord s cost).mem = s.mem := by
  unfold payWord
  split
  · extract_lets t n u
    have ht : t.mem = s.mem := by
      simp only [t]
      split <;> simp
    split <;> simp [u, ht]
  · simp

@[simp] theorem raiseIllegal_wf (s : State) (detail : Nat) (h : Memory.wf s.mem = true) : Memory.wf (raiseIllegal s detail).mem = true := by
  simp [raiseIllegal, h]

@[simp] theorem issued_mem (s : State) (i : Instr) : (issued s i).mem = s.mem := by
  simp [issued]

@[simp] theorem keepPaid_mem (s : State) (c : Nat) : (keepPaid s c).mem = s.mem := by
  simp only [keepPaid]
  split <;> simp

@[simp] theorem conclude_wf (s : State) (i : Instr) (o : Effect) (h : Memory.wf s.mem = true) (ho : o.wf = true) : Memory.wf (conclude s i o).mem = true := by
  cases o with
  | done t f =>
    have ht : Memory.wf t.mem = true := ho
    simp [conclude, h, ht]
  | cause c a info => simp [conclude, h]

@[simp] theorem notIssued_wf (s : State) (i : Instr) (h : Memory.wf s.mem = true) : Memory.wf (notIssued s i).mem = true := by
  simp only [notIssued]
  split <;> simp [h]

/-- A word keeps the canonical form where its effect does. -/
theorem issueWord_wf (i : Instr) (s : State) (effect : State → State → Effect) (h : Memory.wf s.mem = true)
    (he : ∀ t, Memory.wf t.mem = true → (effect s t).wf = true) : outcomeWf (issueWord i s effect) = true := by
  have hi := he (issued s i) (by simp [h])
  unfold issueWord
  split
  · exact conclude_wf s i _ h hi
  · exact notIssued_wf s i h

@[simp] theorem sendToken_mem (s : State) (c : BitVec 6) (t : Token) : (sendToken s c t).mem = s.mem := by
  simp only [sendToken]
  split <;> simp

@[simp] theorem writeReg_mem (s : State) (c : BitVec 6) (v : Word) : (writeReg s c v).mem = s.mem := by
  simp only [writeReg]
  split <;> simp

@[simp] theorem writeDst_mem (s : State) (c : BitVec 6) (v : Option Word) : (writeDst s c v).mem = s.mem := by
  simp only [writeDst]
  split <;> (try split) <;> simp

theorem compute1_wf (i : Instr) (s : State) (d a : BitVec 6) (f : Word → Word) (h : Memory.wf s.mem = true) : outcomeWf (compute1 i s d a f) = true :=
  issueWord_wf _ _ _ h (fun _ ht => by simp [ht])

theorem compute2_wf (i : Instr) (s : State) (d a b : BitVec 6) (f : Word → Word → Word) (h : Memory.wf s.mem = true) :
    outcomeWf (compute2 i s d a b f) = true :=
  issueWord_wf _ _ _ h (fun _ ht => by simp [ht])

/-! ### Extents (Machine/Extents) -/

@[simp] theorem patchExtent_mem (s : State) (g n va : Nat) : (patchExtent s g n va).1.mem = s.mem := by
  unfold patchExtent
  split
  · rfl
  · split
    next hp => exact fst_mem (translate_mem ..) hp
    next u _ _ hp =>
      have hu : u.mem = s.mem := fst_mem (translate_mem ..) hp
      exact hu

@[simp] theorem agTranslate_mem (s : State) (g n va : Nat) (write sup : Bool) : (agTranslate s g n va write sup).1.mem = s.mem := by
  unfold agTranslate
  split
  next hp => exact fst_mem (patchExtent_mem ..) hp
  next hp =>
    extract_lets
    split <;> exact fst_mem (patchExtent_mem ..) hp

@[simp] theorem checkWrites_mem (s : State) (g n : Nat) (sup : Bool) (vas : List Nat) : (checkWrites s g n sup vas).1.mem = s.mem := by
  have hf (p : State × WriteCheck) : (vas.foldl (fun (acc : State × WriteCheck) va =>
      ((agTranslate acc.1 g n va true sup).1, acc.2.add va (agTranslate acc.1 g n va true sup).2)) p).1.mem = p.1.mem := by
    induction vas generalizing p with
    | nil => rfl
    | cons va vas ih => exact (ih _).trans (agTranslate_mem ..)
  exact hf (s, {})

@[simp] theorem dropExtent_mem (s : State) (g n va : Nat) : (dropExtent s g n va).mem = s.mem := by
  simp [dropExtent]

@[simp] theorem invalidate_mem (s0 s1 : State) (va : Option Nat) : (invalidate s0 s1 va).mem = s1.mem := by
  unfold invalidate
  extract_lets c
  exact mem_foldl (f := invalidateGrove c va) (fun _ _ => rfl) _ _

theorem execTlbinv_wf (t a : BitVec 6) (s : State) (h : Memory.wf s.mem = true) : outcomeWf (execTlbinv t a s) = true :=
  issueWord_wf _ _ _ h (fun _ ht => by simp [ht])

theorem execTlbinva_wf (t : BitVec 6) (s : State) (h : Memory.wf s.mem = true) : outcomeWf (execTlbinva t s) = true :=
  issueWord_wf _ _ _ h (fun _ ht => by simp [ht])

theorem execAgpause_wf (t a : BitVec 6) (s : State) (h : Memory.wf s.mem = true) : outcomeWf (execAgpause t a s) = true :=
  issueWord_wf _ _ _ h (fun _ ht => by simp [ht])

theorem execAgpatch_wf (t a : BitVec 6) (s : State) (h : Memory.wf s.mem = true) : outcomeWf (execAgpatch t a s) = true :=
  issueWord_wf _ _ _ h (fun _ ht => by simp [ht])

theorem execFltack_wf (t a : BitVec 6) (s : State) (h : Memory.wf s.mem = true) : outcomeWf (execFltack t a s) = true :=
  issueWord_wf _ _ _ h (fun _ ht => by simp [ht])

/-! ### Stream commands (Machine/Streams) -/

@[simp] theorem commandFault_mem (s : State) (k va : Nat) : (commandFault s k va).mem = s.mem := by
  simp [commandFault]

@[simp] theorem queueCmd_mem (s : State) (g n : Nat) (c : AgCmd) : (queueCmd s g n c).mem = s.mem := by
  simp [queueCmd]

@[simp] theorem nextCommand_mem (s : State) (g : Nat) : (nextCommand s g).mem = s.mem := by
  simp [nextCommand]

theorem execSpat_wf (t a b : BitVec 6) (ag : BitVec 9) (s : State) (h : Memory.wf s.mem = true) : outcomeWf (execSpat t a b ag s) = true :=
  issueWord_wf _ _ _ h (fun _ ht => by simp [ht])

theorem withRecord_wf (s : State) (o : Host.Outcome State Fault Refusal) (effect : Effect) (ho : outcomeWf o = true) :
    outcomeWf (withRecord s o effect) = true := by
  unfold withRecord
  split
  · split
    · simpa using ho
    · exact ho
  · exact ho

theorem streamWord_wf (i : Instr) (s : State) (effect : State → State → Effect) (h : Memory.wf s.mem = true)
    (he : ∀ t, Memory.wf t.mem = true → (effect s t).wf = true) : outcomeWf (streamWord i s effect) = true := by
  unfold streamWord
  split
  · exact withRecord_wf _ _ _ (issueWord_wf i s effect h he)
  · exact issueWord_wf i s effect h he

theorem execSbind_wf (t a : BitVec 6) (ag : BitVec 9) (ch : BitVec 5) (inb sector : BitVec 1) (s : State) (h : Memory.wf s.mem = true) :
    outcomeWf (execSbind t a ag ch inb sector s) = true := by
  refine streamWord_wf _ _ _ h (fun u hu => ?_)
  dsimp only
  split
  · split
    next hp => simp [fst_mem (patchExtent_mem ..) hp, hu]
    · rfl
  · simp [hu]

/-- A command that is queued after the check of its writes keeps the canonical form. -/
@[simp] theorem queueChecked_wf (s : State) (g n : Nat) (c : AgCmd) (span : Option (Nat × Nat)) (h : Memory.wf s.mem = true) :
    (queueChecked s g n c span).wf = true := by
  unfold queueChecked
  split
  · simp [h]
  · split
    next hp => simp [fst_mem (checkWrites_mem ..) hp, h]
    · rfl

theorem execSgo_wf (t : BitVec 6) (ag : BitVec 9) (k : BitVec 2) (push : BitVec 1) (pfifo : BitVec 4) (pop : BitVec 1) (qfifo : BitVec 4)
    (s : State) (h : Memory.wf s.mem = true) :
    outcomeWf (execSgo t ag k push pfifo pop qfifo s) = true :=
  streamWord_wf _ _ _ h (fun _ hu => by simp [hu])

theorem execSwait_wf (t : BitVec 6) (ag : BitVec 9) (s : State) (h : Memory.wf s.mem = true) : outcomeWf (execSwait t ag s) = true :=
  issueWord_wf _ _ _ h (fun _ ht => by simp [ht])

theorem execSbar_wf (t : BitVec 6) (s : State) (h : Memory.wf s.mem = true) : outcomeWf (execSbar t s) = true :=
  issueWord_wf _ _ _ h (fun _ ht => by simp [ht])

theorem execScopy_wf (t a b : BitVec 6) (ag : BitVec 9) (push : BitVec 1) (pfifo : BitVec 4) (pop : BitVec 1) (qfifo : BitVec 4)
    (s : State) (h : Memory.wf s.mem = true) :
    outcomeWf (execScopy t a b ag push pfifo pop qfifo s) = true := by
  refine streamWord_wf _ _ _ h (fun u hu => ?_)
  extract_lets g n src len c patched
  have hp : patched.1.mem = u.mem := by
    simp only [patched]
    split <;> simp
  clear_value patched
  split
  · rfl
  · obtain ⟨v, r⟩ := patched
    cases r <;> simp_all

theorem execSgath_wf (t : BitVec 6) (ag : BitVec 9) (ch : BitVec 5) (fwdend push : BitVec 1) (pfifo : BitVec 4) (pop : BitVec 1) (qfifo : BitVec 4)
    (s : State) (h : Memory.wf s.mem = true) : outcomeWf (execSgath t ag ch fwdend push pfifo pop qfifo s) = true :=
  streamWord_wf _ _ _ h (fun _ ht => by simp [ht])

theorem execSscat_wf (t : BitVec 6) (ag : BitVec 9) (ch : BitVec 5) (push : BitVec 1) (pfifo : BitVec 4) (pop : BitVec 1) (qfifo : BitVec 4)
    (s : State) (h : Memory.wf s.mem = true) : outcomeWf (execSscat t ag ch push pfifo pop qfifo s) = true :=
  streamWord_wf _ _ _ h (fun _ ht => by simp [ht])

theorem pairWord_wf (i : Instr) (s : State) (d : BitVec 6) (ag : BitVec 9) (merge : Bool) (push : BitVec 1) (pfifo : BitVec 4)
    (pop : BitVec 1) (qfifo : BitVec 4) (h : Memory.wf s.mem = true) :
    outcomeWf (pairWord i s d ag merge push pfifo pop qfifo) = true :=
  streamWord_wf _ _ _ h (fun _ ht => by simp [ht])

/-! ### Moves of AGs (Machine/AgMoves) -/

@[simp] theorem modHead_mem (s : State) (g n : Nat) (f : AgCmd → AgCmd) : (modHead s g n f).mem = s.mem := by
  simp [modHead]

@[simp] theorem agFault_wf (s : State) (g n k : Nat) (a : Word) (write : Bool) (h : Memory.wf s.mem = true) :
    Memory.wf (agFault s g n k a write).mem = true := by
  simp [agFault, h]

@[simp] theorem payBurst_mem (s : State) (g n : Nat) (c : AgCmd) : (payBurst s g n c).1.mem = s.mem := by
  simp only [payBurst]
  split_ifs <;> simp

@[simp] theorem checkBurst_wf (s : State) (g n : Nat) (c : AgCmd) (writes : List Word) (h : Memory.wf s.mem = true) :
    Memory.wf (checkBurst s g n c writes).1.mem = true := by
  unfold checkBurst
  split
  · exact h
  · split
    next hp => simp [fst_mem (checkWrites_mem ..) hp, h]
    next hp => simp [fst_mem (checkWrites_mem ..) hp, h]

@[simp] theorem startBurst_wf (s : State) (g n : Nat) (c : AgCmd) (a : Option Word) (h : Memory.wf s.mem = true) :
    Memory.wf (startBurst s g n c a).1.mem = true := by
  have hp {u : State} {b : Bool} (hp : payBurst s g n c = (u, b)) : Memory.wf u.mem = true := by
    rw [fst_mem (payBurst_mem ..) hp]
    exact h
  unfold startBurst
  split_ifs
  · exact h
  · split
    next heq => exact hp heq
    next heq => exact hp heq
  · split
    next heq => exact hp heq
    next heq => split <;> simp [hp heq]

@[simp] theorem agTarget_mem (s : State) (g n : Nat) (a : Word) (write sup : Bool) : (agTarget s g n a write sup).1.mem = s.mem := by
  unfold agTarget
  split
  · rfl
  · split
    · rfl
    · rfl
    · split
      next hp => exact fst_mem (agTranslate_mem ..) hp
      next hp => exact fst_mem (agTranslate_mem ..) hp

@[simp] theorem accessTarget_mem (s : State) (g n : Nat) (c : AgCmd) (a : Word) : (accessTarget s g n c a).1.mem = s.mem := by
  simp only [accessTarget]
  split <;> simp

@[simp] theorem makeAccess_wf (s : State) (g n : Nat) (c : AgCmd) (a : Word) (words : List (Option Word)) (h : Memory.wf s.mem = true) :
    Memory.wf (makeAccess s g n c a words).1.mem = true := by
  unfold makeAccess
  extract_lets write
  split
  next hp => simp [fst_mem (accessTarget_mem ..) hp, h]
  next hp => simp [fst_mem (accessTarget_mem ..) hp, h]

@[simp] theorem startCmd_mem (s : State) (g n : Nat) : (startCmd s g n).mem = s.mem := by
  unfold startCmd
  split
  · split_ifs
    · rfl
    · extract_lets heads tokens t
      have ht : t.mem = s.mem := by
        simp only [t]
        split <;> simp
      split <;> simp [mem_foldl, ht]
  · rfl

theorem agEnqueue_mem {s u : State} {g n : Nat} {c : AgCmd} (hu : agEnqueue s g n c = some u) : u.mem = s.mem := by
  unfold agEnqueue at hu
  split at hu
  · contradiction
  · obtain ⟨-, hu⟩ := Option.ite_none_right_eq_some.mp hu
    simp [← Option.some.inj hu]

@[simp] theorem readStep_wf (s : State) (g n : Nat) (c : AgCmd) (h : Memory.wf s.mem = true) : Memory.wf (readStep s g n c).mem = true := by
  unfold readStep
  split
  · exact h
  · split
    next hp => exact fst_wf (startBurst_wf _ _ _ _ _ h) hp
    next hp =>
      have hu := fst_wf (startBurst_wf _ _ _ _ _ h) hp
      split <;> simp [hu]

@[simp] theorem copyStep_wf (s : State) (g n : Nat) (c : AgCmd) (h : Memory.wf s.mem = true) : Memory.wf (copyStep s g n c).mem = true := by
  unfold copyStep
  split_ifs
  · exact h
  · exact readStep_wf _ _ _ _ h
  · exact h
  · split
    next hp => exact fst_wf (startBurst_wf _ _ _ _ _ h) hp
    next hp =>
      have hu := fst_wf (startBurst_wf _ _ _ _ _ h) hp
      split <;> simp [hu]

@[simp] theorem agTake_mem (s : State) (e ch : Nat) : (agTake s e ch).mem = s.mem := by
  simp [agTake]

@[simp] theorem takeToken_mem (s : State) (g e ch : Nat) (t : Token) : (takeToken s g e ch t).mem = s.mem := by
  simp [takeToken]

@[simp] theorem flushSector_wf (s : State) (g n : Nat) (h : Memory.wf s.mem = true) : Memory.wf (flushSector s g n).1.mem = true := by
  unfold flushSector
  split
  · exact h
  · next c _ =>
    have ha := makeAccess_wf s g n c (plannedAddr c c.next) c.buffer h
    split
    · simp [h]
    · split
      next hp => simp [fst_wf ha hp]
      · exact ha

@[simp] theorem writeStep_wf (s : State) (g n : Nat) (c : AgCmd) (h : Memory.wf s.mem = true) : Memory.wf (writeStep s g n c).mem = true := by
  simp only [writeStep]
  split
  · exact h
  · split
    · simp [h]
    · split
      · exact h
      · next t _ =>
        split
        · exact h
        · split
          · split
            · simp [h]
            · split
              next hp => simp [fst_wf (flushSector_wf _ _ _ h) hp]
              next hp => exact fst_wf (flushSector_wf _ _ _ h) hp
          · split
            · simp [h]
            · split
              next hp => exact fst_wf (startBurst_wf _ _ _ _ _ h) hp
              next hp =>
                have hu := fst_wf (startBurst_wf _ _ _ _ _ h) hp
                split
                · simp [hu]
                · split
                  · split
                    next hq => simp [fst_wf (makeAccess_wf _ _ _ _ _ _ hu) hq]
                    next hq => exact fst_wf (makeAccess_wf _ _ _ _ _ _ hu) hq
                  · simp [hu]

@[simp] theorem gatherStep_wf (s : State) (g n : Nat) (c : AgCmd) (ch : BitVec 5) (fwdend : Bool) (h : Memory.wf s.mem = true) :
    Memory.wf (gatherStep s g n c ch fwdend).mem = true := by
  simp only [gatherStep]
  split
  · exact h
  · split
    · exact h
    · split
      · exact h
      · split
        · simp [h]
        · split
          · simp [h]
          · split
            next hp => exact fst_wf (startBurst_wf _ _ _ _ _ h) hp
            next hp =>
              have hu := fst_wf (startBurst_wf _ _ _ _ _ h) hp
              split
              · exact hu
              · split
                · split
                  next hq => simp [fst_wf (makeAccess_wf _ _ _ _ _ _ hu) hq]
                  next hq => exact fst_wf (makeAccess_wf _ _ _ _ _ _ hu) hq
                · simp [hu]

@[simp] theorem flushPair_wf (s : State) (g n : Nat) (c : AgCmd) (h : Memory.wf s.mem = true) : Memory.wf (flushPair s g n c).mem = true := by
  unfold flushPair
  split
  · exact h
  · simp [h]
  · split
    · split
      next hp => exact fst_wf (checkBurst_wf _ _ _ _ _ h) hp
      next hp =>
        have hu := fst_wf (checkBurst_wf _ _ _ _ _ h) hp
        split
        next hq => simp [fst_wf (makeAccess_wf _ _ _ _ _ _ hu) hq]
        next hq => exact fst_wf (makeAccess_wf _ _ _ _ _ _ hu) hq
    · exact h

@[simp] theorem scatterStep_collect_mem (g n : Nat) (ch : BitVec 5) (s : State) (i d : Token) (c : AgCmd) :
    (scatterStep.collect g n ch s i d c).mem = s.mem := by
  simp [scatterStep.collect]

@[simp] theorem scatterStep_wf (s : State) (g n : Nat) (c : AgCmd) (ch : BitVec 5) (h : Memory.wf s.mem = true) :
    Memory.wf (scatterStep s g n c ch).mem = true := by
  simp only [scatterStep]
  split
  · exact flushPair_wf _ _ _ _ h
  · split
    · exact h
    · split
      · split
        · exact h
        · split
          · simp [h]
          · split
            · simp [h]
            · split
              · split <;> simp [h]
              · split
                · exact h
                · split
                  · simp [h]
                  · split
                    next hp => simp [fst_mem (payBurst_mem ..) hp, h]
                    next u hp =>
                      have hu : u.mem = s.mem := fst_mem (payBurst_mem ..) hp
                      split <;> simp [hu, h]
      · exact h

@[simp] theorem agStep_wf (s : State) (g n : Nat) (c : AgCmd) (h : Memory.wf s.mem = true) : Memory.wf (agStep s g n c).mem = true := by
  simp only [agStep]
  split <;> simp [h]

theorem execAgAccess_wf (g ag : Nat) (s : State) (h : Memory.wf s.mem = true) : outcomeWf (execAgAccess g ag s) = true := by
  have hs : Memory.wf (startCmd s g ag).mem = true := by simp [h]
  simp only [execAgAccess, outcomeWf_next]
  split
  · split
    · exact hs
    · split
      next hu => simp [agEnqueue_mem hu, h]
      · exact agStep_wf _ _ _ _ hs
  · exact hs

@[simp] theorem storeReply_mem (s : State) (g n : Nat) (q : Req) (v : Word) : (storeReply s g n q v).mem = s.mem := by
  simp [storeReply]

theorem emitKey_mem {s u : State} {g n och : Nat} {sup : Bool} {t : Token} {cost : Nat} (hu : emitKey s g n och sup t cost = some u) : u.mem = s.mem := by
  simp only [emitKey] at hu
  split_ifs at hu <;> simp [← Option.some.inj hu]

@[simp] theorem refuseEmit_mem (s : State) (g n och : Nat) (sup : Bool) (cost : Nat) : (refuseEmit s g n och sup cost).mem = s.mem := by
  simp [refuseEmit]

@[simp] theorem mergeStep_mem (s : State) (g n : Nat) (d : Desc) (merge : Bool) (a b : AgCmd) : (mergeStep s g n d merge a b).mem = s.mem := by
  unfold mergeStep
  extract_lets och drop emit
  have hd (x y : Bool) (u : State) : (drop x y u).mem = u.mem := by simp [drop]
  have he (v : Word) (x y : Bool) : (emit v x y).mem = s.mem := by
    simp only [emit]
    split
    next hu => simp [hd, emitKey_mem hu]
    · simp
  split
  · split
    · exact he _ _ _
    · split <;> split <;> simp [hd, he]
  · split <;> simp [he]
  · split <;> simp [he]
  · simp

@[simp] theorem closeSet_mem (s : State) (g n : Nat) (d : Desc) (a : AgCmd) : (closeSet s g n d a).mem = s.mem := by
  simp only [closeSet]
  split
  · split
    · split
      next hu => simp [emitKey_mem hu]
      · simp
    · simp
  · split
    · split
      next hu => simp [emitKey_mem hu]
      · rfl
    · rfl

theorem takeStep_wf {s u : State} {g n m : Nat} {c : AgCmd} (h : Memory.wf s.mem = true) (hu : takeStep s g n m c = some u) : Memory.wf u.mem = true := by
  unfold takeStep at hu
  split at hu
  · contradiction
  · simp [← Option.some.inj hu, h]

theorem execSparseSetStep_wf (g ag : Nat) (s : State) (h : Memory.wf s.mem = true) : outcomeWf (execSparseSetStep g ag s) = true := by
  have hs : Memory.wf (startCmd s g ag).mem = true := by simp [h]
  simp only [execSparseSetStep, outcomeWf_next]
  split
  · split
    · split
      · split
        · split
          next hu => exact takeStep_wf hs hu
          · split_ifs
            · exact hs
            · simp [h]
            · split
              next hu => exact takeStep_wf hs hu
              · simp [h]
            · split
              next hu => exact takeStep_wf hs hu
              · simp [h]
        · simp [h]
      · exact hs
    · exact hs
  · exact hs

@[simp] theorem setResult_mem (s : State) (g : Nat) (c : AgCmd) (d : BitVec 6) : (setResult s g c d).mem = s.mem := by
  simp [setResult]

theorem execStreamCommandRetire_wf (g ag : Nat) (s : State) (h : Memory.wf s.mem = true) : outcomeWf (execStreamCommandRetire g ag s) = true := by
  unfold execStreamCommandRetire
  rw [outcomeWf_next]
  split
  · exact h
  · extract_lets room s₁ s₂ s₃ wake
    have h₁ : s₁.mem = s.mem := by
      simp only [s₁]
      split <;> simp
    have h₃ : s₃.mem = s.mem := by
      simp only [s₃]
      split <;> simp [s₂, h₁]
    split_ifs
    · simp [h₃, h]
    · exact h

/-! ### Loads, stores and tags (Machine/Memory) -/

@[simp] theorem replyDest_mem (s0 s1 : State) (d : BitVec 6) : (replyDest s0 s1 d).1.mem = s1.mem := by
  unfold replyDest
  split
  · simp
  · rfl

@[simp] theorem access_wf (s0 s1 : State) (a : Word) (size : Nat) (bankOnly : Bool) (kind : ReqKind) (build : Req → Req) (h : Memory.wf s1.mem = true) :
    (access s0 s1 a size bankOnly kind build).wf = true := by
  unfold access
  split <;> simp [h]

theorem loadOp_wf (i : Instr) (s : State) (d a : BitVec 6) (off : Word) (size : Nat) (signed : Bool) (h : Memory.wf s.mem = true) :
    outcomeWf (loadOp i s d a off size signed) = true := by
  refine issueWord_wf _ _ _ h (fun t ht => ?_)
  split
  · simp [ht]
  · split
    next hp => simp [fst_mem (replyDest_mem ..) hp, ht]

theorem storeOp_wf (i : Instr) (s : State) (d a : BitVec 6) (off : Word) (size : Nat) (h : Memory.wf s.mem = true) :
    outcomeWf (storeOp i s d a off size) = true := by
  refine issueWord_wf _ _ _ h (fun t ht => ?_)
  split <;> simp [ht]

@[simp] theorem sendAbsent_mem (s : State) (q : Req) (t : Option Target) (p : Option PredRef) : (sendAbsent s q t p).mem = s.mem := by
  unfold sendAbsent
  extract_lets r s q
  split
  · simp [s]
  · simp [s]
  · rfl

@[simp] theorem absentAccess_wf (s0 s1 : State) (a : BitVec 6) (write : Bool) (w : Wave) (dest : Dest) (tid : Nat) (h : Memory.wf s1.mem = true) :
    (absentAccess s0 s1 a write w dest tid).wf = true := by
  simp [absentAccess, h]

theorem execLdg_wf (t d a : BitVec 6) (seq pred succ : BitVec 8) (s : State) (h : Memory.wf s.mem = true) :
    outcomeWf (execLdg t d a seq pred succ s) = true := by
  refine issueWord_wf _ _ _ h (fun u hu => ?_)
  split
  next hp => split <;> simp [fst_mem (replyDest_mem ..) hp, hu]

theorem execStg_wf (t d a : BitVec 6) (seq pred succ : BitVec 8) (s : State) (h : Memory.wf s.mem = true) :
    outcomeWf (execStg t d a seq pred succ s) = true := by
  refine issueWord_wf _ _ _ h (fun u hu => ?_)
  split <;> simp [hu]

theorem tagOp_wf (i : Instr) (s : State) (a : BitVec 6) (kind : ReqKind) (h : Memory.wf s.mem = true) : outcomeWf (tagOp i s a kind) = true := by
  refine issueWord_wf _ _ _ h (fun t ht => ?_)
  split <;> simp [ht]

theorem execVoid_wf (t a b : BitVec 6) (s : State) (h : Memory.wf s.mem = true) : outcomeWf (execVoid t a b s) = true := by
  refine issueWord_wf _ _ _ h (fun u hu => ?_)
  split
  · split <;> simp [hu]
  · exact hu

theorem execAcc_wf (t a b : BitVec 6) (s : State) (h : Memory.wf s.mem = true) : outcomeWf (execAcc t a b s) = true := by
  refine issueWord_wf _ _ _ h (fun t ht => ?_)
  split <;> simp [ht]

theorem convert_wf (i : Instr) (s : State) (d a : BitVec 6) (ok : State → Word → Bool) (f : Word → Word) (h : Memory.wf s.mem = true) :
    outcomeWf (convert i s d a ok f) = true := by
  refine issueWord_wf _ _ _ h (fun t ht => ?_)
  split <;> simp [ht]

theorem execAin_wf (t : BitVec 6) (k : BitVec 3) (a b : BitVec 6) (s : State) (h : Memory.wf s.mem = true) : outcomeWf (execAin t k a b s) = true := by
  refine issueWord_wf _ _ _ h (fun t ht => ?_)
  split <;> simp [ht]

/-! ### Atomics (Machine/Atomics) -/

theorem atomicOp_wf (i : Instr) (s : State) (d a b : BitVec 6) (op : AtomicOp) (cmp : State → Word) (h : Memory.wf s.mem = true) :
    outcomeWf (atomicOp i s d a b op cmp) = true := by
  refine issueWord_wf _ _ _ h (fun t ht => ?_)
  split
  · split
    next hp => simp [fst_mem (replyDest_mem ..) hp, ht]
  · simp [ht]

/-! ### Moves of requests (Machine/Requests) -/

@[simp] theorem joinPort_mem (s : State) (r : Nat) (q : Req) : (joinPort s r q).mem = s.mem := by
  simp only [joinPort]
  split <;> simp

theorem execRequestAdmit_wf (r : Nat) (s : State) (h : Memory.wf s.mem = true) : outcomeWf (execRequestAdmit r s) = true := by
  simp only [execRequestAdmit, outcomeWf_next]
  split <;> simp [h]

@[simp] theorem failRemote_mem (s : State) (r : Nat) (q : Req) (cause : Nat) : (failRemote s r q cause).mem = s.mem := by
  simp [failRemote]

@[simp] theorem sendRemote_mem (s : State) (r : Nat) (q : Req) (m pa : Nat) : (sendRemote s r q m pa).mem = s.mem := by
  simp only [sendRemote]
  split_ifs <;> simp

@[simp] theorem sectorCheck_wf (s : State) (r : Nat) (q : Req) (cause pa : Nat) (h : Memory.wf s.mem = true) :
    Memory.wf (sectorCheck s r q cause pa).mem = true := by
  simp [sectorCheck, h]

@[simp] theorem serveChecked_wf (s : State) (r : Nat) (q : Req) (macBad : Bool) (h : Memory.wf s.mem = true) :
    Memory.wf (serveChecked s r q macBad).mem = true := by
  unfold serveChecked
  split
  · split_ifs <;> simp [h]
  · simp [h]

theorem execRequestServe_wf (r : Nat) (macBad : Bool) (s : State) (h : Memory.wf s.mem = true) : outcomeWf (execRequestServe r macBad s) = true := by
  unfold execRequestServe
  rw [outcomeWf_next]
  split
  · exact h
  · split
    · split
      · split <;> simp [h]
      · exact serveChecked_wf _ _ _ _ h
    · exact h

theorem execDeferredReadWake_wf (r : Nat) (s : State) (h : Memory.wf s.mem = true) : outcomeWf (execDeferredReadWake r s) = true := by
  simp only [execDeferredReadWake, outcomeWf_next]
  split <;> simp [h]

@[simp] theorem putReg_mem (s : State) (q : Req) (c : BitVec 6) (v : Word) : (putReg s q c v).mem = s.mem := by
  simp only [putReg]
  split <;> simp

@[simp] theorem raiseAt_wf (s : State) (q : Req) (cause : Nat) (addr info : Word) (h : Memory.wf s.mem = true) :
    Memory.wf (raiseAt s q cause addr info).mem = true := by
  unfold raiseAt
  split
  · exact raise_wf _ _ _ h
  · split
    · exact supervisorCause_wf _ _ _ h
    · exact raise_wf _ _ _ h
  · exact raiseAg_wf _ _ _ _ _ h
  · exact h

@[simp] theorem replyFlags_wf (s : State) (q : Req) (f : Flags) (h : Memory.wf s.mem = true) : Memory.wf (replyFlags s q f).mem = true := by
  unfold replyFlags
  split
  · exact h
  · cases q.src <;> simp [h]

@[simp] theorem setRecord_mem (s : State) (r : Nat) (q : Req) (phase : BitVec 16) : (setRecord s r q phase).mem = s.mem := by
  simp only [setRecord]
  split <;> (try split) <;> simp

@[simp] theorem deliverReply_mem (s : State) (q : Req) (v : Word) : (deliverReply s q v).mem = s.mem := by
  simp only [deliverReply]
  split <;> simp

@[simp] theorem sendReply_mem (s : State) (m serial rid : Nat) (words : List (Option Word)) (cause : Nat) :
    (sendReply s m serial rid words cause).mem = s.mem := by
  simp [sendReply]

@[simp] theorem answer_wf (s : State) (r : Nat) (q : Req) (v : Word) (f : Flags) (h : Memory.wf s.mem = true) : Memory.wf (answer s r q v f).mem = true := by
  simp only [answer]
  split <;> (try split) <;> simp [h]

@[simp] theorem dropPreload_mem (s : State) (e pos : Nat) : (dropPreload s e pos).mem = s.mem := by
  unfold dropPreload
  extract_lets mine
  exact mem_foldl (f := fun s r => (leavePort s r.1 r.2).dropReq r.1) (fun _ _ => rfl) mine s

@[simp] theorem releasePlace_mem (s : State) (q : Req) : (releasePlace s q).mem = s.mem := by
  simp only [releasePlace]
  split <;> simp

@[simp] theorem targetCause_wf (s : State) (r : Nat) (q : Req) (k : Nat) (h : Memory.wf s.mem = true) : Memory.wf (targetCause s r q k).mem = true := by
  unfold targetCause
  cases q.src <;> simp [h]

theorem execRequestReply_wf (r : Nat) (s : State) (h : Memory.wf s.mem = true) : outcomeWf (execRequestReply r s) = true := by
  simp only [execRequestReply, outcomeWf_next]
  split <;> (try split) <;> simp [h]

theorem execWaveRequestRelease_wf (r : Nat) (s : State) (h : Memory.wf s.mem = true) : outcomeWf (execWaveRequestRelease r s) = true := by
  simp [execWaveRequestRelease, h]

theorem execFenceComplete_wf (u : UnitId) (n : Nat) (s : State) (h : Memory.wf s.mem = true) : outcomeWf (execFenceComplete u n s) = true := by
  simp only [execFenceComplete, outcomeWf_next]
  split <;> simp [h]

theorem execAtEmit_wf (e n : Nat) (s : State) (h : Memory.wf s.mem = true) : outcomeWf (execAtEmit e n s) = true := by
  simp only [execAtEmit, outcomeWf_next]
  split <;> simp [h]

@[simp] theorem patchBack_mem (s : State) (q : Req) (leaf : Word) (size : Nat) : (patchBack s q leaf size).mem = s.mem := by
  simp only [patchBack]
  split <;> simp

theorem execTableWalk_wf (r victim : Nat) (s : State) (h : Memory.wf s.mem = true) : outcomeWf (execTableWalk r victim s) = true := by
  simp only [execTableWalk]
  split
  · exact h
  · split
    · exact h
    · split
      · simp [h]
      · split
        · rfl
        · split <;> simp [h]

@[simp] theorem staleIds_mem (s : State) (q : Req) : (staleIds s q).mem = s.mem := by
  simp [staleIds]

theorem execRemoteAccessTimeout_wf (r : Nat) (s : State) (h : Memory.wf s.mem = true) : outcomeWf (execRemoteAccessTimeout r s) = true := by
  simp only [execRemoteAccessTimeout, outcomeWf_next]
  split <;> (try split) <;> simp [h]

@[simp] theorem answerVoid_mem (s : State) (r : Nat) (q : Req) (rid : Nat) : (answerVoid s r q rid).mem = s.mem := by
  simp [answerVoid]

theorem execRemoteReply_wf (serial rid : Nat) (words : List (Option Word)) (cause : Nat) (s : State) (h : Memory.wf s.mem = true) :
    outcomeWf (execRemoteReply serial rid words cause s) = true := by
  simp only [execRemoteReply, outcomeWf_next]
  split <;> simp [h]

theorem execBarrierShort_wf (r : Nat) (s : State) (h : Memory.wf s.mem = true) : outcomeWf (execBarrierShort r s) = true := by
  simp only [execBarrierShort, outcomeWf_next]
  split <;> (try split) <;> simp [h]

/-! ### Node engines (Machine/Engines) -/

@[simp] theorem noteAdvance_mem (s : State) (e : Nat) : (noteAdvance s e).mem = s.mem := by
  simp [noteAdvance]

@[simp] theorem advanced_mem (s t : State) (e : Nat) : (advanced s t e).mem = t.mem := by
  unfold advanced
  split
  next h => exact h ▸ rfl
  · simp [noteAdvance]

theorem paidStep_wf (s : State) (e cost : Nat) (effect : State → State)
    (h : Memory.wf s.mem = true) (he : ∀ u, Memory.wf u.mem = true → Memory.wf (effect u).mem = true) :
    Memory.wf (paidStep s e cost effect).mem = true := by
  unfold paidStep
  split
  · exact he _ (by simp [h])
  · simp [h]

theorem nodeEnqueue_mem {s u : State} {e ch : Nat} {t : Token} (hu : nodeEnqueue s e ch t = some u) : u.mem = s.mem := by
  obtain ⟨-, hu⟩ := Option.ite_none_right_eq_some.mp hu
  simp [← Option.some.inj hu]

@[simp] theorem modMatrix_mem (s : State) (e : Nat) (f : MatrixState → MatrixState) : (modMatrix s e f).mem = s.mem := by
  simp [modMatrix]

@[simp] theorem owning_wf (s : State) (e slot : Nat) (ws : List Desc) (access : State) (h : Memory.wf s.mem = true) (ha : Memory.wf access.mem = true) :
    Memory.wf (owning s e slot ws access).mem = true := by
  unfold owning
  split
  · exact ha
  · exact raiseNode_wf _ _ _ _ h

@[simp] theorem putBuffer_wf (s : State) (e : Nat) (w : Desc) (buf word : Nat) (v : Word) (h : Memory.wf s.mem = true) :
    Memory.wf (putBuffer s e w buf word v).mem = true := by
  simp [putBuffer, h]

@[simp] theorem zeroBuffer_wf (e : Nat) (w : Desc) (buf word n : Nat) (s : State) (h : Memory.wf s.mem = true) :
    Memory.wf (zeroBuffer e w buf word n s).mem = true := by
  induction n generalizing word s with
  | zero => exact h
  | succ n ih => simp [zeroBuffer, ih, h]

@[simp] theorem closeIntake_wf (s : State) (e : Nat) (w : Desc) (h : Memory.wf s.mem = true) : Memory.wf (closeIntake s e w).mem = true := by
  simp [closeIntake, h]

@[simp] theorem intakeData_wf (s : State) (e slot ch : Nat) (w : Desc) (t : Token) (h : Memory.wf s.mem = true) :
    Memory.wf (intakeData s e slot ch w t).mem = true := by
  have hc (u : State) (h : Memory.wf u.mem = true) : Memory.wf (closeIntake u e w).mem = true := closeIntake_wf u e w h
  simp only [intakeData]
  split
  · exact raiseNode_wf _ _ _ _ (hc _ (by simp [h]))
  · split
    · exact hc _ (by simp [h])
    · simp [h]

@[simp] theorem intakeStep_wf (s : State) (e slot : Nat) (d : Desc) (h : Memory.wf s.mem = true) : Memory.wf (intakeStep s e slot d).mem = true := by
  simp only [intakeStep]
  split
  · exact h
  · split_ifs <;> simp [h]

theorem execMatrixIntake_wf (e : Nat) (s : State) (h : Memory.wf s.mem = true) : outcomeWf (execMatrixIntake e s) = true := by
  simp only [execMatrixIntake, outcomeWf_next]
  split <;> simp [h]

@[simp] theorem emptyBuffer_mem (s : State) (e : Nat) (w : Desc) (buf : Nat) (keep : Bool) : (emptyBuffer s e w buf keep).mem = s.mem := by
  simp [emptyBuffer]

@[simp] theorem makeStep_mem (s : State) (e : Nat) (d : Desc) : (makeStep s e d).mem = s.mem := by
  simp [makeStep]

theorem execMatrixTileStep_wf (e : Nat) (s : State) (h : Memory.wf s.mem = true) : outcomeWf (execMatrixTileStep e s) = true := by
  unfold execMatrixTileStep
  rw [outcomeWf_next]
  split
  · split
    · exact owning_wf _ _ _ _ _ h (paidStep_wf _ _ _ _ h (fun _ hu => by simp [hu]))
    · exact h
  · exact h

@[simp] theorem writeTile_wf (e : Nat) (w : Desc) (buf n : Nat) (vs : List Word) (s : State) (h : Memory.wf s.mem = true) :
    Memory.wf (writeTile e w buf n vs s).mem = true := by
  induction vs generalizing n s with
  | nil => simp [writeTile, h]
  | cons v vs ih => simp [writeTile, ih, h]

@[simp] theorem tileDone_mem (s : State) (e : Nat) (d : Desc) : (tileDone s e d).mem = s.mem := by
  simp [tileDone]

@[simp] theorem outputStep_wf (s : State) (e slot : Nat) (d : Desc) (h : Memory.wf s.mem = true) : Memory.wf (outputStep s e slot d).mem = true := by
  simp only [outputStep]
  split
  · split
    · simp [h]
    · split
      next hu => simp [nodeEnqueue_mem hu, h]
      · exact h
  · simp [h]

@[simp] theorem endOfStream_wf (s : State) (e slot : Nat) (d : Desc) (h : Memory.wf s.mem = true) : Memory.wf (endOfStream s e slot d).mem = true := by
  have hn {u : State} (hu : u.mem = s.mem) (ch : Nat) (t : Token) : Memory.wf ((nodeEnqueue u e ch t).getD s).mem = true := by
    unfold nodeEnqueue
    split <;> simp [hu, h]
  simp only [endOfStream]
  split
  · split_ifs
    · simp [h]
    · exact hn (by simp) _ _
    · simp [h]
    · exact h
  · exact h

@[simp] theorem nodeEnqueue_getD_mem {s u : State} (hu : u.mem = s.mem) (e ch : Nat) (t : Token) : ((nodeEnqueue u e ch t).getD s).mem = s.mem := by
  unfold nodeEnqueue
  split <;> simp [hu]

theorem execMatrixTileWrite_wf (e : Nat) (s : State) (h : Memory.wf s.mem = true) : outcomeWf (execMatrixTileWrite e s) = true := by
  simp only [execMatrixTileWrite, outcomeWf_next]
  split
  · split_ifs
    · exact h
    · simp [h]
    · split <;> simp [h]
    · split <;> simp [h]
  · exact h

@[simp] theorem putConv_mem (s : State) (e : Nat) (c : ConvState × Flags) : (putConv s e c).mem = s.mem := by
  simp [putConv]

@[simp] theorem convertToken_mem (s : State) (e : Nat) (d : Desc) : (convertToken s e d).mem = s.mem := by
  simp only [convertToken]
  split <;> simp

theorem execConverterToken_wf (e : Nat) (s : State) (h : Memory.wf s.mem = true) : outcomeWf (execConverterToken e s) = true := by
  unfold execConverterToken
  rw [outcomeWf_next]
  split
  · split
    · split
      · exact paidStep_wf _ _ _ _ h (fun _ hu => by simp [hu])
      · exact h
    · split <;> simp [h]
  · exact h

@[simp] theorem modTurn_mem (s : State) (e : Nat) (f : TurnState → TurnState) : (modTurn s e f).mem = s.mem := by
  simp [modTurn]

@[simp] theorem completeBlock_wf (s : State) (e slot : Nat) (b : List Token) (after : Option Token) (h : Memory.wf s.mem = true) :
    Memory.wf (completeBlock s e slot b after).mem = true := by
  simp [completeBlock, h]

@[simp] theorem collectToken_wf (s : State) (e slot : Nat) (d : Desc) (h : Memory.wf s.mem = true) : Memory.wf (collectToken s e slot d).mem = true := by
  simp only [collectToken]
  split
  · exact h
  · split_ifs <;> simp [h]

theorem execCornerTurnCollect_wf (e : Nat) (s : State) (h : Memory.wf s.mem = true) : outcomeWf (execCornerTurnCollect e s) = true := by
  simp only [execCornerTurnCollect, outcomeWf_next]
  split <;> simp [h]

theorem execCornerTurnEmit_wf (e : Nat) (s : State) (h : Memory.wf s.mem = true) : outcomeWf (execCornerTurnEmit e s) = true := by
  simp only [execCornerTurnEmit, outcomeWf_next]
  split
  · split
    · exact h
    · split
      · split <;> simp [h]
      · split
        · exact paidStep_wf _ _ _ _ h (fun _ hu => by simp [hu])
        · split <;> simp [h]
  · exact h

/-! ### Lookup-cell array (Machine/Cells) -/

@[simp] theorem modArray_mem (s : State) (e : Nat) (f : LcArray → LcArray) : (modArray s e f).mem = s.mem := by
  simp [modArray]

@[simp] theorem pushOp_mem (s0 s1 : State) (o : LcOp) : (pushOp s0 s1 o).mem = s1.mem := by
  simp [pushOp]

theorem guardedOp_wf (i : Instr) (s : State) (g : BitVec 6) (o : State → LcOp) (h : Memory.wf s.mem = true) : outcomeWf (guardedOp i s g o) = true :=
  issueWord_wf _ _ _ h (fun _ ht => by simp [ht])

theorem execLcin_wf (t a b : BitVec 6) (s : State) (h : Memory.wf s.mem = true) : outcomeWf (execLcin t a b s) = true := by
  refine issueWord_wf _ _ _ h (fun t ht => ?_)
  split <;> simp [ht]

theorem execLcout_wf (t d a b : BitVec 6) (s : State) (h : Memory.wf s.mem = true) : outcomeWf (execLcout t d a b s) = true := by
  refine issueWord_wf _ _ _ h (fun t ht => ?_)
  dsimp only
  split <;> (try split) <;> simp [ht]

@[simp] theorem takeSlice_mem (s : State) (e ch base : Nat) (b : Bool) (t : Token) : (takeSlice s e ch base b t).mem = s.mem := by
  simp [takeSlice]

theorem execLcIntake_wf (e : Nat) (b : Bool) (s : State) (h : Memory.wf s.mem = true) : outcomeWf (execLcIntake e b s) = true := by
  simp only [execLcIntake, outcomeWf_next]
  split <;> (try split) <;> simp [h]

@[simp] theorem retireOp_mem (s : State) (e : Nat) : (retireOp s e).mem = s.mem := by
  simp [retireOp]

@[simp] theorem arrayCause_wf (s : State) (e : Nat) (k : BitVec 2) (n cause : Nat) (h : Memory.wf s.mem = true) :
    Memory.wf (arrayCause s e k n cause).mem = true := by
  simp [arrayCause, h]

@[simp] theorem endBlock_wf (s : State) (e : Nat) (k : BitVec 2) (n : Nat) (bad : Bool) (h : Memory.wf s.mem = true) :
    Memory.wf (endBlock s e k n bad).mem = true := by
  simp [endBlock, h]

@[simp] theorem blockToken_wf (s : State) (e : Nat) (k : BitVec 2) (n : Nat) (pos : BitVec 6) (ch : BitVec 5) (taken : Nat) (bad : Bool)
    (t : Token) (h : Memory.wf s.mem = true) :
    Memory.wf (blockToken s e k n pos ch taken bad t).mem = true := by
  simp only [blockToken]
  split_ifs <;> simp [h]

theorem execLcLoadBlock_wf (e : Nat) (s : State) (h : Memory.wf s.mem = true) : outcomeWf (execLcLoadBlock e s) = true := by
  simp only [execLcLoadBlock, outcomeWf_next]
  split <;> (try split) <;> simp [h]

theorem execLcSweep_wf (e : Nat) (s : State) (h : Memory.wf s.mem = true) : outcomeWf (execLcSweep e s) = true := by
  unfold execLcSweep
  rw [outcomeWf_next]
  split
  · split
    · exact paidStep_wf _ _ _ _ h (fun _ hu => by simp [hu])
    · exact h
  · exact h

@[simp] theorem putOut_mem (s : State) (e : Nat) (k : BitVec 2) (n : Nat) (d : Dest) (gen : BitVec 4) (tid : Nat) (v : Word) :
    (putOut s e k n d gen tid v).mem = s.mem := by
  simp only [putOut]
  split <;> simp

theorem execLcQueueOp_wf (e : Nat) (s : State) (h : Memory.wf s.mem = true) : outcomeWf (execLcQueueOp e s) = true := by
  simp only [execLcQueueOp, outcomeWf_next]
  split
  · split
    · exact h
    · split
      · simp [h]
      · split <;> simp [h]
      · split <;> simp [h]
      · exact h
  · exact h

/-! ### Choice of the next move (Machine/Fetch) -/

@[simp] theorem nextMove_mem (s : State) : (nextMove s).2.mem = s.mem := by
  unfold nextMove
  extract_lets t
  split <;> rfl

/-! ### Planes and grid calls (Machine/Planes) -/

@[simp] theorem addPreload_mem (s0 s : State) (e pos : Nat) (v : Word) (free : Bool) : (addPreload s0 s e pos v free).mem = s.mem := by
  simp [addPreload]

theorem execPload_wf (t a b : BitVec 6) (s : State) (h : Memory.wf s.mem = true) : outcomeWf (execPload t a b s) = true := by
  refine issueWord_wf _ _ _ h (fun u hu => ?_)
  split
  · exact hu
  · extract_lets pos
    split
    · split_ifs <;> simp [hu]
    · split
      · rfl
      · split <;> simp [mem_foldl, hu]

@[simp] theorem armSwap_mem (s : State) (e k : Nat) : (armSwap s e k).mem = s.mem := by
  simp [armSwap]

theorem execPswap_wf (t b : BitVec 6) (s : State) (h : Memory.wf s.mem = true) : outcomeWf (execPswap t b s) = true := by
  refine issueWord_wf _ _ _ h (fun u hu => ?_)
  split
  · split_ifs <;> simp [hu]
  · simp [mem_foldl, hu]

theorem execGcall_wf (t a b : BitVec 6) (s : State) (h : Memory.wf s.mem = true) : outcomeWf (execGcall t a b s) = true := by
  refine issueWord_wf _ _ _ h (fun u hu => ?_)
  split
  · split
    · rfl
    · dsimp only
      split <;> simp [hu]
  · exact hu

theorem execGret_wf (t a : BitVec 6) (s : State) (h : Memory.wf s.mem = true) : outcomeWf (execGret t a s) = true := by
  refine issueWord_wf _ _ _ h (fun t ht => ?_)
  split <;> simp [ht]

@[simp] theorem takeBack_mem (s : State) (mine : Req → Bool) : (takeBack s mine).1.mem = s.mem := by
  unfold takeBack
  extract_lets qs
  exact mem_foldl (f := fun s r => (leavePort s r.1 r.2).dropReq r.1) (fun _ _ => rfl) qs s

@[simp] theorem giveBack_mem (s : State) (qs : List (Nat × Req)) : (giveBack s qs).mem = s.mem := by
  simp [giveBack]

@[simp] theorem reachPoint_mem (s : State) (e : Nat) (mark : BitVec 3) : (reachPoint s e mark).mem = s.mem := by
  simp [reachPoint]

theorem execFreezePoint_wf (e : Nat) (s : State) (h : Memory.wf s.mem = true) : outcomeWf (execFreezePoint e s) = true := by
  simp only [execFreezePoint, outcomeWf_next]
  split
  · exact h
  · split
    · split_ifs
      · exact paidStep_wf _ _ _ _ h (fun _ hu => by simp [hu])
      · simp [h]
      · exact h
    · exact h

@[simp] theorem raiseElem_wf (s : State) (e cause : Nat) (addr : Word) (h : Memory.wf s.mem = true) : Memory.wf (raiseElem s e cause addr).mem = true := by
  simp [raiseElem, h]

@[simp] theorem checkDepths_wf (s : State) (e : Nat) (h : Memory.wf s.mem = true) : Memory.wf (checkDepths s e).mem = true := by
  simp [checkDepths, h]

@[simp] theorem payPart_wf (s : State) (t : Nat) (parts : List (Nat × List Nat)) (h : Memory.wf s.mem = true) :
    (payPart s t parts).all (fun u => Memory.wf u.mem) = true := by
  unfold payPart
  split
  · rfl
  · split
    · exact h
    · exact paidStep_wf _ _ _ _ h (fun _ hu => hu)

@[simp] theorem spillWord_wf (s : State) (p : DevicePlace) (v : Word) (h : Memory.wf s.mem = true) : Memory.wf (spillWord s p v).mem = true := by
  simp only [spillWord]
  split <;> simp [setWord_wf, h]

@[simp] theorem writeFrame_wf (s : State) (t e j : Nat) (f : Frame) (h : Memory.wf s.mem = true) : Memory.wf (writeFrame s t e j f).mem = true :=
  wf_foldl (fun s w h => spillWord_wf s w.1 w.2 h) _ _ h

@[simp] theorem putQueues_mem (s : State) (e : Nat) (m : SMap Ag) : (putQueues s e m).mem = s.mem := by
  simp [putQueues]

@[simp] theorem putOutst_mem (s : State) (e : Nat) (m : SMap Outst) : (putOutst s e m).mem = s.mem := by
  simp [putOutst]

@[simp] theorem passTokens_mem (s : State) (ts : List Token) : (passTokens s ts).mem = s.mem := by
  simp [passTokens, mem_foldl]

@[simp] theorem passArgs_mem (exchange : Bool) (k : Nat) (s : State) (e : Nat) : (passArgs exchange k s e).mem = s.mem := by
  simp [passArgs]

@[simp] theorem switchElem_wf (exchange : Bool) (k : Nat) (s : State) (e : Nat) (h : Memory.wf s.mem = true) :
    Memory.wf (switchElem exchange k s e).mem = true := by
  simp [switchElem, h]

theorem execGridCallSwitch_wf (t : Nat) (s : State) (h : Memory.wf s.mem = true) : outcomeWf (execGridCallSwitch t s) = true := by
  unfold execGridCallSwitch
  rw [outcomeWf_next]
  split
  · next exchange k _ =>
    split
    · exact h
    · extract_lets es moves places u
      have hp := payPart_wf s t (switchParts s es exchange k) h
      have hu : Memory.wf u.mem = true := wf_foldl (fun s m h => writeFrame_wf s t m.1 m.2.1 m.2.2 h) _ _ h
      have hs (l : List Nat) (v : State) (hv : Memory.wf v.mem = true) : Memory.wf (l.foldl (switchElem exchange k) v).mem = true :=
        wf_foldl (switchElem_wf exchange k) _ _ hv
      split
      next hv => simpa [hv] using hp
      · split
        · simp [h]
        · split
          · exact h
          · simp [hs, mem_foldl, hu]
  · exact h

@[simp] theorem returnElem_wf (s : State) (e : Nat) (h : Memory.wf s.mem = true) : Memory.wf (returnElem s e).mem = true := by
  simp [returnElem, h]

@[simp] theorem dropReplies_mem (s : State) (gs : List Nat) : (dropReplies s gs).mem = s.mem := by
  simp [dropReplies]

theorem execGridReturn_wf (t : Nat) (s : State) (h : Memory.wf s.mem = true) : outcomeWf (execGridReturn t s) = true := by
  unfold execGridReturn
  rw [outcomeWf_next]
  split
  · exact h
  · extract_lets es moves
    have hp := payPart_wf s t (returnParts s es) h
    have hs (l : List Nat) (v : State) (hv : Memory.wf v.mem = true) : Memory.wf (l.foldl returnElem v).mem = true := wf_foldl returnElem_wf _ _ hv
    split
    next hv => simpa [hv] using hp
    · split
      · simp [h]
      · simp [hs, h]

@[simp] theorem swapPlanes_wf (s : State) (e : Nat) (h : Memory.wf s.mem = true) : Memory.wf (swapPlanes s e).mem = true := by
  simp [swapPlanes, h]

theorem execPlaneSwap_wf (e : Nat) (s : State) (h : Memory.wf s.mem = true) : outcomeWf (execPlaneSwap e s) = true := by
  unfold execPlaneSwap
  rw [outcomeWf_next]
  split
  · split
    · split
      · exact paidStep_wf _ _ _ _ h (fun _ hu => swapPlanes_wf _ _ hu)
      · exact swapPlanes_wf _ _ h
    · exact swapPlanes_wf _ _ h
  · exact h

@[simp] theorem endPreload_mem (s : State) (e : Nat) (l : Preload) (u : Under) : (endPreload s e l u).mem = s.mem := by
  simp [endPreload]

@[simp] theorem readSectors_mem (s : State) (e : Nat) (l : Preload) : (readSectors s e l).mem = s.mem :=
  mem_foldl (fun s _ => addReq_mem s _ _) _ s

@[simp] theorem startPreload_mem (s : State) (e : Nat) (l : Preload) : (startPreload s e l).mem = s.mem := by
  simp [startPreload]

theorem execPloadComplete_wf (e pos : Nat) (s : State) (h : Memory.wf s.mem = true) : outcomeWf (execPloadComplete e pos s) = true := by
  have hs (cost : Nat) (l : Preload) : Memory.wf (paidStep s e cost (fun s => startPreload s e l)).mem = true := paidStep_wf _ _ _ _ h (fun _ hu => by simp [hu])
  simp only [execPloadComplete, outcomeWf_next]
  split
  · exact h
  · split
    · exact h
    · split
      · split_ifs <;> simp [hs, h]
      · split_ifs <;> simp [hs, h]

/-! ### Fences, barriers and events (Machine/Sync) -/

@[simp] theorem addFence_mem (s : State) (scope : Nat) : (addFence s scope).mem = s.mem := by
  simp only [addFence]
  split <;> simp

theorem fenceOp_wf (i : Instr) (s : State) (scope : Nat) (h : Memory.wf s.mem = true) : outcomeWf (fenceOp i s scope) = true :=
  issueWord_wf _ _ _ h (fun _ ht => by simp [ht])

theorem execBarArrive_wf (t a b : BitVec 6) (s : State) (h : Memory.wf s.mem = true) : outcomeWf (execBarArrive t a b s) = true := by
  refine issueWord_wf _ _ _ h (fun t ht => ?_)
  split <;> simp [ht]

theorem execBarWait_wf (t a b : BitVec 6) (s : State) (h : Memory.wf s.mem = true) : outcomeWf (execBarWait t a b s) = true := by
  refine issueWord_wf _ _ _ h (fun t ht => ?_)
  split <;> simp [ht]

theorem execAtTb_wf (t d a : BitVec 6) (s : State) (h : Memory.wf s.mem = true) : outcomeWf (execAtTb t d a s) = true := by
  refine issueWord_wf _ _ _ h (fun t ht => ?_)
  split <;> simp [ht]

theorem eventOp_wf (i : Instr) (s : State) (a : BitVec 6) (f : BitVec 256 → BitVec 256 → BitVec 256) (h : Memory.wf s.mem = true) :
    outcomeWf (eventOp i s a f) = true :=
  issueWord_wf _ _ _ h (fun _ ht => by simp [ht])

theorem execChkpt_wf (t : BitVec 6) (n : BitVec 14) (s : State) (h : Memory.wf s.mem = true) : outcomeWf (execChkpt t n s) = true := by
  refine issueWord_wf _ _ _ h (fun u hu => ?_)
  rw [Effect.wf_done]
  split
  · exact hu
  · dsimp only
    split_ifs
    · simp [hu]
    · split <;> simp [hu]
    · simp [hu]

/-! ### Checkpoints and system registers (Machine/Registers) -/

@[simp] theorem clearChkpts_mem (s : State) (gs : List Nat) : (clearChkpts s gs).mem = s.mem := by
  simp [clearChkpts]

@[simp] theorem enterResting_mem (s : State) (gs : List Nat) : (enterResting s gs).mem = s.mem := by
  simp [enterResting]

@[simp] theorem requestSuspension_mem (s : State) (g : Nat) : (requestSuspension s g).mem = s.mem := by
  unfold requestSuspension
  split <;> simp

@[simp] theorem endSuspended_wf (s : State) (g tag : Nat) (h : Memory.wf s.mem = true) : Memory.wf (endSuspended s g tag).mem = true := by
  simp [endSuspended, h]

@[simp] theorem writeSys_wf (s : State) (g n : Nat) (supervisor : Bool) (v : Word) (h : Memory.wf s.mem = true) :
    Memory.wf (writeSys s g n supervisor v).mem = true := by
  unfold writeSys
  split_ifs
  · simp [h]
  · exact h
  · split
    case h_4 => extract_lets u; split <;> simp [u, h]
    all_goals simp [h]

theorem execMfsr_wf (t d n : BitVec 6) (s : State) (h : Memory.wf s.mem = true) : outcomeWf (execMfsr t d n s) = true :=
  issueWord_wf _ _ _ h (fun _ ht => by simp [ht])

theorem execMtsr_wf (t n a : BitVec 6) (s : State) (h : Memory.wf s.mem = true) : outcomeWf (execMtsr t n a s) = true :=
  issueWord_wf _ _ _ h (fun _ ht => by simp [ht])

/-! ### Race and placer (Machine/Race) -/

@[simp] theorem modRace_mem (s : State) (e : Nat) (f : RaceState → RaceState) : (modRace s e f).mem = s.mem := by
  simp [modRace]

theorem execRaceK_wf (t d a b : BitVec 6) (s : State) (h : Memory.wf s.mem = true) : outcomeWf (execRaceK t d a b s) = true := by
  refine issueWord_wf _ _ _ h (fun t ht => ?_)
  dsimp only
  split <;> (try split) <;> simp [ht]

@[simp] theorem takeCandidate_wf (s : State) (e slot : Nat) (d : Desc) (b : Bool) (t : Token) (h : Memory.wf s.mem = true) :
    Memory.wf (takeCandidate s e slot d b t).mem = true := by
  simp [takeCandidate, h]

theorem execRaceIntake_wf (e : Nat) (b : Bool) (s : State) (h : Memory.wf s.mem = true) : outcomeWf (execRaceIntake e b s) = true := by
  simp only [execRaceIntake, outcomeWf_next]
  split
  · split
    · split
      · exact paidStep_wf _ _ _ _ h (fun _ hu => by simp [hu])
      · exact h
    · exact h
  · exact h

@[simp] theorem putResult_mem (s : State) (e : Nat) (d : Dest) (k : BitVec 2) (gen : BitVec 4) (tid : Nat) (v : Option Word) :
    (putResult s e d k gen tid v).mem = s.mem := by
  simp only [putResult]
  split <;> simp

@[simp] theorem releaseRound_mem (s : State) (e : Nat) (d : Desc) (marks : List Token) (k : Nat) (dest : Dest) (st : BitVec 2) (gen : BitVec 4) (tid : Nat) :
    (releaseRound s e d marks k dest st gen tid).mem = s.mem := by
  simp [releaseRound, mem_foldl]

theorem execRaceRelease_wf (e : Nat) (s : State) (h : Memory.wf s.mem = true) : outcomeWf (execRaceRelease e s) = true := by
  unfold execRaceRelease
  rw [outcomeWf_next]
  split
  · exact h
  · split
    · exact h
    · split
      · split <;> simp [h]
      · split <;> simp [h]

theorem execPlace_wf (t d a b : BitVec 6) (s : State) (h : Memory.wf s.mem = true) : outcomeWf (execPlace t d a b s) = true := by
  refine issueWord_wf _ _ _ h (fun t ht => ?_)
  dsimp only
  split <;> (try split) <;> simp [ht]

@[simp] theorem histAccess_mem (s : State) (g : Nat) (p : Place) (n : Nat) (kind : ReqKind) (v : Word) : (histAccess s g p n kind v).mem = s.mem := by
  simp only [histAccess]
  split <;> simp

@[simp] theorem placeCause_wf (s : State) (g : Nat) (p : Place) (cause : Nat) (h : Memory.wf s.mem = true) : Memory.wf (placeCause s g p cause).mem = true := by
  simp [placeCause, h]

@[simp] theorem putSeqReg_mem (s : State) (g : Nat) (supervisor : Bool) (c : BitVec 6) (v : Word) : (putSeqReg s g supervisor c v).mem = s.mem := by
  simp [putSeqReg]

@[simp] theorem placeDone_mem (s : State) (g : Nat) (p : Place) (status : Word) : (placeDone s g p status).mem = s.mem := by
  simp [placeDone]

@[simp] theorem sizePlace_wf (s : State) (g : Nat) (p : Place) (h : Memory.wf s.mem = true) : Memory.wf (sizePlace s g p).mem = true := by
  simp [sizePlace, h]

theorem execPlacerSizing_wf (g : Nat) (s : State) (h : Memory.wf s.mem = true) : outcomeWf (execPlacerSizing g s) = true := by
  unfold execPlacerSizing
  rw [outcomeWf_next]
  split
  · exact h
  · split
    · exact h
    · split
      · split <;> simp [h]
      · split <;> simp [h]

@[simp] theorem nextTarget_mem (s : State) (g : Nat) (p : Place) (status : Word) (rest : List (Nat × Nat)) : (nextTarget s g p status rest).mem = s.mem := by
  simp [nextTarget]

theorem execPlacePreload_wf (g : Nat) (s : State) (h : Memory.wf s.mem = true) : outcomeWf (execPlacePreload g s) = true := by
  simp only [execPlacePreload, outcomeWf_next]
  split
  · split
    · split_ifs
      · exact h
      · exact h
      · simp [h]
      · exact paidStep_wf _ _ _ _ h (fun _ hu => by simp [hu])
    · exact h
  · exact h

/-! ### Staging of a launch (Machine/Staging) -/

@[simp] theorem clearV_wf (s : State) (p n : Nat) (h : Memory.wf s.mem = true) : Memory.wf (clearV s p n).mem = true := by
  simp [clearV, h]

@[simp] theorem askFor_mem (ps : List DevicePlace) (s : State) : (askFor ps s).mem = s.mem := by
  refine mem_foldl (fun s p => ?_) ps s
  split
  · split <;> simp
  · rfl

@[simp] theorem noteFailedRead_mem (s : State) (p cause : Nat) : (noteFailedRead s p cause).mem = s.mem := by
  simp [noteFailedRead]

@[simp] theorem measure_mem (s : State) (index type vaddr : Nat) (data : List Byte) : (measure s index type vaddr data).mem = s.mem := by
  simp [measure]

@[simp] theorem bindLog_wf (s : State) (c base size : Nat) (h : Memory.wf s.mem = true) : Memory.wf (bindLog s c base size).mem = true := by
  simp [bindLog, h]

@[simp] theorem reject_wf (s : State) (p n reason : Nat) (info : Word) (e : Entry) (clear : Bool) (h : Memory.wf s.mem = true) :
    Memory.wf (reject s p n reason info e clear).mem = true := by
  simp only [reject]
  split <;> simp [h]

@[simp] theorem stopNoLog_wf (s : State) (p n : Nat) (h : Memory.wf s.mem = true) : Memory.wf (stopNoLog s p n).mem = true := by
  simp [stopNoLog, h]

@[simp] theorem keepSoon_mem (s : State) (p n soon : Nat) : (keepSoon s p n soon).mem = s.mem := by
  simp [keepSoon]

@[simp] theorem stage_wf (s : State) (p n : Nat) (e : Entry) (soon : Nat) (h : Memory.wf s.mem = true) : Memory.wf (stage s p n e soon).mem = true := by
  unfold stage
  extract_lets c k
  split
  · exact stopNoLog_wf s p n h
  · split
    next base size _ =>
      extract_lets u len image m
      have hu : Memory.wf u.mem = true := by simp [u, h]
      split_ifs
      · exact stopNoLog_wf s p n h
      · simp [hu]
      · split <;> simp [hu]
      · split
        · simp [hu]
        · simp only [askFor_mem]
          split
          · simp [hu]
          · split <;> simp [m, hu]

theorem execSlotTableRead_wf (p n : Nat) (s : State) (h : Memory.wf s.mem = true) : outcomeWf (execSlotTableRead p n s) = true := by
  simp only [execSlotTableRead, outcomeWf_next]
  split
  · exact h
  · split
    · exact h
    · split
      · simp [h]
      · split_ifs <;> simp [h]

@[simp] theorem restage_wf (s : State) (p n start : Nat) (h : Memory.wf s.mem = true) : Memory.wf (restage s p n start).mem = true := by
  simp only [restage]
  split <;> simp [h]

@[simp] theorem restageDue_wf (s : State) (k : Nat) (h : Memory.wf s.mem = true) : Memory.wf (restageDue s k).mem = true := by
  simp [restageDue, h]

/-! ### Metering (Machine/Metering) -/

theorem execRefill_wf (t a : BitVec 6) (s : State) (h : Memory.wf s.mem = true) : outcomeWf (execRefill t a s) = true := by
  refine issueWord_wf _ _ _ h (fun t ht => ?_)
  split <;> simp [ht]

theorem execCommit_wf (t a : BitVec 6) (s : State) (h : Memory.wf s.mem = true) : outcomeWf (execCommit t a s) = true := by
  refine issueWord_wf _ _ _ h (fun t ht => ?_)
  split <;> simp [ht]

theorem execAbort_wf (t a : BitVec 6) (s : State) (h : Memory.wf s.mem = true) : outcomeWf (execAbort t a s) = true := by
  refine issueWord_wf _ _ _ h (fun t ht => ?_)
  split <;> simp [ht]

theorem execAllowanceRecall_wf (g : Nat) (s : State) (h : Memory.wf s.mem = true) : outcomeWf (execAllowanceRecall g s) = true := by
  simp only [execAllowanceRecall, outcomeWf_next]
  split <;> simp [h]

@[simp] theorem goDry_wf (s : State) (t g : Nat) (h : Memory.wf s.mem = true) : Memory.wf (goDry s t g).mem = true := by
  simp [goDry, h]

theorem execDry_wf (t : Nat) (s : State) (h : Memory.wf s.mem = true) : outcomeWf (execDry t s) = true := by
  simp only [execDry, outcomeWf_next]
  split <;> simp [h]

theorem execGraceExpired_wf (t : Nat) (s : State) (h : Memory.wf s.mem = true) : outcomeWf (execGraceExpired t s) = true := by
  simp only [execGraceExpired, outcomeWf_next]
  split <;> simp [h]

theorem execBoostFallback_wf (t : Nat) (s : State) (h : Memory.wf s.mem = true) : outcomeWf (execBoostFallback t s) = true := by
  simp [execBoostFallback, h]

@[simp] theorem pour_mem (s : State) (g : Nat) : (pour s g).mem = s.mem := by
  simp only [pour]
  split <;> simp

theorem execCaskPour_wf (g : Nat) (s : State) (h : Memory.wf s.mem = true) : outcomeWf (execCaskPour g s) = true := by
  simp [execCaskPour, h]

theorem execPourGrant_wf (drawOk : Bool) (s : State) (h : Memory.wf s.mem = true) : outcomeWf (execPourGrant drawOk s) = true := by
  simp only [execPourGrant, outcomeWf_next]
  split <;> simp [h]

theorem execCommitTask_wf (t : Nat) (s : State) (h : Memory.wf s.mem = true) : outcomeWf (execCommitTask t s) = true := by
  simp only [execCommitTask, outcomeWf_next]
  split <;> (try split) <;> simp [h]

theorem execVanish_wf (t : Nat) (s : State) (h : Memory.wf s.mem = true) : outcomeWf (execVanish t s) = true := by
  simp [execVanish, h]

@[simp] theorem addProducer_mem (s : State) (t p : Nat) : (addProducer s t p).mem = s.mem := by
  simp [addProducer]

theorem execBankHandover_wf (e bank : Nat) (s : State) (h : Memory.wf s.mem = true) : outcomeWf (execBankHandover e bank s) = true := by
  simp only [execBankHandover, outcomeWf_next]
  split
  · exact h
  · split
    · exact h
    · split
      · split <;> simp [h]
      · split
        · split <;> simp [h]
        · exact h
      · exact h

/-! ### Moves of tokens (Machine/Tokens) -/

theorem execTokenHop_wf (e : Nat) (q : HopQ) (parityBad : Bool) (s : State) (h : Memory.wf s.mem = true) : outcomeWf (execTokenHop e q parityBad s) = true := by
  simp [execTokenHop, h]

theorem execTokenDeliver_wf (e : Nat) (q : HopQ) (s : State) (h : Memory.wf s.mem = true) : outcomeWf (execTokenDeliver e q s) = true := by
  simp [execTokenDeliver, h]

theorem execSequencerWaitExpire_wf (g : Nat) (s : State) (h : Memory.wf s.mem = true) : outcomeWf (execSequencerWaitExpire g s) = true := by
  simp only [execSequencerWaitExpire, outcomeWf_next]
  split <;> simp [h]

theorem execForkStall_wf (e : Nat) (cls : BitVec 6) (s : State) (h : Memory.wf s.mem = true) : outcomeWf (execForkStall e cls s) = true := by
  simp only [execForkStall, outcomeWf_next]
  split <;> simp [h]

theorem execProgressStall_wf (t : Nat) (s : State) (h : Memory.wf s.mem = true) : outcomeWf (execProgressStall t s) = true := by
  simp only [execProgressStall, outcomeWf_next]
  split <;> simp [h]

theorem execTrapEntry_wf (g : Nat) (s : State) (h : Memory.wf s.mem = true) : outcomeWf (execTrapEntry g s) = true := by
  simp [execTrapEntry, h]

/-! ### Waves, suspension and resume (Machine/Waves) -/

@[simp] theorem startWave_mem (s : State) (t : Nat) : (startWave s t).mem = s.mem := by
  simp [startWave]

@[simp] theorem elemPoint_mem (s : State) (e : Nat) (entry : Bool) : (elemPoint s e entry).mem = s.mem := by
  unfold elemPoint
  split
  · rfl
  · extract_lets s1
    have hs : s1.mem = s.mem := startWave_mem s _
    split
    · split <;> simp [hs]
    · rfl

@[simp] theorem seqPoint_mem (s : State) (g : Nat) : (seqPoint s g).mem = s.mem := by
  unfold seqPoint
  split
  · rfl
  · extract_lets s1 x
    have hs : s1.mem = s.mem := startWave_mem s _
    split
    · split <;> simp [hs]
    · rfl

theorem execWaveEntryPoint_wf (u : UnitId) (s : State) (h : Memory.wf s.mem = true) : outcomeWf (execWaveEntryPoint u s) = true := by
  simp only [execWaveEntryPoint, outcomeWf_next]
  split <;> simp [h]

theorem execWavePoint_wf (e : Nat) (s : State) (h : Memory.wf s.mem = true) : outcomeWf (execWavePoint e s) = true := by
  simp [execWavePoint, h]

theorem execWaveComplete_wf (t : Nat) (s : State) (h : Memory.wf s.mem = true) : outcomeWf (execWaveComplete t s) = true := by
  simp only [execWaveComplete, outcomeWf_next]
  split <;> simp [h]

@[simp] theorem writeSave_wf (s : State) (t : Nat) (drain : Bool) (h : Memory.wf s.mem = true) : Memory.wf (writeSave s t drain).mem = true := by
  simp [writeSave, h]

@[simp] theorem suspendBank_wf (t : Nat) (s : State) (b : Nat) (h : Memory.wf s.mem = true) : Memory.wf (suspendBank t s b).mem = true := by
  simp only [suspendBank]
  split <;> simp [h]

@[simp] theorem dropRecords_mem (t : Nat) (s : State) (g : Nat) : (dropRecords t s g).mem = s.mem := by
  simp [dropRecords]

@[simp] theorem isolate_mem (s : State) (gs : List Nat) : (isolate s gs).mem = s.mem := by
  simp [isolate]

@[simp] theorem doSuspend_wf (s : State) (t : Nat) (drain : Bool) (h : Memory.wf s.mem = true) : Memory.wf (doSuspend s t drain).mem = true := by
  unfold doSuspend
  extract_lets x saved record u v w w₁ w₂ w₃ w₄
  have hu : Memory.wf u.mem = true := wf_foldl (fun s m h => writeFrame_wf s t m.1 m.2.1 m.2.2 h) _ _ (by simp [h])
  have hw : Memory.wf w.mem = true := wf_foldl (suspendBank_wf t) _ _ (by simp [v, hu])
  have hm : w₄.mem = w.mem := by simp [w₄, w₃, w₂, w₁, mem_foldl]
  simp [hm, hw]

@[simp] theorem unfreeze_mem (s : State) (e : Nat) : (unfreeze s e).mem = s.mem := by
  simp [unfreeze]

@[simp] theorem unfreezeSeq_mem (s : State) (g : Nat) : (unfreezeSeq s g).mem = s.mem := by
  simp [unfreezeSeq]

@[simp] theorem abandonSave_mem (s : State) (t : Nat) : (abandonSave s t).mem = s.mem := by
  simp [abandonSave, mem_foldl]

theorem execSuspension_wf (t : Nat) (s : State) (h : Memory.wf s.mem = true) : outcomeWf (execSuspension t s) = true := by
  simp [execSuspension, h]

theorem execSuspendRequest_wf (g : Nat) (s : State) (h : Memory.wf s.mem = true) : outcomeWf (execSuspendRequest g s) = true := by
  simp [execSuspendRequest, h]

theorem execEndSuspendedTask_wf (g tag : Nat) (s : State) (h : Memory.wf s.mem = true) : outcomeWf (execEndSuspendedTask g tag s) = true := by
  simp [execEndSuspendedTask, h]

@[simp] theorem restoreOutst_mem (s : State) (es : List Nat) (m : SMap Outst) : (restoreOutst s es m).mem = s.mem := by
  refine mem_foldl (fun s o => ?_) m s
  split_ifs
  · rfl
  · rfl
  · simp

@[simp] theorem restoreElem_mem (old new : List Nat) (s : State) (n : Nat) (x : Elem) : (restoreElem old new s n x).mem = s.mem := by
  simp [restoreElem]

@[simp] theorem restoreCellar_mem (old new : List Nat) (s : State) (c : Nat × List Frame) : (restoreCellar old new s c).mem = s.mem := by
  simp [restoreCellar]

@[simp] theorem restoreGrove_mem (old new : List Nat) (s : State) (c : Nat × Grove) : (restoreGrove old new s c).mem = s.mem := by
  simp [restoreGrove]

@[simp] theorem restoreRange_wf (new : List Nat) (s : State) (c : LiveItem × List (Word × WordMeta) × List (Nat × WinState)) (h : Memory.wf s.mem = true) :
    Memory.wf (restoreRange new s c).mem = true := by
  unfold restoreRange
  split
  · simp only [foldl_modWindow_mem]
    exact wf_foldl (fun s w h => putWord_wf s _ _ _ _ h) _ _ h
  · exact h

@[simp] theorem restoreSave_wf (s : State) (new : List Nat) (v : Saved) (h : Memory.wf s.mem = true) : Memory.wf (restoreSave s new v).mem = true := by
  have hb (u : State) (hu : Memory.wf u.mem = true) : Memory.wf (v.banks.foldl (restoreRange new) u).mem = true := wf_foldl (restoreRange_wf new) _ _ hu
  simp [restoreSave, mem_foldl, hb, h]

@[simp] theorem scrubSectors_mem (s : State) (t : Nat) (full : Bool) : (scrubSectors s t full).mem = s.mem := by
  simp [scrubSectors]

theorem execTagScrub_wf (t : Nat) (s : State) (h : Memory.wf s.mem = true) : outcomeWf (execTagScrub t s) = true := by
  simp only [execTagScrub, outcomeWf_next]
  split <;> (try split) <;> simp [h]

/-! ### Scheduler (Machine/Scheduler) -/

@[simp] theorem nextStart_mem (s : State) (k : Nat) : (nextStart s k).mem = s.mem := by
  simp [nextStart]

@[simp] theorem takeStart_wf (s : State) (p n : Nat) (h : Memory.wf s.mem = true) : Memory.wf (takeStart s p n).mem = true := by
  simp [takeStart, h]

theorem execSlotStart_wf (p n : Nat) (s : State) (h : Memory.wf s.mem = true) : outcomeWf (execSlotStart p n s) = true := by
  simp [execSlotStart, h]

@[simp] theorem takeBank_wf (gs : List Nat) (c tag : Nat) (i : LoadImage) (lost : List (Nat × Nat)) (s : State) (v : Nat × Nat) (h : Memory.wf s.mem = true) :
    Memory.wf (takeBank gs c tag i lost s v).mem = true := by
  simp only [takeBank]
  split
  · simp [h]
  · split_ifs <;> simp [h]
  · split_ifs <;> simp [h]
  · exact h

@[simp] theorem setRegisters_mem (tag c o rows cols : Nat) (args cellar cellarn : Word) (s : State) (gi : Nat × Nat) :
    (setRegisters tag c o rows cols args cellar cellarn s gi).mem = s.mem := by
  simp [setRegisters]

@[simp] theorem takeRegion_wf (s : State) (tag : Nat) (x : Task) (o : Nat × Nat) (h : Memory.wf s.mem = true) :
    Memory.wf (takeRegion s tag x o).mem = true := by
  simp only [takeRegion, State.modTask_mem]
  exact wf_foldl (takeBank_wf _ _ _ _ _) _ _ (by simp [mem_foldl, h])

@[simp] theorem takeReserved_mem (s : State) (serial tag : Nat) : (takeReserved s serial tag).mem = s.mem := by
  simp [takeReserved, mem_foldl]

@[simp] theorem launchAt_wf (s : State) (p n : Nat) (d : Due) (o : Nat × Nat) (tag : Nat) (h : Memory.wf s.mem = true) :
    Memory.wf (launchAt s p n d o tag).mem = true := by
  simp only [launchAt]
  split <;> (try split) <;> simp [h]

@[simp] theorem dropPending_mem (s : State) (k : Nat) : (dropPending s k).mem = s.mem := by
  simp [dropPending]

@[simp] theorem rejectLaunch_wf (s : State) (p n reason : Nat) (info : Word) (d : Due) (h : Memory.wf s.mem = true) :
    Memory.wf (rejectLaunch s p n reason info d).mem = true := by
  simp [rejectLaunch, h]

theorem execLaunch_wf (p n : Nat) (s : State) (h : Memory.wf s.mem = true) : outcomeWf (execLaunch p n s) = true := by
  simp only [execLaunch, outcomeWf_next]
  split
  · exact h
  · split
    · exact h
    · split
      · simp [h]
      · exact h
      · split
        · exact h
        · split
          · exact h
          · simp only [askFor_mem]
            split
            · simp [h]
            · split_ifs <;> simp [h]

@[simp] theorem resumeCasks_mem (s : State) (t : Nat) : (resumeCasks s t).mem = s.mem := by
  simp [resumeCasks]

theorem execTaskResume_wf (t : Nat) (s : State) (h : Memory.wf s.mem = true) : outcomeWf (execTaskResume t s) = true := by
  simp only [execTaskResume, outcomeWf_next]
  split
  · exact h
  · split
    · exact h
    · split <;> simp [h]

@[simp] theorem startElem_mem (s : State) (e : Nat) (resumed : Bool) : (startElem s e resumed).mem = s.mem := by
  simp [startElem]

@[simp] theorem startGrove_mem (i : LoadImage) (s : State) (gi : Nat × Nat) : (startGrove i s gi).mem = s.mem := by
  simp [startGrove]

@[simp] theorem startData_wf (gs : List Nat) (s : State) (d : DataItem) (h : Memory.wf s.mem = true) : Memory.wf (startData gs s d).mem = true := by
  unfold startData
  extract_lets e
  exact wf_foldl (fun s j h => putWord_wf s _ _ _ _ h) _ _ h

@[simp] theorem startWindows_mem (s : State) (e : Nat) : (startWindows s e).mem = s.mem := by
  refine mem_foldl (fun s d => ?_) _ s
  split <;> rfl

@[simp] theorem startBinding_mem (gs : List Nat) (s : State) (b : Binding) : (startBinding gs s b).mem = s.mem := by
  simp [startBinding]

@[simp] theorem startTask_wf (s : State) (t : Nat) (h : Memory.wf s.mem = true) : Memory.wf (startTask s t).mem = true := by
  unfold startTask
  extract_lets x resumed s₁ s₂ s₃ s₄ s₅ s₆
  have h₂ : Memory.wf s₂.mem = true := by simp [s₂, s₁, mem_foldl, h]
  have h₃ : Memory.wf s₃.mem = true := by
    simp only [s₃]
    split
    · exact h₂
    · exact wf_foldl (startData_wf x.groves) _ _ h₂
  have h₅ : Memory.wf s₅.mem = true := by simp [s₅, s₄, mem_foldl, h₃]
  have h₆ : Memory.wf s₆.mem = true := by
    simp only [s₆]
    split <;> simp [h₅]
  simp [h₆]

theorem execLoadChange_wf (t : Nat) (s : State) (h : Memory.wf s.mem = true) : outcomeWf (execLoadChange t s) = true := by
  simp [execLoadChange, h]

@[simp] theorem takeStarts_wf (n : Nat) (s : State) (k : Nat) (h : Memory.wf s.mem = true) : Memory.wf (takeStarts n s k).mem = true := by
  induction n generalizing s with
  | zero => exact h
  | succ n ih =>
    unfold takeStarts
    split
    · exact ih _ (takeStart_wf _ _ _ h)
    · exact h

@[simp] theorem passStarts_wf (s : State) (k tb : Nat) (h : Memory.wf s.mem = true) : Memory.wf (passStarts s k tb).mem = true := by
  have hs (e : Entry) (l : List Nat) : Memory.wf (l.foldl (fun s _ => skipStart s e) s).mem = true := wf_foldl (fun s _ h => skipStart_wf s e h) l s h
  unfold passStarts
  extract_lets x P m t
  have ht : Memory.wf t.mem = true := hs _ _
  split
  · exact ht
  · exact h

@[simp] theorem passEntry_wf (s : State) (k tb : Nat) (h : Memory.wf s.mem = true) : Memory.wf (passEntry s k tb).mem = true := by
  unfold passEntry
  extract_lets x due u
  have hu : Memory.wf u.mem = true := restage_wf _ _ _ _ h
  split_ifs <;> simp [hu, h]

@[simp] theorem adjustTime_wf (s : State) (offset : Int) (h : Memory.wf s.mem = true) : Memory.wf (adjustTime s offset).mem = true := by
  unfold adjustTime
  split
  · exact h
  · extract_lets tb u
    have hu : Memory.wf u.mem = true := wf_foldl (fun s x h => takeStarts_wf _ s x.1 h) _ _ h
    exact wf_foldl (fun s x h => passEntry_wf s x.1 _ h) _ _ hu

theorem execTimeBaseAdjust_wf (offset : Int) (s : State) (h : Memory.wf s.mem = true) : outcomeWf (execTimeBaseAdjust offset s) = true := by
  simp [execTimeBaseAdjust, h]

/-! ### Host and module links (Machine/Links) -/

@[simp] theorem writeBar_wf (s : State) (x : Part) (a : Nat) (bs : List Byte) (h : Memory.wf s.mem = true) : Memory.wf (writeBar s x a bs).mem = true := by
  unfold writeBar
  split
  · exact h
  · extract_lets n empty t m
    have ht : t.mem = s.mem := by
      simp only [t]
      split <;> simp
    have hm : Memory.wf m = true := by simp [m, ht, clearBytes_wf, h]
    exact setBytes_wf _ _ hm

@[simp] theorem performPart_wf (s : State) (vf : Nat) (h : Memory.wf s.mem = true) : Memory.wf (performPart s vf).mem = true := by
  unfold performPart
  extract_lets x
  split
  · exact h
  · split
    · exact h
    · exact writeBar_wf _ _ _ _ h

@[simp] theorem receiveWrite_mem (s : State) (vf addr : Nat) (data : List Byte) : (receiveWrite s vf addr data).mem = s.mem := by
  simp [receiveWrite]

@[simp] theorem setMsix_mem (s : State) (f : Nat) (x : Msix) : (setMsix s f x).mem = s.mem := by
  simp [setMsix]

@[simp] theorem unmask_mem (s : State) (f n : Nat) : (unmask s f n).mem = s.mem := by
  simp [unmask]

@[simp] theorem setEntry_mem (s : State) (f n : Nat) (high : Bool) (v : Word) : (setEntry s f n high v).mem = s.mem := by
  simp [setEntry]

@[simp] theorem writeMsix_mem (f : Nat) (s : State) (a : Nat × Byte) : (writeMsix f s a).mem = s.mem := by
  simp [writeMsix]

@[simp] theorem hostMsix_mem (s : State) (f off : Nat) (data : List Byte) : (hostMsix s f off data).mem = s.mem := by
  simp [hostMsix, mem_foldl]

@[simp] theorem ackFeatures_mem (s : State) (lo hi : Word) : (ackFeatures s lo hi).mem = s.mem := by
  simp [ackFeatures]

@[simp] theorem ackHighWrite_mem (s : State) (v : Word) : (ackHighWrite s v).mem = s.mem := by
  simp [ackHighWrite]

@[simp] theorem pfWrite_mem (s : State) (off : Nat) (v : Word) : (pfWrite s off v).mem = s.mem := by
  simp [pfWrite]

theorem execHostWrite_wf (vf addr : Nat) (data : List (BitVec 8)) (ide : Bool) (s : State) (h : Memory.wf s.mem = true) :
    outcomeWf (execHostWrite vf addr data ide s) = true := by
  unfold execHostWrite
  rw [outcomeWf_next]
  split
  · exact performPart_wf _ _ h
  · split
    · simp [h]
    · split
      · split <;> simp [h]
      · split <;> simp [h]

/-- A log record and its answer leave memory alone (stated for any record, so that a proof that cites it does not evaluate the record). -/
theorem logEvent_emit_mem (k c p g : Nat) (d : Word) (o : Output) (s : State) : ((logEvent s k c p g d).emit o).mem = s.mem := by
  rw [State.emit_mem, logEvent_mem]

theorem execHostRead_wf (vf addr len : Nat) (ide : Bool) (s : State) (h : Memory.wf s.mem = true) : outcomeWf (execHostRead vf addr len ide s) = true := by
  have emitted (o : Output) : Memory.wf (s.emit o).mem = true := by rw [State.emit_mem]; exact h
  simp only [execHostRead, outcomeWf_next]
  split
  · exact emitted _
  · split
    · split
      · exact emitted _
      · exact h
    · split
      · rw [mem_ite, mem_ite, mem_ite, logEvent_emit_mem, logEvent_emit_mem, State.emit_mem, ite_self, ite_self, ite_self]
        exact h
      · exact emitted _

@[simp] theorem endTasks_wf (s : State) (p : Nat) (h : Memory.wf s.mem = true) : Memory.wf (endTasks s p).mem = true :=
  wf_foldl (fun s t h => vanishTask_wf s t _ _ h) _ _ h

theorem execTdiStateChange_wf (p : Nat) (st : TdiState) (s : State) (h : Memory.wf s.mem = true) : outcomeWf (execTdiStateChange p st s) = true := by
  simp only [execTdiStateChange, outcomeWf_next]
  split <;> simp [h]

theorem execIdeKeyProgram_wf (stream key : Nat) (s : State) (h : Memory.wf s.mem = true) : outcomeWf (execIdeKeyProgram stream key s) = true := by
  simp [execIdeKeyProgram, h]

theorem execGetMeasurements_wf (index : Nat) (rawLog : Bool) (s : State) (h : Memory.wf s.mem = true) :
    outcomeWf (execGetMeasurements index rawLog s) = true := by
  simp only [execGetMeasurements, outcomeWf_next, State.emit_mem, h]

theorem execKeyExchange_wf (peer : Nat) (s : State) (h : Memory.wf s.mem = true) : outcomeWf (execKeyExchange peer s) = true := by
  simp only [execKeyExchange, outcomeWf_next, State.emit_mem, h]

@[simp] theorem modBerovo_mem (s : State) (n : Nat) (f : BerovoPort → BerovoPort) : (modBerovo s n f).mem = s.mem := by
  simp [modBerovo]

theorem execKeyUpdate_wf (port : Nat) (tx : Bool) (key salt : Nat) (s : State) (h : Memory.wf s.mem = true) :
    outcomeWf (execKeyUpdate port tx key salt s) = true := by
  simp [execKeyUpdate, h]

@[simp] theorem sendCredit_mem (s : State) (port vc beats : Nat) : (sendCredit s port vc beats).mem = s.mem := by
  simp [sendCredit]

@[simp] theorem sendOwed_mem (s : State) (port : Nat) : (sendOwed s port).mem = s.mem := by
  simp [sendOwed]

@[simp] theorem returnCredit_mem (s : State) (port vc beats : Nat) : (returnCredit s port vc beats).mem = s.mem := by
  simp [returnCredit]

theorem execBerovoFrameReceive_wf (port : Nat) (header : BitVec 128) (payload : List (BitVec 128)) (tagOk : Bool) (s : State) (h : Memory.wf s.mem = true) :
    outcomeWf (execBerovoFrameReceive port header payload tagOk s) = true := by
  simp [execBerovoFrameReceive, h]

theorem execCreditReturn_wf (port vc beats : Nat) (s : State) (h : Memory.wf s.mem = true) : outcomeWf (execCreditReturn port vc beats s) = true := by
  simp [execCreditReturn, h]

@[simp] theorem setRoute_mem (s : State) (m port : Nat) : (setRoute s m port).mem = s.mem := by
  simp [setRoute, mem_foldl]

theorem execRemoteRequest_wf (src serial rid pa size : Nat) (op : RemoteOp) (how : RemoteAccess) (s : State) (h : Memory.wf s.mem = true) :
    outcomeWf (execRemoteRequest src serial rid pa size op how s) = true := by
  simp only [execRemoteRequest]
  split
  · rfl
  · rw [outcomeWf_next]
    split
    · exact h
    · split
      · split <;> exact h
      · exact h

@[simp] theorem resolveProxies_wf (s : State) (mine : Nat → Nat → Bool) (commit : Bool) (h : Memory.wf s.mem = true) :
    Memory.wf (resolveProxies s mine commit).mem = true := by
  refine wf_foldl (fun s t h => ?_) _ s h
  split <;> simp [h]

theorem execResolve_wf (src serial : Nat) (commit : Bool) (s : State) (h : Memory.wf s.mem = true) : outcomeWf (execResolve src serial commit s) = true := by
  simp [execResolve, h]

theorem execResolveAck_wf (tag target : Nat) (s : State) (h : Memory.wf s.mem = true) : outcomeWf (execResolveAck tag target s) = true := by
  simp [execResolveAck, h]

theorem execLinkFailure_wf (port : Nat) (s : State) (h : Memory.wf s.mem = true) : outcomeWf (execLinkFailure port s) = true := by
  simp [execLinkFailure, h]

/-! ### Gating, sensors and retirement (Machine/Power) -/

theorem execElementGate_wf (e : Nat) (s : State) (h : Memory.wf s.mem = true) : outcomeWf (execElementGate e s) = true := by
  simp [execElementGate, h]

theorem execElementWake_wf (e : Nat) (s : State) (h : Memory.wf s.mem = true) : outcomeWf (execElementWake e s) = true := by
  simp [execElementWake, h]

theorem execSensorSample_wf (g : Nat) (kind : SensorKind) (code : Nat) (s : State) (h : Memory.wf s.mem = true) :
    outcomeWf (execSensorSample g kind code s) = true := by
  simp [execSensorSample, h]

@[simp] theorem evictParks_wf (s : State) (g : Nat) (h : Memory.wf s.mem = true) : Memory.wf (evictParks s g).mem = true :=
  wf_foldl freeBank_wf _ _ h

@[simp] theorem retire_wf (s : State) (g cause : Nat) (h : Memory.wf s.mem = true) : Memory.wf (retire s g cause).mem = true := by
  simp [retire, h]

theorem execGuardSupplyShortfall_wf (g : Nat) (s : State) (h : Memory.wf s.mem = true) : outcomeWf (execGuardSupplyShortfall g s) = true := by
  simp [execGuardSupplyShortfall, h]

theorem execSramSoftError_wf (g : Nat) (s : State) (h : Memory.wf s.mem = true) : outcomeWf (execSramSoftError g s) = true := by
  simp [execSramSoftError, h]

/-! ### Reset, firmware, monitor calls and Zwitex commands (Machine/Bringup) -/

@[simp] theorem setSlot_mem (s : State) (b : Bool) (x : FwSlot) : (setSlot s b x).mem = s.mem := by
  unfold setSlot
  split <;> rfl

@[simp] theorem powerOn_wf (s : State) (h : Memory.wf s.mem = true) : Memory.wf (powerOn s).mem = true := by
  simp [powerOn, filter_wf, h]

@[simp] theorem stageWork_mem (s : State) (b : BootInput) (src : Option FwSource) (k : Nat) : (stageWork s b src k).mem = s.mem := by
  simp only [stageWork]
  split <;> (try split) <;> simp

@[simp] theorem bootStage_mem (b : BootInput) (src : Option FwSource) (s : State) (k : Nat) : (bootStage b src s k).mem = s.mem := by
  simp [bootStage]

@[simp] theorem bootFailed_mem (s : State) (src : Option FwSource) : (bootFailed s src).mem = s.mem := by
  simp only [bootFailed]
  split <;> simp

@[simp] theorem bootReady_mem (s : State) (src : Option FwSource) : (bootReady s src).mem = s.mem := by
  simp only [bootReady]
  split <;> simp

theorem execReset_wf (boot : BootInput) (s : State) (h : Memory.wf s.mem = true) : outcomeWf (execReset boot s) = true := by
  simp only [execReset, outcomeWf_next]
  split <;> simp [h]

theorem execFeatureAck_wf (lo hi : Word) (s : State) (h : Memory.wf s.mem = true) : outcomeWf (execFeatureAck lo hi s) = true := by
  simp [execFeatureAck, h]

@[simp] theorem updateFirmware_mem (s : State) (f : Firmware) : (updateFirmware s f).mem = s.mem := by
  simp [updateFirmware]

theorem execFirmwareUpdate_wf (image : Firmware) (s : State) (h : Memory.wf s.mem = true) : outcomeWf (execFirmwareUpdate image s) = true := by
  simp [execFirmwareUpdate, h]

@[simp] theorem mailbox_mem (s : State) (f v : Nat) : (mailbox s f v).mem = s.mem := by
  simp only [mailbox]
  repeat' split
  all_goals simp

theorem execRegisterWrite_wf (r : DevReg) (v : Word) (s : State) (h : Memory.wf s.mem = true) : outcomeWf (execRegisterWrite r v s) = true := by
  simp only [execRegisterWrite, outcomeWf_next]
  split <;> simp [h]

@[simp] theorem answerCall_mem (s : State) (g : Nat) (v : Word) : (answerCall s g v).mem = s.mem := by
  simp [answerCall]

theorem execMonitorCallFeatures_wf (g : Nat) (s : State) (h : Memory.wf s.mem = true) : outcomeWf (execMonitorCallFeatures g s) = true := by
  simp only [execMonitorCallFeatures, outcomeWf_next]
  split <;> simp [h]

theorem execMonitorCallGroveMap_wf (g : Nat) (s : State) (h : Memory.wf s.mem = true) : outcomeWf (execMonitorCallGroveMap g s) = true := by
  simp [execMonitorCallGroveMap, h]

theorem execMonitorCallGuardDrops_wf (g : Nat) (s : State) (h : Memory.wf s.mem = true) : outcomeWf (execMonitorCallGuardDrops g s) = true := by
  simp [execMonitorCallGuardDrops, h]

@[simp] theorem putImage_mem (s : State) (g : Nat) (m : SuperImage) : (putImage s g m).mem = s.mem := by
  simp [putImage]

@[simp] theorem replaceImage_mem (s : State) (g c va : Nat) : (replaceImage s g c va).mem = s.mem := by
  simp only [replaceImage]
  split_ifs
  · rfl
  · rfl
  · split <;> simp

theorem execMonitorCallReplaceImage_wf (g : Nat) (s : State) (h : Memory.wf s.mem = true) : outcomeWf (execMonitorCallReplaceImage g s) = true := by
  simp [execMonitorCallReplaceImage, h]

theorem execMonitorCallInvalid_wf (g : Nat) (s : State) (h : Memory.wf s.mem = true) : outcomeWf (execMonitorCallInvalid g s) = true := by
  simp only [execMonitorCallInvalid, outcomeWf_next]
  split <;> simp [h]

theorem execZwitexTime_wf (t : Nat) (s : State) (h : Memory.wf s.mem = true) : outcomeWf (execZwitexTime t s) = true := by
  simp [execZwitexTime, h]

theorem execZwitexModuleNumber_wf (n : Nat) (s : State) (h : Memory.wf s.mem = true) : outcomeWf (execZwitexModuleNumber n s) = true := by
  simp [execZwitexModuleNumber, h]

theorem execZwitexHopTable_wf (m hops : Nat) (s : State) (h : Memory.wf s.mem = true) : outcomeWf (execZwitexHopTable m hops s) = true := by
  simp [execZwitexHopTable, h]

theorem execZwitexFirmwareTransfer_wf (image : Firmware) (s : State) (h : Memory.wf s.mem = true) : outcomeWf (execZwitexFirmwareTransfer image s) = true := by
  simp [execZwitexFirmwareTransfer, h]

theorem execZwitexEventLogRead_wf (s : State) (h : Memory.wf s.mem = true) : outcomeWf (execZwitexEventLogRead s) = true := by
  simp [execZwitexEventLogRead, h]

theorem execZwitexQuarantineClear_wf (g : Nat) (kind : SensorKind) (s : State) (h : Memory.wf s.mem = true) :
    outcomeWf (execZwitexQuarantineClear g kind s) = true := by
  simp [execZwitexQuarantineClear, h]

@[simp] theorem noteChange_mem (s : State) (p : Nat) : (noteChange s p).mem = s.mem := by
  simp [noteChange]

@[simp] theorem leavePart_mem (s : State) (g : Nat) : (leavePart s g).mem = s.mem := by
  simp [leavePart]

@[simp] theorem changeKeys_mem (s : State) (old new : List Nat) : (changeKeys s old new).mem = s.mem := by
  simp [changeKeys]

@[simp] theorem definePart_mem (s : State) (p row col rows cols : Nat) (granules keys : List Nat) :
    (definePart s p row col rows cols granules keys).mem = s.mem := by
  simp [definePart, mem_foldl]

@[simp] theorem freeCtx_wf (s : State) (c : Nat) (h : Memory.wf s.mem = true) : Memory.wf (freeCtx s c).mem = true :=
  wf_foldl freeBank_wf _ _ h

@[simp] theorem removePart_wf (s : State) (p : Nat) (h : Memory.wf s.mem = true) : Memory.wf (removePart s p).mem = true := by
  have hd (l : List Nat) (u : State) : (l.foldl (fun s t => { s with tags := merase s.tags t, tasks := merase s.tasks t }) u).mem = u.mem :=
    mem_foldl (f := fun (s : State) t => { s with tags := merase s.tags t, tasks := merase s.tasks t }) (fun _ _ => rfl) l u
  unfold removePart
  extract_lets u x cs mine u₁ u₂ inGranule u₃ u₄
  have h₁ : Memory.wf u₁.mem = true := by simp [u₁, u, hd, h]
  have h₂ : Memory.wf u₂.mem = true := wf_foldl freeCtx_wf _ _ h₁
  have h₃ : Memory.wf u₃.mem = true := filter_wf _ h₂
  simp [u₄, mem_foldl, h₃]

theorem execZwitexPartitionCommand_wf (c : PartitionCommand) (s : State) (h : Memory.wf s.mem = true) : outcomeWf (execZwitexPartitionCommand c s) = true := by
  simp only [execZwitexPartitionCommand, outcomeWf_next]
  split <;> (try split) <;> simp [h]

theorem execZwitexLostModule_wf (m : Nat) (s : State) (h : Memory.wf s.mem = true) : outcomeWf (execZwitexLostModule m s) = true := by
  simp [execZwitexLostModule, h]

theorem execGroveRestore_wf (g : Nat) (signed selfTest : Bool) (s : State) (h : Memory.wf s.mem = true) :
    outcomeWf (execGroveRestore g signed selfTest s) = true := by
  simp [execGroveRestore, h]

/-! ### Channel words (Machine/ChannelOps) -/

theorem readHead_wf (i : Instr) (s : State) (d a : BitVec 6) (h : Memory.wf s.mem = true) : outcomeWf (readHead i s d a) = true := by
  refine issueWord_wf _ _ _ h (fun t ht => ?_)
  split <;> simp [ht]

theorem execSend_wf (t d a : BitVec 6) (s : State) (h : Memory.wf s.mem = true) : outcomeWf (execSend t d a s) = true :=
  issueWord_wf _ _ _ h (fun _ ht => by simp [ht])

theorem execFwd_wf (t d a : BitVec 6) (s : State) (h : Memory.wf s.mem = true) : outcomeWf (execFwd t d a s) = true :=
  issueWord_wf _ _ _ h (fun _ ht => by simp [ht])

theorem execToss_wf (t a : BitVec 6) (s : State) (h : Memory.wf s.mem = true) : outcomeWf (execToss t a s) = true :=
  issueWord_wf _ _ _ h (fun _ ht => by simp [ht])

theorem execMark_wf (t d b : BitVec 6) (s : State) (h : Memory.wf s.mem = true) : outcomeWf (execMark t d b s) = true :=
  issueWord_wf _ _ _ h (fun _ ht => by simp [ht])

theorem execGnext_wf (t : BitVec 6) (s : State) (h : Memory.wf s.mem = true) : outcomeWf (execGnext t s) = true := by
  refine issueWord_wf _ _ _ h (fun t ht => ?_)
  split <;> simp [ht]

theorem steer_wf (i : Instr) (s : State) (d a b : BitVec 6) (k : Nat) (h : Memory.wf s.mem = true) : outcomeWf (steer i s d a b k) = true :=
  issueWord_wf _ _ _ h (fun _ ht => by simp [ht])

@[simp] theorem writeChosen_mem (s0 s1 : State) (d c : BitVec 6) : (writeChosen s0 s1 d c).mem = s1.mem := by
  simp only [writeChosen]
  split <;> (try split) <;> simp

theorem joinBy_wf (i : Instr) (s : State) (d a b : BitVec 6) (k : Nat) (h : Memory.wf s.mem = true) : outcomeWf (joinBy i s d a b k) = true := by
  refine issueWord_wf _ _ _ h (fun t ht => ?_)
  split <;> simp [ht]

theorem mergeBy_wf (i : Instr) (s : State) (d a b : BitVec 6) (k : Nat) (h : Memory.wf s.mem = true) : outcomeWf (mergeBy i s d a b k) = true :=
  issueWord_wf _ _ _ h (fun _ ht => by simp [ht])

/-! ### Control words (Machine/Control) -/

@[simp] theorem setPc_mem (s : State) (pc : Nat) : (setPc s pc).mem = s.mem := by
  simp only [setPc]
  split <;> simp

theorem jump_wf (i : Instr) (s : State) (target : State → Word) (f : State → State) (h : Memory.wf s.mem = true) (hf : ∀ t, (f t).mem = t.mem) :
    outcomeWf (jump i s target f) = true := by
  unfold jump
  split
  · exact raiseIllegal_wf s 9 h
  · exact issueWord_wf _ _ _ h (fun _ ht => by simp [hf, ht])

theorem execBranch_wf (t : BitVec 6) (o : BitVec 20) (s : State) (h : Memory.wf s.mem = true) : outcomeWf (execBranch t o s) = true :=
  jump_wf _ _ _ _ h (fun _ => rfl)

theorem execCall_wf (t : BitVec 6) (o : BitVec 20) (s : State) (h : Memory.wf s.mem = true) : outcomeWf (execCall t o s) = true :=
  jump_wf _ _ _ _ h (fun _ => by simp)

theorem execRet_wf (t a : BitVec 6) (s : State) (h : Memory.wf s.mem = true) : outcomeWf (execRet t a s) = true :=
  jump_wf _ _ _ _ h (fun _ => rfl)

theorem execNop_wf (t : BitVec 6) (s : State) (h : Memory.wf s.mem = true) : outcomeWf (execNop t s) = true :=
  issueWord_wf _ _ _ h (fun _ ht => by simp [ht])

theorem execLoopDec_wf (t : BitVec 6) (k : BitVec 3) (a : BitVec 6) (s : State) (h : Memory.wf s.mem = true) : outcomeWf (execLoopDec t k a s) = true :=
  issueWord_wf _ _ _ h (fun _ ht => by simp [ht])

@[simp] theorem setHold_mem (s : State) (h : Hold) : (setHold s h).mem = s.mem := by
  simp only [setHold]
  split <;> simp

theorem execWait_wf (t a : BitVec 6) (s : State) (h : Memory.wf s.mem = true) : outcomeWf (execWait t a s) = true :=
  issueWord_wf _ _ _ h (fun _ ht => by simp [ht])

theorem execHalt_wf (t : BitVec 6) (s : State) (h : Memory.wf s.mem = true) : outcomeWf (execHalt t s) = true := by
  refine issueWord_wf _ _ _ h (fun t ht => ?_)
  split <;> simp [ht]

theorem execTrap_wf (t n : BitVec 6) (s : State) (h : Memory.wf s.mem = true) : outcomeWf (execTrap t n s) = true := by
  refine issueWord_wf _ _ _ h (fun u hu => ?_)
  rw [Effect.wf_done]
  split
  · simp [hu]
  · split <;> simp [hu]

theorem execSret_wf (t : BitVec 6) (s : State) (h : Memory.wf s.mem = true) : outcomeWf (execSret t s) = true :=
  issueWord_wf _ _ _ h (fun _ ht => by simp [ht])

theorem execIllegalWord_wf (detail : BitVec 6) (s : State) (h : Memory.wf s.mem = true) : outcomeWf (execIllegalWord detail s) = true := by
  simp [execIllegalWord, h]

theorem execSkippedWord_wf (s : State) (h : Memory.wf s.mem = true) : outcomeWf (execSkippedWord s) = true := by
  simp only [execSkippedWord, outcomeWf_next]
  split <;> simp [h]

/-! ### Lane words (Machine/Lanes) -/

theorem laneOp_wf (i : Instr) (s : State) (vop lt st rm : Nat) (d : BitVec 6) (srcs : List (BitVec 6)) (h : Memory.wf s.mem = true) :
    outcomeWf (laneOp i s vop lt st rm d srcs) = true := by
  refine issueWord_wf _ _ _ h (fun t ht => ?_)
  split <;> simp [ht]

@[simp] theorem setPreds_mem (s : State) (k x n : Nat) : (setPreds s k x n).mem = s.mem := by
  induction n generalizing s k x with
  | zero => rfl
  | succ n ih => simp [setPreds, ih]

theorem execVcmp_wf (t d a b : BitVec 6) (lt : BitVec 4) (cc : BitVec 3) (s : State) (h : Memory.wf s.mem = true) :
    outcomeWf (execVcmp t d a b lt cc s) = true := by
  refine issueWord_wf _ _ _ h (fun t ht => ?_)
  split <;> simp [ht]

/-! ### Predicate words (Machine/Predicate) -/

theorem predicate_wf (i : Instr) (s : State) (k : BitVec 3) (v : State → Option Bool) (h : Memory.wf s.mem = true) : outcomeWf (predicate i s k v) = true := by
  refine issueWord_wf _ _ _ h (fun t ht => ?_)
  split <;> simp [ht]

/-! ### Scalar words (Machine/Scalar) -/

theorem divide_wf (i : Instr) (s : State) (d a b : BitVec 6) (f : Word → Word → Word) (h : Memory.wf s.mem = true) : outcomeWf (divide i s d a b f) = true :=
  issueWord_wf _ _ _ h (fun _ ht => by simp [ht])

theorem update_wf (i : Instr) (s : State) (d : BitVec 6) (v : State → Option Word) (h : Memory.wf s.mem = true) : outcomeWf (update i s d v) = true :=
  issueWord_wf _ _ _ h (fun _ ht => by simp [ht])

theorem selectBy_wf (i : Instr) (s : State) (d a b : BitVec 6) (k : Nat) (h : Memory.wf s.mem = true) : outcomeWf (selectBy i s d a b k) = true :=
  issueWord_wf _ _ _ h (fun _ ht => by simp [ht])

/-! ### Every instruction, and the step -/

/-- Every word and every move keeps the canonical form: by the shared operation it goes through, or by its own lemma. -/
theorem exec_wf (i : Instr) (s : State) (h : Memory.wf s.mem = true) : outcomeWf (exec i s) = true := by
  -- Unfolded once, so that each arm below is a match on its own constructor.
  delta exec
  cases i with
  | add | sub | mul | mulh | mulhu | rotl | and | or | xor | andn | orn | shl | shr | sar | min | max | minu | maxu | bfx => exact compute2_wf _ _ _ _ _ _ h
  | div | rem => exact divide_wf _ _ _ _ _ _ h
  | bfi | movi | movh => exact update_wf _ _ _ _ h
  | mov | abs | clz | ctz | popc | addi | shli | shri | sari | extend | bpt => exact compute1_wf _ _ _ _ _ h
  | selP0P3 | selP4P7 => exact selectBy_wf _ _ _ _ _ _ h
  | cmp | pand | por | pxor | pnot | pset | pmov | cmpi => exact predicate_wf _ _ _ _ h
  | vaddF32 | vaddBf16 | vaddF16 | vaddI32 | vsubF32 | vsubBf16 | vsubF16 | vsubI32 | vmulF32 | vmulBf16 | vmulF16 | vmulI32 | vminF32
  | vminBf16 | vminF16 | vminI32 | vmaxF32 | vmaxBf16 | vmaxF16 | vmaxI32 | vdotBf16 | vdotE4m3 | vdotE5m2 | vdotI8 | vsumF32 | vsumBf16
  | vsumF16 | vsumI32 | vabsF32 | vabsBf16 | vabsF16 | vabsI32 | vnegF32 | vnegBf16 | vnegF16 | vnegI32 | vsel8 | vsel16 | vsel32 | vsel64
  | vsplat8 | vsplat16 | vsplat32 | vsplat64 | vrcpeF32 | vrcpeF64 | vrsqeF32 | vrsqeF64 | vexp2F32 | vdivF32 | vscaleF32 | vscaleBf16
  | vaddF64 | vsubF64 | vmulF64 | vaddI16 | vsubI16 | vaddI8 | vsubI8 | vaddLong | vsubLong | vmulLong | vfma | vfms | vminLong | vmaxLong
  | vabsLong | vnegLong | vselLong | vdotLong | vsumLong | vrcpeLong | vrsqeLong | vexp2Long | vdivLong | vscaleLong | vcvt | vshuf | vpack
  | vunpk | vsplatLong => exact laneOp_wf _ _ _ _ _ _ _ _ h
  | vcmp => exact execVcmp_wf _ _ _ _ _ _ _ h
  | deq | peek => exact readHead_wf _ _ _ _ h
  | send => exact execSend_wf _ _ _ _ h
  | fwd => exact execFwd_wf _ _ _ _ h
  | toss => exact execToss_wf _ _ _ h
  | mark => exact execMark_wf _ _ _ _ h
  | gnext => exact execGnext_wf _ _ h
  | steerP0P3 | steerP4P7 => exact steer_wf _ _ _ _ _ _ h
  | selectP0P3 | selectP4P7 => exact joinBy_wf _ _ _ _ _ _ h
  | selectMrgP0P3 | selectMrgP4P7 => exact mergeBy_wf _ _ _ _ _ _ h
  | ld | ldS | ldZ => exact loadOp_wf _ _ _ _ _ _ _ h
  | st | stNarrow => exact storeOp_wf _ _ _ _ _ _ h
  | acas | axch | aadd | aaddf | amin | amax | aminu | amaxu | aand | aor => exact atomicOp_wf _ _ _ _ _ _ _ h
  | ldg => exact execLdg_wf _ _ _ _ _ _ _ h
  | stg => exact execStg_wf _ _ _ _ _ _ _ h
  | tfull | tempty => exact tagOp_wf _ _ _ _ h
  | void => exact execVoid_wf _ _ _ _ h
  | acc => exact execAcc_wf _ _ _ _ h
  | acvtGen | acvtRel => exact convert_wf _ _ _ _ _ _ h
  | ain => exact execAin_wf _ _ _ _ _ h
  | fenceE | fenceG | fenceT | fenceM | fenceD => exact fenceOp_wf _ _ _ h
  | barArrive => exact execBarArrive_wf _ _ _ _ h
  | barWait => exact execBarWait_wf _ _ _ _ h
  | atTb => exact execAtTb_wf _ _ _ _ h
  | evset | evwait | evclr => exact eventOp_wf _ _ _ _ h
  | chkpt => exact execChkpt_wf _ _ _ h
  | refill => exact execRefill_wf _ _ _ h
  | commit => exact execCommit_wf _ _ _ h
  | abort => exact execAbort_wf _ _ _ h
  | lcld | lcctx | lcev | lcevRel => exact guardedOp_wf _ _ _ _ h
  | lcin => exact execLcin_wf _ _ _ _ h
  | lcout => exact execLcout_wf _ _ _ _ _ h
  | raceK => exact execRaceK_wf _ _ _ _ _ h
  | place => exact execPlace_wf _ _ _ _ _ h
  | pload => exact execPload_wf _ _ _ _ h
  | pswap => exact execPswap_wf _ _ _ h
  | gcall => exact execGcall_wf _ _ _ _ h
  | gret => exact execGret_wf _ _ _ h
  | sbind => exact execSbind_wf _ _ _ _ _ _ _ h
  | spat => exact execSpat_wf _ _ _ _ _ h
  | sgo => exact execSgo_wf _ _ _ _ _ _ _ _ h
  | swait => exact execSwait_wf _ _ _ h
  | sbar => exact execSbar_wf _ _ h
  | scopy => exact execScopy_wf _ _ _ _ _ _ _ _ _ h
  | sgath => exact execSgath_wf _ _ _ _ _ _ _ _ _ h
  | sscat => exact execSscat_wf _ _ _ _ _ _ _ _ h
  | sisect | smerge => exact pairWord_wf _ _ _ _ _ _ _ _ _ h
  | branch => exact execBranch_wf _ _ _ h
  | call => exact execCall_wf _ _ _ h
  | nop => exact execNop_wf _ _ h
  | halt => exact execHalt_wf _ _ h
  | trap => exact execTrap_wf _ _ _ h
  | ret => exact execRet_wf _ _ _ h
  | wait => exact execWait_wf _ _ _ h
  | loopDec => exact execLoopDec_wf _ _ _ _ h
  | sret => exact execSret_wf _ _ h
  | mfsr => exact execMfsr_wf _ _ _ _ h
  | mtsr => exact execMtsr_wf _ _ _ _ h
  | tlbinv => exact execTlbinv_wf _ _ _ h
  | tlbinva => exact execTlbinva_wf _ _ h
  | agpause => exact execAgpause_wf _ _ _ h
  | agpatch => exact execAgpatch_wf _ _ _ h
  | fltack => exact execFltack_wf _ _ _ h
  | illegalWord => exact execIllegalWord_wf _ _ h
  | skippedWord => exact execSkippedWord_wf _ h
  | tokenHop => exact execTokenHop_wf _ _ _ _ h
  | tokenDeliver => exact execTokenDeliver_wf _ _ _ h
  | requestAdmit => exact execRequestAdmit_wf _ _ h
  | requestServe => exact execRequestServe_wf _ _ _ h
  | deferredReadWake => exact execDeferredReadWake_wf _ _ h
  | requestReply => exact execRequestReply_wf _ _ h
  | waveRequestRelease => exact execWaveRequestRelease_wf _ _ h
  | fenceComplete => exact execFenceComplete_wf _ _ _ h
  | atEmit => exact execAtEmit_wf _ _ _ h
  | sequencerWaitExpire => exact execSequencerWaitExpire_wf _ _ h
  | allowanceRecall => exact execAllowanceRecall_wf _ _ h
  | dry => exact execDry_wf _ _ h
  | graceExpired => exact execGraceExpired_wf _ _ h
  | boostFallback => exact execBoostFallback_wf _ _ h
  | caskPour => exact execCaskPour_wf _ _ h
  | pourGrant => exact execPourGrant_wf _ _ h
  | commitTask => exact execCommitTask_wf _ _ h
  | vanish => exact execVanish_wf _ _ h
  | bankHandover => exact execBankHandover_wf _ _ _ h
  | matrixIntake => exact execMatrixIntake_wf _ _ h
  | matrixTileStep => exact execMatrixTileStep_wf _ _ h
  | matrixTileWrite => exact execMatrixTileWrite_wf _ _ h
  | converterToken => exact execConverterToken_wf _ _ h
  | cornerTurnCollect => exact execCornerTurnCollect_wf _ _ h
  | cornerTurnEmit => exact execCornerTurnEmit_wf _ _ h
  | agAccess => exact execAgAccess_wf _ _ _ h
  | streamCommandRetire => exact execStreamCommandRetire_wf _ _ _ h
  | sparseSetStep => exact execSparseSetStep_wf _ _ _ h
  | lcIntake => exact execLcIntake_wf _ _ _ h
  | lcLoadBlock => exact execLcLoadBlock_wf _ _ h
  | lcSweep => exact execLcSweep_wf _ _ h
  | lcQueueOp => exact execLcQueueOp_wf _ _ h
  | raceIntake => exact execRaceIntake_wf _ _ _ h
  | raceRelease => exact execRaceRelease_wf _ _ h
  | placerSizing => exact execPlacerSizing_wf _ _ h
  | placePreload => exact execPlacePreload_wf _ _ h
  | ploadComplete => exact execPloadComplete_wf _ _ _ h
  | planeSwap => exact execPlaneSwap_wf _ _ h
  | loadChange => exact execLoadChange_wf _ _ h
  | freezePoint => exact execFreezePoint_wf _ _ h
  | gridCallSwitch => exact execGridCallSwitch_wf _ _ h
  | gridReturn => exact execGridReturn_wf _ _ h
  | waveEntryPoint => exact execWaveEntryPoint_wf _ _ h
  | wavePoint => exact execWavePoint_wf _ _ h
  | waveComplete => exact execWaveComplete_wf _ _ h
  | suspension => exact execSuspension_wf _ _ h
  | taskResume => exact execTaskResume_wf _ _ h
  | tagScrub => exact execTagScrub_wf _ _ h
  | forkStall => exact execForkStall_wf _ _ _ h
  | progressStall => exact execProgressStall_wf _ _ h
  | barrierShort => exact execBarrierShort_wf _ _ h
  | trapEntry => exact execTrapEntry_wf _ _ h
  | tableWalk => exact execTableWalk_wf _ _ _ h
  | slotTableRead => exact execSlotTableRead_wf _ _ _ h
  | slotStart => exact execSlotStart_wf _ _ _ h
  | launch => exact execLaunch_wf _ _ _ h
  | timeBaseAdjust => exact execTimeBaseAdjust_wf _ _ h
  | hostWrite => exact execHostWrite_wf _ _ _ _ _ h
  | hostRead => exact execHostRead_wf _ _ _ _ _ h
  | tdiStateChange => exact execTdiStateChange_wf _ _ _ h
  | ideKeyProgram => exact execIdeKeyProgram_wf _ _ _ h
  | getMeasurements => exact execGetMeasurements_wf _ _ _ h
  | keyExchange => exact execKeyExchange_wf _ _ h
  | keyUpdate => exact execKeyUpdate_wf _ _ _ _ _ h
  | berovoFrameReceive => exact execBerovoFrameReceive_wf _ _ _ _ _ h
  | creditReturn => exact execCreditReturn_wf _ _ _ _ h
  | remoteRequest => exact execRemoteRequest_wf _ _ _ _ _ _ _ _ h
  | remoteReply => exact execRemoteReply_wf _ _ _ _ _ h
  | resolve => exact execResolve_wf _ _ _ _ h
  | resolveAck => exact execResolveAck_wf _ _ _ h
  | remoteAccessTimeout => exact execRemoteAccessTimeout_wf _ _ h
  | sensorSample => exact execSensorSample_wf _ _ _ _ h
  | elementGate => exact execElementGate_wf _ _ h
  | elementWake => exact execElementWake_wf _ _ h
  | guardSupplyShortfall => exact execGuardSupplyShortfall_wf _ _ h
  | sramSoftError => exact execSramSoftError_wf _ _ h
  | reset => exact execReset_wf _ _ h
  | featureAck => exact execFeatureAck_wf _ _ _ h
  | firmwareUpdate => exact execFirmwareUpdate_wf _ _ h
  | suspendRequest => exact execSuspendRequest_wf _ _ h
  | endSuspendedTask => exact execEndSuspendedTask_wf _ _ _ h
  | registerWrite => exact execRegisterWrite_wf _ _ _ h
  | monitorCallFeatures => exact execMonitorCallFeatures_wf _ _ h
  | monitorCallGroveMap => exact execMonitorCallGroveMap_wf _ _ h
  | monitorCallGuardDrops => exact execMonitorCallGuardDrops_wf _ _ h
  | monitorCallReplaceImage => exact execMonitorCallReplaceImage_wf _ _ h
  | monitorCallInvalid => exact execMonitorCallInvalid_wf _ _ h
  | zwitexTime => exact execZwitexTime_wf _ _ h
  | zwitexModuleNumber => exact execZwitexModuleNumber_wf _ _ h
  | zwitexHopTable => exact execZwitexHopTable_wf _ _ _ h
  | zwitexFirmwareTransfer => exact execZwitexFirmwareTransfer_wf _ _ h
  | zwitexEventLogRead => exact execZwitexEventLogRead_wf _ h
  | zwitexQuarantineClear => exact execZwitexQuarantineClear_wf _ _ _ h
  | zwitexPartitionCommand => exact execZwitexPartitionCommand_wf _ _ h
  | zwitexLostModule => exact execZwitexLostModule_wf _ _ h
  | groveRestore => exact execGroveRestore_wf _ _ _ _ h
  | linkFailure => exact execLinkFailure_wf _ _ h

/-- Every outcome of a step that goes on has canonical memory. -/
theorem step_wf (s : State) (h : Memory.wf s.mem = true) : outcomeWf (step s) = true := by
  have hn : Memory.wf (nextMove s).2.mem = true := by rw [nextMove_mem]; exact h
  unfold step
  split
  next e u hm =>
    rw [hm] at hn
    split
    · exact exec_wf _ _ hn
    · exact hn
  next g u hm =>
    rw [hm] at hn
    split
    · split
      · exact causeAt_wf _ _ _ _ hn
      · exact exec_wf _ _ hn
    · exact hn
  next i u hm =>
    rw [hm] at hn
    split
    · exact exec_wf _ _ hn
    · exact hn

/-- Settles O60: reset memory lists nothing, and a step is a choice of move, which leaves memory alone, then a cause or an instruction, which keep its form. -/
theorem stepsKeepMemoryCanonical : Obligations.StepsKeepMemoryCanonical := by
  unfold Obligations.StepsKeepMemoryCanonical
  refine ⟨rfl, fun s t h hst => ?_⟩
  have hs := step_wf s h
  rw [hst] at hs
  exact hs

end Sys2Proof.Machine
end

section
/-! PROOFS. The machine at reset (O26): what each reading of the state gives where every structure has its default values. -/

namespace Sys2Proof.Machine

/-- Entry i of a register file of zeros is zero. -/
theorem reg_replicate_zero {n : Nat} (i : Nat) : reg (Vector.replicate n (0 : Word)) i = 0 := by
  rw [reg, Vector.getElem?_replicate]
  split <;> rfl

theorem Plane.strand_default (k : Nat) : Plane.strand {} k = {} := by
  rw [Plane.strand, Vector.getElem?_replicate]
  split <;> rfl

theorem reset_grove (g : Nat) : State.reset.grove g = {} := rfl

theorem reset_selectedRecord (g : Nat) : selectedRecord (State.reset.grove g) = {} := rfl

/-- STATUS, SVEC, SBASE and EPC (R303). -/
theorem reset_readSys_level (g : Nat) :
    readSys State.reset g 0 = 0 ∧ readSys State.reset g 1 = 12288 ∧ readSys State.reset g 2 = 12288 ∧ readSys State.reset g 3 = 0 := by
  simp [readSys, statusWord, reset_grove]

/-- TR0 to TR7 (R303). -/
theorem reset_readSys_tr (g n : Nat) (h : 5 ≤ n ∧ n ≤ 12) : readSys State.reset g n = 0 := by
  obtain ⟨hlo, hhi⟩ := h
  interval_cases n <;> (simp only [readSys, reset_grove]; exact reg_replicate_zero _)

/-- The words of the selected fault record (R346). -/
theorem reset_readSys_record (g n : Nat) (h : 24 ≤ n ∧ n ≤ 27) : readSys State.reset g n = 0 := by
  obtain ⟨hlo, hhi⟩ := h
  interval_cases n <;> simp [readSys, reset_selectedRecord]

/-- The registers that read a field of the grove or of its task, GROVEID and PART apart. -/
theorem reset_readSys_field (g n : Nat) (h : 13 ≤ n ∧ n ≤ 16 ∨ 18 ≤ n ∧ n ≤ 23 ∨ 28 ≤ n ∧ n ≤ 30) : readSys State.reset g n = 0 := by
  obtain ⟨hlo, hhi⟩ | ⟨hlo, hhi⟩ | ⟨hlo, hhi⟩ := h <;> interval_cases n <;> simp [readSys, reset_grove]

theorem reset_readSys (g n : Nat) (h : 5 ≤ n ∧ n ≤ 16 ∨ 18 ≤ n ∧ n ≤ 30) : readSys State.reset g n = 0 := by
  by_cases htr : n ≤ 12
  · exact reset_readSys_tr g n (by omega)
  · by_cases hrec : 24 ≤ n ∧ n ≤ 27
    · exact reset_readSys_record g n hrec
    · exact reset_readSys_field g n (by omega)

/-- No sequencer may issue: every one is halted. -/
theorem reset_mayIssue (g : Nat) : mayIssue State.reset g = false := rfl

/-- No element may fire: no task holds its grove. -/
theorem reset_mayFire (e : Nat) : mayFire State.reset e = false := by
  simp [mayFire, State.taskOfElem, State.taskOfGrove, reset_grove]

theorem reset_selectSlot (e : Nat) : selectSlot State.reset e = none := by
  simp [selectSlot, reset_mayFire]

theorem reset_slotWord (e n : Nat) : (State.reset.elem e).active.slotWord n = emptySlot := rfl

theorem reset_chanWord (e n : Nat) : (State.reset.elem e).active.chanWord n = emptyChan := rfl

/-- A readable code is no constant and no special operand, so it reads a register file (R107, R112). -/
theorem not_special_of_readable {k : UnitKind} {c : BitVec 6} (h : readable k true c = true) : ¬ (16 ≤ c.toNat ∧ c.toNat ≤ 23) := by
  rw [readable, Bool.or_eq_true, decide_eq_true_eq] at h
  obtain h | h := h
  · omega
  · split at h <;> simp at h <;> omega

theorem reset_regVal (u : Cur) (c : BitVec 6) (h : readable (curKind u) true c = true) : regVal { State.reset with cur := u } c = 0 := by
  rw [regVal, if_neg (not_special_of_readable h)]
  cases u with
  | slot e k n =>
    change (if c.toNat < 16 then reg (Plane.strand {} k.toNat).w c.toNat else reg ({} : Plane).sreg (c.toNat - 24)) = 0
    rw [Plane.strand_default]
    split <;> exact reg_replicate_zero _
  | word g pc =>
    change (if c.toNat < 16 then reg ({} : SeqBank).w c.toNat else reg ({} : SeqBank).a (c.toNat - 32)) = 0
    split <;> exact reg_replicate_zero _

theorem reset_curPreds (u : Cur) : curPreds { State.reset with cur := u } = 0 := by
  cases u with
  | slot e k n => exact congrArg Strand.p (Plane.strand_default k.toNat)
  | word g pc => rfl

/-- Each of the six selectors of a wiring word at reset names input 0x300 (R241). -/
theorem selectorOf_resetWiring (j : Nat) (hj : j < 6) : Claims.selectorOf resetWiring j = 0x300 := by
  interval_cases j <;> rfl

theorem reset_mapWord (n : Nat) : mapWord State.reset n = BitVec.allOnes 64 := by
  unfold mapWord
  split
  · rfl
  · change (List.range 64).foldl (fun w b => w ||| ((1 : Word) <<< b)) 0 = BitVec.allOnes 64
    decide

/-- Settles O26: the state's default values are its reset values, so each conjunct is the reset lemma of the function it reads through. -/
theorem resetState : Obligations.ResetState := by
  unfold Obligations.ResetState
  refine ⟨rfl, rfl, rfl, rfl, rfl, rfl, rfl, fun g => ?_, fun e => ?_, reset_regVal, reset_curPreds, fun _ _ => selectorOf_resetWiring,
    fun n b hb => ?_, fun _ => rfl, fun _ => rfl⟩
  · obtain ⟨hstatus, hsvec, hsbase, hepc⟩ := reset_readSys_level g
    exact ⟨hstatus, hsvec, hsbase, hepc, reset_readSys g, rfl, reset_mayIssue g⟩
  · rw [reset_slotWord, reset_chanWord]
    exact ⟨reset_selectSlot e, rfl, by decide⟩
  · rw [reset_mapWord, BitVec.getLsbD_allOnes]
    exact decide_eq_true hb

end Sys2Proof.Machine
end

section
/-! PROOFS. What the next move runs (O3), skipped words and waits (O23), and written registers and predicates (O12).

A register is read and written through `Plane.readReg`, `Plane.putReg` and their like of a sequencer's bank, which `regVal` and `writeReg` come to for readable codes.
A frame of a statement (`registersKept`, `predicatesKept`, `memoryKept`) has a criterion for any two states and one for a change of one element or one grove. -/

namespace Sys2Proof.Machine
open Sys2Proof.Claims

/-! ### Registers of a unit: what a read gives after a write (R22, R24, R107) -/

/-- The register that a code names for a strand of a plane. -/
def Plane.readReg (p : Plane) (k : Nat) (c : BitVec 6) : Word :=
  if c.toNat < 16 then reg (p.strand k).w c.toNat else reg p.sreg (c.toNat - 24)

/-- A plane with a register of a strand written. -/
def Plane.putReg (p : Plane) (k : Nat) (c : BitVec 6) (v : Word) : Plane :=
  if c.toNat < 16 then p.setStrand k { p.strand k with w := setAt (p.strand k).w c.toNat v } else { p with sreg := setAt p.sreg (c.toNat - 24) v }

/-- The register that a code names in a sequencer's bank. -/
def SeqBank.readReg (b : SeqBank) (c : BitVec 6) : Word := if c.toNat < 16 then reg b.w c.toNat else reg b.a (c.toNat - 32)

/-- A sequencer's bank with a register written. -/
def SeqBank.putReg (b : SeqBank) (c : BitVec 6) (v : Word) : SeqBank :=
  if c.toNat < 16 then { b with w := setAt b.w c.toNat v } else { b with a := setAt b.a (c.toNat - 32) v }

theorem readable_slot_iff (e : Nat) (k : BitVec 2) (n : Nat) (c : BitVec 6) :
    readable (curKind (.slot e k n)) true c = true ↔ c.toNat < 16 ∨ 24 ≤ c.toNat ∧ c.toNat < 32 := by
  have hk : curKind (.slot e k n) ≠ .seq := by
    by_cases h : isC e = true <;> simp [curKind, h]
  simp [readable, hk]

theorem readable_word_iff (g a : Nat) (c : BitVec 6) : readable (curKind (.word g a)) true c = true ↔ c.toNat < 16 ∨ 32 ≤ c.toNat ∧ c.toNat < 48 := by
  simp [readable, curKind]

theorem regVal_slot (s : State) (e : Nat) (k : BitVec 2) (n : Nat) {c : BitVec 6} (h : ¬ (16 ≤ c.toNat ∧ c.toNat ≤ 23)) :
    regVal { s with cur := .slot e k n } c = (s.elem e).active.readReg k.toNat c := by
  rw [regVal, if_neg h]
  rfl

theorem regVal_word (s : State) (g a : Nat) {c : BitVec 6} (h : ¬ (16 ≤ c.toNat ∧ c.toNat ≤ 23)) :
    regVal { s with cur := .word g a } c = (s.grove g).bank.readReg c := by
  rw [regVal, if_neg h]
  rfl

theorem writeReg_slot {s : State} {e n : Nat} {k : BitVec 2} {d : BitVec 6} (hc : s.cur = .slot e k n) (hd : d.toNat < 16 ∨ 24 ≤ d.toNat ∧ d.toNat < 32) (v : Word) :
    writeReg s d v = s.modElem e (fun x => { x with active := x.active.putReg k.toNat d v }) := by
  simp only [writeReg, hc, Plane.putReg]
  obtain h | ⟨h, h'⟩ := hd
  · simp only [if_pos h]
  · simp only [if_neg (show ¬ d.toNat < 16 by omega), if_pos (And.intro h h')]

theorem writeReg_word {s : State} {g a : Nat} {d : BitVec 6} (hc : s.cur = .word g a) (hd : d.toNat < 16 ∨ 32 ≤ d.toNat ∧ d.toNat < 48) (v : Word) :
    writeReg s d v = s.modGrove g (fun x => x.setBank (x.bank.putReg d v)) := by
  simp only [writeReg, hc, SeqBank.putReg]
  obtain h | ⟨h, h'⟩ := hd
  · simp only [if_pos h]
  · simp only [if_neg (show ¬ d.toNat < 16 by omega), if_pos (And.intro h h')]

@[simp] theorem Plane.sreg_strand (p : Plane) (k : Nat) (r : Vector Word 8) : ({ p with sreg := r } : Plane).strand k = p.strand k := rfl

@[simp] theorem Plane.setStrand_sreg (p : Plane) (k : Nat) (x : Strand) : (p.setStrand k x).sreg = p.sreg := rfl

/-- What a strand that is put in another's place has in common with it, every strand of the plane keeps. -/
theorem Plane.setStrand_keeps {α : Type} (f : Strand → α) {p : Plane} {k : Nat} {x : Strand} (h : f x = f (p.strand k)) (j : Nat) :
    f ((p.setStrand k x).strand j) = f (p.strand j) := by
  rw [Plane.setStrand_strand]
  split
  next hj => rw [h, hj.1]
  next => rfl

/-- A register of a plane reads as it was written: s0 to s7 by every strand, the others by their own. -/
theorem Plane.readReg_putReg (p : Plane) {k j : Nat} {d c : BitVec 6} (v : Word) (hk : k < 4) (hd : d.toNat < 16 ∨ 24 ≤ d.toNat ∧ d.toNat < 32)
    (hc : c.toNat < 16 ∨ 24 ≤ c.toNat ∧ c.toNat < 32) :
    (p.putReg k d v).readReg j c = if d = c ∧ (k = j ∨ 24 ≤ d.toNat) then v else p.readReg j c := by
  have hdc : d = c ↔ d.toNat = c.toNat := BitVec.toNat_inj.symm
  unfold Plane.putReg Plane.readReg
  by_cases hd' : d.toNat < 16 <;> by_cases hc' : c.toNat < 16
  · simp only [hd', hc', if_true, Plane.setStrand_strand]
    by_cases hj : j = k
    · simp [hj, hk, reg_setAt, hdc, eq_comm, hd']
    · simp [hj, Ne.symm hj, show ¬ 24 ≤ d.toNat by omega]
  · simp [hd', hc', hdc, show ¬ d.toNat = c.toNat by omega]
  · simp [hd', hc', hdc, show ¬ d.toNat = c.toNat by omega]
  · simp only [hd', hc', if_false, reg_setAt, hdc]
    exact if_congr (by omega) rfl rfl

/-- A register of a bank reads as it was written. -/
theorem SeqBank.readReg_putReg (b : SeqBank) {d c : BitVec 6} (v : Word) (hd : d.toNat < 16 ∨ 32 ≤ d.toNat ∧ d.toNat < 48)
    (hc : c.toNat < 16 ∨ 32 ≤ c.toNat ∧ c.toNat < 48) : (b.putReg d v).readReg c = if d = c then v else b.readReg c := by
  have hdc : d = c ↔ d.toNat = c.toNat := BitVec.toNat_inj.symm
  unfold SeqBank.putReg SeqBank.readReg
  by_cases hd' : d.toNat < 16 <;> by_cases hc' : c.toNat < 16
  · simp [hd', hc', reg_setAt, hdc, eq_comm]
  · simp [hd', hc', hdc, show ¬ d.toNat = c.toNat by omega]
  · simp [hd', hc', hdc, show ¬ d.toNat = c.toNat by omega]
  · simp only [hd', hc', if_false, reg_setAt, hdc]
    exact if_congr (by omega) rfl rfl

@[simp] theorem Grove.setBank_bank (x : Grove) (b : SeqBank) : (x.setBank b).bank = b := by
  by_cases h : x.level = 0
  · rw [Grove.setBank, if_pos h]
    exact if_pos h
  · rw [Grove.setBank, if_neg h]
    exact if_neg h

/-- A readable register reads as the issuing unit wrote it where it is the register written, and as before elsewhere. -/
theorem regVal_writeReg {s : State} {d : BitVec 6} (v : Word) (hd : readable (curKind s.cur) true d = true) (u : Cur) {c : BitVec 6}
    (hc : readable (curKind u) true c = true) :
    (sameRegister s.cur u d c → regVal { writeReg s d v with cur := u } c = v) ∧
    (¬ sameRegister s.cur u d c → regVal { writeReg s d v with cur := u } c = regVal { s with cur := u } c) := by
  have hs := not_special_of_readable hc
  cases u with
  | slot e k n =>
    rw [regVal_slot _ _ _ _ hs, regVal_slot _ _ _ _ hs]
    rw [readable_slot_iff] at hc
    cases hcur : s.cur with
    | slot f j m =>
      rw [hcur, readable_slot_iff] at hd
      rw [writeReg_slot hcur hd, State.modElem_elem]
      by_cases he : e = f
      · subst he
        rw [if_pos rfl, Plane.readReg_putReg _ _ j.isLt hd hc]
        simp [sameRegister, BitVec.toNat_inj]
        grind
      · simp [sameRegister, he, Ne.symm he]
    | word g a =>
      rw [hcur, readable_word_iff] at hd
      rw [writeReg_word hcur hd]
      simp [sameRegister]
  | word g a =>
    rw [regVal_word _ _ _ hs, regVal_word _ _ _ hs]
    rw [readable_word_iff] at hc
    cases hcur : s.cur with
    | slot f j m =>
      rw [hcur, readable_slot_iff] at hd
      rw [writeReg_slot hcur hd]
      simp [sameRegister]
    | word h b =>
      rw [hcur, readable_word_iff] at hd
      rw [writeReg_word hcur hd, State.modGrove_grove]
      by_cases he : g = h
      · subst he
        rw [if_pos rfl, Grove.setBank_bank, SeqBank.readReg_putReg _ _ hd hc]
        simp [sameRegister]
        grind
      · simp [sameRegister, he, Ne.symm he]

/-! ### What a change of state keeps: criteria for the frames of the statements -/

/-- Registers are kept where every strand's, every element's shared and every current bank's are. -/
theorem registersKept_of {s t : State} (d : Option (BitVec 6)) (hw : ∀ e k, ((t.elem e).active.strand k).w = ((s.elem e).active.strand k).w)
    (hs : ∀ e, (t.elem e).active.sreg = (s.elem e).active.sreg)
    (hb : ∀ g, (t.grove g).bank.w = (s.grove g).bank.w ∧ (t.grove g).bank.a = (s.grove g).bank.a) : registersKept s t d := by
  intro u c hc _
  have hsp := not_special_of_readable hc
  cases u with
  | slot e k n => rw [regVal_slot _ _ _ _ hsp, regVal_slot _ _ _ _ hsp, Plane.readReg, Plane.readReg, hw, hs]
  | word g a => rw [regVal_word _ _ _ hsp, regVal_word _ _ _ hsp, SeqBank.readReg, SeqBank.readReg, (hb g).1, (hb g).2]

theorem predicatesKept_of {s t : State} (hp : ∀ e k, ((t.elem e).active.strand k).p = ((s.elem e).active.strand k).p)
    (hb : ∀ g, (t.grove g).bank.p = (s.grove g).bank.p) : predicatesKept s t := by
  intro u
  cases u with
  | slot e k n => exact hp e k.toNat
  | word g a => exact hb g

/-- Memory with its metadata is kept where no field of it is written. -/
theorem memoryKept_of {s t : State} (hm : t.mem = s.mem) (hw : t.words = s.words) (hs : t.sectors = s.sectors) (hi : t.windows = s.windows) (hb : t.banks = s.banks) :
    memoryKept s t :=
  ⟨fun a => by rw [hm], hw, hs, hi, fun b => by rw [State.bank, State.bank, hb]⟩

theorem registersKept_modElem {s : State} {e : Nat} {f : Elem → Elem} (d : Option (BitVec 6)) (hw : ∀ k, ((f (s.elem e)).active.strand k).w = ((s.elem e).active.strand k).w)
    (hs : (f (s.elem e)).active.sreg = (s.elem e).active.sreg) : registersKept s (s.modElem e f) d := by
  refine registersKept_of d (fun i k => ?_) (fun i => ?_) (fun g => ⟨rfl, rfl⟩)
  · by_cases h : i = e <;> simp [h, hw]
  · by_cases h : i = e <;> simp [h, hs]

theorem registersKept_modGrove {s : State} {g : Nat} {f : Grove → Grove} (d : Option (BitVec 6)) (hw : (f (s.grove g)).bank.w = (s.grove g).bank.w)
    (ha : (f (s.grove g)).bank.a = (s.grove g).bank.a) : registersKept s (s.modGrove g f) d := by
  refine registersKept_of d (fun _ _ => rfl) (fun _ => rfl) (fun i => ?_)
  by_cases h : i = g <;> simp [h, hw, ha]

theorem predicatesKept_modElem {s : State} {e : Nat} {f : Elem → Elem} (hp : ∀ k, ((f (s.elem e)).active.strand k).p = ((s.elem e).active.strand k).p) :
    predicatesKept s (s.modElem e f) := by
  refine predicatesKept_of (fun i k => ?_) (fun _ => rfl)
  by_cases h : i = e <;> simp [h, hp]

theorem predicatesKept_modGrove {s : State} {g : Nat} {f : Grove → Grove} (hp : (f (s.grove g)).bank.p = (s.grove g).bank.p) : predicatesKept s (s.modGrove g f) := by
  refine predicatesKept_of (fun _ _ => rfl) (fun i => ?_)
  by_cases h : i = g <;> simp [h, hp]

theorem memoryKept_modElem (s : State) (e : Nat) (f : Elem → Elem) : memoryKept s (s.modElem e f) := memoryKept_of rfl rfl rfl rfl rfl

theorem memoryKept_modGrove (s : State) (g : Nat) (f : Grove → Grove) : memoryKept s (s.modGrove g f) := memoryKept_of rfl rfl rfl rfl rfl

theorem restKept_modGrove (s : State) (g : Nat) (f : Grove → Grove) : restKept s (s.modGrove g f) := ⟨rfl, rfl, rfl, rfl, rfl, rfl⟩

/-! ### Written registers and predicates (O12) -/

theorem memoryKept_writeReg {s : State} {d : BitVec 6} (v : Word) (hd : readable (curKind s.cur) true d = true) : memoryKept s (writeReg s d v) := by
  cases hc : s.cur with
  | slot e k n =>
    rw [hc, readable_slot_iff] at hd
    rw [writeReg_slot hc hd]
    exact memoryKept_modElem _ _ _
  | word g a =>
    rw [hc, readable_word_iff] at hd
    rw [writeReg_word hc hd]
    exact memoryKept_modGrove _ _ _

/-- The predicates with one of them set. -/
def putPred (p : BitVec 8) (k : Nat) (v : Bool) : BitVec 8 := if v then p ||| ((1 : BitVec 8) <<< k) else p &&& ~~~((1 : BitVec 8) <<< k)

theorem setPred_slot {s : State} {e n : Nat} {j : BitVec 2} (hc : s.cur = .slot e j n) (k : Nat) (v : Bool) :
    setPred s k v = s.modElem e (fun x => { x with active := x.active.setStrand j.toNat { x.active.strand j.toNat with p := putPred (x.active.strand j.toNat).p k v } }) := by
  simp only [setPred, hc]
  rfl

theorem setPred_word {s : State} {g a : Nat} (hc : s.cur = .word g a) (k : Nat) (v : Bool) :
    setPred s k v = s.modGrove g (fun x => x.setBank { x.bank with p := putPred x.bank.p k v }) := by
  simp only [setPred, hc]
  rfl

theorem memoryKept_setPred (s : State) (k : Nat) (v : Bool) : memoryKept s (setPred s k v) := by
  cases hc : s.cur with
  | slot e j n =>
    rw [setPred_slot hc]
    exact memoryKept_modElem _ _ _
  | word g a =>
    rw [setPred_word hc]
    exact memoryKept_modGrove _ _ _

@[simp] theorem Plane.putReg_p (p : Plane) (k j : Nat) (d : BitVec 6) (v : Word) : ((p.putReg k d v).strand j).p = (p.strand j).p := by
  unfold Plane.putReg
  split
  · refine Plane.setStrand_keeps Strand.p ?_ j
    rfl
  · rfl

@[simp] theorem SeqBank.putReg_p (b : SeqBank) (d : BitVec 6) (v : Word) : (b.putReg d v).p = b.p := by
  unfold SeqBank.putReg
  split <;> rfl

theorem predicatesKept_writeReg {s : State} {d : BitVec 6} (v : Word) (hd : readable (curKind s.cur) true d = true) : predicatesKept s (writeReg s d v) := by
  cases hc : s.cur with
  | slot e k n =>
    rw [hc, readable_slot_iff] at hd
    rw [writeReg_slot hc hd]
    exact predicatesKept_modElem (fun j => Plane.putReg_p _ _ _ _ _)
  | word g a =>
    rw [hc, readable_word_iff] at hd
    rw [writeReg_word hc hd]
    exact predicatesKept_modGrove (by rw [Grove.setBank_bank, SeqBank.putReg_p])

theorem registersKept_writeReg {s : State} {d : BitVec 6} (v : Word) (hd : readable (curKind s.cur) true d = true) : registersKept s (writeReg s d v) (some d) :=
  fun u _ hc hne => (regVal_writeReg v hd u hc).2 (hne d rfl)

theorem sameRegister_self (s : State) (d : BitVec 6) : sameRegister s.cur s.cur d d := by
  cases h : s.cur <;> simp [sameRegister]

theorem regVal_writeReg_same {s : State} {d : BitVec 6} (v : Word) (hd : readable (curKind s.cur) true d = true) : regVal (writeReg s d v) d = v := by
  have hcur : { writeReg s d v with cur := s.cur } = writeReg s d v := by
    unfold writeReg
    split <;> split <;> (try split) <;> rfl
  have h := (regVal_writeReg v hd s.cur hd).1 (sameRegister_self s d)
  rwa [hcur] at h

/-- Code 16 names no channel and no register, so a result written to it is discarded (R107). -/
theorem writeDst_discards (s : State) (v : Word) : writeDst s 16 (some v) = s := by
  have hch : chanOf s 16 = none := by
    unfold chanOf
    split <;> rfl
  have hreg : writeReg s 16 v = s := by
    unfold writeReg
    split <;> rfl
  simp only [writeDst, hch, hreg]

theorem getLsbD_putPred (p : BitVec 8) {k j : Nat} (v : Bool) (hk : k < 8) (hj : j < 8) : (putPred p k v).getLsbD j = if j = k then v else p.getLsbD j := by
  have hb : ((1 : BitVec 8) <<< k).getLsbD j = decide (j = k) := by
    interval_cases k <;> interval_cases j <;> rfl
  unfold putPred
  cases v <;> simp only [Bool.false_eq_true, if_false, if_true, BitVec.getLsbD_or, BitVec.getLsbD_and, BitVec.getLsbD_not, hb, hj]
  · by_cases h : j = k <;> simp [h]
  · by_cases h : j = k <;> simp [h]

theorem curPreds_setPred (s : State) (k : Nat) (v : Bool) : curPreds (setPred s k v) = putPred (curPreds s) k v := by
  cases hc : s.cur with
  | slot e j n =>
    rw [setPred_slot hc]
    simp [curPreds, hc, Plane.setStrand_strand, j.isLt]
  | word g a =>
    rw [setPred_word hc]
    simp [curPreds, hc]

theorem registersKept_setPred (s : State) (k : Nat) (v : Bool) : registersKept s (setPred s k v) none := by
  cases hc : s.cur with
  | slot e j n =>
    rw [setPred_slot hc]
    exact registersKept_modElem none (Plane.setStrand_keeps Strand.w rfl) rfl
  | word g a =>
    rw [setPred_word hc]
    exact registersKept_modGrove none (by rw [Grove.setBank_bank]) (by rw [Grove.setBank_bank])

/-- Settles O12: a write changes one entry of one register file, or one bit of one unit's predicates. -/
theorem writtenValuesReadBack : Obligations.WrittenValuesReadBack := by
  unfold Obligations.WrittenValuesReadBack
  refine ⟨⟨fun s d v hd => ?_, writeDst_discards⟩, fun s k j v hk hj => ?_⟩
  · exact ⟨regVal_writeReg_same v hd, registersKept_writeReg v hd, predicatesKept_writeReg v hd, memoryKept_writeReg v hd⟩
  · refine ⟨?_, registersKept_setPred s k v, memoryKept_setPred s k v⟩
    rw [pred, pred, curPreds_setPred, getLsbD_putPred _ _ hk hj]

/-! ### Skipped words and waits (O23) -/

theorem exec_skippedWord {s : State} {g a : Nat} (hc : s.cur = .word g a) : exec .skippedWord s = .next (pastWord s g a) := by
  have he : exec .skippedWord s = execSkippedWord s := rfl
  simp only [he, execSkippedWord, hc]

theorem exec_sequencerWaitExpire (s : State) (g : Nat) : exec (.sequencerWaitExpire g) s = execSequencerWaitExpire g s := rfl

theorem exec_sequencerWaitExpire_due {s : State} {g : Nat} {v : Word} (hh : (s.grove g).bank.hold = .time v) (hv : v.toNat ≤ s.tb.toNat) :
    exec (.sequencerWaitExpire g) s = .next (s.modGrove g (fun x => x.setBank { x.bank with hold := .none })) := by
  have hlt : ¬ s.tb.ult v = true := fun h => absurd (of_decide_eq_true h) (by omega)
  simp only [exec_sequencerWaitExpire, execSequencerWaitExpire, hh, if_neg hlt]

theorem exec_sequencerWaitExpire_early {s : State} {g : Nat} {v : Word} (hh : (s.grove g).bank.hold = .time v) (hv : s.tb.toNat < v.toNat) :
    exec (.sequencerWaitExpire g) s = .next s := by
  have hlt : s.tb.ult v = true := decide_eq_true hv
  simp only [exec_sequencerWaitExpire, execSequencerWaitExpire, hh, if_pos hlt]

@[simp] theorem Grove.setBank_pc (x : Grove) (b : SeqBank) : (x.setBank b).pc = x.pc := by
  by_cases h : x.level = 0
  · rw [Grove.setBank, if_pos h]
  · rw [Grove.setBank, if_neg h]

/-! ### The next move and what it runs (O3, O23) -/

/-- The state in which the next move runs: its move counted, its time passed, the guard supply's draw taken. -/
def moveTaken (s : State) (rest : List Move) : State :=
  { s with agenda := rest, moveNo := s.moveNo + 1, tb := laterTime s.tb (Config.freeElapsed s.moveNo), guardPool := s.guardPool - (Config.guardDraw s.moveNo : Int) }

theorem nextMove_of_agenda {s : State} {m : Move} {rest : List Move} (h : s.agenda = m :: rest) : nextMove s = (m, moveTaken s rest) := by
  simp only [nextMove, h, moveTaken]

/-- A word without details decodes to the instruction that is read. -/
theorem readWords_of_decode {u : UnitKind} {w0 w1 : IWord} {i : Instr} (hd : wordDetail u w0 w1 = none) (h : decode w0 w1 = .ok i) : readWords u w0 w1 = i := by
  simp only [readWords, hd, h]

/-- Entry 63 marks a continuation word, which no first word decodes from (R108). -/
theorem trigger_of_decode {w0 w1 : IWord} {i : Instr} (h : decode w0 w1 = .ok i) : fld w0 26 6 ≠ 63 := by
  intro ht
  simp [decode, decodeLoose, ht] at h

theorem step_fire {s s' : State} {e n : Nat} {k : BitVec 2} {rest : List Move} (ha : s.agenda = .fire e :: rest) (hs : s' = moveTaken s rest)
    (hsel : selectSlot s' e = some (k, n)) : step s = exec (slotInstr s' e n) { s' with cur := .slot e k n } := by
  subst hs
  simp only [step, nextMove_of_agenda ha, hsel]

theorem step_issue {s s' : State} {g : Nat} {rest : List Move} (ha : s.agenda = .issue g :: rest) (hs : s' = moveTaken s rest) (hm : mayIssue s' g = true) :
    step s = if fetchDenied (s'.grove g) then .next (causeAt { s' with cur := .word g (s'.grove g).pc } 0x1C2 0 0)
      else exec (seqInstr s' g) { s' with cur := .word g (s'.grove g).pc } := by
  subst hs
  simp only [step, nextMove_of_agenda ha, hm, if_true]

theorem step_move {s : State} {i : Instr} {rest : List Move} (ha : s.agenda = .ev i :: rest) (hm : isMove i = true) : step s = exec i (moveTaken s rest) := by
  simp only [step, nextMove_of_agenda ha, hm, if_true]

theorem fetchDenied_iff (x : Grove) : fetchDenied x = true ↔ x.level = 0 ∧ x.sbase.toNat ≤ x.pc := by
  simp [fetchDenied]

theorem slotInstr_of_decode {s : State} {e n : Nat} {k : BitVec 2} {i : Instr} (hd : wordDetail (curKind (.slot e k n)) (slotWords s e n).1 (slotWords s e n).2 = none)
    (h : decode (slotWords s e n).1 (slotWords s e n).2 = .ok i) : slotInstr s e n = i :=
  readWords_of_decode hd h

theorem seqInstr_of_decode {s : State} {g : Nat} {i : Instr} (hg : guardHolds (s.grove g) (fld (imemWord s g (s.grove g).pc) 26 6) = true)
    (hd : wordDetail .seq (imemWord s g (s.grove g).pc) (imemWord s g ((s.grove g).pc + 1)) = none)
    (h : decode (imemWord s g (s.grove g).pc) (imemWord s g ((s.grove g).pc + 1)) = .ok i) : seqInstr s g = i := by
  simp only [seqInstr, if_neg (trigger_of_decode h), if_pos hg, readWords_of_decode hd h]

theorem seqInstr_of_guard_fails {s : State} {g : Nat} (ht : fld (imemWord s g (s.grove g).pc) 26 6 ≠ 63)
    (hg : guardHolds (s.grove g) (fld (imemWord s g (s.grove g).pc) 26 6) = false) : seqInstr s g = .skippedWord := by
  simp only [seqInstr, if_neg ht, hg]
  rfl

/-- Settles O3: each kind of move runs the instruction that its own fetch reads, which is the decoded one where the word has no detail. -/
theorem stepRunsTheDecodedInstruction : Obligations.StepRunsTheDecodedInstruction := by
  unfold Obligations.StepRunsTheDecodedInstruction
  refine ⟨fun s s' e k n rest i ha hs hsel hdec hdet => ?_, fun s s' g rest i ha hs hm hg hdec hdet => ?_, fun s i rest ha hm => step_move ha hm⟩
  · rw [step_fire ha hs hsel, slotInstr_of_decode hdet hdec]
  · rw [step_issue ha hs hm, seqInstr_of_decode hg hdet hdec]
    exact if_congr (fetchDenied_iff _) rfl rfl

theorem grove_modGrove_other {s : State} {g h : Nat} (f : Grove → Grove) (hne : h ≠ g) : (s.modGrove g f).grove h = s.grove h := by
  rw [State.modGrove_grove, if_neg hne]

/-- Settles O23: a skipped word moves the PC of its sequencer alone, and the end of a wait its hold alone. -/
theorem skippedWordsAndWaitsPass : Obligations.SkippedWordsAndWaitsPass := by
  unfold Obligations.SkippedWordsAndWaitsPass
  refine ⟨fun s s' g rest ha hs hm hden ht hg => ?_, fun s g a hc => ?_, fun s g v hh hv => ?_, fun s g v hh hv => exec_sequencerWaitExpire_early hh hv⟩
  · rw [step_issue ha hs hm, if_neg (fun h => hden ((fetchDenied_iff _).1 h)), seqInstr_of_guard_fails ht hg]
  · refine ⟨pastWord s g a, exec_skippedWord hc, ?_, fun h hne => grove_modGrove_other _ hne, rfl, rfl,
      registersKept_modGrove none rfl rfl, predicatesKept_modGrove rfl, memoryKept_modGrove _ _ _, restKept_modGrove _ _ _⟩
    rw [pastWord, State.modGrove_grove, if_pos rfl]
  · refine ⟨_, exec_sequencerWaitExpire_due hh hv, ?_, ?_, registersKept_modGrove none ?_ ?_, predicatesKept_modGrove ?_, memoryKept_modGrove _ _ _, restKept_modGrove _ _ _⟩
    · rw [State.modGrove_grove, if_pos rfl, Grove.setBank_bank]
    · rw [State.modGrove_grove, if_pos rfl, Grove.setBank_pc]
    all_goals rw [Grove.setBank_bank]

end Sys2Proof.Machine
end

section
/-! PROOFS. Words that may not issue (O14): a word that is not issuable goes through the shared `notIssued`, whatever its own effect. -/

namespace Sys2Proof.Machine
open Sys2Proof.Claims

/-! ### Every word goes through one issue (O14) -/

/-- A jump that would leave instruction memory stops before its issue, where nothing else keeps it from issuing (R132). -/
def jumpsOut (s : State) (i : Instr) : Prop := lowest (sigDetails (curKind s.cur) (wordSig i)) = none ∧ wordReady s (wordSig i) = true ∧ farJump s i

theorem jump_stays {i : Instr} {s : State} {target : State → Word} {f : State → State}
    (h : ¬ (lowest (sigDetails (curKind s.cur) (wordSig i)) = none ∧ wordReady s (wordSig i) = true ∧ 16384 ≤ (target s).toNat)) :
    jump i s target f = issueWord i s (fun s0 s1 => .done (setPc (f s1) (target s0).toNat) 0) := by
  unfold jump
  rw [if_neg]
  simpa [and_assoc] using h

theorem jump_leaves {i : Instr} {s : State} {target : State → Word} {f : State → State}
    (hl : lowest (sigDetails (curKind s.cur) (wordSig i)) = none) (hr : wordReady s (wordSig i) = true) (hf : 16384 ≤ (target s).toNat) :
    jump i s target f = .next (raiseIllegal s 9) := by
  unfold jump
  rw [if_pos]
  simp [hl, hr, hf]

/-- The outcome of issueWord, written out, where the word is not issuable. -/
theorem next_not_issuable {i : Instr} {s : State} (hi : issuable s i = false) (u : State) :
    (.next (if issuable s i then u else notIssued s i) : Host.Outcome State Fault Refusal) = .next (notIssued s i) := by
  rw [hi, if_neg Bool.false_ne_true]

theorem issueWord_not_issuable {i : Instr} {s : State} (hi : issuable s i = false) (effect : State → State → Effect) :
    issueWord i s effect = .next (notIssued s i) := next_not_issuable hi _

theorem streamWord_not_issuable {i : Instr} {s : State} (hi : issuable s i = false) (effect : State → State → Effect) :
    streamWord i s effect = .next (notIssued s i) := by
  simp [streamWord, hi, issueWord_not_issuable]

theorem jump_not_issuable {i : Instr} {s : State} {target : State → Word} {f : State → State} (hi : issuable s i = false)
    (h : ¬ (lowest (sigDetails (curKind s.cur) (wordSig i)) = none ∧ wordReady s (wordSig i) = true ∧ 16384 ≤ (target s).toNat)) :
    jump i s target f = .next (notIssued s i) := by
  rw [jump_stays h, issueWord_not_issuable hi]

/-- Whatever a word's own effect is, a word that is not issuable goes through the shared issue, but for a jump out of instruction memory. -/
theorem exec_not_issuable {i : Instr} {s : State} (hw : isWord i = true) (hj : ¬ jumpsOut s i) (hi : issuable s i = false) : exec i s = .next (notIssued s i) := by
  delta exec
  cases i with
  | branch | call | ret => exact jump_not_issuable hi hj
  | sbind | sgo | scopy | sgath | sscat | sisect | smerge => exact streamWord_not_issuable hi _
  | illegalWord | skippedWord | tokenHop | tokenDeliver | requestAdmit | requestServe | deferredReadWake | requestReply | waveRequestRelease
  | fenceComplete | atEmit | sequencerWaitExpire | allowanceRecall | dry | graceExpired | boostFallback | caskPour | pourGrant | commitTask
  | vanish | bankHandover | matrixIntake | matrixTileStep | matrixTileWrite | converterToken | cornerTurnCollect | cornerTurnEmit | agAccess
  | streamCommandRetire | sparseSetStep | lcIntake | lcLoadBlock | lcSweep | lcQueueOp | raceIntake | raceRelease | placerSizing
  | placePreload | ploadComplete | planeSwap | loadChange | freezePoint | gridCallSwitch | gridReturn | waveEntryPoint | wavePoint
  | waveComplete | suspension | taskResume | tagScrub | forkStall | progressStall | barrierShort | trapEntry | tableWalk | slotTableRead
  | slotStart | launch | timeBaseAdjust | hostWrite | hostRead | tdiStateChange | ideKeyProgram | getMeasurements | keyExchange | keyUpdate
  | berovoFrameReceive | creditReturn | remoteRequest | remoteReply | resolve | resolveAck | remoteAccessTimeout | sensorSample
  | elementGate | elementWake | guardSupplyShortfall | sramSoftError | reset | featureAck | firmwareUpdate | suspendRequest
  | endSuspendedTask | registerWrite | monitorCallFeatures | monitorCallGroveMap | monitorCallGuardDrops | monitorCallReplaceImage
  | monitorCallInvalid | zwitexTime | zwitexModuleNumber | zwitexHopTable | zwitexFirmwareTransfer | zwitexEventLogRead
  | zwitexQuarantineClear | zwitexPartitionCommand | zwitexLostModule | groveRestore | linkFailure => exact absurd hw Bool.false_ne_true
  | _ => exact next_not_issuable hi _

theorem lowest_eq_min? (ds : List Nat) : lowest ds = ds.min? := by
  cases ds with
  | nil => rfl
  | cons d ds => rw [lowest, List.min?_cons']

/-- The lowest detail is one of them, and none is lower (R115). -/
theorem lowest_spec {ds : List Nat} {n : Nat} (h : lowest ds = some n) : n ∈ ds ∧ ∀ m ∈ ds, n ≤ m := by
  rwa [lowest_eq_min?, List.min?_eq_some_iff] at h

/-! What keeps a word from issuing, and what becomes of it. -/

theorem not_issuable_of_illegal {s : State} {i : Instr} {n : Nat} (h : lowest (sigDetails (curKind s.cur) (wordSig i)) = some n) : issuable s i = false := by
  simp [issuable, h]

theorem not_issuable_of_waiting {s : State} {i : Instr} (h : wordReady s (wordSig i) = false) : issuable s i = false := by
  simp [issuable, h]

theorem not_issuable_of_unpaid {s : State} {i : Instr} (h : affordable s (wordSig i) = false) : issuable s i = false := by
  simp [issuable, h]

theorem notIssued_illegal {s : State} {i : Instr} {n : Nat} (h : lowest (sigDetails (curKind s.cur) (wordSig i)) = some n) : notIssued s i = raiseIllegal s n := by
  simp [notIssued, h]

theorem notIssued_legal {s : State} {i : Instr} (h : legalHere s i) :
    notIssued s i = if wordReady s (wordSig i) then refuse s (curGrove s) (wordCost s (wordSig i)) else s := by
  obtain ⟨hl, hp⟩ := h
  have hp' : ¬ ((wordSig i).privileged && !s.supervising) = true := by simpa using hp
  simp only [notIssued, hl, if_neg hp']

/-- A word that jumps out of instruction memory is a branch, a call or a return (R132). -/
theorem exec_jumpsOut {i : Instr} {s : State} (hl : lowest (sigDetails (curKind s.cur) (wordSig i)) = none) (hr : wordReady s (wordSig i) = true)
    (hf : farJump s i) : exec i s = .next (raiseIllegal s 9) := by
  unfold farJump at hf
  split at hf
  next o => exact jump_leaves (target := fun s => curAddr s + o.signExtend 64) hl hr hf
  next o => exact jump_leaves (target := fun s => curAddr s + o.signExtend 64) hl hr hf
  next a => exact jump_leaves (target := fun s => valOf s a) hl hr hf
  next => exact hf.elim

/-- Settles O14: a word that is not issuable waits, is refused or is illegal, as its first hindrance says. -/
theorem wordsThatMayNotIssue : Obligations.WordsThatMayNotIssue := by
  unfold Obligations.WordsThatMayNotIssue
  refine ⟨fun i s hw hl hr => ?_, fun i s hw hl hr ha hf => ?_, fun i s n hw hn => ⟨?_, lowest_spec hn⟩, fun i s hl hr hf => exec_jumpsOut hl.1 hr hf, fun n s => rfl⟩
  · have hj : ¬ jumpsOut s i := fun h => by simp [h.2.1] at hr
    rw [exec_not_issuable hw hj (not_issuable_of_waiting hr), notIssued_legal hl, hr]
    rfl
  · have hj : ¬ jumpsOut s i := fun h => hf h.2.2
    rw [exec_not_issuable hw hj (not_issuable_of_unpaid ha), notIssued_legal hl, if_pos hr]
  · have hj : ¬ jumpsOut s i := fun h => by simp [h.1] at hn
    rw [exec_not_issuable hw hj (not_issuable_of_illegal hn), notIssued_illegal hn]

end Sys2Proof.Machine
end

section
/-! PROOFS. Words over registers issue (O16). -/

namespace Sys2Proof.Machine
open Sys2Proof.Claims

/-! ### Words over registers (O16) -/

/-- A word of two sources and one destination, which is read too or not, waits for nothing of its own and needs no level (R121, R123, R125). -/
def isRegisterForm (g : Sig) (d a b : BitVec 6) : Prop := ∃ o c, g = { opnds := [o, .src a, .src b], cost := c } ∧ (o = .dst d ∨ o = .rws d)

theorem twoSource_isRegisterForm : ∀ f ∈ twoSource.map (fun p => p.1) ++ [.bfx, .bfi], ∀ t d a b, isRegisterForm (wordSig (f t d a b)) d a b := by
  intro f hf t d a b
  obtain hf | hf := List.mem_append.1 hf
  · simp only [twoSource, List.map_cons, List.map_nil, List.mem_cons, List.not_mem_nil, or_false] at hf
    rcases hf with rfl | rfl | rfl | rfl | rfl | rfl | rfl | rfl | rfl | rfl | rfl | rfl | rfl | rfl | rfl | rfl | rfl | rfl
    all_goals exact ⟨_, _, rfl, .inl rfl⟩
  · simp only [List.mem_cons, List.not_mem_nil, or_false] at hf
    obtain rfl | rfl := hf
    · exact ⟨_, _, rfl, .inl rfl⟩
    · exact ⟨_, _, rfl, .inr rfl⟩

theorem srcDetails_low (u : UnitKind) {c : BitVec 6} (hc : c.toNat < 16) : srcDetails u c = [] := by
  rw [srcDetails, if_neg (by omega)]

theorem chanOf_low (s : State) {c : BitVec 6} (hc : c.toNat < 32) : chanOf s c = none := by
  unfold chanOf
  split
  · rw [if_neg (by omega)]
  · rfl

theorem sigDetails_register {u : UnitKind} {g : Sig} {d a b : BitVec 6} (hg : isRegisterForm g d a b) (hd : d.toNat < 16) (ha : a.toNat < 16) (hb : b.toNat < 16) :
    sigDetails u g = [] := by
  have h17 : ¬ 17 ≤ d.toNat := by omega
  obtain ⟨o, c, rfl, rfl | rfl⟩ := hg <;>
    simp [sigDetails, opndDetails, unitDetails, srcDetails_low, hd, ha, hb, h17, readable]

theorem wordReady_register {s : State} {g : Sig} {d a b : BitVec 6} (hg : isRegisterForm g d a b) (hd : d.toNat < 16) (ha : a.toNat < 16) (hb : b.toNat < 16)
    (hp : ∀ c ∈ [d, a, b], c ∉ pendingRegs s) : wordReady s g = true := by
  have hd' := chanOf_low s (c := d) (by omega)
  have ha' := chanOf_low s (c := a) (by omega)
  have hb' := chanOf_low s (c := b) (by omega)
  obtain ⟨o, c, rfl, rfl | rfl⟩ := hg <;>
    simp_all [wordReady, needsHeads, eats, opndEats, opndNames, outs, opndOuts, waitMet, opndRegs, isRegister, readable]

theorem wordCost_register {s : State} {g : Sig} {d a b : BitVec 6} (hg : isRegisterForm g d a b) (hd : d.toNat < 16) : wordCost s g ≤ g.cost := by
  have hd' := chanOf_low s (c := d) (by omega)
  unfold wordCost
  split
  · exact Nat.zero_le _
  · obtain ⟨o, c, rfl, rfl | rfl⟩ := hg <;> simp [outs, opndOuts, hd']

theorem canPay_of_balance {s : State} {g k cost : Nat} (ht : s.taskOfGrove g = some k) (hdry : (s.task k).dry = none) (hr : (s.task k).refusals = [])
    (hc : cost ≤ balance s k) : canPay s g cost = true := by
  simp [canPay, ht, hdry, hr, hc]

theorem curGrove_slot {s : State} {e n : Nat} {j : BitVec 2} (hc : s.cur = .slot e j n) : curGrove s = groveOf e := by
  simp [curGrove, curUnit, groveOfUnit, hc]

/-- Settles O16: a word over registers is legal, needs no level, waits for its registers alone, and costs what its row says. -/
theorem readyRegisterWordsIssue : Obligations.ReadyRegisterWordsIssue := by
  unfold Obligations.ReadyRegisterWordsIssue
  intro f hf t d a b s e k n j hcur hd ha hb hp ht hdry hr hcost
  have hg := twoSource_isRegisterForm f hf t d a b
  have hpay : canPay s (curGrove s) (wordCost s (wordSig (f t d a b))) = true := by
    rw [curGrove_slot hcur]
    exact canPay_of_balance ht hdry hr ((wordCost_register hg hd).trans hcost)
  have hpriv : (wordSig (f t d a b)).privileged = false := by
    obtain ⟨o, c, h, -⟩ := hg
    rw [h]
  rw [issuable, sigDetails_register hg hd ha hb, hpriv, wordReady_register hg hd ha hb hp, affordable, hpay, Bool.or_true]
  rfl

end Sys2Proof.Machine
end

section
/-! PROOFS. Issue takes the cost and the sources (O15).

The cost: what `pay` does to the balance and to the count of issued drops, whichever way R187 draws it; the parts of issue that come after it leave both alone (`sameMeters`).
The sources: `takeHead` on each channel once. -/

namespace Sys2Proof.Machine
open Sys2Proof.Claims

/-! ### Balances (R187) -/

theorem allowances_congr {s u : State} {gs : List Nat} (h : ∀ g ∈ gs, (u.grove g).allowance = (s.grove g).allowance) : allowances u gs = allowances s gs := by
  induction gs with
  | nil => rfl
  | cons g gs ih =>
    obtain ⟨hg, hgs⟩ := List.forall_mem_cons.1 h
    rw [allowances, allowances, hg, ih hgs]

/-- A change of one of a task's groves changes the sum of their allowances by as much as that grove's. -/
theorem allowances_modGrove {s : State} {g : Nat} {gs : List Nat} (f : Grove → Grove) (hg : g ∈ gs) (hn : gs.Nodup) :
    allowances (s.modGrove g f) gs + (s.grove g).allowance = allowances s gs + (f (s.grove g)).allowance := by
  induction gs with
  | nil => simp at hg
  | cons h gs ih =>
    obtain ⟨hh, hn⟩ := List.nodup_cons.1 hn
    simp only [allowances, State.modGrove_grove]
    obtain rfl | hg := List.mem_cons.1 hg
    · have hrest : allowances (s.modGrove g f) gs = allowances s gs :=
        allowances_congr (fun i hi => by rw [State.modGrove_grove, if_neg (ne_of_mem_of_not_mem hi hh)])
      rw [if_pos rfl, hrest]
      omega
    · rw [if_neg (ne_of_mem_of_not_mem hg hh).symm]
      have := ih hg hn
      omega

theorem balance_congr {s u : State} {t : Nat} (hc : (u.task t).central = (s.task t).central) (hg : (u.task t).groves = (s.task t).groves)
    (ha : ∀ g, (u.grove g).allowance = (s.grove g).allowance) : balance u t = balance s t := by
  rw [balance, balance, hc, hg, allowances_congr (fun g _ => ha g)]

/-- What a change of a task keeps, every task keeps. -/
theorem State.modTask_keeps {α : Type} (φ : Task → α) {s : State} {t : Nat} {f : Task → Task} (h : φ (f (s.task t)) = φ (s.task t)) (i : Nat) :
    φ ((s.modTask t f).task i) = φ (s.task i) := by
  rw [State.modTask_task]
  split
  next hi => rw [h, hi.1]
  next => rfl

theorem State.modTask_task_self {s : State} {t : Nat} (ht : mfind s.tasks t ≠ none) (f : Task → Task) : (s.modTask t f).task t = f (s.task t) := by
  rw [State.modTask_task, if_pos ⟨rfl, Option.isSome_iff_ne_none.2 ht⟩]

theorem balance_modTask {s : State} {t : Nat} {f : Task → Task} (hc : (f (s.task t)).central = (s.task t).central) (hg : (f (s.task t)).groves = (s.task t).groves) (i : Nat) :
    balance (s.modTask t f) i = balance s i :=
  balance_congr (State.modTask_keeps Task.central hc i) (State.modTask_keeps Task.groves hg i) (fun g => by rw [State.modTask_grove])

theorem State.modGrove_keeps {α : Type} (φ : Grove → α) {s : State} {g : Nat} {f : Grove → Grove} (h : φ (f (s.grove g)) = φ (s.grove g)) (i : Nat) :
    φ ((s.modGrove g f).grove i) = φ (s.grove i) := by
  rw [State.modGrove_grove]
  split
  next hi => rw [h, hi]
  next => rfl

/-- A task that exists still does once a task has been changed. -/
theorem State.modTask_exists {s : State} {i : Nat} (t : Nat) (f : Task → Task) (h : mfind s.tasks i ≠ none) : mfind (s.modTask t f).tasks i ≠ none := by
  unfold State.modTask
  split
  · rw [State.setTask, mfind_mset]
    split
    · simp
    · exact h
  · exact h

theorem addBoost_central (a c : Nat) (x : Task) : (addBoost a c x).central = x.central := by
  simp only [addBoost]
  split
  · rfl
  · split <;> rfl

theorem addBoost_groves (a c : Nat) (x : Task) : (addBoost a c x).groves = x.groves := by
  simp only [addBoost]
  split
  · rfl
  · split <;> rfl

theorem addBoost_issued (a c : Nat) (x : Task) : (addBoost a c x).issued = x.issued := by
  simp only [addBoost]
  split
  · rfl
  · split <;> rfl

/-! ### Recalling the allowances -/

theorem dropAllowances_grove (s : State) (gs : List Nat) (h : Nat) :
    (dropAllowances s gs).grove h = if h ∈ gs then { s.grove h with allowance := 0 } else s.grove h := by
  induction gs generalizing s with
  | nil => rfl
  | cons g gs ih =>
    rw [dropAllowances, ih, State.modGrove_grove]
    by_cases hg : h = g
    · subst hg
      simp
    · simp [hg]

@[simp] theorem dropAllowances_tasks (s : State) (gs : List Nat) : (dropAllowances s gs).tasks = s.tasks := by
  induction gs generalizing s with
  | nil => rfl
  | cons g gs ih => rw [dropAllowances, ih, State.modGrove_tasks]

theorem allowances_dropAllowances (s : State) (gs : List Nat) : allowances (dropAllowances s gs) gs = 0 := by
  have h : ∀ hs : List Nat, (∀ g ∈ hs, g ∈ gs) → allowances (dropAllowances s gs) hs = 0 := by
    intro hs
    induction hs with
    | nil => exact fun _ => rfl
    | cons g hs ih =>
      intro hmem
      obtain ⟨hg, hhs⟩ := List.forall_mem_cons.1 hmem
      rw [allowances, ih hhs, dropAllowances_grove, if_pos hg]
  exact h gs (fun _ h => h)

theorem gather_task {s : State} {t : Nat} (ht : mfind s.tasks t ≠ none) : (gather s t).task t = { s.task t with central := balance s t } := by
  have hd : (dropAllowances s (s.task t).groves).task t = s.task t := by
    rw [State.task, State.task, dropAllowances_tasks]
  have hx : mfind (dropAllowances s (s.task t).groves).tasks t ≠ none := by
    rw [dropAllowances_tasks]
    exact ht
  rw [gather, State.modTask_task_self hx, hd]

theorem gather_exists {s : State} {t : Nat} (ht : mfind s.tasks t ≠ none) : mfind (gather s t).tasks t ≠ none := by
  refine State.modTask_exists _ _ ?_
  rw [dropAllowances_tasks]
  exact ht

/-- After a recall the whole balance is in the central count. -/
theorem gather_allowances (s : State) (t : Nat) : allowances (gather s t) (s.task t).groves = 0 := by
  rw [← allowances_dropAllowances s (s.task t).groves]
  exact allowances_congr (fun g _ => by rw [gather, State.modTask_grove])

/-! ### Taking a cost -/

theorem countCost_task {s : State} {t : Nat} (g cost : Nat) (ht : mfind s.tasks t ≠ none) :
    ((countCost s t g cost).task t).central = (s.task t).central ∧ ((countCost s t g cost).task t).groves = (s.task t).groves ∧
    ((countCost s t g cost).task t).issued = (s.task t).issued + cost := by
  have hx : mfind (s.modGrove g (fun x => { x with held := x.held - (cost : Int) })).tasks t ≠ none := ht
  rw [countCost, State.modTask_task_self hx, addBoost_central, addBoost_groves, addBoost_issued, State.modGrove_task]
  exact ⟨rfl, rfl, rfl⟩

theorem countCost_exists {s : State} {t : Nat} (g cost : Nat) (ht : mfind s.tasks t ≠ none) : mfind (countCost s t g cost).tasks t ≠ none :=
  State.modTask_exists _ _ ht

theorem countCost_allowance (s : State) (t g cost h : Nat) : ((countCost s t g cost).grove h).allowance = (s.grove h).allowance := by
  rw [countCost, State.modTask_grove]
  exact State.modGrove_keeps (φ := Grove.allowance) rfl h

theorem countCost_balance {s : State} {t : Nat} (g cost : Nat) (ht : mfind s.tasks t ≠ none) : balance (countCost s t g cost) t = balance s t := by
  obtain ⟨hc, hg, -⟩ := countCost_task g cost ht
  exact balance_congr hc hg (countCost_allowance s t g cost)

/-- A cost that the balance covers leaves it, from the allowance, from a chunk drawn to it, or from what a recall gathers, and is counted (R187, R199). -/
theorem pay_takes {s : State} {g k cost : Nat} (ht : s.taskOfGrove g = some k) (hx : mfind s.tasks k ≠ none) (hg : g ∈ (s.task k).groves)
    (hn : (s.task k).groves.Nodup) (hb : cost ≤ balance s k) :
    balance (pay s g cost) k + cost = balance s k ∧ ((pay s g cost).task k).issued = (s.task k).issued + cost := by
  obtain ⟨hc, hgs, hi⟩ := countCost_task g cost hx
  have hx' := countCost_exists g cost hx
  have ha := countCost_allowance s k g cost g
  have hbal := countCost_balance g cost hx
  simp only [pay, ht]
  generalize hu : countCost s k g cost = u at hc hgs hi hx' ha hbal ⊢
  rw [← hbal, ← hi]
  rw [← hbal] at hb
  rw [← hgs] at hg hn
  rw [← ha, ← hc]
  clear hbal hi ha hc hgs hu ht hx
  have hbu : balance u k = (u.task k).central + allowances u (u.task k).groves := rfl
  split
  next hle =>
    have hsum := allowances_modGrove (s := u) (fun x => { x with allowance := (u.grove g).allowance - cost }) hg hn
    refine ⟨?_, rfl⟩
    rw [balance, State.modGrove_task]
    simp only at hsum
    omega
  next hle =>
    split
    next hdraw =>
      generalize hd : max (cost - (u.grove g).allowance) (min 256 (u.task k).central) = draw
      have hsum := allowances_modGrove (s := u) (fun x => { x with allowance := (u.grove g).allowance + draw - cost }) hg hn
      have hv : mfind (u.modGrove g (fun x => { x with allowance := (u.grove g).allowance + draw - cost })).tasks k ≠ none := hx'
      have hall : ∀ v : State, ∀ f, allowances (v.modTask k f) (u.task k).groves = allowances v (u.task k).groves :=
        fun v f => allowances_congr (fun g _ => by rw [State.modTask_grove])
      rw [balance, State.modTask_task_self hv, State.modGrove_task, hall]
      refine ⟨?_, rfl⟩
      simp only at hsum ⊢
      omega
    next hdraw =>
      have hgx := gather_exists hx'
      have hall : allowances ((gather u k).modTask k (fun x => { x with central := x.central - cost })) (u.task k).groves = 0 := by
        rw [← gather_allowances u k]
        exact allowances_congr (fun g _ => by rw [State.modTask_grove])
      rw [balance, State.modTask_task_self hgx, gather_task hx', hall]
      refine ⟨?_, rfl⟩
      simp only
      omega

/-! ### What issue does after the cost leaves every meter alone -/

/-- Tasks and allowances are as before. -/
def sameMeters (s u : State) : Prop := u.tasks = s.tasks ∧ ∀ g, (u.grove g).allowance = (s.grove g).allowance

theorem sameMeters.trans {s u v : State} (h : sameMeters s u) (h' : sameMeters u v) : sameMeters s v :=
  ⟨h'.1.trans h.1, fun g => (h'.2 g).trans (h.2 g)⟩

theorem sameMeters.task {s u : State} (h : sameMeters s u) (t : Nat) : u.task t = s.task t := by
  rw [State.task, State.task, h.1]

theorem sameMeters.balance {s u : State} (h : sameMeters s u) (t : Nat) : balance u t = balance s t :=
  balance_congr (by rw [h.task]) (by rw [h.task]) h.2

theorem sameMeters_modGrove {s : State} {g : Nat} {f : Grove → Grove} (h : (f (s.grove g)).allowance = (s.grove g).allowance) : sameMeters s (s.modGrove g f) :=
  ⟨rfl, State.modGrove_keeps (φ := Grove.allowance) h⟩

theorem sameMeters_modElem (s : State) (e : Nat) (f : Elem → Elem) : sameMeters s (s.modElem e f) := ⟨rfl, fun _ => rfl⟩

theorem consumeCopy_sameMeters (s : State) (tid : Nat) : sameMeters s (consumeCopy s tid) := by
  unfold consumeCopy
  split
  · exact ⟨rfl, fun _ => rfl⟩
  · split <;> exact ⟨rfl, fun _ => rfl⟩

theorem endExit_sameMeters (s : State) (e ch : Nat) (t : Token) : sameMeters s (endExit s e ch t) := by
  unfold endExit
  split
  · exact sameMeters_modGrove rfl
  · exact ⟨rfl, fun _ => rfl⟩

theorem takeHead_sameMeters (s : State) (e ch : Nat) (k : Option Nat) : sameMeters s (takeHead s e ch k) := by
  unfold takeHead
  split
  · exact ⟨rfl, fun _ => rfl⟩
  · exact ((sameMeters_modElem s e _).trans (endExit_sameMeters _ _ _ _)).trans (consumeCopy_sameMeters _ _)

theorem consume_sameMeters (s : State) (chs : List Nat) : sameMeters s (consume s chs) := by
  unfold consume
  split
  next e k _ _ =>
    generalize s = u
    induction chs generalizing u with
    | nil => exact ⟨rfl, fun _ => rfl⟩
    | cons ch chs ih => exact (takeHead_sameMeters u e ch _).trans (ih _)
  next => exact ⟨rfl, fun _ => rfl⟩

theorem advance_sameMeters (s : State) (i : Instr) : sameMeters s (advance s i) := by
  unfold advance
  split
  · exact ⟨rfl, fun _ => rfl⟩
  · exact sameMeters_modGrove rfl

/-- The meters after a word's issue are those after its payment. -/
theorem issued_sameMeters (s : State) (i : Instr) : sameMeters (payWord s (wordCost s (wordSig i))) (issued s i) :=
  (advance_sameMeters _ i).trans (consume_sameMeters _ _)

theorem noteStep_keeps (s : State) (g : Nat) (k : Nat) : balance (noteStep s g) k = balance s k ∧ ((noteStep s g).task k).issued = (s.task k).issued := by
  unfold noteStep
  split
  · exact ⟨balance_modTask rfl rfl k, State.modTask_keeps Task.issued rfl k⟩
  · exact ⟨rfl, rfl⟩

/-- A supervisor word takes nothing from any task (R183). -/
theorem payWord_supervisor {s : State} (hs : s.supervising = true) (cost k : Nat) : balance (payWord s cost) k = balance s k := by
  rw [payWord, if_pos hs]
  extract_lets t n u
  have ht : balance t k = balance s k := by
    simp only [t]
    split
    · exact balance_modTask rfl rfl k
    · rfl
  have hu : balance u k = balance s k := (balance_congr (s := t) (u := u) rfl rfl (fun _ => rfl)).trans ht
  split
  · exact (balance_congr (s := u) (u := u.modPart _ _) rfl rfl (fun _ => rfl)).trans hu
  · exact hu

/-- A task's word that is paid for takes its cost from its task, and the cost is counted. -/
theorem payWord_task {s : State} {g : Sig} {k : Nat} (hs : s.supervising = false) (ht : s.taskOfGrove (curGrove s) = some k) (hx : mfind s.tasks k ≠ none)
    (hg : curGrove s ∈ (s.task k).groves) (hn : (s.task k).groves.Nodup) (hb : wordCost s g ≤ balance s k) :
    balance (payWord s (wordCost s g)) k + wordCost s g = balance s k ∧ ((payWord s (wordCost s g)).task k).issued = (s.task k).issued + wordCost s g := by
  unfold payWord
  rw [if_neg (by simp [hs])]
  split
  next hp =>
    have hz : wordCost s g = 0 := by simp [wordCost, hp]
    obtain ⟨hbal, hi⟩ := noteStep_keeps s (curGrove s) k
    rw [hbal, hi, hz]
    exact ⟨rfl, rfl⟩
  next => exact pay_takes ht hx hg hn hb

/-! ### What paying leaves alone -/

@[simp] theorem dropAllowances_elems (s : State) (gs : List Nat) : (dropAllowances s gs).elems = s.elems := by
  induction gs generalizing s with
  | nil => rfl
  | cons g gs ih => rw [dropAllowances, ih, State.modGrove_elems]

@[simp] theorem dropAllowances_cur (s : State) (gs : List Nat) : (dropAllowances s gs).cur = s.cur := by
  induction gs generalizing s with
  | nil => rfl
  | cons g gs ih => rw [dropAllowances, ih, State.modGrove_cur]

@[simp] theorem pay_elems (s : State) (g cost : Nat) : (pay s g cost).elems = s.elems := by
  simp only [pay]
  split
  · rfl
  · split
    · simp [countCost]
    · split <;> simp [countCost, gather]

@[simp] theorem pay_cur (s : State) (g cost : Nat) : (pay s g cost).cur = s.cur := by
  simp only [pay]
  split
  · rfl
  · split
    · simp [countCost]
    · split <;> simp [countCost, gather]

theorem noteStep_elems_cur (s : State) (g : Nat) : (noteStep s g).elems = s.elems ∧ (noteStep s g).cur = s.cur := by
  unfold noteStep
  split <;> simp

theorem payWord_elems_cur (s : State) (cost : Nat) : (payWord s cost).elems = s.elems ∧ (payWord s cost).cur = s.cur := by
  unfold payWord
  split
  · extract_lets t n u
    have ht : t.elems = s.elems ∧ t.cur = s.cur := by
      simp only [t]
      split <;> simp
    split <;> simp [u, ht]
  · split
    · exact noteStep_elems_cur s _
    · simp

theorem payWord_elem (s : State) (cost e : Nat) : (payWord s cost).elem e = s.elem e := by
  rw [State.elem, State.elem, (payWord_elems_cur s cost).1]

/-! ### Taking the heads of the channels (R69, R107) -/

@[simp] theorem consumeCopy_elem (s : State) (tid e : Nat) : (consumeCopy s tid).elem e = s.elem e := by
  unfold consumeCopy
  split
  · rfl
  · split <;> rfl

@[simp] theorem endExit_elem (s : State) (e ch : Nat) (t : Token) (i : Nat) : (endExit s e ch t).elem i = s.elem i := by
  unfold endExit
  split <;> rfl

theorem notePassed_keeps {α : Type} (φ : Elem → α) (h : ∀ x : Elem, φ { x with passed := true } = φ x) (t : Token) (x : Elem) : φ (notePassed t x) = φ x := by
  unfold notePassed
  split
  · exact h x
  · rfl

/-- Taking a channel's head leaves the arbiter, the firing counts and the other channels of the element as they are. -/
theorem takeHead_elem (s : State) (e ch : Nat) (k : Option Nat) :
    ((takeHead s e ch k).elem e).active.arb = (s.elem e).active.arb ∧ ((takeHead s e ch k).elem e).firings = (s.elem e).firings ∧
    ∀ c, ((takeHead s e ch k).elem e).active.fifo c = if c = ch then ((s.elem e).active.fifo c).tail else (s.elem e).active.fifo c := by
  unfold takeHead
  split
  next hq =>
    refine ⟨rfl, rfl, fun c => ?_⟩
    split
    next h => rw [h, hq, List.tail_nil]
    next => rfl
  next t rest hq =>
    rw [consumeCopy_elem, endExit_elem, State.modElem_elem, if_pos rfl, notePassed_keeps Elem.active (fun _ => rfl), notePassed_keeps Elem.firings (fun _ => rfl)]
    refine ⟨rfl, rfl, fun c => ?_⟩
    rw [Plane.fifo, Plane.setFifo, mget_mset]
    split
    next h => rw [h, hq, List.tail_cons]
    next => rfl

/-- Each channel of a list without repetition loses its head once. -/
theorem takeHeads_elem (e : Nat) (k : Option Nat) {chs : List Nat} (hn : chs.Nodup) (s : State) :
    ((chs.foldl (fun s ch => takeHead s e ch k) s).elem e).active.arb = (s.elem e).active.arb ∧
    ((chs.foldl (fun s ch => takeHead s e ch k) s).elem e).firings = (s.elem e).firings ∧
    ∀ c, ((chs.foldl (fun s ch => takeHead s e ch k) s).elem e).active.fifo c = if c ∈ chs then ((s.elem e).active.fifo c).tail else (s.elem e).active.fifo c := by
  induction chs generalizing s with
  | nil => exact ⟨rfl, rfl, fun c => rfl⟩
  | cons ch chs ih =>
    obtain ⟨hch, hn⟩ := List.nodup_cons.1 hn
    obtain ⟨ha, hf, hq⟩ := ih hn (takeHead s e ch k)
    obtain ⟨ha', hf', hq'⟩ := takeHead_elem s e ch k
    rw [List.foldl_cons]
    refine ⟨ha.trans ha', hf.trans hf', fun c => ?_⟩
    rw [hq, hq']
    by_cases hc : c = ch
    · subst hc
      simp [hch]
    · simp [hc]

/-! ### Moving on (R30, R131) -/

theorem advance_cur (s : State) (i : Instr) : (advance s i).cur = s.cur := by
  unfold advance
  split <;> rfl

theorem advance_slot {s : State} {e n : Nat} {k : BitVec 2} (hc : s.cur = .slot e k n) (i : Instr) :
    ((advance s i).elem e).active = { (s.elem e).active with arb := k + 1 } ∧ ((advance s i).elem e).firings = mmod 0 (s.elem e).firings n (· + 1) := by
  simp only [advance, hc, State.modElem_elem, if_true, and_self]

theorem advance_word {s : State} {g a : Nat} (hc : s.cur = .word g a) (i : Instr) : ((advance s i).grove g).pc = (a + (encode i).length) % 16384 := by
  simp only [advance, hc, State.modGrove_grove, if_true]

theorem issued_slot {s : State} {e n : Nat} {k : BitVec 2} (hc : s.cur = .slot e k n) (i : Instr) :
    issued s i = (eats s (wordSig i)).foldl (fun s ch => takeHead s e ch (some k.toNat)) (advance (payWord s (wordCost s (wordSig i))) i) := by
  have hcur : (advance (payWord s (wordCost s (wordSig i))) i).cur = .slot e k n := by
    rw [advance_cur, (payWord_elems_cur _ _).2, hc]
  simp only [issued, consume, hcur]

theorem issued_word {s : State} {g a : Nat} (hc : s.cur = .word g a) (i : Instr) : issued s i = advance (payWord s (wordCost s (wordSig i))) i := by
  have hcur : (advance (payWord s (wordCost s (wordSig i))) i).cur = .word g a := by
    rw [advance_cur, (payWord_elems_cur _ _).2, hc]
  simp only [issued, consume, hcur]

/-- A firing moves its element's arbiter past the strand, is counted, and takes the head of each channel that the word consumes. -/
theorem issued_slot_elem {s : State} {e n : Nat} {k : BitVec 2} (hc : s.cur = .slot e k n) (i : Instr) :
    ((issued s i).elem e).active.arb = k + 1 ∧ mget 0 ((issued s i).elem e).firings n = mget 0 (s.elem e).firings n + 1 ∧
    ∀ ch, ((issued s i).elem e).active.fifo ch = if ch ∈ eats s (wordSig i) then ((s.elem e).active.fifo ch).tail else (s.elem e).active.fifo ch := by
  have hpc : (payWord s (wordCost s (wordSig i))).cur = .slot e k n := (payWord_elems_cur _ _).2.trans hc
  obtain ⟨hact, hfir⟩ := advance_slot hpc i
  obtain ⟨ha, hf, hq⟩ := takeHeads_elem e (some k.toNat) (chs := eats s (wordSig i)) (List.nodup_dedup _) (advance (payWord s (wordCost s (wordSig i))) i)
  rw [payWord_elem] at hact hfir
  rw [issued_slot hc, ha, hf, hact, hfir, mget_mmod, if_pos rfl]
  refine ⟨rfl, rfl, fun ch => ?_⟩
  rw [hq, hact]
  rfl

theorem affordable_balance {s : State} {g : Sig} {k : Nat} (ha : affordable s g = true) (hs : s.supervising = false) (hf : g.free = false)
    (ht : s.taskOfGrove (curGrove s) = some k) : wordCost s g ≤ balance s k := by
  simp only [affordable, hs, hf, canPay, ht, Bool.false_or, Bool.and_eq_true, decide_eq_true_eq] at ha
  exact ha.2

theorem affordable_of_issuable {s : State} {i : Instr} (h : issuable s i = true) : affordable s (wordSig i) = true := by
  simp only [issuable, Bool.and_eq_true] at h
  exact h.2

/-- Settles O15: the meters are those that the payment leaves, and the unit moves on and takes its heads as advance and consume do. -/
theorem issueTakesCostAndSources : Obligations.IssueTakesCostAndSources := by
  unfold Obligations.IssueTakesCostAndSources
  intro i s hi
  have hm := issued_sameMeters s i
  refine ⟨fun hs k ht hx hg hn hf => ?_, fun hs k => ?_, fun e k n hc => issued_slot_elem hc i, fun g a hc => ?_⟩
  · rw [hm.balance, hm.task]
    exact payWord_task hs ht hx hg hn (affordable_balance (affordable_of_issuable hi) hs hf ht)
  · rw [hm.balance, payWord_supervisor hs]
  · rw [issued_word hc]
    exact advance_word ((payWord_elems_cur _ _).2.trans hc) i

end Sys2Proof.Machine
end

section
/-! PROOFS. What the writes from outside any task leave as it is (R83, R330): groves, tasks, tags and reserves, and each sector that reads full.

The end of a task makes such writes again and again, for its record, for those that waited for its sectors, and where a successor is staged afresh; one frame serves them all. -/

namespace Sys2Proof.Machine
open Sys2Proof.Claims

theorem sectorView_congr {s u : State} {n : Nat} (hs : u.sector n = s.sector n) (ht : u.tags = s.tags) : sectorView u n = sectorView s n := by
  rw [sectorView, sectorView, hs, ht]

/-- Between two states groves, tasks, tags and reserves are the same, and each sector that read full still does. -/
structure OutsideFrame (s u : State) : Prop where
  groves : u.groves = s.groves
  tasks : u.tasks = s.tasks
  tags : u.tags = s.tags
  reserve : ∀ c, (u.ctx c).reserve = (s.ctx c).reserve
  full : ∀ n, sectorView s n = .full → sectorView u n = .full

namespace OutsideFrame

theorem refl (s : State) : OutsideFrame s s := ⟨rfl, rfl, rfl, fun _ => rfl, fun _ h => h⟩

theorem trans {s u v : State} (h : OutsideFrame s u) (h' : OutsideFrame u v) : OutsideFrame s v :=
  ⟨h'.groves.trans h.groves, h'.tasks.trans h.tasks, h'.tags.trans h.tags, fun c => (h'.reserve c).trans (h.reserve c), fun n hn => h'.full n (h.full n hn)⟩

theorem grove {s u : State} (h : OutsideFrame s u) (g : Nat) : u.grove g = s.grove g := by rw [State.grove, State.grove, h.groves]

theorem task {s u : State} (h : OutsideFrame s u) (t : Nat) : u.task t = s.task t := by rw [State.task, State.task, h.tasks]

theorem of_fields {s u : State} (hg : u.groves = s.groves) (ht : u.tasks = s.tasks) (hl : u.tags = s.tags) (hc : u.ctxs = s.ctxs) (hs : u.sectors = s.sectors) :
    OutsideFrame s u := by
  refine ⟨hg, ht, hl, fun c => ?_, fun n hn => ?_⟩
  · rw [State.ctx, State.ctx, hc]
  · rw [sectorView_congr (by rw [State.sector, State.sector, hs]) hl, hn]

theorem foldl {α : Type} {f : State → α → State} (hf : ∀ s a, OutsideFrame s (f s a)) (l : List α) (s : State) : OutsideFrame s (l.foldl f s) := by
  induction l generalizing s with
  | nil => exact refl s
  | cons a l ih => exact (hf s a).trans (ih (f s a))

theorem of_modCtx {s : State} {c : Nat} {f : Ctx → Ctx} (h : (f (s.ctx c)).reserve = (s.ctx c).reserve) : OutsideFrame s (s.modCtx c f) := by
  refine ⟨rfl, rfl, rfl, fun i => ?_, fun _ hn => hn⟩
  rw [State.modCtx_ctx]
  split
  next hi => rw [h, hi]
  next => rfl

end OutsideFrame

/-! ### One write -/

theorem drainWindow_outside (s : State) (port vc : Nat) : OutsideFrame s (drainWindow s port vc) := by
  unfold drainWindow
  simp only []
  split <;> exact .of_fields rfl rfl rfl rfl rfl

theorem sendLink_outside (s : State) (m vc beats : Nat) (msg : LinkMsg) : OutsideFrame s (sendLink s m vc beats msg) := by
  unfold sendLink sendPort
  refine .trans ?_ (drainWindow_outside _ _ _)
  exact .of_fields rfl rfl rfl rfl rfl

/-- A sector that has been written reads full. -/
theorem fullSector_outside (s : State) (n : Nat) : OutsideFrame s { s with sectors := mset s.sectors n { st := 1, tag := 0 } } := by
  refine ⟨rfl, rfl, rfl, fun _ => rfl, fun i hi => ?_⟩
  by_cases h : i = n
  · subst h
    simp [sectorView, State.sector]
  · have hs : ({ s with sectors := mset s.sectors n { st := 1, tag := 0 } } : State).sector i = s.sector i := mget_mset_other _ _ _ h
    exact (sectorView_congr hs rfl).trans hi

theorem deviceWrite_outside (s : State) (whole : Bool) (p : DevicePlace) (v : Word) : OutsideFrame s (deviceWrite s whole p v) := by
  unfold deviceWrite
  split
  next pa _ =>
    extract_lets n empty s1 s2
    have h1 : OutsideFrame s s1 := by
      simp only [s1]
      split
      · exact .of_fields rfl rfl rfl rfl rfl
      · exact .refl s
    have h2 : OutsideFrame s1 s2 := by
      simp only [s2]
      split <;> exact .of_fields rfl rfl rfl rfl rfl
    have h3 : OutsideFrame s2 { s2 with mem := setWord s2.mem pa v } := .of_fields rfl rfl rfl rfl rfl
    exact ((h1.trans h2).trans h3).trans (fullSector_outside _ n)
  · exact .of_fields rfl rfl rfl rfl rfl
  · exact sendLink_outside s _ _ _ _
  · exact .refl s

theorem deviceWrites_outside (s : State) (ts : List DevicePlace) (ws : List Word) : OutsideFrame s (deviceWrites s ts ws) := by
  unfold deviceWrites
  refine .foldl (fun u x => ?_) _ s
  exact deviceWrite_outside u _ _ _

theorem logEvent_outside (s : State) (kind cause p g : Nat) (detail : Word) : OutsideFrame s (logEvent s kind cause p g detail) := by
  unfold logEvent
  extract_lets e0 log
  exact .of_fields rfl rfl rfl rfl rfl

theorem dropRecord_outside (s : State) (k : Nat) (o : DeviceOp) : OutsideFrame s (dropRecord s k o) := by
  unfold dropRecord
  extract_lets s1
  have h : OutsideFrame s s1 := by
    simp only [s1]
    split
    · exact logEvent_outside s _ _ _ _ _
    · exact .refl s
  split
  · exact h.trans (logEvent_outside _ _ _ _ _ _)
  · exact h

theorem signal_outside (s : State) (p vec : Nat) : OutsideFrame s (signal s p vec) := by
  unfold signal
  extract_lets x
  split
  · exact .refl s
  · split <;> exact .of_fields rfl rfl rfl rfl rfl

theorem afterOp_outside (s : State) (o : DeviceOp) : OutsideFrame s (afterOp s o) := by
  unfold afterOp
  split
  · exact signal_outside s _ _
  · exact .refl s

theorem deviceDo_outside (s : State) (o : DeviceOp) : OutsideFrame s (deviceDo s o) := by
  unfold deviceDo
  split
  · exact .refl s
  · exact dropRecord_outside s _ o
  · split
    · exact .of_fields rfl rfl rfl rfl rfl
    · exact (deviceWrites_outside s _ _).trans (afterOp_outside _ o)

theorem retryWaiting_outside (s : State) : OutsideFrame s (retryWaiting s) :=
  .trans (u := { s with waiting := [] }) (.of_fields rfl rfl rfl rfl rfl) (.foldl deviceDo_outside s.waiting _)

theorem logRecord_outside (s : State) (c p : Nat) (e : Entry) (words : List Word) : OutsideFrame s (logRecord s c p e words) := by
  unfold logRecord
  exact deviceDo_outside s _

theorem skipStart_outside (s : State) (e : Entry) : OutsideFrame s (skipStart s e) := by
  unfold skipStart countSkip
  exact deviceDo_outside s _

/-! ### Entries and banks held for a successor -/

theorem entryEnded_outside (s : State) (k t : Nat) : OutsideFrame s (entryEnded s k t) := by
  unfold entryEnded
  split
  · exact .refl s
  · split
    · exact .of_fields rfl rfl rfl rfl rfl
    · exact .refl s

theorem parkFor_outside (s : State) (d : Due) : OutsideFrame s (parkFor s d) := by
  unfold parkFor
  split
  · refine .foldl (fun u b => ?_) _ s
    split <;> exact .of_fields rfl rfl rfl rfl rfl
  · exact .refl s

theorem clearV_outside (s : State) (p n : Nat) : OutsideFrame s (clearV s p n) := by
  unfold clearV
  exact deviceDo_outside s _

theorem stopNoLog_outside (s : State) (p n : Nat) : OutsideFrame s (stopNoLog s p n) :=
  ((logEvent_outside s _ _ _ _ _).trans (clearV_outside _ p n)).trans (.of_fields rfl rfl rfl rfl rfl)

theorem reject_outside (s : State) (p n reason : Nat) (info : Word) (e : Entry) (clear : Bool) : OutsideFrame s (reject s p n reason info e clear) := by
  unfold reject
  split
  · exact ((logRecord_outside s _ _ _ _).trans (clearV_outside _ p n)).trans (.of_fields rfl rfl rfl rfl rfl)
  · exact logRecord_outside s _ _ _ _

theorem keepSoon_outside (s : State) (p n soon : Nat) : OutsideFrame s (keepSoon s p n soon) := .of_fields rfl rfl rfl rfl rfl

theorem bindLog_outside (s : State) (c base size : Nat) : OutsideFrame s (bindLog s c base size) := (OutsideFrame.of_modCtx rfl).trans (deviceDo_outside _ _)

theorem askFor_outside (ps : List DevicePlace) (s : State) : OutsideFrame s (askFor ps s) := by
  refine .foldl (fun u p => ?_) ps s
  split
  · split
    · exact sendLink_outside u _ _ _ _
    · exact .refl u
  · exact .refl u

theorem stage_outside (s : State) (p n : Nat) (e : Entry) (soon : Nat) : OutsideFrame s (stage s p n e soon) := by
  unfold stage
  extract_lets c k
  split
  · exact stopNoLog_outside s p n
  split
  split
  · exact stopNoLog_outside s p n
  extract_lets s1 len
  have h1 : OutsideFrame s s1 := by
    simp only [s1]
    split
    · exact bindLog_outside s _ _ _
    · exact .refl s
  refine h1.trans ?_
  split
  · exact keepSoon_outside s1 p n soon
  split
  · exact reject_outside s1 p n _ _ e _
  split
  · exact keepSoon_outside s1 p n soon
  refine .trans ?_ (askFor_outside _ _)
  split
  · exact (logEvent_outside s1 _ _ _ _ _).trans (keepSoon_outside _ p n soon)
  split
  · exact reject_outside s1 p n _ _ e _
  · exact .of_fields rfl rfl rfl rfl rfl

theorem restageDue_outside (s : State) (k : Nat) : OutsideFrame s (restageDue s k) := by
  unfold restageDue restage
  split
  · split
    · exact .refl s
    · split
      · refine .trans ?_ (stage_outside _ _ _ _ _)
        exact .of_fields rfl rfl rfl rfl rfl
      · exact .of_fields rfl rfl rfl rfl rfl
  · exact .refl s

/-- A tag that is given a state has it, and every other tag keeps its own; the writes that then go on are those from outside any task. -/
theorem setTagState_outside (s : State) (t : Nat) (v : TagState) : OutsideFrame { s with tags := mset s.tags t v } (setTagState s t v) := by
  unfold setTagState
  refine .trans ?_ (retryWaiting_outside _)
  exact .of_fields rfl rfl rfl rfl rfl

end Sys2Proof.Machine
end

section
/-! PROOFS. The end of a task (R27, R86, R197, R198): settling, what its units and banks come to, and the states that a vanish and a commit leave. -/

namespace Sys2Proof.Machine
open Sys2Proof.Claims

/-- A value that a change sets in a task, and that a task has which does not exist, is the task's afterwards. -/
theorem State.modTask_sets {α : Type} (φ : Task → α) {s : State} {t : Nat} {f : Task → Task} {a : α} (hf : φ (f (s.task t)) = a) (hd : φ {} = a) :
    φ ((s.modTask t f).task t) = a := by
  by_cases ht : mfind s.tasks t = none
  · rw [State.modTask_task, if_neg (by simp [ht]), State.task, mget, ht]
    exact hd
  · rw [State.modTask_task_self ht, hf]

/-! ### What the release of a task's units leaves -/

/-- Between two states the memory of tags, sectors, voids and contexts is the same, and no grove has got a task. -/
structure ReleaseFrame (s u : State) : Prop where
  tags : u.tags = s.tags
  voids : u.voids = s.voids
  sectors : u.sectors = s.sectors
  ctxs : u.ctxs = s.ctxs
  freed : ∀ h, (s.grove h).task = none → (u.grove h).task = none

namespace ReleaseFrame

theorem refl (s : State) : ReleaseFrame s s := ⟨rfl, rfl, rfl, rfl, fun _ h => h⟩

theorem trans {s u v : State} (h : ReleaseFrame s u) (h' : ReleaseFrame u v) : ReleaseFrame s v :=
  ⟨h'.tags.trans h.tags, h'.voids.trans h.voids, h'.sectors.trans h.sectors, h'.ctxs.trans h.ctxs, fun g hg => h'.freed g (h.freed g hg)⟩

theorem of_fields {s u : State} (hl : u.tags = s.tags) (hv : u.voids = s.voids) (hs : u.sectors = s.sectors) (hc : u.ctxs = s.ctxs) (hg : u.groves = s.groves) :
    ReleaseFrame s u :=
  ⟨hl, hv, hs, hc, fun h hn => by rwa [State.grove, hg]⟩

theorem foldl {α : Type} {f : State → α → State} (hf : ∀ s a, ReleaseFrame s (f s a)) (l : List α) (s : State) : ReleaseFrame s (l.foldl f s) := by
  induction l generalizing s with
  | nil => exact refl s
  | cons a l ih => exact (hf s a).trans (ih (f s a))

end ReleaseFrame

/-! ### Settling the meter (R197, R202) -/

theorem modGrove_released {s : State} {g : Nat} {f : Grove → Grove} (h : (f (s.grove g)).task = (s.grove g).task) : ReleaseFrame s (s.modGrove g f) :=
  ⟨rfl, rfl, rfl, rfl, fun i hi => (State.modGrove_keeps Grove.task h i).trans hi⟩

theorem modTask_released (s : State) (t : Nat) (f : Task → Task) : ReleaseFrame s (s.modTask t f) :=
  .of_fields (State.modTask_tags s t f) (State.modTask_voids s t f) (State.modTask_sectors s t f) (State.modTask_ctxs s t f) (State.modTask_groves s t f)

theorem drainCasks_released (gs : List Nat) (n : Nat) (s : State) : ReleaseFrame s (drainCasks gs n s) := by
  induction gs generalizing n s with
  | nil => exact .refl s
  | cons g gs ih =>
    rw [drainCasks]
    refine .trans ?_ (ih _ _)
    exact modGrove_released rfl

theorem dropAllowances_released (gs : List Nat) (s : State) : ReleaseFrame s (dropAllowances s gs) := by
  induction gs generalizing s with
  | nil => exact .refl s
  | cons g gs ih =>
    refine .trans ?_ (ih _)
    exact modGrove_released rfl

theorem gather_released (s : State) (t : Nat) : ReleaseFrame s (gather s t) := by
  unfold gather
  exact (dropAllowances_released _ s).trans (modTask_released _ _ _)

theorem settle_keeps (s : State) (t : Nat) :
    (settle s t).tags = s.tags ∧ (settle s t).voids = s.voids ∧ (settle s t).sectors = s.sectors ∧ ∀ h, (s.grove h).task = none → ((settle s t).grove h).task = none := by
  unfold settle
  extract_lets s1 x b charge s2 s3 s4
  have hg : ReleaseFrame s s1 := gather_released s t
  have hd : ReleaseFrame s2 s3 := drainCasks_released x.groves (b % 16) s2
  clear_value s1 s3
  exact ⟨hd.tags.trans hg.tags, hd.voids.trans hg.voids, hd.sectors.trans hg.sectors, fun h hn => hd.freed h (hg.freed h hn)⟩

/-- The whole packets of the balance enter the reserve of the task's context. -/
theorem settle_reserve {s : State} {t : Nat} (ht : mfind s.tasks t ≠ none) :
    ((settle s t).ctx (s.task t).ctx).reserve = addReserve (s.ctx (s.task t).ctx).reserve (balance s t / 16) := by
  have hg := (gather_released s t).ctxs
  have hx := gather_task ht
  unfold settle
  extract_lets s1 x b charge s2 s3 s4
  have hd : s3.ctxs = s2.ctxs := (drainCasks_released x.groves (b % 16) s2).ctxs
  have hctx : x.ctx = (s.task t).ctx := by simp only [x, s1, hx]
  have hb : b = balance s t := by simp only [b, x, s1, hx]
  have hs1 : s1.ctx (s.task t).ctx = s.ctx (s.task t).ctx := by rw [State.ctx, State.ctx, hg]
  have hs3 : s3.ctx (s.task t).ctx = s2.ctx (s.task t).ctx := by rw [State.ctx, State.ctx, hd]
  calc (s3.ctx (s.task t).ctx).reserve = (s2.ctx (s.task t).ctx).reserve := by rw [hs3]
    _ = addReserve (s1.ctx (s.task t).ctx).reserve (b / 16) := by simp only [s2, hctx, State.modCtx_ctx, if_true]
    _ = _ := by rw [hs1, hb]

theorem addReserve_of_lt {r n : Nat} (h : r + n < 2 ^ 48) : addReserve r n = r + n := if_pos h

/-! ### Releasing the units -/

theorem vanishBank_released (t : Nat) (s : State) (b : Nat) : ReleaseFrame s (vanishBank t s b) := by
  unfold vanishBank
  extract_lets k
  split
  · exact .of_fields rfl rfl rfl rfl rfl
  · split <;> exact .of_fields rfl rfl rfl rfl rfl

theorem commitBank_released (t : Nat) (next : Option Owner) (s : State) (b : Nat) : ReleaseFrame s (commitBank t next s b) := by
  unfold commitBank
  extract_lets c
  split
  · exact .of_fields rfl rfl rfl rfl rfl
  · split
    · split <;> exact .of_fields rfl rfl rfl rfl rfl
    · exact .of_fields rfl rfl rfl rfl rfl

theorem releaseGrove_task (t : Nat) (s : State) (g h : Nat) : ((releaseGrove t s g).grove h).task = if h = g then none else (s.grove h).task := by
  unfold releaseGrove
  refine (congrArg Grove.task (State.setGrove_grove s g _ h)).trans ?_
  split <;> rfl

theorem releaseGrove_released (t : Nat) (s : State) (g : Nat) : ReleaseFrame s (releaseGrove t s g) := by
  refine ⟨rfl, rfl, rfl, rfl, fun h hn => ?_⟩
  rw [releaseGrove_task, hn, ite_self]

theorem releaseGroves_task (t : Nat) {gs : List Nat} {h : Nat} (hh : h ∈ gs) (s : State) : ((gs.foldl (releaseGrove t) s).grove h).task = none := by
  induction gs generalizing s with
  | nil => simp at hh
  | cons g gs ih =>
    rw [List.foldl_cons]
    obtain rfl | hh := List.mem_cons.1 hh
    · refine (ReleaseFrame.foldl (releaseGrove_released t) gs _).freed h ?_
      rw [releaseGrove_task, if_pos rfl]
    · exact ih hh _

theorem sendLink_released (s : State) (m vc beats : Nat) (msg : LinkMsg) : ReleaseFrame s (sendLink s m vc beats msg) := by
  unfold sendLink sendPort drainWindow
  simp only []
  split <;> exact .of_fields rfl rfl rfl rfl rfl

/-- The units of an ended task are discarded, its groves released and its resolves sent, in full or not. -/
def unitsReleased (t : Nat) (x : Task) (full : Bool) (s : State) : State :=
  x.resolving.foldl (fun s m => sendLink s m 2 3 (.resolve x.serial full)) (x.groves.foldl (releaseGrove t) (discardUnits t x.groves s))

theorem unitsReleased_released (t : Nat) (x : Task) (full : Bool) (s : State) : ReleaseFrame s (unitsReleased t x full s) := by
  unfold unitsReleased
  refine .trans ?_ (.foldl (fun u m => ?_) x.resolving _)
  · refine .trans ?_ (.foldl (releaseGrove_released t) x.groves _)
    exact .of_fields rfl rfl rfl rfl rfl
  · exact sendLink_released u m _ _ _

theorem unitsReleased_task (t : Nat) (x : Task) (full : Bool) (s : State) {h : Nat} (hh : h ∈ x.groves) : ((unitsReleased t x full s).grove h).task = none :=
  (ReleaseFrame.foldl (fun u m => sendLink_released u m _ _ _) x.resolving _).freed h (releaseGroves_task t hh _)

/-! ### A task that vanishes (R198) -/

/-- A task has vanished, its record not yet written. -/
def taskVanished (s : State) (t : Nat) : State :=
  let banks := (heldBanks (settle s t) t).foldl (vanishBank t) (settle s t)
  let gone := unitsReleased t (s.task t) false banks
  (setTagState { gone with voids := merase gone.voids t } t .vanished).modTask t
    (fun y => { y with groves := [], central := 0, dry := none, refusals := [], wave := none, suspended := none })

theorem vanishTask_of_live {s : State} {t : Nat} (h : isLive s t = true) (cause ucode : Nat) :
    vanishTask s t cause ucode = entryEnded (logRecord (taskVanished s t) (s.task t).ctx (s.task t).part (s.task t).entry
      (shortfall s t 3 cause ucode ((s.task t).rows * (s.task t).cols))) (entryKey (s.task t).part (s.task t).entryIndex) t := by
  rw [vanishTask, h]
  rfl

theorem vanishTask_of_not_live {s : State} {t : Nat} (h : isLive s t = false) (cause ucode : Nat) : vanishTask s t cause ucode = s := by
  rw [vanishTask, h]
  rfl

theorem taskVanished_tag (s : State) (t i : Nat) : mget TagState.free (taskVanished s t).tags i = if i = t then .vanished else mget TagState.free s.tags i := by
  have hb := ReleaseFrame.foldl (vanishBank_released t) (heldBanks (settle s t) t) (settle s t)
  have hr := unitsReleased_released t (s.task t) false ((heldBanks (settle s t) t).foldl (vanishBank t) (settle s t))
  rw [taskVanished, State.modTask_tags, (setTagState_outside _ _ _).tags, mget_mset]
  simp only [hr.tags, hb.tags, (settle_keeps s t).1]

theorem taskVanished_freed (s : State) (t : Nat) {h : Nat} (hh : (s.grove h).task = none) : ((taskVanished s t).grove h).task = none := by
  have hb := ReleaseFrame.foldl (vanishBank_released t) (heldBanks (settle s t) t) (settle s t)
  have hr := unitsReleased_released t (s.task t) false ((heldBanks (settle s t) t).foldl (vanishBank t) (settle s t))
  obtain ⟨-, -, -, hg⟩ := settle_keeps s t
  rw [taskVanished, State.modTask_grove, (setTagState_outside _ _ _).grove]
  exact hr.freed h (hb.freed h (hg h hh))

theorem taskVanished_groves (s : State) (t : Nat) {h : Nat} (hh : h ∈ (s.task t).groves) : ((taskVanished s t).grove h).task = none := by
  rw [taskVanished, State.modTask_grove, (setTagState_outside _ _ _).grove]
  exact unitsReleased_task t (s.task t) false _ hh

theorem vanishTask_outside {s : State} {t : Nat} (h : isLive s t = true) (cause ucode : Nat) : OutsideFrame (taskVanished s t) (vanishTask s t cause ucode) := by
  rw [vanishTask_of_live h]
  exact (logRecord_outside _ _ _ _ _).trans (entryEnded_outside _ _ _)

/-- A live task that vanishes has vanished as R198 says. -/
theorem hasVanished_vanishTask {s : State} {t : Nat} (h : isLive s t = true) (cause ucode : Nat) : hasVanished s (vanishTask s t cause ucode) t := by
  have ho := vanishTask_outside h cause ucode
  have hgs : ((taskVanished s t).task t).groves = [] := State.modTask_sets Task.groves rfl rfl
  have hc : ((taskVanished s t).task t).central = 0 := State.modTask_sets Task.central rfl rfl
  refine ⟨?_, fun g hg => ?_, ?_⟩
  · rw [ho.tags, taskVanished_tag, if_pos rfl]
  · rw [ho.grove, taskVanished_groves s t hg]
  · rw [balance, ho.task, hgs, hc]
    rfl

end Sys2Proof.Machine
end

section
/-! PROOFS. A task that commits (M11, R104, R197), in the steps of commitNow: its tag resolves, its events are set, its successor becomes due, and its record is written.

The successor's launch may make an earlier load of its entry vanish (R327), so what is kept through it is only that the tag stays committed and released groves stay free. -/

namespace Sys2Proof.Machine
open Sys2Proof.Claims

/-! ### A tag that resolves full (R84, R104) -/

theorem voidSectors_groves_ctxs (t n k : Nat) (s : State) : (voidSectors t n k s).groves = s.groves ∧ (voidSectors t n k s).ctxs = s.ctxs := by
  induction k generalizing n s with
  | zero => exact ⟨rfl, rfl⟩
  | succ k ih =>
    rw [voidSectors]
    have hstep : ∀ u : State, u.groves = s.groves ∧ u.ctxs = s.ctxs → (voidSectors t (n + 1) k u).groves = s.groves ∧ (voidSectors t (n + 1) k u).ctxs = s.ctxs :=
      fun u hu => ⟨(ih (n + 1) u).1.trans hu.1, (ih (n + 1) u).2.trans hu.2⟩
    refine hstep _ ?_
    split
    · split <;> exact ⟨rfl, rfl⟩
    · exact ⟨rfl, rfl⟩

/-- The pending voids of a tag take effect. -/
def voidsTaken (s : State) (t : Nat) : State :=
  (mget [] s.voids t).foldl (fun s v => voidSectors t (v.1 / 64) (v.2 / 64) s) { s with voids := merase s.voids t }

theorem voidsTaken_groves_ctxs (s : State) (t : Nat) : (voidsTaken s t).groves = s.groves ∧ (voidsTaken s t).ctxs = s.ctxs := by
  unfold voidsTaken
  generalize mget [] s.voids t = vs
  have h : ∀ u : State, u.groves = s.groves ∧ u.ctxs = s.ctxs →
      (vs.foldl (fun s v => voidSectors t (v.1 / 64) (v.2 / 64) s) u).groves = s.groves ∧ (vs.foldl (fun s v => voidSectors t (v.1 / 64) (v.2 / 64) s) u).ctxs = s.ctxs := by
    induction vs with
    | nil => exact fun u hu => hu
    | cons v vs ih =>
      intro u hu
      obtain ⟨hg, hc⟩ := voidSectors_groves_ctxs t (v.1 / 64) (v.2 / 64) u
      exact ih _ ⟨hg.trans hu.1, hc.trans hu.2⟩
  exact h _ ⟨rfl, rfl⟩

theorem voidsTaken_sectors {s : State} {t : Nat} (h : mget [] s.voids t = []) : (voidsTaken s t).sectors = s.sectors := by
  rw [voidsTaken, h]
  rfl

theorem commitTag_outside (s : State) (t : Nat) : OutsideFrame { voidsTaken s t with tags := mset (voidsTaken s t).tags t .committed } (commitTag s t) :=
  setTagState_outside (voidsTaken s t) t .committed

theorem commitTag_tag (s : State) (t : Nat) : mget TagState.free (commitTag s t).tags t = .committed := by
  rw [(commitTag_outside s t).tags, mget_mset_same]

theorem commitTag_grove (s : State) (t g : Nat) : (commitTag s t).grove g = s.grove g := by
  rw [(commitTag_outside s t).grove]
  simp only [State.grove, (voidsTaken_groves_ctxs s t).1]

theorem commitTag_reserve (s : State) (t c : Nat) : ((commitTag s t).ctx c).reserve = (s.ctx c).reserve := by
  rw [(commitTag_outside s t).reserve]
  simp only [State.ctx, (voidsTaken_groves_ctxs s t).2]

/-- Without pending voids, the sectors that are tentative under the tag read full. -/
theorem commitTag_full {s : State} {t n : Nat} (hv : mget [] s.voids t = []) (hst : (s.sector n).st = 2) (ht : (s.sector n).tag.toNat = t) :
    sectorView (commitTag s t) n = .full := by
  refine (commitTag_outside s t).full n ?_
  have hs : (voidsTaken s t).sector n = s.sector n := by rw [State.sector, State.sector, voidsTaken_sectors hv]
  have hs' : ({ voidsTaken s t with tags := mset (voidsTaken s t).tags t .committed } : State).sector n = s.sector n := hs
  rw [sectorView, hs', hst, ht]
  simp

/-! ### The steps of a commit -/

/-- A task's meter is settled, its banks have passed on, its units are released and its tag has resolved full. -/
def tagCommitted (s : State) (t : Nat) : State :=
  commitTag (unitsReleased t (s.task t) true ((heldBanks (settle s t) t).foldl (commitBank t (nextOwner (settle s t) (s.task t))) (settle s t))) t

/-- The events that an entry sets at its commit are set, and launches that waited for them wake (R329). -/
def commitEvents (x : Task) (s : State) : State :=
  let w7 := (reg x.entry.w 7).toNat
  let evs := (List.range 16).foldl (fun (m : BitVec 256) b => if bits w7 (32 + b) 1 = 1 then m ||| ((1 : BitVec 256) <<< (16 * bits w7 28 4 + b)) else m) 0
  if (reg x.entry.w 0).getLsbD 52 then wakeEntries (s.modCtx x.ctx (fun c => { c with events := c.events ||| evs })) else s

/-- The successor of a task that commits is due (R328). -/
def commitLaunch (x : Task) (s : State) : State :=
  match successorKey x with
  | some k => if x.due then s else entryDue s k s.tb.toNat (some x.serial)
  | none => s

/-- The commit record is written, or held for the resolves, and the entry's load ends (R327, R394). -/
def commitClose (t : Nat) (x : Task) (record : List Word) (s : State) : State :=
  let s := s.modTask t (fun y => { y with groves := [], central := 0, refusals := [], wave := none })
  let s := if x.resolving.isEmpty then logRecord s x.ctx x.part x.entry record else s.modTask t (fun y => { y with record := record })
  entryEnded s (entryKey x.part x.entryIndex) t

theorem commitNow_eq (s : State) (t : Nat) :
    commitNow s t = commitClose t (s.task t) (commitRecord s t (regionFlags s (s.task t).groves)) (commitLaunch (s.task t) (commitEvents (s.task t) (tagCommitted s t))) := rfl

theorem commitEvents_outside (x : Task) (s : State) : OutsideFrame s (commitEvents x s) := by
  unfold commitEvents
  extract_lets w7 evs
  split
  · refine (OutsideFrame.of_modCtx (c := x.ctx) (f := fun c => { c with events := c.events ||| evs }) rfl).trans ?_
    exact .of_fields rfl rfl rfl rfl rfl
  · exact .refl s

/-- From one state to another a tag that is committed stays so, and no grove gets a task. -/
structure EndFrame (t : Nat) (s u : State) : Prop where
  tag : mget TagState.free s.tags t = .committed → mget TagState.free u.tags t = .committed
  freed : ∀ h, (s.grove h).task = none → (u.grove h).task = none

namespace EndFrame

theorem refl (t : Nat) (s : State) : EndFrame t s s := ⟨fun h => h, fun _ h => h⟩

theorem trans {t : Nat} {s u v : State} (h : EndFrame t s u) (h' : EndFrame t u v) : EndFrame t s v :=
  ⟨fun hs => h'.tag (h.tag hs), fun g hg => h'.freed g (h.freed g hg)⟩

theorem of_fields {t : Nat} {s u : State} (hl : u.tags = s.tags) (hg : u.groves = s.groves) : EndFrame t s u :=
  ⟨fun h => by rwa [hl], fun h hn => by rwa [State.grove, hg]⟩

theorem of_outside {s u : State} (t : Nat) (h : OutsideFrame s u) : EndFrame t s u := of_fields h.tags h.groves

theorem foldl {t : Nat} {α : Type} {f : State → α → State} (hf : ∀ s a, EndFrame t s (f s a)) (l : List α) (s : State) : EndFrame t s (l.foldl f s) := by
  induction l generalizing s with
  | nil => exact refl t s
  | cons a l ih => exact (hf s a).trans (ih (f s a))

end EndFrame

/-- Where a task has committed, another that vanishes leaves its tag so: the committed one is not live. -/
theorem vanishTask_end (t : Nat) (s : State) (v cause ucode : Nat) : EndFrame t s (vanishTask s v cause ucode) := by
  by_cases hv : isLive s v = true
  · have ho := vanishTask_outside hv cause ucode
    refine ⟨fun hc => ?_, fun h hh => ?_⟩
    · have hne : t ≠ v := by
        rintro rfl
        simp [isLive, hc] at hv
      rw [ho.tags, taskVanished_tag, if_neg hne, hc]
    · rw [ho.grove, taskVanished_freed s v hh]
  · rw [vanishTask_of_not_live (by simpa using hv)]
    exact .refl t s

theorem supersede_end (t : Nat) (s : State) (v : Nat) : EndFrame t s (supersede s v) := by
  unfold supersede
  split
  · exact vanishTask_end t s v _ _
  · exact .of_fields (State.modTask_tags s v _) (State.modTask_groves s v _)

/-- A start that is dropped: its banks are parked and it is counted. -/
theorem dropDue_end (t : Nat) (s : State) (d : Due) (e : Entry) : EndFrame t s (skipStart (parkFor s d) e) :=
  .of_outside t ((parkFor_outside s d).trans (skipStart_outside _ e))

theorem entryDue_end (t : Nat) (s : State) (k start : Nat) (pred : Option Nat) : EndFrame t s (entryDue s k start pred) := by
  unfold entryDue
  split
  · exact .refl t s
  next e _ =>
    extract_lets w0 due put becomes dropped s1
    have hput : ∀ (u : State) (f : Staged → Staged), EndFrame t u (put u f) := fun u f => .of_fields rfl rfl
    have hbecomes : ∀ u, EndFrame t u (becomes u) := fun u => hput u _
    split
    · exact hbecomes s
    split
    · split
      · exact dropDue_end t s _ _
      · exact hput s _
    · have h1 : EndFrame t s s1 := .trans (.foldl (fun u d => dropDue_end t u d _) dropped s) (hput _ _)
      refine .trans ?_ (hbecomes _)
      split
      · exact h1.trans (supersede_end t s1 _)
      · exact h1
    · exact dropDue_end t s _ _

theorem commitLaunch_end (t : Nat) (x : Task) (s : State) : EndFrame t s (commitLaunch x s) := by
  unfold commitLaunch
  split
  · split
    · exact .refl t s
    · exact entryDue_end t s _ _ _
  · exact .refl t s

theorem commitLaunch_none {x : Task} (h : successorKey x = none) (s : State) : commitLaunch x s = s := by
  rw [commitLaunch, h]

/-- Between two states groves, tags and reserves are the same, and each sector that read full still does; tasks may have changed. -/
structure StoreFrame (s u : State) : Prop where
  groves : u.groves = s.groves
  tags : u.tags = s.tags
  reserve : ∀ c, (u.ctx c).reserve = (s.ctx c).reserve
  full : ∀ n, sectorView s n = .full → sectorView u n = .full

theorem StoreFrame.trans {s u v : State} (h : StoreFrame s u) (h' : StoreFrame u v) : StoreFrame s v :=
  ⟨h'.groves.trans h.groves, h'.tags.trans h.tags, fun c => (h'.reserve c).trans (h.reserve c), fun n hn => h'.full n (h.full n hn)⟩

theorem OutsideFrame.store {s u : State} (h : OutsideFrame s u) : StoreFrame s u := ⟨h.groves, h.tags, h.reserve, h.full⟩

theorem modTask_store (s : State) (t : Nat) (f : Task → Task) : StoreFrame s (s.modTask t f) := by
  refine ⟨State.modTask_groves s t f, State.modTask_tags s t f, fun c => by rw [State.modTask_ctx], fun n hn => ?_⟩
  rw [sectorView_congr (State.modTask_sector s t f n) (State.modTask_tags s t f), hn]

theorem commitClose_store (t : Nat) (x : Task) (record : List Word) (s : State) : StoreFrame s (commitClose t x record s) := by
  unfold commitClose
  extract_lets s1 s2
  have h1 : StoreFrame s s1 := modTask_store s t _
  have h2 : StoreFrame s1 s2 := by
    simp only [s2]
    split
    · exact (logRecord_outside s1 _ _ _ _).store
    · exact modTask_store s1 t _
  exact (h1.trans h2).trans (entryEnded_outside s2 _ t).store

theorem commitClose_groves (t : Nat) (x : Task) (record : List Word) (s : State) : ((commitClose t x record s).task t).groves = [] := by
  unfold commitClose
  extract_lets s1 s2
  have h1 : (s1.task t).groves = [] := State.modTask_sets Task.groves rfl rfl
  have h2 : (s2.task t).groves = [] := by
    simp only [s2]
    split
    · rw [(logRecord_outside s1 _ _ _ _).task, h1]
    · exact (State.modTask_keeps Task.groves rfl t).trans h1
  rw [(entryEnded_outside s2 _ t).task, h2]

/-! ### What a commit comes to -/

theorem tagCommitted_freed (s : State) (t : Nat) {h : Nat} (hh : h ∈ (s.task t).groves) : ((tagCommitted s t).grove h).task = none := by
  rw [tagCommitted, commitTag_grove, unitsReleased_task t (s.task t) true _ hh]

/-- The units' release leaves voids, sectors and contexts as the settled meter has them. -/
theorem commitRelease_released (s : State) (t : Nat) : ReleaseFrame (settle s t)
    (unitsReleased t (s.task t) true ((heldBanks (settle s t) t).foldl (commitBank t (nextOwner (settle s t) (s.task t))) (settle s t))) :=
  (ReleaseFrame.foldl (commitBank_released t _) _ _).trans (unitsReleased_released t _ true _)

theorem tagCommitted_reserve {s : State} {t : Nat} (ht : mfind s.tasks t ≠ none) :
    ((tagCommitted s t).ctx (s.task t).ctx).reserve = addReserve (s.ctx (s.task t).ctx).reserve (balance s t / 16) := by
  rw [← settle_reserve ht, tagCommitted, commitTag_reserve]
  simp only [State.ctx, (commitRelease_released s t).ctxs]

theorem tagCommitted_full {s : State} {t n : Nat} (hv : mget [] s.voids t = []) (hst : (s.sector n).st = 2) (ht : (s.sector n).tag.toNat = t) :
    sectorView (tagCommitted s t) n = .full := by
  have hr := commitRelease_released s t
  obtain ⟨-, hvoids, hsectors, -⟩ := settle_keeps s t
  have hs : (unitsReleased t (s.task t) true ((heldBanks (settle s t) t).foldl (commitBank t (nextOwner (settle s t) (s.task t))) (settle s t))).sector n = s.sector n := by
    simp only [State.sector, hr.sectors, hsectors]
  refine commitTag_full ?_ (by rw [hs, hst]) (by rw [hs, ht])
  rw [hr.voids, hvoids, hv]

/-- A task that commits: its tag is committed, its groves are free. -/
theorem commitNow_ends (s : State) (t : Nat) :
    mget TagState.free (commitNow s t).tags t = .committed ∧ (∀ h ∈ (s.task t).groves, ((commitNow s t).grove h).task = none) ∧ ((commitNow s t).task t).groves = [] := by
  have he : EndFrame t (tagCommitted s t) (commitLaunch (s.task t) (commitEvents (s.task t) (tagCommitted s t))) :=
    (EndFrame.of_outside t (commitEvents_outside _ _)).trans (commitLaunch_end t _ _)
  rw [commitNow_eq]
  have hc := commitClose_store t (s.task t) (commitRecord s t (regionFlags s (s.task t).groves)) (commitLaunch (s.task t) (commitEvents (s.task t) (tagCommitted s t)))
  refine ⟨?_, fun h hh => ?_, commitClose_groves _ _ _ _⟩
  · rw [hc.tags, he.tag (commitTag_tag _ t)]
  · rw [State.grove, hc.groves]
    exact he.freed h (tagCommitted_freed s t hh)

/-- Where the task has no successor, its whole packets are in the reserve and its tentative sectors read full. -/
theorem commitNow_stores {s : State} {t : Nat} (hx : successorKey (s.task t) = none) : StoreFrame (tagCommitted s t) (commitNow s t) := by
  rw [commitNow_eq, commitLaunch_none hx]
  exact (commitEvents_outside _ _).store.trans (commitClose_store _ _ _ _)

theorem exec_commitTask (t : Nat) (s : State) : exec (.commitTask t) s = execCommitTask t s := rfl

/-- What commitTask leaves of a task that has ended: where a successor is staged afresh, that touches neither tags nor groves. -/
theorem exec_commitTask_ended {s : State} {t : Nat} (he : taskEnded s t = true) (hp : producersDone s t = true) :
    ∃ u, exec (.commitTask t) s = .next u ∧ OutsideFrame (commitNow s t) u ∧ (successorKey (s.task t) = none → u = commitNow s t) := by
  rw [exec_commitTask, execCommitTask, he, hp]
  simp only [Bool.and_self, if_true]
  split
  next k hk _ => exact ⟨_, rfl, restageDue_outside _ k, by simp [hk]⟩
  next => exact ⟨_, rfl, .refl _, fun _ => rfl⟩

theorem exec_commitTask_not_ended {s : State} {t : Nat} (h : taskEnded s t = false ∨ producersDone s t = false) : exec (.commitTask t) s = .next s := by
  have hc : (taskEnded s t && producersDone s t) = false := by
    rw [Bool.and_eq_false_iff]
    exact h
  rw [exec_commitTask, execCommitTask, hc]
  rfl

end Sys2Proof.Machine
end

section
/-! PROOFS. What a queued trap leaves alone, and the moves at the end of a task (O47): a vanish after a producer's, the handover of a bank, and the stalls (R63, R86, R198, R307). -/

namespace Sys2Proof.Machine
open Sys2Proof.Claims

/-! ### Quiet changes -/

theorem quiet_trans {s u v : State} (h : quiet s u) (h' : quiet u v) : quiet s v := by
  obtain ⟨hr, hp, ⟨hse, hsg⟩, hm, hw, hs, hi, hb⟩ := h
  obtain ⟨hr', hp', ⟨hse', hsg'⟩, hm', hw', hs', hi', hb'⟩ := h'
  refine ⟨fun w c hc _ => ?_, fun w => (hp' w).trans (hp w), ⟨fun e => ?_, fun g => (hsg' g).trans (hsg g)⟩,
    fun a => (hm' a).trans (hm a), hw'.trans hw, hs'.trans hs, hi'.trans hi, fun b => (hb' b).trans (hb b)⟩
  · exact (hr' w c hc (by simp)).trans (hr w c hc (by simp))
  · obtain ⟨h1, h2, h3⟩ := hse e
    obtain ⟨h1', h2', h3'⟩ := hse' e
    exact ⟨h1'.trans h1, h2'.trans h2, h3'.trans h3⟩

/-- A change of an element outside its plane and sticky registers is quiet. -/
theorem quiet_modElem {s : State} {e : Nat} {f : Elem → Elem} (ha : (f (s.elem e)).active = (s.elem e).active) (hs : (f (s.elem e)).sticky = (s.elem e).sticky)
    (hm : (f (s.elem e)).matrixSticky = (s.elem e).matrixSticky) (hc : (f (s.elem e)).convSticky = (s.elem e).convSticky) : quiet s (s.modElem e f) := by
  refine ⟨registersKept_modElem none (fun k => by rw [ha]) (by rw [ha]), predicatesKept_modElem (fun k => by rw [ha]), ⟨fun i => ?_, fun _ => rfl⟩, memoryKept_modElem s e f⟩
  rw [State.modElem_elem]
  split
  next hi => exact ⟨by rw [hs, hi], by rw [hm, hi], by rw [hc, hi]⟩
  next => exact ⟨rfl, rfl, rfl⟩

/-- A change of a grove outside its bank and sticky register is quiet. -/
theorem quiet_modGrove {s : State} {g : Nat} {f : Grove → Grove} (hb : (f (s.grove g)).bank = (s.grove g).bank) (hs : (f (s.grove g)).sticky = (s.grove g).sticky) :
    quiet s (s.modGrove g f) :=
  ⟨registersKept_modGrove none (by rw [hb]) (by rw [hb]), predicatesKept_modGrove (by rw [hb]), ⟨fun _ => ⟨rfl, rfl, rfl⟩, State.modGrove_keeps Grove.sticky hs⟩, memoryKept_modGrove s g f⟩

/-- Where elements, groves and memory are the same, nothing of the units has changed. -/
theorem quiet_of_fields {s u : State} (he : u.elems = s.elems) (hg : u.groves = s.groves) (hm : u.mem = s.mem) (hw : u.words = s.words) (hs : u.sectors = s.sectors)
    (hi : u.windows = s.windows) (hb : u.banks = s.banks) : quiet s u := by
  have helem : ∀ e, u.elem e = s.elem e := fun e => by rw [State.elem, State.elem, he]
  have hgrove : ∀ g, u.grove g = s.grove g := fun g => by rw [State.grove, State.grove, hg]
  refine ⟨registersKept_of none ?_ ?_ ?_, predicatesKept_of ?_ ?_, ⟨fun e => ?_, fun g => ?_⟩, memoryKept_of hm hw hs hi hb⟩
  all_goals simp [helem, hgrove]

theorem quiet_modTask (s : State) (t : Nat) (f : Task → Task) : quiet s (s.modTask t f) := by
  refine quiet_of_fields ?_ ?_ ?_ ?_ ?_ ?_ ?_ <;> simp

/-! ### A trap that finds room (R307, R309) -/

theorem stamp_cause_src (s : State) (g : Nat) (r : TrapRec) : (stamp s g r).cause = r.cause ∧ (stamp s g r).src = r.src := by
  unfold stamp
  split <;> exact ⟨rfl, rfl⟩

theorem queueTrap_trapped {s : State} {g : Nat} {r : TrapRec} (h : trapRoom s g) : trapped s (queueTrap s g r) g r.cause r.src := by
  refine ⟨stamp s g r, ?_, stamp_cause_src s g r⟩
  have h' : (s.grove g).traps.length < 16 ∧ (s.grove g).waitingTraps = [] := h
  rw [queueTrap, State.modGrove_grove, if_pos rfl, if_pos h']

theorem queueTrap_quiet (s : State) (g : Nat) (r : TrapRec) : quiet s (queueTrap s g r) := by
  refine quiet_modGrove ?_ ?_
  · split <;> rfl
  · split <;> rfl

theorem raise_below_monitor {s : State} {g : Nat} {r : TrapRec} (h : r.cause < 0x1C4) : raise s g r = queueTrap (stopUnit s r.unit) g r :=
  if_neg (Nat.not_le.2 h)

/-! ### Stalls (R63) -/

theorem exec_forkStall (e : Nat) (c : BitVec 6) (s : State) : exec (.forkStall e c) s = execForkStall e c s := rfl

/-- The state in which the fork's trap is raised: the counts of its late branches start afresh. -/
def forkRestarted (s : State) (e : Nat) (c : BitVec 6) (late : List (Option Side)) : State :=
  { s with branchSince := late.foldl (fun m b => merase m (queueKey e (.branch c b))) s.branchSince }

theorem forkRestarted_quiet (s : State) (e : Nat) (c : BitVec 6) (late : List (Option Side)) : quiet s (forkRestarted s e c late) :=
  quiet_of_fields rfl rfl rfl rfl rfl rfl rfl

theorem exec_forkStall_late {s : State} {e t : Nat} {c : BitVec 6} (ht : s.taskOfElem e = some t) (hd : (s.task t).dry = none) (hl : stalledBranches s e c (watchdog (s.task t)) ≠ [])
    (hf : (s.elem e).forkStops.contains c.toNat = false) :
    exec (.forkStall e c) s = .next (raiseFork (forkRestarted s e c (stalledBranches s e c (watchdog (s.task t)))) e c 0x143
      (BitVec.ofNat 64 ((fullBranches s e c).foldl (fun m b => m + branchBit b) 0))) := by
  rw [exec_forkStall, execForkStall, ht]
  simp only [hd, hf, List.isEmpty_eq_false_iff.2 hl]
  rfl

theorem exec_forkStall_not_late {s : State} {e t : Nat} {c : BitVec 6} (ht : s.taskOfElem e = some t)
    (h : stalledBranches s e c (watchdog (s.task t)) = [] ∨ (s.elem e).forkStops.contains c.toNat = true) : exec (.forkStall e c) s = .next s := by
  rw [exec_forkStall, execForkStall, ht]
  refine congrArg _ (if_pos ?_)
  obtain h | h := h
  · simp only [h, List.isEmpty_nil, Bool.or_true, Bool.true_or]
  · simp only [h, Bool.or_true]

/-- A fork stops on a cause, and nothing of the units or the fabric changes. -/
theorem raiseFork_stops {s : State} {e : Nat} {c : BitVec 6} {cause : Nat} (mask : Word) (hc : cause < 0x1C4) (hr : trapRoom s (groveOf e)) :
    trapped s (raiseFork s e c cause mask) (groveOf e) cause 4 ∧ ((raiseFork s e c cause mask).elem e).forkStops.contains c.toNat = true ∧
    quiet s (raiseFork s e c cause mask) ∧ (raiseFork s e c cause mask).fabric = s.fabric := by
  rw [raiseFork, raise_below_monitor hc]
  have hq : quiet s (stopUnit s (.fork e c)) := quiet_modElem rfl rfl rfl rfl
  refine ⟨queueTrap_trapped (s := stopUnit s (.fork e c)) hr, ?_, quiet_trans hq (queueTrap_quiet _ _ _), rfl⟩
  rw [queueTrap, State.modGrove_elem, stopUnit, State.modElem_elem, if_pos rfl]
  by_cases h : c.toNat ∈ (s.elem e).forkStops <;> simp [h]

theorem exec_progressStall (t : Nat) (s : State) : exec (.progressStall t) s = execProgressStall t s := rfl

/-- The record of a region in which nothing has advanced. -/
def stallRecord (s : State) (g : Nat) : TrapRec := { cause := 0x144, src := 5, eid := eidOf s (elemAt g 0) &&& 0x1FFFFFFFFF }

theorem exec_progressStall_late {s : State} {t g : Nat} {l : List Nat} (hg : (s.task t).groves = g :: l) (hl : isLive s t = true) (hd : (s.task t).dry = none)
    (hst : (s.task t).stalled = false) (hsg : (s.task t).starting = false) (h : (s.task t).progress + watchdog (s.task t) ≤ s.tb.toNat) :
    exec (.progressStall t) s = .next (raise (s.modTask t (fun y => { y with stalled := true })) g (stallRecord s g)) := by
  rw [exec_progressStall, execProgressStall, hg]
  simp only [hl, hd, hst, hsg, decide_eq_true h]
  rfl

theorem exec_progressStall_early {s : State} {t g : Nat} {l : List Nat} (hg : (s.task t).groves = g :: l) (h : s.tb.toNat < (s.task t).progress + watchdog (s.task t)) :
    exec (.progressStall t) s = .next s := by
  rw [exec_progressStall, execProgressStall, hg]
  refine congrArg _ (if_neg ?_)
  simp only [decide_eq_false (Nat.not_le.2 h), Bool.and_false, Bool.false_eq_true, not_false_eq_true]

theorem stall_traps {s : State} {t g : Nat} (ht : mfind s.tasks t ≠ none) (hr : trapRoom s g) :
    let u := raise (s.modTask t (fun y => { y with stalled := true })) g (stallRecord s g)
    trapped s u g 0x144 5 ∧ (u.task t).stalled = true ∧ quiet s u := by
  have hg := State.modTask_grove s t (fun y => { y with stalled := true }) g
  have hroom : trapRoom (s.modTask t (fun y => { y with stalled := true })) g := by rwa [trapRoom, hg]
  intro u
  have hu : u = queueTrap (s.modTask t (fun y => { y with stalled := true })) g (stallRecord s g) := raise_below_monitor (show 0x144 < 0x1C4 by decide)
  obtain ⟨x, hx, hc, hsrc⟩ := queueTrap_trapped (r := stallRecord s g) hroom
  rw [hu]
  refine ⟨⟨x, by rw [hx, hg], hc, hsrc⟩, ?_, quiet_trans (quiet_modTask s t _) (queueTrap_quiet _ _ _)⟩
  rw [queueTrap, State.modGrove_task, State.modTask_task_self ht]

/-! ### A dependent of a vanished task (M12, R198, R199) -/

/-- Fields of the first word of a record: its kind, its cause and the tag. -/
theorem recordHead_fields {kind cause lb n t : Nat} (hk : kind < 2 ^ 8) (hc : cause < 2 ^ 9) (hb : lb ≤ 1) (hn : n < 2 ^ 12) (ht : t < 2 ^ 14) :
    let w : Word := BitVec.ofNat 64 (kind * 2 ^ 56 + cause * 2 ^ 47 + lb * 2 ^ 46 + n * 2 ^ 32 + t)
    w.toNat / 2 ^ 56 = kind ∧ w.toNat / 2 ^ 47 % 2 ^ 9 = cause ∧ w.toNat % 2 ^ 14 = t := by
  simp only [BitVec.toNat_ofNat]
  omega

theorem shortfall_head {s : State} {t kind cause ucode n : Nat} (hk : kind < 2 ^ 8) (hc : cause < 2 ^ 9) (hn : n < 2 ^ 12) (ht : t < 2 ^ 14) :
    ((shortfall s t kind cause ucode n).headD 0).toNat / 2 ^ 56 = kind ∧ ((shortfall s t kind cause ucode n).headD 0).toNat / 2 ^ 47 % 2 ^ 9 = cause ∧
    ((shortfall s t kind cause ucode n).headD 0).toNat % 2 ^ 14 = t :=
  recordHead_fields hk hc (by split <;> omega) hn ht

theorem exec_vanish (t : Nat) (s : State) : exec (.vanish t) s = execVanish t s := rfl

theorem exec_vanish_dependent {s : State} {t p : Nat} (hl : isLive s t = true) (hp : p ∈ (s.task t).producers) (hv : mget TagState.free s.tags p = .vanished) :
    exec (.vanish t) s = .next (vanishTask s t 0x106 0) := by
  rw [exec_vanish, execVanish, if_pos]
  rw [hl, Bool.true_and, List.any_eq_true]
  exact ⟨p, hp, by simp [hv]⟩

/-! ### A bank that passes on (M13, R86) -/

theorem exec_bankHandover (e b : Nat) (s : State) : exec (.bankHandover e b) s = execBankHandover e b s := rfl

theorem exec_bankHandover_held {s : State} {e b t n : Nat} (ht : s.taskOfElem e = some t) (hr : handoverReady s e b t = true) (hl : isLive s t = true)
    (hn : nextOwner s (s.task t) = some (.held n)) (hp : (s.task n).producers.contains t = true ∨ ((s.task n).producers.filter (isLive s)).length < 8) :
    exec (.bankHandover e b) s = .next (addProducer (s.modBank (e * 6 + b) (fun _ => { owner := .held n })) n t) := by
  have hp' : ((s.task n).producers.contains t || decide (((s.task n).producers.filter (isLive s)).length < 8)) = true := by
    simpa only [Bool.or_eq_true, decide_eq_true_eq] using hp
  rw [exec_bankHandover, execBankHandover, ht]
  simp only [hr, hl, hn, hp', Bool.not_true, Bool.or_self, Bool.false_eq_true, if_false, if_true]

theorem addProducer_producers {s : State} {t : Nat} (ht : mfind s.tasks t ≠ none) (p : Nat) : p ∈ ((addProducer s t p).task t).producers := by
  rw [addProducer, State.modTask_task_self ht]
  by_cases h : p ∈ (s.task t).producers <;> simp [h]

/-- A bank passes to a task, which becomes a dependent; no other bank, register or byte changes. -/
theorem handover_passes {s : State} {b t n : Nat} (hn : mfind s.tasks n ≠ none) :
    let u := addProducer (s.modBank b (fun _ => { owner := .held n })) n t
    (u.bank b).owner = .held n ∧ t ∈ (u.task n).producers ∧ (∀ x, x ≠ b → u.bank x = s.bank x) ∧ u.mem = s.mem ∧ u.words = s.words ∧ registersKept s u none ∧ predicatesKept s u := by
  intro u
  have hb : ∀ x, u.bank x = if x = b then { owner := .held n } else s.bank x := fun x => by
    simp only [u, addProducer, State.modTask_bank, State.modBank_bank]
  have he : ∀ x, u.elem x = s.elem x := fun x => by simp only [u, addProducer, State.modTask_elem, State.modBank_elem]
  have hg : ∀ x, u.grove x = s.grove x := fun x => by simp only [u, addProducer, State.modTask_grove, State.modBank_grove]
  refine ⟨by rw [hb, if_pos rfl], addProducer_producers (s := s.modBank b (fun _ => { owner := .held n })) hn t, fun x hx => by rw [hb, if_neg hx], ?_, ?_, registersKept_of none ?_ ?_ ?_, predicatesKept_of ?_ ?_⟩
  · simp only [u, addProducer, State.modTask_mem, State.modBank_mem]
  · simp only [u, addProducer, State.modTask_words, State.modBank_words]
  all_goals simp [he, hg]

/-! ### The obligation -/

/-- Settles O47: each move by what it comes to, its commit, its vanish, its handover or its trap. -/
theorem taskEndMoves : Obligations.TaskEndMoves := by
  unfold Obligations.TaskEndMoves
  refine ⟨fun s t ht => ⟨fun he hp => ?_, exec_commitTask_not_ended⟩, fun s t p hl hp hv => ?_, fun s e b t n ht hr hl ho hn hp => ?_, fun s e t c ht hd => ⟨fun hl hf hroom => ?_, exec_forkStall_not_late ht⟩,
    fun s t g l hg hl hd hst hsg ht => ⟨fun hlate hroom => ?_, exec_progressStall_early hg⟩⟩
  · obtain ⟨u, hu, hout, hlast⟩ := exec_commitTask_ended he hp
    obtain ⟨htag, hfreed, hgroves⟩ := commitNow_ends s t
    refine ⟨u, hu, by rw [hout.tags, htag], fun h hh => by rw [hout.grove, hfreed h hh], by rw [hout.task, hgroves], fun hnone => ?_⟩
    obtain rfl := hlast hnone
    have hstore := commitNow_stores hnone
    refine ⟨fun hlt => ?_, fun hvoids n hst htn => hstore.full n (tagCommitted_full hvoids hst htn)⟩
    rw [hstore.reserve, tagCommitted_reserve ht, addReserve_of_lt hlt]
  · exact ⟨_, _, _, exec_vanish_dependent hl hp hv, hasVanished_vanishTask hl _ _, vanishTask_of_live hl _ _,
      fun hn htag => shortfall_head (by omega) (by omega) hn htag⟩
  · exact ⟨_, exec_bankHandover_held ht hr hl ho hp, handover_passes hn⟩
  · obtain ⟨htrap, hstop, hquiet, hfab⟩ := raiseFork_stops (s := forkRestarted s e c (stalledBranches s e c (watchdog (s.task t)))) (c := c) (cause := 0x143)
      (BitVec.ofNat 64 ((fullBranches s e c).foldl (fun m b => m + branchBit b) 0)) (by omega) hroom
    exact ⟨_, exec_forkStall_late ht hd hl hf, htrap, hstop, quiet_trans (forkRestarted_quiet s e c _) hquiet, hfab⟩
  · exact ⟨_, exec_progressStall_late hg hl hd hst hsg hlate, stall_traps ht hroom⟩

end Sys2Proof.Machine
end

section
/-! PROOFS. One rounding, exactly (R36, R40 to R43).

The finite magnitudes of a format are the values of a strictly increasing function `FpFormat.mag` of their encodings.
`fpRound_spec` says between which two encodings the exact value lies and which of them is taken; that it is one rounding (`fpRound_roundsTo`) and that a value of the format stays itself (`fpRound_exact`) follow from it. -/

namespace Sys2Proof.Machine
open Sys2Proof.Claims

/-! ### Powers of two and distances -/

theorem twoTo_eq (e : Int) : twoTo e = (2 : Rat) ^ e := by
  unfold twoTo
  split
  next h => rw [Nat.cast_pow, ← zpow_natCast, Int.toNat_of_nonneg h, Nat.cast_ofNat]
  next h => rw [Nat.cast_pow, ← zpow_natCast, Int.toNat_of_nonneg (by omega), Nat.cast_ofNat, zpow_neg, one_div, inv_inv]

theorem apart_eq (x y : Rat) : apart x y = |x - y| := by
  unfold apart
  split
  next h => rw [abs_of_nonpos (by linarith), neg_sub]
  next h => rw [abs_of_pos (by linarith)]

theorem two_zpow_pos (e : Int) : (0 : Rat) < 2 ^ e := zpow_pos (by norm_num) e

/-- A power of two as the quotient of the natural powers that a shift by it uses. -/
theorem two_zpow_toNat (e : Int) : (2 : Rat) ^ e = 2 ^ e.toNat / 2 ^ (-e).toNat := by
  rw [← zpow_natCast, ← zpow_natCast, ← zpow_sub₀ two_ne_zero]
  congr 1
  omega

/-! ### Magnitudes of encodings -/

/-- The magnitude of encoding k of a format whose exponents went on without end (R36). -/
def FpFormat.mag (f : FpFormat) (k : Nat) : Rat :=
  if k < 2 ^ f.manBits then k * 2 ^ f.quantum else (2 ^ f.manBits + k % 2 ^ f.manBits : Nat) * 2 ^ (f.quantum + (k / 2 ^ f.manBits - 1 : Nat))

/-- A significand, the implicit bit with it, in the binade j above the subnormal numbers; its end is the next binade's beginning. -/
theorem FpFormat.mag_binade (f : FpFormat) {j k : Nat} (hk : k ≤ 2 ^ (f.manBits + 1)) (hj : j = 0 ∨ 2 ^ f.manBits ≤ k) :
    f.mag (j * 2 ^ f.manBits + k) = k * 2 ^ (f.quantum + j) := by
  have hp : 0 < 2 ^ f.manBits := by positivity
  rw [pow_succ] at hk
  unfold FpFormat.mag
  by_cases hlow : k < 2 ^ f.manBits
  · obtain rfl : j = 0 := by omega
    simp [hlow]
  · rw [if_neg (by nlinarith)]
    obtain rfl | hlt := eq_or_lt_of_le hk
    · rw [show j * 2 ^ f.manBits + 2 ^ f.manBits * 2 = (j + 2) * 2 ^ f.manBits by ring, Nat.mul_mod_left, Nat.mul_div_cancel _ hp,
        show (f.quantum + ((j + 2 - 1 : Nat) : Int)) = f.quantum + j + 1 by push_cast [show j + 2 - 1 = j + 1 by omega]; ring,
        zpow_add_one₀ two_ne_zero]
      push_cast
      ring
    · obtain ⟨i, rfl⟩ : ∃ i, k = 2 ^ f.manBits + i := ⟨k - 2 ^ f.manBits, by omega⟩
      rw [show j * 2 ^ f.manBits + (2 ^ f.manBits + i) = i + 2 ^ f.manBits * (j + 1) by ring, Nat.add_mul_mod_self_left, Nat.add_mul_div_left _ _ hp,
        Nat.mod_eq_of_lt (by omega), Nat.div_eq_of_lt (by omega), Nat.zero_add, Nat.add_sub_cancel]

/-- Every encoding is a significand in a binade. -/
theorem FpFormat.exists_binade (f : FpFormat) (n : Nat) : ∃ j k, n = j * 2 ^ f.manBits + k ∧ k < 2 ^ (f.manBits + 1) ∧ (j = 0 ∨ 2 ^ f.manBits ≤ k) := by
  have hp : 0 < 2 ^ f.manBits := by positivity
  have hm := Nat.mod_lt n hp
  have hd := Nat.div_add_mod n (2 ^ f.manBits)
  rw [pow_succ]
  by_cases h : n < 2 ^ f.manBits
  · exact ⟨0, n, by simp, by omega, .inl rfl⟩
  · obtain ⟨j, hj⟩ : ∃ j, n / 2 ^ f.manBits = j + 1 := ⟨n / 2 ^ f.manBits - 1, by have := Nat.div_pos (not_lt.1 h) hp; omega⟩
    rw [hj] at hd
    exact ⟨j, 2 ^ f.manBits + n % 2 ^ f.manBits, by linarith, by omega, .inr (by omega)⟩

theorem FpFormat.mag_strictMono (f : FpFormat) : StrictMono f.mag := by
  refine strictMono_nat_of_lt_succ fun n => ?_
  obtain ⟨j, k, rfl, hk, hj⟩ := f.exists_binade n
  rw [add_assoc, f.mag_binade hk.le hj, f.mag_binade hk (by omega), mul_lt_mul_iff_left₀ (two_zpow_pos _)]
  exact_mod_cast Nat.lt_succ_self k

@[simp] theorem FpFormat.mag_zero (f : FpFormat) : f.mag 0 = 0 := by
  simp [FpFormat.mag]

theorem FpFormat.mag_nonneg (f : FpFormat) (k : Nat) : 0 ≤ f.mag k := by
  rw [← f.mag_zero]
  exact f.mag_strictMono.monotone (Nat.zero_le k)

/-- The smallest normal number (R36). -/
theorem FpFormat.mag_normal (f : FpFormat) : f.mag (2 ^ f.manBits) = 2 ^ (1 - (f.bias : Int)) := by
  have h := f.mag_binade (j := 0) (k := 2 ^ f.manBits) (Nat.pow_le_pow_right two_pos (Nat.le_succ _)) (.inl rfl)
  rw [Nat.zero_mul, Nat.zero_add] at h
  rw [h, Nat.cast_pow, Nat.cast_ofNat, ← zpow_natCast, ← zpow_add₀ two_ne_zero]
  congr 1
  simp only [FpFormat.quantum]
  omega

/-! ### Shifted quotients -/

/-- A quotient lies in the binade of its exponent. -/
theorem log2Ratio_spec {n d : Nat} (hn : n ≠ 0) (hd : d ≠ 0) :
    (2 : Rat) ^ log2Ratio n d ≤ n / d ∧ (n : Rat) / d < 2 ^ (log2Ratio n d + 1) := by
  have hd0 : (0 : Rat) < d := by exact_mod_cast Nat.pos_of_ne_zero hd
  have hnl : (2 : Rat) ^ (n.log2 : Int) ≤ n := by rw [zpow_natCast]; exact_mod_cast Nat.log2_self_le hn
  have hnu : (n : Rat) < 2 ^ ((n.log2 : Int) + 1) := by
    rw [show ((n.log2 : Int) + 1) = ((n.log2 + 1 : Nat) : Int) by push_cast; rfl, zpow_natCast]; exact_mod_cast Nat.lt_log2_self
  have hdl : (2 : Rat) ^ (d.log2 : Int) ≤ d := by rw [zpow_natCast]; exact_mod_cast Nat.log2_self_le hd
  have hdu : (d : Rat) < 2 ^ ((d.log2 : Int) + 1) := by
    rw [show ((d.log2 : Int) + 1) = ((d.log2 + 1 : Nat) : Int) by push_cast; rfl, zpow_natCast]; exact_mod_cast Nat.lt_log2_self
  set l : Int := (n.log2 : Int) - d.log2 with hl
  have hcond : (d * 2 ^ l.toNat ≤ n * 2 ^ (-l).toNat) ↔ (2 : Rat) ^ l ≤ n / d := by
    rw [two_zpow_toNat, div_le_div_iff₀ (by positivity) hd0, mul_comm ((2 : Rat) ^ l.toNat)]
    exact_mod_cast Iff.rfl
  have hhigh : (n : Rat) / d < 2 ^ (l + 1) := by
    rw [div_lt_iff₀ hd0]
    calc (n : Rat) < 2 ^ ((n.log2 : Int) + 1) := hnu
      _ = 2 ^ (l + 1) * 2 ^ (d.log2 : Int) := by rw [← zpow_add₀ two_ne_zero]; congr 1; omega
      _ ≤ 2 ^ (l + 1) * d := mul_le_mul_of_nonneg_left hdl (two_zpow_pos _).le
  have hlow : (2 : Rat) ^ (l - 1) ≤ n / d := by
    rw [le_div_iff₀ hd0]
    calc (2 : Rat) ^ (l - 1) * d ≤ 2 ^ (l - 1) * 2 ^ ((d.log2 : Int) + 1) := mul_le_mul_of_nonneg_left hdu.le (two_zpow_pos _).le
      _ = 2 ^ (n.log2 : Int) := by rw [← zpow_add₀ two_ne_zero]; congr 1; omega
      _ ≤ n := hnl
  rw [show log2Ratio n d = if d * 2 ^ l.toNat ≤ n * 2 ^ (-l).toNat then l else l - 1 from rfl]
  split
  next h => exact ⟨hcond.1 h, hhigh⟩
  next h => exact ⟨hlow, by rw [sub_add_cancel]; exact lt_of_not_ge (fun h' => h (hcond.2 h'))⟩

/-- A shifted quotient is its whole part and its remainder. -/
theorem scaledDiv_spec (n : Nat) {d : Nat} (hd : d ≠ 0) (s : Int) :
    0 < (scaledDiv n d s).2.2 ∧ (scaledDiv n d s).2.1 < (scaledDiv n d s).2.2 ∧
      (n : Rat) / d * 2 ^ s = (scaledDiv n d s).1 + ((scaledDiv n d s).2.1 : Rat) / (scaledDiv n d s).2.2 := by
  have hden : 0 < d * 2 ^ (-s).toNat := Nat.mul_pos (Nat.pos_of_ne_zero hd) (by positivity)
  refine ⟨hden, Nat.mod_lt _ hden, ?_⟩
  have hcast : ((d * 2 ^ (-s).toNat : Nat) : Rat) ≠ 0 := by exact_mod_cast hden.ne'
  have hdiv : ((n * 2 ^ s.toNat : Nat) : Rat) = (d * 2 ^ (-s).toNat : Nat) * (n * 2 ^ s.toNat / (d * 2 ^ (-s).toNat) : Nat) + (n * 2 ^ s.toNat % (d * 2 ^ (-s).toNat) : Nat) := by
    exact_mod_cast (Nat.div_add_mod (n * 2 ^ s.toNat) (d * 2 ^ (-s).toNat)).symm
  calc (n : Rat) / d * 2 ^ s = ((n * 2 ^ s.toNat : Nat) : Rat) / (d * 2 ^ (-s).toNat : Nat) := by
        rw [two_zpow_toNat]
        push_cast
        rw [div_mul_div_comm]
    _ = _ := by
        rw [hdiv]
        simp only [scaledDiv]
        rw [add_div, mul_div_cancel_left₀ _ hcast]

/-! ### What fpRound does -/

/-- The encoding that a rounding takes of k and k + 1, the value lying the fraction rem/den above k. -/
def takenEncoding (r : Rounding) (neg : Bool) (k rem den : Nat) : Nat := if roundsUp r.mode r.draw neg (k % 2 == 1) rem den then k + 1 else k

/-- The flags of a result that does not overflow (R43). -/
def roundFlags (inexact tiny : Bool) : Flags := (if inexact then Flag.ix else 0) ||| (if tiny && inexact then Flag.uf else 0)

/-- Such a result raises inexact and underflow alone, and inexact where it is. -/
theorem roundFlags_spec : ∀ inexact tiny, roundFlags inexact tiny &&& 35 = 0 ∧ (roundFlags inexact tiny).getLsbD 2 = false ∧ (roundFlags inexact tiny).getLsbD 4 = inexact := by
  decide

/-- The result and flags of a rounding from the place of the exact value between the encodings k and k + 1. -/
def roundEncoding (f : FpFormat) (r : Rounding) (neg : Bool) (k rem den : Nat) (tiny : Bool) : Nat × Flags :=
  if takenEncoding r neg k rem den > f.maxFinite then overflowed f r neg
  else if r.flush && decide (takenEncoding r neg k rem den < 2 ^ f.manBits) then (if neg then f.signBit else 0, Flag.uf ||| Flag.ix)
  else ((if neg then f.signBit else 0) + takenEncoding r neg k rem den, roundFlags (rem != 0) tiny)

/-- The exact value lies between two neighbouring encodings, and fpRound takes one of them; a value under half the smallest normal number is tiny (R43). -/
theorem fpRound_spec {f : FpFormat} (hM : 1 ≤ f.manBits) (r : Rounding) (neg : Bool) {n d : Nat} (hn : n ≠ 0) (hd : d ≠ 0) (e : Int) :
    ∃ (k rem den : Nat) (tiny : Bool), rem < den ∧ (n : Rat) / d * 2 ^ e = f.mag k + rem / den * (f.mag (k + 1) - f.mag k) ∧
      (2 * ((n : Rat) / d * 2 ^ e) < 2 ^ (f.quantum + f.manBits) → tiny = true) ∧ fpRound f r neg n d e = roundEncoding f r neg k rem den tiny := by
  set ex := log2Ratio n d + e with hex
  set q := max (ex - f.manBits) f.quantum with hq
  obtain ⟨hlow, hhigh⟩ := log2Ratio_spec hn hd
  obtain ⟨hden, hrem, hval⟩ := scaledDiv_spec n hd (e - q)
  rcases hs : scaledDiv n d (e - q) with ⟨k, rem, den⟩
  rcases hu : scaledDiv n d (e - (ex - f.manBits)) with ⟨ku, ru, du⟩
  rw [hs] at hden hrem hval
  dsimp only at hden hrem hval
  obtain ⟨j, hj⟩ : ∃ j : Nat, q = f.quantum + j := ⟨(q - f.quantum).toNat, by omega⟩
  have hfrac : (rem : Rat) / den < 1 := (div_lt_one (by exact_mod_cast hden)).2 (by exact_mod_cast hrem)
  have hfrac0 : (0 : Rat) ≤ rem / den := by positivity
  have hk : k < 2 ^ (f.manBits + 1) := by
    have : (k : Rat) < 2 ^ (f.manBits + 1) := by
      calc (k : Rat) ≤ n / d * 2 ^ (e - q) := by linarith
        _ < 2 ^ (log2Ratio n d + 1) * 2 ^ (e - q) := mul_lt_mul_of_pos_right hhigh (two_zpow_pos _)
        _ = 2 ^ (log2Ratio n d + 1 + (e - q)) := (zpow_add₀ two_ne_zero _ _).symm
        _ ≤ 2 ^ ((f.manBits + 1 : Nat) : Int) := zpow_le_zpow_right₀ one_le_two (by push_cast; omega)
        _ = 2 ^ (f.manBits + 1) := zpow_natCast _ _
    exact_mod_cast this
  have hnormal : j = 0 ∨ 2 ^ f.manBits ≤ k := by
    refine or_iff_not_imp_left.2 fun hj0 => ?_
    have : (2 : Rat) ^ f.manBits < k + 1 := by
      calc (2 : Rat) ^ f.manBits = 2 ^ (f.manBits : Int) := (zpow_natCast _ _).symm
        _ = 2 ^ (log2Ratio n d + (e - q)) := by congr 1; omega
        _ = 2 ^ log2Ratio n d * 2 ^ (e - q) := zpow_add₀ two_ne_zero _ _
        _ ≤ n / d * 2 ^ (e - q) := mul_le_mul_of_nonneg_right hlow (two_zpow_pos _).le
        _ < k + 1 := by linarith
    exact Nat.lt_succ_iff.1 (by exact_mod_cast this)
  have hodd : (j * 2 ^ f.manBits + k) % 2 = k % 2 := by
    obtain ⟨m, hm⟩ : ∃ m, f.manBits = m + 1 := ⟨f.manBits - 1, by omega⟩
    rw [hm, pow_succ, ← mul_assoc, Nat.mul_add_mod_self_right]
  refine ⟨j * 2 ^ f.manBits + k, rem, den, ex < f.quantum + f.manBits && !(ex == f.quantum + f.manBits - 1 &&
    decide ((if roundsUp r.mode r.draw neg (ku % 2 == 1) ru du then ku + 1 else ku) ≥ 2 ^ (f.manBits + 1))), hrem, ?_, fun htiny => ?_, ?_⟩
  · rw [add_assoc, f.mag_binade hk.le hnormal, f.mag_binade hk (by omega), ← hj]
    calc (n : Rat) / d * 2 ^ e = n / d * 2 ^ (e - q) * 2 ^ q := by rw [mul_assoc, ← zpow_add₀ two_ne_zero, sub_add_cancel]
      _ = _ := by rw [hval]; push_cast; ring
  · have hexp : (2 : Rat) ^ (ex + 1) < 2 ^ (f.quantum + f.manBits) := by
      calc (2 : Rat) ^ (ex + 1) = 2 * (2 ^ log2Ratio n d * 2 ^ e) := by rw [zpow_add_one₀ two_ne_zero, hex, zpow_add₀ two_ne_zero, mul_comm]
        _ ≤ 2 * (n / d * 2 ^ e) := mul_le_mul_of_nonneg_left (mul_le_mul_of_nonneg_right hlow (two_zpow_pos e).le) two_pos.le
        _ < _ := htiny
    have := (zpow_lt_zpow_iff_right₀ one_lt_two).1 hexp
    have hne : (ex == f.quantum + f.manBits - 1) = false := beq_eq_false_iff_ne.2 (by omega)
    rw [hne, Bool.false_and, Bool.not_false, Bool.and_true, decide_eq_true_eq]
    omega
  · have htaken : (q - f.quantum).toNat * 2 ^ f.manBits + (if roundsUp r.mode r.draw neg (k % 2 == 1) rem den then k + 1 else k) =
        takenEncoding r neg (j * 2 ^ f.manBits + k) rem den := by
      rw [takenEncoding, hodd, show (q - f.quantum).toNat = j by omega]
      split <;> rfl
    simp only [fpRound, if_neg hn, ← hex, ← hq, hs, hu, htaken]
    rfl

/-! ### The reals of a format's encodings -/

/-- A format with a top exponent field of at least one bit and a fraction of at least one (R36). -/
structure FpFormat.Proper (f : FpFormat) : Prop where
  exp : 1 ≤ f.expBits
  man : 1 ≤ f.manBits

/-- A magnitude with a sign. -/
def signedBy (neg : Bool) (x : Rat) : Rat := if neg then -x else x

@[simp] theorem signedBy_true (x : Rat) : signedBy true x = -x := rfl

@[simp] theorem signedBy_false (x : Rat) : signedBy false x = x := rfl

@[simp] theorem signedBy_zero (neg : Bool) : signedBy neg 0 = 0 := by
  cases neg <;> simp

@[simp] theorem abs_signedBy (neg : Bool) (x : Rat) : |signedBy neg x| = |x| := by
  cases neg <;> simp

theorem FpFormat.inf_lt_signBit (f : FpFormat) : f.inf < f.signBit := by
  unfold FpFormat.inf FpFormat.signBit
  rw [pow_add]
  exact (Nat.mul_lt_mul_right (by positivity)).2 (Nat.sub_lt (by positivity) one_pos)

theorem FpFormat.Proper.inf_pos {f : FpFormat} (hf : f.Proper) : 0 < f.inf := by
  have : 1 < 2 ^ f.expBits := Nat.one_lt_two_pow (by have := hf.exp; omega)
  exact Nat.mul_pos (by omega) (by positivity)

theorem FpFormat.Proper.signBit_even {f : FpFormat} (hf : f.Proper) : f.signBit % 2 = 0 := by
  obtain ⟨m, hm⟩ : ∃ m, f.manBits = m + 1 := ⟨f.manBits - 1, by have := hf.man; omega⟩
  rw [FpFormat.signBit, hm, ← add_assoc, pow_succ, Nat.mul_mod_left]

theorem FpFormat.signBit_pos (f : FpFormat) : 0 < f.signBit := by
  unfold FpFormat.signBit
  positivity

theorem FpFormat.two_signBit (f : FpFormat) : 2 ^ f.width = 2 * f.signBit := by
  rw [FpFormat.width, FpFormat.signBit, add_assoc, pow_add, pow_one]

/-- The finite encodings are those up to the largest one. -/
theorem FpFormat.Proper.maxFinite_lt {f : FpFormat} (hf : f.Proper) : f.maxFinite < f.signBit := by
  have hi := f.inf_lt_signBit
  have hp := hf.inf_pos
  unfold FpFormat.maxFinite
  rw [← FpFormat.inf]
  split <;> omega

/-- What an encoding stands for, by its magnitude (R36, R43). -/
theorem realOf_eq {f : FpFormat} (hf : f.Proper) (flush : Bool) (x : Nat) :
    realOf f flush x = if x % f.signBit ≤ f.maxFinite then
      some (signedBy (x / f.signBit % 2 == 1) (if flush && decide (x % f.signBit < 2 ^ f.manBits) then 0 else f.mag (x % f.signBit))) else none := by
  have hinf := hf.inf_pos
  have hsb : 1 < f.signBit := lt_of_le_of_lt hinf f.inf_lt_signBit
  have hlt := Nat.mod_lt x f.signBit_pos
  set k := x % f.signBit with hk
  have hman : x % 2 ^ f.manBits = k % 2 ^ f.manBits := by
    rw [hk, FpFormat.signBit, pow_add, Nat.mod_mod_of_dvd _ (Nat.dvd_mul_left _ _)]
  have hmax : f.maxFinite = match f.specials with | .ieee => f.inf - 1 | .oneNan => f.signBit - 2 | .none => f.signBit - 1 := rfl
  have hmag : (if k / 2 ^ f.manBits = 0 then (if flush then 0 else ((k % 2 ^ f.manBits : Nat) : Rat) * twoTo (1 - (f.bias : Int) - f.manBits))
      else ((2 ^ f.manBits + k % 2 ^ f.manBits : Nat) : Rat) * twoTo ((k / 2 ^ f.manBits : Nat) - (f.bias : Int) - f.manBits)) =
      if flush && decide (k < 2 ^ f.manBits) then 0 else f.mag k := by
    unfold FpFormat.mag
    have hp : 0 < 2 ^ f.manBits := by positivity
    by_cases hlow : k < 2 ^ f.manBits
    · rw [if_pos (Nat.div_eq_of_lt hlow), if_pos hlow, Nat.mod_eq_of_lt hlow, twoTo_eq]
      cases flush <;> simp [hlow, FpFormat.quantum]
    · have hpos := Nat.div_pos (not_lt.1 hlow) hp
      rw [if_neg hpos.ne', if_neg hlow, if_neg (by simp [hlow]), twoTo_eq]
      congr 2
      simp only [FpFormat.quantum]
      omega
  simp only [realOf, ← hk, hman, hmag, signedBy, beq_iff_eq]
  cases hsp : f.specials <;> simp only [hmax, hsp, decide_eq_true_eq, if_true]
  · exact if_congr (by omega) rfl rfl
  · exact if_congr (by omega) rfl rfl
  · rw [if_pos (show k ≤ f.signBit - 1 by omega)]

theorem signed_mod {f : FpFormat} (neg : Bool) {k : Nat} (hk : k < f.signBit) : ((if neg then f.signBit else 0) + k) % f.signBit = k := by
  cases neg <;> simp [Nat.mod_eq_of_lt hk]

theorem signed_div {f : FpFormat} (neg : Bool) {k : Nat} (hk : k < f.signBit) : ((if neg then f.signBit else 0) + k) / f.signBit = if neg then 1 else 0 := by
  cases neg <;> simp [Nat.add_div_left, f.signBit_pos, Nat.div_eq_of_lt hk]

/-- The real of a signed finite encoding. -/
theorem realOf_signed {f : FpFormat} (hf : f.Proper) (neg : Bool) {k : Nat} (hk : k ≤ f.maxFinite) :
    realOf f false ((if neg then f.signBit else 0) + k) = some (signedBy neg (f.mag k)) := by
  have hlt := lt_of_le_of_lt hk hf.maxFinite_lt
  rw [realOf_eq hf, signed_mod neg hlt, signed_div neg hlt, if_pos hk]
  cases neg <;> simp

/-- The magnitude of a real of a format is that of a finite encoding. -/
theorem abs_of_realOf {f : FpFormat} (hf : f.Proper) {z : Nat} {w : Rat} (h : realOf f false z = some w) : ∃ m ≤ f.maxFinite, |w| = f.mag m := by
  rw [realOf_eq hf] at h
  split at h
  next hk =>
    obtain rfl := Option.some.inj h
    exact ⟨_, hk, by simp [abs_of_nonneg (f.mag_nonneg _)]⟩
  next => exact absurd h (by simp)

/-! ### Neighbours -/

/-- Is v the greatest real of a format at or below x? -/
def IsFloorOf (f : FpFormat) (x v : Rat) : Prop := v ≤ x ∧ ∀ z w, realOf f false z = some w → w ≤ x → w ≤ v

/-- Is v the least real of a format at or above x? -/
def IsCeilOf (f : FpFormat) (x v : Rat) : Prop := x ≤ v ∧ ∀ z w, realOf f false z = some w → x ≤ w → v ≤ w

/-- Is v, with an encoding y, nearest to x among the reals of a format, even on a tie? -/
def IsNearestOf (f : FpFormat) (x v : Rat) (y : Nat) : Prop :=
  ∀ z w, realOf f false z = some w → |v - x| ≤ |w - x| ∧ (|w - x| = |v - x| → w = v ∨ y % 2 = 0)

theorem neighbourOf_nearest {f : FpFormat} {x v : Rat} {y : Nat} (hv : realOf f false y = some v) (h : IsNearestOf f x v y) : neighbourOf f 0 x y :=
  ⟨v, hv, fun z w hw => by rw [apart_eq, apart_eq]; exact h z w hw⟩

theorem neighbourOf_towardZero {f : FpFormat} {x v : Rat} {y : Nat} (hv : realOf f false y = some v) (hneg : x < 0 → IsCeilOf f x v) (hpos : ¬ x < 0 → IsFloorOf f x v) :
    neighbourOf f 1 x y := by
  have h : if x < 0 then IsCeilOf f x v else IsFloorOf f x v := by
    split
    next hx => exact hneg hx
    next hx => exact hpos hx
  exact ⟨v, hv, h⟩

/-- A real of a format is its own neighbour, by every mode. -/
theorem neighbourOf_self {f : FpFormat} {x : Rat} {y : Nat} (mode : Nat) (h : realOf f false y = some x) : neighbourOf f mode x y := by
  have hfl : IsFloorOf f x x := ⟨le_rfl, fun _ _ _ h => h⟩
  have hce : IsCeilOf f x x := ⟨le_rfl, fun _ _ _ h => h⟩
  match mode with
  | 0 => exact neighbourOf_nearest h fun z w _ => ⟨by simp, fun hw => .inl (sub_eq_zero.1 (by simpa using hw))⟩
  | 1 => exact neighbourOf_towardZero h (fun _ => hce) fun _ => hfl
  | 2 => exact ⟨x, h, hfl⟩
  | 3 => exact ⟨x, h, hce⟩
  | n + 4 => exact ⟨x, h, .inl hfl⟩

/-- A real of a format that is at most x lies at or below the encoding under x. -/
theorem le_mag_of_le {f : FpFormat} {w x : Rat} {m k : Nat} (hw : |w| = f.mag m) (hx : x < f.mag (k + 1)) (h : w ≤ x) : w ≤ f.mag k := by
  obtain hneg | hpos := le_total w 0
  · exact hneg.trans (f.mag_nonneg k)
  · rw [abs_of_nonneg hpos] at hw
    rw [hw] at h ⊢
    exact f.mag_strictMono.monotone (Nat.lt_succ_iff.1 (f.mag_strictMono.lt_iff_lt.1 (h.trans_lt hx)))

/-- A real of a format that is at least x lies at or above the encoding over x. -/
theorem mag_le_of_le {f : FpFormat} {w x : Rat} {m k : Nat} (hw : |w| = f.mag m) (hx : f.mag k < x) (h : x ≤ w) : f.mag (k + 1) ≤ w := by
  rw [abs_of_nonneg ((f.mag_nonneg k).trans (hx.le.trans h))] at hw
  rw [hw] at h ⊢
  exact f.mag_strictMono.monotone (f.mag_strictMono.lt_iff_lt.1 (hx.trans_le h))

section
variable {f : FpFormat} (hf : f.Proper) {x : Rat} {k : Nat} (hlo : f.mag k < x) (hhi : x < f.mag (k + 1))
include hf hlo hhi

/-- The encoding nearer to zero of a positive value and the one farther from zero of a negative value are the next below. -/
theorem isFloorOf_between (neg : Bool) : IsFloorOf f (signedBy neg x) (signedBy neg (f.mag (if neg then k + 1 else k))) := by
  cases neg
  · exact ⟨hlo.le, fun z w hw h => (abs_of_realOf hf hw).elim fun m hm => le_mag_of_le hm.2 hhi h⟩
  · refine ⟨neg_le_neg hhi.le, fun z w hw h => ?_⟩
    obtain ⟨m, -, hm⟩ := abs_of_realOf hf hw
    exact le_neg.1 (mag_le_of_le (by rw [abs_neg, hm]) hlo (le_neg.1 h))

theorem isCeilOf_between (neg : Bool) : IsCeilOf f (signedBy neg x) (signedBy neg (f.mag (if neg then k else k + 1))) := by
  cases neg
  · exact ⟨hhi.le, fun z w hw h => (abs_of_realOf hf hw).elim fun m hm => mag_le_of_le hm.2 hlo h⟩
  · refine ⟨neg_le_neg hlo.le, fun z w hw h => ?_⟩
    obtain ⟨m, -, hm⟩ := abs_of_realOf hf hw
    exact neg_le.1 (le_mag_of_le (by rw [abs_neg, hm]) hhi (neg_le.1 h))

/-- The nearer of the two encodings around a value is nearest, where it is taken on a tie only if it is even. -/
theorem isNearestOf_between (neg up : Bool) {y : Nat} (hy : y % 2 = (if up then k + 1 else k) % 2)
    (hup : up = true → f.mag (k + 1) - x < x - f.mag k ∨ f.mag (k + 1) - x = x - f.mag k ∧ k % 2 = 1)
    (hdown : up = false → x - f.mag k < f.mag (k + 1) - x ∨ x - f.mag k = f.mag (k + 1) - x ∧ k % 2 = 0) :
    IsNearestOf f (signedBy neg x) (signedBy neg (f.mag (if up then k + 1 else k))) y := by
  have key : ∀ w m, |w| = f.mag m → |f.mag (if up then k + 1 else k) - x| ≤ |w - x| ∧
      (|w - x| = |f.mag (if up then k + 1 else k) - x| → w = f.mag (if up then k + 1 else k) ∨ y % 2 = 0) := by
    intro w m hw
    rw [hy]
    have hw' : w ≤ f.mag k ∨ f.mag (k + 1) ≤ w := (le_total w x).imp (le_mag_of_le hw hhi) (mag_le_of_le hw hlo)
    cases up
    · rw [if_neg Bool.false_ne_true, abs_of_neg (show f.mag k - x < 0 by linarith)]
      obtain hw' | hw' := hw'
      · rw [abs_of_neg (by linarith)]
        exact ⟨by linarith, fun h => .inl (by linarith)⟩
      · rw [abs_of_pos (by linarith)]
        obtain hlt | ⟨heq, heven⟩ := hdown rfl
        · exact ⟨by linarith, fun h => absurd h (by linarith)⟩
        · exact ⟨by linarith, fun _ => .inr heven⟩
    · rw [if_pos rfl, abs_of_pos (show 0 < f.mag (k + 1) - x by linarith)]
      obtain hw' | hw' := hw'
      · rw [abs_of_neg (by linarith)]
        obtain hlt | ⟨heq, hodd⟩ := hup rfl
        · exact ⟨by linarith, fun h => absurd h (by linarith)⟩
        · exact ⟨by linarith, fun _ => .inr (by omega)⟩
      · rw [abs_of_pos (by linarith)]
        exact ⟨by linarith, fun h => .inl (by linarith)⟩
  intro z w hw
  obtain ⟨m, -, hm⟩ := abs_of_realOf hf hw
  cases neg
  · exact key w m hm
  · have h := key (-w) m (by rw [abs_neg, hm])
    rw [show -w - x = -(w - -x) by ring, abs_neg, ← abs_neg (f.mag _ - x), show ∀ v, -(v - x) = -v - -x by intro v; ring, neg_eq_iff_eq_neg] at h
    exact h

end

/-! ### One rounding (R40, R42, R43) -/

theorem signedBy_neg_iff {x : Rat} (hx : 0 < x) (neg : Bool) : signedBy neg x < 0 ↔ neg = true := by
  cases neg <;> simp [hx, hx.le]

/-- Where a value lies between two encodings, and which of them its fraction is nearer to. -/
theorem fraction_between {lo hi x : Rat} {rem den : Nat} (hrem : rem < den) (hlt : lo < hi) (hx : x = lo + rem / den * (hi - lo)) :
    lo ≤ x ∧ x < hi ∧ (rem ≠ 0 → lo < x) ∧ (den < 2 * rem → hi - x < x - lo) ∧ (2 * rem = den → hi - x = x - lo) ∧ (2 * rem < den → x - lo < hi - x) := by
  have hden : (0 : Rat) < den := by exact_mod_cast (Nat.zero_le _).trans_lt hrem
  have hg : 0 < hi - lo := sub_pos.2 hlt
  have hd : x - lo = (hi - lo) / den * rem := by rw [hx]; ring
  have hu : hi - x = (hi - lo) / den * (den - rem) := by rw [hx]; field_simp; ring
  have hq : 0 < (hi - lo) / den := div_pos hg hden
  have hrem' : (rem : Rat) < den := by exact_mod_cast hrem
  have hr0 : (0 : Rat) ≤ rem := Nat.cast_nonneg _
  refine ⟨sub_nonneg.1 (by rw [hd]; positivity), sub_pos.1 (by rw [hu]; exact mul_pos hq (sub_pos.2 hrem')), fun h => sub_pos.1 ?_, fun h => ?_, fun h => ?_, fun h => ?_⟩
  · rw [hd]
    exact mul_pos hq (by exact_mod_cast Nat.pos_of_ne_zero h)
  · have h' : (den : Rat) < 2 * rem := by exact_mod_cast h
    rw [hd, hu, mul_lt_mul_iff_right₀ hq]
    linarith
  · have h' : (2 : Rat) * rem = den := by exact_mod_cast h
    rw [hd, hu, ← h']
    ring
  · have h' : (2 : Rat) * rem < den := by exact_mod_cast h
    rw [hd, hu, mul_lt_mul_iff_right₀ hq]
    linarith

/-- The encoding that a rounding takes is a neighbour of the exact value, where it is finite (R40). -/
theorem takenEncoding_neighbour {f : FpFormat} (hf : f.Proper) (r : Rounding) (neg : Bool) {x : Rat} {k rem den : Nat} (hrem : rem < den) (hr0 : rem ≠ 0)
    (hx : x = f.mag k + rem / den * (f.mag (k + 1) - f.mag k)) (hmax : takenEncoding r neg k rem den ≤ f.maxFinite) :
    neighbourOf f r.mode (signedBy neg x) ((if neg then f.signBit else 0) + takenEncoding r neg k rem den) := by
  obtain ⟨-, hhi, hlo, hnear, htie, hfar⟩ := fraction_between hrem (f.mag_strictMono (Nat.lt_succ_self k)) hx
  replace hlo := hlo hr0
  have hpos : 0 < x := (f.mag_nonneg k).trans_lt hlo
  have hval := realOf_signed hf neg hmax
  have hfloor := isFloorOf_between hf hlo hhi neg
  have hceil := isCeilOf_between hf hlo hhi neg
  have hparity : ((if neg then f.signBit else 0) + takenEncoding r neg k rem den) % 2 = takenEncoding r neg k rem den % 2 := by
    cases neg <;> simp [Nat.add_mod, hf.signBit_even]
  have htake : takenEncoding r neg k rem den = if roundsUp r.mode r.draw neg (k % 2 == 1) rem den then k + 1 else k := rfl
  generalize hup : roundsUp r.mode r.draw neg (k % 2 == 1) rem den = up at htake
  rw [htake] at hval hparity ⊢
  unfold roundsUp at hup
  rw [if_neg hr0] at hup
  match hmode : r.mode with
  | 0 =>
    simp only [hmode] at hup
    refine neighbourOf_nearest hval (isNearestOf_between hf hlo hhi neg up hparity (fun hu => ?_) fun hd => ?_)
    · rw [hu] at hup
      simp only [Bool.or_eq_true, Bool.and_eq_true, decide_eq_true_eq, beq_iff_eq] at hup
      exact hup.imp hnear fun h => ⟨htie h.1, h.2⟩
    · rw [hd] at hup
      simp only [Bool.or_eq_false_iff, Bool.and_eq_false_iff, decide_eq_false_iff_not, beq_eq_false_iff_ne] at hup
      obtain hlt | heq := lt_or_eq_of_le (not_lt.1 hup.1)
      · exact .inl (hfar hlt)
      · exact .inr ⟨(htie heq).symm, by have := hup.2; omega⟩
  | 1 =>
    simp only [hmode] at hup
    obtain rfl := hup
    refine neighbourOf_towardZero hval (fun h => ?_) fun h => ?_
    · obtain rfl := (signedBy_neg_iff hpos neg).1 h
      exact hceil
    · obtain rfl : neg = false := by simpa [signedBy_neg_iff hpos neg] using h
      exact hfloor
  | 2 =>
    simp only [hmode] at hup
    obtain rfl := hup
    exact ⟨_, hval, hfloor⟩
  | 3 =>
    simp only [hmode] at hup
    obtain rfl := hup
    refine ⟨_, hval, ?_⟩
    cases neg <;> exact hceil
  | n + 4 =>
    refine ⟨_, hval, ?_⟩
    by_cases h : up = neg
    · obtain rfl := h
      exact .inl hfloor
    · obtain rfl : up = !neg := by cases up <;> cases neg <;> simp_all
      refine .inr ?_
      cases neg <;> exact hceil

/-- An encoding beyond the largest one is taken only of a value beyond the largest number (R42). -/
theorem mag_maxFinite_lt {f : FpFormat} {r : Rounding} {neg : Bool} {x : Rat} {k rem den : Nat} (hrem : rem < den)
    (hx : x = f.mag k + rem / den * (f.mag (k + 1) - f.mag k)) (hover : f.maxFinite < takenEncoding r neg k rem den) : f.mag f.maxFinite < x := by
  obtain ⟨hle, -, hlo, -⟩ := fraction_between hrem (f.mag_strictMono (Nat.lt_succ_self k)) hx
  unfold takenEncoding at hover
  split at hover
  next hup =>
    have hr0 : rem ≠ 0 := by
      rintro rfl
      simp [roundsUp] at hup
    exact (f.mag_strictMono.monotone (Nat.lt_succ_iff.1 hover)).trans_lt (hlo hr0)
  next => exact (f.mag_strictMono hover).trans_le hle

/-- The result of an overflow without saturation in a format of IEEE 754's kind (R42). -/
theorem overflowed_ieee {f : FpFormat} (hs : f.specials = .ieee) {r : Rounding} (hr : r.sat = false) (neg : Bool) :
    ∃ m, (m = f.inf ∨ m = f.maxFinite) ∧ overflowed f r neg = ((if neg then f.signBit else 0) + m, Flag.of ||| Flag.ix) ∧
      (r.mode ≤ 3 → m = if r.mode = 0 ∨ r.mode = 2 ∧ neg = true ∨ r.mode = 3 ∧ neg = false then f.inf else f.maxFinite) := by
  unfold overflowed
  rw [hr, hs]
  match hm : r.mode with
  | 0 => exact ⟨f.inf, .inl rfl, rfl, fun _ => by simp⟩
  | 1 => exact ⟨f.maxFinite, .inr rfl, rfl, fun _ => by simp⟩
  | 2 => cases neg <;> refine ⟨_, ?_, rfl, fun _ => ?_⟩ <;> simp
  | 3 => cases neg <;> refine ⟨_, ?_, rfl, fun _ => ?_⟩ <;> simp
  | n + 4 => exact ⟨f.inf, .inl rfl, rfl, fun h => absurd h (by omega)⟩

/-- The result and flags of a rounding are one rounding of the exact value. -/
theorem roundEncoding_roundsTo {f : FpFormat} (hf : f.Proper) (hs : f.specials = .ieee) {r : Rounding} (hr : r.sat = false) (neg tiny : Bool) {x : Rat} {k rem den : Nat}
    (hrem : rem < den) (hx : x = f.mag k + rem / den * (f.mag (k + 1) - f.mag k)) (hpos : 0 < x) :
    roundsTo f r (signedBy neg x) (roundEncoding f r neg k rem den tiny) := by
  obtain ⟨hle, hhi, hlo, -⟩ := fraction_between hrem (f.mag_strictMono (Nat.lt_succ_self k)) hx
  have hwidth : ∀ m, m < f.signBit → (if neg then f.signBit else 0) + m < 2 ^ f.width := by
    intro m hm
    rw [f.two_signBit]
    split <;> omega
  have hsign : ∀ m, m < f.signBit → ((if neg then f.signBit else 0) + m) / f.signBit = if signedBy neg x < 0 then 1 else 0 := by
    intro m hm
    rw [signed_div neg hm]
    exact if_congr (signedBy_neg_iff hpos neg).symm rfl rfl
  unfold roundEncoding
  split
  next hover =>
    obtain ⟨m, hm, heq, hmode⟩ := overflowed_ieee hs hr neg
    have hmlt : m < f.signBit := hm.elim (fun h => h ▸ f.inf_lt_signBit) fun h => h ▸ hf.maxFinite_lt
    rw [heq]
    refine ⟨hwidth m hmlt, (by decide : (Flag.of ||| Flag.ix) &&& 35 = 0), fun _ => hsign m hmlt, fun (h : (Flag.of ||| Flag.ix).getLsbD 2 = false) => absurd h (by decide), fun _ => ⟨rfl, fun z w hw => ?_, fun h3 => ?_⟩⟩
    · obtain ⟨i, hi, hw⟩ := abs_of_realOf hf hw
      rw [apart_eq, apart_eq, sub_zero, sub_zero, abs_signedBy, abs_of_pos hpos, hw]
      exact (f.mag_strictMono.monotone hi).trans_lt (mag_maxFinite_lt hrem hx hover)
    · rw [signed_mod neg hmlt, hmode h3]
      have hgt : 0 < signedBy neg x ↔ neg = false := by cases neg <;> simp [hpos, hpos.le]
      exact if_congr (by rw [signedBy_neg_iff hpos, hgt]) rfl rfl
  next hfin =>
    have hfin := not_lt.1 hfin
    split
    next hflush =>
      simp only [Bool.and_eq_true, decide_eq_true_eq] at hflush
      have hk : k + 1 ≤ 2 ^ f.manBits := by
        have := hflush.2
        unfold takenEncoding at this
        split at this <;> omega
      have hsmall := hwidth 0 f.signBit_pos
      have hs0 := hsign 0 f.signBit_pos
      have hm0 := signed_mod neg f.signBit_pos
      rw [add_zero] at hsmall hs0 hm0
      refine ⟨hsmall, (by decide : (Flag.uf ||| Flag.ix) &&& 35 = 0), fun _ => hs0, fun _ => .inr ⟨hflush.1, hm0, rfl, ?_⟩,
        fun (h : (Flag.uf ||| Flag.ix).getLsbD 2 = true) => absurd h (by decide)⟩
      rw [apart_eq, sub_zero, abs_signedBy, abs_of_pos hpos, twoTo_eq, ← f.mag_normal]
      exact hhi.trans_le (f.mag_strictMono.monotone hk)
    next =>
      have hlt := hfin.trans_lt hf.maxFinite_lt
      have hval := realOf_signed hf neg hfin
      obtain ⟨hfl, hof, hix⟩ := roundFlags_spec (rem != 0) tiny
      refine ⟨hwidth _ hlt, hfl, fun _ => hsign _ hlt, fun _ => .inl ?_, fun h => absurd (hof.symm.trans h) Bool.false_ne_true⟩
      rw [hix]
      by_cases hr0 : rem = 0
      · have hk : takenEncoding r neg k rem den = k := by simp [takenEncoding, roundsUp, hr0]
        have hxk : x = f.mag k := by rw [hx, hr0]; simp
        rw [hk, ← hxk] at hval
        rw [hk]
        exact ⟨neighbourOf_self _ hval, by simp [hr0, hval]⟩
      · refine ⟨takenEncoding_neighbour hf r neg hrem hr0 hx hfin, iff_of_true (by simp [hr0]) ?_⟩
        rw [hval]
        intro h
        have habs := congrArg abs (Option.some.inj h)
        rw [abs_signedBy, abs_signedBy, abs_of_nonneg (f.mag_nonneg _), abs_of_pos hpos] at habs
        have := hlo hr0
        unfold takenEncoding at habs
        split at habs <;> linarith

/-- A zero stays a zero of its sign. -/
theorem roundsTo_zero {f : FpFormat} (hf : f.Proper) (r : Rounding) (neg : Bool) : roundsTo f r 0 (if neg then f.signBit else 0, 0) := by
  have hval := realOf_signed hf neg (Nat.zero_le f.maxFinite)
  rw [add_zero, f.mag_zero, signedBy_zero] at hval
  refine ⟨?_, (rfl : (0 : Flags) &&& 35 = 0), fun h => absurd rfl h, fun _ => .inl ⟨neighbourOf_self _ hval, by simp [hval]⟩, fun (h : (0 : Flags).getLsbD 2 = true) => absurd h (by decide)⟩
  have := f.two_signBit
  have := f.signBit_pos
  dsimp only
  split <;> omega

/-- fpRound is one rounding of the number it is given (R40, R42, R43). -/
theorem fpRound_roundsTo {f : FpFormat} (hf : f.Proper) (hs : f.specials = .ieee) {r : Rounding} (hr : r.sat = false) (neg : Bool) (n : Nat) {d : Nat} (hd : d ≠ 0) (e : Int) :
    roundsTo f r (signedBy neg ((n : Rat) / d * 2 ^ e)) (fpRound f r neg n d e) := by
  by_cases hn : n = 0
  · subst hn
    simpa [fpRound] using roundsTo_zero hf r neg
  · obtain ⟨k, rem, den, tiny, hrem, hx, -, heq⟩ := fpRound_spec hf.man r neg hn hd e
    rw [heq]
    exact roundEncoding_roundsTo hf hs hr neg tiny hrem hx
      (mul_pos (div_pos (by exact_mod_cast Nat.pos_of_ne_zero hn) (by exact_mod_cast Nat.pos_of_ne_zero hd)) (two_zpow_pos e))

/-- A magnitude of the format is written as its own encoding, without a flag, whatever the mode (R36, R40). -/
theorem fpRound_exact {f : FpFormat} (hM : 1 ≤ f.manBits) {r : Rounding} (neg : Bool) {n d k : Nat} (hd : d ≠ 0) {e : Int} (hval : (n : Rat) / d * 2 ^ e = f.mag k)
    (hk : k ≤ f.maxFinite) (hflush : r.flush = true → k = 0 ∨ 2 ^ f.manBits ≤ k) : fpRound f r neg n d e = ((if neg then f.signBit else 0) + k, 0) := by
  by_cases hn : n = 0
  · have hk0 : k = 0 := f.mag_strictMono.injective (by rw [← hval, hn]; simp)
    simp [fpRound, hn, hk0]
  · obtain ⟨j, rem, den, tiny, hrem, hx, -, heq⟩ := fpRound_spec hM r neg hn hd e
    obtain ⟨hle, hhi, hlo, -⟩ := fraction_between hrem (f.mag_strictMono (Nat.lt_succ_self j)) hx
    rw [hval] at hle hhi hlo
    obtain rfl : j = k := le_antisymm (f.mag_strictMono.le_iff_le.1 hle) (Nat.lt_succ_iff.1 (f.mag_strictMono.lt_iff_lt.1 hhi))
    have hr0 : rem = 0 := by_contra fun h => lt_irrefl _ (hlo h)
    have htake : takenEncoding r neg j rem den = j := by simp [takenEncoding, roundsUp, hr0]
    have hpos : 0 < f.mag j := by
      rw [← hval]
      exact mul_pos (div_pos (by exact_mod_cast Nat.pos_of_ne_zero hn) (by exact_mod_cast Nat.pos_of_ne_zero hd)) (two_zpow_pos e)
    have hj0 : j ≠ 0 := by
      rintro rfl
      simp at hpos
    have hnoflush : ¬ (r.flush && decide (j < 2 ^ f.manBits)) = true := by
      simp only [Bool.and_eq_true, decide_eq_true_eq]
      exact fun h => (hflush h.1).elim hj0 (not_le.2 h.2)
    rw [heq, roundEncoding, htake, if_neg (not_lt.2 hk), if_neg hnoflush]
    simp [hr0, roundFlags]

/-- A value beyond the largest number by a whole unit overflows, whatever it is (R42). -/
theorem fpRound_huge {f : FpFormat} (hM : 1 ≤ f.manBits) (r : Rounding) (neg : Bool) {n d : Nat} (hn : n ≠ 0) (hd : d ≠ 0) {e : Int}
    (h : f.mag (f.maxFinite + 1) ≤ (n : Rat) / d * 2 ^ e) : fpRound f r neg n d e = overflowed f r neg := by
  obtain ⟨k, rem, den, tiny, hrem, hx, -, heq⟩ := fpRound_spec hM r neg hn hd e
  obtain ⟨-, hhi, -⟩ := fraction_between hrem (f.mag_strictMono (Nat.lt_succ_self k)) hx
  have hk : f.maxFinite < k := Nat.lt_of_succ_lt_succ (f.mag_strictMono.lt_iff_lt.1 (h.trans_lt hhi))
  have htake : k ≤ takenEncoding r neg k rem den := by
    unfold takenEncoding
    split <;> omega
  rw [heq, roundEncoding, if_pos (hk.trans_le htake)]

/-- A fraction too small for any draw rounds up by the directed modes alone (R40, R41). -/
theorem roundsUp_tiny (mode draw : Nat) (neg : Bool) {rem den : Nat} (hr0 : rem ≠ 0) (h : rem * 2 ^ 33 < den) :
    roundsUp mode draw neg (0 == 1) rem den = (mode == 2 && neg || mode == 3 && !neg) := by
  unfold roundsUp
  rw [if_neg hr0]
  match mode with
  | 0 => simp only [show ¬ 2 * rem > den by omega, decide_false, Bool.false_or]; simp
  | 1 => rfl
  | 2 => cases neg <;> rfl
  | 3 => cases neg <;> rfl
  | m + 4 =>
    have hlt : rem * 2 ^ 32 < den := lt_of_le_of_lt (Nat.mul_le_mul_left rem (by norm_num)) h
    have hz := Nat.div_eq_of_lt hlt
    simp only [hz, Nat.not_lt_zero, decide_false]
    rfl

/-- A value far under the smallest subnormal number rounds as every such value does (R40, R43). -/
theorem fpRound_tiny {f : FpFormat} (hM : 1 ≤ f.manBits) (r : Rounding) (neg : Bool) {n d : Nat} (hn : n ≠ 0) (hd : d ≠ 0) {e : Int}
    (h : (n : Rat) / d * 2 ^ e < 2 ^ (f.quantum - 33)) : fpRound f r neg n d e = roundEncoding f r neg 0 1 (2 ^ 34) true := by
  obtain ⟨k, rem, den, tiny, hrem, hx, htiny, heq⟩ := fpRound_spec hM r neg hn hd e
  obtain ⟨hle, -⟩ := fraction_between hrem (f.mag_strictMono (Nat.lt_succ_self k)) hx
  have hone : f.mag 1 = 2 ^ f.quantum := by simpa using f.mag_binade (j := 0) (k := 1) Nat.one_le_two_pow (.inl rfl)
  have hpos : 0 < (n : Rat) / d * 2 ^ e :=
    mul_pos (div_pos (by exact_mod_cast Nat.pos_of_ne_zero hn) (by exact_mod_cast Nat.pos_of_ne_zero hd)) (two_zpow_pos e)
  obtain rfl : k = 0 := by
    have hlt := hle.trans_lt (h.trans_le (zpow_le_zpow_right₀ one_le_two (by omega : f.quantum - 33 ≤ f.quantum)))
    rw [← hone] at hlt
    exact Nat.lt_one_iff.1 (f.mag_strictMono.lt_iff_lt.1 hlt)
  rw [f.mag_zero, hone, sub_zero, zero_add] at hx
  have hden : (0 : Rat) < den := by exact_mod_cast (Nat.zero_le _).trans_lt hrem
  have hsmall : rem * 2 ^ 33 < den := by
    rw [hx, sub_eq_add_neg, zpow_add₀ two_ne_zero, mul_comm, mul_lt_mul_iff_right₀ (two_zpow_pos _), div_lt_iff₀ hden] at h
    have h' : (rem : Rat) * 2 ^ 33 < den := by
      norm_num at h ⊢
      linarith
    exact_mod_cast h'
  have hr0 : rem ≠ 0 := by
    rintro rfl
    rw [hx] at hpos
    simp at hpos
  have htake : takenEncoding r neg 0 rem den = takenEncoding r neg 0 1 (2 ^ 34) := by
    rw [takenEncoding, takenEncoding, Nat.zero_mod, roundsUp_tiny r.mode r.draw neg hr0 hsmall, roundsUp_tiny r.mode r.draw neg one_ne_zero (by norm_num)]
  have ht : tiny = true := htiny (by
    calc 2 * ((n : Rat) / d * 2 ^ e) < 2 * 2 ^ (f.quantum - 33) := mul_lt_mul_of_pos_left h two_pos
      _ = 2 ^ (f.quantum - 33 + 1) := by rw [zpow_add_one₀ two_ne_zero, mul_comm]
      _ ≤ _ := zpow_le_zpow_right₀ one_le_two (by omega))
  have hix : (rem != 0) = (1 != 0) := by simp [hr0]
  rw [heq, ht, roundEncoding, roundEncoding, htake, hix]

end Sys2Proof.Machine
end

section
/-! PROOFS. What encodings read as (R36, R37, R43), and exact sums and products of what is read (R45, R47). -/

namespace Sys2Proof.Machine
open Sys2Proof.Claims

/-! ### Reading an encoding -/

/-- The exact value of a finite read. -/
def finValue (m : Nat) (e : Int) : Rat := m * 2 ^ e

/-- Is the top exponent field of a magnitude all ones? -/
theorem FpFormat.top_iff (f : FpFormat) {k : Nat} (hk : k < f.signBit) : k / 2 ^ f.manBits + 1 = 2 ^ f.expBits ↔ f.inf ≤ k := by
  have hp : 0 < 2 ^ f.manBits := by positivity
  have hlt : k / 2 ^ f.manBits < 2 ^ f.expBits := (Nat.div_lt_iff_lt_mul hp).2 (by rwa [FpFormat.signBit, pow_add] at hk)
  rw [FpFormat.inf, ← Nat.le_div_iff_mul_le hp]
  generalize k / 2 ^ f.manBits = t at *
  omega

/-- A magnitude with the top exponent field is the infinity's and a fraction. -/
theorem FpFormat.top_fraction (f : FpFormat) {k : Nat} (hk : k < f.signBit) (h : f.inf ≤ k) : k = f.inf + k % 2 ^ f.manBits := by
  have hd := Nat.div_add_mod k (2 ^ f.manBits)
  rw [Nat.eq_sub_of_add_eq ((f.top_iff hk).2 h)] at hd
  rw [FpFormat.inf, mul_comm, hd]

theorem mod_signBit_mod (f : FpFormat) (x : Nat) : x % f.signBit % 2 ^ f.manBits = x % 2 ^ f.manBits := by
  rw [FpFormat.signBit, pow_add, Nat.mod_mod_of_dvd _ (Nat.dvd_mul_left _ _)]

/-- The NaNs of a format lie above all that it can represent. -/
theorem isNanOf_iff {f : FpFormat} (hf : f.Proper) (x : Nat) : isNanOf f x ↔ f.maxFinite < x % f.signBit ∧ (f.specials = .ieee → x % f.signBit ≠ f.inf) := by
  have hinf := hf.inf_pos
  have hsb : 1 < f.signBit := lt_of_le_of_lt hinf f.inf_lt_signBit
  have hlt := Nat.mod_lt x f.signBit_pos
  unfold isNanOf FpFormat.maxFinite
  rw [← FpFormat.inf]
  cases f.specials <;> simp only [reduceCtorEq, false_imp_iff, true_imp_iff, false_iff, and_true] <;> omega

/-- A finite encoding reads as its sign and its magnitude, a subnormal under flush as zero. -/
theorem fpRead_finite {f : FpFormat} (hf : f.Proper) (flush : Bool) {x : Nat} (h : x % f.signBit ≤ f.maxFinite) :
    ∃ m e, fpRead f flush x = .fin (x / f.signBit % 2 == 1) m e ∧ finValue m e = (if flush && decide (x % f.signBit < 2 ^ f.manBits) then 0 else f.mag (x % f.signBit)) ∧
      m < 2 ^ (f.manBits + 1) ∧ f.quantum ≤ e ∧ e < f.quantum + 2 ^ f.expBits := by
  have hp : 0 < 2 ^ f.manBits := by positivity
  have hE : 0 < 2 ^ f.expBits := by positivity
  have hklt := Nat.mod_lt x f.signBit_pos
  have hnan : ¬ isNanOf f x := fun hn => absurd h (not_le.2 ((isNanOf_iff hf x).1 hn).1)
  have hnotop : f.specials = .ieee → ¬ x % f.signBit / 2 ^ f.manBits + 1 = 2 ^ f.expBits := by
    intro hs ht
    rw [f.top_iff hklt] at ht
    rw [FpFormat.maxFinite, hs] at h
    have := hf.inf_pos
    rw [FpFormat.inf] at this ht
    dsimp only at h
    omega
  have hone : f.specials = .oneNan → ¬ x % f.signBit + 1 = f.signBit := by
    intro hs ht
    rw [isNanOf, hs] at hnan
    exact hnan ht
  have hread : fpRead f flush x = if x % f.signBit / 2 ^ f.manBits = 0 then .fin (x / f.signBit % 2 == 1) (if flush then 0 else x % f.signBit % 2 ^ f.manBits) f.quantum
      else .fin (x / f.signBit % 2 == 1) (x % f.signBit % 2 ^ f.manBits + 2 ^ f.manBits) (f.quantum + (x % f.signBit / 2 ^ f.manBits - 1 : Nat)) := by
    unfold fpRead
    cases hs : f.specials with
    | ieee => simp only [if_neg (hnotop hs)]
    | oneNan => simp only [if_neg (hone hs)]
    | none => rfl
  have hman := Nat.mod_lt (x % f.signBit) hp
  rw [hread, pow_succ]
  unfold finValue FpFormat.mag
  by_cases hlow : x % f.signBit < 2 ^ f.manBits
  · rw [if_pos (Nat.div_eq_of_lt hlow), if_pos hlow, Nat.mod_eq_of_lt hlow]
    exact ⟨_, _, rfl, by cases flush <;> simp [hlow], by split <;> omega, le_rfl, by exact_mod_cast Int.lt_add_of_pos_right _ (by exact_mod_cast hE)⟩
  · have hdiv := Nat.div_pos (not_lt.1 hlow) hp
    have htop : x % f.signBit / 2 ^ f.manBits < 2 ^ f.expBits := (Nat.div_lt_iff_lt_mul hp).2 (by rw [← pow_add]; exact hklt)
    rw [if_neg hdiv.ne', if_neg hlow, if_neg (by simp [hlow])]
    refine ⟨_, _, rfl, by rw [Nat.add_comm], by omega, by omega, ?_⟩
    have : ((x % f.signBit / 2 ^ f.manBits : Nat) : Int) < 2 ^ f.expBits := by exact_mod_cast htop
    generalize x % f.signBit / 2 ^ f.manBits = t at *
    omega

/-- A number of a format reads as it is (R36). -/
theorem fpRead_of_realOf {f : FpFormat} (hf : f.Proper) {flush : Bool} {x : Nat} {X : Rat} (h : realOf f flush x = some X) :
    ∃ m e, fpRead f flush x = .fin (x / f.signBit % 2 == 1) m e ∧ X = signedBy (x / f.signBit % 2 == 1) (finValue m e) ∧
      m < 2 ^ (f.manBits + 1) ∧ f.quantum ≤ e ∧ e < f.quantum + 2 ^ f.expBits := by
  rw [realOf_eq hf] at h
  split at h
  next hk =>
    obtain ⟨m, e, hread, hval, hbounds⟩ := fpRead_finite hf flush hk
    exact ⟨m, e, hread, by rw [hval]; exact (Option.some.inj h).symm, hbounds⟩
  next => exact absurd h (by simp)

/-- An infinity reads as that of its sign. -/
theorem fpRead_inf {f : FpFormat} (hs : f.specials = .ieee) (flush : Bool) {x : Nat} (h : x % f.signBit = f.inf) : fpRead f flush x = .inf (x / f.signBit % 2 == 1) := by
  have htop := (f.top_iff (Nat.mod_lt x f.signBit_pos)).2 h.ge
  have hman : x % f.signBit % 2 ^ f.manBits = 0 := by rw [h, FpFormat.inf, Nat.mul_mod_left]
  simp only [fpRead, hs, htop, hman, if_true]

/-- A NaN reads as one, signalling where it is an IEEE NaN whose fraction's top bit is clear (R37). -/
theorem fpRead_nan {f : FpFormat} (flush : Bool) {x : Nat} (h : isNanOf f x) :
    fpRead f flush x = .nan (decide (f.specials = .ieee ∧ x % 2 ^ f.manBits < 2 ^ (f.manBits - 1))) := by
  have hklt := Nat.mod_lt x f.signBit_pos
  unfold isNanOf at h
  unfold fpRead
  rw [← mod_signBit_mod f x]
  cases hs : f.specials with
  | ieee =>
    rw [hs] at h
    have hfrac := f.top_fraction hklt (le_of_lt h)
    simp only [(f.top_iff hklt).2 (le_of_lt h), if_true, if_neg (show ¬ x % f.signBit % 2 ^ f.manBits = 0 by omega), true_and]
  | oneNan =>
    rw [hs] at h
    simp only [if_pos h, reduceCtorEq, false_and, decide_false]
  | none =>
    rw [hs] at h
    exact h.elim

theorem isNan_fpRead {f : FpFormat} (hf : f.Proper) (flush : Bool) (x : Nat) : (fpRead f flush x).isNan = true ↔ isNanOf f x := by
  refine ⟨fun h => by_contra fun hn => ?_, fun h => by rw [fpRead_nan flush h]; rfl⟩
  by_cases hk : x % f.signBit ≤ f.maxFinite
  · obtain ⟨m, e, hread, -⟩ := fpRead_finite hf flush hk
    rw [hread] at h
    exact Bool.false_ne_true h
  · simp only [isNanOf_iff hf, not_and, Classical.not_imp, not_not] at hn
    obtain ⟨hs, hi⟩ := hn (not_le.1 hk)
    rw [fpRead_inf hs flush hi] at h
    exact Bool.false_ne_true h

/-- Every encoding is a NaN, an infinity or finite. -/
theorem nan_or_inf_or_finite {f : FpFormat} (hf : f.Proper) (x : Nat) : isNanOf f x ∨ (f.specials = .ieee ∧ x % f.signBit = f.inf) ∨ x % f.signBit ≤ f.maxFinite := by
  by_cases hk : x % f.signBit ≤ f.maxFinite
  · exact .inr (.inr hk)
  · by_cases hi : f.specials = .ieee ∧ x % f.signBit = f.inf
    · exact .inr (.inl hi)
    · exact .inl ((isNanOf_iff hf x).2 ⟨not_le.1 hk, fun hs he => hi ⟨hs, he⟩⟩)

/-- An encoding is its sign and its magnitude. -/
theorem encoding_eq {f : FpFormat} {x : Nat} (hx : x < 2 ^ f.width) : (if (x / f.signBit % 2 == 1) = true then f.signBit else 0) + x % f.signBit = x := by
  rw [f.two_signBit] at hx
  have hd := Nat.div_add_mod x f.signBit
  have : x / f.signBit < 2 := (Nat.div_lt_iff_lt_mul f.signBit_pos).2 hx
  obtain h | h := Nat.le_one_iff_eq_zero_or_eq_one.1 (Nat.lt_succ_iff.1 this)
  · rw [h] at hd ⊢
    simpa using hd
  · rw [h] at hd ⊢
    simpa using hd

/-- A value that a format can represent is written as itself, without a flag (R36, R37, R40). -/
theorem fpWrite_fpRead {f : FpFormat} (hf : f.Proper) {x : Nat} (hx : x < 2 ^ f.width) {r : Rounding} (hsat : r.sat = false) (hflush : r.flush = false)
    (hnan : (fpRead f false x).isNan = false) : fpWrite f r (fpRead f false x) = (x, 0) := by
  obtain h | ⟨hs, hi⟩ | hk := nan_or_inf_or_finite hf x
  · rw [(isNan_fpRead hf false x).2 h] at hnan
    exact absurd hnan (by simp)
  · have hx' := encoding_eq hx
    rw [hi] at hx'
    rw [fpRead_inf hs false hi]
    simpa [fpWrite, hsat, hs] using hx'
  · obtain ⟨m, e, hread, hval, -⟩ := fpRead_finite hf false hk
    rw [hread, fpWrite, fpRound_exact hf.man _ one_ne_zero (k := x % f.signBit) (by simpa [finValue] using hval) hk (by simp [hflush]), encoding_eq hx]

/-! ### Numbers: exact products and sums (R45, R47) -/

/-- Is a read value a number, of a sign and a value? -/
def FpVal.IsNumber (v : FpVal) (neg : Bool) (X : Rat) : Prop := ∃ m e, v = .fin neg m e ∧ X = signedBy neg (finValue m e)

theorem finValue_nonneg (m : Nat) (e : Int) : 0 ≤ finValue m e := mul_nonneg (Nat.cast_nonneg _) (two_zpow_pos e).le

theorem finValue_eq_zero (m : Nat) (e : Int) : finValue m e = 0 ↔ m = 0 := by
  rw [finValue, mul_eq_zero, or_iff_left (two_zpow_pos e).ne', Nat.cast_eq_zero]

theorem signedBy_eq_zero (neg : Bool) (x : Rat) : signedBy neg x = 0 ↔ x = 0 := by
  cases neg <;> simp

theorem signedBy_mul (a b : Bool) (x y : Rat) : signedBy a x * signedBy b y = signedBy (a != b) (x * y) := by
  cases a <;> cases b <;> simp

theorem isNumber_of_realOf {f : FpFormat} (hf : f.Proper) {flush : Bool} {x : Nat} {X : Rat} (h : realOf f flush x = some X) :
    (fpRead f flush x).IsNumber (x / f.signBit % 2 == 1) X := by
  obtain ⟨m, e, hread, hX, -⟩ := fpRead_of_realOf hf h
  exact ⟨m, e, hread, hX⟩

theorem FpVal.IsNumber.inputFlag {v : FpVal} {neg : Bool} {X : Rat} (h : v.IsNumber neg X) : v.inputFlag = 0 := by
  obtain ⟨m, e, rfl, -⟩ := h
  rfl

theorem FpVal.IsNumber.neg {v : FpVal} {neg : Bool} {X : Rat} (h : v.IsNumber neg X) : v.neg.IsNumber (!neg) (-X) := by
  obtain ⟨m, e, rfl, rfl⟩ := h
  exact ⟨m, e, rfl, by cases neg <;> simp⟩

/-- The product of two numbers is exact (R45). -/
theorem FpVal.IsNumber.mul {v w : FpVal} {a b : Bool} {X Y : Rat} (hv : v.IsNumber a X) (hw : w.IsNumber b Y) :
    (fpMul v w).1.IsNumber (a != b) (X * Y) ∧ (fpMul v w).2 = 0 := by
  obtain ⟨m, e, rfl, rfl⟩ := hv
  obtain ⟨n, g, rfl, rfl⟩ := hw
  refine ⟨⟨m * n, e + g, rfl, ?_⟩, rfl⟩
  rw [signedBy_mul, finValue, finValue, finValue, zpow_add₀ two_ne_zero]
  push_cast
  congr 1
  ring

theorem minExp_le (ts : List FpVal) (acc : Int) : minExp ts acc ≤ acc ∧ ∀ neg m e, FpVal.fin neg m e ∈ ts → minExp ts acc ≤ e := by
  induction ts generalizing acc with
  | nil => exact ⟨le_rfl, fun _ _ _ h => absurd h (by simp)⟩
  | cons t ts ih =>
    cases t with
    | fin n k g =>
      obtain ⟨hacc, hts⟩ := ih (min g acc)
      refine ⟨hacc.trans (min_le_right _ _), fun neg m e h => ?_⟩
      obtain h | h := List.mem_cons.1 h
      · cases h
        exact hacc.trans (min_le_left _ _)
      · exact hts neg m e h
    | nan s => exact ⟨(ih acc).1, fun neg m e h => (ih acc).2 neg m e (by simpa using h)⟩
    | inf n => exact ⟨(ih acc).1, fun neg m e h => (ih acc).2 neg m e (by simpa using h)⟩

/-- The read values of a list of terms with their signs. -/
abbrev areNumbers (ts : List FpVal) (us : List (Rat × Bool)) : Prop := List.Forall₂ (fun t u => t.IsNumber u.2 u.1) ts us

/-- The sum in units of a power of two that no term lies under is exact. -/
theorem sumAt_eq {ts : List FpVal} {us : List (Rat × Bool)} (h : areNumbers ts us) {base : Int} (hb : ∀ neg m e, FpVal.fin neg m e ∈ ts → base ≤ e) :
    (sumAt base ts : Rat) * 2 ^ base = (us.map Prod.fst).sum := by
  induction h with
  | nil => simp [sumAt]
  | cons hu _ ih =>
    obtain ⟨m, e, rfl, hX⟩ := hu
    have hunit : ((m * 2 ^ (e - base).toNat : Nat) : Rat) * 2 ^ base = finValue m e := by
      have hbe := hb _ m e List.mem_cons_self
      rw [finValue, Nat.cast_mul, Nat.cast_pow, Nat.cast_ofNat, ← zpow_natCast, mul_assoc, ← zpow_add₀ two_ne_zero, Int.toNat_of_nonneg (by omega), sub_add_cancel]
    rw [List.map_cons, List.sum_cons, ← ih (fun neg m e hm => hb neg m e (List.mem_cons_of_mem _ hm)), hX, ← hunit, sumAt, Int.cast_add, add_mul]
    congr 1
    split
    next hn => rw [hn, signedBy_true, Int.cast_neg, Int.cast_natCast, neg_mul]
    next hn => rw [Bool.eq_false_iff.2 hn, signedBy_false, Int.cast_natCast]

theorem isZeroOf_number {v : FpVal} {neg : Bool} {X : Rat} (h : v.IsNumber neg X) (b : Bool) : isZeroOf b v = (decide (X = 0) && (neg == b)) := by
  obtain ⟨m, e, rfl, rfl⟩ := h
  rw [isZeroOf, Bool.beq_eq_decide_eq]
  congr 1
  exact decide_eq_decide.2 (by rw [signedBy_eq_zero, finValue_eq_zero])

/-- The sign of an exact zero, of the terms as they were read (R47). -/
theorem zeroSign_eq {ts : List FpVal} {us : List (Rat × Bool)} (h : areNumbers ts us) :
    ts.all (isZeroOf false) = us.all (fun u => decide (u.1 = 0) && !u.2) ∧ ts.all (isZeroOf true) = us.all (fun u => decide (u.1 = 0) && u.2) := by
  induction h with
  | nil => exact ⟨rfl, rfl⟩
  | cons hu _ ih =>
    simp only [List.all_cons, ih.1, ih.2, isZeroOf_number hu]
    simp

/-- Numbers sum to their exact sum, a zero with the sign of R47 (R45, R47). -/
theorem fpSum_numbers (mode : Nat) {ts : List FpVal} {us : List (Rat × Bool)} (h : areNumbers ts us) :
    ∃ v neg, fpSum mode ts = (v, 0) ∧ v.IsNumber neg (us.map Prod.fst).sum ∧ ((us.map Prod.fst).sum = 0 → neg = zeroIsNegative mode us) := by
  have hfin : ∀ t ∈ ts, ∃ neg m e, t = FpVal.fin neg m e := by
    intro t ht
    obtain ⟨i, hi, rfl⟩ := List.getElem_of_mem ht
    obtain ⟨m, e, hm, -⟩ := h.get hi (by rw [← h.length_eq]; exact hi)
    exact ⟨_, m, e, hm⟩
  have hnan : ts.any FpVal.isNan = false := by
    rw [List.any_eq_false]
    intro t ht
    obtain ⟨neg, m, e, rfl⟩ := hfin t ht
    exact Bool.false_ne_true
  have hinf : ∀ b, ts.contains (.inf b) = false := by
    intro b
    rw [List.contains_eq_mem, decide_eq_false_iff_not]
    intro hm
    obtain ⟨neg, m, e, he⟩ := hfin _ hm
    exact absurd he (by simp)
  have hsum := sumAt_eq h (minExp_le ts 0).2
  obtain ⟨hpos, hneg⟩ := zeroSign_eq h
  have hp := two_zpow_pos (minExp ts 0)
  simp only [fpSum, hnan, hinf, Bool.false_and, Bool.false_eq_true, if_false]
  by_cases hz : sumAt (minExp ts 0) ts = 0
  · rw [hz] at hsum
    have hs : (us.map Prod.fst).sum = 0 := by simpa using hsum.symm
    simp only [if_pos hz, hs, zeroIsNegative, hpos, hneg]
    by_cases hm : mode = 2
    · simp only [if_pos hm]
      exact ⟨_, _, rfl, ⟨0, 0, rfl, by simp [finValue]⟩, fun _ => rfl⟩
    · simp only [if_neg hm]
      exact ⟨_, _, rfl, ⟨0, 0, rfl, by simp [finValue]⟩, fun _ => rfl⟩
  · rw [if_neg hz]
    refine ⟨_, _, rfl, ⟨_, _, rfl, ?_⟩, fun hs => ?_⟩
    · rw [← hsum, finValue, Nat.cast_natAbs, Int.cast_abs]
      obtain hlt | hge := lt_or_ge (sumAt (minExp ts 0) ts) 0
      · rw [abs_of_neg (by exact_mod_cast hlt)]
        simp [hlt]
      · rw [abs_of_nonneg (by exact_mod_cast hge)]
        simp [not_lt.2 hge]
    · rw [hs, mul_eq_zero, or_iff_left hp.ne'] at hsum
      exact absurd (by exact_mod_cast hsum) hz

/-! ### Writing a number -/

/-- Is a result one rounding of a number, and a zero of the given sign where that is zero? -/
def roundsToZero (f : FpFormat) (r : Rounding) (X : Rat) (neg : Bool) (p : Nat × Flags) : Prop :=
  roundsTo f r X p ∧ (X = 0 → p = (if neg then f.signBit else 0, 0))

/-- A format of IEEE 754's kind. -/
structure FpFormat.Ieee (f : FpFormat) : Prop extends f.Proper where
  ieee : f.specials = .ieee

theorem fpWrite_roundsTo {f : FpFormat} (hf : f.Ieee) {r : Rounding} (hr : r.sat = false) {v : FpVal} {neg : Bool} {X : Rat} (h : v.IsNumber neg X) :
    roundsToZero f r X neg (fpWrite f r v) := by
  obtain ⟨m, e, rfl, rfl⟩ := h
  refine ⟨by simpa [finValue, fpWrite] using fpRound_roundsTo hf.toProper hf.ieee hr neg m one_ne_zero e, fun hz => ?_⟩
  rw [signedBy_eq_zero, finValue_eq_zero] at hz
  simp [fpWrite, fpRound, hz]

theorem flags_or_zero (g : Flags) : g ||| 0 = g := BitVec.or_zero

theorem flags_zero_or (g : Flags) : 0 ||| g = g := BitVec.zero_or

theorem foldl_or_zero {α : Type} {g : α → Flags} {l : List α} (h : ∀ a ∈ l, g a = 0) : l.foldl (fun b a => b ||| g a) 0 = 0 := by
  induction l with
  | nil => rfl
  | cons a l ih =>
    rw [List.foldl_cons, h a List.mem_cons_self, flags_zero_or]
    exact ih fun b hb => h b (List.mem_cons_of_mem _ hb)

/-- A lane of inputs that raise nothing raises what forming and writing its value does. -/
theorem laneWrite_quietInputs (f : FpFormat) (r : Rounding) (v : FpVal × Flags) {inputs : List FpVal} (h : ∀ i ∈ inputs, i.inputFlag = 0) :
    laneWrite f r v inputs = ((fpWrite f r v.1).1, v.2 ||| (fpWrite f r v.1).2) := by
  simp only [laneWrite, foldl_or_zero h, flags_or_zero]

theorem laneWrite_clean (f : FpFormat) (r : Rounding) (v : FpVal) {inputs : List FpVal} (h : ∀ i ∈ inputs, i.inputFlag = 0) :
    laneWrite f r (v, 0) inputs = fpWrite f r v := by
  rw [laneWrite_quietInputs f r _ h, flags_zero_or]

/-- A lane's sum of numbers is one rounding of the exact sum (R140, R145, R146). -/
theorem laneSum_roundsTo {f : FpFormat} (hf : f.Ieee) {r : Rounding} (hr : r.sat = false) {ts : List FpVal} {us : List (Rat × Bool)} (h : areNumbers ts us)
    {inputs : List FpVal} (hin : ∀ i ∈ inputs, i.inputFlag = 0) :
    roundsToZero f r (us.map Prod.fst).sum (zeroIsNegative r.mode us) (laneSum f r ts inputs 0) := by
  obtain ⟨v, neg, hsum, hv, hneg⟩ := fpSum_numbers r.mode h
  have hw : laneSum f r ts inputs 0 = fpWrite f r v := by
    simp only [laneSum, hsum, flags_or_zero, laneWrite_clean f r v hin]
  rw [hw]
  obtain ⟨hround, hzero⟩ := fpWrite_roundsTo hf hr hv
  exact ⟨hround, fun hz => by rw [hzero hz, hneg hz]⟩

end Sys2Proof.Machine
end

section
/-! PROOFS. Floating-point lanes: what joined lanes hold, and the values of sums, products, quotients and scaled values (O8). -/

namespace Sys2Proof.Machine
open Sys2Proof.Claims

/-! ### Joined lanes (R136, R137) -/

/-- Each of the joined lanes is found in its place, and its flags are among those raised. -/
theorem joinLanes_lane (w : Nat) (l : List (Nat × Flags)) {j : Nat} (hj : j < l.length) :
    laneOf w (joinLanes w l).1 j = l[j].1 % 2 ^ w ∧ l[j].2 ||| (joinLanes w l).2 = (joinLanes w l).2 := by
  induction l generalizing j with
  | nil => exact absurd hj (Nat.not_lt_zero j)
  | cons p l ih =>
    have hp : 0 < 2 ^ w := by positivity
    cases j with
    | zero =>
      refine ⟨?_, ?_⟩
      · simp [laneOf, bits, joinLanes]
      · simp [joinLanes, ← BitVec.or_assoc]
    | succ j =>
      obtain ⟨hval, hfl⟩ := ih (Nat.lt_of_succ_lt_succ hj)
      refine ⟨?_, ?_⟩
      · rw [List.getElem_cons_succ, ← hval]
        simp only [laneOf, bits, joinLanes]
        rw [Nat.mul_succ, Nat.add_comm (w * j), pow_add, ← Nat.div_div_eq_div_mul, Nat.add_mul_div_left _ _ hp, Nat.div_eq_of_lt (Nat.mod_lt _ hp), Nat.zero_add]
      · rw [List.getElem_cons_succ]
        simp only [joinLanes]
        rw [← BitVec.or_assoc, BitVec.or_comm _ p.2, BitVec.or_assoc, hfl]

theorem mapLanes_lane (lt : Nat) (F : Nat → Nat × Flags) {j : Nat} (hj : j < 64 / laneWidth lt) :
    laneOf (laneWidth lt) (mapLanes lt F).1 j = (F j).1 % 2 ^ laneWidth lt ∧ (F j).2 ||| (mapLanes lt F).2 = (mapLanes lt F).2 := by
  have h := joinLanes_lane (laneWidth lt) ((List.range (64 / laneWidth lt)).map F) (j := j) (by rwa [List.length_map, List.length_range])
  rwa [List.getElem_map, List.getElem_range] at h

/-- A lane that fits its width is found as it was given. -/
theorem mapLanes_value {lt : Nat} {F : Nat → Nat × Flags} {j x : Nat} {g : Flags} (hj : j < 64 / laneWidth lt) (hF : F j = (x, g)) (hx : x < 2 ^ laneWidth lt) :
    laneOf (laneWidth lt) (mapLanes lt F).1 j = x ∧ g ||| (mapLanes lt F).2 = (mapLanes lt F).2 := by
  obtain ⟨hval, hfl⟩ := mapLanes_lane lt F hj
  rw [hF] at hval hfl
  exact ⟨by rw [hval, Nat.mod_eq_of_lt hx], hfl⟩

theorem or_raised {g h all : Flags} (hgh : g ||| h = h) (hall : h ||| all = all) : g ||| all = all := by
  rw [← hall, ← BitVec.or_assoc, hgh]

/-- A lane that rounds a number holds one rounding of it. -/
theorem mapLanes_rounds {lt : Nat} (hw : (laneFormat lt).width = laneWidth lt) {F : Nat → Nat × Flags} {j : Nat} (hj : j < 64 / laneWidth lt)
    {r : Rounding} {X : Rat} {neg : Bool} (h : roundsToZero (laneFormat lt) r X neg (F j)) :
    ∃ g, roundsTo (laneFormat lt) r X (laneOf (laneWidth lt) (mapLanes lt F).1 j, g) ∧ g ||| (mapLanes lt F).2 = (mapLanes lt F).2 ∧
      (X = 0 → laneOf (laneWidth lt) (mapLanes lt F).1 j = if neg then (laneFormat lt).signBit else 0) := by
  obtain ⟨hround, hzero⟩ := h
  obtain ⟨hval, hfl⟩ := mapLanes_value hj (rfl : F j = ((F j).1, (F j).2)) (by rw [← hw]; exact hround.1)
  exact ⟨(F j).2, by rw [hval]; exact hround, hfl, fun hz => by rw [hval, hzero hz]⟩

/-! ### The lane types (R109) -/

/-- A floating-point lane type of IEEE 754's kind. -/
structure FloatLane (lt : Nat) : Prop extends (laneFormat lt).Ieee where
  width : (laneFormat lt).width = laneWidth lt
  notInt : laneIsInt lt = false
  /-- The exponents and fractions of the lane types lie within those of FP64. -/
  small : (laneFormat lt).manBits + 2 ^ (laneFormat lt).expBits ≤ 4096

theorem floatLane {lt : Nat} (h : lt ∈ [3, 4, 5, 6]) : FloatLane lt := by
  simp only [List.mem_cons, List.not_mem_nil, or_false] at h
  obtain rfl | rfl | rfl | rfl := h <;> exact { exp := by decide, man := by decide, ieee := rfl, width := rfl, notInt := rfl, small := by decide }

/-- A lane's sign bit is its top bit. -/
theorem sign_of_lt {f : FpFormat} {x : Nat} (hx : x < 2 ^ f.width) : (x / f.signBit % 2 == 1) = (x / f.signBit == 1) := by
  rw [f.two_signBit] at hx
  rw [Nat.mod_eq_of_lt ((Nat.div_lt_iff_lt_mul f.signBit_pos).2 hx)]

theorem laneOf_lt (w x j : Nat) : laneOf w x j < 2 ^ w := Nat.mod_lt _ (by positivity)

section
variable {lt : Nat} (hlt : FloatLane lt)
include hlt

/-- A lane that is a number reads as one, with its top bit for a sign. -/
theorem FloatLane.isNumber {flush : Bool} {x j : Nat} {X : Rat} (h : realOf (laneFormat lt) flush (laneOf (laneWidth lt) x j) = some X) :
    (fpRead (laneFormat lt) flush (laneOf (laneWidth lt) x j)).IsNumber (laneOf (laneWidth lt) x j / (laneFormat lt).signBit == 1) X := by
  have hn := isNumber_of_realOf hlt.toProper h
  rwa [sign_of_lt (by rw [hlt.width]; exact laneOf_lt _ _ _)] at hn

theorem FloatLane.nan_lt : (laneFormat lt).nan < 2 ^ laneWidth lt := by
  have hinf := (laneFormat lt).inf_lt_signBit
  have hman : 2 ^ ((laneFormat lt).manBits - 1) ≤ (laneFormat lt).signBit := Nat.pow_le_pow_right two_pos (by omega)
  rw [← hlt.width, (laneFormat lt).two_signBit, FpFormat.nan, hlt.ieee]
  dsimp only
  omega

/-! ### Sums and products of a lane (R140) -/

variable {r : Rounding} (hr : r.sat = false) {x y z : Nat} {X Y Z : Rat} {a b c : Bool}
  (hx : (fpRead (laneFormat lt) r.flush x).IsNumber a X) (hy : (fpRead (laneFormat lt) r.flush y).IsNumber b Y)
include hr hx hy

theorem laneArith_add : roundsToZero (laneFormat lt) r (X + Y) (zeroIsNegative r.mode [(X, a), (Y, b)]) (laneArith 0 lt r x y z) := by
  have h := laneSum_roundsTo hlt.toIeee hr (us := [(X, a), (Y, b)]) (.cons hx (.cons hy .nil)) (inputs := [fpRead (laneFormat lt) r.flush x, fpRead (laneFormat lt) r.flush y])
    (by simp [hx.inputFlag, hy.inputFlag])
  simpa [laneArith, hlt.notInt] using h

theorem laneArith_sub : roundsToZero (laneFormat lt) r (X - Y) (zeroIsNegative r.mode [(X, a), (Y, !b)]) (laneArith 1 lt r x y z) := by
  have h := laneSum_roundsTo hlt.toIeee hr (us := [(X, a), (-Y, !b)]) (.cons hx (.cons hy.neg .nil))
    (inputs := [fpRead (laneFormat lt) r.flush x, fpRead (laneFormat lt) r.flush y]) (by simp [hx.inputFlag, hy.inputFlag])
  simpa [laneArith, hlt.notInt, zeroIsNegative, sub_eq_add_neg] using h

theorem laneArith_mul : roundsToZero (laneFormat lt) r (X * Y) (a != b) (laneArith 2 lt r x y z) := by
  obtain ⟨hmul, hfl⟩ := hx.mul hy
  have heq : fpMul (fpRead (laneFormat lt) r.flush x) (fpRead (laneFormat lt) r.flush y) = ((fpMul (fpRead (laneFormat lt) r.flush x) (fpRead (laneFormat lt) r.flush y)).1, 0) :=
    Prod.ext rfl hfl
  have hw : laneArith 2 lt r x y z = fpWrite (laneFormat lt) r (fpMul (fpRead (laneFormat lt) r.flush x) (fpRead (laneFormat lt) r.flush y)).1 := by
    simp only [laneArith, hlt.notInt, Bool.false_eq_true, if_false]
    rw [heq, laneWrite_clean _ _ _ (by simp [hx.inputFlag, hy.inputFlag])]
  rw [hw]
  exact fpWrite_roundsTo hlt.toIeee hr hmul

variable (hz : (fpRead (laneFormat lt) r.flush z).IsNumber c Z)
include hz

theorem laneArith_fma : roundsToZero (laneFormat lt) r (X * Y + Z) (zeroIsNegative r.mode [(X * Y, a != b), (Z, c)]) (laneArith 3 lt r x y z) := by
  obtain ⟨hmul, hfl⟩ := hx.mul hy
  have h := laneSum_roundsTo hlt.toIeee hr (us := [(X * Y, a != b), (Z, c)]) (.cons hmul (.cons hz .nil))
    (inputs := [fpRead (laneFormat lt) r.flush x, fpRead (laneFormat lt) r.flush y, fpRead (laneFormat lt) r.flush z]) (by simp [hx.inputFlag, hy.inputFlag, hz.inputFlag])
  simpa [laneArith, hlt.notInt, hfl] using h

theorem laneArith_fms : roundsToZero (laneFormat lt) r (Z - X * Y) (zeroIsNegative r.mode [(X * Y, a == b), (Z, c)]) (laneArith 4 lt r x y z) := by
  obtain ⟨hmul, hfl⟩ := hx.mul hy
  have h := laneSum_roundsTo hlt.toIeee hr (us := [(-(X * Y), !(a != b)), (Z, c)]) (.cons hmul.neg (.cons hz .nil))
    (inputs := [fpRead (laneFormat lt) r.flush x, fpRead (laneFormat lt) r.flush y, fpRead (laneFormat lt) r.flush z]) (by simp [hx.inputFlag, hy.inputFlag, hz.inputFlag])
  have hsum : [(-(X * Y), !(a != b)), (Z, c)].map Prod.fst = [-(X * Y), Z] := rfl
  have hsign : (!(a != b)) = (a == b) := by cases a <;> cases b <;> rfl
  rw [hsum, hsign] at h
  simpa [laneArith, hlt.notInt, hfl, zeroIsNegative, sub_eq_add_neg, add_comm] using h

end

/-! ### Quotients and scaled values (R148) -/

/-- The quotient of a number by one that is not zero is rounded once. -/
theorem fpDiv_roundsTo {f : FpFormat} (hf : f.Ieee) {r : Rounding} (hr : r.sat = false) {v w : FpVal} {a b : Bool} {X Y : Rat} (hv : v.IsNumber a X) (hw : w.IsNumber b Y)
    (hY : Y ≠ 0) : roundsToZero f r (X / Y) (a != b) (fpDiv f r v w) := by
  obtain ⟨m, e, rfl, rfl⟩ := hv
  obtain ⟨n, g, rfl, rfl⟩ := hw
  have hn : n ≠ 0 := by rwa [Ne, signedBy_eq_zero, finValue_eq_zero] at hY
  have hval : signedBy a (finValue m e) / signedBy b (finValue n g) = signedBy (a != b) ((m : Rat) / n * 2 ^ (e - g)) := by
    rw [finValue, finValue, zpow_sub₀ two_ne_zero]
    have hq : (m : Rat) / n * (2 ^ e / 2 ^ g) = m * 2 ^ e / (n * 2 ^ g) := div_mul_div_comm _ _ _ _
    rw [hq]
    cases a <;> cases b <;> simp [neg_div, div_neg]
  rw [hval, fpDiv, if_neg hn]
  refine ⟨fpRound_roundsTo hf.toProper hf.ieee hr _ m hn _, fun hz => ?_⟩
  have hm : m = 0 := by
    rw [signedBy_eq_zero, mul_eq_zero, or_iff_left (two_zpow_pos _).ne', div_eq_zero_iff, or_iff_left (Nat.cast_ne_zero.2 hn)] at hz
    exact_mod_cast hz
  simp [fpRound, hm]

theorem fpDiv_by_zero (f : FpFormat) (r : Rounding) {v w : FpVal} {a b : Bool} {X : Rat} (hv : v.IsNumber a X) (hw : w.IsNumber b 0) :
    fpDiv f r v w = if X = 0 then (f.nan, Flag.iv) else ((if a != b then f.signBit else 0) + f.inf, Flag.dz) := by
  obtain ⟨m, e, rfl, rfl⟩ := hv
  obtain ⟨n, g, rfl, hn⟩ := hw
  rw [eq_comm, signedBy_eq_zero, finValue_eq_zero] at hn
  rw [fpDiv, if_pos hn]
  exact if_congr (by rw [signedBy_eq_zero, finValue_eq_zero]) rfl rfl

/-- The magnitude of an infinity's encoding is the power of two over the largest number. -/
theorem FpFormat.Ieee.mag_inf {f : FpFormat} (hf : f.Ieee) : f.mag (f.maxFinite + 1) = 2 ^ (f.quantum + f.manBits + 2 ^ f.expBits - 2) := by
  have hpos := hf.inf_pos
  have hE : 2 ≤ 2 ^ f.expBits := by
    calc 2 = 2 ^ 1 := rfl
      _ ≤ 2 ^ f.expBits := Nat.pow_le_pow_right two_pos hf.exp
  have heq : f.maxFinite + 1 = (2 ^ f.expBits - 2) * 2 ^ f.manBits + 2 ^ f.manBits := by
    rw [FpFormat.maxFinite, hf.ieee, ← FpFormat.inf]
    dsimp only
    rw [Nat.sub_add_cancel hpos, FpFormat.inf, show 2 ^ f.expBits - 1 = 2 ^ f.expBits - 2 + 1 by omega, add_mul, one_mul]
  rw [heq, f.mag_binade (Nat.pow_le_pow_right two_pos (Nat.le_succ _)) (.inr le_rfl), Nat.cast_pow, Nat.cast_ofNat, ← zpow_natCast, ← zpow_add₀ two_ne_zero]
  congr 1
  push_cast [Nat.cast_sub hE]
  ring

/-- Scaling beyond the range of a format rounds as the model's clamped scaling does (R148). -/
theorem fpRound_clamp {f : FpFormat} (hf : f.Ieee) (hsmall : f.manBits + 2 ^ f.expBits ≤ 4096) (r : Rounding) (neg : Bool) {m : Nat} {e : Int} (hm : m < 2 ^ (f.manBits + 1))
    (hlo : f.quantum ≤ e) (hhi : e < f.quantum + 2 ^ f.expBits) (k : Int) : fpRound f r neg m 1 (e + max (-8192) (min 8192 k)) = fpRound f r neg m 1 (e + k) := by
  by_cases hm0 : m = 0
  · simp [fpRound, hm0]
  have hM := hf.man
  have hm1 : (1 : Rat) ≤ m := by exact_mod_cast Nat.one_le_iff_ne_zero.2 hm0
  have hm2 : (m : Rat) < 2 ^ ((f.manBits : Int) + 1) := by
    rw [show ((f.manBits : Int) + 1) = ((f.manBits + 1 : Nat) : Int) by push_cast; rfl, zpow_natCast]
    exact_mod_cast hm
  have hsmall' : (f.manBits : Int) + 2 ^ f.expBits ≤ 4096 := by exact_mod_cast hsmall
  have huge : ∀ g, 8192 ≤ g → fpRound f r neg m 1 (e + g) = overflowed f r neg := by
    intro g hg
    refine fpRound_huge hM r neg hm0 one_ne_zero ?_
    rw [hf.mag_inf, Nat.cast_one, div_one]
    calc (2 : Rat) ^ (f.quantum + f.manBits + 2 ^ f.expBits - 2) ≤ 2 ^ (e + g) := zpow_le_zpow_right₀ one_le_two (by omega)
      _ ≤ m * 2 ^ (e + g) := le_mul_of_one_le_left (two_zpow_pos _).le hm1
  have tiny : ∀ g, g ≤ -8192 → fpRound f r neg m 1 (e + g) = roundEncoding f r neg 0 1 (2 ^ 34) true := by
    intro g hg
    refine fpRound_tiny hM r neg hm0 one_ne_zero ?_
    rw [Nat.cast_one, div_one]
    calc (m : Rat) * 2 ^ (e + g) < 2 ^ ((f.manBits : Int) + 1) * 2 ^ (e + g) := mul_lt_mul_of_pos_right hm2 (two_zpow_pos _)
      _ = 2 ^ ((f.manBits : Int) + 1 + (e + g)) := (zpow_add₀ two_ne_zero _ _).symm
      _ ≤ 2 ^ (f.quantum - 33) := zpow_le_zpow_right₀ one_le_two (by omega)
  obtain hk | hk | hk : 8192 ≤ k ∨ k ≤ -8192 ∨ (-8192 ≤ k ∧ k ≤ 8192) := by omega
  · rw [min_eq_left hk, max_eq_right (by norm_num), huge _ le_rfl, huge k hk]
  · rw [min_eq_right (by omega), max_eq_left hk, tiny _ le_rfl, tiny k hk]
  · rw [min_eq_right hk.2, max_eq_right hk.1]

/-- A scaled number is one rounding of its product with the power of two. -/
theorem fpScale_roundsTo {f : FpFormat} (hf : f.Ieee) (hsmall : f.manBits + 2 ^ f.expBits ≤ 4096) {r : Rounding} (hr : r.sat = false) {flush : Bool} {x : Nat} {X : Rat}
    (h : realOf f flush x = some X) (k : Int) :
    roundsToZero f r (X * twoTo k) (x / f.signBit % 2 == 1) (fpWrite f r (fpScale k (fpRead f flush x))) := by
  obtain ⟨m, e, hread, rfl, hm, hlo, hhi⟩ := fpRead_of_realOf hf.toProper h
  have hw : fpWrite f r (fpScale k (fpRead f flush x)) = fpWrite f r (.fin (x / f.signBit % 2 == 1) m (e + k)) := by
    rw [hread]
    exact fpRound_clamp hf hsmall r _ hm hlo hhi k
  rw [hw]
  refine fpWrite_roundsTo hf hr ⟨m, e + k, rfl, ?_⟩
  rw [twoTo_eq, finValue, finValue, zpow_add₀ two_ne_zero]
  cases x / f.signBit % 2 == 1 <;> simp [mul_assoc]

/-! ### NaNs and infinities (R37, R47, R148) -/

theorem laneSum_nan (f : FpFormat) (r : Rounding) {ts : List FpVal} (inputs : List FpVal) (extra : Flags) (h : ts.any FpVal.isNan = true) :
    (laneSum f r ts inputs extra).1 = f.nan ∧ extra ||| (laneSum f r ts inputs extra).2 = (laneSum f r ts inputs extra).2 := by
  simp only [laneSum, fpSum, h, if_true, laneWrite, fpWrite]
  refine ⟨trivial, ?_⟩
  simp only [flags_zero_or, ← BitVec.or_assoc, BitVec.or_self]

theorem FpVal.eq_nan {v : FpVal} (h : v.isNan = true) : ∃ s, v = .nan s := by
  cases v with
  | nan s => exact ⟨s, rfl⟩
  | inf n => exact absurd h Bool.false_ne_true
  | fin n m e => exact absurd h Bool.false_ne_true

theorem laneWrite_nan (f : FpFormat) (r : Rounding) {v : FpVal × Flags} (inputs : List FpVal) (h : v.1.isNan = true) :
    (laneWrite f r v inputs).1 = f.nan ∧ v.2 ||| (laneWrite f r v inputs).2 = (laneWrite f r v inputs).2 := by
  obtain ⟨v, g⟩ := v
  obtain ⟨s, rfl⟩ := FpVal.eq_nan h
  exact ⟨rfl, by simp only [laneWrite, ← BitVec.or_assoc, BitVec.or_self]⟩

theorem fpMul_isNan {v w : FpVal} (h : v.isNan = true ∨ w.isNan = true) : (fpMul v w).1.isNan = true := by
  obtain h | h := h
  · obtain ⟨s, rfl⟩ := FpVal.eq_nan h
    rfl
  · obtain ⟨s, rfl⟩ := FpVal.eq_nan h
    cases v <;> rfl

theorem FpVal.isNan_neg (v : FpVal) : v.neg.isNan = v.isNan := by
  cases v <;> rfl

/-- An infinity times zero is invalid. -/
theorem fpMul_inf_zero (a : Bool) {w : FpVal} {b : Bool} (h : w.IsNumber b 0) : fpMul (.inf a) w = (.nan false, Flag.iv) := by
  obtain ⟨m, e, rfl, hm⟩ := h
  rw [eq_comm, signedBy_eq_zero, finValue_eq_zero] at hm
  simp [fpMul, hm]

section
variable {lt : Nat} (hlt : FloatLane lt)
include hlt

/-- A NaN operand of a sum, a product or a fused form gives the canonical NaN. -/
theorem laneArith_nan {vop : Nat} (hv : vop ≤ 4) (r : Rounding) {x y z : Nat} (h : isNanOf (laneFormat lt) x ∨ isNanOf (laneFormat lt) y ∨ isNanOf (laneFormat lt) z ∧ 3 ≤ vop) :
    (laneArith vop lt r x y z).1 = (laneFormat lt).nan := by
  simp only [← isNan_fpRead hlt.toProper r.flush] at h
  have hmul := fun h' => fpMul_isNan (v := fpRead (laneFormat lt) r.flush x) (w := fpRead (laneFormat lt) r.flush y) h'
  simp only [laneArith, hlt.notInt, Bool.false_eq_true, if_false]
  obtain rfl | rfl | rfl | rfl | rfl : vop = 0 ∨ vop = 1 ∨ vop = 2 ∨ vop = 3 ∨ vop = 4 := by omega
  · exact (laneSum_nan _ _ _ _ (by simpa using h)).1
  · exact (laneSum_nan _ _ _ _ (by simpa [FpVal.isNan_neg] using h)).1
  · exact (laneWrite_nan _ _ _ (hmul (by simpa using h))).1
  all_goals
    refine (laneSum_nan _ _ _ _ ?_).1
    obtain h | h | ⟨h, -⟩ := h
    · simp [FpVal.isNan_neg, hmul (.inl h)]
    · simp [FpVal.isNan_neg, hmul (.inr h)]
    · simp [h]

/-- Infinities of opposite signs sum to an invalid NaN, those of one sign to themselves. -/
theorem laneSum_infinities {r : Rounding} (hr : r.sat = false) (a b : Bool) (inputs : List FpVal) (hin : ∀ i ∈ inputs, i.inputFlag = 0) :
    laneSum (laneFormat lt) r [.inf a, .inf b] inputs 0 =
      if a = b then ((if a then (laneFormat lt).signBit else 0) + (laneFormat lt).inf, 0) else ((laneFormat lt).nan, Flag.iv) := by
  have hspec := hlt.ieee
  simp only [laneSum, laneWrite_quietInputs _ _ _ hin]
  cases a <;> cases b <;> simp [fpSum, fpWrite, FpVal.isNan, hr, hspec]

theorem laneArith_infinities {r : Rounding} (hr : r.sat = false) {x y z : Nat} (hx : x % (laneFormat lt).signBit = (laneFormat lt).inf)
    (hy : y % (laneFormat lt).signBit = (laneFormat lt).inf) :
    let a := x / (laneFormat lt).signBit % 2 == 1
    let b := y / (laneFormat lt).signBit % 2 == 1
    (laneArith 0 lt r x y z = if a = b then ((if a then (laneFormat lt).signBit else 0) + (laneFormat lt).inf, 0) else ((laneFormat lt).nan, Flag.iv)) ∧
    (laneArith 1 lt r x y z = if a = !b then ((if a then (laneFormat lt).signBit else 0) + (laneFormat lt).inf, 0) else ((laneFormat lt).nan, Flag.iv)) := by
  intro a b
  simp only [laneArith, hlt.notInt, Bool.false_eq_true, if_false, fpRead_inf hlt.ieee _ hx, fpRead_inf hlt.ieee _ hy]
  exact ⟨laneSum_infinities hlt hr a b _ (by simp [FpVal.inputFlag]), laneSum_infinities hlt hr a (!b) _ (by simp [FpVal.inputFlag])⟩

/-- An infinity times zero makes a product and each fused form the invalid NaN. -/
theorem laneArith_inf_zero {vop : Nat} (hv : vop ∈ [2, 3, 4]) (r : Rounding) {x y z : Nat} {b : Bool} (hx : x % (laneFormat lt).signBit = (laneFormat lt).inf)
    (hy : (fpRead (laneFormat lt) r.flush y).IsNumber b 0) :
    (laneArith vop lt r x y z).1 = (laneFormat lt).nan ∧ Flag.iv ||| (laneArith vop lt r x y z).2 = (laneArith vop lt r x y z).2 := by
  have hmul := fpMul_inf_zero (x / (laneFormat lt).signBit % 2 == 1) hy
  simp only [laneArith, hlt.notInt, Bool.false_eq_true, if_false, fpRead_inf hlt.ieee _ hx]
  simp only [List.mem_cons, List.not_mem_nil, or_false] at hv
  obtain rfl | rfl | rfl := hv
  · rw [hmul]
    exact laneWrite_nan _ _ (v := (.nan false, Flag.iv)) _ rfl
  · simp only [hmul]
    exact laneSum_nan _ _ _ _ rfl
  · simp only [hmul]
    exact laneSum_nan _ _ _ _ rfl

end

theorem fpDiv_nan (f : FpFormat) (r : Rounding) {v w : FpVal} (h : v.isNan = true ∨ w.isNan = true) : (fpDiv f r v w).1 = f.nan := by
  obtain h | h := h
  · obtain ⟨s, rfl⟩ := FpVal.eq_nan h
    rfl
  · obtain ⟨s, rfl⟩ := FpVal.eq_nan h
    cases v <;> rfl

/-! ### The obligation -/

/-- Operations 0 to 4 work lane by lane. -/
theorem laneEval_arith {vop : Nat} (hv : vop ≤ 4) (lt st cc : Nat) (r : Nat → Rounding) (p : BitVec 8) (a b c : Nat) :
    laneEval vop lt st cc r p a b c =
      mapLanes lt (fun j => laneArith vop lt (r j) (laneOf (laneWidth lt) a j) (laneOf (laneWidth lt) b j) (laneOf (laneWidth lt) c j)) := by
  obtain rfl | rfl | rfl | rfl | rfl : vop = 0 ∨ vop = 1 ∨ vop = 2 ∨ vop = 3 ∨ vop = 4 := by omega
  all_goals rfl

/-- A rounding by lanes that reads and rounds alike in every lane and never saturates. -/
def uniformRounding (r : Nat → Rounding) (mode : Nat) (fl : Bool) : Prop := ∀ i, (r i).mode = mode ∧ (r i).flush = fl ∧ (r i).sat = false

/-- The result of an operation on packed lanes holds one rounding of a number in lane j, a zero with the given sign. -/
def laneGives (lt : Nat) (out : Nat × Flags) (r : Rounding) (j : Nat) (X : Rat) (neg : Bool) : Prop :=
  ∃ g, roundsTo (laneFormat lt) r X (laneOf (laneWidth lt) out.1 j, g) ∧ g ||| out.2 = out.2 ∧ (X = 0 → laneOf (laneWidth lt) out.1 j = if neg then (laneFormat lt).signBit else 0)

section
variable {lt : Nat} (hlt : FloatLane lt) {r : Nat → Rounding} {mode : Nat} {fl : Bool} (hr : uniformRounding r mode fl) {j : Nat} (hj : j < 64 / laneWidth lt)
  (st cc : Nat) (p : BitVec 8) {a b : Nat} (c : Nat)
include hlt hj

/-- NaN operands (R37). -/
theorem laneEval_arith_nan {vop : Nat} (hv : vop ≤ 4) (h : isNanOf (laneFormat lt) (laneOf (laneWidth lt) a j) ∨ isNanOf (laneFormat lt) (laneOf (laneWidth lt) b j) ∨
    isNanOf (laneFormat lt) (laneOf (laneWidth lt) c j) ∧ 3 ≤ vop) : laneOf (laneWidth lt) (laneEval vop lt st cc r p a b c).1 j = (laneFormat lt).nan := by
  rw [laneEval_arith hv, (mapLanes_lane lt _ hj).1, laneArith_nan hlt hv (r j) h, Nat.mod_eq_of_lt hlt.nan_lt]

include hr

/-- Sums, differences, products and fused forms of number lanes (R140). -/
theorem laneEval_arith_gives {X Y : Rat} (hX : realOf (laneFormat lt) fl (laneOf (laneWidth lt) a j) = some X)
    (hY : realOf (laneFormat lt) fl (laneOf (laneWidth lt) b j) = some Y) :
    let neg (x : Nat) : Bool := laneOf (laneWidth lt) x j / (laneFormat lt).signBit == 1
    laneGives lt (laneEval 0 lt st cc r p a b c) (r j) j (X + Y) (zeroIsNegative mode [(X, neg a), (Y, neg b)]) ∧
    laneGives lt (laneEval 1 lt st cc r p a b c) (r j) j (X - Y) (zeroIsNegative mode [(X, neg a), (Y, !neg b)]) ∧
    laneGives lt (laneEval 2 lt st cc r p a b c) (r j) j (X * Y) (neg a != neg b) ∧
    (∀ Z, realOf (laneFormat lt) fl (laneOf (laneWidth lt) c j) = some Z →
      laneGives lt (laneEval 3 lt st cc r p a b c) (r j) j (X * Y + Z) (zeroIsNegative mode [(X * Y, neg a != neg b), (Z, neg c)]) ∧
      laneGives lt (laneEval 4 lt st cc r p a b c) (r j) j (Z - X * Y) (zeroIsNegative mode [(X * Y, neg a == neg b), (Z, neg c)])) := by
  intro neg
  obtain ⟨rfl, rfl, hsat⟩ := hr j
  have hx := hlt.isNumber hX
  have hy := hlt.isNumber hY
  have lanes : ∀ vop ≤ 4, ∀ {W neg}, roundsToZero (laneFormat lt) (r j) W neg (laneArith vop lt (r j) (laneOf (laneWidth lt) a j) (laneOf (laneWidth lt) b j) (laneOf (laneWidth lt) c j)) →
      laneGives lt (laneEval vop lt st cc r p a b c) (r j) j W neg := fun vop hv W neg h => by
    rw [laneEval_arith hv]
    exact mapLanes_rounds hlt.width hj h
  refine ⟨lanes 0 (by omega) (laneArith_add hlt hsat hx hy), lanes 1 (by omega) (laneArith_sub hlt hsat hx hy), lanes 2 (by omega) (laneArith_mul hlt hsat hx hy), fun Z hZ => ?_⟩
  have hz := hlt.isNumber hZ
  exact ⟨lanes 3 (by omega) (laneArith_fma hlt hsat hx hy hz), lanes 4 (by omega) (laneArith_fms hlt hsat hx hy hz)⟩

/-- A scaled lane (R148). -/
theorem laneEval_scale_gives {X : Rat} (hX : realOf (laneFormat lt) fl (laneOf (laneWidth lt) a j) = some X) :
    laneGives lt (laneEval 17 lt st cc r p a b c) (r j) j (X * twoTo (signedOf (laneWidth lt) (laneOf (laneWidth lt) b j))) (laneOf (laneWidth lt) a j / (laneFormat lt).signBit == 1) := by
  obtain ⟨rfl, rfl, -⟩ := hr 0
  have hin : ∀ i ∈ [fpRead (laneFormat lt) (r 0).flush (laneOf (laneWidth lt) a j)], i.inputFlag = 0 := by simp [(hlt.isNumber hX).inputFlag]
  have hs := fpScale_roundsTo hlt.toIeee hlt.small (hr j).2.2 hX (signedOf (laneWidth lt) (laneOf (laneWidth lt) b j))
  rw [sign_of_lt (by rw [hlt.width]; exact laneOf_lt _ _ _), ← laneWrite_clean _ _ _ hin] at hs
  exact mapLanes_rounds hlt.width hj hs

/-- Infinities of both operands (R47). -/
theorem laneEval_arith_infinities (ha : laneOf (laneWidth lt) a j % (laneFormat lt).signBit = (laneFormat lt).inf) (hb : laneOf (laneWidth lt) b j % (laneFormat lt).signBit = (laneFormat lt).inf) :
    let neg (x : Nat) : Bool := laneOf (laneWidth lt) x j / (laneFormat lt).signBit == 1
    let out (vop : Nat) : Nat × Flags := laneEval vop lt st cc r p a b c
    (neg a ≠ neg b → laneOf (laneWidth lt) (out 0).1 j = (laneFormat lt).nan ∧ Flag.iv ||| (out 0).2 = (out 0).2) ∧
    (neg a = neg b → laneOf (laneWidth lt) (out 0).1 j = laneOf (laneWidth lt) a j ∧ laneOf (laneWidth lt) (out 1).1 j = (laneFormat lt).nan ∧ Flag.iv ||| (out 1).2 = (out 1).2) := by
  intro neg out
  have hsign : ∀ x, (laneOf (laneWidth lt) x j / (laneFormat lt).signBit % 2 == 1) = neg x := fun x => sign_of_lt (by rw [hlt.width]; exact laneOf_lt _ _ _)
  obtain ⟨h0, h1⟩ := laneArith_infinities hlt (hr j).2.2 (z := laneOf (laneWidth lt) c j) ha hb
  rw [hsign, hsign] at h0 h1
  refine ⟨fun h => ?_, fun h => ⟨?_, ?_⟩⟩
  · rw [if_neg h] at h0
    exact mapLanes_value hj h0 hlt.nan_lt
  · rw [if_pos h, ← hsign, ← ha, encoding_eq (by rw [hlt.width]; exact laneOf_lt _ _ _)] at h0
    exact (mapLanes_value hj h0 (laneOf_lt _ _ _)).1
  · rw [if_neg (by rw [h]; exact Bool.self_ne_not _)] at h1
    exact mapLanes_value hj h1 hlt.nan_lt

/-- An infinity times zero (R47). -/
theorem laneEval_inf_zero (ha : laneOf (laneWidth lt) a j % (laneFormat lt).signBit = (laneFormat lt).inf) (hb : realOf (laneFormat lt) fl (laneOf (laneWidth lt) b j) = some 0)
    {vop : Nat} (hv : vop ∈ [2, 3, 4]) :
    laneOf (laneWidth lt) (laneEval vop lt st cc r p a b c).1 j = (laneFormat lt).nan ∧ Flag.iv ||| (laneEval vop lt st cc r p a b c).2 = (laneEval vop lt st cc r p a b c).2 := by
  obtain ⟨rfl, rfl, -⟩ := hr j
  have hv4 : vop ≤ 4 := by
    simp only [List.mem_cons, List.not_mem_nil, or_false] at hv
    omega
  obtain ⟨hnan, hfl⟩ := laneArith_inf_zero hlt hv (r j) (z := laneOf (laneWidth lt) c j) ha (hlt.isNumber hb)
  rw [laneEval_arith hv4]
  obtain ⟨hval, hall⟩ := mapLanes_lane lt (fun j => laneArith vop lt (r j) (laneOf (laneWidth lt) a j) (laneOf (laneWidth lt) b j) (laneOf (laneWidth lt) c j)) hj
  exact ⟨by rw [hval, hnan, Nat.mod_eq_of_lt hlt.nan_lt], or_raised hfl hall⟩

end

/-- The quotient of two lanes, with the flags of its operands (R148). -/
def divLane (r : Rounding) (flush : Bool) (x y : Nat) : Nat × Flags :=
  ((fpDiv .f32 r (fpRead .f32 flush x) (fpRead .f32 flush y)).1,
    (fpDiv .f32 r (fpRead .f32 flush x) (fpRead .f32 flush y)).2 ||| (fpRead .f32 flush x).inputFlag ||| (fpRead .f32 flush y).inputFlag)

theorem laneEval_divLane (lt st cc : Nat) (r : Nat → Rounding) (p : BitVec 8) (a b c : Nat) :
    laneEval 16 lt st cc r p a b c = mapLanes lt (fun j => divLane (r j) (r 0).flush (laneOf (laneWidth lt) a j) (laneOf (laneWidth lt) b j)) := rfl

/-- Numbers raise nothing of their own in a quotient. -/
theorem divLane_numbers {r : Rounding} {flush : Bool} {x y : Nat} {a b : Bool} {X Y : Rat} (hx : (fpRead .f32 flush x).IsNumber a X) (hy : (fpRead .f32 flush y).IsNumber b Y) :
    divLane r flush x y = fpDiv .f32 r (fpRead .f32 flush x) (fpRead .f32 flush y) := by
  rw [divLane, hx.inputFlag, hy.inputFlag, flags_or_zero, flags_or_zero]

/-- Quotients (R148): one rounding, or what a zero or a NaN makes of it. -/
theorem laneEval_div {r : Nat → Rounding} {mode : Nat} {fl : Bool} (hr : uniformRounding r mode fl) {j : Nat} (hj : j < 64 / laneWidth 5) (st cc : Nat) (p : BitVec 8) (a b c : Nat) :
    let neg (x : Nat) : Bool := laneOf 32 x j / FpFormat.f32.signBit == 1
    let out : Nat × Flags := laneEval 16 5 st cc r p a b c
    (∀ X Y, realOf .f32 fl (laneOf 32 a j) = some X → realOf .f32 fl (laneOf 32 b j) = some Y →
      (Y ≠ 0 → laneGives 5 out (r j) j (X / Y) (neg a != neg b)) ∧
      (Y = 0 → X ≠ 0 → laneOf 32 out.1 j = (if neg a != neg b then FpFormat.f32.signBit else 0) + FpFormat.f32.inf ∧ Flag.dz ||| out.2 = out.2) ∧
      (Y = 0 → X = 0 → laneOf 32 out.1 j = FpFormat.f32.nan ∧ Flag.iv ||| out.2 = out.2)) ∧
    (isNanOf .f32 (laneOf 32 a j) ∨ isNanOf .f32 (laneOf 32 b j) → laneOf 32 out.1 j = FpFormat.f32.nan) := by
  intro neg out
  have hlt : FloatLane 5 := floatLane (by simp)
  obtain ⟨rfl, rfl, -⟩ := hr 0
  refine ⟨fun X Y hX hY => ?_, fun h => ?_⟩
  · have hx : (fpRead .f32 (r 0).flush (laneOf 32 a j)).IsNumber (neg a) X := hlt.isNumber hX
    have hy : (fpRead .f32 (r 0).flush (laneOf 32 b j)).IsNumber (neg b) Y := hlt.isNumber hY
    have hlane := divLane_numbers (r := r j) hx hy
    refine ⟨fun hY0 => ?_, fun hY0 hX0 => ?_, fun hY0 hX0 => ?_⟩
    · have hd : roundsToZero .f32 (r j) (X / Y) (neg a != neg b) (divLane (r j) (r 0).flush (laneOf 32 a j) (laneOf 32 b j)) := by
        rw [hlane]
        exact fpDiv_roundsTo hlt.toIeee (hr j).2.2 hx hy hY0
      exact mapLanes_rounds hlt.width hj hd
    · subst hY0
      have hd := fpDiv_by_zero .f32 (r j) hx hy
      rw [if_neg hX0] at hd
      refine mapLanes_value hj (hlane.trans hd) ?_
      split <;> decide
    · subst hY0 hX0
      exact mapLanes_value hj (hlane.trans (fpDiv_by_zero .f32 (r j) hx hy)) hlt.nan_lt
  · rw [show out = _ from laneEval_divLane 5 st cc r p a b c, show laneOf 32 (mapLanes 5 _).1 j = _ from (mapLanes_lane 5 _ hj).1]
    have hn := fpDiv_nan .f32 (r j) (v := fpRead .f32 (r 0).flush (laneOf 32 a j)) (w := fpRead .f32 (r 0).flush (laneOf 32 b j))
      (h.imp (isNan_fpRead hlt.toProper _ _).2 (isNan_fpRead hlt.toProper _ _).2)
    exact (congrArg (· % 2 ^ 32) hn).trans (Nat.mod_eq_of_lt hlt.nan_lt)

theorem signedOf_eq_bmod {w : Nat} (hw : 0 < w) (x : Nat) : signedOf w x = Int.bmod (x % 2 ^ w : Nat) (2 ^ w) := by
  have hlt : x % 2 ^ w < 2 ^ w := Nat.mod_lt _ (by positivity)
  obtain ⟨v, rfl⟩ : ∃ v, w = v + 1 := ⟨w - 1, by omega⟩
  rw [signedOf, Nat.add_sub_cancel, Int.bmod_def]
  generalize x % 2 ^ (v + 1) = y at *
  rw [pow_succ] at *
  have hmod : (y : Int) % (2 ^ v * 2 : Nat) = y := Int.emod_eq_of_lt (by omega) (by exact_mod_cast hlt)
  have hhalf : ((2 ^ v * 2 : Nat) + 1 : Int) / 2 = (2 ^ v : Nat) := by omega
  rw [hmod, hhalf]
  split
  next h => rw [if_neg (by omega)]
  next h => rw [if_pos (by omega)]

theorem signedOf_laneOf {w : Nat} (hw : 0 < w) (x j : Nat) : signedOf w (laneOf w x j) = Int.bmod (laneOf w x j) (2 ^ w) := by
  rw [signedOf_eq_bmod hw, Nat.mod_eq_of_lt (laneOf_lt w x j)]

/-! ### Dot products and totals (R145, R146) -/

/-- Numbers in every lane form a list of numbers. -/
theorem areNumbers_map {l : List Nat} {F : Nat → FpVal} {G : Nat → Rat × Bool} (h : ∀ j ∈ l, (F j).IsNumber (G j).2 (G j).1) : areNumbers (l.map F) (l.map G) := by
  induction l with
  | nil => exact .nil
  | cons j l ih => exact .cons (h j List.mem_cons_self) (ih fun i hi => h i (List.mem_cons_of_mem _ hi))

/-- The dot product of number lanes is one rounding to FP32 of the sum of the exact products. -/
theorem laneDot_roundsTo {lt : Nat} (hf : (laneFormat lt).Proper) (hi : laneIsInt lt = false) {r : Rounding} (hr : r.sat = false) {a b : Nat} {X Y : Nat → Rat}
    (h : ∀ j, j < 64 / laneWidth lt → realOf (laneFormat lt) r.flush (laneOf (laneWidth lt) a j) = some (X j) ∧ realOf (laneFormat lt) r.flush (laneOf (laneWidth lt) b j) = some (Y j)) :
    roundsTo .f32 r ((List.range (64 / laneWidth lt)).map (fun j => X j * Y j)).sum (laneDot lt r a b) := by
  set js := List.range (64 / laneWidth lt) with hjs
  have hx : ∀ j ∈ js, (fpRead (laneFormat lt) r.flush (laneOf (laneWidth lt) a j)).IsNumber _ (X j) := fun j hj => isNumber_of_realOf hf (h j (List.mem_range.1 hj)).1
  have hy : ∀ j ∈ js, (fpRead (laneFormat lt) r.flush (laneOf (laneWidth lt) b j)).IsNumber _ (Y j) := fun j hj => isNumber_of_realOf hf (h j (List.mem_range.1 hj)).2
  have hts := areNumbers_map (G := fun j => (X j * Y j, _)) fun j hj => ((hx j hj).mul (hy j hj)).1
  have hflags : (js.map fun j => fpMul (fpRead (laneFormat lt) r.flush (laneOf (laneWidth lt) a j)) (fpRead (laneFormat lt) r.flush (laneOf (laneWidth lt) b j))).foldl
      (fun g p => g ||| p.2) 0 = (0 : Flags) := by
    refine foldl_or_zero fun q hq => ?_
    obtain ⟨j, hj, rfl⟩ := List.mem_map.1 hq
    exact ((hx j hj).mul (hy j hj)).2
  have hin : ∀ i ∈ js.map (fun j => fpRead (laneFormat lt) r.flush (laneOf (laneWidth lt) a j)) ++ js.map (fun j => fpRead (laneFormat lt) r.flush (laneOf (laneWidth lt) b j)),
      i.inputFlag = 0 := by
    intro i hi
    obtain hi | hi := List.mem_append.1 hi
    · obtain ⟨j, hj, rfl⟩ := List.mem_map.1 hi
      exact (hx j hj).inputFlag
    · obtain ⟨j, hj, rfl⟩ := List.mem_map.1 hi
      exact (hy j hj).inputFlag
  have hsum := (laneSum_roundsTo (floatLane (lt := 5) (by simp)).toIeee hr hts hin).1
  rw [List.map_map] at hsum
  simp only [laneDot, hi, Bool.false_eq_true, if_false, ← hjs, List.zipWith_map, List.zipWith_self, hflags, List.map_map]
  exact hsum

/-- The total of number lanes is one rounding of their exact sum. -/
theorem laneTotal_roundsTo {lt : Nat} (hlt : FloatLane lt) {r : Rounding} (hr : r.sat = false) {a : Nat} {X : Nat → Rat}
    (h : ∀ j, j < 64 / laneWidth lt → realOf (laneFormat lt) r.flush (laneOf (laneWidth lt) a j) = some (X j)) :
    roundsTo (laneFormat lt) r ((List.range (64 / laneWidth lt)).map X).sum (laneTotal lt r a) := by
  have hx : ∀ j ∈ List.range (64 / laneWidth lt), (fpRead (laneFormat lt) r.flush (laneOf (laneWidth lt) a j)).IsNumber _ (X j) :=
    fun j hj => isNumber_of_realOf hlt.toProper (h j (List.mem_range.1 hj))
  have hts := areNumbers_map (G := fun j => (X j, _)) hx
  have hsum := (laneSum_roundsTo hlt.toIeee hr hts (inputs := (List.range (64 / laneWidth lt)).map fun j => fpRead (laneFormat lt) r.flush (laneOf (laneWidth lt) a j)) (by
    intro i hi
    obtain ⟨j, hj, rfl⟩ := List.mem_map.1 hi
    exact (hx j hj).inputFlag)).1
  rw [List.map_map] at hsum
  simp only [laneTotal, hlt.notInt, Bool.false_eq_true, if_false]
  exact hsum

/-- Settles O8: every operation by its exact value and one rounding of it, and its NaNs and infinities by what they read as. -/
theorem floatLaneArithmetic : Obligations.FloatLaneArithmetic := by
  unfold Obligations.FloatLaneArithmetic
  intro lt st cc mode fl r p a b c _ hr f w lane neg value out raised gives
  refine ⟨fun hmem j hj => ?_, fun hmem X Y hXY => ?_, fun hmem X hX => ?_⟩
  · have hlt := floatLane hmem
    refine ⟨fun X Y hX hY => ?_, fun X hX => ?_, fun hn vop hv => ?_, fun hn => ?_, laneEval_arith_infinities hlt hr hj st cc p c, fun ha hb vop hv => laneEval_inf_zero hlt hr hj st cc p c ha hb hv⟩
    · obtain ⟨hadd, hsub, hmul, hfused⟩ := laneEval_arith_gives hlt hr hj st cc p c hX hY
      refine ⟨hadd, hsub, hmul, ?_, ?_, ?_, hfused⟩
      · rintro rfl
        exact ((laneEval_div hr hj st cc p a b c).1 X Y hX hY).1
      · rintro rfl
        exact ((laneEval_div hr hj st cc p a b c).1 X Y hX hY).2.1
      · rintro rfl
        exact ((laneEval_div hr hj st cc p a b c).1 X Y hX hY).2.2
    · have hs := laneEval_scale_gives hlt hr hj st cc p c hX (b := b)
      rw [signedOf_laneOf (by rw [← hlt.width, FpFormat.width]; omega)] at hs
      exact hs
    · obtain hv | ⟨rfl, rfl⟩ := hv
      · exact laneEval_arith_nan hlt hj st cc p c hv (hn.imp_right .inl)
      · exact (laneEval_div hr hj st cc p a b c).2 hn
    · exact ⟨laneEval_arith_nan hlt hj st cc p c (by norm_num) (.inr (.inr ⟨hn, by norm_num⟩)), laneEval_arith_nan hlt hj st cc p c (by norm_num) (.inr (.inr ⟨hn, by norm_num⟩))⟩
  · obtain ⟨-, rfl, hsat⟩ := hr 0
    obtain ⟨hf, hi⟩ : (laneFormat lt).Proper ∧ laneIsInt lt = false := by
      simp only [List.mem_cons, List.not_mem_nil, or_false] at hmem
      obtain rfl | rfl | rfl | rfl := hmem <;> exact ⟨⟨by decide, by decide⟩, rfl⟩
    exact laneDot_roundsTo hf hi hsat hXY
  · obtain ⟨-, rfl, hsat⟩ := hr 0
    exact laneTotal_roundsTo (floatLane hmem) hsat hX

end Sys2Proof.Machine
end

section
/-! PROOFS. Conversions, estimates and vexp2 (O9): values that a format holds exactly, and the tables of R51 and R52. -/

namespace Sys2Proof.Machine
open Sys2Proof.Claims

/-! ### Values that a format holds -/

/-- A significand of the format's precision within its range is the magnitude of an encoding. -/
theorem FpFormat.exists_mag (f : FpFormat) {m : Nat} {e : Int} (hm : m < 2 ^ (f.manBits + 1)) (he : f.quantum ≤ e) (hmax : finValue m e < f.mag (f.maxFinite + 1)) :
    ∃ k ≤ f.maxFinite, f.mag k = finValue m e := by
  suffices h : ∃ k, f.mag k = finValue m e by
    obtain ⟨k, hk⟩ := h
    rw [← hk] at hmax
    exact ⟨k, Nat.lt_succ_iff.1 (f.mag_strictMono.lt_iff_lt.1 hmax), hk⟩
  by_cases hm0 : m = 0
  · exact ⟨0, by simp [hm0, finValue]⟩
  have hl : m.log2 ≤ f.manBits := Nat.lt_succ_iff.1 ((Nat.log2_lt hm0).2 hm)
  have hlow := Nat.log2_self_le hm0
  have hhigh : m < 2 ^ (m.log2 + 1) := Nat.lt_log2_self
  obtain ⟨d, hd⟩ : ∃ d : Nat, e = f.quantum + d := ⟨(e - f.quantum).toNat, by omega⟩
  set t := min (f.manBits - m.log2) d with ht
  have hk : m * 2 ^ t ≤ 2 ^ (f.manBits + 1) := by
    calc m * 2 ^ t ≤ 2 ^ (m.log2 + 1) * 2 ^ t := Nat.mul_le_mul_right _ hhigh.le
      _ = 2 ^ (m.log2 + 1 + t) := (pow_add _ _ _).symm
      _ ≤ 2 ^ (f.manBits + 1) := Nat.pow_le_pow_right two_pos (by omega)
  have hnormal : d - t = 0 ∨ 2 ^ f.manBits ≤ m * 2 ^ t := by
    refine or_iff_not_imp_left.2 fun h => ?_
    calc 2 ^ f.manBits = 2 ^ m.log2 * 2 ^ t := by rw [← pow_add]; congr 1; omega
      _ ≤ m * 2 ^ t := Nat.mul_le_mul_right _ hlow
  refine ⟨(d - t) * 2 ^ f.manBits + m * 2 ^ t, ?_⟩
  rw [f.mag_binade hk hnormal, finValue, Nat.cast_mul, Nat.cast_pow, Nat.cast_ofNat, ← zpow_natCast, mul_assoc, ← zpow_add₀ two_ne_zero]
  congr 2
  omega

/-- A significand of the format's precision within its range is written as it is, without a flag; under flush, where it is normal. -/
theorem fpRound_representable {f : FpFormat} (hf : f.Proper) {r : Rounding} (neg : Bool) {m : Nat} {e : Int} (hm : m < 2 ^ (f.manBits + 1)) (he : f.quantum ≤ e)
    (hmax : finValue m e < f.mag (f.maxFinite + 1)) (hflush : r.flush = true → 2 ^ (1 - (f.bias : Int)) ≤ finValue m e) :
    ∃ k ≤ f.maxFinite, f.mag k = finValue m e ∧ fpRound f r neg m 1 e = ((if neg then f.signBit else 0) + k, 0) ∧
      realOf f false ((if neg then f.signBit else 0) + k) = some (signedBy neg (finValue m e)) := by
  obtain ⟨k, hk, hval⟩ := f.exists_mag hm he hmax
  refine ⟨k, hk, hval, fpRound_exact hf.man neg one_ne_zero (by simp [hval, finValue]) hk fun h => .inr ?_, by rw [realOf_signed hf neg hk, hval]⟩
  have := hflush h
  rw [← f.mag_normal, ← hval] at this
  exact f.mag_strictMono.le_iff_le.1 this

theorem signed_lt_width {f : FpFormat} (hf : f.Proper) (neg : Bool) {k : Nat} (hk : k ≤ f.maxFinite) : (if neg then f.signBit else 0) + k < 2 ^ f.width := by
  have := hk.trans_lt hf.maxFinite_lt
  rw [f.two_signBit]
  split <;> omega

/-! ### Conversions (R149) -/

/-- Does a format hold every finite value of another? -/
structure FpFormat.Widens (g f : FpFormat) : Prop where
  man : g.manBits ≤ f.manBits
  low : f.quantum ≤ g.quantum
  high : g.mag (g.maxFinite + 1) ≤ f.mag (f.maxFinite + 1)

/-- A finite value is written to a wider format as it is. -/
theorem fpWrite_widens {g f : FpFormat} (hg : g.Proper) (hf : f.Proper) (hw : g.Widens f) {r : Rounding} (hr : r.flush = false) {flush : Bool} {x : Nat} {X : Rat}
    (h : realOf g flush x = some X) :
    ∃ k ≤ f.maxFinite, fpWrite f r (fpRead g flush x) = ((if (x / g.signBit % 2 == 1) = true then f.signBit else 0) + k, 0) ∧
      realOf f false ((if (x / g.signBit % 2 == 1) = true then f.signBit else 0) + k) = some X := by
  have hfin : x % g.signBit ≤ g.maxFinite := by
    rw [realOf_eq hg] at h
    exact by_contra fun hn => absurd h (by rw [if_neg hn]; simp)
  obtain ⟨m, e, hread, hval, hm, hlo, -⟩ := fpRead_finite hg flush hfin
  obtain ⟨m', e', hread', hX, -⟩ := fpRead_of_realOf hg h
  obtain ⟨-, rfl, rfl⟩ := FpVal.fin.inj (hread.symm.trans hread')
  have hmax : finValue m e < f.mag (f.maxFinite + 1) := by
    refine lt_of_lt_of_le ?_ hw.high
    refine lt_of_le_of_lt ?_ (g.mag_strictMono (Nat.lt_succ_of_le hfin))
    rw [hval]
    split
    · exact g.mag_nonneg _
    · exact le_rfl
  obtain ⟨k, hk, -, hround, hreal⟩ := fpRound_representable hf (r := r) (x / g.signBit % 2 == 1)
    (hm.trans_le (Nat.pow_le_pow_right two_pos (by have := hw.man; omega))) (hw.low.trans hlo) hmax (by simp [hr])
  exact ⟨k, hk, by rw [hread, fpWrite, hround], by rw [hreal, hX]⟩

/-- A format of IEEE 754's kind holds what one of its kind with no more precision and range does. -/
theorem FpFormat.Ieee.widens {g f : FpFormat} (hg : g.Ieee) (hf : f.Ieee) (hman : g.manBits ≤ f.manBits) (hlow : f.quantum ≤ g.quantum)
    (hhigh : g.quantum + g.manBits + 2 ^ g.expBits ≤ f.quantum + f.manBits + 2 ^ f.expBits) : g.Widens f where
  man := hman
  low := hlow
  high := by
    rw [hg.mag_inf, hf.mag_inf]
    exact zpow_le_zpow_right₀ one_le_two (by omega)

theorem e4m3_mag_max : FpFormat.e4m3.mag (FpFormat.e4m3.maxFinite + 1) = 480 := by
  norm_num [FpFormat.mag, FpFormat.maxFinite, FpFormat.signBit, FpFormat.quantum, FpFormat.e4m3]

/-- E4M3, whose top exponent field holds numbers, lies within the formats it converts to. -/
theorem e4m3_widens {f : FpFormat} (hf : f.Ieee) (hman : 3 ≤ f.manBits) (hlow : f.quantum ≤ -9) (hhigh : 11 ≤ f.quantum + f.manBits + 2 ^ f.expBits) : FpFormat.e4m3.Widens f where
  man := hman
  low := hlow
  high := by
    rw [e4m3_mag_max, hf.mag_inf]
    calc (480 : Rat) ≤ 2 ^ (9 : Int) := by norm_num
      _ ≤ 2 ^ (f.quantum + f.manBits + 2 ^ f.expBits - 2) := zpow_le_zpow_right₀ one_le_two (by omega)

/-- A floating-point type of vcvt that widens. -/
def floatConversions : List (Nat × Nat) := [(7, 3), (7, 4), (7, 5), (8, 3), (8, 4), (8, 5), (3, 5), (3, 6), (4, 5), (4, 6), (5, 6)]

theorem laneFormat_ieee {lt : Nat} (h : lt ∈ [3, 4, 5, 6, 8]) : (laneFormat lt).Ieee ∧ (laneFormat lt).width = laneWidth lt ∧ laneIsInt lt = false := by
  simp only [List.mem_cons, List.not_mem_nil, or_false] at h
  obtain rfl | rfl | rfl | rfl | rfl := h <;> exact ⟨{ exp := by decide, man := by decide, ieee := rfl }, rfl, rfl⟩

theorem e4m3_proper : FpFormat.e4m3.Proper := ⟨by decide, by decide⟩

/-- Every pair of R149 widens. -/
theorem floatConversions_widen : ∀ c ∈ floatConversions, c.2 ∈ [3, 4, 5, 6] ∧ (laneFormat c.1).Proper ∧ (laneFormat c.1).width = laneWidth c.1 ∧ laneIsInt c.1 = false ∧
    (laneFormat c.1).Widens (laneFormat c.2) := by
  have hi : ∀ {lt}, lt ∈ [3, 4, 5, 6, 8] → (laneFormat lt).Ieee := fun h => (laneFormat_ieee h).1
  intro c hc
  simp only [floatConversions, List.mem_cons, List.not_mem_nil, or_false] at hc
  obtain rfl | rfl | rfl | rfl | rfl | rfl | rfl | rfl | rfl | rfl | rfl := hc
  iterate 3 exact ⟨by decide, e4m3_proper, rfl, rfl, e4m3_widens (hi (by decide)) (by decide) (by decide) (by decide)⟩
  all_goals exact ⟨by decide, (hi (by decide)).toProper, rfl, rfl, (hi (by decide)).widens (hi (by decide)) (by decide) (by decide) (by decide)⟩

/-- Converted numbers keep their value and their sign, and NaNs become the canonical one. -/
theorem laneEval_convert_float {st lt : Nat} (hmem : (st, lt) ∈ floatConversions) {r : Nat → Rounding} {mode : Nat} {fl : Bool} (hr : uniformRounding r mode fl) {j : Nat}
    (hj : j < 64 / laneWidth lt) (cc : Nat) (p : BitVec 8) (a b c : Nat) :
    let x := laneOf (laneWidth st) a j
    let y := laneOf (laneWidth lt) (laneEval 18 lt st cc r p a b c).1 j
    (∀ X, realOf (laneFormat st) fl x = some X → realOf (laneFormat lt) false y = some X ∧ y / (laneFormat lt).signBit = x / (laneFormat st).signBit) ∧
    (isNanOf (laneFormat st) x → y = (laneFormat lt).nan) := by
  intro x y
  obtain ⟨hltm, hg, hgw, hgi, hw⟩ := floatConversions_widen _ hmem
  have hlt := floatLane hltm
  obtain ⟨-, rfl, -⟩ := hr 0
  have hlane : laneConvert lt st (r 0).flush x = laneWrite (laneFormat lt) { mode := 0 } (fpRead (laneFormat st) (r 0).flush x, 0) [fpRead (laneFormat st) (r 0).flush x] := by
    simp only [laneConvert, hgi, Bool.false_eq_true, if_false]
  refine ⟨fun X hX => ?_, fun hn => ?_⟩
  · obtain ⟨k, hk, hwrite, hreal⟩ := fpWrite_widens hg hlt.toProper hw (r := { mode := 0 }) rfl hX
    have hclean := laneWrite_clean (laneFormat lt) { mode := 0 } (fpRead (laneFormat st) (r 0).flush x) (inputs := [fpRead (laneFormat st) (r 0).flush x])
      (by simp [(isNumber_of_realOf hg hX).inputFlag])
    have hy : y = _ := (mapLanes_value hj (hlane.trans (hclean.trans hwrite)) (by rw [← hlt.width]; exact signed_lt_width hlt.toProper _ hk)).1
    have hx := (laneOf_lt (laneWidth st) a j).trans_eq ((congrArg (2 ^ ·) hgw.symm).trans (laneFormat st).two_signBit)
    have hx2 : x / (laneFormat st).signBit < 2 := (Nat.div_lt_iff_lt_mul (laneFormat st).signBit_pos).2 hx
    refine ⟨by rw [hy]; exact hreal, ?_⟩
    rw [hy, signed_div _ (hk.trans_lt hlt.maxFinite_lt), Nat.mod_eq_of_lt hx2]
    obtain h | h := Nat.le_one_iff_eq_zero_or_eq_one.1 (Nat.lt_succ_iff.1 hx2) <;> rw [h] <;> rfl
  · have hy : y = _ := (mapLanes_lane lt (fun j => laneConvert lt st (r 0).flush (laneOf (laneWidth st) a j)) hj).1
    rw [hy, hlane, (laneWrite_nan _ _ _ ((isNan_fpRead hg _ _).2 hn)).1, Nat.mod_eq_of_lt hlt.nan_lt]

/-! ### Conversions of integers -/

/-- What every lane raises, none together raise anything else. -/
theorem mapLanes_flags {P : Flags → Prop} (h0 : P 0) (hor : ∀ g h, P g → P h → P (g ||| h)) (lt : Nat) {F : Nat → Nat × Flags} (h : ∀ j, P (F j).2) : P (mapLanes lt F).2 := by
  unfold mapLanes
  induction List.range (64 / laneWidth lt) with
  | nil => exact h0
  | cons j l ih => exact hor _ _ (h j) ih

/-- The pairs of vcvt that take an integer. -/
def intConversions : List (Nat × Nat) := [(0, 1), (0, 2), (1, 2), (0, 3), (0, 4), (0, 5), (1, 5), (2, 6)]

/-- An integer type converts to an integer type, or to a format that holds all its values. -/
theorem intConversions_widen : ∀ c ∈ intConversions, laneIsInt c.1 = true ∧ 0 < laneWidth c.1 ∧ (c.2 ≤ 2 ∧ laneIsInt c.2 = true ∨
    3 ≤ c.2 ∧ c.2 ∈ [3, 4, 5, 6] ∧ laneWidth c.1 ≤ (laneFormat c.2).manBits + 1 ∧ (laneFormat c.2).quantum ≤ 0 ∧
      (laneWidth c.1 : Int) + 2 ≤ (laneFormat c.2).quantum + (laneFormat c.2).manBits + 2 ^ (laneFormat c.2).expBits) := by
  decide

/-- An integer of a type has a magnitude of its width. -/
theorem natAbs_signedOf_lt {w : Nat} (hw : 0 < w) (x : Nat) : (signedOf w x).natAbs < 2 ^ w ∧ (signedOf w x).natAbs ≤ 2 ^ (w - 1) := by
  have hlt : x % 2 ^ w < 2 ^ w := Nat.mod_lt _ (by positivity)
  obtain ⟨v, rfl⟩ : ∃ v, w = v + 1 := ⟨w - 1, by omega⟩
  rw [signedOf, Nat.add_sub_cancel]
  generalize x % 2 ^ (v + 1) = y at *
  rw [pow_succ] at *
  split <;> omega

theorem isNumber_fpOfInt (v : Int) : (fpOfInt v).IsNumber (decide (v < 0)) v := by
  refine ⟨v.natAbs, 0, rfl, ?_⟩
  rw [finValue, zpow_zero, mul_one, Nat.cast_natAbs, Int.cast_abs]
  obtain h | h := lt_or_ge v 0
  · rw [abs_of_neg (by exact_mod_cast h)]
    simp [h]
  · rw [abs_of_nonneg (by exact_mod_cast h)]
    simp [not_lt.2 h]

/-- Converted integers keep their value and raise nothing. -/
theorem laneEval_convert_int {st lt : Nat} (hmem : (st, lt) ∈ intConversions) (r : Nat → Rounding) {j : Nat} (hj : j < 64 / laneWidth lt) (cc : Nat) (p : BitVec 8) (a b c : Nat) :
    let v : Int := signedOf (laneWidth st) (laneOf (laneWidth st) a j)
    let y := laneOf (laneWidth lt) (laneEval 18 lt st cc r p a b c).1 j
    (lt ≤ 2 → (y : Int) = v % 2 ^ laneWidth lt) ∧ (3 ≤ lt → realOf (laneFormat lt) false y = some (v : Rat)) ∧ (laneEval 18 lt st cc r p a b c).2 = 0 := by
  intro v y
  obtain ⟨hst, hstw, hcase⟩ := intConversions_widen _ hmem
  dsimp only at hst hstw hcase
  obtain ⟨hlt2, hlti⟩ | ⟨hlt3, hltm, hbits, hq, hrange⟩ := hcase
  · have hlane : ∀ x, laneConvert lt st (r 0).flush x = ((signedOf (laneWidth st) x % 2 ^ laneWidth lt).toNat, 0) := fun x => by
      simp only [laneConvert, hst, hlti, if_true, wrapLane]
    have hpos : (0 : Int) < 2 ^ laneWidth lt := by positivity
    have hnonneg : 0 ≤ v % 2 ^ laneWidth lt := Int.emod_nonneg _ hpos.ne'
    refine ⟨fun _ => ?_, fun h => absurd h (by omega), mapLanes_flags (P := (· = 0)) rfl (by rintro g h rfl rfl; rfl) lt fun i => by rw [hlane]⟩
    have hfits : (v % 2 ^ laneWidth lt).toNat < 2 ^ laneWidth lt := by
      zify
      rw [Int.toNat_of_nonneg hnonneg]
      exact Int.emod_lt_of_pos v hpos
    have hy : y = _ := (mapLanes_value hj (hlane (laneOf (laneWidth st) a j)) hfits).1
    rw [hy, Int.toNat_of_nonneg hnonneg]
  · have hlt := floatLane hltm
    have hlane : ∀ x, laneConvert lt st (r 0).flush x = fpWrite (laneFormat lt) { mode := 0 } (fpOfInt (signedOf (laneWidth st) x)) := fun x => by
      simp only [laneConvert, hst, hlt.notInt, if_true, Bool.false_eq_true, if_false]
    have hwrite : ∀ x, ∃ k ≤ (laneFormat lt).maxFinite, laneConvert lt st (r 0).flush x =
        ((if decide (signedOf (laneWidth st) x < 0) = true then (laneFormat lt).signBit else 0) + k, 0) ∧
        realOf (laneFormat lt) false ((if decide (signedOf (laneWidth st) x < 0) = true then (laneFormat lt).signBit else 0) + k) = some (signedOf (laneWidth st) x : Rat) := by
      intro x
      obtain ⟨m, e, hm, hX⟩ := isNumber_fpOfInt (signedOf (laneWidth st) x)
      obtain ⟨-, rfl, rfl⟩ := FpVal.fin.inj hm
      obtain ⟨habs, hle⟩ := natAbs_signedOf_lt hstw x
      have hmax : finValue (signedOf (laneWidth st) x).natAbs 0 < (laneFormat lt).mag ((laneFormat lt).maxFinite + 1) := by
        rw [hlt.mag_inf, finValue, zpow_zero, mul_one]
        calc ((signedOf (laneWidth st) x).natAbs : Rat) ≤ ((2 ^ (laneWidth st - 1) : Nat) : Rat) := Nat.cast_le.2 hle
          _ = 2 ^ ((laneWidth st - 1 : Nat) : Int) := by rw [zpow_natCast]; push_cast; rfl
          _ < 2 ^ ((laneFormat lt).quantum + (laneFormat lt).manBits + 2 ^ (laneFormat lt).expBits - 2) := zpow_lt_zpow_right₀ one_lt_two (by omega)
      obtain ⟨k, hk, -, hround, hreal⟩ := fpRound_representable hlt.toProper (r := { mode := 0 }) (decide (signedOf (laneWidth st) x < 0))
        (habs.trans_le (Nat.pow_le_pow_right two_pos hbits)) hq hmax (by simp)
      exact ⟨k, hk, by rw [hlane]; exact hround, by rw [hreal, ← hX]⟩
    obtain ⟨k, hk, hconv, hreal⟩ := hwrite (laneOf (laneWidth st) a j)
    have hy : y = _ := (mapLanes_value hj hconv (by rw [← hlt.width]; exact signed_lt_width hlt.toProper _ hk)).1
    refine ⟨fun h => absurd h (by omega), fun _ => by rw [hy]; exact hreal, mapLanes_flags (P := (· = 0)) rfl (by rintro g h rfl rfl; rfl) lt fun i => ?_⟩
    obtain ⟨k', -, hconv', -⟩ := hwrite (laneOf (laneWidth st) a i)
    rw [hconv']

/-! ### Tables found by bits -/

/-- The number found passes the test, and its successor does not. -/
theorem bitSearch_spec (test : Nat → Bool) (b acc : Nat) (hlo : test acc = true) (hhi : test (acc + 2 ^ b) = false) :
    test (bitSearch test b acc) = true ∧ test (bitSearch test b acc + 1) = false := by
  induction b generalizing acc with
  | zero => exact ⟨hlo, hhi⟩
  | succ b ih =>
    rw [bitSearch]
    split
    next h => exact ih _ h (by rw [add_assoc, ← two_mul, ← pow_succ']; exact hhi)
    next h => exact ih _ hlo (Bool.eq_false_iff.2 h)

/-- The reciprocal of the middle of an interval, in 512ths, is the nearest one (R51). -/
theorem recip9_spec {i : Nat} (hi : i < 128) : 2 * ((recip9 (128 + i) : Int) * (257 + 2 * i) - 131072).natAbs ≤ 257 + 2 * i ∧ 1 ≤ recip9 (128 + i) ∧ recip9 (128 + i) ≤ 512 := by
  have heq : recip9 (128 + i) = (262144 + (257 + 2 * i)) / (2 * (257 + 2 * i)) := by
    rw [recip9, show 2 * (128 + i) + 1 = 257 + 2 * i by ring]
  have hpos : 0 < 2 * (257 + 2 * i) := by omega
  have hdiv := Nat.div_add_mod (262144 + (257 + 2 * i)) (2 * (257 + 2 * i))
  have hmod := Nat.mod_lt (262144 + (257 + 2 * i)) hpos
  rw [← heq] at hdiv
  generalize recip9 (128 + i) = k at *
  generalize (262144 + (257 + 2 * i)) % (2 * (257 + 2 * i)) = m at *
  have hprod : (2 * (257 + 2 * i)) * k = 2 * ((257 + 2 * i) * k) := by ring
  rw [hprod] at hdiv
  have hint : (k : Int) * (257 + 2 * i) = ((257 + 2 * i) * k : Nat) := by push_cast; ring
  refine ⟨by rw [hint]; omega, by_contra fun h => ?_, by_contra fun h => ?_⟩
  · obtain rfl : k = 0 := by omega
    omega
  · have : (257 + 2 * i) * 513 ≤ (257 + 2 * i) * k := Nat.mul_le_mul_left _ (by omega)
    omega

/-- The reciprocal root of the middle of an interval, in 512ths, is the nearest one (R51). -/
theorem rsqrt9_spec {i o : Nat} (hi : i < 128) (ho : o < 2) : let n := rsqrt9 (128 + i) o
    1 ≤ n ∧ (2 * n - 1) ^ 2 * ((257 + 2 * i) * 2 ^ o) ≤ 2 ^ 28 ∧ 2 ^ 28 < (2 * n + 1) ^ 2 * ((257 + 2 * i) * 2 ^ o) ∧ n ≤ 512 := by
  intro n
  have ho2 : 1 ≤ 2 ^ o ∧ 2 ^ o ≤ 2 := by
    obtain rfl | rfl : o = 0 ∨ o = 1 := by omega
    · exact ⟨le_rfl, by norm_num⟩
    · exact ⟨by norm_num, le_rfl⟩
  set D := (257 + 2 * i) * 2 ^ o with hD
  have hDlo : 257 ≤ D := by nlinarith
  have hDhi : D ≤ 1022 := by nlinarith
  have hspec := bitSearch_spec (fun k => decide ((2 * k - 1) * (2 * k - 1) * ((2 * (128 + i) + 1) * 2 ^ o) ≤ 2 ^ 28)) 10 0 (by simp)
    (by rw [decide_eq_false_iff_not, show 2 * (128 + i) + 1 = 257 + 2 * i by ring, ← hD]; omega)
  simp only [show 2 * (128 + i) + 1 = 257 + 2 * i by ring, ← hD, decide_eq_true_eq, decide_eq_false_iff_not, not_le] at hspec
  have hn : n = bitSearch (fun k => decide ((2 * k - 1) * (2 * k - 1) * D ≤ 2 ^ 28)) 10 0 := by
    simp only [n, rsqrt9, show 2 * (128 + i) + 1 = 257 + 2 * i by ring, ← hD]
  rw [← hn, show 2 * (n + 1) - 1 = 2 * n + 1 by omega] at hspec
  have h1 : 1 ≤ n := by
    by_contra h
    obtain h0 : n = 0 := by omega
    rw [h0] at hspec
    omega
  refine ⟨h1, by rw [pow_two]; exact hspec.1, by rw [pow_two]; exact hspec.2, by_contra fun h => ?_⟩
  have hsq : 1025 * 1025 ≤ (2 * n - 1) * (2 * n - 1) := Nat.mul_le_mul (by omega) (by omega)
  have := Nat.mul_le_mul hsq hDlo
  omega

/-- The entry of R52's table is the one number whose interval holds the root. -/
theorem exp2Table_eq {i k : Nat} (hi : i < 64) (hk : 1 ≤ k) (hlo : (2 * k - 1) ^ 64 ≤ 2 ^ (1536 + i)) (hhi : 2 ^ (1536 + i) < (2 * k + 1) ^ 64) : exp2Table i = k := by
  have htop : ¬ (2 * (0 + 2 ^ 25) - 1) ^ 64 ≤ 2 ^ (64 * 24 + i) := by
    refine not_le.2 ?_
    calc 2 ^ (64 * 24 + i) < 2 ^ (25 * 64) := Nat.pow_lt_pow_right one_lt_two (by omega)
      _ = (2 ^ 25) ^ 64 := pow_mul _ _ _
      _ ≤ (2 * (0 + 2 ^ 25) - 1) ^ 64 := Nat.pow_le_pow_left (by norm_num) 64
  obtain ⟨h1, h2⟩ := bitSearch_spec (fun k => decide ((2 * k - 1) ^ 64 ≤ 2 ^ (64 * 24 + i))) 25 0 (by simp) (decide_eq_false htop)
  simp only [decide_eq_true_eq, decide_eq_false_iff_not, not_le] at h1 h2
  have hn : exp2Table i = bitSearch (fun k => decide ((2 * k - 1) ^ 64 ≤ 2 ^ (64 * 24 + i))) 25 0 := rfl
  rw [← hn] at h1 h2
  generalize exp2Table i = n at *
  have hlt1 := lt_of_pow_lt_pow_left' 64 (h1.trans_lt hhi)
  have hlt2 := lt_of_pow_lt_pow_left' 64 (hlo.trans_lt h2)
  omega

/-! ### Estimates (R51, R147) -/

/-- A value in the binade of e and its interval of 1/128 (R51). -/
theorem estimate_interval {m i : Nat} {e' e : Int} {t : Rat} (hi : i < 128) (ht0 : 0 ≤ t) (ht1 : t < 1) (hval : finValue m e' = (1 + ((i : Rat) + t) / 128) * 2 ^ e) :
    m ≠ 0 ∧ e' + m.log2 = e ∧ m * 128 / 2 ^ m.log2 = 128 + i := by
  have hi0 : (0 : Rat) ≤ i := Nat.cast_nonneg _
  have hi1 : (i : Rat) ≤ 127 := by exact_mod_cast Nat.le_of_lt_succ hi
  have hm0 : m ≠ 0 := by
    rintro rfl
    rw [finValue, Nat.cast_zero, zero_mul, eq_comm, mul_eq_zero, or_iff_left (two_zpow_pos e).ne'] at hval
    linarith
  have hlow : (2 : Rat) ^ (m.log2 : Int) ≤ m := by rw [zpow_natCast]; exact_mod_cast Nat.log2_self_le hm0
  have hhigh : (m : Rat) < 2 ^ ((m.log2 : Int) + 1) := by
    rw [show ((m.log2 : Int) + 1) = ((m.log2 + 1 : Nat) : Int) by push_cast; rfl, zpow_natCast]
    exact_mod_cast Nat.lt_log2_self
  have hle1 : (2 : Rat) ^ (e' + m.log2) ≤ finValue m e' := by
    rw [add_comm, zpow_add₀ two_ne_zero]
    exact mul_le_mul_of_nonneg_right hlow (two_zpow_pos _).le
  have hlt1 : finValue m e' < 2 ^ (e' + m.log2 + 1) := by
    rw [show e' + (m.log2 : Int) + 1 = m.log2 + 1 + e' by ring, zpow_add₀ two_ne_zero]
    exact mul_lt_mul_of_pos_right hhigh (two_zpow_pos _)
  have hle2 : (2 : Rat) ^ e ≤ finValue m e' := by
    rw [hval]
    exact le_mul_of_one_le_left (two_zpow_pos e).le (by linarith)
  have hlt2 : finValue m e' < 2 ^ (e + 1) := by
    rw [hval, zpow_add_one₀ two_ne_zero, mul_comm]
    exact mul_lt_mul_of_pos_left (by linarith) (two_zpow_pos e)
  have he : e' + m.log2 = e := by
    have h1 := (zpow_lt_zpow_iff_right₀ (one_lt_two (α := Rat))).1 (hle1.trans_lt hlt2)
    have h2 := (zpow_lt_zpow_iff_right₀ (one_lt_two (α := Rat))).1 (hle2.trans_lt hlt1)
    omega
  have hm : (m : Rat) * 128 = (128 + i + t) * (2 ^ m.log2 : Nat) := by
    rw [← he, add_comm e', zpow_add₀ two_ne_zero, finValue, ← mul_assoc] at hval
    have := mul_right_cancel₀ (two_zpow_pos e').ne' hval
    rw [this, zpow_natCast]
    push_cast
    ring
  have hpos : (0 : Rat) < (2 ^ m.log2 : Nat) := by positivity
  refine ⟨hm0, he, Nat.div_eq_of_lt_le ?_ ?_⟩
  · have : ((128 + i : Nat) : Rat) * (2 ^ m.log2 : Nat) ≤ (m : Rat) * 128 := by
      rw [hm]
      push_cast at hpos ⊢
      nlinarith
    exact_mod_cast this
  · have : (m : Rat) * 128 < ((128 + i + 1 : Nat) : Rat) * (2 ^ m.log2 : Nat) := by
      rw [hm]
      refine mul_lt_mul_of_pos_right ?_ hpos
      push_cast
      linarith
    exact_mod_cast this

/-- The lane types of the estimates hold nine-bit significands with exponents of 110 and less. -/
theorem estimateFormat {lt : Nat} (h : lt ∈ [5, 6]) : 23 ≤ (laneFormat lt).manBits ∧ (laneFormat lt).quantum ≤ -149 ∧ 1 - ((laneFormat lt).bias : Int) ≤ -126 ∧
    (130 : Int) ≤ (laneFormat lt).quantum + (laneFormat lt).manBits + 2 ^ (laneFormat lt).expBits := by
  simp only [List.mem_cons, List.not_mem_nil, or_false] at h
  obtain rfl | rfl := h <;> decide

/-- An estimate is exact in its lane, and normal. -/
theorem fpRound_estimate {lt : Nat} (h : lt ∈ [5, 6]) (r : Rounding) (neg : Bool) {k : Nat} (hk1 : 1 ≤ k) (hk2 : k ≤ 512) {g : Int} (hg1 : -110 ≤ g) (hg2 : g ≤ 110) :
    ∃ y, fpRound (laneFormat lt) r neg k 1 g = (y, 0) ∧ realOf (laneFormat lt) false y = some (signedBy neg (k * 2 ^ g)) ∧ y < 2 ^ laneWidth lt := by
  obtain ⟨hman, hq, hbias, hrange⟩ := estimateFormat h
  have hlt := floatLane (lt := lt) (by simp only [List.mem_cons, List.not_mem_nil, or_false] at h ⊢; omega)
  have hk1' : (1 : Rat) ≤ k := by exact_mod_cast hk1
  have hk2' : (k : Rat) ≤ 2 ^ (9 : Int) := by
    rw [show (2 : Rat) ^ (9 : Int) = 512 by norm_num]
    exact_mod_cast hk2
  obtain ⟨n, hn, -, hround, hreal⟩ := fpRound_representable hlt.toProper (r := r) neg (m := k) (e := g)
    (hk2.trans_lt ((by norm_num : 512 < 2 ^ 24).trans_le (Nat.pow_le_pow_right two_pos (by omega)))) (by omega)
    (by
      rw [hlt.mag_inf, finValue]
      calc (k : Rat) * 2 ^ g ≤ 2 ^ (9 : Int) * 2 ^ g := mul_le_mul_of_nonneg_right hk2' (two_zpow_pos g).le
        _ = 2 ^ (9 + g) := (zpow_add₀ two_ne_zero _ _).symm
        _ < 2 ^ ((laneFormat lt).quantum + (laneFormat lt).manBits + 2 ^ (laneFormat lt).expBits - 2) := zpow_lt_zpow_right₀ one_lt_two (by omega))
    (fun _ => by
      rw [finValue]
      calc (2 : Rat) ^ (1 - ((laneFormat lt).bias : Int)) ≤ 2 ^ g := zpow_le_zpow_right₀ one_le_two (by omega)
        _ ≤ k * 2 ^ g := le_mul_of_one_le_left (two_zpow_pos g).le hk1')
  exact ⟨_, hround, by rw [hreal, finValue], by rw [← hlt.width]; exact signed_lt_width hlt.toProper _ hn⟩

theorem clearedInexact (g : Flags) : (g &&& ~~~Flag.ix).getLsbD 4 = false := by
  revert g
  decide

theorem cleared_zero : (0 : Flags) &&& ~~~Flag.ix = 0 := by
  decide

/-- The reciprocal estimate of a number that is not zero. -/
theorem fpRecipEst_number {f : FpFormat} {flush : Bool} {x m : Nat} {neg : Bool} {e : Int} (h : fpRead f flush x = .fin neg m e) (hm : m ≠ 0) :
    fpRecipEst f flush x = if m * 128 / 2 ^ m.log2 = 128 then
        ((fpRound f { mode := 0, flush := flush } neg 1 1 (0 - (e + m.log2))).1, (fpRound f { mode := 0, flush := flush } neg 1 1 (0 - (e + m.log2))).2 &&& ~~~Flag.ix)
      else ((fpRound f { mode := 0, flush := flush } neg (recip9 (m * 128 / 2 ^ m.log2)) 1 (-9 - (e + m.log2))).1,
        (fpRound f { mode := 0, flush := flush } neg (recip9 (m * 128 / 2 ^ m.log2)) 1 (-9 - (e + m.log2))).2 &&& ~~~Flag.ix) := by
  simp only [fpRecipEst, h, if_neg hm]
  split <;> rfl

/-- The reciprocal root estimate of a positive number. -/
theorem fpRsqrtEst_number {f : FpFormat} {flush : Bool} {x m : Nat} {e : Int} (h : fpRead f flush x = .fin false m e) (hm : m ≠ 0) :
    fpRsqrtEst f flush x = if m * 128 / 2 ^ m.log2 = 128 ∧ ((e + m.log2) % 2).toNat = 0 then
        ((fpRound f { mode := 0, flush := flush } false 1 1 (0 - (e + m.log2) / 2)).1, (fpRound f { mode := 0, flush := flush } false 1 1 (0 - (e + m.log2) / 2)).2 &&& ~~~Flag.ix)
      else ((fpRound f { mode := 0, flush := flush } false (rsqrt9 (m * 128 / 2 ^ m.log2) ((e + m.log2) % 2).toNat) 1 (-9 - (e + m.log2) / 2)).1,
        (fpRound f { mode := 0, flush := flush } false (rsqrt9 (m * 128 / 2 ^ m.log2) ((e + m.log2) % 2).toNat) 1 (-9 - (e + m.log2) / 2)).2 &&& ~~~Flag.ix) := by
  simp only [fpRsqrtEst, h, if_neg hm, Bool.false_eq_true, if_false]
  split <;> rfl

/-- No reciprocal estimate raises inexact. -/
theorem fpRecipEst_not_inexact (f : FpFormat) (flush : Bool) (x : Nat) : (fpRecipEst f flush x).2.getLsbD 4 = false := by
  cases h : fpRead f flush x with
  | nan s => cases s <;> simp only [fpRecipEst, h] <;> rfl
  | inf n => simp only [fpRecipEst, h]; rfl
  | fin neg m e =>
    by_cases hm : m = 0
    · simp only [fpRecipEst, h, if_pos hm]
      rfl
    · rw [fpRecipEst_number h hm]
      split <;> exact clearedInexact _

theorem fpRsqrtEst_not_inexact (f : FpFormat) (flush : Bool) (x : Nat) : (fpRsqrtEst f flush x).2.getLsbD 4 = false := by
  cases h : fpRead f flush x with
  | nan s => cases s <;> simp only [fpRsqrtEst, h] <;> rfl
  | inf n => cases n <;> simp [fpRsqrtEst, h, Flag.iv]
  | fin neg m e =>
    by_cases hm : m = 0
    · simp only [fpRsqrtEst, h, if_pos hm]
      rfl
    · cases neg with
      | true => simp only [fpRsqrtEst, h, if_neg hm, if_true]; rfl
      | false =>
        rw [fpRsqrtEst_number h hm]
        split <;> exact clearedInexact _

/-- Both estimates of a NaN are the canonical NaN, those of a zero infinity with divide-by-zero. -/
theorem estimates_special {f : FpFormat} {flush : Bool} {x : Nat} :
    ((fpRead f flush x).isNan = true → (fpRecipEst f flush x).1 = f.nan ∧ (fpRsqrtEst f flush x).1 = f.nan) ∧
    (∀ neg, (fpRead f flush x).IsNumber neg 0 → fpRecipEst f flush x = ((if neg then f.signBit else 0) + f.inf, Flag.dz) ∧
      fpRsqrtEst f flush x = ((if neg then f.signBit else 0) + f.inf, Flag.dz)) := by
  refine ⟨fun h => ?_, fun neg h => ?_⟩
  · obtain ⟨s, hs⟩ := FpVal.eq_nan h
    simp [fpRecipEst, fpRsqrtEst, hs]
  · obtain ⟨m, e, hread, hm⟩ := h
    rw [eq_comm, signedBy_eq_zero, finValue_eq_zero] at hm
    simp [fpRecipEst, fpRsqrtEst, hread, hm]

section
variable {lt : Nat} (hlt : lt ∈ [5, 6]) {flush : Bool} {x m i : Nat} {neg : Bool} {e' e : Int} {t : Rat} (hread : fpRead (laneFormat lt) flush x = .fin neg m e')
  (hi : i < 128) (ht0 : 0 ≤ t) (ht1 : t < 1) (he1 : -100 ≤ e) (he2 : e ≤ 100) (hval : finValue m e' = (1 + ((i : Rat) + t) / 128) * 2 ^ e)
include hlt hread hi ht0 ht1 he1 he2 hval

/-- The reciprocal estimate of a number of an interval (R51). -/
theorem fpRecipEst_interval : ∃ k y : Nat, fpRecipEst (laneFormat lt) flush x = (y, 0) ∧ y < 2 ^ laneWidth lt ∧
    (i = 0 → realOf (laneFormat lt) false y = some (signedBy neg (2 ^ (-e)))) ∧
    (i ≠ 0 → 2 * ((k : Int) * (257 + 2 * i : Int) - 131072).natAbs ≤ 257 + 2 * i ∧ realOf (laneFormat lt) false y = some (signedBy neg (k * 2 ^ (-9 - e)))) := by
  obtain ⟨hm, he, hdiv⟩ := estimate_interval hi ht0 ht1 hval
  rw [fpRecipEst_number hread hm, he, hdiv]
  by_cases hi0 : i = 0
  · subst hi0
    obtain ⟨y, hy, hreal, hlty⟩ := fpRound_estimate hlt { mode := 0, flush := flush } neg le_rfl (by norm_num) (g := 0 - e) (by omega) (by omega)
    rw [if_pos rfl, hy]
    exact ⟨0, y, congrArg (Prod.mk y) cleared_zero, hlty, fun _ => by rw [hreal, Nat.cast_one, one_mul, zero_sub], fun h => absurd rfl h⟩
  · obtain ⟨hnear, hk1, hk2⟩ := recip9_spec hi
    obtain ⟨y, hy, hreal, hlty⟩ := fpRound_estimate hlt { mode := 0, flush := flush } neg hk1 hk2 (g := -9 - e) (by omega) (by omega)
    rw [if_neg (by omega), hy]
    exact ⟨_, y, congrArg (Prod.mk y) cleared_zero, hlty, fun h => absurd h hi0, fun _ => ⟨hnear, hreal⟩⟩

/-- The reciprocal root estimate of a positive number of an interval (R51). -/
theorem fpRsqrtEst_interval (hneg : neg = false) {k : Int} {o : Nat} (hko : e = 2 * k + o) (ho : o < 2) : ∃ n y : Nat, fpRsqrtEst (laneFormat lt) flush x = (y, 0) ∧ y < 2 ^ laneWidth lt ∧
    (i = 0 ∧ o = 0 → realOf (laneFormat lt) false y = some (2 ^ (-k))) ∧
    (¬ (i = 0 ∧ o = 0) → 1 ≤ n ∧ (2 * n - 1) ^ 2 * ((257 + 2 * i) * 2 ^ o) ≤ 2 ^ 28 ∧ 2 ^ 28 < (2 * n + 1) ^ 2 * ((257 + 2 * i) * 2 ^ o) ∧
      realOf (laneFormat lt) false y = some ((n : Rat) * 2 ^ (-9 - k))) := by
  obtain ⟨hm, he, hdiv⟩ := estimate_interval hi ht0 ht1 hval
  subst hneg
  rw [fpRsqrtEst_number hread hm, he, hdiv, show (e % 2).toNat = o by omega, show e / 2 = k by omega]
  by_cases hio : i = 0 ∧ o = 0
  · obtain ⟨y, hy, hreal, hlty⟩ := fpRound_estimate hlt { mode := 0, flush := flush } false le_rfl (by norm_num) (g := 0 - k) (by omega) (by omega)
    rw [if_pos (by omega), hy]
    exact ⟨0, y, congrArg (Prod.mk y) cleared_zero, hlty, fun _ => by rw [hreal, signedBy_false, Nat.cast_one, one_mul, zero_sub], fun h => absurd hio h⟩
  · obtain ⟨hn1, hlo, hhi, hn2⟩ := rsqrt9_spec hi ho
    obtain ⟨y, hy, hreal, hlty⟩ := fpRound_estimate hlt { mode := 0, flush := flush } false hn1 hn2 (g := -9 - k) (by omega) (by omega)
    rw [if_neg (by omega), hy]
    exact ⟨_, y, congrArg (Prod.mk y) cleared_zero, hlty, fun h => absurd h hio, fun _ => ⟨hn1, hlo, hhi, by rw [hreal, signedBy_false]⟩⟩

end

/-- The root of a negative number is invalid. -/
theorem fpRsqrtEst_negative {f : FpFormat} {flush : Bool} {x m : Nat} {e : Int} (h : fpRead f flush x = .fin true m e) (hm : m ≠ 0) : fpRsqrtEst f flush x = (f.nan, Flag.iv) := by
  simp [fpRsqrtEst, h, hm]

/-! ### vexp2 (R52) -/

/-- The polynomial of R52, of the fraction left over a table entry. -/
def exp2Poly (t : Rat) : Rat := 1 + t * (0xB17218 * 2 ^ (-24 : Int) + t * (0xF5FDF0 * 2 ^ (-26 : Int) + t * (0xE35847 * 2 ^ (-28 : Int))))

/-- The numerator of R52's polynomial over 2 to 3 s + 28, of a fraction n over 2 to s. -/
def exp2Numerator (s n : Nat) : Nat := 2 ^ (3 * s + 28) + n * (0xB17218 * 2 ^ (2 * s + 4) + n * (0xF5FDF0 * 2 ^ (s + 2) + n * 0xE35847))

theorem exp2Numerator_eq (s n : Nat) : (exp2Numerator s n : Rat) = exp2Poly ((n : Rat) / 2 ^ s) * 2 ^ (3 * s + 28) := by
  have h24 : (2 : Rat) ^ (-24 : Int) = 1 / 2 ^ 24 := by norm_num
  have h26 : (2 : Rat) ^ (-26 : Int) = 1 / 2 ^ 26 := by norm_num
  have h28 : (2 : Rat) ^ (-28 : Int) = 1 / 2 ^ 28 := by norm_num
  have h3 : (2 : Rat) ^ (3 * s + 28) = 2 ^ s * 2 ^ s * 2 ^ s * 2 ^ 28 := by ring
  have h2 : (2 : Rat) ^ (2 * s + 4) = 2 ^ s * 2 ^ s * 2 ^ 4 := by ring
  have h1 : (2 : Rat) ^ (s + 2) = 2 ^ s * 2 ^ 2 := by ring
  have hs : (2 : Rat) ^ s ≠ 0 := by positivity
  rw [exp2Numerator, exp2Poly, h24, h26, h28]
  push_cast
  rw [h3, h2, h1]
  generalize (2 : Rat) ^ s = u at *
  field_simp

/-- A result that is inexact too. -/
def raiseInexact (q : Nat × Flags) : Nat × Flags := (q.1, q.2 ||| Flag.ix)

/-- The rounded product of a table entry and the polynomial, always inexact. -/
def exp2Rounded (r : Rounding) (j s tn : Nat) (n : Int) : Nat × Flags :=
  raiseInexact (fpRound .f32 { r with sat := false } false (exp2Table j * exp2Numerator s tn) 1 (n - 23 - (3 * s + 28 : Nat)))

/-- What fpExp2 computes, by the numerator of its operand over a power of two. -/
theorem fpExp2_number {r : Rounding} {x m : Nat} {neg : Bool} {e : Int} (h : fpRead .f32 r.flush x = .fin neg m e) :
    ∃ (num : Int) (sh : Nat), (num : Rat) = signedBy neg (finValue m e) * 2 ^ sh ∧ fpExp2 r x =
      if num ≥ 128 * ((2 ^ sh : Nat) : Int) then (FpFormat.f32.inf, Flag.of ||| Flag.ix)
      else if num < -150 * ((2 ^ sh : Nat) : Int) then (0, Flag.uf ||| Flag.ix)
      else if (num % (2 ^ sh : Nat)).toNat = 0 ∧ num / (2 ^ sh : Nat) ≥ -149 then fpRound .f32 { r with sat := false } false 1 1 (num / (2 ^ sh : Nat))
      else exp2Rounded r ((num % (2 ^ sh : Nat)).toNat * 64 / 2 ^ sh) (sh + 6)
        ((num % (2 ^ sh : Nat)).toNat * 64 - (num % (2 ^ sh : Nat)).toNat * 64 / 2 ^ sh * 2 ^ sh) (num / (2 ^ sh : Nat)) := by
  refine ⟨if neg then -((m * 2 ^ e.toNat : Nat) : Int) else ((m * 2 ^ e.toNat : Nat) : Int), (-e).toNat, ?_, ?_⟩
  · rw [finValue, two_zpow_toNat e]
    have hp : (2 : Rat) ^ (-e).toNat ≠ 0 := by positivity
    cases neg <;> simp [mul_assoc, div_mul_cancel₀ _ hp]
  · unfold fpExp2
    split
    next hs => exact absurd (h.symm.trans hs) (by simp)
    next hs => exact absurd (h.symm.trans hs) (by simp)
    next hs =>
      obtain ⟨rfl, rfl, rfl⟩ := FpVal.fin.inj (h.symm.trans hs)
      extract_lets sh a num one n fr j tn s p
      refine if_congr Iff.rfl rfl (if_congr Iff.rfl rfl (if_congr Iff.rfl rfl ?_))
      have hp : p = exp2Numerator s tn := rfl
      clear_value p
      subst hp
      unfold exp2Rounded
      -- the rounded pair is taken apart, so that no check computes it
      rcases fpRound .f32 { r with sat := false } false (exp2Table j * exp2Numerator s tn) 1 (n - 23 - (3 * s + 28 : Nat)) with ⟨y, g⟩
      rfl

theorem f32_ieee : FpFormat.f32.Ieee := (laneFormat_ieee (lt := 5) (by decide)).1

theorem f32_top : FpFormat.f32.quantum + FpFormat.f32.manBits + 2 ^ FpFormat.f32.expBits - 2 = 128 := by
  decide

/-- The whole part and the fraction of a number given by its numerator over a power of two. -/
theorem numerator_split {num n : Int} {sh : Nat} {X q : Rat} (hnum : (num : Rat) = X * 2 ^ sh) (hX : X = n + q) (hq0 : 0 ≤ q) (hq1 : q < 1) :
    num / (2 ^ sh : Nat) = n ∧ ((num % (2 ^ sh : Nat)).toNat : Rat) = q * 2 ^ sh := by
  have hp : (0 : Rat) < 2 ^ sh := by positivity
  have hlo : n * (2 ^ sh : Nat) ≤ num := by
    have : (n : Rat) * 2 ^ sh ≤ num := by rw [hnum, hX]; nlinarith
    exact_mod_cast this
  have hhi : num < (n + 1) * (2 ^ sh : Nat) := by
    have : (num : Rat) < (n + 1) * 2 ^ sh := by rw [hnum, hX]; nlinarith
    exact_mod_cast this
  have hpos : (0 : Int) < (2 ^ sh : Nat) := by positivity
  have hdiv : num / (2 ^ sh : Nat) = n := le_antisymm (Int.lt_add_one_iff.1 (Int.ediv_lt_of_lt_mul hpos hhi)) (Int.le_ediv_of_mul_le hpos hlo)
  refine ⟨hdiv, ?_⟩
  have hmod : num % (2 ^ sh : Nat) = num - n * (2 ^ sh : Nat) := by rw [Int.emod_def, hdiv, mul_comm]
  have hcast : ((num % (2 ^ sh : Nat)).toNat : Int) = num - n * (2 ^ sh : Nat) := by rw [hmod]; exact Int.toNat_of_nonneg (by linarith)
  have hrat : ((num % (2 ^ sh : Nat)).toNat : Rat) = num - n * 2 ^ sh := by exact_mod_cast hcast
  rw [hrat, hnum, hX]
  ring

/-- The index and the rest of a fraction over a power of two. -/
theorem fraction_split {fr sh i : Nat} {t : Rat} (h : (fr : Rat) = ((i : Rat) / 64 + t) * 2 ^ sh) (ht0 : 0 ≤ t) (ht1 : t < 1 / 64) :
    fr * 64 / 2 ^ sh = i ∧ ((fr * 64 - i * 2 ^ sh : Nat) : Rat) / 2 ^ (sh + 6) = t := by
  have hp : (0 : Rat) < 2 ^ sh := by positivity
  have h64 : (fr : Rat) * 64 = i * 2 ^ sh + t * 64 * 2 ^ sh := by rw [h]; ring
  have hlo : i * 2 ^ sh ≤ fr * 64 := by
    have : (i : Rat) * 2 ^ sh ≤ fr * 64 := by rw [h64]; nlinarith
    exact_mod_cast this
  have hhi : fr * 64 < (i + 1) * 2 ^ sh := by
    have : (fr : Rat) * 64 < (i + 1) * 2 ^ sh := by rw [h64]; nlinarith
    exact_mod_cast this
  refine ⟨Nat.div_eq_of_lt_le hlo hhi, ?_⟩
  rw [Nat.cast_sub hlo]
  push_cast
  rw [h64, pow_add]
  field_simp
  ring

section
variable {r : Rounding} (hsat : r.sat = false) {x : Nat} {X : Rat} (h : realOf .f32 r.flush x = some X)
include hsat h

/-- The cases of vexp2 on a number (R52): integers, overflow and underflow, and one rounding of the table's entry times the polynomial. -/
theorem fpExp2_spec :
    (∀ n : Int, X = n → (if r.flush then -126 else -149) ≤ n → n ≤ 127 → ∃ y, fpExp2 r x = (y, 0) ∧ realOf .f32 false y = some (2 ^ n) ∧ y < 2 ^ 32) ∧
    (128 ≤ X → fpExp2 r x = (FpFormat.f32.inf, Flag.of ||| Flag.ix)) ∧ (X < -150 → fpExp2 r x = (0, Flag.uf ||| Flag.ix)) ∧
    (∀ (n : Int) (i k : Nat) (t : Rat), X = n + i / 64 + t → -150 ≤ n → n ≤ 127 → i < 64 → 0 ≤ t → t < 1 / 64 → i ≠ 0 ∨ t ≠ 0 ∨ n = -150 → exp2Table i = k →
      ∃ q, roundsTo .f32 r (k * 2 ^ (-23 : Int) * exp2Poly t * 2 ^ n) q ∧ fpExp2 r x = raiseInexact q) := by
  obtain ⟨m, e, hread, hX, -⟩ := fpRead_of_realOf f32_ieee.toProper h
  obtain ⟨num, sh, hnum, heq⟩ := fpExp2_number hread
  rw [← hX] at hnum
  have hr : ({ r with sat := false } : Rounding) = r := by
    rw [← hsat]
  have hp : (0 : Rat) < 2 ^ sh := by positivity
  have hbig : num ≥ 128 * ((2 ^ sh : Nat) : Int) ↔ 128 ≤ X := by
    rw [ge_iff_le, ← mul_le_mul_iff_left₀ hp, ← hnum]
    exact_mod_cast Iff.rfl
  have hsmall : num < -150 * ((2 ^ sh : Nat) : Int) ↔ X < -150 := by
    rw [← mul_lt_mul_iff_left₀ hp, ← hnum]
    exact_mod_cast Iff.rfl
  rw [hr] at heq
  refine ⟨fun n hn hlo hhi => ?_, fun hX128 => by rw [heq, if_pos (hbig.2 hX128)], fun hX150 => ?_, fun n i k t hval hlo hhi hi ht0 ht1 hne hk => ?_⟩
  · have hlo' : -149 ≤ n := by split at hlo <;> omega
    have hn127 : (n : Rat) ≤ 127 := by exact_mod_cast hhi
    have hn149 : (-149 : Rat) ≤ n := by exact_mod_cast hlo'
    obtain ⟨hdiv, hmod⟩ := numerator_split (q := 0) hnum (by rw [hn, add_zero]) le_rfl one_pos
    have hzero : (num % (2 ^ sh : Nat)).toNat = 0 := by
      rw [zero_mul] at hmod
      exact_mod_cast hmod
    rw [if_neg (fun hb => absurd (hbig.1 hb) (by linarith)), if_neg (fun hs => absurd (hsmall.1 hs) (by linarith)), if_pos ⟨hzero, by rw [hdiv]; exact hlo'⟩, hdiv] at heq
    obtain ⟨y, hy, -, hround, hreal⟩ := fpRound_representable f32_ieee.toProper (r := r) false (m := 1) (e := n) (Nat.one_lt_two_pow (Nat.succ_ne_zero _)) hlo' (by
      rw [f32_ieee.mag_inf, finValue, Nat.cast_one, one_mul]
      exact zpow_lt_zpow_right₀ one_lt_two (by rw [f32_top]; omega)) (fun hf => by
      rw [hf, if_pos rfl] at hlo
      rw [finValue, Nat.cast_one, one_mul]
      exact zpow_le_zpow_right₀ one_le_two hlo)
    exact ⟨_, by rw [heq, hround], by rw [hreal, finValue, Nat.cast_one, one_mul, signedBy_false], signed_lt_width f32_ieee.toProper false hy⟩
  · rw [heq, if_neg (fun hb => absurd (hbig.1 hb) (by linarith)), if_pos (hsmall.2 hX150)]
  · have hi63 : (i : Rat) ≤ 63 := by exact_mod_cast Nat.le_of_lt_succ hi
    have hi0 : (0 : Rat) ≤ i := Nat.cast_nonneg _
    have hn127 : (n : Rat) ≤ 127 := by exact_mod_cast hhi
    have hn150 : (-150 : Rat) ≤ n := by exact_mod_cast hlo
    obtain ⟨hdiv, hmod⟩ := numerator_split (q := (i : Rat) / 64 + t) hnum (by rw [hval]; ring) (by linarith) (by linarith)
    obtain ⟨hj, htn⟩ := fraction_split hmod ht0 ht1
    have hnot : ¬ ((num % (2 ^ sh : Nat)).toNat = 0 ∧ num / (2 ^ sh : Nat) ≥ -149) := by
      rintro ⟨hz, hn⟩
      rw [hdiv] at hn
      rw [hz, Nat.cast_zero, eq_comm, mul_eq_zero, or_iff_left hp.ne'] at hmod
      obtain hi' | ht' | hn' := hne
      · exact hi' (by exact_mod_cast (by linarith : (i : Rat) = 0))
      · exact ht' (by linarith)
      · omega
    rw [if_neg (fun hb => absurd (hbig.1 hb) (by linarith)), if_neg (fun hs => absurd (hsmall.1 hs) (by linarith)), if_neg hnot, hdiv, hj, exp2Rounded, hr] at heq
    refine ⟨_, ?_, heq⟩
    have hround := fpRound_roundsTo f32_ieee.toProper f32_ieee.ieee hsat false
      (exp2Table i * exp2Numerator (sh + 6) ((num % (2 ^ sh : Nat)).toNat * 64 - i * 2 ^ sh)) one_ne_zero (n - 23 - (3 * (sh + 6) + 28 : Nat))
    have hexact : (k : Rat) * 2 ^ (-23 : Int) * exp2Poly t * 2 ^ n = signedBy false
        (((exp2Table i * exp2Numerator (sh + 6) ((num % (2 ^ sh : Nat)).toNat * 64 - i * 2 ^ sh) : Nat) : Rat) / (1 : Nat) * 2 ^ (n - 23 - (3 * (sh + 6) + 28 : Nat) : Int)) := by
      rw [signedBy_false, Nat.cast_mul, exp2Numerator_eq, htn, hk, Nat.cast_one, div_one, sub_sub, zpow_sub₀ two_ne_zero, zpow_add₀ two_ne_zero, zpow_natCast, zpow_neg]
      field_simp
    rw [hexact]
    exact hround

end

/-! ### The obligation -/

/-- A zero reads as the number zero of its sign. -/
theorem isNumber_zero {f : FpFormat} (hf : f.Proper) (flush : Bool) {x : Nat} (h : x % f.signBit = 0) : (fpRead f flush x).IsNumber (x / f.signBit % 2 == 1) 0 := by
  refine isNumber_of_realOf hf ?_
  rw [realOf_eq hf, h, if_pos (Nat.zero_le _), f.mag_zero, ite_self, signedBy_zero]

/-- The sign and the magnitude of a number that is written as a sign times a positive one. -/
theorem signedBy_eq_mul {neg : Bool} {v s y : Rat} (hs : s = 1 ∨ s = -1) (hv : 0 ≤ v) (hy : 0 < y) (h : s * y = signedBy neg v) : neg = decide (s = -1) ∧ v = y := by
  obtain rfl | rfl := hs <;> cases neg <;> norm_num at h ⊢ <;> linarith

theorem signedBy_decide {s : Rat} (hs : s = 1 ∨ s = -1) (v : Rat) : signedBy (decide (s = -1)) v = s * v := by
  obtain rfl | rfl := hs <;> norm_num [signedBy]

section
variable {lt : Nat} (hmem : lt ∈ [5, 6]) {r : Nat → Rounding} {mode : Nat} {fl : Bool} (hr : uniformRounding r mode fl) (st cc : Nat) (p : BitVec 8) (a b c : Nat)

/-- No estimate raises inexact. -/
theorem laneEval_estimates_not_inexact : (laneEval 13 lt st cc r p a b c).2.getLsbD 4 = false ∧ (laneEval 14 lt st cc r p a b c).2.getLsbD 4 = false := by
  have hor : ∀ g h : Flags, g.getLsbD 4 = false → h.getLsbD 4 = false → (g ||| h).getLsbD 4 = false := fun g h hg hh => by rw [BitVec.getLsbD_or, hg, hh]; rfl
  exact ⟨mapLanes_flags (P := fun g => g.getLsbD 4 = false) rfl hor lt fun j => fpRecipEst_not_inexact _ _ _,
    mapLanes_flags (P := fun g => g.getLsbD 4 = false) rfl hor lt fun j => fpRsqrtEst_not_inexact _ _ _⟩

include hmem

theorem estimateLane : FloatLane lt := floatLane (by simp only [List.mem_cons, List.not_mem_nil, or_false] at hmem ⊢; omega)

variable {j : Nat} (hj : j < 64 / laneWidth lt)
include hj

/-- Estimates of zeros and NaNs. -/
theorem laneEval_estimates_special {vop : Nat} (hv : vop ∈ [13, 14]) :
    (laneOf (laneWidth lt) a j % (laneFormat lt).signBit = 0 → laneOf (laneWidth lt) (laneEval vop lt st cc r p a b c).1 j = laneOf (laneWidth lt) a j + (laneFormat lt).inf ∧
      Flag.dz ||| (laneEval vop lt st cc r p a b c).2 = (laneEval vop lt st cc r p a b c).2) ∧
    (isNanOf (laneFormat lt) (laneOf (laneWidth lt) a j) → laneOf (laneWidth lt) (laneEval vop lt st cc r p a b c).1 j = (laneFormat lt).nan) := by
  have hlt := estimateLane hmem
  obtain ⟨hnan, hzero⟩ := estimates_special (f := laneFormat lt) (flush := (r 0).flush) (x := laneOf (laneWidth lt) a j)
  have hwidth := (laneOf_lt (laneWidth lt) a j).trans_eq (congrArg (2 ^ ·) hlt.width.symm)
  refine ⟨fun hz => ?_, fun hn => ?_⟩
  · obtain ⟨h13, h14⟩ := hzero _ (isNumber_zero hlt.toProper (r 0).flush hz)
    have hsign := encoding_eq hwidth
    rw [hz, add_zero] at hsign
    rw [hsign] at h13 h14
    have hfits : laneOf (laneWidth lt) a j + (laneFormat lt).inf < 2 ^ laneWidth lt := by
      have := (laneFormat lt).inf_lt_signBit
      have hle : laneOf (laneWidth lt) a j ≤ (laneFormat lt).signBit := by
        rw [← hsign]
        split <;> omega
      have hw := (congrArg (2 ^ ·) hlt.width).symm.trans (laneFormat lt).two_signBit
      omega
    simp only [List.mem_cons, List.not_mem_nil, or_false] at hv
    obtain rfl | rfl := hv
    · exact mapLanes_value hj h13 hfits
    · exact mapLanes_value hj h14 hfits
  · obtain ⟨h13, h14⟩ := hnan ((isNan_fpRead hlt.toProper _ _).2 hn)
    simp only [List.mem_cons, List.not_mem_nil, or_false] at hv
    obtain rfl | rfl := hv
    · exact (mapLanes_lane lt (fun j => fpRecipEst (laneFormat lt) (r 0).flush (laneOf (laneWidth lt) a j)) hj).1.trans (by rw [h13, Nat.mod_eq_of_lt hlt.nan_lt])
    · exact (mapLanes_lane lt (fun j => fpRsqrtEst (laneFormat lt) (r 0).flush (laneOf (laneWidth lt) a j)) hj).1.trans (by rw [h14, Nat.mod_eq_of_lt hlt.nan_lt])

include hr

/-- Estimates of a number of an interval of 1/128. -/
theorem laneEval_estimates_interval {s t : Rat} {i : Nat} {e : Int} (hs : s = 1 ∨ s = -1) (hi : i < 128) (ht0 : 0 ≤ t) (ht1 : t < 1) (he1 : -100 ≤ e) (he2 : e ≤ 100)
    (h : realOf (laneFormat lt) fl (laneOf (laneWidth lt) a j) = some (s * (1 + ((i : Rat) + t) / 128) * twoTo e)) :
    let y13 := laneOf (laneWidth lt) (laneEval 13 lt st cc r p a b c).1 j
    let y14 := laneOf (laneWidth lt) (laneEval 14 lt st cc r p a b c).1 j
    (i = 0 → realOf (laneFormat lt) false y13 = some (s * twoTo (-e))) ∧
    (i ≠ 0 → ∃ k : Nat, 2 * ((k : Int) * (257 + 2 * i) - 131072).natAbs ≤ 257 + 2 * i ∧ realOf (laneFormat lt) false y13 = some (s * k * twoTo (-9 - e))) ∧
    (s = -1 → y14 = (laneFormat lt).nan ∧ Flag.iv ||| (laneEval 14 lt st cc r p a b c).2 = (laneEval 14 lt st cc r p a b c).2) ∧
    (s = 1 → ∀ (k : Int) (o : Nat), e = 2 * k + o → o < 2 →
      (i = 0 ∧ o = 0 → realOf (laneFormat lt) false y14 = some (twoTo (-k))) ∧
      (¬ (i = 0 ∧ o = 0) → ∃ n : Nat, 1 ≤ n ∧ (2 * n - 1) ^ 2 * ((257 + 2 * i) * 2 ^ o) ≤ 2 ^ 28 ∧ 2 ^ 28 < (2 * n + 1) ^ 2 * ((257 + 2 * i) * 2 ^ o) ∧
        realOf (laneFormat lt) false y14 = some (n * twoTo (-9 - k)))) := by
  intro y13 y14
  have hlt := estimateLane hmem
  obtain ⟨-, rfl, -⟩ := hr 0
  obtain ⟨m, e', hread, hX, -⟩ := fpRead_of_realOf hlt.toProper h
  have hpos : (0 : Rat) < (1 + ((i : Rat) + t) / 128) * 2 ^ e := mul_pos (by have : (0 : Rat) ≤ i := Nat.cast_nonneg _; linarith) (two_zpow_pos e)
  rw [mul_assoc, twoTo_eq] at hX
  obtain ⟨hneg, hval⟩ := signedBy_eq_mul hs (finValue_nonneg m e') hpos hX
  rw [hneg] at hread
  refine ⟨fun hi0 => ?_, fun hi0 => ?_, fun hs1 => ?_, fun hs1 k o hko ho => ?_⟩
  · obtain ⟨k, y, hy, hfits, hzero, -⟩ := fpRecipEst_interval hmem hread hi ht0 ht1 he1 he2 hval
    rw [show y13 = y from (mapLanes_value hj hy hfits).1, hzero hi0, signedBy_decide hs, twoTo_eq]
  · obtain ⟨k, y, hy, hfits, -, hnext⟩ := fpRecipEst_interval hmem hread hi ht0 ht1 he1 he2 hval
    obtain ⟨hnear, hreal⟩ := hnext hi0
    exact ⟨k, hnear, by rw [show y13 = y from (mapLanes_value hj hy hfits).1, hreal, signedBy_decide hs, twoTo_eq, mul_assoc]⟩
  · rw [decide_eq_true hs1] at hread
    exact mapLanes_value hj (fpRsqrtEst_negative hread (estimate_interval hi ht0 ht1 hval).1) hlt.nan_lt
  · have hn : decide (s = -1) = false := by rw [hs1]; norm_num
    obtain ⟨n, y, hy, hfits, hzero, hnext⟩ := fpRsqrtEst_interval hmem hread hi ht0 ht1 he1 he2 hval hn hko ho
    rw [show y14 = y from (mapLanes_value hj hy hfits).1, twoTo_eq, twoTo_eq]
    exact ⟨hzero, fun hne => ⟨n, hnext hne⟩⟩

end

theorem exp2Poly_eq (t : Rat) : 1 + t * (0xB17218 * twoTo (-24) + t * (0xF5FDF0 * twoTo (-26) + t * (0xE35847 * twoTo (-28)))) = exp2Poly t := by
  rw [twoTo_eq, twoTo_eq, twoTo_eq, exp2Poly]

/-- Lanes of vexp2 (R52). -/
theorem laneEval_exp2 {r : Nat → Rounding} {mode : Nat} {fl : Bool} (hr : uniformRounding r mode fl) {j : Nat} (hj : j < 64 / laneWidth 5) (st cc : Nat) (p : BitVec 8) (a b c : Nat) :
    let y := laneOf 32 (laneEval 15 5 st cc r p a b c).1 j
    let raised (g : Flags) : Prop := g ||| (laneEval 15 5 st cc r p a b c).2 = (laneEval 15 5 st cc r p a b c).2
    (isNanOf .f32 (laneOf 32 a j) → y = FpFormat.f32.nan) ∧
    ∀ X, realOf .f32 fl (laneOf 32 a j) = some X →
      (∀ n : Int, X = n → (if fl then -126 else -149) ≤ n → n ≤ 127 → realOf .f32 false y = some (twoTo n)) ∧
      (128 ≤ X → y = FpFormat.f32.inf ∧ raised (Flag.of ||| Flag.ix)) ∧ (X < -150 → y = 0 ∧ raised (Flag.uf ||| Flag.ix)) ∧
      (∀ (n : Int) (i k : Nat) (t : Rat), X = n + i / 64 + t → -150 ≤ n → n ≤ 127 → i < 64 → 0 ≤ t → t < 1 / 64 → i ≠ 0 ∨ t ≠ 0 ∨ n = -150 → exp2Table i = k →
        ∃ g, roundsTo .f32 (r j) (k * twoTo (-23) * exp2Poly t * twoTo n) (y, g) ∧ raised (g ||| Flag.ix)) := by
  intro y raised
  obtain ⟨rfl, rfl, hsat⟩ := hr j
  have hvalue : ∀ {v : Nat} {g : Flags}, fpExp2 (r j) (laneOf 32 a j) = (v, g) → v < 2 ^ 32 → y = v ∧ raised g := fun h hv =>
    mapLanes_value (F := fun j => fpExp2 (r j) (laneOf (laneWidth 5) a j)) hj h hv
  refine ⟨fun hn => ?_, fun X hX => ?_⟩
  · have hq : fpExp2 (r j) (laneOf 32 a j) = (FpFormat.f32.nan, if decide (FpFormat.f32.specials = .ieee ∧ laneOf 32 a j % 2 ^ FpFormat.f32.manBits < 2 ^ (FpFormat.f32.manBits - 1)) = true
        then Flag.iv else 0) := by
      simp only [fpExp2, fpRead_nan (r j).flush hn]
    exact (hvalue hq (floatLane (lt := 5) (by decide)).nan_lt).1
  · obtain ⟨hint, hover, hunder, hpoly⟩ := fpExp2_spec hsat hX
    refine ⟨fun n hn hlo hhi => ?_, fun h => hvalue (hover h) (by decide), fun h => hvalue (hunder h) (by decide), fun n i k t hval hlo hhi hi ht0 ht1 hne hk => ?_⟩
    · obtain ⟨v, hv, hreal, hfits⟩ := hint n hn hlo hhi
      rw [(hvalue hv hfits).1, hreal, twoTo_eq]
    · obtain ⟨q, hround, hq⟩ := hpoly n i k t hval hlo hhi hi ht0 ht1 hne hk
      obtain ⟨hy, hg⟩ := hvalue hq hround.1
      rw [twoTo_eq, twoTo_eq, hy]
      exact ⟨q.2, hround, hg⟩

/-- Settles O9: conversions are exact, estimates are the entries of their tables, and vexp2 goes by its cases. -/
theorem floatLaneConversions : Obligations.FloatLaneConversions := by
  unfold Obligations.FloatLaneConversions
  intro lt st cc mode fl r p a b c _ hr f w lane out raised
  refine ⟨fun hmem j hj => laneEval_convert_float hmem hr hj cc p a b c, fun hmem j hj => ?_, fun hmem => ?_, fun h5 j hj => ?_⟩
  · intro v
    have hv : v = signedOf (laneWidth st) (laneOf (laneWidth st) a j) := by
      rw [signedOf_laneOf (intConversions_widen _ hmem).2.1]
      simp [v, laneOf, bits]
    rw [hv]
    exact laneEval_convert_int hmem r hj cc p a b c
  · obtain ⟨h13, h14⟩ := laneEval_estimates_not_inexact (lt := lt) (r := r) st cc p a b c
    refine ⟨h13, h14, fun j hj => ⟨fun hz vop hv => (laneEval_estimates_special hmem st cc p a b c hj hv).1 hz, fun hn vop hv => (laneEval_estimates_special hmem st cc p a b c hj hv).2 hn,
      fun s t i e hs hi ht0 ht1 he1 he2 h => laneEval_estimates_interval hmem hr st cc p a b c hj hs hi ht0 ht1 he1 he2 h⟩⟩
  · obtain rfl : lt = 5 := h5
    obtain ⟨hnan, hnum⟩ := laneEval_exp2 hr hj st cc p a b c
    refine ⟨hnan, fun X hX => ?_⟩
    obtain ⟨hint, hover, hunder, hpoly⟩ := hnum X hX
    refine ⟨hint, hover, hunder, fun n i k t hval hlo hhi hi ht0 ht1 hne hk1 hk2 hk3 => ?_⟩
    rw [exp2Poly_eq]
    exact hpoly n i k t hval hlo hhi hi ht0 ht1 hne (exp2Table_eq hi hk1 hk2 hk3)

end Sys2Proof.Machine
end

section
/-! PROOFS. Signs and orders of floating-point lanes (O31). -/

namespace Sys2Proof.Machine
open Sys2Proof.Claims

/-! ### Signs and orders (R141, R142) -/

/-- A lane raises invalid where it is a signalling NaN. -/
theorem inputFlag_fpRead {f : FpFormat} (hf : f.Ieee) (flush : Bool) (x : Nat) :
    (fpRead f flush x).inputFlag = if (fpRead f false x).isNan && decide (x % 2 ^ f.manBits < 2 ^ (f.manBits - 1)) then Flag.iv else 0 := by
  by_cases hn : isNanOf f x
  · rw [(isNan_fpRead hf.toProper false x).2 hn, fpRead_nan flush hn, Bool.true_and]
    simp only [hf.ieee, true_and]
    cases decide (x % 2 ^ f.manBits < 2 ^ (f.manBits - 1)) <;> rfl
  · have hno : ∀ fl, (fpRead f fl x).isNan = false := fun fl => Bool.eq_false_iff.2 fun h => hn ((isNan_fpRead hf.toProper fl x).1 h)
    rw [hno false]
    have := hno flush
    cases hr : fpRead f flush x with
    | nan s => rw [hr] at this; exact absurd this (by simp [FpVal.isNan])
    | inf n => rfl
    | fin n m e => rfl

/-- Whether a lane is a NaN does not hang on the flush bit. -/
theorem isNan_flush {f : FpFormat} (hf : f.Proper) (flush : Bool) (x : Nat) : (fpRead f flush x).isNan = (fpRead f false x).isNan :=
  Bool.eq_iff_iff.2 ((isNan_fpRead hf flush x).trans (isNan_fpRead hf false x).symm)

theorem flushed_eq (f : FpFormat) (flush : Bool) (x : Nat) :
    flushed f flush x = if flush = true ∧ x % f.signBit < 2 ^ f.manBits then x / f.signBit * f.signBit else x := by
  unfold flushed
  exact if_congr (by rw [Bool.and_eq_true, decide_eq_true_eq]) rfl rfl

theorem flushed_le (f : FpFormat) (flush : Bool) (x : Nat) : flushed f flush x ≤ x := by
  unfold flushed
  split
  · exact Nat.div_mul_le_self _ _
  · exact le_rfl

/-- What lies in the order of encodings lies in the order of numbers. -/
theorem numberKey_le {f : FpFormat} {x y : Nat} (h : orderKey f x ≤ orderKey f y) : numberKey f x ≤ numberKey f y := by
  unfold orderKey at h
  unfold numberKey
  split at h <;> split at h <;> simp_all <;> omega

section
variable {lt : Nat} (hlt : FloatLane lt) (flush : Bool) (x y : Nat)
include hlt

/-- The sign operations on a lane that is no NaN, and on one that is (R142). -/
theorem laneSign_float (negate : Bool) : laneSign negate lt flush x =
    if (fpRead (laneFormat lt) false x).isNan then ((laneFormat lt).nan, (fpRead (laneFormat lt) flush x).inputFlag)
    else (if negate then (if flushed (laneFormat lt) flush x ≥ (laneFormat lt).signBit then flushed (laneFormat lt) flush x - (laneFormat lt).signBit
      else flushed (laneFormat lt) flush x + (laneFormat lt).signBit) else flushed (laneFormat lt) flush x % (laneFormat lt).signBit, 0) := by
  simp only [laneSign, hlt.notInt, Bool.false_eq_true, if_false, isNan_flush hlt.toProper flush x]

/-- The lesser and the greater of two lanes, in the order of R141. -/
theorem laneExtreme_float (largest : Bool) : laneExtreme largest lt flush x y =
    if (fpRead (laneFormat lt) false x).isNan || (fpRead (laneFormat lt) false y).isNan then
      ((laneFormat lt).nan, (fpRead (laneFormat lt) flush x).inputFlag ||| (fpRead (laneFormat lt) flush y).inputFlag)
    else (if (if largest then orderKey (laneFormat lt) (flushed (laneFormat lt) flush x) < orderKey (laneFormat lt) (flushed (laneFormat lt) flush y)
      else orderKey (laneFormat lt) (flushed (laneFormat lt) flush y) < orderKey (laneFormat lt) (flushed (laneFormat lt) flush x)) then flushed (laneFormat lt) flush y
      else flushed (laneFormat lt) flush x, 0) := by
  simp only [laneExtreme, hlt.notInt, Bool.false_eq_true, if_false, isNan_flush hlt.toProper flush]

end

theorem invalid_or (p q : Bool) : (if p then Flag.iv else 0) ||| (if q then Flag.iv else 0) = if p || q then Flag.iv else (0 : Flags) := by
  cases p <;> cases q <;> rfl

/-- The zeros of a format in the order of encodings. -/
theorem orderKey_zeros (f : FpFormat) : orderKey f 0 = 0 ∧ orderKey f f.signBit = -1 := by
  simp [orderKey, Nat.div_self f.signBit_pos]

/-- An encoding of magnitude zero is one of the two zeros. -/
theorem zero_or_signBit {f : FpFormat} {x : Nat} (hx : x < 2 ^ f.width) (h : x % f.signBit = 0) : x = 0 ∨ x = f.signBit := by
  have := encoding_eq hx
  rw [h, add_zero] at this
  split at this
  · exact .inr this.symm
  · exact .inl this.symm

/-- Settles O31: each lane operation by the NaNs and the keys of what it reads, and exact writing by the encodings' magnitudes. -/
theorem floatLaneResults : Obligations.FloatLaneResults := by
  unfold Obligations.FloatLaneResults
  refine ⟨fun lt flush x y hlt hx hy => ?_, fun f hf x mode hx _ hnan => fpWrite_fpRead ?_ hx rfl rfl hnan⟩
  · intro f nan signalling readAs
    replace hlt : FloatLane lt := floatLane (by simpa using hlt)
    have hread : readAs = flushed f flush := funext fun z => (flushed_eq f flush z).symm
    have hinput : ∀ z, (fpRead f flush z).inputFlag = if signalling z then Flag.iv else 0 := inputFlag_fpRead hlt.toIeee flush
    have hwidth : 2 ^ laneWidth lt = 2 * f.signBit := by rw [← hlt.width, f.two_signBit]
    have hrx := (flushed_le f flush x).trans_lt hx
    have hry := (flushed_le f flush y).trans_lt hy
    have hf : laneFormat lt = f := rfl
    rw [hread]
    refine ⟨fun hn => ?_, fun hn => ?_, fun hn negate => ?_, fun hn most => ?_, fun hnx hny => ?_⟩
    · rw [laneSign_float hlt, if_neg (Bool.eq_false_iff.1 hn)]
      rfl
    · rw [laneSign_float hlt, if_neg (Bool.eq_false_iff.1 hn), if_pos rfl]
      refine congrArg (·, 0) ?_
      rw [hf]
      rw [hwidth] at hrx ⊢
      split
      next h => rw [Nat.mod_eq_sub_mod (by omega), Nat.mod_eq_of_lt (by omega)]; omega
      next h => rw [Nat.mod_eq_of_lt (by omega)]
    · rw [laneSign_float hlt, if_pos hn, hinput]
    · rw [laneExtreme_float hlt, if_pos (by simpa using hn), hinput, hinput, invalid_or]
    · have hnot : ¬ ((fpRead (laneFormat lt) false x).isNan || (fpRead (laneFormat lt) false y).isNan) = true := by
        rw [show (fpRead (laneFormat lt) false x).isNan = false from hnx, show (fpRead (laneFormat lt) false y).isNan = false from hny]
        exact Bool.false_ne_true
      rw [laneExtreme_float hlt, laneExtreme_float hlt, if_neg hnot, if_neg hnot]
      simp only [Bool.false_eq_true, if_false, if_true, hf]
      refine ⟨by split <;> simp, trivial, fun k hk => ?_, by split <;> simp, trivial, fun h0x h0y hne => ?_⟩
      · have hlow : ∀ a b : Nat, orderKey f (if orderKey f b < orderKey f a then b else a) ≤ orderKey f a ∧ orderKey f (if orderKey f b < orderKey f a then b else a) ≤ orderKey f b := by
          intro a b
          split <;> constructor <;> omega
        have hhigh : ∀ a b : Nat, orderKey f a ≤ orderKey f (if orderKey f a < orderKey f b then b else a) ∧ orderKey f b ≤ orderKey f (if orderKey f a < orderKey f b then b else a) := by
          intro a b
          split <;> constructor <;> omega
        simp only [List.mem_cons, List.not_mem_nil, or_false] at hk
        obtain rfl | rfl := hk
        · exact ⟨numberKey_le (hlow _ _).1, numberKey_le (hhigh _ _).1⟩
        · exact ⟨numberKey_le (hlow _ _).2, numberKey_le (hhigh _ _).2⟩
      · obtain ⟨hz, hs⟩ := orderKey_zeros f
        rw [← hlt.width] at hrx hry
        obtain hx0 | hx0 := zero_or_signBit hrx h0x <;> obtain hy0 | hy0 := zero_or_signBit hry h0y <;> rw [hx0, hy0] at hne ⊢
        · exact absurd rfl hne
        · simp [hz, hs, f]
        · simp [hz, hs, f]
        · exact absurd rfl hne
  · simp only [List.mem_cons, List.not_mem_nil, or_false] at hf
    obtain rfl | rfl | rfl | rfl | rfl | rfl := hf <;> exact ⟨by decide, by decide⟩

end Sys2Proof.Machine
end

section
/-! PROOFS. What the issue of a slot's word leaves alone (R32, R69, R121), for the words of channels and packed lanes (O27, O29, O32).

An issue takes the cost, moves the arbiter and takes heads; an element, a grove, a task and a state without what those parts move (`still`) are the same before and after, so that one frame serves every reading of them. -/

namespace Sys2Proof.Machine
open Sys2Proof.Claims

/-! ### The frame of an issue -/

/-- An element without what a firing moves: its arbiter, its queues, its counts and its predictor. -/
def Elem.still (x : Elem) : Elem :=
  { x with active := { x.active with arb := 0, queue := [] }, taken := [], firings := [], passed := false, idles := [], resting := false, gated := false, arrived := none }

/-- A grove without its meters and its exits. -/
def Grove.still (x : Grove) : Grove := { x with allowance := 0, held := 0, exits := [] }

/-- A task without its meters. -/
def Task.still (x : Task) : Task := { x with progress := 0, issued := 0, steps := [], boostDrops := 0, boosting := false, fellBack := false, central := 0 }

/-- A state without its elements, groves, tasks and outstanding tokens. -/
def State.still (s : State) : State := { s with elems := [], groves := [], tasks := [], outst := [] }

/-- Between two states groves and tasks are the same but for their meters, and so are contexts and partitions. -/
structure SystemFrame (s u : State) : Prop where
  grove : ∀ g, (u.grove g).still = (s.grove g).still
  task : ∀ t, (u.task t).still = (s.task t).still
  ctxs : u.ctxs = s.ctxs
  parts : u.parts = s.parts

namespace SystemFrame

theorem trans {s u v : State} (h : SystemFrame s u) (h' : SystemFrame u v) : SystemFrame s v :=
  ⟨fun g => (h'.grove g).trans (h.grove g), fun t => (h'.task t).trans (h.task t), h'.ctxs.trans h.ctxs, h'.parts.trans h.parts⟩

theorem of_fields {s u : State} (hg : u.groves = s.groves) (ht : u.tasks = s.tasks) (hc : u.ctxs = s.ctxs) (hp : u.parts = s.parts) : SystemFrame s u :=
  ⟨fun g => by rw [State.grove, State.grove, hg], fun t => by rw [State.task, State.task, ht], hc, hp⟩

theorem groveView {s u : State} (h : SystemFrame s u) {α : Type} (φ : Grove → α) (g : Nat) (hφ : ∀ x : Grove, φ x.still = φ x := by exact fun _ => rfl) :
    φ (u.grove g) = φ (s.grove g) := by
  rw [← hφ, h.grove, hφ]

theorem taskView {s u : State} (h : SystemFrame s u) {α : Type} (φ : Task → α) (t : Nat) (hφ : ∀ x : Task, φ x.still = φ x := by exact fun _ => rfl) :
    φ (u.task t) = φ (s.task t) := by
  rw [← hφ, h.task, hφ]

/-- No meter is read by a system register. -/
theorem readSys {s u : State} (h : SystemFrame s u) (g n : Nat) : readSys u g n = readSys s g n := by
  have hgrove : ∃ a b c, u.grove g = { s.grove g with allowance := a, held := b, exits := c } :=
    ⟨(u.grove g).allowance, (u.grove g).held, (u.grove g).exits, congrArg (fun x : Grove => { x with allowance := (u.grove g).allowance, held := (u.grove g).held, exits := (u.grove g).exits }) (h.grove g)⟩
  have hpart : partWord u g = partWord s g := by simp only [partWord, State.partOfGrove, State.part, h.parts]
  have hctx : ∀ c, u.ctx c = s.ctx c := fun c => by rw [State.ctx, State.ctx, h.ctxs]
  obtain ⟨a, b, c, hx⟩ := hgrove
  unfold Machine.readSys
  simp only [hx, statusWord, selectedRecord, hpart, hctx, h.taskView Task.serial, h.taskView Task.ctx, h.taskView saveSize] <;> rfl

theorem systemKept {s u : State} (h : SystemFrame s u) : systemKept s u :=
  ⟨fun g n _ => h.readSys g n, fun p => by rw [State.part, State.part, h.parts], fun g => ⟨h.groveView Grove.traps g, h.groveView Grove.faults g, h.groveView Grove.stopped g⟩⟩

end SystemFrame

/-- Between two states only what a firing's issue moves has changed. -/
structure IssueFrame (s u : State) : Prop where
  elem : ∀ e, (u.elem e).still = (s.elem e).still
  grove : ∀ g, (u.grove g).still = (s.grove g).still
  task : ∀ t, (u.task t).still = (s.task t).still
  rest : u.still = s.still

namespace IssueFrame

theorem refl (s : State) : IssueFrame s s := ⟨fun _ => rfl, fun _ => rfl, fun _ => rfl, rfl⟩

theorem trans {s u v : State} (h : IssueFrame s u) (h' : IssueFrame u v) : IssueFrame s v :=
  ⟨fun e => (h'.elem e).trans (h.elem e), fun g => (h'.grove g).trans (h.grove g), fun t => (h'.task t).trans (h.task t), h'.rest.trans h.rest⟩

theorem foldl {α : Type} {f : State → α → State} (hf : ∀ s a, IssueFrame s (f s a)) (l : List α) (s : State) : IssueFrame s (l.foldl f s) := by
  induction l generalizing s with
  | nil => exact refl s
  | cons a l ih => exact (hf s a).trans (ih (f s a))

theorem of_modElem {s : State} {e : Nat} {f : Elem → Elem} (h : (f (s.elem e)).still = (s.elem e).still) : IssueFrame s (s.modElem e f) := by
  refine ⟨fun i => ?_, fun _ => rfl, fun _ => rfl, rfl⟩
  rw [State.modElem_elem]
  split
  next hi => rw [h, hi]
  next => rfl

theorem of_modGrove {s : State} {g : Nat} {f : Grove → Grove} (h : (f (s.grove g)).still = (s.grove g).still) : IssueFrame s (s.modGrove g f) :=
  ⟨fun _ => rfl, State.modGrove_keeps Grove.still h, fun _ => rfl, rfl⟩

theorem of_modTask {s : State} {t : Nat} {f : Task → Task} (h : (f (s.task t)).still = (s.task t).still) : IssueFrame s (s.modTask t f) := by
  refine ⟨fun e => by rw [State.modTask_elem], fun g => by rw [State.modTask_grove], State.modTask_keeps Task.still h, ?_⟩
  unfold State.modTask
  split <;> rfl

/-! What the frame keeps. -/

section
variable {s u : State} (h : IssueFrame s u)
include h

theorem elemView {α : Type} (φ : Elem → α) (e : Nat) (hφ : ∀ x : Elem, φ x.still = φ x := by exact fun _ => rfl) : φ (u.elem e) = φ (s.elem e) := by
  rw [← hφ, h.elem, hφ]

theorem groveView {α : Type} (φ : Grove → α) (g : Nat) (hφ : ∀ x : Grove, φ x.still = φ x := by exact fun _ => rfl) : φ (u.grove g) = φ (s.grove g) := by
  rw [← hφ, h.grove, hφ]

theorem taskView {α : Type} (φ : Task → α) (t : Nat) (hφ : ∀ x : Task, φ x.still = φ x := by exact fun _ => rfl) : φ (u.task t) = φ (s.task t) := by
  rw [← hφ, h.task, hφ]

theorem view {α : Type} (φ : State → α) (hφ : ∀ v : State, φ v.still = φ v := by exact fun _ => rfl) : φ u = φ s := by
  rw [← hφ, h.rest, hφ]

theorem cur : u.cur = s.cur := h.view State.cur

theorem nextTok : u.nextTok = s.nextTok := h.view State.nextTok

theorem tokens (q : Nat) : u.tokens q = s.tokens q := h.view (fun v => v.tokens q)

theorem strand (e k : Nat) : (u.elem e).active.strand k = (s.elem e).active.strand k := h.elemView (fun x => x.active.strand k) e

theorem sticky (e : Nat) : (u.elem e).sticky = (s.elem e).sticky := h.elemView Elem.sticky e

theorem memoryKept : memoryKept s u :=
  memoryKept_of (h.view State.mem) (h.view State.words) (h.view State.sectors) (h.view State.windows) (h.view State.banks)

theorem registersKept (d : Option (BitVec 6)) : registersKept s u d :=
  registersKept_of d (fun e k => by rw [h.strand]) (h.elemView (fun x => x.active.sreg)) (fun g => ⟨h.groveView (fun x => x.bank.w) g, h.groveView (fun x => x.bank.a) g⟩)

theorem predicatesKept : predicatesKept s u := predicatesKept_of (fun e k => by rw [h.strand]) (h.groveView (fun x => x.bank.p))

theorem stickyKept : stickyKept s u := ⟨fun e => ⟨h.sticky e, h.elemView Elem.matrixSticky e, h.elemView Elem.convSticky e⟩, h.groveView Grove.sticky⟩

theorem quiet : quiet s u := ⟨h.registersKept none, h.predicatesKept, h.stickyKept, h.memoryKept⟩

theorem curGen : curGen u = curGen s := by
  unfold Machine.curGen
  rw [h.cur]
  split
  · rw [h.strand]
  · rfl

theorem trapRoom (g : Nat) : trapRoom u g ↔ trapRoom s g := by
  have hroom : Claims.trapRoom u g = Claims.trapRoom s g := h.groveView (fun x => x.traps.length < 16 ∧ x.waitingTraps = []) g
  rw [hroom]

theorem systemFrame : SystemFrame s u where
  grove := h.grove
  task := h.task
  ctxs := h.view State.ctxs
  parts := h.view State.parts

end

end IssueFrame

/-! ### Every part of an issue keeps its frame -/

theorem dropAllowances_frame (gs : List Nat) (s : State) : IssueFrame s (dropAllowances s gs) := by
  induction gs generalizing s with
  | nil => exact .refl s
  | cons g gs ih =>
    refine .trans ?_ (ih _)
    exact .of_modGrove rfl

theorem gather_frame (s : State) (t : Nat) : IssueFrame s (gather s t) := by
  unfold gather
  exact (dropAllowances_frame _ s).trans (.of_modTask rfl)

theorem addBoost_still (a c : Nat) (x : Task) : (addBoost a c x).still = x.still := by
  simp only [addBoost]
  split
  · rfl
  · split <;> rfl

theorem countCost_frame (s : State) (t g cost : Nat) : IssueFrame s (countCost s t g cost) := by
  unfold countCost
  refine IssueFrame.trans (u := s.modGrove g (fun x => { x with held := x.held - (cost : Int) })) (.of_modGrove rfl) (.of_modTask ?_)
  rw [addBoost_still]
  rfl

theorem pay_frame (s : State) (g cost : Nat) : IssueFrame s (pay s g cost) := by
  unfold pay
  split
  · exact .refl s
  next t _ =>
    extract_lets a c u draw v
    have hu : IssueFrame s u := countCost_frame s t g cost
    split
    · exact hu.trans (.of_modGrove rfl)
    · split
      · exact (hu.trans (.of_modGrove rfl)).trans (.of_modTask rfl)
      · exact (hu.trans (gather_frame u t)).trans (.of_modTask rfl)

theorem noteStep_frame (s : State) (g : Nat) : IssueFrame s (noteStep s g) := by
  unfold noteStep
  split
  · exact .of_modTask rfl
  · exact .refl s

theorem supervising_slot {s : State} {e n : Nat} {k : BitVec 2} (hc : s.cur = .slot e k n) : s.supervising = false := by
  rw [State.supervising, hc]

theorem payWord_frame {s : State} {e n : Nat} {k : BitVec 2} (hc : s.cur = .slot e k n) (cost : Nat) : IssueFrame s (payWord s cost) := by
  rw [payWord, supervising_slot hc, if_neg Bool.false_ne_true]
  split
  · exact noteStep_frame s _
  · exact pay_frame s _ _

theorem advance_frame {s : State} {e n : Nat} {k : BitVec 2} (hc : s.cur = .slot e k n) (i : Instr) : IssueFrame s (advance s i) := by
  simp only [advance, hc]
  refine .of_modElem ?_
  unfold Elem.wakes
  split <;> rfl

theorem consumeCopy_frame (s : State) (tid : Nat) : IssueFrame s (consumeCopy s tid) := by
  unfold consumeCopy
  split
  · exact .refl s
  · split <;> exact ⟨fun _ => rfl, fun _ => rfl, fun _ => rfl, rfl⟩

theorem endExit_frame (s : State) (e ch : Nat) (t : Token) : IssueFrame s (endExit s e ch t) := by
  unfold endExit
  split
  · exact .of_modGrove rfl
  · exact .refl s

theorem takeHead_frame (s : State) (e ch : Nat) (k : Option Nat) : IssueFrame s (takeHead s e ch k) := by
  unfold takeHead
  split
  · exact .refl s
  next t rest _ =>
    refine ((IssueFrame.of_modElem ?_).trans (endExit_frame _ e ch t)).trans (consumeCopy_frame _ t.tid)
    exact (notePassed_keeps Elem.still (fun _ => rfl) t _).trans rfl

/-- The issue of a slot's word keeps all but the meters, the arbiter, the heads it takes and its counts. -/
theorem issued_frame {s : State} {e n : Nat} {k : BitVec 2} (hc : s.cur = .slot e k n) (i : Instr) : IssueFrame s (issued s i) := by
  have hp := payWord_frame hc (wordCost s (wordSig i))
  rw [issued_slot hc]
  exact (hp.trans (advance_frame (hp.cur.trans hc) i)).trans (.foldl (fun u ch => takeHead_frame u e ch _) _ _)

/-! ### Issue of a word that completes -/

theorem issueWord_issuable {i : Instr} {s : State} (hi : issuable s i = true) (effect : State → State → Effect) :
    issueWord i s effect = .next (conclude s i (effect s (issued s i))) := by
  rw [issueWord, if_pos hi]

theorem conclude_done {s : State} {e n : Nat} {k : BitVec 2} (hc : s.cur = .slot e k n) (i : Instr) (t : State) (f : Flags) : conclude s i (.done t f) = raiseFlags t f := by
  simp only [conclude, supervising_slot hc, Bool.false_and, Bool.false_eq_true, if_false]

@[simp] theorem raiseFlags_zero (s : State) : raiseFlags s 0 = s := if_pos rfl

/-- A word of a slot that completes without flags comes to its effect. -/
theorem issueWord_done {i : Instr} {s : State} {e n : Nat} {k : BitVec 2} (hc : s.cur = .slot e k n) (hi : issuable s i = true) (f : State → State → State) :
    issueWord i s (fun s0 s1 => .done (f s0 s1) 0) = .next (f s (issued s i)) := by
  rw [issueWord_issuable hi, conclude_done hc, raiseFlags_zero]

/-! ### What an issuable word of a slot has met (R29, R115) -/

theorem details_of_issuable {s : State} {i : Instr} (hi : issuable s i = true) : sigDetails (curKind s.cur) (wordSig i) = [] := by
  simp only [issuable, Bool.and_eq_true] at hi
  cases h : sigDetails (curKind s.cur) (wordSig i) with
  | nil => rfl
  | cons d ds => simp [h, lowest] at hi

theorem ready_of_issuable {s : State} {i : Instr} (hi : issuable s i = true) : wordReady s (wordSig i) = true := by
  simp only [issuable, Bool.and_eq_true] at hi
  exact hi.1.2

theorem opnd_of_issuable {s : State} {i : Instr} (hi : issuable s i = true) {o : Opnd} (ho : o ∈ (wordSig i).opnds) : opndDetails (curKind s.cur) o = [] := by
  have h := details_of_issuable hi
  simp only [sigDetails, List.append_eq_nil_iff, List.flatMap_eq_nil_iff] at h
  exact h.1.1 o ho

theorem details_of_sig {s : State} {i : Instr} (hi : issuable s i = true) : (wordSig i).details = [] := by
  have h := details_of_issuable hi
  simp only [sigDetails, List.append_eq_nil_iff] at h
  exact h.1.2

theorem unit_of_issuable {s : State} {i : Instr} (hi : issuable s i = true) : unitDetails (curKind s.cur) (wordSig i).unit = [] := by
  have h := details_of_issuable hi
  simp only [sigDetails, List.append_eq_nil_iff] at h
  exact h.2

theorem chanOf_slot {s : State} {e n : Nat} {k : BitVec 2} (hc : s.cur = .slot e k n) {c : BitVec 6} (h : 32 ≤ c.toNat) : chanOf s c = some (c.toNat - 32) := by
  simp only [chanOf, hc, if_pos h]

/-- A field that names a channel names one of an issuable word. -/
theorem chan_of_details {c : BitVec 6} (h : (if c.toNat < 32 then [3] else [] : List Nat) = []) : 32 ≤ c.toNat := by
  by_contra hc
  rw [if_pos (by omega)] at h
  exact absurd h (by simp)

theorem sendToken_slot {s : State} {e n : Nat} {k : BitVec 2} (hc : s.cur = .slot e k n) {d : BitVec 6} (hd : 32 ≤ d.toNat) (t : Token) :
    sendToken s d t = enqueue s e (d.toNat - 32) k.toNat t := by
  simp only [sendToken, hc, chanOf_slot hc hd]

theorem writeDst_chan {s : State} {e n : Nat} {k : BitVec 2} (hc : s.cur = .slot e k n) {d : BitVec 6} (hd : 32 ≤ d.toNat) (v : Option Word) :
    writeDst s d v = enqueue s e (d.toNat - 32) k.toNat (match v with
      | some x => freshToken s x
      | none => absentToken s) := by
  simp only [writeDst, chanOf_slot hc hd]
  exact sendToken_slot hc hd _

/-! ### An enqueue (R55, R59, R72) -/

/-- The token that an element enqueues on a channel, with its class, its status and its identity. -/
def enqueued (s : State) (e ch : Nat) (x : Token) : Token :=
  withStatus (s.elem e) { x with cls := BitVec.ofNat 6 (chanClass ((s.elem e).active.chanWord ch)), tid := s.nextTok }

theorem withStatus_fields (x : Elem) (t : Token) :
    (withStatus x t).cls = t.cls ∧ (withStatus x t).gen = t.gen ∧ (withStatus x t).mark = t.mark ∧ (withStatus x t).frame = t.frame ∧ (withStatus x t).pres = t.pres ∧
    (withStatus x t).payload = (if t.mark = 3 then t.payload ||| (elemFlags x).zeroExtend 64 else t.payload) ∧ (withStatus x t).tid = t.tid := by
  unfold withStatus
  split
  · exact ⟨rfl, rfl, rfl, rfl, rfl, rfl, rfl⟩
  · exact ⟨rfl, rfl, rfl, rfl, rfl, rfl, rfl⟩

/-- Two states have the same fields but for the banks, and each bank its owner. -/
def marksBanks (s u : State) : Prop := (∃ b, u = { s with banks := b }) ∧ ∀ b, (u.bank b).owner = (s.bank b).owner

theorem marksBanks_foldl {α : Type} {f : State → α → State} (hf : ∀ s u a, marksBanks s u → marksBanks s (f u a)) (l : List α) {s u : State} (h : marksBanks s u) :
    marksBanks s (l.foldl f u) := by
  induction l generalizing u with
  | nil => exact h
  | cons a l ih => exact ih (hf s u a h)

theorem marksBanks_refl (s : State) : marksBanks s s := ⟨⟨s.banks, rfl⟩, fun _ => rfl⟩

theorem noteHandMark_marksBanks (s : State) (e ch : Nat) : marksBanks s (noteHandMark s e ch) := by
  refine marksBanks_foldl (fun s u d h => ?_) _ (marksBanks_refl s)
  split
  · obtain ⟨⟨b, rfl⟩, ho⟩ := h
    refine ⟨⟨_, rfl⟩, fun i => ?_⟩
    rw [State.modBank_bank]
    split
    next hi => rw [hi]; exact ho _
    next => exact ho i
  · exact h

/-- What an enqueued token counts as (R72). -/
def enqueuedOutst (s : State) (e ch k : Nat) (x : Token) : Outst :=
  { elem := e, ch := BitVec.ofNat 5 ch, copies := 1, gen := x.gen, strand := BitVec.ofNat 3 k, cls := BitVec.ofNat 6 (chanClass ((s.elem e).active.chanWord ch)) }

/-- The state after an enqueue, with the banks that it leaves. -/
def afterEnqueue (s : State) (e ch k : Nat) (x : Token) (b : SMap Bank) : State :=
  { s with
    banks := b
    nextTok := s.nextTok + 1
    fabric := mset s.fabric (queueKey e (.out (BitVec.ofNat 5 ch))) (s.tokens (queueKey e (.out (BitVec.ofNat 5 ch))) ++ [enqueued s e ch x])
    outst := if s.nextTok = 0 then s.outst else mset s.outst s.nextTok (enqueuedOutst s e ch k x) }

/-- An enqueue appends its token, counts it as outstanding, and changes else only which banks are marked. -/
theorem enqueue_eq (s : State) (e ch k : Nat) (x : Token) : ∃ b, enqueue s e ch k x = afterEnqueue s e ch k x b ∧ ∀ i, ((afterEnqueue s e ch k x b).bank i).owner = (s.bank i).owner := by
  have hmark : marksBanks s (if (enqueued s e ch x).mark = 3 then noteHandMark s e ch else s) := by
    split
    · exact noteHandMark_marksBanks s e ch
    · exact marksBanks_refl s
  obtain ⟨⟨b, hb⟩, ho⟩ := hmark
  rw [hb] at ho
  obtain ⟨hcls, hgen, -⟩ := withStatus_fields (s.elem e) { x with cls := BitVec.ofNat 6 (chanClass ((s.elem e).active.chanWord ch)), tid := s.nextTok }
  refine ⟨b, ?_, ho⟩
  rw [enqueued] at hb
  unfold enqueue enqueueAs afterEnqueue enqueuedOutst enqueued
  simp only [hb, hcls, hgen]
  split <;> rfl

theorem enqueue_tokens (s : State) (e ch k : Nat) (x : Token) (q : Nat) : (enqueue s e ch k x).tokens q =
    if q = queueKey e (.out (BitVec.ofNat 5 ch)) then s.tokens q ++ [enqueued s e ch x] else s.tokens q := by
  obtain ⟨b, h, -⟩ := enqueue_eq s e ch k x
  rw [h, afterEnqueue]
  simp only [State.tokens, mget_mset]
  split
  next hq => rw [hq]
  next => rfl

theorem enqueue_outst {s : State} (hn : s.nextTok ≠ 0) (e ch k : Nat) (x : Token) : mfind (enqueue s e ch k x).outst s.nextTok = some (enqueuedOutst s e ch k x) := by
  obtain ⟨b, h, -⟩ := enqueue_eq s e ch k x
  rw [h, afterEnqueue]
  simp only [if_neg hn, mfind_mset_same]

theorem enqueue_quiet (s : State) (e ch k : Nat) (x : Token) : quiet s (enqueue s e ch k x) := by
  obtain ⟨b, h, ho⟩ := enqueue_eq s e ch k x
  rw [h]
  exact ⟨registersKept_of none (fun _ _ => rfl) (fun _ => rfl) (fun _ => ⟨rfl, rfl⟩), predicatesKept_of (fun _ _ => rfl) (fun _ => rfl),
    ⟨fun _ => ⟨rfl, rfl, rfl⟩, fun _ => rfl⟩, fun _ => rfl, rfl, rfl, rfl, ho⟩

theorem enqueue_elem (s : State) (e ch k : Nat) (x : Token) (i : Nat) : (enqueue s e ch k x).elem i = s.elem i := by
  obtain ⟨b, h, -⟩ := enqueue_eq s e ch k x
  rw [h]
  rfl

theorem enqueue_cur (s : State) (e ch k : Nat) (x : Token) : (enqueue s e ch k x).cur = s.cur := by
  obtain ⟨b, h, -⟩ := enqueue_eq s e ch k x
  rw [h]
  rfl

theorem enqueue_system (s : State) (e ch k : Nat) (x : Token) : SystemFrame s (enqueue s e ch k x) := by
  obtain ⟨b, h, -⟩ := enqueue_eq s e ch k x
  rw [h]
  exact .of_fields rfl rfl rfl rfl

/-! ### Channel words (O27) -/

section
variable {s : State} {e n : Nat} {k : BitVec 2} (hc : s.cur = .slot e k n)
include hc

theorem eats_inb {i : Instr} {o : Opnd} {c : BitVec 6} (h : 32 ≤ c.toNat) (ho : opndEats s o = []) (hs : (wordSig i).opnds = [o, .inb c]) : eats s (wordSig i) = [c.toNat - 32] := by
  have h' : opndEats s (.inb c) = [c.toNat - 32] := by rw [opndEats, chanOf_slot hc h, Option.toList_some]
  simp [eats, hs, ho, h']

/-- A head that a word reads or takes is there and no wave marker (R29, R69). -/
theorem curHead_of_needed {i : Instr} (hi : issuable s i = true) {ch : Nat} (h : ch ∈ needsHeads s (wordSig i)) : ∃ x, headOf s e ch = some x ∧ curHead s ch = some x := by
  have hr := ready_of_issuable hi
  simp only [wordReady, Bool.and_eq_true, List.all_eq_true] at hr
  have hs := hr.1.1.1.1 ch h
  rw [curHead, curElem, hc] at hs ⊢
  simp only [sourceHead] at hs ⊢
  cases hx : headOf s e ch with
  | none => simp [hx] at hs
  | some x =>
    cases hw : x.isWave with
    | true => simp [hx, hw] at hs
    | false => exact ⟨x, rfl, by simp [hw]⟩

theorem forwarded_head {i : Instr} (hi : issuable s i = true) {a : BitVec 6} (ha : 32 ≤ a.toNat) (h : a.toNat - 32 ∈ needsHeads s (wordSig i)) :
    headOf s e (a.toNat - 32) = some (forwarded s a) := by
  obtain ⟨x, hx, hcur⟩ := curHead_of_needed hc hi h
  simp only [forwarded, chanOf_slot hc ha, hcur, Option.getD_some, hx]

theorem exec_readHead {i : Instr} (hi : issuable s i = true) (d a : BitVec 6) : readHead i s d a = .next (match srcVal s a with
    | some v => writeReg (issued s i) d v
    | none => issued s i) :=
  issueWord_done hc hi _

theorem exec_send {t d a : BitVec 6} (hi : issuable s (.send t d a) = true) :
    exec (.send t d a) s = .next (enqueue (issued s (.send t d a)) e (d.toNat - 32) k.toNat (match srcVal s a with
      | some v => { payload := v, gen := curGen s }
      | none => { gen := curGen s, pres := false })) := by
  have hd : 32 ≤ d.toNat := chan_of_details (opnd_of_issuable hi (o := .out d) (by simp [wordSig]))
  have hf := issued_frame hc (.send t d a)
  have he : exec (.send t d a) s = .next (writeDst (issued s (.send t d a)) d (srcVal s a)) :=
    issueWord_done hc hi (fun s0 s1 => writeDst s1 d (srcVal s0 a))
  rw [he, writeDst_chan (hf.cur.trans hc) hd]
  simp only [freshToken, absentToken, hf.curGen] <;> rfl

theorem exec_fwd {t d a : BitVec 6} (hi : issuable s (.fwd t d a) = true) :
    ∃ x, headOf s e (a.toNat - 32) = some x ∧ exec (.fwd t d a) s = .next (enqueue (issued s (.fwd t d a)) e (d.toNat - 32) k.toNat x) := by
  have hd : 32 ≤ d.toNat := chan_of_details (opnd_of_issuable hi (o := .out d) (by simp [wordSig]))
  have ha : 32 ≤ a.toNat := chan_of_details (opnd_of_issuable hi (o := .inb a) (by simp [wordSig]))
  have hf := issued_frame hc (.fwd t d a)
  have he : exec (.fwd t d a) s = .next (sendToken (issued s (.fwd t d a)) d (forwarded s a)) :=
    issueWord_done hc hi (fun s0 s1 => sendToken s1 d (forwarded s0 a))
  refine ⟨forwarded s a, forwarded_head hc hi ha ?_, by rw [he, sendToken_slot (hf.cur.trans hc) hd]⟩
  rw [needsHeads, eats_inb hc ha rfl rfl]
  simp

theorem exec_mark {t d b : BitVec 6} (hi : issuable s (.mark t d b) = true) : 1 ≤ b.toNat ∧ b.toNat ≤ 3 ∧
    exec (.mark t d b) s = .next (enqueue (issued s (.mark t d b)) e (d.toNat - 32) k.toNat { gen := curGen s, mark := BitVec.ofNat 3 b.toNat }) := by
  have hd : 32 ≤ d.toNat := chan_of_details (opnd_of_issuable hi (o := .out d) (by simp [wordSig]))
  have hb : 1 ≤ b.toNat ∧ b.toNat ≤ 3 := by
    have h := details_of_sig hi
    by_contra hb
    have hn : (decide (1 ≤ b.toNat) && decide (b.toNat ≤ 3)) = false := by simpa using hb
    simp [wordSig, rawDetail, hn] at h
  have hf := issued_frame hc (.mark t d b)
  have he : exec (.mark t d b) s = .next (sendToken (issued s (.mark t d b)) d { gen := curGen s, mark := b.setWidth 3 }) :=
    issueWord_done hc hi (fun s0 s1 => sendToken s1 d { gen := curGen s0, mark := b.setWidth 3 })
  rw [he, sendToken_slot (hf.cur.trans hc) hd]
  exact ⟨hb.1, hb.2, rfl⟩

/-- The state with the next generation of a strand. -/
def nextGen (s : State) (e k : Nat) : State :=
  s.modElem e (fun x => { x with active := x.active.setStrand k { x.active.strand k with gen := (x.active.strand k).gen + 1 } })

omit hc in
theorem nextGen_quiet (s : State) (e k : Nat) : quiet s (nextGen s e k) := by
  refine ⟨registersKept_modElem none (Plane.setStrand_keeps Strand.w rfl) rfl, predicatesKept_modElem (Plane.setStrand_keeps Strand.p rfl), ⟨fun i => ?_, fun _ => rfl⟩, memoryKept_modElem _ _ _⟩
  rw [nextGen, State.modElem_elem]
  split
  next hi => rw [hi]; exact ⟨rfl, rfl, rfl⟩
  next => exact ⟨rfl, rfl, rfl⟩

omit hc in
theorem nextGen_gen (s : State) (e : Nat) (k j : BitVec 2) :
    (((nextGen s e k.toNat).elem e).active.strand j.toNat).gen = if j = k then ((s.elem e).active.strand k.toNat).gen + 1 else ((s.elem e).active.strand j.toNat).gen := by
  rw [nextGen, State.modElem_elem, if_pos rfl, Plane.setStrand_strand]
  by_cases hj : j = k
  · rw [if_pos ⟨congrArg _ hj, k.isLt⟩, if_pos hj]
  · rw [if_neg (fun h => hj (BitVec.toNat_inj.1 h.1)), if_neg hj]

theorem exec_gnext {t : BitVec 6} (hi : issuable s (.gnext t) = true) : exec (.gnext t) s = .next (nextGen (issued s (.gnext t)) e k.toNat) := by
  have he := issueWord_done hc hi (fun s0 s1 => match s0.cur with
    | .slot e k _ => nextGen s1 e k.toNat
    | .word _ _ => s1)
  refine Eq.trans ?_ (he.trans ?_)
  · rfl
  · simp only [hc]

theorem gnext_moves {t : BitVec 6} (hi : issuable s (.gnext t) = true) : ∃ u, exec (.gnext t) s = .next u ∧ ((u.elem e).active.strand k.toNat).gen = curGen s + 1 ∧
    (∀ j : BitVec 2, j ≠ k → ((u.elem e).active.strand j.toNat).gen = ((s.elem e).active.strand j.toNat).gen) ∧ quiet s u := by
  have hf := issued_frame hc (.gnext t)
  refine ⟨_, exec_gnext hc hi, ?_, fun j hj => ?_, quiet_trans hf.quiet (nextGen_quiet _ _ _)⟩
  · rw [nextGen_gen, if_pos rfl, hf.strand, curGen, hc]
  · rw [nextGen_gen, if_neg hj, hf.strand]

end

/-- Settles O27: every channel word comes to one write or one enqueue on the state that its issue leaves. -/
theorem channelWordResults : Obligations.ChannelWordResults := by
  unfold Obligations.ChannelWordResults
  refine ⟨fun t d a b s e n k hc => ⟨fun hi => ⟨exec_readHead hc hi d a, ?_⟩, fun hi => ⟨exec_readHead hc hi d a, ?_⟩, fun hi => exec_send hc hi, fun hi => exec_fwd hc hi,
    fun hi => ⟨issueWord_done hc hi (fun _ s1 => s1), ?_⟩, fun hi => exec_mark hc hi, fun hi => gnext_moves hc hi⟩, fun s e ch k x _ => ?_⟩
  · exact eats_inb hc (chan_of_details (opnd_of_issuable hi (o := .inb a) (by simp [wordSig]))) rfl rfl
  · rfl
  · have ha : 32 ≤ a.toNat := chan_of_details (opnd_of_issuable hi (o := .inb a) (by simp [wordSig]))
    simp [eats, wordSig, opndEats, chanOf_slot hc ha]
  · obtain ⟨hcls, hgen, hmark, hframe, hpres, hpay, htid⟩ := withStatus_fields (s.elem e) { x with cls := BitVec.ofNat 6 (chanClass ((s.elem e).active.chanWord ch)), tid := s.nextTok }
    refine ⟨⟨enqueued s e ch x, by rw [enqueue_tokens, if_pos rfl], hcls, hgen, hmark, hframe, hpres, hpay, htid⟩, fun q hq => by rw [enqueue_tokens, if_neg hq],
      fun hn => enqueue_outst hn e ch k x, enqueue_quiet s e ch k x⟩

end Sys2Proof.Machine
end

section
/-! PROOFS. Packed-lane words (O29): the write of the lanes, and the flags of a word that has completed (R54, R56). -/

namespace Sys2Proof.Machine
open Sys2Proof.Claims

/-! ### Frames in a row -/

theorem registersKept_any {s u : State} (h : registersKept s u none) (d : Option (BitVec 6)) : registersKept s u d := fun w c hc _ => h w c hc (by simp)

theorem registersKept_trans {s u v : State} {d : Option (BitVec 6)} (h : registersKept s u d) (h' : registersKept u v d) (hc : u.cur = s.cur) : registersKept s v d :=
  fun w c hr hd => (h' w c hr (by rwa [hc])).trans (h w c hr hd)

theorem predicatesKept_trans {s u v : State} (h : predicatesKept s u) (h' : predicatesKept u v) : predicatesKept s v := fun w => (h' w).trans (h w)

theorem memoryKept_trans {s u v : State} (h : memoryKept s u) (h' : memoryKept u v) : memoryKept s v := by
  obtain ⟨hm, hw, hs, hi, hb⟩ := h
  obtain ⟨hm', hw', hs', hi', hb'⟩ := h'
  exact ⟨fun a => (hm' a).trans (hm a), hw'.trans hw, hs'.trans hs, hi'.trans hi, fun b => (hb' b).trans (hb b)⟩

/-! ### A result written by a slot (R69, R107) -/

/-- Between two states of the same issuing slot a destination may have changed, in the fabric or a register, and predicates. -/
structure ResultFrame (s u : State) (d : Option (BitVec 6)) : Prop where
  cur : u.cur = s.cur
  registers : registersKept s u d
  memory : memoryKept s u
  system : SystemFrame s u
  sticky : ∀ e, (u.elem e).sticky = (s.elem e).sticky
  traps : ∀ e k, ((u.elem e).active.strand k).traps = ((s.elem e).active.strand k).traps

namespace ResultFrame

theorem refl (s : State) (d : Option (BitVec 6)) : ResultFrame s s d :=
  ⟨rfl, fun _ _ _ _ => rfl, memoryKept_of rfl rfl rfl rfl rfl, .of_fields rfl rfl rfl rfl, fun _ => rfl, fun _ _ => rfl⟩

theorem of_issue {s u v : State} {d : Option (BitVec 6)} (h : IssueFrame s u) (h' : ResultFrame u v d) : ResultFrame s v d where
  cur := h'.cur.trans h.cur
  registers := registersKept_trans (h.registersKept _) h'.registers h.cur
  memory := memoryKept_trans h.memoryKept h'.memory
  system := h.systemFrame.trans h'.system
  sticky e := (h'.sticky e).trans (h.sticky e)
  traps e k := (h'.traps e k).trans (congrArg Strand.traps (h.strand e k))

theorem trapEnables {s u : State} {d : Option (BitVec 6)} (h : ResultFrame s u d) {e n : Nat} {k : BitVec 2} (hc : s.cur = .slot e k n) : trapEnables u = trapEnables s := by
  simp only [Machine.trapEnables, h.cur, hc, h.traps]

end ResultFrame

theorem Plane.putReg_traps (p : Plane) (k j : Nat) (d : BitVec 6) (v : Word) : ((p.putReg k d v).strand j).traps = (p.strand j).traps := by
  unfold Plane.putReg
  split
  · refine Plane.setStrand_keeps Strand.traps ?_ j
    rfl
  · rfl

theorem writeReg_frame {s : State} {e n : Nat} {k : BitVec 2} (hc : s.cur = .slot e k n) (d : BitVec 6) (v : Word) : ResultFrame s (writeReg s d v) (some d) ∧ predicatesKept s (writeReg s d v) := by
  by_cases hd : d.toNat < 16 ∨ 24 ≤ d.toNat ∧ d.toNat < 32
  · have hr : readable (curKind s.cur) true d = true := by rwa [hc, readable_slot_iff]
    have hw := writeReg_slot hc hd v
    refine ⟨⟨by rw [hw]; rfl, registersKept_writeReg v hr, memoryKept_writeReg v hr, by rw [hw]; exact .of_fields rfl rfl rfl rfl, fun i => ?_, fun i j => ?_⟩, predicatesKept_writeReg v hr⟩
    · rw [hw, State.modElem_elem]
      split
      next hi => rw [hi]
      next => rfl
    · rw [hw, State.modElem_elem]
      split
      next hi => rw [hi, Plane.putReg_traps]
      next => rfl
  · have hw : writeReg s d v = s := by
      simp only [writeReg, hc, if_neg (fun h => hd (.inl h)), if_neg (fun h => hd (.inr h))]
    rw [hw]
    exact ⟨.refl s _, fun _ => rfl⟩

theorem enqueue_frame (s : State) (e ch k : Nat) (x : Token) (d : Option (BitVec 6)) : ResultFrame s (enqueue s e ch k x) d ∧ predicatesKept s (enqueue s e ch k x) := by
  obtain ⟨hr, hp, hs, hm⟩ := enqueue_quiet s e ch k x
  exact ⟨⟨enqueue_cur s e ch k x, registersKept_any hr _, hm, enqueue_system s e ch k x, fun i => (hs.1 i).1, fun i j => by rw [enqueue_elem]⟩, hp⟩

/-- A slot's result: a register reads as written, or a fresh token goes to the channel; code 16 takes neither. -/
theorem writeDst_frame {s : State} {e n : Nat} {k : BitVec 2} (hc : s.cur = .slot e k n) (d : BitVec 6) (v : Word) : ResultFrame s (writeDst s d (some v)) (some d) ∧ predicatesKept s (writeDst s d (some v)) := by
  by_cases hd : 32 ≤ d.toNat
  · rw [writeDst_chan hc hd]
    exact enqueue_frame _ _ _ _ _ _
  · rw [writeDst, chanOf_low s (by omega)]
    exact writeReg_frame hc d v

theorem regVal_writeDst {s : State} {e n : Nat} {k : BitVec 2} (hc : s.cur = .slot e k n) {d : BitVec 6} (hd : d.toNat < 16 ∨ 24 ≤ d.toNat ∧ d.toNat < 32) (v : Word) :
    regVal (writeDst s d (some v)) d = v := by
  rw [writeDst, chanOf_low s (by omega)]
  exact regVal_writeReg_same v (by rwa [hc, readable_slot_iff])

theorem sendsToken_writeDst {s : State} {e n : Nat} {k : BitVec 2} (hc : s.cur = .slot e k n) {d : BitVec 6} (hd : 32 ≤ d.toNat) (v : Word) :
    sendsToken s (writeDst s d (some v)) e (d.toNat - 32) (fun x => x.payload = v ∧ x.gen = curGen s ∧ x.mark = 0 ∧ x.pres = true) := by
  refine ⟨enqueued s e (d.toNat - 32) (freshToken s v), ?_, rfl, rfl, rfl, rfl⟩
  rw [writeDst_chan hc hd, enqueue_tokens, if_pos rfl]

/-! ### Flags of a slot's word that has completed (R54, R56) -/

/-- The lowest flag is set, and none below it. -/
theorem lowestFlag_spec : ∀ g : Flags, g ≠ 0 → lowestFlag g < 6 ∧ g.getLsbD (lowestFlag g) = true ∧ ∀ m, m < lowestFlag g → g.getLsbD m = false := by
  decide

section
variable {s : State} {e n : Nat} {k : BitVec 2} (hc : s.cur = .slot e k n)
include hc

theorem orSticky_slot (f : Flags) : orSticky s f = s.modElem e (fun x => { x with sticky := setAt x.sticky k.toNat ((x.sticky[k.toNat]?.getD 0) ||| f) }) := by
  simp only [orSticky, hc]

theorem orSticky_takesFlags (f : Flags) : takesFlags s (orSticky s f) e k f := by
  have hk : k.toNat < 4 := k.isLt
  rw [orSticky_slot hc, takesFlags, State.modElem_elem, if_pos rfl]
  refine ⟨by simp [setAt, hk], fun j hj => ?_⟩
  have hne : k.toNat ≠ j.toNat := fun h => hj (BitVec.toNat_inj.1 h.symm)
  simp [setAt, hne]

/-- What the class-1 cause of a flag comes to: the element stops, with a record where there is room. -/
theorem flagCause_slot (f : Flags) : ∃ r : TrapRec, flagCause s f = queueTrap (stopUnit s (.elem e)) (groveOf e) r ∧ r.cause = 0x040 + lowestFlag (f &&& trapEnables s) ∧ r.src = 0 := by
  have hlow : ∀ g : Flags, 0x040 + lowestFlag g < 0x1C4 := by decide
  simp only [flagCause, hc, raiseSlot]
  rw [raise_below_monitor (hlow _)]
  exact ⟨_, rfl, rfl, rfl⟩

theorem flagCause_keeps (f : Flags) : quiet s (flagCause s f) ∧ (flagCause s f).cur = s.cur ∧ (flagCause s f).fabric = s.fabric := by
  obtain ⟨r, hr, -⟩ := flagCause_slot hc f
  rw [hr]
  exact ⟨quiet_trans (quiet_modElem rfl rfl rfl rfl) (queueTrap_quiet _ _ _), rfl, rfl⟩

theorem flagCause_stops (f : Flags) : ((flagCause s f).elem e).stopped = true ∧
    (trapRoom s (groveOf e) → trapped s (flagCause s f) (groveOf e) (0x040 + lowestFlag (f &&& trapEnables s)) 0) := by
  obtain ⟨r, hr, hcause, hsrc⟩ := flagCause_slot hc f
  rw [hr]
  refine ⟨?_, fun hroom => ?_⟩
  · rw [queueTrap, State.modGrove_elem, stopUnit, State.modElem_elem, if_pos rfl]
  · rw [← hcause, ← hsrc]
    exact queueTrap_trapped (s := stopUnit s (.elem e)) hroom

theorem orSticky_keeps (f : Flags) : registersKept s (orSticky s f) none ∧ predicatesKept s (orSticky s f) ∧ memoryKept s (orSticky s f) ∧
    (orSticky s f).cur = s.cur ∧ (orSticky s f).fabric = s.fabric ∧ trapEnables (orSticky s f) = trapEnables s ∧ SystemFrame s (orSticky s f) := by
  rw [orSticky_slot hc]
  refine ⟨registersKept_modElem none (fun _ => rfl) rfl, predicatesKept_modElem (fun _ => rfl), memoryKept_modElem _ _ _, rfl, rfl, ?_, .of_fields rfl rfl rfl rfl⟩
  simp only [trapEnables, State.modElem_cur, hc, State.modElem_elem, if_true]

/-- The flags of a completed word go to the strand's sticky register, and change else only what its trap does. -/
theorem raiseFlags_keeps (f : Flags) : registersKept s (raiseFlags s f) none ∧ predicatesKept s (raiseFlags s f) ∧ memoryKept s (raiseFlags s f) ∧
    (raiseFlags s f).cur = s.cur ∧ (raiseFlags s f).fabric = s.fabric ∧ takesFlags s (raiseFlags s f) e k f := by
  obtain ⟨hr, hp, hm, hcur, hfab, -, -⟩ := orSticky_keeps hc f
  have ht := orSticky_takesFlags hc f
  unfold raiseFlags
  split
  next hf =>
    subst hf
    have hk : k.toNat < 4 := k.isLt
    refine ⟨fun _ _ _ _ => rfl, fun _ => rfl, memoryKept_of rfl rfl rfl rfl rfl, rfl, rfl, ?_, fun _ _ => rfl⟩
    simp [hk]
  next =>
    split
    · exact ⟨hr, hp, hm, hcur, hfab, ht⟩
    · obtain ⟨⟨hr', hp', ⟨hst', -⟩, hm'⟩, hcur', hfab'⟩ := flagCause_keeps (hcur.trans hc) f
      refine ⟨registersKept_trans hr hr' hcur, predicatesKept_trans hp hp', memoryKept_trans hm hm', hcur'.trans hcur, hfab'.trans hfab, ?_⟩
      unfold takesFlags
      rw [(hst' e).1]
      exact ht

theorem raiseFlags_system {f : Flags} (h : f &&& trapEnables s = 0) : SystemFrame s (raiseFlags s f) := by
  obtain ⟨-, -, -, -, -, -, hsys⟩ := orSticky_keeps hc f
  by_cases hf : f = 0
  · rw [raiseFlags, if_pos hf]
    exact .of_fields rfl rfl rfl rfl
  · rw [raiseFlags, if_neg hf, if_pos h]
    exact hsys

/-- The lowest enabled flag of a completed word stops its element. -/
theorem raiseFlags_traps {f : Flags} (h : f &&& trapEnables s ≠ 0) : ((raiseFlags s f).elem e).stopped = true ∧
    (trapRoom s (groveOf e) → trapped s (raiseFlags s f) (groveOf e) (0x040 + lowestFlag (f &&& trapEnables s)) 0) := by
  obtain ⟨-, -, -, hcur, -, hen, hsys⟩ := orSticky_keeps hc f
  have hf : f ≠ 0 := by
    rintro rfl
    exact h BitVec.zero_and
  rw [raiseFlags, if_neg hf, if_neg h]
  obtain ⟨hstop, htrap⟩ := flagCause_stops (hcur.trans hc) f
  rw [hen] at htrap
  refine ⟨hstop, fun hroom => ?_⟩
  have hgrove : ∀ g, (orSticky s f).grove g = s.grove g := fun g => by rw [orSticky_slot hc, State.modElem_grove]
  have hroom' : trapRoom (orSticky s f) (groveOf e) := by rwa [trapRoom, hgrove]
  obtain ⟨x, hx, hx'⟩ := htrap hroom'
  exact ⟨x, by rw [hx, hgrove], hx'⟩

end

/-! ### A slot's word with a result and flags -/

/-- What a word that writes a state and raises flags comes to, seen from the state before its result. -/
theorem raiseFlags_result {s t : State} {e n : Nat} {k : BitVec 2} {d : Option (BitVec 6)} (hc : s.cur = .slot e k n) (h : ResultFrame s t d) (f : Flags) :
    registersKept s (raiseFlags t f) d ∧ predicatesKept t (raiseFlags t f) ∧ memoryKept s (raiseFlags t f) ∧ takesFlags s (raiseFlags t f) e k f ∧ flagTrap s (raiseFlags t f) e f := by
  have hct := h.cur.trans hc
  obtain ⟨hr, hp, hm, -, -, ht⟩ := raiseFlags_keeps hct f
  have hen := h.trapEnables hc
  refine ⟨registersKept_trans h.registers (registersKept_any hr _) h.cur, hp, memoryKept_trans h.memory hm, ?_, fun h0 => ?_, fun h0 => ?_⟩
  · rwa [takesFlags, h.sticky] at ht
  · exact (h.system.trans (raiseFlags_system hct (by rwa [hen]))).systemKept
  · obtain ⟨hstop, htrap⟩ := raiseFlags_traps hct (f := f) (by rwa [hen])
    have htraps := h.system.groveView Grove.traps (groveOf e)
    obtain ⟨hlt, hset, hlow⟩ := lowestFlag_spec _ h0
    refine ⟨hstop, fun hroom => ⟨_, hlt, hset, hlow, ?_⟩⟩
    have hroom' : trapRoom t (groveOf e) := by
      rwa [trapRoom, htraps, h.system.groveView Grove.waitingTraps (groveOf e)]
    obtain ⟨x, hx, hx'⟩ := htrap hroom'
    exact ⟨x, by rw [hx, htraps], by rwa [← hen]⟩

/-! ### The packed-lane words (O29) -/

theorem State.with_cur {s : State} {c : Cur} (h : s.cur = c) : { s with cur := c } = s := by rw [← h]

/-- A packed-lane word with a result is one of the compute elements, with its destination among its operands, and goes through the shared lane issue. -/
theorem laneForm_spec {i : Instr} {vop lt st rm : Nat} {d : BitVec 6} {srcs : List (BitVec 6)} (h : laneForm i = some (vop, lt, st, rm, d, srcs)) :
    (∀ s, exec i s = laneOp i s vop lt st rm d srcs) ∧ (wordSig i).unit = .cElem ∧ .dst d ∈ (wordSig i).opnds := by
  unfold laneForm at h
  split at h
  all_goals cases h
  all_goals exact ⟨fun _ => rfl, rfl, List.mem_cons_self⟩

/-- Only a slot issues a word of the compute elements. -/
theorem slot_of_cElem {s : State} {i : Instr} (hi : issuable s i = true) (hu : (wordSig i).unit = .cElem) : ∃ e k n, s.cur = .slot e k n := by
  have h := unit_of_issuable hi
  cases hc : s.cur with
  | slot e k n => exact ⟨e, k, n, rfl⟩
  | word g a => simp [hu, hc, unitDetails, curKind] at h

theorem laneOp_present {i : Instr} {s : State} {e n : Nat} {k : BitVec 2} (hc : s.cur = .slot e k n) (hi : issuable s i = true) {vop lt st rm : Nat} {d : BitVec 6}
    {srcs : List (BitVec 6)} {x : Nat} {f : Flags} (h : laneResult s vop lt st 0 rm srcs = some (x, f)) :
    laneOp i s vop lt st rm d srcs = .next (raiseFlags (writeDst (issued s i) d (some (BitVec.ofNat 64 x))) f) := by
  rw [laneOp, issueWord_issuable hi]
  simp only [h, conclude_done hc]

theorem laneOp_absent {i : Instr} {s : State} {e n : Nat} {k : BitVec 2} (hc : s.cur = .slot e k n) (hi : issuable s i = true) {vop lt st rm : Nat} {d : BitVec 6}
    {srcs : List (BitVec 6)} (h : laneResult s vop lt st 0 rm srcs = none) : laneOp i s vop lt st rm d srcs = .next (writeDst (issued s i) d none) := by
  rw [laneOp, issueWord_issuable hi]
  simp only [h, conclude_done hc, raiseFlags_zero]

/-- Settles O29: the lanes' result is written as every result is, and the flags raised as every word's are. -/
theorem laneWordResults : Obligations.LaneWordResults := by
  unfold Obligations.LaneWordResults
  intro i s vop lt st rm d srcs hform hi
  obtain ⟨hexec, hunit, -⟩ := laneForm_spec hform
  obtain ⟨e, k, n, hc⟩ := slot_of_cElem hi hunit
  have hf := issued_frame hc i
  have hcu := hf.cur.trans hc
  refine ⟨e, k, n, hc, fun vs r hvs hr => ?_, fun hnone => ?_⟩
  · obtain ⟨x, f⟩ := r
    have hres : laneResult s vop lt st 0 rm srcs = some (x, f) := by rw [laneResult, hvs, Option.map_some, ← hr]
    obtain ⟨hframe, hp⟩ := writeDst_frame hcu d (BitVec.ofNat 64 x)
    obtain ⟨hreg, hp', hmem, hflags, htrap⟩ := raiseFlags_result hc (.of_issue hf hframe) f
    have hct := hframe.cur.trans hcu
    obtain ⟨hkept, -, -, hcur, hfab, -⟩ := raiseFlags_keeps hct f
    refine ⟨_, (hexec s).trans (laneOp_present hc hi hres), hflags, htrap, fun hd => ?_, fun hd => ?_, hreg, predicatesKept_trans (predicatesKept_trans hf.predicatesKept hp) hp', hmem⟩
    · have hread := hkept (.slot e k n) d ((readable_slot_iff e k n d).2 hd) (by simp)
      rw [State.with_cur (hcur.trans hct), State.with_cur hct, regVal_writeDst hcu hd] at hread
      exact hread
    · obtain ⟨y, hy, hp⟩ := sendsToken_writeDst hcu hd (BitVec.ofNat 64 x)
      refine ⟨y, ?_, by rwa [hf.curGen] at hp⟩
      rw [State.tokens, hfab, ← hf.tokens]
      exact hy
  · exact (hexec s).trans (laneOp_absent hc hi (by rw [laneResult, hnone, Option.map_none]))

end Sys2Proof.Machine
end

section
/-! PROOFS. Compared lanes (O32): the order of the keys of encodings is that of the numbers, and each lane's condition becomes one predicate. -/

namespace Sys2Proof.Machine
open Sys2Proof.Claims

/-! ### Places and keys (R36, R43, R143) -/

/-- The real number at a key, of the magnitude and the sign that it gives. -/
def FpFormat.keyReal (f : FpFormat) (k : Int) : Rat := signedBy (decide (k < 0)) (f.mag k.natAbs)

/-- The place at a key: the greatest magnitude is an infinity's. -/
def FpFormat.keyPlace (f : FpFormat) (k : Int) : Int × Rat := if k.natAbs = f.inf then (if k < 0 then -1 else 1, 0) else (0, f.keyReal k)

theorem FpFormat.keyReal_strictMono (f : FpFormat) : StrictMono f.keyReal := by
  intro k l h
  unfold FpFormat.keyReal
  by_cases hk : k < 0 <;> by_cases hl : l < 0
  · simp only [hk, hl, decide_true, signedBy_true, neg_lt_neg_iff]
    exact f.mag_strictMono (by omega)
  · have hpos : f.mag 0 < f.mag k.natAbs := f.mag_strictMono (by omega)
    rw [f.mag_zero] at hpos
    have hnn := f.mag_nonneg l.natAbs
    simp only [hk, hl, decide_true, decide_false, signedBy_true, signedBy_false]
    linarith
  · omega
  · simp only [hk, hl, decide_false, signedBy_false]
    exact f.mag_strictMono (by omega)

/-- Places lie as their keys do. -/
theorem FpFormat.keyPlace_lt (f : FpFormat) {k l : Int} (hk : k.natAbs ≤ f.inf) (hl : l.natAbs ≤ f.inf) (h : k < l) : liesBelow (f.keyPlace k) (f.keyPlace l) := by
  unfold FpFormat.keyPlace liesBelow
  by_cases hki : k.natAbs = f.inf <;> by_cases hli : l.natAbs = f.inf
  · rw [if_pos hki, if_pos hli, if_pos (show k < 0 by omega), if_neg (show ¬ l < 0 by omega)]
    exact .inl (by decide)
  · rw [if_pos hki, if_neg hli, if_pos (show k < 0 by omega)]
    exact .inl neg_one_lt_zero
  · rw [if_neg hki, if_pos hli, if_neg (show ¬ l < 0 by omega)]
    exact .inl zero_lt_one
  · rw [if_neg hki, if_neg hli]
    exact .inr ⟨rfl, f.keyReal_strictMono h⟩

theorem liesBelow_asymm {p q : Int × Rat} (h : liesBelow p q) : ¬ liesBelow q p ∧ p ≠ q := by
  obtain h | ⟨h, h'⟩ := h
  · refine ⟨fun hq => ?_, fun hq => by rw [hq] at h; exact lt_irrefl _ h⟩
    obtain hq | ⟨hq, -⟩ := hq
    · exact absurd h (not_lt.2 hq.le)
    · rw [hq] at h
      exact lt_irrefl _ h
  · refine ⟨fun hq => ?_, fun hq => by rw [hq] at h'; exact lt_irrefl _ h'⟩
    obtain hq | ⟨-, hq⟩ := hq
    · rw [h] at hq
      exact lt_irrefl _ hq
    · exact absurd h' (not_lt.2 hq.le)

/-- Between keys and their places every comparison is the same. -/
theorem FpFormat.keyPlace_compare (f : FpFormat) {k l : Int} (hk : k.natAbs ≤ f.inf) (hl : l.natAbs ≤ f.inf) :
    (liesBelow (f.keyPlace k) (f.keyPlace l) ↔ k < l) ∧ (f.keyPlace k = f.keyPlace l ↔ k = l) := by
  obtain h | rfl | h := lt_trichotomy k l
  · have hb := f.keyPlace_lt hk hl h
    exact ⟨iff_of_true hb h, iff_of_false (liesBelow_asymm hb).2 h.ne⟩
  · exact ⟨iff_of_false (fun hb => (liesBelow_asymm hb).2 rfl) (lt_irrefl k), iff_of_true rfl rfl⟩
  · have hb := f.keyPlace_lt hl hk h
    exact ⟨iff_of_false (liesBelow_asymm hb).1 h.le.not_gt, iff_of_false (liesBelow_asymm hb).2.symm h.ne'⟩

theorem FpFormat.Ieee.normal_le_inf {f : FpFormat} (hf : f.Ieee) : 2 ^ f.manBits ≤ f.inf := by
  have hexp : 2 ≤ 2 ^ f.expBits := Nat.le_self_pow (by have := hf.exp; omega) 2
  exact Nat.le_mul_of_pos_left _ (by omega)

theorem numberKey_natAbs (f : FpFormat) (x : Nat) : (numberKey f x).natAbs = x % f.signBit := by
  unfold numberKey
  split
  · rw [Int.natAbs_neg, Int.natAbs_natCast]
  · rw [Int.natAbs_natCast]

theorem keyReal_numberKey (f : FpFormat) (x : Nat) : f.keyReal (numberKey f x) = signedBy (x / f.signBit % 2 == 1) (f.mag (x % f.signBit)) := by
  rw [FpFormat.keyReal, numberKey_natAbs, numberKey]
  by_cases hs : x / f.signBit % 2 = 1
  · obtain hz | hz := Nat.eq_zero_or_pos (x % f.signBit)
    · simp [hz]
    · rw [if_pos hs, hs, decide_eq_true (show -((x % f.signBit : Nat) : Int) < 0 by omega)]
      rfl
  · rw [if_neg hs, decide_eq_false (show ¬ ((x % f.signBit : Nat) : Int) < 0 by omega), beq_eq_false_iff_ne.2 hs]

/-- An encoding that flush clears has the key zero, and any other its own. -/
theorem numberKey_flushed (f : FpFormat) (flush : Bool) (x : Nat) :
    numberKey f (flushed f flush x) = if flush && decide (x % f.signBit < 2 ^ f.manBits) then 0 else numberKey f x := by
  unfold flushed
  split
  · have h : (numberKey f (x / f.signBit * f.signBit)).natAbs = 0 := by rw [numberKey_natAbs, Nat.mul_mod_left]
    exact Int.natAbs_eq_zero.1 h
  · rfl

/-- The place of an encoding is that of its key, as it is read (R43). -/
theorem placeOf_eq_keyPlace {f : FpFormat} (hf : f.Ieee) {flush : Bool} {x : Nat} {X : Int × Rat} (h : placeOf f flush x = some X) :
    X = f.keyPlace (numberKey f (flushed f flush x)) ∧ (numberKey f (flushed f flush x)).natAbs ≤ f.inf := by
  have hman := hf.normal_le_inf
  have hinf := hf.inf_pos
  rw [numberKey_flushed]
  unfold placeOf at h
  split at h
  next hi =>
    rw [decide_eq_false (show ¬ x % f.signBit < 2 ^ f.manBits by omega), Bool.and_false, if_neg Bool.false_ne_true, FpFormat.keyPlace, numberKey_natAbs, if_pos hi, hi]
    refine ⟨?_, le_rfl⟩
    rw [← Option.some.inj h, numberKey, hi]
    split
    next hs => rw [if_pos (by omega)]
    next hs => rw [if_neg (by omega)]
  next hi =>
    rw [realOf_eq hf.toProper] at h
    split at h
    next hle =>
      have hlt : x % f.signBit < f.inf := by
        have hmax : f.maxFinite ≤ f.inf := by
          simp only [FpFormat.maxFinite, hf.ieee]
          exact Nat.sub_le _ _
        omega
      rw [← Option.some.inj h]
      split
      · refine ⟨?_, Nat.zero_le _⟩
        rw [FpFormat.keyPlace, if_neg (by simpa using hinf.ne), FpFormat.keyReal]
        simp
      · rw [FpFormat.keyPlace, numberKey_natAbs, if_neg hlt.ne, keyReal_numberKey]
        exact ⟨rfl, hlt.le⟩
    next => simp at h

/-! ### One lane (R143) -/

section
variable {lt cc : Nat} {flush : Bool} {x y : Nat}

/-- Two integer lanes compare as their values. -/
theorem laneCompare_int (hi : laneIsInt lt = true) (hcc : cc ≤ 5) : (laneCompare cc lt flush x y).2 = 0 ∧ ((laneCompare cc lt flush x y).1 = true ↔ match (generalizing := false) cc with
    | 0 => signedOf (laneWidth lt) x = signedOf (laneWidth lt) y
    | 1 => signedOf (laneWidth lt) x ≠ signedOf (laneWidth lt) y
    | 2 => signedOf (laneWidth lt) x < signedOf (laneWidth lt) y
    | 3 => signedOf (laneWidth lt) x ≤ signedOf (laneWidth lt) y
    | 4 => signedOf (laneWidth lt) y < signedOf (laneWidth lt) x
    | _ => signedOf (laneWidth lt) y ≤ signedOf (laneWidth lt) x) := by
  unfold laneCompare
  rw [if_pos hi]
  refine ⟨rfl, ?_⟩
  interval_cases cc <;> simp

/-- Does a lane of encodings raise invalid: a NaN under an order, or a signalling one? -/
def comparesInvalid (f : FpFormat) (cc x y : Nat) : Prop :=
  (2 ≤ cc ∧ cc ≤ 5 ∧ (isNanOf f x ∨ isNanOf f y)) ∨ (isNanOf f x ∧ x % 2 ^ f.manBits < 2 ^ (f.manBits - 1)) ∨ (isNanOf f y ∧ y % 2 ^ f.manBits < 2 ^ (f.manBits - 1))

variable (hlt : FloatLane lt)
include hlt

theorem laneCompare_number (hx : ¬ isNanOf (laneFormat lt) x) (hy : ¬ isNanOf (laneFormat lt) y) : laneCompare cc lt flush x y =
    (match cc with
      | 0 => numberKey (laneFormat lt) (flushed (laneFormat lt) flush x) == numberKey (laneFormat lt) (flushed (laneFormat lt) flush y)
      | 1 => numberKey (laneFormat lt) (flushed (laneFormat lt) flush x) != numberKey (laneFormat lt) (flushed (laneFormat lt) flush y)
      | 2 => decide (numberKey (laneFormat lt) (flushed (laneFormat lt) flush x) < numberKey (laneFormat lt) (flushed (laneFormat lt) flush y))
      | 3 => decide (numberKey (laneFormat lt) (flushed (laneFormat lt) flush x) ≤ numberKey (laneFormat lt) (flushed (laneFormat lt) flush y))
      | 4 => decide (numberKey (laneFormat lt) (flushed (laneFormat lt) flush y) < numberKey (laneFormat lt) (flushed (laneFormat lt) flush x))
      | 5 => decide (numberKey (laneFormat lt) (flushed (laneFormat lt) flush y) ≤ numberKey (laneFormat lt) (flushed (laneFormat lt) flush x))
      | _ => false, 0) := by
  rw [← isNan_fpRead hlt.toProper flush, Bool.not_eq_true] at hx hy
  unfold laneCompare
  simp only [hlt.notInt, hx, hy, Bool.or_self, Bool.false_eq_true, if_false] <;> rfl

theorem laneCompare_nans (hn : isNanOf (laneFormat lt) x ∨ isNanOf (laneFormat lt) y) : laneCompare cc lt flush x y =
    (cc == 1 || cc == 6, if 2 ≤ cc ∧ cc ≤ 5 then Flag.iv else (fpRead (laneFormat lt) flush x).inputFlag ||| (fpRead (laneFormat lt) flush y).inputFlag) := by
  have hn' : ((fpRead (laneFormat lt) flush x).isNan || (fpRead (laneFormat lt) flush y).isNan) = true := by
    rwa [Bool.or_eq_true, isNan_fpRead hlt.toProper, isNan_fpRead hlt.toProper]
  unfold laneCompare
  simp only [hlt.notInt, hn', Bool.false_eq_true, if_false, if_true]

theorem laneCompare_flags : ((laneCompare cc lt flush x y).2 = 0 ∨ (laneCompare cc lt flush x y).2 = Flag.iv) ∧
    ((laneCompare cc lt flush x y).2 = Flag.iv ↔ comparesInvalid (laneFormat lt) cc x y) := by
  have hne : (0 : Flags) ≠ Flag.iv := by decide
  by_cases hn : isNanOf (laneFormat lt) x ∨ isNanOf (laneFormat lt) y
  · rw [laneCompare_nans hlt hn]
    by_cases ho : 2 ≤ cc ∧ cc ≤ 5
    · rw [if_pos ho]
      exact ⟨.inr rfl, iff_of_true rfl (.inl ⟨ho.1, ho.2, hn⟩)⟩
    · have hinv : comparesInvalid (laneFormat lt) cc x y ↔ ((fpRead (laneFormat lt) false x).isNan && decide (x % 2 ^ (laneFormat lt).manBits < 2 ^ ((laneFormat lt).manBits - 1)) ||
          (fpRead (laneFormat lt) false y).isNan && decide (y % 2 ^ (laneFormat lt).manBits < 2 ^ ((laneFormat lt).manBits - 1))) = true := by
        simp only [comparesInvalid, Bool.or_eq_true, Bool.and_eq_true, decide_eq_true_eq, isNan_fpRead hlt.toProper]
        exact or_iff_right (fun h => ho ⟨h.1, h.2.1⟩)
      rw [if_neg ho, inputFlag_fpRead hlt.toIeee, inputFlag_fpRead hlt.toIeee, invalid_or, hinv]
      split
      next h => exact ⟨.inr rfl, iff_of_true rfl h⟩
      next h => exact ⟨.inl rfl, iff_of_false hne h⟩
  · rw [not_or] at hn
    rw [laneCompare_number hlt hn.1 hn.2]
    refine ⟨.inl rfl, iff_of_false hne ?_⟩
    rintro (⟨-, -, h | h⟩ | ⟨h, -⟩ | ⟨h, -⟩)
    · exact hn.1 h
    · exact hn.2 h
    · exact hn.1 h
    · exact hn.2 h

theorem laneCompare_nan (hn : isNanOf (laneFormat lt) x ∨ isNanOf (laneFormat lt) y) : (laneCompare cc lt flush x y).1 = true ↔ cc = 1 ∨ cc = 6 := by
  rw [laneCompare_nans hlt hn]
  simp

omit hlt in
theorem not_nan_of_place {f : FpFormat} (hf : f.Ieee) {X : Int × Rat} (h : placeOf f flush x = some X) : ¬ isNanOf f x := by
  rw [isNanOf_iff hf.toProper]
  rintro ⟨hmax, hinf⟩
  rw [placeOf, if_neg (hinf hf.ieee), realOf_eq hf.toProper, if_neg (not_le.2 hmax)] at h
  simp at h

theorem laneCompare_places (hcc : cc ≤ 6) {X Y : Int × Rat} (hX : placeOf (laneFormat lt) flush x = some X) (hY : placeOf (laneFormat lt) flush y = some Y) :
    (laneCompare cc lt flush x y).1 = true ↔ match (generalizing := false) cc with
      | 0 => X = Y
      | 1 => X ≠ Y
      | 2 => liesBelow X Y
      | 3 => liesBelow X Y ∨ X = Y
      | 4 => liesBelow Y X
      | 5 => liesBelow Y X ∨ X = Y
      | _ => False := by
  rw [laneCompare_number hlt (not_nan_of_place hlt.toIeee hX) (not_nan_of_place hlt.toIeee hY)]
  obtain ⟨rfl, hk⟩ := placeOf_eq_keyPlace hlt.toIeee hX
  obtain ⟨rfl, hl⟩ := placeOf_eq_keyPlace hlt.toIeee hY
  obtain ⟨hlow, heq⟩ := (laneFormat lt).keyPlace_compare hk hl
  obtain ⟨hhigh, -⟩ := (laneFormat lt).keyPlace_compare hl hk
  interval_cases cc <;> simp only [hlow, hhigh, heq, beq_iff_eq, bne_iff_ne, decide_eq_true_eq, ne_eq, Bool.false_eq_true]
  · exact le_iff_lt_or_eq
  · rw [le_iff_lt_or_eq, eq_comm]

end

/-! ### The lanes' conditions as predicates (R143) -/

theorem setPred_frame {s : State} {e n : Nat} {k : BitVec 2} (hc : s.cur = .slot e k n) (j : Nat) (v : Bool) : ResultFrame s (setPred s j v) none := by
  have hs := setPred_slot hc j v
  refine ⟨by rw [hs]; rfl, registersKept_setPred s j v, memoryKept_setPred s j v, by rw [hs]; exact .of_fields rfl rfl rfl rfl, fun i => ?_, fun i m => ?_⟩
  · rw [hs, State.modElem_elem]
    split
    next hi => rw [hi]
    next => rfl
  · rw [hs, State.modElem_elem]
    split
    next hi =>
      rw [hi]
      refine Plane.setStrand_keeps Strand.traps ?_ m
      rfl
    next => rfl

theorem ResultFrame.trans {s u v : State} (h : ResultFrame s u none) (h' : ResultFrame u v none) : ResultFrame s v none where
  cur := h'.cur.trans h.cur
  registers := registersKept_trans h.registers h'.registers h.cur
  memory := memoryKept_trans h.memory h'.memory
  system := h.system.trans h'.system
  sticky e := (h'.sticky e).trans (h.sticky e)
  traps e k := (h'.traps e k).trans (h.traps e k)

theorem setPreds_frame {s : State} {e n : Nat} {k : BitVec 2} (hc : s.cur = .slot e k n) (j x m : Nat) : ResultFrame s (setPreds s j x m) none := by
  induction m generalizing s j x with
  | zero => exact .refl s none
  | succ m ih =>
    have h := setPred_frame hc j (x.testBit 0)
    exact h.trans (ih (h.cur.trans hc) _ _)

/-- Predicates set from the bits of a number read as those bits, the others as before. -/
theorem curPreds_setPreds (s : State) (x : Nat) {m k j : Nat} (hm : k + m ≤ 8) (hj : j < 8) :
    (curPreds (setPreds s k x m)).getLsbD j = if k ≤ j ∧ j < k + m then x.testBit (j - k) else (curPreds s).getLsbD j := by
  induction m generalizing s k x with
  | zero =>
    rw [if_neg (by omega)]
    rfl
  | succ m ih =>
    rw [setPreds, ih _ _ (by omega), curPreds_setPred, getLsbD_putPred _ _ (by omega) hj]
    obtain h | rfl | h := lt_trichotomy j k
    · rw [if_neg (by omega), if_neg (by omega), if_neg (by omega)]
    · rw [if_neg (by omega), if_pos rfl, if_pos (by omega), Nat.sub_self]
    · by_cases hjm : j < k + 1 + m
      · obtain ⟨i, rfl⟩ : ∃ i, j = k + 1 + i := ⟨j - (k + 1), by omega⟩
        rw [if_pos (by omega), if_pos (by omega), Nat.add_sub_cancel_left, show k + 1 + i - k = i + 1 by omega, Nat.testBit_succ]
      · rw [if_neg (by omega), if_neg (by omega), if_neg (by omega)]

/-- Lanes that raise invalid or nothing raise invalid together where one does. -/
theorem joinLanes_invalid {w : Nat} {l : List (Nat × Flags)} (h : ∀ p ∈ l, p.2 = 0 ∨ p.2 = Flag.iv) :
    ((joinLanes w l).2 = 0 ∨ (joinLanes w l).2 = Flag.iv) ∧ ((joinLanes w l).2 = Flag.iv ↔ ∃ p ∈ l, p.2 = Flag.iv) := by
  have hne : (0 : Flags) ≠ Flag.iv := by decide
  induction l with
  | nil => exact ⟨.inl rfl, iff_of_false hne (by simp)⟩
  | cons p l ih =>
    obtain ⟨hp, hl⟩ := List.forall_mem_cons.1 h
    obtain ⟨hor, hiff⟩ := ih hl
    have hjoin : (joinLanes w (p :: l)).2 = p.2 ||| (joinLanes w l).2 := rfl
    rw [hjoin, List.exists_mem_cons_iff, ← hiff]
    have hself : Flag.iv ||| Flag.iv = Flag.iv := BitVec.or_self
    obtain hp | hp := hp <;> obtain hr | hr := hor <;> rw [hp, hr] <;> simp [hself]

/-- The predicate and the flags of a lane of vcmp, as joinLanes takes them. -/
def compareLane (cc lt : Nat) (flush : Bool) (a b j : Nat) : Nat × Flags :=
  (if (laneCompare cc lt flush (laneOf (laneWidth lt) a j) (laneOf (laneWidth lt) b j)).1 then 1 else 0, (laneCompare cc lt flush (laneOf (laneWidth lt) a j) (laneOf (laneWidth lt) b j)).2)

theorem laneEval_compare (lt st cc : Nat) (r : Nat → Rounding) (p : BitVec 8) (a b c : Nat) :
    laneEval 9 lt st cc r p a b c = joinLanes 1 ((List.range (64 / laneWidth lt)).map (compareLane cc lt (r 0).flush a b)) := rfl

theorem laneEval_compare_testBit {lt st cc : Nat} {r : Nat → Rounding} {p : BitVec 8} {a b c j : Nat} (hj : j < 64 / laneWidth lt) :
    (laneEval 9 lt st cc r p a b c).1.testBit j = (laneCompare cc lt (r 0).flush (laneOf (laneWidth lt) a j) (laneOf (laneWidth lt) b j)).1 := by
  have hlen : j < ((List.range (64 / laneWidth lt)).map (compareLane cc lt (r 0).flush a b)).length := by simpa using hj
  have h := (joinLanes_lane 1 _ hlen).1
  rw [← laneEval_compare lt st cc r p a b c, List.getElem_map, List.getElem_range, compareLane] at h
  rw [Nat.testBit_eq_decide_div_mod_eq]
  have hbit : (laneEval 9 lt st cc r p a b c).1 / 2 ^ j % 2 = laneOf 1 (laneEval 9 lt st cc r p a b c).1 j := by rw [laneOf, bits, Nat.one_mul, pow_one]
  rw [hbit, h]
  cases (laneCompare cc lt (r 0).flush (laneOf (laneWidth lt) a j) (laneOf (laneWidth lt) b j)).1 <;> rfl

theorem laneEval_compare_int_flags {lt st cc : Nat} (hi : laneIsInt lt = true) (hcc : cc ≤ 5) (r : Nat → Rounding) (p : BitVec 8) (a b c : Nat) : (laneEval 9 lt st cc r p a b c).2 = 0 := by
  have hne : (0 : Flags) ≠ Flag.iv := by decide
  have hlane : ∀ q ∈ (List.range (64 / laneWidth lt)).map (compareLane cc lt (r 0).flush a b), q.2 = 0 := by
    simp only [List.mem_map, forall_exists_index, and_imp, forall_apply_eq_imp_iff₂]
    exact fun j _ => (laneCompare_int hi hcc).1
  rw [laneEval_compare]
  obtain ⟨hor, hiff⟩ := joinLanes_invalid (w := 1) (fun q hq => .inl (hlane q hq))
  refine hor.resolve_right fun h => ?_
  obtain ⟨q, hq, hiv⟩ := hiff.1 h
  exact hne ((hlane q hq).symm.trans hiv)

theorem laneEval_compare_float_flags {lt : Nat} (hlt : FloatLane lt) (st cc : Nat) (r : Nat → Rounding) (p : BitVec 8) (a b c : Nat) :
    ((laneEval 9 lt st cc r p a b c).2 = 0 ∨ (laneEval 9 lt st cc r p a b c).2 = Flag.iv) ∧ ((laneEval 9 lt st cc r p a b c).2 = Flag.iv ↔
      ∃ j, j < 64 / laneWidth lt ∧ comparesInvalid (laneFormat lt) cc (laneOf (laneWidth lt) a j) (laneOf (laneWidth lt) b j)) := by
  rw [laneEval_compare]
  obtain ⟨hor, hiff⟩ := joinLanes_invalid (w := 1) (l := (List.range (64 / laneWidth lt)).map (compareLane cc lt (r 0).flush a b)) (by
    simp only [List.mem_map, forall_exists_index, and_imp, forall_apply_eq_imp_iff₂]
    exact fun j _ => (laneCompare_flags hlt).1)
  refine ⟨hor, hiff.trans ?_⟩
  simp only [List.mem_map, List.mem_range, exists_exists_and_eq_and]
  exact exists_congr fun j => and_congr_right fun _ => (laneCompare_flags hlt).2

/-! ### vcmp (O32) -/

section
variable {t d a b : BitVec 6} {lt : BitVec 4} {cc : BitVec 3} {s : State} (hi : issuable s (.vcmp t d a b lt cc) = true)
include hi

/-- A legal vcmp has a lane type and a condition of the type, and its lanes end at p7 (R138). -/
theorem vcmp_legal : lt.toNat ≤ 6 ∧ cc.toNat ≤ 6 ∧ (lt.toNat ≤ 2 → cc.toNat ≤ 5) ∧ d.toNat + 64 / laneWidth lt.toNat ≤ 8 := by
  have h := details_of_sig hi
  simp only [wordSig, vcmpDetails, laneDetails, List.append_eq_nil_iff] at h
  obtain ⟨⟨hlane, hd⟩, hend⟩ := h
  have hd8 : ¬ 8 ≤ d.toNat := fun hd8 => by simp [hd8] at hd
  rw [Nat.mod_eq_of_lt (by omega)] at hend
  have hend8 : d.toNat + 64 / laneWidth lt.toNat ≤ 8 := by
    by_contra hgt
    rw [if_pos (by omega)] at hend
    simp at hend
  split at hlane
  next hok =>
    simp only [laneTypes, laneIsInt, Bool.and_eq_true, Bool.or_eq_true, decide_eq_true_eq, List.contains_iff_mem, List.mem_cons, List.not_mem_nil, or_false, beq_iff_eq,
      Bool.not_eq_true', decide_eq_false_iff_not] at hok
    omega
  next => simp at hlane

theorem exec_vcmp_absent (h : srcVal s a = none ∨ srcVal s b = none) : exec (.vcmp t d a b lt cc) s = .next (issued s (.vcmp t d a b lt cc)) := by
  obtain ⟨e, k, n, hc⟩ := slot_of_cElem hi rfl
  have hres : laneResult s 9 lt.toNat 0 cc.toNat 0 [a, b] = none := by
    rw [laneResult, laneSources, laneSources, laneSources]
    obtain h | h := h
    · rw [h]
      rfl
    · rw [h]
      cases srcVal s a <;> rfl
  have he : exec (.vcmp t d a b lt cc) s = execVcmp t d a b lt cc s := rfl
  rw [he, execVcmp, issueWord_issuable hi]
  simp only [hres, conclude_done hc, raiseFlags_zero]

/-- The lanes and flags of vcmp on two sources. -/
def compared (s : State) (a b : BitVec 6) (lt : BitVec 4) (cc : BitVec 3) (x y : Word) : Nat × Flags :=
  laneEval 9 lt.toNat 0 cc.toNat (laneRounding s [a, b] 0) (curPreds s) x.toNat y.toNat 0

theorem exec_vcmp_present {x y : Word} (hx : srcVal s a = some x) (hy : srcVal s b = some y) : exec (.vcmp t d a b lt cc) s =
    .next (raiseFlags (setPreds (issued s (.vcmp t d a b lt cc)) d.toNat (compared s a b lt cc x y).1 (64 / laneWidth lt.toNat)) (compared s a b lt cc x y).2) := by
  obtain ⟨e, k, n, hc⟩ := slot_of_cElem hi rfl
  have hres : laneResult s 9 lt.toNat 0 cc.toNat 0 [a, b] = some (compared s a b lt cc x y) := by
    rw [laneResult, laneSources, laneSources, laneSources, hx, hy]
    rfl
  have he : exec (.vcmp t d a b lt cc) s = execVcmp t d a b lt cc s := rfl
  rw [he, execVcmp, issueWord_issuable hi]
  simp only [hres, conclude_done hc]

end

theorem curPreds_of_kept {s u : State} (h : predicatesKept s u) (hc : u.cur = s.cur) : curPreds u = curPreds s := by
  have h' := h s.cur
  rwa [State.with_cur hc] at h'

/-- The predicates that a vcmp leaves: those of its lanes, and the others as they were. -/
theorem pred_compared {s s1 u : State} {k x m : Nat} (h1 : predicatesKept s s1) (hc1 : s1.cur = s.cur) (hu : predicatesKept (setPreds s1 k x m) u)
    (hcu : u.cur = (setPreds s1 k x m).cur) (hm : k + m ≤ 8) {j : Nat} (hj : j < 8) : pred u j = if k ≤ j ∧ j < k + m then x.testBit (j - k) else pred s j := by
  rw [pred, curPreds_of_kept hu hcu, curPreds_setPreds _ _ hm hj, curPreds_of_kept h1 hc1]
  rfl

/-- Settles O32: each lane's condition is one bit of the joined lanes, which setPreds puts in its place. -/
theorem compareLanesWritePredicates : Obligations.CompareLanesWritePredicates := by
  unfold Obligations.CompareLanesWritePredicates
  intro t d a b lt cc s hi
  refine ⟨exec_vcmp_absent hi, fun x y hx hy => ?_⟩
  intro lane v f nan signalling
  obtain ⟨e, k, n, hc⟩ := slot_of_cElem hi rfl
  obtain ⟨hlt, hcc, hcci, hend⟩ := vcmp_legal hi
  have hf := issued_frame hc (.vcmp t d a b lt cc)
  have hset := setPreds_frame (hf.cur.trans hc) d.toNat (compared s a b lt cc x y).1 (64 / laneWidth lt.toNat)
  obtain ⟨hreg, hpred, hmem, hflags, htrap⟩ := raiseFlags_result hc (.of_issue hf hset) (compared s a b lt cc x y).2
  obtain ⟨-, -, -, hcur, -, -⟩ := raiseFlags_keeps (hset.cur.trans (hf.cur.trans hc)) (compared s a b lt cc x y).2
  have hp := fun j (hj : j < 8) => pred_compared hf.predicatesKept hf.cur hpred hcur hend (j := j) hj
  have hbit : ∀ j, j < 64 / laneWidth lt.toNat → pred (raiseFlags _ (compared s a b lt cc x y).2) (d.toNat + j) =
      (laneCompare cc.toNat lt.toNat (strandFlush s) (lane x j) (lane y j)).1 := fun j hj => by
    rw [hp _ (by omega), if_pos (by omega), Nat.add_sub_cancel_left]
    exact laneEval_compare_testBit hj
  have hint : lt.toNat ≤ 2 → laneIsInt lt.toNat = true := fun h => decide_eq_true h
  have hfloat : 3 ≤ lt.toNat → FloatLane lt.toNat := fun h => floatLane (by simp only [List.mem_cons, List.not_mem_nil, or_false]; omega)
  refine ⟨e, k, n, _, (compared s a b lt cc x y).2, hc, exec_vcmp_present hi hx hy, hreg, hmem, hflags, htrap, fun h => laneEval_compare_int_flags (hint h) (hcci h) _ _ _ _ _,
    fun h => laneEval_compare_float_flags (hfloat h) _ _ _ _ _ _ _, fun j hj hout => by rw [hp j hj, if_neg hout], fun j hj => ⟨fun h => ?_, fun h => ⟨fun hn => ?_, fun X Y hX hY => ?_⟩⟩⟩
  · have hw : 0 < laneWidth lt.toNat := by
      interval_cases lt.toNat <;> decide
    have hv : ∀ z, v z j = signedOf (laneWidth lt.toNat) (lane z j) := fun z => (signedOf_laneOf hw z.toNat j).symm
    rw [hbit j hj, (laneCompare_int (hint h) (hcci h)).2]
    simp only [hv] <;> rfl
  · rw [hbit j hj]
    exact laneCompare_nan (hfloat h) hn
  · rw [hbit j hj]
    exact laneCompare_places (hfloat h) hcc hX hY

end Sys2Proof.Machine
end

section
/-! PROOFS. Requests served at their words (O44). -/

namespace Sys2Proof.Machine
open Sys2Proof.Claims

/-! ### A carrying load at a word of a bank (O44) -/

/-- A supervisor's load of a bank word whose request carries a sector's metadata, as a copy's accesses to HBM do (R389). -/
def carryingLoad : Req :=
  { src := .elem 0, supervisor := true, kind := .load false, addr := 0, target := .bank 0 0, stage := .queued, carry := true, sectorMeta := some {} }

/-- A module in which that request alone waits at its port. -/
def carryingState : State := { reqs := [(1, carryingLoad)], ports := [(0, { queue := [1] })] }

theorem carryingLoad_atPlainWord : atPlainWord carryingState 1 carryingLoad 0 0 := by
  refine ⟨rfl, rfl, rfl, ?_, ?_, rfl, rfl, ?_⟩ <;> decide

/-- A request that carries metadata takes those of the sector it was served at, and a bank has none. -/
theorem carryingLoad_served : (mfind (serveChecked carryingState 1 carryingLoad false).reqs 1).map Req.sectorMeta = some none := by
  decide

theorem exec_carryingLoad : exec (.requestServe 1 false) carryingState = .next (serveChecked carryingState 1 carryingLoad false) := by
  have he : exec (.requestServe 1 false) carryingState = execRequestServe 1 false carryingState := rfl
  obtain ⟨-, -, -, hnext, -⟩ := carryingLoad_atPlainWord
  have hfind : carryingState.req? 1 = some carryingLoad := rfl
  have hcond : carryingLoad.stage = .queued ∧ nextServed carryingState (portOf carryingLoad.target) = some 1 ∧ ¬asleep carryingState carryingLoad ∧ ¬portStopped carryingState carryingLoad :=
    ⟨rfl, hnext, by decide, by decide⟩
  rw [he, execRequestServe]
  simp only [hfind, if_pos hcond]
  rfl

/-- Refutes O44: a load of a plain word whose request carries metadata (`carry`) is answered with them cleared, so that its stage is not all that changes in it. -/
theorem not_bankServing : ¬ Obligations.BankServing := by
  unfold Obligations.BankServing
  rintro ⟨hload, -⟩
  obtain ⟨u, v, hexec, hfind, -⟩ := hload carryingState 1 0 0 carryingLoad false carryingLoad_atPlainWord rfl (by decide) (by decide)
  rw [exec_carryingLoad] at hexec
  obtain rfl := Host.Outcome.next.inj hexec
  have hmeta := carryingLoad_served
  rw [hfind] at hmeta
  exact absurd hmeta (by simp [carryingLoad])

end Sys2Proof.Machine
end

section
/-! PROOFS. The engines of an element (O48): what their moves keep, then the matrix node, the converter and the corner turn. -/

namespace Sys2Proof.Machine
open Sys2Proof.Claims

/-! ### What the parts of an engine's move keep -/

/-- Between two states every strand, every shared register and every bank of a sequencer is the same. -/
structure UnitFrame (s u : State) : Prop where
  strand : ∀ e k, (u.elem e).active.strand k = (s.elem e).active.strand k
  sreg : ∀ e, (u.elem e).active.sreg = (s.elem e).active.sreg
  bank : ∀ g, (u.grove g).bank = (s.grove g).bank

namespace UnitFrame

theorem trans {s u v : State} (h : UnitFrame s u) (h' : UnitFrame u v) : UnitFrame s v :=
  ⟨fun e k => (h'.strand e k).trans (h.strand e k), fun e => (h'.sreg e).trans (h.sreg e), fun g => (h'.bank g).trans (h.bank g)⟩

theorem registersKept {s u : State} (h : UnitFrame s u) : registersKept s u none :=
  registersKept_of none (fun e k => by rw [h.strand]) h.sreg (fun g => by rw [h.bank]; exact ⟨rfl, rfl⟩)

theorem predicatesKept {s u : State} (h : UnitFrame s u) : predicatesKept s u := predicatesKept_of (fun e k => by rw [h.strand]) (fun g => by rw [h.bank])

theorem of_issue {s u : State} (h : IssueFrame s u) : UnitFrame s u := ⟨h.strand, h.elemView (fun x => x.active.sreg), h.groveView (fun x => x.bank)⟩

theorem of_fields {s u : State} (he : u.elems = s.elems) (hg : u.groves = s.groves) : UnitFrame s u :=
  ⟨fun e k => by rw [State.elem, State.elem, he], fun e => by rw [State.elem, State.elem, he], fun g => by rw [State.grove, State.grove, hg]⟩

theorem of_modElem {s : State} {e : Nat} {f : Elem → Elem} (h : (f (s.elem e)).active = (s.elem e).active) : UnitFrame s (s.modElem e f) := by
  have hact : ∀ i, ((s.modElem e f).elem i).active = (s.elem i).active := fun i => by
    rw [State.modElem_elem]
    split
    next hi => rw [h, hi]
    next => rfl
  exact ⟨fun i k => by rw [hact], fun i => by rw [hact], fun _ => rfl⟩

theorem unitsKept {s u : State} (h : UnitFrame s u) (hm : memoryKept s u) : unitsKept s u := ⟨h.registersKept, h.predicatesKept, hm⟩

end UnitFrame

/-- Between two states only memory, its presence and windows, and the banks have changed. -/
def storeFrame (s u : State) : Prop := ∃ m w x b, u = { s with mem := m, words := w, windows := x, banks := b }

theorem storeFrame_refl (s : State) : storeFrame s s := ⟨s.mem, s.words, s.windows, s.banks, rfl⟩

theorem storeFrame_trans {s u v : State} (h : storeFrame s u) (h' : storeFrame u v) : storeFrame s v := by
  obtain ⟨m, w, x, b, rfl⟩ := h
  obtain ⟨m', w', x', b', rfl⟩ := h'
  exact ⟨m', w', x', b', rfl⟩

theorem storeFrame_unit {s u : State} (h : storeFrame s u) : UnitFrame s u := by
  obtain ⟨m, w, x, b, rfl⟩ := h
  exact .of_fields rfl rfl

theorem storeFrame_elem {s u : State} (h : storeFrame s u) (e : Nat) : u.elem e = s.elem e := by
  obtain ⟨m, w, x, b, rfl⟩ := h
  rfl

theorem setPresence_store (s : State) (e off : Nat) (full : Bool) (n : Nat) : storeFrame s (setPresence s e off full n) := by
  induction n generalizing s off with
  | zero => exact storeFrame_refl s
  | succ n ih => exact storeFrame_trans ⟨_, _, _, _, rfl⟩ (ih _ _)

theorem setTag_store (s : State) (e : Nat) (d : Desc) (i : Nat) (full : Bool) : storeFrame s (setTag s e d i full) :=
  storeFrame_trans (setPresence_store s e _ full _) ⟨_, _, _, _, rfl⟩

theorem putWord_store (s : State) (e off : Nat) (v : Word) (m : WordMeta) : storeFrame s (putWord s e off v m) := by
  unfold putWord
  split
  · exact ⟨_, _, _, _, rfl⟩
  · exact ⟨_, _, _, _, rfl⟩

theorem putWord_mem (s : State) (e off : Nat) (v : Word) (m : WordMeta) : (putWord s e off v m).mem = setWord s.mem (bankAddr e (off / 8 * 8)) v := by
  unfold putWord
  split <;> rfl

theorem emptyBuffer_store (s : State) (e : Nat) (w : Desc) (buf : Nat) (keep : Bool) : storeFrame s (emptyBuffer s e w buf keep) := by
  unfold emptyBuffer
  split
  · exact storeFrame_refl s
  · exact storeFrame_trans (setTag_store s e w buf false) ⟨_, _, _, _, rfl⟩

theorem advanced_frame (s t : State) (e : Nat) : IssueFrame t (advanced s t e) := by
  unfold advanced
  split
  next h =>
    rw [h]
    exact .refl s
  next => exact noteStep_frame t _

theorem advanced_elem (s t : State) (e i : Nat) : (advanced s t e).elem i = t.elem i := by
  unfold advanced
  split
  next h => rw [h]
  next => rw [State.elem, State.elem, noteAdvance, (noteStep_elems_cur t _).1]

theorem pay_elem (s : State) (g cost e : Nat) : (pay s g cost).elem e = s.elem e := by rw [State.elem, State.elem, pay_elems]

theorem modMatrix_elem (s : State) (e : Nat) (f : MatrixState → MatrixState) : (modMatrix s e f).elem e = { s.elem e with matrix := f (s.elem e).matrix } := by
  rw [modMatrix, State.modElem_elem, if_pos rfl]

theorem modMatrix_unit (s : State) (e : Nat) (f : MatrixState → MatrixState) : UnitFrame s (modMatrix s e f) := .of_modElem rfl

theorem owning_all {s : State} {e slot : Nat} {ws : List Desc} {access : State} (h : ∀ w ∈ ws, ownsWindow s e w = true) : owning s e slot ws access = access :=
  if_pos (List.all_eq_true.2 h)

/-- A data token at the front of a channel is its visible head (R70). -/
theorem headOf_data {s : State} {e ch : Nat} {t : Token} {rest : List Token} (hq : (s.elem e).active.fifo ch = t :: rest) (hm : t.mark = 0) : headOf s e ch = some t := by
  rw [headOf, hq]
  cases rest with
  | nil => simp [visibleHead, hm]
  | cons x rest => rfl

theorem takeHead_takesHead (s : State) (e ch : Nat) : takesHead s (takeHead s e ch none) e ch := by
  obtain ⟨-, -, hq⟩ := takeHead_elem s e ch none
  exact ⟨by rw [hq, if_pos rfl], fun c hc => by rw [hq, if_neg hc]⟩

/-- A head that has been taken stays so while the element's plane is the same. -/
theorem takesHead_congr {s u v : State} {e ch : Nat} (h : takesHead s u e ch) (hv : (v.elem e).active = (u.elem e).active) : takesHead s v e ch := by
  unfold takesHead
  rw [hv]
  exact h

theorem lastCopyOf_modElem {s : State} {e : Nat} {f : Elem → Elem} (h : (f (s.elem e)).active = (s.elem e).active) (ch : Nat) : lastCopyOf (s.modElem e f) e ch = lastCopyOf s e ch :=
  funext fun tid => by simp only [lastCopyOf, State.modElem_elem, if_true, h, State.modElem_outst]

/-- Room in a channel depends on the element's plane, the tokens and the outstanding tokens only (R60). -/
theorem hasRoom_modElem {s : State} {e : Nat} {f : Elem → Elem} (h : (f (s.elem e)).active = (s.elem e).active) (ch : Nat) (l : List Nat) : hasRoom (s.modElem e f) e ch l = hasRoom s e ch l := by
  simp only [hasRoom, routeOfChan, lastCopyOf_modElem h, outstanding, reserved, State.modElem_elem, if_true, h, State.modElem_outst, State.modElem_tokens] <;> rfl

theorem nodeEnqueue_room {s : State} {e ch : Nat} {t : Token} (h : hasRoom s e ch [] = true) : nodeEnqueue s e ch t = some (enqueue s e ch 4 t) := if_pos h

theorem paidStep_paid {s : State} {e cost : Nat} (h : canPay s (groveOf e) cost = true) (f : State → State) : paidStep s e cost f = f (pay s (groveOf e) cost) := if_pos h

theorem paidStep_refused {s : State} {e cost : Nat} (h : canPay s (groveOf e) cost = false) (f : State → State) : paidStep s e cost f = refuse s (groveOf e) cost :=
  if_neg (by simp [h])

/-! ### The matrix node's intake (R214) -/

/-- The state after the intake has put a data token in the next word of its buffer. -/
def takenIn (s : State) (e ch : Nat) (w : Desc) (t : Token) : State :=
  modMatrix (putBuffer (takeHead s e ch none) e w (s.elem e).matrix.aFill (s.elem e).matrix.fill (if t.pres then t.payload else 0)) e
    (fun m => { m with runOpen := true, fill := m.fill + 1, gen := t.gen })

theorem intakeData_middle {s : State} {e slot ch : Nat} {w : Desc} {t : Token} (hf : t.frame = 2) (hfill : (s.elem e).matrix.fill < bufBytes w / 8) :
    intakeData s e slot ch w t = takenIn s e ch w t := by
  have hends : (t.frame == 0 || t.frame == 3) = false := by rw [hf]; rfl
  unfold intakeData
  simp only [if_neg (show ¬bufBytes w / 8 ≤ (s.elem e).matrix.fill by omega), hends, Bool.false_eq_true, if_false]
  rfl

/-- A middle token of an open run goes to the buffer. -/
theorem intakeStep_middle {s : State} {e slot : Nat} {d : Desc} {t : Token} {rest : List Token} (hown : ownsWindow s e (mxAwin (s.elem e).active d) = true)
    (hq : (s.elem e).active.fifo (mxAch d) = t :: rest) (hm : t.mark = 0) (hf : t.frame = 2) (hrun : (s.elem e).matrix.runOpen = true)
    (hdis : (s.elem e).matrix.discard = false) (hfill : (s.elem e).matrix.fill < bufBytes (mxAwin (s.elem e).active d) / 8) :
    intakeStep s e slot d = takenIn s e (mxAch d) (mxAwin (s.elem e).active d) t := by
  have hwave : t.isWave = false := by simp [Token.isWave, hm]
  have hopens : (t.frame == 0 || t.frame == 1) = false := by rw [hf]; rfl
  unfold intakeStep
  simp only [headOf_data hq hm, hwave, hm, hopens, hrun, hdis, Bool.false_eq_true, if_false, ne_eq, not_true_eq_false, Bool.false_and, Bool.and_false, if_true]
  rw [owning_all (fun x hx => by rw [List.mem_singleton.1 hx]; exact hown), intakeData_middle hf hfill]

theorem takenIn_elem (s : State) (e ch : Nat) (w : Desc) (t : Token) : ((takenIn s e ch w t).elem e).active = ((takeHead s e ch none).elem e).active ∧
    ((takenIn s e ch w t).elem e).matrix.fill = (s.elem e).matrix.fill + 1 ∧ ((takenIn s e ch w t).elem e).matrix.runOpen = true := by
  have hmatrix : ((takeHead s e ch none).elem e).matrix = (s.elem e).matrix := (takeHead_frame s e ch none).elemView Elem.matrix e
  rw [takenIn, modMatrix_elem, putBuffer, storeFrame_elem (putWord_store _ e _ _ _)]
  exact ⟨rfl, congrArg (fun m : MatrixState => m.fill + 1) hmatrix, rfl⟩

theorem takenIn_unit (s : State) (e ch : Nat) (w : Desc) (t : Token) : UnitFrame s (takenIn s e ch w t) :=
  ((UnitFrame.of_issue (takeHead_frame s e ch none)).trans (storeFrame_unit (putWord_store _ e _ _ _))).trans (modMatrix_unit _ e _)

theorem takenIn_mem (s : State) (e ch : Nat) (w : Desc) (t : Token) : (takenIn s e ch w t).mem =
    setWord s.mem (bankAddr e (bufOff w (s.elem e).matrix.aFill (s.elem e).matrix.fill / 8 * 8)) (if t.pres then t.payload else 0) := by
  rw [takenIn, modMatrix_mem, putBuffer, putWord_mem, takeHead_mem]

theorem engineMoves_intake {s : State} {e slot : Nat} {d w : Desc} {t : Token} {rest : List Token} (hnode : nodeOf s e 1 = some (slot, d)) (hw : w = mxAwin (s.elem e).active d)
    (htakes : nodeTakes s e slot = true) (hown : ownsWindow s e w = true) (hin : mxIntake d = true) (hend : (s.elem e).matrix.ended = false)
    (hq : (s.elem e).active.fifo (mxAch d) = t :: rest) (hm : t.mark = 0) (hf : t.frame = 2) (hrun : (s.elem e).matrix.runOpen = true)
    (hdis : (s.elem e).matrix.discard = false) (hfill : (s.elem e).matrix.fill < bufBytes w / 8) (hwf : Memory.wf s.mem = true) :
    ∃ u a, exec (.matrixIntake e) s = .next u ∧ a = bankAddr e (bufOff w (s.elem e).matrix.aFill (s.elem e).matrix.fill / 8 * 8) ∧
      wordAt u.mem a = (if t.pres then t.payload else 0) ∧ (∀ b, b < a ∨ a + 8 ≤ b → byteAt u.mem b = byteAt s.mem b) ∧
      (u.elem e).matrix.fill = (s.elem e).matrix.fill + 1 ∧ (u.elem e).matrix.runOpen = true ∧ takesHead s u e (mxAch d) ∧ registersKept s u none ∧ predicatesKept s u := by
  subst hw
  have hexec : exec (.matrixIntake e) s = .next (advanced s (takenIn s e (mxAch d) (mxAwin (s.elem e).active d) t) e) := by
    rw [show exec (.matrixIntake e) s = execMatrixIntake e s from rfl, execMatrixIntake]
    simp only [hnode, htakes, hin, hend, Bool.not_false, Bool.and_self, if_true, intakeStep_middle hown hq hm hf hrun hdis hfill]
  obtain ⟨hact, hfilled, hopen⟩ := takenIn_elem s e (mxAch d) (mxAwin (s.elem e).active d) t
  have hunit := (takenIn_unit s e (mxAch d) (mxAwin (s.elem e).active d) t).trans (.of_issue (advanced_frame s _ e))
  refine ⟨_, _, hexec, rfl, ?_, fun b hb => ?_, by rw [advanced_elem, hfilled], by rw [advanced_elem, hopen],
    takesHead_congr (takeHead_takesHead s e _) (by rw [advanced_elem, hact]), hunit.registersKept, hunit.predicatesKept⟩
  · rw [advanced_mem, takenIn_mem, wordAt_setWord hwf]
  · rw [advanced_mem, takenIn_mem, setWord, byteAt_writeBytes_other hwf _ _ _ _ hb]

/-! ### The matrix node's output (R216) -/

/-- Word n of a buffer lies 8n bytes above its first. -/
theorem wordAddr_add (e n : Nat) (w : Desc) (buf : Nat) : bankAddr e (bufOff w buf n / 8 * 8) = bankAddr e (bufOff w buf 0 / 8 * 8) + 8 * n := by
  unfold bankAddr bufOff
  omega

theorem writeTile_store (e : Nat) (w : Desc) (buf n : Nat) (vs : List Word) (s : State) : storeFrame s (writeTile e w buf n vs s) := by
  induction vs generalizing n s with
  | nil => exact setTag_store s e w buf true
  | cons v vs ih => exact storeFrame_trans (putWord_store s e _ v _) (ih (n + 1) _)

theorem putBuffer_mem (s : State) (e : Nat) (w : Desc) (buf word : Nat) (v : Word) :
    (putBuffer s e w buf word v).mem = setWord s.mem (bankAddr e (bufOff w buf 0 / 8 * 8) + 8 * word) v := by
  rw [putBuffer, putWord_mem, wordAddr_add]

theorem byteAt_writeTile_other {e : Nat} {w : Desc} {buf : Nat} (b : Nat) (vs : List Word) (n : Nat) (s : State) (hwf : Memory.wf s.mem = true)
    (hb : b < bankAddr e (bufOff w buf 0 / 8 * 8) + 8 * n ∨ bankAddr e (bufOff w buf 0 / 8 * 8) + 8 * (n + vs.length) ≤ b) :
    byteAt (writeTile e w buf n vs s).mem b = byteAt s.mem b := by
  induction vs generalizing n s with
  | nil => rw [writeTile, setTag_mem]
  | cons v vs ih =>
    rw [List.length_cons] at hb
    rw [writeTile, ih (n + 1) _ (putBuffer_wf s e w buf n v hwf) (by omega), putBuffer_mem, setWord, byteAt_writeBytes_other hwf _ _ _ _ (by omega)]

/-- Equal bytes make equal words. -/
theorem readBytes_congr {m m' : Memory} (a n : Nat) (h : ∀ b, a ≤ b → b < a + n → byteAt m b = byteAt m' b) : readBytes m a n = readBytes m' a n := by
  induction n generalizing a with
  | zero => rfl
  | succ n ih => rw [readBytes, readBytes, h a (Nat.le_refl a) (by omega), ih (a + 1) (fun b h1 h2 => h b (by omega) (by omega))]

theorem wordAt_writeTile {e : Nat} {w : Desc} {buf : Nat} (i : Nat) (x : Word) (vs : List Word) (n : Nat) (s : State) (hwf : Memory.wf s.mem = true) (h : vs[i]? = some x) :
    wordAt (writeTile e w buf n vs s).mem (bankAddr e (bufOff w buf 0 / 8 * 8) + 8 * (n + i)) = x := by
  induction vs generalizing n s i with
  | nil => simp at h
  | cons v vs ih =>
    have hwf' := putBuffer_wf s e w buf n v hwf
    rw [writeTile]
    cases i with
    | zero =>
      obtain rfl : v = x := by simpa using h
      rw [wordAt, readBytes_congr _ _ (fun b h1 h2 => byteAt_writeTile_other b vs (n + 1) _ hwf' (by omega)), putBuffer_mem]
      exact wordAt_setWord hwf _ v
    | succ i =>
      rw [show n + (i + 1) = n + 1 + i by omega]
      exact ih i (n + 1) _ hwf' (by simpa using h)

theorem tileDone_unit (s : State) (e : Nat) (d : Desc) : UnitFrame s (tileDone s e d) := modMatrix_unit s e _

section
variable {s : State} {e slot : Nat} {d : Desc} (hnode : nodeOf s e 1 = some (slot, d)) (hruns : nodeRuns s e slot = true) (hend : (s.elem e).matrix.ended = false)
include hnode hruns hend

theorem exec_tileWrite_output (hwr : (s.elem e).matrix.writing = true) : exec (.matrixTileWrite e) s = .next (advanced s (outputStep s e slot d) e) := by
  rw [show exec (.matrixTileWrite e) s = execMatrixTileWrite e s from rfl, execMatrixTileWrite]
  simp only [hnode, hruns, hend, hwr, Bool.not_true, Bool.or_self, Bool.false_eq_true, if_false, if_true]

theorem exec_tileWrite_mark {t : Token} (hwr : (s.elem e).matrix.writing = false) (heos : (s.elem e).matrix.eos = some t) : exec (.matrixTileWrite e) s =
    .next (advanced s ((nodeEnqueue (modMatrix s e (fun m => { m with eos := none, ended := true })) e (mxOch d) t).getD s) e) := by
  rw [show exec (.matrixTileWrite e) s = execMatrixTileWrite e s from rfl, execMatrixTileWrite]
  simp only [hnode, hruns, hend, hwr, heos, Bool.not_true, Bool.or_self, Bool.false_eq_true, if_false]

end

/-- The state after a tile has been written to a buffer of its window. -/
def tileInBuffer (s : State) (e : Nat) (d w : Desc) : State :=
  tileDone (modMatrix (writeTile e w (s.elem e).matrix.cFill 0 (s.elem e).matrix.output s) e (fun m => { m with cFill := (m.cFill + 1) % winBufs w })) e d

theorem outputStep_buffer {s : State} {e slot : Nat} {d : Desc} (hch : mxOutChan d = false) (hown : ownsWindow s e (mxCwin (s.elem e).active d) = true) :
    outputStep s e slot d = tileInBuffer s e d (mxCwin (s.elem e).active d) := by
  unfold outputStep
  simp only [hch, Bool.false_eq_true, if_false]
  exact owning_all (fun x hx => by rw [List.mem_singleton.1 hx]; exact hown)

theorem tileInBuffer_unit (s : State) (e : Nat) (d w : Desc) : UnitFrame s (tileInBuffer s e d w) :=
  ((storeFrame_unit (writeTile_store e w _ 0 _ s)).trans (modMatrix_unit _ e _)).trans (tileDone_unit _ e d)

theorem tileInBuffer_mem (s : State) (e : Nat) (d w : Desc) : (tileInBuffer s e d w).mem = (writeTile e w (s.elem e).matrix.cFill 0 (s.elem e).matrix.output s).mem := by
  rw [tileInBuffer, tileDone_mem, modMatrix_mem]

theorem tileInBuffer_matrix {s : State} {e : Nat} {d w : Desc} (hch : mxOutChan d = false) : ((tileInBuffer s e d w).elem e).matrix.tile = (s.elem e).matrix.tile + 1 ∧
    ((tileInBuffer s e d w).elem e).matrix.writing = false ∧ ((tileInBuffer s e d w).elem e).matrix.ended = (mxTiles d != 0 && (s.elem e).matrix.tile + 1 == mxTiles d) := by
  rw [tileInBuffer, tileDone, modMatrix_elem, modMatrix_elem, storeFrame_elem (writeTile_store e w _ 0 _ s)]
  exact ⟨rfl, rfl, by simp [hch]⟩

theorem engineMoves_tileBuffer {s : State} {e slot : Nat} {d w : Desc} {m : MatrixState} (hnode : nodeOf s e 1 = some (slot, d)) (hruns : nodeRuns s e slot = true)
    (hm : m = (s.elem e).matrix) (hend : m.ended = false) (hw : w = mxCwin (s.elem e).active d) (hwr : m.writing = true) (hch : mxOutChan d = false)
    (hown : ownsWindow s e w = true) (hwf : Memory.wf s.mem = true) : ∃ u, exec (.matrixTileWrite e) s = .next u ∧
      (∀ n v, m.output[n]? = some v → wordAt u.mem (bankAddr e (bufOff w m.cFill n / 8 * 8)) = v) ∧
      (∀ b, b < bankAddr e (bufOff w m.cFill 0 / 8 * 8) ∨ bankAddr e (bufOff w m.cFill 0 / 8 * 8) + 8 * m.output.length ≤ b → byteAt u.mem b = byteAt s.mem b) ∧
      (u.elem e).matrix.tile = m.tile + 1 ∧ (u.elem e).matrix.writing = false ∧ (u.elem e).matrix.ended = (mxTiles d != 0 && m.tile + 1 == mxTiles d) ∧
      registersKept s u none ∧ predicatesKept s u := by
  subst hm hw
  have hexec := exec_tileWrite_output hnode hruns hend hwr
  rw [outputStep_buffer hch hown] at hexec
  obtain ⟨htile, hwriting, hended⟩ := tileInBuffer_matrix (s := s) (e := e) (w := mxCwin (s.elem e).active d) hch
  have hunit := (tileInBuffer_unit s e d (mxCwin (s.elem e).active d)).trans (.of_issue (advanced_frame s _ e))
  refine ⟨_, hexec, fun n v hv => ?_, fun b hb => ?_, by rw [advanced_elem, htile], by rw [advanced_elem, hwriting], by rw [advanced_elem, hended],
    hunit.registersKept, hunit.predicatesKept⟩
  · rw [advanced_mem, tileInBuffer_mem, wordAddr_add]
    simpa using wordAt_writeTile n v _ 0 s hwf hv
  · rw [advanced_mem, tileInBuffer_mem, byteAt_writeTile_other b _ 0 s hwf (by omega)]

/-! What an engine sends on a channel. -/

/-- A token that is enqueued after a change of an element's position is sent; the mark apart, it keeps its payload. -/
theorem sendsToken_enqueue {s : State} {e : Nat} {f : Elem → Elem} {ch : Nat} {x : Token} {p : Token → Prop} (h : p (enqueued (s.modElem e f) e ch x)) :
    sendsToken s (enqueue (s.modElem e f) e ch 4 x) e ch p :=
  ⟨_, by rw [enqueue_tokens, if_pos rfl, State.modElem_tokens], h⟩

theorem sendsToken_congr {s u v : State} {e ch : Nat} {p : Token → Prop} (h : sendsToken s u e ch p) (hv : ∀ q, v.tokens q = u.tokens q) : sendsToken s v e ch p := by
  unfold sendsToken
  rw [hv]
  exact h

theorem enqueued_fields (s : State) (e ch : Nat) (x : Token) : (enqueued s e ch x).gen = x.gen ∧ (enqueued s e ch x).mark = x.mark ∧ (enqueued s e ch x).frame = x.frame ∧
    (enqueued s e ch x).pres = x.pres ∧ (x.mark ≠ 3 → (enqueued s e ch x).payload = x.payload) := by
  obtain ⟨-, hgen, hmark, hframe, hpres, hpay, -⟩ := withStatus_fields (s.elem e) { x with cls := BitVec.ofNat 6 (chanClass ((s.elem e).active.chanWord ch)), tid := s.nextTok }
  exact ⟨hgen, hmark, hframe, hpres, fun h => by rw [enqueued, hpay, if_neg h]⟩

theorem unitsKept_trans {s u v : State} (h : unitsKept s u) (h' : unitsKept u v) : unitsKept s v := by
  obtain ⟨hr, hp, hm⟩ := h
  obtain ⟨hr', hp', hm'⟩ := h'
  exact ⟨fun w c hw _ => (hr' w c hw (by simp)).trans (hr w c hw (by simp)), predicatesKept_trans hp hp', memoryKept_trans hm hm'⟩

theorem unitsKept_issue {s u : State} (h : IssueFrame s u) : unitsKept s u := ⟨h.registersKept none, h.predicatesKept, h.memoryKept⟩

theorem unitsKept_modElem {s : State} {e : Nat} {f : Elem → Elem} (h : (f (s.elem e)).active = (s.elem e).active) : unitsKept s (s.modElem e f) :=
  (UnitFrame.of_modElem h).unitsKept (memoryKept_modElem s e f)

theorem unitsKept_enqueued (s : State) (e ch : Nat) (x : Token) : unitsKept s (enqueue s e ch 4 x) := by
  obtain ⟨hr, hp, -, hm⟩ := enqueue_quiet s e ch 4 x
  exact ⟨hr, hp, hm⟩

theorem unitsKept_advanced {s u : State} {e' : Nat} (h : unitsKept s u) : unitsKept s (advanced s u e') := unitsKept_trans h (unitsKept_issue (advanced_frame s u e'))

theorem advanced_tokens (s t : State) (e q : Nat) : (advanced s t e).tokens q = t.tokens q := (advanced_frame s t e).tokens q

/-- An enqueue after a change of an element's position keeps registers, predicates and memory. -/
theorem unitsKept_enqueue {s : State} {e : Nat} {f : Elem → Elem} (h : (f (s.elem e)).active = (s.elem e).active) (ch : Nat) (x : Token) :
    unitsKept s (enqueue (s.modElem e f) e ch 4 x) :=
  unitsKept_trans (unitsKept_modElem h) (unitsKept_enqueued _ e ch x)

/-- What the matrix node enqueues next of an output tile (R216). -/
def tileToken (s : State) (e : Nat) (d : Desc) (v : Word) (rest : List Word) : Token :=
  { payload := v, gen := if mxIntake d then (s.elem e).matrix.gen else 0, frame := if (s.elem e).matrix.outFirst then 1 else if rest.isEmpty then 3 else 2 }

/-- The state after a word of an output tile has been sent. -/
def wordSent (s : State) (e : Nat) (d : Desc) (v : Word) (rest : List Word) : State :=
  enqueue (modMatrix s e (fun m => { m with output := rest, outFirst := false })) e (mxOch d) 4 (tileToken s e d v rest)

theorem outputStep_channel {s : State} {e slot : Nat} {d : Desc} {v : Word} {rest : List Word} (hch : mxOutChan d = true) (hout : (s.elem e).matrix.output = v :: rest)
    (hroom : hasRoom s e (mxOch d) [] = true) : outputStep s e slot d = if rest.isEmpty then tileDone (wordSent s e d v rest) e d else wordSent s e d v rest := by
  have hroom' : hasRoom (modMatrix s e (fun m => { m with output := rest, outFirst := false })) e (mxOch d) [] = true := by rw [modMatrix, hasRoom_modElem rfl, hroom]
  unfold outputStep
  simp only [hch, if_true, hout, nodeEnqueue_room hroom'] <;> rfl

theorem wordSent_matrix (s : State) (e : Nat) (d : Desc) (v : Word) (rest : List Word) :
    ((wordSent s e d v rest).elem e).matrix = { (s.elem e).matrix with output := rest, outFirst := false } := by
  rw [wordSent, enqueue_elem, modMatrix_elem]

theorem wordSent_sends (s : State) (e : Nat) (d : Desc) (v : Word) (rest : List Word) :
    sendsToken s (wordSent s e d v rest) e (mxOch d) (fun x => x.payload = v ∧ x.frame = (if (s.elem e).matrix.outFirst then 1 else if rest = [] then 3 else 2)) := by
  obtain ⟨-, -, hframe, -, hpay⟩ := enqueued_fields (modMatrix s e (fun m => { m with output := rest, outFirst := false })) e (mxOch d) (tileToken s e d v rest)
  refine sendsToken_enqueue ⟨hpay (by simp [tileToken]), hframe.trans ?_⟩
  simp only [tileToken, List.isEmpty_iff]

theorem engineMoves_tileChannel {s : State} {e slot : Nat} {d : Desc} {v : Word} {rest : List Word} (hnode : nodeOf s e 1 = some (slot, d)) (hruns : nodeRuns s e slot = true)
    (hend : (s.elem e).matrix.ended = false) (hwr : (s.elem e).matrix.writing = true) (hch : mxOutChan d = true) (hout : (s.elem e).matrix.output = v :: rest)
    (hroom : hasRoom s e (mxOch d) [] = true) : ∃ u, exec (.matrixTileWrite e) s = .next u ∧
      sendsToken s u e (mxOch d) (fun x => x.payload = v ∧ x.frame = (if (s.elem e).matrix.outFirst then 1 else if rest = [] then 3 else 2)) ∧ (u.elem e).matrix.output = rest ∧
      (rest = [] → (u.elem e).matrix.tile = (s.elem e).matrix.tile + 1) ∧ unitsKept s u := by
  have hexec := exec_tileWrite_output hnode hruns hend hwr
  rw [outputStep_channel hch hout hroom] at hexec
  have hsend := wordSent_sends s e d v rest
  have hmatrix := wordSent_matrix s e d v rest
  have hkept : unitsKept s (wordSent s e d v rest) := unitsKept_enqueue rfl _ _
  by_cases hrest : rest = []
  · rw [if_pos (List.isEmpty_iff.2 hrest)] at hexec
    have hkept' : unitsKept s (tileDone (wordSent s e d v rest) e d) := unitsKept_trans hkept (unitsKept_modElem rfl)
    refine ⟨_, hexec, sendsToken_congr hsend fun q => ?_, ?_, fun _ => ?_, unitsKept_advanced hkept'⟩
    · rw [advanced_tokens, tileDone, modMatrix, State.modElem_tokens]
    · rw [advanced_elem, tileDone, modMatrix_elem, hrest]
    · rw [advanced_elem, tileDone, modMatrix_elem, hmatrix]
  · rw [if_neg (by simpa using hrest)] at hexec
    exact ⟨_, hexec, sendsToken_congr hsend (advanced_tokens s _ e), by rw [advanced_elem, hmatrix], fun h => absurd h hrest, unitsKept_advanced hkept⟩

theorem engineMoves_tileEnd {s : State} {e slot : Nat} {d : Desc} {t : Token} (hnode : nodeOf s e 1 = some (slot, d)) (hruns : nodeRuns s e slot = true)
    (hend : (s.elem e).matrix.ended = false) (hwr : (s.elem e).matrix.writing = false) (heos : (s.elem e).matrix.eos = some t) (hmark : t.mark = 3)
    (hroom : hasRoom s e (mxOch d) [] = true) : ∃ u, exec (.matrixTileWrite e) s = .next u ∧
      sendsToken s u e (mxOch d) (fun x => x.mark = 3) ∧ (u.elem e).matrix.ended = true ∧ registersKept s u none ∧ predicatesKept s u := by
  have hexec := exec_tileWrite_mark hnode hruns hend hwr heos
  rw [nodeEnqueue_room (by rw [modMatrix, hasRoom_modElem rfl, hroom]), Option.getD_some] at hexec
  obtain ⟨-, hmarked, -⟩ := enqueued_fields (modMatrix s e (fun m => { m with eos := none, ended := true })) e (mxOch d) t
  obtain ⟨hr, hp, -⟩ := unitsKept_advanced (e' := e) (unitsKept_enqueue (s := s) (e := e) (f := fun x => { x with matrix := { x.matrix with eos := none, ended := true } }) rfl (mxOch d) t)
  exact ⟨_, hexec, sendsToken_congr (sendsToken_enqueue (hmarked.trans hmark)) (advanced_tokens s _ e), by rw [advanced_elem, enqueue_elem, modMatrix_elem], hr, hp⟩

/-! ### The values of an INT8 tile step (R45, R215) -/

/-- Byte n of a number read from memory is the byte n places on. -/
theorem bits_readBytes (m : Memory) (a len n : Nat) (h : n < len) : bits (readBytes m a len) (8 * n) 8 = (byteAt m (a + n)).toNat := by
  induction len generalizing a n with
  | zero => omega
  | succ len ih =>
    have hb := (byteAt m a).isLt
    cases n with
    | zero =>
      rw [readBytes, bits, Nat.mul_zero, Nat.pow_zero, Nat.div_one, Nat.add_zero]
      exact (Nat.add_mul_mod_self_left _ 256 _).trans (Nat.mod_eq_of_lt hb)
    | succ n =>
      rw [show a + (n + 1) = a + 1 + n by omega, ← ih (a + 1) n (by omega), bits, bits, readBytes, show 8 * (n + 1) = 8 + 8 * n by omega, Nat.pow_add, ← Nat.div_div_eq_div_mul,
        show ((byteAt m a).toNat + 256 * readBytes m (a + 1) len) / 2 ^ 8 = readBytes m (a + 1) len by omega]

/-- The values of an INT8 tile are its signed bytes. -/
theorem tileValues_int8 (k tile : Nat) : (tileValues 2 9 k tile).1 = (List.range (8 * k)).map (fun n => fpOfInt (signedOf 8 (bits tile (8 * n) 8))) := by
  have hheader : headerWords 9 = 0 := by decide
  have hwidth : formatWidth 9 = 8 := by decide
  simp only [tileValues, if_true, hheader, hwidth, Nat.mul_zero, Nat.zero_add, List.map_map]
  rfl

theorem tileValues_bytes {s : State} {e : Nat} {w : Desc} {buf : Nat} (h : 256 ≤ bufBytes w) :
    (tileValues 2 9 32 (bufferValue s e w buf)).1 = (List.range 256).map (fun n => fpOfInt (tileByte s e w buf n)) := by
  rw [tileValues_int8]
  refine List.map_congr_left fun n hn => ?_
  have hn' : n < 256 := by simpa using hn
  have hbyte := (byteAt s.mem (bankAddr e (bufOff w buf 0) + n)).isLt
  rw [bufferValue, bits_readBytes _ _ _ _ (by omega), signedOf_eq_bmod (by omega), Nat.mod_eq_of_lt hbyte]
  rfl

/-- The r-th group of k of a list. -/
theorem drop_take_range {α : Type} (f : Nat → α) {k r n : Nat} (h : r * k + k ≤ n) : (((List.range n).map f).drop (r * k)).take k = (List.range k).map (fun i => f (k * r + i)) := by
  refine List.ext_getElem (by simp; omega) fun i h1 h2 => ?_
  simp [Nat.mul_comm]

/-- A product of integers is their exact product. -/
theorem sumAt_fpMul (x y : Int) (ts : List FpVal) : sumAt 0 ((fpMul (fpOfInt x) (fpOfInt y)).1 :: ts) = x * y + sumAt 0 ts := by
  have habs : ((x.natAbs * y.natAbs : Nat) : Int) = if decide (x < 0) != decide (y < 0) then -(x * y) else x * y := by
    have hnat : ∀ z : Int, (z.natAbs : Int) = if z < 0 then -z else z := fun z => by split <;> omega
    rw [Nat.cast_mul, hnat, hnat]
    by_cases hx : x < 0 <;> by_cases hy : y < 0 <;> simp [hx, hy]
  simp only [fpOfInt, fpMul, sumAt, Int.add_zero, Int.sub_self, Int.toNat_zero, pow_zero, mul_one, habs]
  split <;> simp

theorem sumAt_products (f g : Nat → Int) (l : List Nat) : sumAt 0 (l.map (fun k => (fpMul (fpOfInt (f k)) (fpOfInt (g k))).1)) = (l.map (fun k => f k * g k)).sum := by
  induction l with
  | nil => rfl
  | cons k l ih => rw [List.map_cons, sumAt_fpMul, ih, List.map_cons, List.sum_cons]

theorem tileProducts_int8 (f g : Nat → Int) {i j : Nat} (hi : i < 8) (hj : j < 8) :
    sumAt 0 ((tileProducts 32 i j ((List.range 256).map (fun n => fpOfInt (f n))) ((List.range 256).map (fun n => fpOfInt (g n)))).map (fun p => p.1)) =
    ((List.range 32).map (fun k => f (32 * i + k) * g (32 * j + k))).sum := by
  rw [tileProducts, drop_take_range _ (by omega), drop_take_range _ (by omega), List.zipWith_map, List.zipWith_self, List.map_map]
  exact sumAt_products (fun k => f (32 * i + k)) (fun k => g (32 * j + k)) _

/-- A saturated number is written as itself. -/
theorem bmod_saturated (x : Int) : Int.bmod (BitVec.ofInt 32 (max (-(2 ^ 31)) (min (2 ^ 31 - 1) x))).toNat (2 ^ 32) = max (-(2 ^ 31)) (min (2 ^ 31 - 1) x) := by
  rw [← BitVec.toInt_eq_toNat_bmod, BitVec.toInt_ofInt]
  exact Int.bmod_eq_of_le (by omega) (by omega)

theorem tileElement_int8 (r : Rounding) (ps : List (FpVal × Flags)) (c : Nat) : Int.bmod (tileElement 2 r ps c).1 (2 ^ 32) =
    max (-(2 ^ 31)) (min (2 ^ 31 - 1) (sumAt 0 (ps.map (fun p => p.1)) + Int.bmod (c % 2 ^ 32 : Nat) (2 ^ 32))) := by
  rw [← signedOf_eq_bmod (by omega)]
  exact bmod_saturated _

/-- Result n of a tile step is the one of row n / 8 and column n mod 8. -/
theorem tileStep_getD (s : State) (e : Nat) (d : Desc) {i j : Nat} (hi : i < 8) (hj : j < 8) : ∃ r : Rounding, (tileStep s e d).1.getD (8 * i + j) 0 =
    (tileElement (mxClass d) r (tileProducts (mxK (mxClass d)) i j
      (tileValues (mxClass d) (mxAfmt d) (mxK (mxClass d)) (bufferValue s e (mxAwin (s.elem e).active d) (s.elem e).matrix.aRead)).1
      (tileValues (mxClass d) (mxBfmt d) (mxK (mxClass d)) (bufferValue s e (mxBwin (s.elem e).active d) (s.elem e).matrix.bRead)).1)
      (if (s.elem e).matrix.step = 0 then 0 else (s.elem e).matrix.acc.getD (8 * i + j) 0)).1 := by
  refine ⟨{ mode := mxRound d, draw := stochasticDraw (seedOf s e) (eidOf s e) (s.elem e).matrix.done (8 * i + j) }, ?_⟩
  have hn : 8 * i + j < 64 := by omega
  have hrow : (8 * i + j) / 8 = i := by omega
  have hcol : (8 * i + j) % 8 = j := by omega
  simp only [tileStep, List.map_map, List.getD_eq_getElem?_getD, List.getElem?_map, List.getElem?_range hn, Option.map_some, Option.getD_some, Function.comp_apply, hrow, hcol]

theorem tileStep_int8 (s : State) (e : Nat) (d : Desc) (hc : mxClass d = 2) (ha : mxAfmt d = 9) (hb : mxBfmt d = 9) (hA : 256 ≤ bufBytes (mxAwin (s.elem e).active d))
    (hB : 256 ≤ bufBytes (mxBwin (s.elem e).active d)) {i j : Nat} (hi : i < 8) (hj : j < 8) : Int.bmod ((tileStep s e d).1.getD (8 * i + j) 0) (2 ^ 32) =
    max (-(2 ^ 31)) (min (2 ^ 31 - 1) (((List.range 32).map (fun k => tileByte s e (mxAwin (s.elem e).active d) (s.elem e).matrix.aRead (32 * i + k) *
      tileByte s e (mxBwin (s.elem e).active d) (s.elem e).matrix.bRead (32 * j + k))).sum +
      (if (s.elem e).matrix.step = 0 then 0 else Int.bmod ((s.elem e).matrix.acc.getD (8 * i + j) 0 % 2 ^ 32) (2 ^ 32)))) := by
  obtain ⟨r, h⟩ := tileStep_getD s e d hi hj
  rw [h, hc, ha, hb, show mxK 2 = 32 from rfl, tileElement_int8, tileValues_bytes hA, tileValues_bytes hB, tileProducts_int8 _ _ hi hj]
  split
  · rfl
  · rfl

/-! ### The matrix node's tile step (R86, R215) -/

section
variable {s : State} {e slot : Nat} {d : Desc} (hnode : nodeOf s e 1 = some (slot, d)) (htakes : nodeTakes s e slot = true) (hready : stepReady s e d = true)
include hnode htakes hready

theorem exec_tileStep : exec (.matrixTileStep e) s =
    .next (owning s e slot [mxAwin (s.elem e).active d, mxBwin (s.elem e).active d] (paidStep s e (mxCost (mxClass d)) (fun s => makeStep s e d))) := by
  rw [show exec (.matrixTileStep e) s = execMatrixTileStep e s from rfl, execMatrixTileStep]
  simp only [hnode, htakes, hready, Bool.and_self, if_true]

theorem exec_tileStep_unowned (h : ownsWindow s e (mxAwin (s.elem e).active d) = false ∨ ownsWindow s e (mxBwin (s.elem e).active d) = false) :
    exec (.matrixTileStep e) s = .next (raiseNode s e slot 0x088) := by
  rw [exec_tileStep hnode htakes hready, owning, if_neg (by simpa [Bool.and_eq_false_iff, Classical.or_iff_not_imp_left] using h)]

theorem exec_tileStep_owned (hA : ownsWindow s e (mxAwin (s.elem e).active d) = true) (hB : ownsWindow s e (mxBwin (s.elem e).active d) = true) :
    exec (.matrixTileStep e) s = .next (paidStep s e (mxCost (mxClass d)) (fun s => makeStep s e d)) := by
  rw [exec_tileStep hnode htakes hready, owning, if_pos (by simp [hA, hB])]

end

/-- The buffers that a tile step empties are emptied in memory's presence only. -/
theorem emptied_store (s : State) (e : Nat) (d : Desc) : storeFrame s (emptyBuffer (emptyBuffer s e (mxAwin (s.elem e).active d) (s.elem e).matrix.aRead (mxKeepA d)) e
    (mxBwin (s.elem e).active d) (s.elem e).matrix.bRead (mxKeepB d)) :=
  storeFrame_trans (emptyBuffer_store s e _ _ _) (emptyBuffer_store _ e _ _ _)

theorem makeStep_unit (s : State) (e : Nat) (d : Desc) : UnitFrame s (makeStep s e d) := by
  unfold makeStep
  exact (storeFrame_unit (emptied_store s e d)).trans (.of_modElem rfl)

theorem makeStep_matrix (s : State) (e : Nat) (d : Desc) : ((makeStep s e d).elem e).matrix.done = (s.elem e).matrix.done + 1 ∧
    ((makeStep s e d).elem e).matrix.acc = (tileStep s e d).1 ∧ ((makeStep s e d).elem e).matrix.writing = ((s.elem e).matrix.step == mxLastStep d) ∧
    ((makeStep s e d).elem e).matrix.step = if (s.elem e).matrix.step == mxLastStep d then 0 else (s.elem e).matrix.step + 1 := by
  unfold makeStep
  simp only [State.modElem_elem, if_true]
  exact ⟨trivial, trivial, trivial, trivial⟩

theorem tileByte_congr {s u : State} (h : u.mem = s.mem) (e : Nat) (w : Desc) (buf n : Nat) : tileByte u e w buf n = tileByte s e w buf n :=
  congrArg (fun m => Int.bmod (byteAt m (bankAddr e (bufOff w buf 0) + n)).toNat 256) h

theorem engineMoves_tileStep {s : State} {e slot : Nat} {d : Desc} (hnode : nodeOf s e 1 = some (slot, d)) (htakes : nodeTakes s e slot = true) (hready : stepReady s e d = true)
    (hA : ownsWindow s e (mxAwin (s.elem e).active d) = true) (hB : ownsWindow s e (mxBwin (s.elem e).active d) = true) (hpay : canPay s (groveOf e) (mxCost (mxClass d)) = true) :
    ∃ u, exec (.matrixTileStep e) s = .next u ∧ (u.elem e).matrix.done = (s.elem e).matrix.done + 1 ∧
      ((s.elem e).matrix.step = mxLastStep d → (u.elem e).matrix.step = 0 ∧ (u.elem e).matrix.writing = true) ∧
      ((s.elem e).matrix.step ≠ mxLastStep d → (u.elem e).matrix.step = (s.elem e).matrix.step + 1 ∧ (u.elem e).matrix.writing = false) ∧
      (mxClass d = 2 → mxAfmt d = 9 → mxBfmt d = 9 → 256 ≤ bufBytes (mxAwin (s.elem e).active d) → 256 ≤ bufBytes (mxBwin (s.elem e).active d) → ∀ i j, i < 8 → j < 8 →
        Int.bmod ((u.elem e).matrix.acc.getD (8 * i + j) 0) (2 ^ 32) = max (-(2 ^ 31)) (min (2 ^ 31 - 1)
          (((List.range 32).map (fun k => tileByte s e (mxAwin (s.elem e).active d) (s.elem e).matrix.aRead (32 * i + k) *
            tileByte s e (mxBwin (s.elem e).active d) (s.elem e).matrix.bRead (32 * j + k))).sum +
            (if (s.elem e).matrix.step = 0 then 0 else Int.bmod ((s.elem e).matrix.acc.getD (8 * i + j) 0 % 2 ^ 32) (2 ^ 32))))) ∧
      registersKept s u none ∧ predicatesKept s u ∧ u.mem = s.mem := by
  have hexec := exec_tileStep_owned hnode htakes hready hA hB
  rw [paidStep_paid hpay] at hexec
  obtain ⟨hdone, hacc, hwriting, hstep⟩ := makeStep_matrix (pay s (groveOf e) (mxCost (mxClass d))) e d
  have hunit := (UnitFrame.of_issue (pay_frame s (groveOf e) (mxCost (mxClass d)))).trans (makeStep_unit _ e d)
  have hvalues := tileStep_int8 (pay s (groveOf e) (mxCost (mxClass d))) e d
  rw [pay_elem] at hdone hwriting hstep hvalues
  simp only [tileByte_congr (pay_mem s (groveOf e) (mxCost (mxClass d)))] at hvalues
  refine ⟨_, hexec, hdone, fun h => ?_, fun h => ?_, fun hc ha hb hA hB i j hi hj => ?_, hunit.registersKept, hunit.predicatesKept, (makeStep_mem _ e d).trans (pay_mem s _ _)⟩
  · rw [hwriting, hstep, h]
    simp
  · rw [hwriting, hstep]
    simp [h]
  · rw [hacc]
    exact hvalues hc ha hb hA hB hi hj

/-! ### The converter (R219, R220) -/

theorem sendsToken_of_issue {s s' u : State} {e ch : Nat} {p : Token → Prop} (hf : IssueFrame s s') (h : sendsToken s' u e ch p) : sendsToken s u e ch p := by
  unfold sendsToken at h ⊢
  rwa [hf.tokens] at h

/-- The state after a converter has sent a token that was due. -/
def convSent (s : State) (e : Nat) (d : Desc) (t : Token) (rest : List Token) : State :=
  enqueue (s.modElem e (fun x => { x with conv := { x.conv with output := rest } })) e (cvOch d) 4 t

theorem exec_converterToken_due {s : State} {e slot : Nat} {d : Desc} {t : Token} {rest : List Token} (hnode : nodeOf s e 2 = some (slot, d)) (hout : (s.elem e).conv.output = t :: rest)
    (hruns : nodeRuns s e slot = true) (hroom : hasRoom s e (cvOch d) [] = true) :
    exec (.converterToken e) s = .next (paidStep s e 2 (fun s => convSent s e d t rest)) := by
  rw [show exec (.converterToken e) s = execConverterToken e s from rfl, execConverterToken]
  simp only [hnode, hout, hruns, hroom, Bool.and_self, if_true] <;> rfl

theorem engineMoves_convOutput {s : State} {e slot : Nat} {d : Desc} {t : Token} {rest : List Token} (hnode : nodeOf s e 2 = some (slot, d)) (hout : (s.elem e).conv.output = t :: rest)
    (hmark : t.mark ≠ 3) (hruns : nodeRuns s e slot = true) (hroom : hasRoom s e (cvOch d) [] = true) (hpay : canPay s (groveOf e) 2 = true) :
    ∃ u, exec (.converterToken e) s = .next u ∧
      sendsToken s u e (cvOch d) (fun x => x.payload = t.payload ∧ x.mark = t.mark ∧ x.gen = t.gen ∧ x.frame = t.frame ∧ x.pres = t.pres) ∧
      (u.elem e).conv.output = rest ∧ unitsKept s u := by
  have hexec := exec_converterToken_due hnode hout hruns hroom
  rw [paidStep_paid hpay] at hexec
  have hf := pay_frame s (groveOf e) 2
  refine ⟨_, hexec, sendsToken_of_issue hf (sendsToken_enqueue ?_), ?_, unitsKept_trans (unitsKept_issue hf) (unitsKept_enqueue rfl _ t)⟩
  · obtain ⟨hgen, hmark', hframe, hpres, hpayload⟩ := enqueued_fields ((pay s (groveOf e) 2).modElem e (fun x => { x with conv := { x.conv with output := rest } })) e (cvOch d) t
    exact ⟨hpayload hmark, hmark', hgen, hframe, hpres⟩
  · rw [convSent, enqueue_elem, State.modElem_elem, if_pos rfl]

/-- A converter that holds nothing has nothing to close. -/
theorem closePartial_empty {s : State} {e : Nat} {d : Desc} {c : ConvState} (hbits : c.bitsHeld = 0) (hgroup : c.group = []) (hscales : c.scales = []) : closePartial s e d c = (c, 0) := by
  unfold closePartial
  split
  · simp [endGroup, hgroup, hscales]
  · rfl

theorem convertToken_mark {s : State} {e : Nat} {d : Desc} {t : Token} (hhead : headOf s e (cvIch d) = some t) (hwave : t.isWave = false) (hmark : t.mark ≠ 0)
    (hclose : closePartial s e d (s.elem e).conv = ((s.elem e).conv, 0)) : convertToken s e d =
    putConv (takeHead s e (cvIch d) none) e ({ (s.elem e).conv with output := (s.elem e).conv.output ++ [{ t with tid := 0 }] }, 0) := by
  unfold convertToken
  simp only [hhead, hwave, Bool.false_eq_true, if_false, if_pos (Or.inl hmark : t.mark ≠ 0 ∨ ¬t.pres), hclose]

theorem nodeLooks_of_takes {s : State} {e slot ch : Nat} (h : nodeTakes s e slot = true) : nodeLooks s e slot ch = true := by rw [nodeLooks, h, Bool.true_or]

theorem exec_converterToken_taken {s : State} {e slot : Nat} {d : Desc} (hnode : nodeOf s e 2 = some (slot, d)) (hout : (s.elem e).conv.output = []) (htakes : nodeTakes s e slot = true) :
    exec (.converterToken e) s = .next (advanced s (convertToken s e d) e) := by
  rw [show exec (.converterToken e) s = execConverterToken e s from rfl, execConverterToken]
  simp only [hnode, hout, nodeLooks_of_takes htakes, if_true]

/-- A change of an element's position after a head has been taken leaves the head taken, and registers, predicates and memory kept. -/
theorem taken_modElem {s : State} {e ch : Nat} {f : Elem → Elem} (h : ∀ x, (f x).active = x.active) :
    takesHead s (advanced s ((takeHead s e ch none).modElem e f) e) e ch ∧ unitsKept s (advanced s ((takeHead s e ch none).modElem e f) e) := by
  refine ⟨takesHead_congr (takeHead_takesHead s e ch) ?_, unitsKept_advanced (unitsKept_trans (unitsKept_issue (takeHead_frame s e ch none)) (unitsKept_modElem (h _)))⟩
  rw [advanced_elem, State.modElem_elem, if_pos rfl, h]

theorem engineMoves_convMark {s : State} {e slot : Nat} {d : Desc} {t : Token} (hnode : nodeOf s e 2 = some (slot, d)) (hout : (s.elem e).conv.output = [])
    (hbits : (s.elem e).conv.bitsHeld = 0) (hgroup : (s.elem e).conv.group = []) (hscales : (s.elem e).conv.scales = []) (htakes : nodeTakes s e slot = true)
    (hhead : headOf s e (cvIch d) = some t) (hwave : t.isWave = false) (hmark : t.mark ≠ 0) : ∃ u, exec (.converterToken e) s = .next u ∧
      takesHead s u e (cvIch d) ∧ (u.elem e).conv.output = [{ t with tid := 0 }] ∧ unitsKept s u := by
  have hexec := exec_converterToken_taken hnode hout htakes
  rw [convertToken_mark hhead hwave hmark (closePartial_empty hbits hgroup hscales), hout, List.nil_append, putConv] at hexec
  obtain ⟨htaken, hkept⟩ := taken_modElem (s := s) (e := e) (ch := cvIch d)
    (f := fun x => { x with conv := { (s.elem e).conv with output := [{ t with tid := 0 }] }, convSticky := x.convSticky ||| 0 }) (fun _ => rfl)
  exact ⟨_, hexec, htaken, by rw [advanced_elem, State.modElem_elem, if_pos rfl], hkept⟩

/-! ### The corner-turn node (R222) -/

theorem collectToken_data {s : State} {e slot : Nat} {d : Desc} {t : Token} {rest : List Token} (hq : (s.elem e).active.fifo (ctIch d) = t :: rest) (hmark : t.mark = 0)
    (hpres : t.pres = true) (hlen : (s.elem e).turn.block.length < 63) :
    collectToken s e slot d = modTurn (takeHead s e (ctIch d) none) e (fun x => { x with block := (s.elem e).turn.block ++ [t] }) := by
  have hwave : t.isWave = false := by simp [Token.isWave, hmark]
  have hlen' : ((s.elem e).turn.block ++ [t]).length ≠ 64 := by simp; omega
  unfold collectToken
  simp only [headOf_data hq hmark, hwave, hmark, hpres, Bool.false_eq_true, if_false, ne_eq, not_true_eq_false, if_true, if_neg hlen']

theorem engineMoves_turnCollect {s : State} {e slot : Nat} {d : Desc} {t : Token} {rest : List Token} (hnode : nodeOf s e 3 = some (slot, d)) (htakes : nodeTakes s e slot = true)
    (hemit : (s.elem e).turn.emitting = false) (hafter : (s.elem e).turn.after = none) (hlen : (s.elem e).turn.block.length < 63)
    (hq : (s.elem e).active.fifo (ctIch d) = t :: rest) (hmark : t.mark = 0) (hpres : t.pres = true) : ∃ u, exec (.cornerTurnCollect e) s = .next u ∧
      takesHead s u e (ctIch d) ∧ (u.elem e).turn.block = (s.elem e).turn.block ++ [t] ∧ unitsKept s u := by
  have hexec : exec (.cornerTurnCollect e) s = .next (advanced s (collectToken s e slot d) e) := by
    rw [show exec (.cornerTurnCollect e) s = execCornerTurnCollect e s from rfl, execCornerTurnCollect]
    simp only [hnode, nodeLooks_of_takes htakes, hemit, hafter, show (s.elem e).turn.block.length < 64 by omega, Bool.not_false, Bool.and_self, decide_true, Option.isNone_none, if_true]
  rw [collectToken_data hq hmark hpres hlen, modTurn] at hexec
  obtain ⟨htaken, hkept⟩ := taken_modElem (s := s) (e := e) (ch := ctIch d) (f := fun x => { x with turn := { x.turn with block := (s.elem e).turn.block ++ [t] } }) (fun _ => rfl)
  exact ⟨_, hexec, htaken, by rw [advanced_elem, State.modElem_elem, if_pos rfl], hkept⟩

/-- The word of those of the bits 0 to N - 1 that a predicate takes. -/
def gathered (P : Nat → Bool) (N : Nat) : Word := (List.range N).foldl (fun w i => if P i then w ||| ((1 : Word) <<< i) else w) 0

theorem gathered_succ (P : Nat → Bool) (N : Nat) : gathered P (N + 1) = if P N then gathered P N ||| BitVec.twoPow 64 N else gathered P N := by
  rw [gathered, List.range_succ, List.foldl_append, List.foldl_cons, List.foldl_nil]
  rfl

theorem getLsbD_gathered (P : Nat → Bool) (N : Nat) {n : Nat} (hn : n < 64) : (gathered P N).getLsbD n = (decide (n < N) && P n) := by
  induction N with
  | zero => simp [gathered]
  | succ N ih =>
    have hlt : n ≠ N → (n < N + 1 ↔ n < N) := by omega
    rw [gathered_succ]
    by_cases hP : P N = true
    · rw [if_pos hP, BitVec.getLsbD_or, ih, BitVec.getLsbD_twoPow]
      by_cases h : n = N
      · simp [h, hP, h ▸ hn]
      · simp [Ne.symm h, hlt h]
    · rw [if_neg hP, ih]
      by_cases h : n = N
      · simp [h, hP]
      · simp [hlt h]

theorem turnedPayload_gathered (b : List Token) (m : Nat) : turnedPayload true b m = gathered (fun n => ((b.getD n {}).payload).getLsbD m) 64 := rfl

theorem turnedPayload_bit (b : List Token) {m n : Nat} (hn : n < 64) : (turnedPayload true b m).getLsbD n = ((b.getD n {}).payload).getLsbD m := by
  rw [turnedPayload_gathered, getLsbD_gathered _ 64 hn, decide_eq_true hn, Bool.true_and]

theorem turnedBlock_length (bit : Bool) (b : List Token) : (turnedBlock bit b).length = 64 := by rw [turnedBlock, List.length_map, List.length_range]

theorem turnedBlock_getD (bit : Bool) (b : List Token) {m : Nat} (hm : m < 64) : ((turnedBlock bit b).getD m {}).payload = turnedPayload bit b m := by
  simp only [turnedBlock, List.getD_eq_getElem?_getD, List.getElem?_map, List.getElem?_range hm, Option.map_some, Option.getD_some]

theorem exec_turnEmit_start {s : State} {e slot : Nat} {d : Desc} (hnode : nodeOf s e 3 = some (slot, d)) (hruns : nodeRuns s e slot = true) (hemit : (s.elem e).turn.emitting = false)
    (hlen : (s.elem e).turn.block.length = 64) : exec (.cornerTurnEmit e) s =
    .next (paidStep s e 8 (fun s => modTurn s e (fun x => { x with block := [], emitting := true, output := turnedBlock (ctBit d) x.block }))) := by
  rw [show exec (.cornerTurnEmit e) s = execCornerTurnEmit e s from rfl, execCornerTurnEmit]
  simp only [hnode, hruns, hemit, hlen, Bool.not_true, Bool.false_eq_true, if_false, if_true]

theorem engineMoves_turnStart {s : State} {e slot : Nat} {d : Desc} (hnode : nodeOf s e 3 = some (slot, d)) (hruns : nodeRuns s e slot = true) (hemit : (s.elem e).turn.emitting = false)
    (hlen : (s.elem e).turn.block.length = 64) (hpay : canPay s (groveOf e) 8 = true) : ∃ u, exec (.cornerTurnEmit e) s = .next u ∧
      (u.elem e).turn.emitting = true ∧ (u.elem e).turn.output.length = 64 ∧
      (∀ m n, m < 64 → n < 64 → ctBit d = true → (((u.elem e).turn.output.getD m {}).payload).getLsbD n = (((s.elem e).turn.block.getD n {}).payload).getLsbD m) ∧
      (∀ m, m < 64 → ctBit d = false → ((u.elem e).turn.output.getD m {}).payload = ((s.elem e).turn.block.getD (8 * (m % 8) + m / 8) {}).payload) ∧ unitsKept s u := by
  have hexec := exec_turnEmit_start hnode hruns hemit hlen
  rw [paidStep_paid hpay, modTurn] at hexec
  refine ⟨_, hexec, ?_, ?_, fun m n hm hn hbit => ?_, fun m hm hbit => ?_, unitsKept_trans (unitsKept_issue (pay_frame s _ 8)) (unitsKept_modElem rfl)⟩
  all_goals rw [State.modElem_elem, if_pos rfl, pay_elem]
  · exact turnedBlock_length _ _
  · rw [turnedBlock_getD _ _ hm, hbit, turnedPayload_bit _ hn]
  · rw [turnedBlock_getD _ _ hm, hbit]
    rfl

theorem exec_turnEmit_token {s : State} {e slot : Nat} {d : Desc} {t : Token} {rest : List Token} (hnode : nodeOf s e 3 = some (slot, d)) (hruns : nodeRuns s e slot = true)
    (hemit : (s.elem e).turn.emitting = true) (hout : (s.elem e).turn.output = t :: rest) (hroom : hasRoom s e (ctOch d) [] = true) : exec (.cornerTurnEmit e) s =
    .next (advanced s (enqueue (s.modElem e (fun x => { x with turn := { x.turn with output := rest, emitting := !rest.isEmpty } })) e (ctOch d) 4 t) e) := by
  have henq := nodeEnqueue_room (s := modTurn s e (fun x => { x with output := rest, emitting := !rest.isEmpty })) (t := t) (by rw [modTurn, hasRoom_modElem rfl, hroom])
  rw [show exec (.cornerTurnEmit e) s = execCornerTurnEmit e s from rfl, execCornerTurnEmit]
  simp only [hnode, hruns, hemit, hout, Bool.not_true, Bool.false_eq_true, if_false, if_true, henq, Option.getD_some] <;> rfl

theorem engineMoves_turnToken {s : State} {e slot : Nat} {d : Desc} {t : Token} {rest : List Token} (hnode : nodeOf s e 3 = some (slot, d)) (hruns : nodeRuns s e slot = true)
    (hemit : (s.elem e).turn.emitting = true) (hout : (s.elem e).turn.output = t :: rest) (hmark : t.mark = 0) (hroom : hasRoom s e (ctOch d) [] = true) :
    ∃ u, exec (.cornerTurnEmit e) s = .next u ∧ sendsToken s u e (ctOch d) (fun y => y.payload = t.payload ∧ y.mark = 0 ∧ y.gen = t.gen) ∧
      (u.elem e).turn.output = rest ∧ unitsKept s u := by
  refine ⟨_, exec_turnEmit_token hnode hruns hemit hout hroom, sendsToken_congr (sendsToken_enqueue ?_) (advanced_tokens s _ e), ?_, unitsKept_advanced (unitsKept_enqueue rfl _ t)⟩
  · obtain ⟨hgen, hmarked, -, -, hpayload⟩ := enqueued_fields (s.modElem e (fun x => { x with turn := { x.turn with output := rest, emitting := !rest.isEmpty } })) e (ctOch d) t
    exact ⟨hpayload (by simp [hmark]), hmarked.trans hmark, hgen⟩
  · rw [advanced_elem, enqueue_elem, State.modElem_elem, if_pos rfl]

/-- Settles O48: the moves of each engine, one lemma for each case of its rules. -/
theorem engineMoves : Obligations.EngineMoves := by
  unfold Obligations.EngineMoves
  refine ⟨fun s e slot d w t rest hnode hw htakes hown hin hend hq hm hf hrun hdis hfill hwf => engineMoves_intake hnode hw htakes hown hin hend hq hm hf hrun hdis hfill hwf,
    fun s e slot d m hnode htakes hready hm => ⟨exec_tileStep_unowned hnode htakes hready, fun hA hB => ⟨fun hpay => ?_, fun hpay => ?_⟩⟩,
    fun s e slot d w m hnode hruns hm hend hw => ⟨fun hwr hch hown hwf => engineMoves_tileBuffer hnode hruns hm hend hw hwr hch hown hwf,
      fun v rest hwr hch hout hroom => ?_, fun t hwr heos hmark hroom => ?_⟩,
    fun s e slot d c hnode hc => ⟨fun t rest hout hmark hruns hroom => ⟨fun hpay => ?_, fun hpay => ?_⟩,
      fun t rest hout hbits hgroup hscales htakes hhead hwave hmark _ => ?_⟩,
    fun s e slot d x hnode hx => ⟨fun t rest htakes hemit hafter hlen hq hmark hpres => ?_, fun hruns hemit hlen => ⟨fun hpay => ?_, fun hpay => ?_⟩,
      fun t rest hruns hemit hout hmark hroom => ?_⟩⟩
  · subst hm
    exact engineMoves_tileStep hnode htakes hready hA hB hpay
  · rw [exec_tileStep_owned hnode htakes hready hA hB, paidStep_refused hpay]
  · subst hm
    exact engineMoves_tileChannel hnode hruns hend hwr hch hout hroom
  · subst hm
    exact engineMoves_tileEnd hnode hruns hend hwr heos hmark hroom
  · subst hc
    exact engineMoves_convOutput hnode hout hmark hruns hroom hpay
  · rw [exec_converterToken_due hnode (hc ▸ hout) hruns hroom, paidStep_refused hpay]
  · subst hc
    exact engineMoves_convMark hnode hout hbits hgroup hscales htakes hhead hwave hmark
  · subst hx
    exact engineMoves_turnCollect hnode htakes hemit hafter hlen hq hmark hpres
  · subst hx
    exact engineMoves_turnStart hnode hruns hemit hlen hpay
  · subst hx
    rw [exec_turnEmit_start hnode hruns hemit hlen, paidStep_refused hpay]
  · subst hx
    exact engineMoves_turnToken hnode hruns hemit hout hmark hroom

end Sys2Proof.Machine
end

section
/-! PROOFS. Absent sources (O11): a word that raises no flag comes to its effect in either kind of unit, and a value of an absent source is absent (R69, R121). -/

namespace Sys2Proof.Machine
open Sys2Proof.Claims

/-! ### Words without flags -/

/-- A word that raises no flag comes to its effect, whatever unit issues it. -/
theorem conclude_noFlags (s : State) (i : Instr) (t : State) : conclude s i (.done t 0) = t := by
  simp [conclude, raiseFlags]

/-- An issuable word that completes without flags comes to its effect on the state that its issue leaves. -/
theorem issueWord_noFlags {i : Instr} {s t : State} {effect : State → State → Effect} (hi : issuable s i = true) (h : effect s (issued s i) = .done t 0) :
    issueWord i s effect = .next t := by
  rw [issueWord_issuable hi, h, conclude_noFlags]

/-! ### An absent result (R69, R121) -/

theorem writeDst_absent_register {s : State} {d : BitVec 6} (h : chanOf s d = none) : writeDst s d none = s := by
  rw [writeDst, h]

theorem src2_absent {s : State} {a b : BitVec 6} (h : srcVal s a = none ∨ srcVal s b = none) : src2 s a b = none := by
  unfold src2
  rcases h with h | h
  · rw [h]
  · rw [h]
    cases srcVal s a <;> rfl

/-- Each word of two sources issues as one value of the two, which may depend on the destination's old value (R123, R125). -/
theorem exec_twoSource : ∀ f ∈ twoSource.map (fun p => p.1) ++ [.bfx, .bfi], ∃ g : State → BitVec 6 → Word × Word → Word, ∀ (t d a b : BitVec 6) (s : State),
    exec (f t d a b) s = issueWord (f t d a b) s (fun s0 s1 => .done (writeDst s1 d ((src2 s0 a b).map (g s0 d))) 0) := by
  intro f hf
  fin_cases hf
  all_goals exact ⟨_, fun _ _ _ _ _ => rfl⟩

/-- Each word of one source issues as one value of it (R126). -/
theorem exec_unary : ∀ f ∈ unary.map (fun p => p.1), ∃ g : Word → Word, ∀ (t d a : BitVec 6) (s : State),
    exec (f t d a) s = issueWord (f t d a) s (fun s0 s1 => .done (writeDst s1 d ((src1 s0 a).map g)) 0) := by
  intro f hf
  fin_cases hf
  all_goals exact ⟨_, fun _ _ _ _ => rfl⟩

/-- Settles O11: a value of an absent source is absent, and goes to a channel as an absent token. -/
theorem absentSourceResults : Obligations.AbsentSourceResults := by
  unfold Obligations.AbsentSourceResults
  refine ⟨fun f hf t d a b s hnone hi => ?_, fun f hf t d a s hnone hi => ?_, fun s d => writeDst_absent_register, fun s e k n d hc hd => writeDst_chan hc hd none⟩
  · obtain ⟨g, hexec⟩ := exec_twoSource f hf
    rw [hexec, issueWord_noFlags hi (by rw [src2_absent hnone, Option.map_none])]
  · obtain ⟨g, hexec⟩ := exec_unary f hf
    rw [hexec, issueWord_noFlags hi (by rw [src1, hnone, Option.map_none])]

end Sys2Proof.Machine
end

section
/-! PROOFS. Words that send one request to a bank (O35): what their issue leaves alone in either kind of unit, the request that is added, and the atomics, contributions, tags, arrivals and waits (R166, R168, R169, R175, R176). -/

namespace Sys2Proof.Machine
open Sys2Proof.Claims

/-! ### What a request is made of -/

/-- Between two states nothing has changed that the making of a request reads or that its statement speaks of: units, memory, requests and barrier records. -/
structure SendFrame (s u : State) : Prop where
  quiet : quiet s u
  reqs : u.reqs = s.reqs
  nextReq : u.nextReq = s.nextReq
  barrier : ∀ v k, barRecord u v k = barRecord s v k

namespace SendFrame

theorem trans {s u v : State} (h : SendFrame s u) (h' : SendFrame u v) : SendFrame s v :=
  ⟨quiet_trans h.quiet h'.quiet, h'.reqs.trans h.reqs, h'.nextReq.trans h.nextReq, fun w k => (h'.barrier w k).trans (h.barrier w k)⟩

theorem barrier_of {s u : State} (he : ∀ e, (u.elem e).barrier = (s.elem e).barrier) (ht : ∀ g, (u.grove g).taskBank.barrier = (s.grove g).taskBank.barrier)
    (hs : ∀ g, (u.grove g).superBank.barrier = (s.grove g).superBank.barrier) (v : UnitId) (k : BitVec 2) : barRecord u v k = barRecord s v k := by
  cases v with
  | elem e => simp only [barRecord, he]
  | seq g => simp only [barRecord, ht, hs]
  | ag g n => rfl
  | remote m a b => rfl

theorem of_fields {s u : State} (he : u.elems = s.elems) (hg : u.groves = s.groves) (hm : u.mem = s.mem) (hw : u.words = s.words) (hs : u.sectors = s.sectors)
    (hi : u.windows = s.windows) (hb : u.banks = s.banks) (hr : u.reqs = s.reqs) (hn : u.nextReq = s.nextReq) : SendFrame s u :=
  ⟨quiet_of_fields he hg hm hw hs hi hb, hr, hn,
    barrier_of (fun e => by rw [State.elem, State.elem, he]) (fun g => by rw [State.grove, State.grove, hg]) (fun g => by rw [State.grove, State.grove, hg])⟩

theorem of_issue {s u : State} (h : IssueFrame s u) : SendFrame s u :=
  ⟨h.quiet, h.view State.reqs, h.view State.nextReq, barrier_of (h.elemView Elem.barrier) (h.groveView (fun x => x.taskBank.barrier)) (h.groveView (fun x => x.superBank.barrier))⟩

theorem of_modTask (s : State) (t : Nat) (f : Task → Task) : SendFrame s (s.modTask t f) := by
  refine of_fields ?_ ?_ ?_ ?_ ?_ ?_ ?_ ?_ ?_ <;> simp

end SendFrame

/-- A supervisor's word pays from the guard supply, which no request reads (R183). -/
theorem payWord_sendFrame (s : State) (cost : Nat) : SendFrame s (payWord s cost) := by
  unfold payWord
  split
  · extract_lets t n u
    have ht : SendFrame s t := by
      simp only [t]
      split
      · exact .of_modTask s _ _
      · exact .of_issue (.refl s)
    have hu : SendFrame s u := ht.trans (.of_fields rfl rfl rfl rfl rfl rfl rfl rfl rfl)
    split
    · exact hu.trans (.of_fields rfl rfl rfl rfl rfl rfl rfl rfl rfl)
    · exact hu
  · split
    · exact .of_issue (noteStep_frame s _)
    · exact .of_issue (pay_frame s _ _)

theorem advance_word_sendFrame {s : State} {g a : Nat} (hc : s.cur = .word g a) (i : Instr) : SendFrame s (advance s i) := by
  simp only [advance, hc]
  exact ⟨quiet_modGrove rfl rfl, rfl, rfl, SendFrame.barrier_of (fun _ => rfl) (State.modGrove_keeps (fun x => x.taskBank.barrier) rfl) (State.modGrove_keeps (fun x => x.superBank.barrier) rfl)⟩

/-- The issue of a word, of a slot or of a sequencer, leaves requests and barrier records alone (R32, R131). -/
theorem issued_sendFrame (s : State) (i : Instr) : SendFrame s (issued s i) := by
  cases hc : s.cur with
  | slot e k n => exact .of_issue (issued_frame hc i)
  | word g a =>
    rw [issued_word hc]
    exact (payWord_sendFrame s _).trans (advance_word_sendFrame ((payWord_elems_cur s _).2.trans hc) i)

/-- A destination that takes a reply is the one that its code names, and a place reserved for it changes no request (R162). -/
theorem replyDest_spec (s0 s1 : State) (d : BitVec 6) : SendFrame s1 (replyDest s0 s1 d).1 ∧ (replyDest s0 s1 d).2.1 = Claims.replyTo s0 d := by
  have href : SendFrame s1 s1 := .of_issue (.refl s1)
  cases hc : s0.cur with
  | slot e k n =>
    cases hd : chanOf s0 d with
    | some ch =>
      simp only [replyDest, Claims.replyTo, hc, hd]
      exact ⟨.of_fields rfl rfl rfl rfl rfl rfl rfl rfl rfl, trivial⟩
    | none =>
      simp only [replyDest, Claims.replyTo, hc, hd]
      exact ⟨href, trivial⟩
  | word g a =>
    have hd : chanOf s0 d = none := by rw [chanOf, hc]
    simp only [replyDest, Claims.replyTo, hc, hd]
    exact ⟨href, trivial⟩

/-! ### One request more -/

/-- Between two states one request has been added under the next identity, and the units and memory are the same. -/
structure Adds (s u : State) (q : Req) : Prop where
  nextReq : u.nextReq = s.nextReq + 1
  find : ∀ r, mfind u.reqs r = if r = s.nextReq then some q else mfind s.reqs r
  quiet : quiet s u

theorem Adds.of_frame {s u v : State} {q : Req} (h : SendFrame s u) (h' : Adds u v q) : Adds s v q :=
  ⟨by rw [h'.nextReq, h.nextReq], fun r => by rw [h'.find, h.nextReq, h.reqs], quiet_trans h.quiet h'.quiet⟩

/-- A request of the issuing word. -/
def isSentBy (s : State) (q : Req) : Prop := q.src = curUnit s.cur ∧ q.strand = issueStrand s ∧ q.supervisor = s.supervising ∧ q.gen = curGen s

theorem Adds.sends {s u : State} {q : Req} {p : Req → Prop} (h : Adds s u q) (hs : isSentBy s q) (hp : p q) : sends s u p := by
  obtain ⟨hsrc, hstrand, hsup, hgen⟩ := hs
  obtain ⟨hr, hpr, hst, hm⟩ := h.quiet
  refine ⟨h.nextReq, ⟨q, by rw [h.find, if_pos rfl], hsrc, hstrand, hsup, hgen, hp⟩, fun r hne hnone => ?_, fun r x hne hx _ => ?_, hr, hpr, hst, hm⟩
  · rw [h.find, if_neg hne, hnone]
  · rw [h.find, if_neg hne, hx]

/-- A request to a bank, before it is sent or held. -/
def toBank (s : State) (q : Req) (e off : Nat) : Req := { q with target := .bank e off, scope := bankScope q.src e, since := s.tb.toNat }

/-- A request outside any chain that is no wait is on its way to its bank at once (R96). -/
theorem addReq_adds {s : State} {q : Req} (hw : q.wave = none) (hk : ∀ n, q.kind ≠ .wait n) (e off : Nat) :
    Adds s (addReq s q (.bank e off)) { toBank s q e off with stage := .sent } := by
  have he : addReq s q (.bank e off) =
      ({ s with nextReq := s.nextReq + 1 }.setReq s.nextReq (toBank s q e off)).setReq s.nextReq { toBank s q e off with stage := .sent } := by
    cases q
    cases hw
    unfold addReq
    dsimp only
    split
    next _ n => exact absurd rfl (hk n)
    next =>
      rw [sendReq, State.setReq_reqOpt, if_pos rfl]
      rfl
  rw [he]
  refine ⟨rfl, fun r => ?_, quiet_of_fields rfl rfl rfl rfl rfl rfl rfl⟩
  simp only [State.setReq, mfind_mset]
  split <;> rfl

/-- A wait goes to its bank with the phase it waits for, or is held at its unit behind an arrival (R176). -/
theorem addReq_wait_adds {s : State} {q : Req} {n : BitVec 16} (hw : q.wave = none) (hk : q.kind = .wait n) (e off : Nat) :
    Adds s (addReq s q (.bank e off)) (joinWait s (toBank s q e off)) := by
  have he : addReq s q (.bank e off) = { s with nextReq := s.nextReq + 1 }.setReq s.nextReq (joinWait s (toBank s q e off)) := by
    cases q
    cases hw
    cases hk
    rfl
  rw [he]
  exact ⟨rfl, fun r => mfind_mset _ _ _ _, quiet_of_fields rfl rfl rfl rfl rfl rfl rfl⟩

/-! ### Addresses of banks (R73, R166) -/

/-- An access that only banks serve has no cause exactly at an aligned word of a bank; this is the half that a request needs. -/
theorem bank_of_addressCause {s : State} {v : Word} {size : Nat} (h : addressCause s v size true = none) :
    ∃ e off, resolveAddr s (curUnit s.cur) v.toNat = some (.bank e off) := by
  unfold addressCause at h
  split at h
  next => exact absurd h (by simp)
  next c hc =>
    split at h
    · exact absurd h (by simp)
    · cases c with
      | bank e off => exact ⟨e, off, hc⟩
      | global va => exact absurd h (by simp)

theorem access_bank {s0 s1 : State} {v : Word} {size e off : Nat} (h : addressCause s0 v size true = none) (ha : resolveAddr s0 (curUnit s0.cur) v.toNat = some (.bank e off))
    (kind : ReqKind) (build : Req → Req) :
    access s0 s1 v size true kind build = .done (addReq s1 (build (newReq s0 kind v size)) (.bank e off)) 0 := by
  simp only [access, h, ha]

theorem aimed_bank {s : State} {v : Word} {q : Req} {e off : Nat} (ha : resolveAddr s (curUnit s.cur) v.toNat = some (.bank e off)) (haddr : q.addr = v.toNat)
    (ht : q.target = .bank e off) (hsc : q.scope = bankScope (curUnit s.cur) e) : aimed s v q := by
  rw [aimed, ha]
  exact ⟨haddr, ht, hsc⟩

/-! ### Words that send one request to a bank -/

/-- What a word that accesses a bank asks with: its own request, outside any chain, at an address. -/
structure AsksAt (s : State) (v : Word) (q : Req) : Prop where
  sentBy : isSentBy s q
  addr : q.addr = v.toNat
  wave : q.wave = none

theorem newReq_asksAt (s : State) (kind : ReqKind) (v : Word) (size : Nat) : AsksAt s v (newReq s kind v size) := ⟨⟨rfl, rfl, rfl, rfl⟩, rfl, rfl⟩

/-- An issuable word whose effect is an access to a bank sends its request and does nothing else. -/
theorem issueWord_sends {i : Instr} {s s2 : State} {v : Word} {kind : ReqKind} {build : Req → Req} {effect : State → State → Effect} {p : Req → Prop}
    (hi : issuable s i = true) (hcause : addressCause s v 8 true = none) (hf : SendFrame s s2) (heff : effect s (issued s i) = access s s2 v 8 true kind build)
    (hask : AsksAt s v (build (newReq s kind v 8))) (hk : ∀ n, (build (newReq s kind v 8)).kind ≠ .wait n)
    (hp : ∀ t sc n, p { build (newReq s kind v 8) with target := t, scope := sc, since := n, stage := .sent }) :
    ∃ u, issueWord i s effect = .next u ∧ sends s u (fun q => p q ∧ aimed s v q ∧ under s v q) := by
  obtain ⟨e, off, ha⟩ := bank_of_addressCause hcause
  rw [access_bank hcause ha] at heff
  refine ⟨_, issueWord_noFlags hi heff, ((addReq_adds hask.wave hk e off).of_frame hf).sends hask.sentBy ⟨hp _ _ _, ?_, hask.wave, fun _ _ _ => rfl⟩⟩
  obtain ⟨hsrc, -⟩ := hask.sentBy
  exact aimed_bank ha hask.addr rfl (congrArg (bankScope · e) hsrc)

/-! ### Atomics (R168) -/

/-- The comparand of an atomic: register d at issue for acas. -/
def comparand (d : BitVec 6) (op : AtomicOp) (s : State) : Word :=
  match op with
  | .cas => regVal s d
  | _ => 0

theorem exec_atomic : ∀ f ∈ atomics, ∀ (t d a b : BitVec 6) (s : State), exec (f.1 t d a b) s = atomicOp (f.1 t d a b) s d a b f.2 (comparand d f.2) := by
  intro f hf
  fin_cases hf
  all_goals exact fun _ _ _ _ _ => rfl

/-- An atomic without its address or its operand sends nothing, and its result is absent (R69). -/
theorem atomicOp_absent {i : Instr} {s : State} {a b : BitVec 6} (hi : issuable s i = true) (h : srcVal s a = none ∨ srcVal s b = none) (d : BitVec 6) (op : AtomicOp)
    (cmp : State → Word) : atomicOp i s d a b op cmp = .next (writeDst (issued s i) d none) := by
  refine issueWord_noFlags hi ?_
  rcases h with h | h
  · simp only [h]
  · simp only [h]
    cases srcVal s a <;> rfl

theorem atomicOp_sends {i : Instr} {s : State} {a b : BitVec 6} {v x : Word} (hi : issuable s i = true) (ha : srcVal s a = some v) (hb : srcVal s b = some x)
    (hcause : addressCause s v 8 true = none) (d : BitVec 6) (op : AtomicOp) :
    ∃ u, atomicOp i s d a b op (comparand d op) = .next u ∧
      sends s u (fun q => (q.kind = .atomic op ∧ q.size = 8 ∧ q.data = x ∧ (op = .cas → q.cmp = regVal s d) ∧ q.dest = Claims.replyTo s d) ∧ aimed s v q ∧ under s v q) := by
  obtain ⟨hframe, hdest⟩ := replyDest_spec s (issued s i) d
  refine issueWord_sends (kind := .atomic op)
    (build := fun q => { q with data := x, cmp := comparand d op s, dest := (replyDest s (issued s i) d).2.1, tid := (replyDest s (issued s i) d).2.2 })
    hi hcause ((issued_sendFrame s i).trans hframe) ?_ ⟨⟨rfl, rfl, rfl, rfl⟩, rfl, rfl⟩ nofun fun _ _ _ => ⟨rfl, rfl, rfl, ?_, hdest⟩
  · simp only [ha, hb]
  · rintro rfl
    rfl

/-! ### Contributions, tags, arrivals and waits (R166, R169, R175, R176) -/

theorem exec_acc_absent {s : State} {t a b : BitVec 6} (hi : issuable s (.acc t a b) = true) (h : srcVal s a = none ∨ srcVal s b = none) :
    exec (.acc t a b) s = .next (issued s (.acc t a b)) := by
  rw [show exec (.acc t a b) s = execAcc t a b s from rfl, execAcc]
  refine issueWord_noFlags hi ?_
  rcases h with h | h
  · simp only [h]
  · simp only [h]
    cases srcVal s a <;> rfl

theorem exec_acc_sends {s : State} {t a b : BitVec 6} {v x : Word} (hi : issuable s (.acc t a b) = true) (ha : srcVal s a = some v) (hb : srcVal s b = some x)
    (hcause : addressCause s v 8 true = none) :
    ∃ u, exec (.acc t a b) s = .next u ∧ sends s u (fun q => (q.kind = .contribute ∧ q.data = x) ∧ aimed s v q ∧ under s v q) := by
  rw [show exec (.acc t a b) s = execAcc t a b s from rfl, execAcc]
  exact issueWord_sends (kind := .contribute) (build := fun q => { q with data := x }) hi hcause (issued_sendFrame s (.acc t a b)) (by simp only [ha, hb])
    ⟨⟨rfl, rfl, rfl, rfl⟩, rfl, rfl⟩ nofun fun _ _ _ => ⟨rfl, rfl⟩

/-- A word that accesses a bank with no more than its address. -/
theorem issueWord_sends_plain {i : Instr} {s : State} {v : Word} {kind : ReqKind} {effect : State → State → Effect} (hi : issuable s i = true)
    (hcause : addressCause s v 8 true = none) (heff : effect s (issued s i) = access s (issued s i) v 8 true kind id) (hk : ∀ n, kind ≠ .wait n) :
    ∃ u, issueWord i s effect = .next u ∧ sends s u (fun q => q.kind = kind ∧ aimed s v q ∧ under s v q) :=
  issueWord_sends hi hcause (issued_sendFrame s i) heff (newReq_asksAt s kind v 8) hk fun _ _ _ => rfl

/-- A wait is held at its unit behind an arrival of its strand at the word, and else takes the phase of its barrier record (R176). -/
theorem joinWait_spec {s : State} {q : Req} {e off : Nat} (ht : q.target = .bank e off) (hk : q.kind = .wait 0) :
    (arriving s q.src q.strand (bankWord e off) = true → (joinWait s q).kind = .wait 0 ∧ (joinWait s q).stage = .joining) ∧
    (arriving s q.src q.strand (bankWord e off) = false → (joinWait s q).kind = .wait (joinedPhase s q.src q.strand (bankWord e off)) ∧ (joinWait s q).stage = .sent) := by
  unfold joinWait
  simp only [ht, hk]
  refine ⟨fun h => ?_, fun h => ?_⟩
  · simp only [h, if_true, and_self]
  · simp [h]

theorem joinWait_keeps {α : Type} (φ : Req → α) (hφ : ∀ (q : Req) k g, φ { q with kind := k, stage := g } = φ q) (s : State) (q : Req) : φ (joinWait s q) = φ q := by
  unfold joinWait
  split
  · split
    · exact hφ q q.kind .joining
    · exact hφ q _ .sent
  · rfl

theorem SendFrame.arriving {s u : State} (h : SendFrame s u) (v : UnitId) (k : BitVec 2) (w : Nat) : arriving u v k w = arriving s v k w := by
  rw [Machine.arriving, Machine.arriving, h.reqs]

theorem SendFrame.joinedPhase {s u : State} (h : SendFrame s u) (v : UnitId) (k : BitVec 2) (w : Nat) : joinedPhase u v k w = joinedPhase s v k w := by
  rw [Machine.joinedPhase, Machine.joinedPhase, h.barrier]

theorem exec_barWait_sends {s : State} {t a b : BitVec 6} {v : Word} {e off : Nat} (hi : issuable s (.barWait t a b) = true) (ha : srcVal s a = some v)
    (hcause : addressCause s v 8 true = none) (haddr : resolveAddr s (curUnit s.cur) v.toNat = some (.bank e off)) :
    ∃ u, exec (.barWait t a b) s = .next u ∧ sends s u (fun q => q.wave = none ∧ aimed s v q ∧
      (arriving s (curUnit s.cur) (issueStrand s) (bankWord e off) = true → q.kind = .wait 0 ∧ q.stage = .joining) ∧
      (arriving s (curUnit s.cur) (issueStrand s) (bankWord e off) = false →
        q.kind = .wait (joinedPhase s (curUnit s.cur) (issueStrand s) (bankWord e off)) ∧ q.stage = .sent)) := by
  have hf := issued_sendFrame s (.barWait t a b)
  have heff : exec (.barWait t a b) s = .next (addReq (issued s (.barWait t a b)) (newReq s (.wait 0) v 8) (.bank e off)) := by
    rw [show exec (.barWait t a b) s = execBarWait t a b s from rfl, execBarWait]
    refine issueWord_noFlags hi ?_
    simp only [ha]
    exact access_bank hcause haddr _ _
  obtain ⟨hjoin, hsent⟩ := joinWait_spec (s := issued s (.barWait t a b)) (q := toBank (issued s (.barWait t a b)) (newReq s (.wait 0) v 8) e off) rfl rfl
  rw [hf.arriving] at hjoin hsent
  rw [hf.joinedPhase] at hsent
  refine ⟨_, heff, ((addReq_wait_adds rfl rfl e off).of_frame hf).sends ⟨?_, ?_, ?_, ?_⟩ ⟨?_, ?_, hjoin, hsent⟩⟩
  · exact joinWait_keeps Req.src (fun _ _ _ => rfl) _ _
  · exact joinWait_keeps Req.strand (fun _ _ _ => rfl) _ _
  · exact joinWait_keeps Req.supervisor (fun _ _ _ => rfl) _ _
  · exact joinWait_keeps Req.gen (fun _ _ _ => rfl) _ _
  · exact joinWait_keeps Req.wave (fun _ _ _ => rfl) _ _
  · refine aimed_bank haddr ?_ ?_ ?_
    · exact joinWait_keeps Req.addr (fun _ _ _ => rfl) _ _
    · exact joinWait_keeps Req.target (fun _ _ _ => rfl) _ _
    · exact joinWait_keeps Req.scope (fun _ _ _ => rfl) _ _

/-- Words with an address and no result send nothing without it (R69). -/
theorem exec_addressless {s : State} {t a b : BitVec 6} (h : srcVal s a = none) :
    ∀ i ∈ [Instr.acc t a b, .tfull t a, .tempty t a, .barArrive t a b, .barWait t a b], issuable s i = true → exec i s = .next (issued s i) := by
  have htag : ∀ {i : Instr} (kind : ReqKind), issuable s i = true → tagOp i s a kind = .next (issued s i) := fun kind hi => issueWord_noFlags hi (by simp only [h])
  simp only [List.forall_mem_cons]
  refine ⟨fun hi => exec_acc_absent hi (.inl h), htag _, htag _, fun hi => ?_, fun hi => ?_, nofun⟩
  · rw [show exec (.barArrive t a b) s = execBarArrive t a b s from rfl, execBarArrive]
    exact issueWord_noFlags hi (by simp only [h])
  · rw [show exec (.barWait t a b) s = execBarWait t a b s from rfl, execBarWait]
    exact issueWord_noFlags hi (by simp only [h])

theorem tagOp_sends {i : Instr} {s : State} {a : BitVec 6} {v : Word} {kind : ReqKind} (hi : issuable s i = true) (ha : srcVal s a = some v)
    (hcause : addressCause s v 8 true = none) (hk : ∀ n, kind ≠ .wait n) :
    ∃ u, tagOp i s a kind = .next u ∧ sends s u (fun q => q.kind = kind ∧ aimed s v q ∧ under s v q) :=
  issueWord_sends_plain hi hcause (by simp only [ha]) hk

theorem exec_barArrive_sends {s : State} {t a b : BitVec 6} {v : Word} (hi : issuable s (.barArrive t a b) = true) (ha : srcVal s a = some v)
    (hcause : addressCause s v 8 true = none) :
    ∃ u, exec (.barArrive t a b) s = .next u ∧ sends s u (fun q => q.kind = .arrive (srcVal s b).isSome ∧ aimed s v q ∧ under s v q) := by
  rw [show exec (.barArrive t a b) s = execBarArrive t a b s from rfl, execBarArrive]
  exact issueWord_sends_plain hi hcause (by simp only [ha]) nofun

/-- Settles O35: each of these words, of a slot or of a sequencer, adds its one request to the state that its issue leaves, or none where a source is absent. -/
theorem atomicsSendOneRequest : Obligations.AtomicsSendOneRequest := by
  unfold Obligations.AtomicsSendOneRequest
  refine ⟨fun t d a b s ha => ⟨fun f hf hi => ?_, exec_addressless ha⟩, fun t a b s hb hi => exec_acc_absent hi (.inr hb),
    fun t d a b s v ha hcause => ⟨fun f hf x hb hi => ?_, fun f hf hb hi => ?_, fun x hb hi => ?_, fun hi => tagOp_sends hi ha hcause nofun,
      fun hi => tagOp_sends hi ha hcause nofun, fun hi => exec_barArrive_sends hi ha hcause, fun hi e off haddr => exec_barWait_sends hi ha hcause haddr⟩⟩
  · rw [exec_atomic f hf, atomicOp_absent hi (.inl ha)]
  · rw [exec_atomic f hf]
    simpa only [and_assoc] using atomicOp_sends hi ha hb hcause d f.2
  · rw [exec_atomic f hf, atomicOp_absent hi (.inr hb)]
  · simpa only [and_assoc] using exec_acc_sends hi ha hb hcause

end Sys2Proof.Machine
end

section
/-! PROOFS. Tokens on the mesh (O42): the queues of routers and their keys, hops over links and into branch buffers, deliveries into inbound FIFOs, and the times that at waits for (R60 to R63, R65, R70, R178). -/

namespace Sys2Proof.Machine
open Sys2Proof.Claims

/-! ### Queues of routers (R60, R62) -/

theorem sideOf_sideCode (d : Side) : sideOf (sideCode d) = d := by cases d <;> rfl

theorem sideCode_lt (d : Side) : sideCode d < 4 := by cases d <;> decide

/-- Keys stand for one queue of a router each: the key tells the queue. -/
theorem hopOf_queueKey (e : Nat) (q : HopQ) : hopOf (queueKey e q) = q := by
  cases q with
  | out ch =>
    have hch := ch.isLt
    have hmod : queueKey e (.out ch) % 4096 = ch.toNat := by rw [queueKey]; omega
    simp only [hopOf, hmod, if_pos hch, BitVec.ofNat_toNat, BitVec.setWidth_eq]
  | inq p vc =>
    have hp := sideCode_lt p
    have hvc := vc.isLt
    have hmod : queueKey e (.inq p vc) % 4096 = 32 + sideCode p * 32 + vc.toNat := by rw [queueKey]; omega
    have hside : (32 + sideCode p * 32 + vc.toNat - 32) / 32 = sideCode p := by omega
    have hchan : BitVec.ofNat 5 (32 + sideCode p * 32 + vc.toNat) = vc := BitVec.eq_of_toNat_eq (by rw [BitVec.toNat_ofNat]; omega)
    simp only [hopOf, hmod, hside, hchan, sideOf_sideCode, if_neg (show ¬ 32 + sideCode p * 32 + vc.toNat < 32 by omega),
      if_pos (show 32 + sideCode p * 32 + vc.toNat < 256 by omega)]
  | branch c d =>
    have hc := c.isLt
    cases d with
    | none =>
      have hmod : queueKey e (.branch c none) % 4096 = 256 + c.toNat * 8 + 4 := by rw [queueKey]; omega
      have hcls : (256 + c.toNat * 8 + 4 - 256) / 8 = c.toNat := by omega
      simp only [hopOf, hmod, hcls, if_neg (show ¬ 256 + c.toNat * 8 + 4 < 32 by omega), if_neg (show ¬ 256 + c.toNat * 8 + 4 < 256 by omega),
        if_neg (show ¬ (256 + c.toNat * 8 + 4 - 256) % 8 < 4 by omega), BitVec.ofNat_toNat, BitVec.setWidth_eq]
    | some x =>
      have hx := sideCode_lt x
      have hmod : queueKey e (.branch c (some x)) % 4096 = 256 + c.toNat * 8 + sideCode x := by rw [queueKey]; omega
      have hcls : (256 + c.toNat * 8 + sideCode x - 256) / 8 = c.toNat := by omega
      have hside : (256 + c.toNat * 8 + sideCode x - 256) % 8 = sideCode x := by omega
      simp only [hopOf, hmod, hcls, hside, if_neg (show ¬ 256 + c.toNat * 8 + sideCode x < 32 by omega), if_neg (show ¬ 256 + c.toNat * 8 + sideCode x < 256 by omega),
        if_pos hx, sideOf_sideCode, BitVec.ofNat_toNat, BitVec.setWidth_eq]

theorem queueKey_div (e : Nat) (q : HopQ) : queueKey e q / 4096 = e := by
  cases q with
  | out ch => have := ch.isLt; rw [queueKey]; omega
  | inq p vc => have := vc.isLt; have := sideCode_lt p; rw [queueKey]; omega
  | branch c d =>
    have := c.isLt
    cases d with
    | none => rw [queueKey]; omega
    | some x => have := sideCode_lt x; rw [queueKey]; omega

/-- Keys are of one queue of one router. -/
theorem queueKey_inj {e e' : Nat} {q q' : HopQ} (h : queueKey e q = queueKey e' q') : e = e' ∧ q = q' := by
  have he := congrArg (· / 4096) h
  have hq := congrArg hopOf h
  simp only [queueKey_div] at he
  rw [hopOf_queueKey, hopOf_queueKey] at hq
  exact ⟨he, hq⟩

/-- An element is not its own neighbour (R19). -/
theorem neighbour_ne {e n : Nat} {side : Side} (h : neighbour e side = some n) : n ≠ e := by
  have hcols : moduleCols = 896 := rfl
  have hrow : elemRow e = e / 896 := rfl
  have hcol : elemCol e = e % 896 := rfl
  cases side with
  | north =>
    obtain ⟨hne, hn⟩ := Option.ite_none_left_eq_some.1 h
    have := Option.some.inj hn
    omega
  | south =>
    obtain ⟨-, hn⟩ := Option.ite_none_left_eq_some.1 h
    have := Option.some.inj hn
    omega
  | east =>
    obtain ⟨-, hn⟩ := Option.ite_none_left_eq_some.1 h
    have := Option.some.inj hn
    omega
  | west =>
    obtain ⟨hne, hn⟩ := Option.ite_none_left_eq_some.1 h
    have := Option.some.inj hn
    omega

/-- Each side stands once among the branches of a fan-out (R61). -/
theorem routeBranches_nodup (w : IWord) : (routeBranches w).Nodup := by
  have hopt : ∀ {α : Type} (c : Prop) [Decidable c] (x : α), (if c then [x] else []).Sublist [x] := fun c _ x => by
    split
    · exact .refl _
    · exact List.nil_sublist _
  have hsides : (routeSides w).Sublist [.north, .east, .south, .west] := (((hopt _ _).append (hopt _ _)).append (hopt _ _)).append (hopt _ _)
  exact ((hsides.map some).append (hopt _ _)).nodup (by decide)

/-! ### Changes of the queues alone -/

/-- Between two states only router queues and the watch of branch buffers have changed. -/
def queueFrame (s u : State) : Prop := ∃ f b, u = { s with fabric := f, branchSince := b }

theorem queueFrame_trans {s u v : State} (h : queueFrame s u) (h' : queueFrame u v) : queueFrame s v := by
  obtain ⟨f, b, rfl⟩ := h
  obtain ⟨f', b', rfl⟩ := h'
  exact ⟨f', b', rfl⟩

theorem queueFrame_setTokens (s : State) (k : Nat) (l : List Token) : queueFrame s (s.setTokens k l) := ⟨_, _, rfl⟩

/-- What a change of queues alone leaves: units, memory, requests, outstanding tokens and elements. -/
theorem queueFrame_keeps {s u : State} (h : queueFrame s u) : quiet s u ∧ restKept s u ∧ u.outst = s.outst ∧ u.elems = s.elems ∧ u.groves = s.groves := by
  obtain ⟨f, b, rfl⟩ := h
  exact ⟨quiet_of_fields rfl rfl rfl rfl rfl rfl rfl, ⟨rfl, rfl, rfl, rfl, rfl, rfl⟩, rfl, rfl, rfl⟩

theorem restKept_trans {s u v : State} (h : restKept s u) (h' : restKept u v) : restKept s v := by
  obtain ⟨hr, hp, ht, hc, ho, hb⟩ := h
  obtain ⟨hr', hp', ht', hc', ho', hb'⟩ := h'
  exact ⟨hr'.trans hr, hp'.trans hp, ht'.trans ht, hc'.trans hc, ho'.trans ho, hb'.trans hb⟩

theorem popQueue_spec (s : State) (k : Nat) (q : HopQ) (rest : List Token) : queueFrame s (popQueue s k q rest) ∧ (∀ i, (popQueue s k q rest).tokens i = if i = k then rest else s.tokens i) := by
  have ht := State.setTokens_tokens s k rest
  cases q
  all_goals exact ⟨⟨_, _, rfl⟩, ht⟩

theorem pushBranch_spec (s : State) (k : Nat) (t : Token) : queueFrame s (pushBranch s k t) ∧ (∀ i, (pushBranch s k t).tokens i = if i = k then s.tokens k ++ [t] else s.tokens i) := by
  have ht := State.setTokens_tokens s k (s.tokens k ++ [t])
  simp only [pushBranch]
  split
  · exact ⟨⟨_, _, rfl⟩, ht⟩
  · exact ⟨⟨_, _, rfl⟩, ht⟩

/-- The state with one more copy of a token in the buffer of each of a list of branches. -/
def pushBranches (s : State) (e : Nat) (t : Token) (bs : List (Option Side)) : State := bs.foldl (fun s b => pushBranch s (queueKey e (.branch t.cls b)) t) s

theorem pushBranches_cons (s : State) (e : Nat) (t : Token) (b : Option Side) (bs : List (Option Side)) :
    pushBranches s e t (b :: bs) = pushBranches (pushBranch s (queueKey e (.branch t.cls b)) t) e t bs := rfl

theorem branchKey_ne {e : Nat} {c : BitVec 6} {a b : Option Side} (h : a ≠ b) : queueKey e (.branch c a) ≠ queueKey e (.branch c b) := fun hk => by
  obtain ⟨-, hq⟩ := queueKey_inj hk
  obtain ⟨-, hab⟩ := HopQ.branch.inj hq
  exact h hab

/-- Each buffer of distinct branches gets its one copy, and no other queue changes (R63). -/
theorem pushBranches_spec (e : Nat) (t : Token) {bs : List (Option Side)} (hn : bs.Nodup) (s : State) : queueFrame s (pushBranches s e t bs) ∧
    (∀ b ∈ bs, (pushBranches s e t bs).tokens (queueKey e (.branch t.cls b)) = s.tokens (queueKey e (.branch t.cls b)) ++ [t]) ∧
    (∀ i, (∀ b ∈ bs, i ≠ queueKey e (.branch t.cls b)) → (pushBranches s e t bs).tokens i = s.tokens i) := by
  induction bs generalizing s with
  | nil => exact ⟨⟨_, _, rfl⟩, nofun, fun _ _ => rfl⟩
  | cons b bs ih =>
    obtain ⟨hb, hn⟩ := List.nodup_cons.1 hn
    obtain ⟨hframe, htok⟩ := pushBranch_spec s (queueKey e (.branch t.cls b)) t
    obtain ⟨hframe', hin, hout⟩ := ih hn (pushBranch s (queueKey e (.branch t.cls b)) t)
    rw [pushBranches_cons]
    refine ⟨queueFrame_trans hframe hframe', fun c hc => ?_, fun i hi => ?_⟩
    · rcases List.mem_cons.1 hc with rfl | hc
      · rw [hout _ fun d hd => branchKey_ne (ne_of_mem_of_not_mem hd hb).symm, htok, if_pos rfl]
      · rw [hin c hc, htok, if_neg (branchKey_ne (ne_of_mem_of_not_mem hc hb))]
    · obtain ⟨hib, hi⟩ := List.forall_mem_cons.1 hi
      rw [hout i hi, htok, if_neg hib]

theorem splitCopy_spec (s : State) (tid n : Nat) : IssueFrame s (splitCopy s tid n) ∧
    ∀ o, mfind s.outst tid = some o → n ≠ 0 → mfind (splitCopy s tid n).outst tid = some { o with copies := o.copies + (n - 1) } := by
  unfold splitCopy
  split
  next hn => exact ⟨consumeCopy_frame s tid, fun _ _ h => absurd hn h⟩
  next hn =>
    split
    next h => exact ⟨.refl s, fun o ho => by rw [h] at ho; cases ho⟩
    next x hx =>
      refine ⟨⟨fun _ => rfl, fun _ => rfl, fun _ => rfl, rfl⟩, fun o ho _ => ?_⟩
      rw [hx] at ho
      rw [mfind_mset_same, Option.some.inj ho]

/-! ### Hops (M2, R60 to R63) -/

/-- What becomes of a head that has left its queue, by the route entry of its class. -/
def routeHead (s : State) (e : Nat) (w : IWord) (t : Token) (parityBad : Bool) : Option State :=
  if !routeValid w || (routeBranches w).isEmpty then some (raiseRouter (consumeCopy s t.tid) e 0x142)
  else match routeBranches w with
    | [none] => none
    | [some side] => crossLink s e side (routeDch w) t parityBad
    | bs => forkToken s e bs t

theorem routeHead_invalid {s : State} {e : Nat} {w : IWord} {t : Token} {p : Bool} (h : routeValid w = false ∨ routeBranches w = []) :
    routeHead s e w t p = some (raiseRouter (consumeCopy s t.tid) e 0x142) := by
  unfold routeHead
  rw [if_pos]
  rcases h with h | h <;> simp [h]

theorem routeHead_side {s : State} {e : Nat} {w : IWord} {t : Token} {p : Bool} {side : Side} (hv : routeValid w = true) (hb : routeBranches w = [some side]) :
    routeHead s e w t p = crossLink s e side (routeDch w) t p := by
  simp [routeHead, hv, hb]

theorem routeHead_fork {s : State} {e : Nat} {w : IWord} {t : Token} {p : Bool} (hv : routeValid w = true) (hb : 2 ≤ (routeBranches w).length) :
    routeHead s e w t p = forkToken s e (routeBranches w) t := by
  have hne : (!routeValid w || (routeBranches w).isEmpty) = false := by
    cases h : routeBranches w with
    | nil => simp [h] at hb
    | cons b bs => simp [hv]
  rw [routeHead, hne]
  cases h : routeBranches w with
  | nil => simp [h] at hb
  | cons b bs =>
    cases bs with
    | nil => simp [h] at hb
    | cons c cs => cases b <;> rfl

theorem crossLink_edge {s : State} {e vc : Nat} {side : Side} {t : Token} {p : Bool} (h : neighbour e side = none) :
    crossLink s e side vc t p = some (raiseRouter (consumeCopy s t.tid) e 0x142) := by
  rw [crossLink, h]

/-- The queue of the neighbour that a token which leaves on a side arrives at (R62). -/
def linkKey (n : Nat) (side : Side) (vc : Nat) : Nat := queueKey n (.inq (opposite side) (BitVec.ofNat 5 vc))

theorem linkKey_ne {e n : Nat} {side : Side} (hn : neighbour e side = some n) (vc : Nat) (q : HopQ) : linkKey n side vc ≠ queueKey e q := fun h => by
  obtain ⟨he, -⟩ := queueKey_inj h
  exact neighbour_ne hn he

theorem crossLink_neighbour {s : State} {e n vc : Nat} {side : Side} {t : Token} {p : Bool} (h : neighbour e side = some n) : crossLink s e side vc t p =
    if hopCapacity e n ≤ (s.tokens (linkKey n side vc)).length then none
    else some (if p then machineCheck (consumeCopy s t.tid) (groveOf n) 0x1C5 0 else s.setTokens (linkKey n side vc) (s.tokens (linkKey n side vc) ++ [t])) := by
  rw [crossLink, h]
  rfl

/-- A fork with room in every branch buffer: each has its copy, and the token counts once for each (R63, R72). -/
theorem forkToken_spec {s : State} {e : Nat} {bs : List (Option Side)} {t : Token} (hn : bs.Nodup) (hroom : ∀ b ∈ bs, (s.tokens (queueKey e (.branch t.cls b))).length < 16) :
    ∃ u, forkToken s e bs t = some u ∧ (∀ b ∈ bs, u.tokens (queueKey e (.branch t.cls b)) = s.tokens (queueKey e (.branch t.cls b)) ++ [t]) ∧
      (∀ i, (∀ b ∈ bs, i ≠ queueKey e (.branch t.cls b)) → u.tokens i = s.tokens i) ∧
      (∀ o, mfind s.outst t.tid = some o → bs.length ≠ 0 → mfind u.outst t.tid = some { o with copies := o.copies + (bs.length - 1) }) ∧ quiet s u := by
  have hall : bs.all (fun b => decide ((s.tokens (queueKey e (.branch t.cls b))).length < 16)) = true := by simpa using hroom
  obtain ⟨hissue, hcopies⟩ := splitCopy_spec s t.tid bs.length
  obtain ⟨hframe, hin, hout⟩ := pushBranches_spec e t hn (splitCopy s t.tid bs.length)
  obtain ⟨hquiet, -, houtst, -⟩ := queueFrame_keeps hframe
  have hfork : forkToken s e bs t = some (pushBranches (splitCopy s t.tid bs.length) e t bs) := if_pos hall
  refine ⟨_, hfork, fun b hb => ?_, fun i hi => ?_, fun o ho hlen => ?_, quiet_trans hissue.quiet hquiet⟩
  · rw [hin b hb, hissue.tokens]
  · rw [hout i hi, hissue.tokens]
  · rw [houtst]
    exact hcopies o ho hlen

section
variable {s : State} {e : Nat} {q : HopQ} {t : Token} {rest : List Token} (hq : s.tokens (queueKey e q) = t :: rest) (hb : ∀ c d, q ≠ .branch c d)
  (hheld : routerHeld s e q = false) {w : IWord} (hw : w = (s.elem e).active.routeWord t.cls.toNat)
include hq hb hheld hw

/-- A head of an outbound or input queue goes by its route entry, or stays. -/
theorem exec_tokenHop (p : Bool) : exec (.tokenHop e q p) s = .next ((routeHead (s.setTokens (queueKey e q) rest) e w t p).getD s) := by
  rw [show exec (.tokenHop e q p) s = .next (hop s e q p) from rfl, hop, hw]
  cases q with
  | branch c d => exact absurd rfl (hb c d)
  | out ch => simp only [hq, hheld, popQueue, routeHead] <;> rfl
  | inq x vc => simp only [hq, hheld, popQueue, routeHead] <;> rfl

theorem exec_tokenHop_lost (h : routeValid w = false ∨ routeBranches w = []) (p : Bool) :
    exec (.tokenHop e q p) s = .next (raiseRouter (consumeCopy (s.setTokens (queueKey e q) rest) t.tid) e 0x142) := by
  rw [exec_tokenHop hq hb hheld hw, routeHead_invalid h, Option.getD_some]

variable {side : Side} (hv : routeValid w = true)
include hv

theorem exec_tokenHop_edge (hs : routeBranches w = [some side]) (hn : neighbour e side = none) (p : Bool) :
    exec (.tokenHop e q p) s = .next (raiseRouter (consumeCopy (s.setTokens (queueKey e q) rest) t.tid) e 0x142) := by
  rw [exec_tokenHop hq hb hheld hw, routeHead_side hv hs, crossLink_edge hn, Option.getD_some]

/-- A head whose route has one side crosses to the neighbour's queue where that has room, and stays otherwise (R60, R62). -/
theorem exec_tokenHop_link (hs : routeBranches w = [some side]) {n key : Nat} (hn : neighbour e side = some n)
    (hkey : key = linkKey n side (routeDch w)) (p : Bool) : exec (.tokenHop e q p) s =
    .next (if hopCapacity e n ≤ (s.tokens key).length then s
      else if p then machineCheck (consumeCopy (s.setTokens (queueKey e q) rest) t.tid) (groveOf n) 0x1C5 0
      else (s.setTokens (queueKey e q) rest).setTokens key (s.tokens key ++ [t])) := by
  have hne : key ≠ queueKey e q := hkey ▸ linkKey_ne hn _ q
  rw [exec_tokenHop hq hb hheld hw, routeHead_side hv hs, crossLink_neighbour hn, ← hkey, State.setTokens_tokens, if_neg hne]
  split <;> rfl

theorem tokenHop_crosses (hs : routeBranches w = [some side]) {n key : Nat} (hn : neighbour e side = some n)
    (hkey : key = linkKey n side (routeDch w)) (hroom : (s.tokens key).length < hopCapacity e n) :
    ∃ u, exec (.tokenHop e q false) s = .next u ∧
      u.tokens key = s.tokens key ++ [t] ∧ u.tokens (queueKey e q) = rest ∧ fabricKept s u [key, queueKey e q] ∧ u.outst = s.outst ∧ quiet s u ∧ restKept s u := by
  have hne : queueKey e q ≠ key := hkey ▸ (linkKey_ne hn _ q).symm
  have hexec := exec_tokenHop_link hq hb hheld hw hv hs hn hkey false
  rw [if_neg (by omega), if_neg Bool.false_ne_true] at hexec
  obtain ⟨hquiet, hrest, houtst, -⟩ := queueFrame_keeps (queueFrame_trans (queueFrame_setTokens s (queueKey e q) rest) (queueFrame_setTokens _ key (s.tokens key ++ [t])))
  refine ⟨_, hexec, ?_, ?_, fun i hi => ?_, houtst, hquiet, hrest⟩
  · rw [State.setTokens_tokens, if_pos rfl]
  · rw [State.setTokens_tokens, if_neg hne, State.setTokens_tokens, if_pos rfl]
  · obtain ⟨hik, hiq⟩ : i ≠ key ∧ i ≠ queueKey e q := by simpa using hi
    rw [State.setTokens_tokens, if_neg hik, State.setTokens_tokens, if_neg hiq]

theorem tokenHop_forks (hs : 2 ≤ (routeBranches w).length)
    (hroom : ∀ b ∈ routeBranches w, (s.tokens (queueKey e (.branch t.cls b))).length < 16) (p : Bool) :
    ∃ u, exec (.tokenHop e q p) s = .next u ∧ u.tokens (queueKey e q) = rest ∧
      (∀ b ∈ routeBranches w, u.tokens (queueKey e (.branch t.cls b)) = s.tokens (queueKey e (.branch t.cls b)) ++ [t]) ∧
      (∀ o, mfind s.outst t.tid = some o →
        mfind u.outst t.tid = some { o with copies := o.copies + ((routeBranches w).length - 1) }) ∧ quiet s u := by
  have hne : ∀ b, queueKey e q ≠ queueKey e (.branch t.cls b) := fun b h => by
    obtain ⟨-, hq⟩ := queueKey_inj h
    exact hb _ _ hq
  have hkept : ∀ b, (s.setTokens (queueKey e q) rest).tokens (queueKey e (.branch t.cls b)) = s.tokens (queueKey e (.branch t.cls b)) := fun b => by
    rw [State.setTokens_tokens, if_neg (hne b).symm]
  obtain ⟨u, hfork, hin, hout, hcopies, hquiet⟩ := forkToken_spec (s := s.setTokens (queueKey e q) rest) (e := e) (t := t)
    (routeBranches_nodup w) (fun b hb => by rw [hkept]; exact hroom b hb)
  obtain ⟨hpopped, -⟩ := queueFrame_keeps (queueFrame_setTokens s (queueKey e q) rest)
  refine ⟨u, by rw [exec_tokenHop hq hb hheld hw, routeHead_fork hv hs, hfork, Option.getD_some], ?_, fun b hb => by rw [hin b hb, hkept], fun o ho => hcopies o ho (by omega),
    quiet_trans hpopped hquiet⟩
  rw [hout _ fun b _ => hne b, State.setTokens_tokens, if_pos rfl]

end

/-! ### Arrivals at an inbound FIFO (M3, R65, R70) -/

/-- The state with other tokens in an inbound FIFO. -/
def putFifo (s : State) (e ch : Nat) (l : List Token) : State := s.modElem e (fun x => { x with active := x.active.setFifo ch l })

theorem putFifo_fifo (s : State) (e ch : Nat) (l : List Token) (c : Nat) : ((putFifo s e ch l).elem e).active.fifo c = if c = ch then l else (s.elem e).active.fifo c := by
  rw [putFifo, State.modElem_elem, if_pos rfl, Plane.fifo, Plane.setFifo, mget_mset]
  rfl

theorem putFifo_quiet (s : State) (e ch : Nat) (l : List Token) : quiet s (putFifo s e ch l) := by
  refine ⟨registersKept_modElem none (fun _ => rfl) rfl, predicatesKept_modElem (fun _ => rfl), ⟨fun i => ?_, fun _ => rfl⟩, memoryKept_modElem s e _⟩
  rw [putFifo, State.modElem_elem]
  split
  next hi => rw [hi]; exact ⟨rfl, rfl, rfl⟩
  next => exact ⟨rfl, rfl, rfl⟩

/-- An arrival ends an idle interval of its element, and changes nothing else (R402). -/
theorem noteArrival_spec (s : State) (e : Nat) : (((s.noteArrival e).elem e).active = (s.elem e).active) ∧ quiet s (s.noteArrival e) ∧ restKept s (s.noteArrival e) ∧
    (s.noteArrival e).fabric = s.fabric ∧ (s.noteArrival e).outst = s.outst := by
  unfold State.noteArrival
  split
  · exact ⟨by rw [State.modElem_elem, if_pos rfl], quiet_modElem rfl rfl rfl rfl, ⟨rfl, rfl, rfl, rfl, rfl, rfl⟩, rfl, rfl⟩
  · exact ⟨rfl, quiet_of_fields rfl rfl rfl rfl rfl rfl rfl, ⟨rfl, rfl, rfl, rfl, rfl, rfl⟩, rfl, rfl⟩

/-- An end mark is no wave marker and no mark 7 (R58). -/
theorem isWave_of_isEnd {t : Token} (h : t.isEnd = true) : t.isWave = false ∧ t.mark ≠ 7 := by
  have hmarks : ∀ m : BitVec 3, (m == 1 || m == 2 || m == 3) = true → (m == 4 || m == 5 || m == 6) = false ∧ m ≠ 7 := by decide
  exact hmarks t.mark h

theorem kinds_of_data {t : Token} (h : t.mark = 0) : t.isWave = false ∧ t.isEnd = false ∧ t.mark ≠ 7 := by
  simp [Token.isWave, Token.isEnd, h]

/-- Does an end mark merge with the last token of an inbound FIFO (R70)? -/
def mergesAt (s : State) (e ch : Nat) (t : Token) : Bool :=
  match ((s.elem e).active.fifo ch).getLast? with
  | some x => t.isEnd && x.isEnd && decide (x.mark.toNat < t.mark.toNat) && x.gen == t.gen
  | none => false

section
variable {s : State} {e ch : Nat} {t : Token}

/-- What is no wave marker joins a channel that does not decode where it merges or has a slot (R65, R70). -/
theorem arrive_plain (hdis : discards s e ch = false) (hdec : decodes ((s.elem e).active.chanWord ch) = false) (hwave : t.isWave = false) (hseven : t.mark ≠ 7) :
    arrive s e ch t = if mergesAt s e ch t = true ∨ slotsUsed ((s.elem e).active.fifo ch) < chanDepth ((s.elem e).active.chanWord ch) then some (appendToken s e ch t) else none := by
  unfold arrive
  simp only [if_neg hseven, hdis, hdec, hwave, Bool.false_and, Bool.false_eq_true, if_false, appendClosed, List.foldl_nil, List.isEmpty_nil, Bool.and_true, Bool.false_or,
    inboundRoom, List.length_nil, Nat.zero_add, Bool.or_eq_true, decide_eq_true_eq, Nat.lt_iff_add_one_le, mergesAt] <;> rfl

theorem mergesAt_data (hm : t.mark = 0) : mergesAt s e ch t = false := by
  obtain ⟨-, hend, -⟩ := kinds_of_data hm
  unfold mergesAt
  split
  · simp only [hend, Bool.false_and]
  · rfl

theorem appendToken_data (hm : t.mark = 0) : appendToken s e ch t = putFifo s e ch ((s.elem e).active.fifo ch ++ [t]) := by
  obtain ⟨hwave, hend, -⟩ := kinds_of_data hm
  simp only [appendToken, hwave, hend, Bool.false_and, Bool.false_eq_true, if_false]
  cases h : ((s.elem e).active.fifo ch).getLast? with
  | none => rw [List.getLast?_eq_none_iff.1 h]; rfl
  | some x => rfl

/-- An end mark that merges raises the rank of the last token and adds its flags to it (R70). -/
def merged (x t : Token) : Token := { x with mark := t.mark, payload := x.payload ||| (t.payload &&& 63) }

theorem appendToken_merges {x : Token} (hx : ((s.elem e).active.fifo ch).getLast? = some x) (ht : t.isEnd = true) (hm : mergesAt s e ch t = true) :
    appendToken s e ch t = consumeCopy (putFifo s e ch (((s.elem e).active.fifo ch).dropLast ++ [merged x t])) t.tid := by
  obtain ⟨hwave, -⟩ := isWave_of_isEnd ht
  simp only [mergesAt, hx] at hm
  simp only [appendToken, hwave, hx, hm, Bool.false_eq_true, if_false, if_true] <;> rfl

end

/-! ### Deliveries (M3) -/

/-- Is a queue's head at its local port: in the local branch buffer, or by a route entry with no other branch (R60, R62)? -/
def atLocalPort (q : HopQ) (w : IWord) : Prop := (∃ c, q = .branch c none) ∨ (∀ c d, q ≠ .branch c d) ∧ routeValid w = true ∧ routeBranches w = [none]

section
variable {s : State} {e : Nat} {q : HopQ} {t : Token} {rest : List Token} (hq : s.tokens (queueKey e q) = t :: rest) (hheld : routerHeld s e q = false)
  {w : IWord} (hw : w = (s.elem e).active.routeWord t.cls.toNat) (hport : atLocalPort q w)
include hq hheld hw hport

theorem exec_tokenDeliver : exec (.tokenDeliver e q) s =
    .next (((arrive (popQueue s (queueKey e q) q rest) e (routeDch w) t).map (fun u => u.noteArrival e)).getD s) := by
  rw [show exec (.tokenDeliver e q) s = .next (deliver s e q) from rfl, deliver]
  subst hw
  rcases hport with ⟨c, rfl⟩ | ⟨hb, hv, hs⟩
  · simp only [hq, hheld] <;> rfl
  · cases q with
    | branch c d => exact absurd rfl (hb c d)
    | out ch => simp only [hq, hheld, hv, hs] <;> rfl
    | inq x vc => simp only [hq, hheld, hv, hs] <;> rfl

variable {ch : Nat} (hch : ch = routeDch w) (hdis : discards s e ch = false)
  (hdec : decodes ((s.elem e).active.chanWord ch) = false)
include hch hdis hdec

/-- What is no wave marker joins the FIFO at its local port where it merges or has a slot, and stays in its queue otherwise. -/
theorem exec_tokenDeliver_plain (hwave : t.isWave = false) (hseven : t.mark ≠ 7) : exec (.tokenDeliver e q) s =
    .next (if mergesAt s e ch t = true ∨ slotsUsed ((s.elem e).active.fifo ch) < chanDepth ((s.elem e).active.chanWord ch) then
      (appendToken (popQueue s (queueKey e q) q rest) e ch t).noteArrival e else s) := by
  obtain ⟨⟨f, b, hpop⟩, -⟩ := popQueue_spec s (queueKey e q) q rest
  have harrive := arrive_plain (s := popQueue s (queueKey e q) q rest) (e := e) (ch := ch) (t := t) (by rw [hpop]; exact hdis) (by rw [hpop]; exact hdec) hwave hseven
  have hcond : (mergesAt (popQueue s (queueKey e q) q rest) e ch t = true ∨
      slotsUsed (((popQueue s (queueKey e q) q rest).elem e).active.fifo ch) < chanDepth (((popQueue s (queueKey e q) q rest).elem e).active.chanWord ch)) =
      (mergesAt s e ch t = true ∨ slotsUsed ((s.elem e).active.fifo ch) < chanDepth ((s.elem e).active.chanWord ch)) := by rw [hpop]; rfl
  rw [exec_tokenDeliver hq hheld hw hport, ← hch, harrive]
  simp only [hcond]
  split <;> rfl

theorem tokenDeliver_data (hm : t.mark = 0) (hroom : slotsUsed ((s.elem e).active.fifo ch) < chanDepth ((s.elem e).active.chanWord ch)) :
    ∃ u, exec (.tokenDeliver e q) s = .next u ∧
      (u.elem e).active.fifo ch = (s.elem e).active.fifo ch ++ [t] ∧ (∀ c, c ≠ ch → (u.elem e).active.fifo c = (s.elem e).active.fifo c) ∧
      u.tokens (queueKey e q) = rest ∧ fabricKept s u [queueKey e q] ∧ u.outst = s.outst ∧ quiet s u ∧ restKept s u := by
  obtain ⟨hwave, -, hseven⟩ := kinds_of_data hm
  obtain ⟨⟨f, b, hpop⟩, htok⟩ := popQueue_spec s (queueKey e q) q rest
  obtain ⟨hquiet', hrest', -⟩ := queueFrame_keeps ⟨f, b, hpop⟩
  have hexec := exec_tokenDeliver_plain hq hheld hw hport hch hdis hdec hwave hseven
  rw [if_pos (.inr hroom), appendToken_data hm] at hexec
  have hfifo : ∀ c, ((popQueue s (queueKey e q) q rest).elem e).active.fifo c = (s.elem e).active.fifo c := fun c => by rw [hpop]; rfl
  obtain ⟨hactive, hquiet, hrest, hfabric, houtst⟩ := noteArrival_spec (putFifo (popQueue s (queueKey e q) q rest) e ch (((popQueue s (queueKey e q) q rest).elem e).active.fifo ch ++ [t])) e
  refine ⟨_, hexec, ?_, fun c hc => ?_, ?_, fun i hi => ?_, ?_, ?_, ?_⟩
  · rw [hactive, putFifo_fifo, if_pos rfl, hfifo]
  · rw [hactive, putFifo_fifo, if_neg hc, hfifo]
  · rw [State.tokens, hfabric]
    exact (htok _).trans (if_pos rfl)
  · rw [State.tokens, hfabric]
    exact (htok i).trans (if_neg (by simpa using hi))
  · rw [houtst, hpop]
    rfl
  · exact quiet_trans (quiet_trans hquiet' (putFifo_quiet _ _ _ _)) hquiet
  · exact restKept_trans hrest' hrest

theorem exec_tokenDeliver_full (hm : t.mark = 0) (hfull : chanDepth ((s.elem e).active.chanWord ch) ≤ slotsUsed ((s.elem e).active.fifo ch)) :
    exec (.tokenDeliver e q) s = .next s := by
  obtain ⟨hwave, -, hseven⟩ := kinds_of_data hm
  rw [exec_tokenDeliver_plain hq hheld hw hport hch hdis hdec hwave hseven, mergesAt_data hm, if_neg (by simpa using hfull)]

theorem tokenDeliver_merges {x : Token} (hx : ((s.elem e).active.fifo ch).getLast? = some x) (ht : t.isEnd = true) (hxe : x.isEnd = true)
    (hrank : x.mark.toNat < t.mark.toNat) (hgen : x.gen = t.gen) :
    ∃ u y, exec (.tokenDeliver e q) s = .next u ∧ (u.elem e).active.fifo ch = ((s.elem e).active.fifo ch).dropLast ++ [y] ∧
      y.mark = t.mark ∧ y.gen = x.gen ∧ y.payload = x.payload ||| (t.payload &&& 63) ∧ u.tokens (queueKey e q) = rest ∧ quiet s u := by
  obtain ⟨hwave, hseven⟩ := isWave_of_isEnd ht
  obtain ⟨hpop, htok⟩ := popQueue_spec s (queueKey e q) q rest
  obtain ⟨hquiet', -⟩ := queueFrame_keeps hpop
  have helem : ∀ i, (popQueue s (queueKey e q) q rest).elem i = s.elem i := fun i => by
    obtain ⟨f, b, hpop⟩ := hpop
    rw [hpop]
    rfl
  have hmerges : mergesAt s e ch t = true := by
    rw [mergesAt, hx]
    simp [ht, hxe, hrank, hgen]
  have hexec := exec_tokenDeliver_plain hq hheld hw hport hch hdis hdec hwave hseven
  rw [if_pos (.inl hmerges), appendToken_merges (x := x) (by rw [helem, hx]) ht (by rw [mergesAt, helem]; exact hmerges), helem] at hexec
  have hconsume := consumeCopy_frame (putFifo (popQueue s (queueKey e q) q rest) e ch (((s.elem e).active.fifo ch).dropLast ++ [merged x t])) t.tid
  obtain ⟨hactive, hquiet, -, hfabric, -⟩ := noteArrival_spec (consumeCopy (putFifo (popQueue s (queueKey e q) q rest) e ch (((s.elem e).active.fifo ch).dropLast ++ [merged x t])) t.tid) e
  refine ⟨_, merged x t, hexec, ?_, rfl, rfl, rfl, ?_, ?_⟩
  · rw [hactive, consumeCopy_elem, putFifo_fifo, if_pos rfl]
  · rw [State.tokens, hfabric]
    exact (hconsume.tokens _).trans ((htok _).trans (if_pos rfl))
  · exact quiet_trans (quiet_trans (quiet_trans hquiet' (putFifo_quiet _ _ _ _)) hconsume.quiet) hquiet

end

/-! ### A time that has come (R178) -/

/-- An enqueue of a token that is no rank-3 mark, under an identity, marks no bank (R55, R72). -/
theorem enqueueAs_unmarked {t : Token} (hm : t.mark ≠ 3) (s : State) (e ch k tid : Nat) :
    (∃ x : Token, (enqueueAs s e ch k t tid).tokens (queueKey e (.out (BitVec.ofNat 5 ch))) = s.tokens (queueKey e (.out (BitVec.ofNat 5 ch))) ++ [x] ∧
      x.payload = t.payload ∧ x.gen = t.gen ∧ x.mark = t.mark ∧ x.pres = t.pres) ∧
    (tid ≠ 0 → mfind (enqueueAs s e ch k t tid).outst tid = some { elem := e, ch := BitVec.ofNat 5 ch, copies := 1, gen := t.gen, strand := BitVec.ofNat 3 k, cls := BitVec.ofNat 6 (chanClass ((s.elem e).active.chanWord ch)) }) ∧
    (∀ i, (enqueueAs s e ch k t tid).elem i = s.elem i) ∧ quiet s (enqueueAs s e ch k t tid) := by
  simp only [enqueueAs, withStatus, if_neg hm]
  split
  next h => exact ⟨⟨_, mget_mset_same _ _ _ _, rfl, rfl, rfl, rfl⟩, absurd h, fun _ => rfl, quiet_of_fields rfl rfl rfl rfl rfl rfl rfl⟩
  next => exact ⟨⟨_, mget_mset_same _ _ _ _, rfl, rfl, rfl, rfl⟩, fun _ => mfind_mset_same _ _ _, fun _ => rfl, quiet_of_fields rfl rfl rfl rfl rfl rfl rfl⟩

/-- The state without one pending at of an element. -/
def withoutAt (s : State) (e n : Nat) : State := s.modElem e (fun x => { x with ats := x.ats.eraseIdx n })

theorem withoutAt_elem (s : State) (e n : Nat) : (withoutAt s e n).elem e = { s.elem e with ats := (s.elem e).ats.eraseIdx n } := by
  rw [withoutAt, State.modElem_elem, if_pos rfl]

/-- A pending at sends its time once that has come, under the identity that its place was reserved with. -/
theorem exec_atEmit_due {s : State} {e n : Nat} {p : PendingAt} (hp : (s.elem e).ats[n]? = some p) (hfrozen : (s.elem e).frozen = false) (hfloor : atFloor s (groveOf e) = false)
    (hdue : p.target.toNat ≤ s.tb.toNat) :
    exec (.atEmit e n) s = .next (enqueueAs (withoutAt s e n) e p.ch.toNat p.strand.toNat { payload := p.target, gen := p.gen } p.tid) := by
  have hult : s.tb.ult p.target = false := by simpa [BitVec.ult] using hdue
  rw [show exec (.atEmit e n) s = execAtEmit e n s from rfl, execAtEmit]
  simp only [hp, hult, hfrozen, hfloor, Bool.not_false, Bool.and_self, if_true] <;> rfl

theorem atEmit_sends {s : State} {e n : Nat} {p : PendingAt} (hp : (s.elem e).ats[n]? = some p) (hfrozen : (s.elem e).frozen = false) (hfloor : atFloor s (groveOf e) = false)
    (hdue : p.target.toNat ≤ s.tb.toNat) : ∃ u x, exec (.atEmit e n) s = .next u ∧ (u.elem e).ats = (s.elem e).ats.eraseIdx n ∧
      u.tokens (queueKey e (.out p.ch)) = s.tokens (queueKey e (.out p.ch)) ++ [x] ∧ x.payload = p.target ∧ x.gen = p.gen ∧ x.mark = 0 ∧ x.pres = true ∧
      (p.tid ≠ 0 → mfind u.outst p.tid = some { elem := e, ch := p.ch, copies := 1, gen := p.gen, strand := BitVec.ofNat 3 p.strand.toNat, cls := BitVec.ofNat 6 (chanClass ((s.elem e).active.chanWord p.ch.toNat)) }) ∧ quiet s u := by
  obtain ⟨⟨x, htok, hpay, hgen, hmark, hpres⟩, houtst, helem, hquiet⟩ :=
    enqueueAs_unmarked (t := { payload := p.target, gen := p.gen }) nofun (withoutAt s e n) e p.ch.toNat p.strand.toNat p.tid
  rw [BitVec.ofNat_toNat, BitVec.setWidth_eq] at htok houtst
  rw [withoutAt_elem] at houtst
  exact ⟨_, x, exec_atEmit_due hp hfrozen hfloor hdue, by rw [helem, withoutAt_elem], htok, hpay, hgen, hmark, hpres, houtst, quiet_trans (quiet_modElem rfl rfl rfl rfl) hquiet⟩

theorem exec_atEmit_early {s : State} {e n : Nat} {p : PendingAt} (hp : (s.elem e).ats[n]? = some p) (hearly : s.tb.toNat < p.target.toNat) : exec (.atEmit e n) s = .next s := by
  have hult : s.tb.ult p.target = true := by simpa [BitVec.ult] using hearly
  rw [show exec (.atEmit e n) s = execAtEmit e n s from rfl, execAtEmit]
  simp only [hp, hult, Bool.not_true, Bool.false_and, Bool.false_eq_true, if_false]

/-- Settles O42: each move of a token by what its route entry, its local port or its time lets it do. -/
theorem tokenMoves : Obligations.TokenMoves := by
  unfold Obligations.TokenMoves
  refine ⟨fun s e q t rest w hq hb hheld hw => ?_, fun s e ch q t rest w hq hheld hw hch hport hdis hdec => ?_, fun s e n p hp hfrozen hfloor =>
    ⟨atEmit_sends hp hfrozen hfloor, exec_atEmit_early hp⟩⟩
  · refine ⟨fun side n hv hs hn => ⟨fun key hkey => ⟨tokenHop_crosses hq hb hheld hw hv hs hn hkey, fun hfull => ?_⟩, fun hroom => ?_, fun hfull => ?_⟩, exec_tokenHop_lost hq hb hheld hw,
      fun side hv hs hn => exec_tokenHop_edge hq hb hheld hw hv hs hn, fun hv hs hroom => tokenHop_forks hq hb hheld hw hv hs hroom⟩
    · rw [exec_tokenHop_link hq hb hheld hw hv hs hn hkey, if_pos hfull]
    · rw [exec_tokenHop_link hq hb hheld hw hv hs hn rfl, linkKey, if_neg (by omega), if_pos rfl]
    · rw [exec_tokenHop_link hq hb hheld hw hv hs hn rfl, linkKey, if_pos hfull]
  · exact ⟨tokenDeliver_data hq hheld hw hport hch hdis hdec, exec_tokenDeliver_full hq hheld hw hport hch hdis hdec,
      fun x hx ht hxe hrank hgen => tokenDeliver_merges hq hheld hw hport hch hdis hdec hx ht hxe hrank hgen⟩

end Sys2Proof.Machine
end

section
/-! PROOFS. The way of a request through its unit, its chain and its translation (R96 to R98, R164, R340 to R342): what each part changes of the request, of the others and of the rest of the state. -/

namespace Sys2Proof.Machine
open Sys2Proof.Claims

/-! ### Tables -/

theorem mem_mset {α : Type} {m : SMap α} {i : Nat} {x : α} {p : Nat × α} (h : p ∈ mset m i x) : p = (i, x) ∨ p ∈ m := by
  induction m with
  | nil => exact .inl (List.mem_singleton.1 h)
  | cons q m ih =>
    simp only [mset] at h
    split at h
    · exact List.mem_cons.1 h
    · split at h
      · exact (List.mem_cons.1 h).imp_right (List.mem_cons_of_mem _)
      · obtain rfl | h := List.mem_cons.1 h
        · exact .inr List.mem_cons_self
        · exact (ih h).imp_right (List.mem_cons_of_mem _)

/-- A change of each entry by its key is one of what the key finds. -/
theorem mfind_mapEntries {α : Type} (f : Nat × α → Nat × α) (hf : ∀ p, (f p).1 = p.1) (m : SMap α) (i : Nat) :
    mfind (m.map f) i = (mfind m i).map (fun x => (f (i, x)).2) := by
  induction m with
  | nil => rfl
  | cons p m ih =>
    rw [List.map_cons, mfind, mfind, ih, hf]
    split
    next h => rw [h]; rfl
    next => rfl

/-! ### The frame of a request's moves -/

/-- An element without its chains. -/
def Elem.unchained (x : Elem) : Elem := { x with chains := [] }

/-- A grove without its chains, its TLB and its AGs. -/
def Grove.unmapped (x : Grove) : Grove := { x with chains := [], tlb := [], ags := [] }

/-- A state without its elements, groves and requests. -/
def State.unasked (s : State) : State := { s with elems := [], groves := [], reqs := [], nextReq := 0 }

/-- Between two states only requests, the chains that units keep of them and translations have changed. -/
structure AskFrame (s u : State) : Prop where
  elem : ∀ e, (u.elem e).unchained = (s.elem e).unchained
  grove : ∀ g, (u.grove g).unmapped = (s.grove g).unmapped
  rest : u.unasked = s.unasked

namespace AskFrame

theorem refl (s : State) : AskFrame s s := ⟨fun _ => rfl, fun _ => rfl, rfl⟩

theorem trans {s u v : State} (h : AskFrame s u) (h' : AskFrame u v) : AskFrame s v :=
  ⟨fun e => (h'.elem e).trans (h.elem e), fun g => (h'.grove g).trans (h.grove g), h'.rest.trans h.rest⟩

theorem of_requests (s : State) (rs : SMap Req) (n : Nat) : AskFrame s { s with reqs := rs, nextReq := n } := ⟨fun _ => rfl, fun _ => rfl, rfl⟩

theorem of_modElem {s : State} {e : Nat} {f : Elem → Elem} (h : (f (s.elem e)).unchained = (s.elem e).unchained) : AskFrame s (s.modElem e f) := by
  refine ⟨fun i => ?_, fun _ => rfl, rfl⟩
  rw [State.modElem_elem]
  split
  next hi => rw [h, hi]
  next => rfl

theorem of_modGrove {s : State} {g : Nat} {f : Grove → Grove} (h : (f (s.grove g)).unmapped = (s.grove g).unmapped) : AskFrame s (s.modGrove g f) :=
  ⟨fun _ => rfl, State.modGrove_keeps Grove.unmapped h, rfl⟩

section
variable {s u : State} (h : AskFrame s u)
include h

theorem elemView {α : Type} (φ : Elem → α) (e : Nat) (hφ : ∀ x : Elem, φ x.unchained = φ x := by exact fun _ => rfl) : φ (u.elem e) = φ (s.elem e) := by
  rw [← hφ, h.elem, hφ]

theorem groveView {α : Type} (φ : Grove → α) (g : Nat) (hφ : ∀ x : Grove, φ x.unmapped = φ x := by exact fun _ => rfl) : φ (u.grove g) = φ (s.grove g) := by
  rw [← hφ, h.grove, hφ]

theorem view {α : Type} (φ : State → α) (hφ : ∀ v : State, φ v.unasked = φ v := by exact fun _ => rfl) : φ u = φ s := by
  rw [← hφ, h.rest, hφ]

theorem quiet : quiet s u := by
  have hplane : ∀ e, (u.elem e).active = (s.elem e).active := h.elemView Elem.active
  have hbank : ∀ g, (u.grove g).bank = (s.grove g).bank := h.groveView Grove.bank
  refine ⟨registersKept_of none (fun e k => ?_) (fun e => ?_) (fun g => ?_), predicatesKept_of (fun e k => ?_) (fun g => ?_), ⟨fun e => ?_, h.groveView Grove.sticky⟩,
    memoryKept_of (h.view State.mem) (h.view State.words) (h.view State.sectors) (h.view State.windows) (h.view State.banks)⟩
  · rw [hplane]
  · rw [hplane]
  · exact ⟨by rw [hbank], by rw [hbank]⟩
  · rw [hplane]
  · rw [hbank]
  · exact ⟨h.elemView Elem.sticky e, h.elemView Elem.matrixSticky e, h.elemView Elem.convSticky e⟩

theorem task (t : Nat) : u.task t = s.task t := h.view (fun v => v.task t)

theorem taskOfGrove (g : Nat) : u.taskOfGrove g = s.taskOfGrove g := h.groveView Grove.task g

theorem unitCtx (v : UnitId) : unitCtx u v = unitCtx s v := by
  unfold Machine.unitCtx
  rw [h.taskOfGrove, h.groveView Grove.ctxno]
  simp only [h.task]

theorem unitPart (v : UnitId) : unitPart u v = unitPart s v := by
  unfold Machine.unitPart
  rw [h.unitCtx]
  exact h.view (fun w => (w.ctx (Machine.unitCtx s v)).part)

theorem leafTarget (v : UnitId) (leaf : Word) (size a : Nat) : leafTarget u (Machine.unitPart u v) leaf size a = leafTarget s (Machine.unitPart s v) leaf size a := by
  rw [h.unitPart]
  unfold Machine.leafTarget
  rw [h.view State.moduleNo]

end

end AskFrame

theorem setReq_asks (s : State) (r : Nat) (q : Req) : AskFrame s (s.setReq r q) := .of_requests s _ _

theorem sendReq_asks (s : State) (r : Nat) : AskFrame s (sendReq s r) := by
  unfold sendReq
  split
  · exact .refl s
  · exact setReq_asks s _ _

theorem retarget_asks (s : State) (u : UnitId) (r : Nat) (t : Target) (page size : Nat) : AskFrame s (retarget s u r t page size) := by
  unfold retarget
  extract_lets known fix s1
  have h1 : AskFrame s s1 := .of_requests s _ _
  split
  · exact h1.trans (.of_modElem rfl)
  · exact h1.trans (.of_modGrove rfl)
  · exact h1

theorem noteChain_asks (s : State) (r : Nat) (q : Req) : AskFrame s (noteChain s r q) := by
  unfold noteChain
  split
  · exact .refl s
  · extract_lets s1 c keep
    have h1 : AskFrame s s1 := .of_requests s _ _
    split
    · exact h1.trans (.of_modElem rfl)
    · exact h1.trans (.of_modGrove rfl)
    · exact h1
    · exact h1

theorem tlbFill_asks (s : State) (g victim : Nat) (t : TlbEntry) : AskFrame s (tlbFill s g victim t) := .of_modGrove rfl

theorem translate_asks (s : State) (g c v : Nat) : AskFrame s (translate s g c v).1 ∧ (translate s g c v).1.reqs = s.reqs ∧ (translate s g c v).1.nextReq = s.nextReq := by
  unfold translate
  split
  · exact ⟨.refl s, rfl, rfl⟩
  · split
    · exact ⟨.refl s, rfl, rfl⟩
    · exact ⟨tlbFill_asks s _ _ _, rfl, rfl⟩

theorem voidWalk_asks (q : Req) (l : List (Nat × Nat)) (s : State) :
    AskFrame s (voidWalk q s l).1 ∧ (voidWalk q s l).1.reqs = s.reqs ∧ (voidWalk q s l).1.nextReq = s.nextReq := by
  induction l generalizing s with
  | nil => exact ⟨.refl s, rfl, rfl⟩
  | cons x xs ih =>
    have ht := translate_asks s (groveOfUnit q.src) (unitCtx s q.src) x.1
    rw [voidWalk]
    split
    next p k hp => rwa [hp] at ht
    next p leaf size hp =>
      rw [hp] at ht
      obtain ⟨hf, hr, hn⟩ := ht
      extract_lets t
      split
      · exact ⟨hf, hr, hn⟩
      · obtain ⟨hf', hr', hn'⟩ := ih p
        have hall : AskFrame s (voidWalk q p xs).1 ∧ (voidWalk q p xs).1.reqs = s.reqs ∧ (voidWalk q p xs).1.nextReq = s.nextReq :=
          ⟨hf.trans hf', hr'.trans hr, hn'.trans hn⟩
        split
        next v ts hv => rwa [hv] at hall
        next => exact hall

theorem requestParts_asks (s : State) (q : Req) (leaf : Word) (size : Nat) :
    AskFrame s (requestParts s q leaf size).1 ∧ (requestParts s q leaf size).1.reqs = s.reqs ∧ (requestParts s q leaf size).1.nextReq = s.nextReq := by
  unfold requestParts
  split
  · exact ⟨.refl s, rfl, rfl⟩
  · exact voidWalk_asks q _ s
  · split <;> exact ⟨.refl s, rfl, rfl⟩

/-- Only the pages of a void are translated beside the leaf of its address. -/
theorem requestParts_same {s : State} {q : Req} (h : ∀ n, q.kind ≠ .void n) (leaf : Word) (size : Nat) : (requestParts s q leaf size).1 = s := by
  unfold requestParts
  split
  · rfl
  next n hn => exact absurd hn (h n)
  · split <;> rfl

/-! ### What each part makes of the requests -/

theorem sendReq_find {s : State} {r : Nat} {q : Req} (h : mfind s.reqs r = some q) (x : Nat) :
    mfind (sendReq s r).reqs x = if x = r then some (chainStage s q) else mfind s.reqs x := by
  have h' : s.req? r = some q := h
  rw [sendReq, h']
  exact mfind_mset _ _ _ _

@[simp] theorem sendReq_nextReq (s : State) (r : Nat) : (sendReq s r).nextReq = s.nextReq := by
  unfold sendReq
  split <;> rfl

theorem retarget_find (s : State) (u : UnitId) (r : Nat) (t : Target) (page size x : Nat) :
    mfind (retarget s u r t page size).reqs x = (mfind s.reqs x).map (learnPred (learners s.reqs [r]) t page size) := by
  have hreqs : (retarget s u r t page size).reqs = s.reqs.map (fun x => (x.1, learnPred (learners s.reqs [r]) t page size x.2)) := by
    unfold retarget
    extract_lets known fix s1
    split <;> rfl
  rw [hreqs]
  exact mfind_mapEntries (fun x => (x.1, learnPred (learners s.reqs [r]) t page size x.2)) (fun _ => rfl) _ _

@[simp] theorem retarget_nextReq (s : State) (u : UnitId) (r : Nat) (t : Target) (page size : Nat) : (retarget s u r t page size).nextReq = s.nextReq := by
  unfold retarget
  extract_lets known fix s1
  split <;> rfl

theorem noteChain_unchained {s : State} {r : Nat} {q : Req} (h : q.wave = none) : noteChain s r q = s := by
  rw [noteChain, h]

theorem takePred_key (r : Nat) (q : Req) (seq : BitVec 8) (x : Nat × Req) : (takePred r q seq x).1 = x.1 := by
  unfold takePred
  split
  · split <;> rfl
  · rfl

theorem noteChain_find {s : State} {r : Nat} {q : Req} {w : Wave} (h : q.wave = some w) (x : Nat) :
    mfind (noteChain s r q).reqs x = (mfind s.reqs x).map (fun y => (takePred r q w.seq (x, y)).2) := by
  have hreqs : (noteChain s r q).reqs = s.reqs.map (takePred r q w.seq) := by
    simp only [noteChain, h]
    cases q.src <;> rfl
  rw [hreqs]
  exact mfind_mapEntries _ (takePred_key r q w.seq) _ _

@[simp] theorem noteChain_nextReq (s : State) (r : Nat) (q : Req) : (noteChain s r q).nextReq = s.nextReq := by
  unfold noteChain
  split
  · rfl
  · extract_lets s1 c keep
    split <;> rfl

/-- A request that fires is not its own PRED request. -/
theorem takePred_self (r : Nat) (q : Req) (seq : BitVec 8) (y : Req) : (takePred r q seq (r, y)).2 = y := by
  unfold takePred
  split
  · rw [if_neg (by simp)]
  · rfl

/-- A request of a chain takes the one that fires as its PRED request, or is left as it is. -/
theorem takePred_pred (r : Nat) (q : Req) (seq : BitVec 8) (x : Nat) (y : Req) :
    ∃ p, (takePred r q seq (x, y)).2 = { y with pred := p } ∧ (p = y.pred ∨ y.pred = none ∧ p.map (fun z => z.req) = some r) := by
  unfold takePred
  split
  · split
    next hc =>
      obtain ⟨-, hp, -⟩ := hc
      exact ⟨some ⟨r, q.destination⟩, rfl, .inr ⟨hp, rfl⟩⟩
    next => exact ⟨y.pred, rfl, .inl rfl⟩
  · exact ⟨y.pred, rfl, .inl rfl⟩

/-- Those that learn a destination are the request that has one and absent requests. -/
theorem mem_learners {l : List (Nat × Req)} {known : List Nat} {x : Nat} (h : x ∈ learners l known) : x ∈ known ∨ ∃ z, (x, z) ∈ l ∧ z.kind = .absent := by
  induction l generalizing known with
  | nil => exact .inl h
  | cons p l ih =>
    obtain h | ⟨z, hz, hk⟩ := ih h
    · by_cases hg : goesWith known p.2 = true
      · rw [if_pos hg] at h
        obtain h | h := List.mem_append.1 h
        · exact .inl h
        · simp only [goesWith, Bool.and_eq_true, beq_iff_eq] at hg
          obtain rfl := List.mem_singleton.1 h
          exact .inr ⟨p.2, List.mem_cons_self, hg.1.1⟩
      · rw [if_neg hg] at h
        exact .inl h
    · exact .inr ⟨z, List.mem_cons_of_mem _ hz, hk⟩

theorem learnPred_of_unknown {known : List Nat} {q : Req} (h : ∀ p, q.pred = some p → p.req ∉ known) (t : Target) (page size : Nat) : learnPred known t page size q = q := by
  unfold learnPred
  split
  next p hp =>
    rw [if_pos]
    simpa using h p hp
  next => rfl

theorem learnPred_notBehind {s : State} {r : Nat} {y : Req} (h : notBehind s r y) (t : Target) (page size : Nat) : learnPred (learners s.reqs [r]) t page size y = y := by
  refine learnPred_of_unknown (fun p hp hmem => ?_) t page size
  obtain ⟨hr, habs⟩ := h p hp
  obtain hk | ⟨z, hz, hk⟩ := mem_learners hmem
  · exact hr (List.mem_singleton.1 hk)
  · exact habs z hz hk

theorem notBehind_of_setReq {s u : State} {r : Nat} {q y : Req} (hu : ∀ p ∈ u.reqs, p = (r, q) ∨ p ∈ s.reqs) (h : notBehind s r y) : notBehind u r y := by
  intro p hp
  obtain ⟨hr, habs⟩ := h p hp
  refine ⟨hr, fun z hz => ?_⟩
  obtain he | hz := hu _ hz
  · exact absurd (congrArg Prod.fst he) hr
  · exact habs z hz

end Sys2Proof.Machine
end

section
/-! PROOFS. What a request keeps of what was asked while it is translated, held and sent (R96 to R98, R164, R341). -/

namespace Sys2Proof.Machine
open Sys2Proof.Claims

/-! ### What was asked -/

/-- A request as its unit asked for it: without its chain, its translation and its place on the way. -/
def Req.asked (q : Req) : Req :=
  { q with wave := none, pred := none, target := .bank 0 0, scope := 0, pl := false, key := none, page := 0, pageSize := 0, parts := [], stage := .sent, since := 0 }

/-- A request asks for the same as another, with its wave fields, but for the PRED that a hold may have given up (R98). -/
structure SameAsk (q x : Req) : Prop where
  asked : x.asked = q.asked
  wave : x.wave = q.wave ∨ ∃ w, q.wave = some w ∧ x.wave = some { w with pred := 0xFF }

namespace SameAsk

theorem of_asked {q x : Req} (h : x.asked = q.asked) (hw : x.wave = q.wave) : SameAsk q x := ⟨h, .inl hw⟩

theorem trans {q x y : Req} (h : SameAsk q x) (h' : SameAsk x y) : SameAsk q y := by
  refine ⟨h'.asked.trans h.asked, ?_⟩
  obtain hy | ⟨w, hx, hy⟩ := h'.wave
  · rw [hy]
    exact h.wave
  · obtain hq | ⟨v, hq, hx'⟩ := h.wave
    · exact .inr ⟨w, by rw [← hq, hx], hy⟩
    · rw [hx'] at hx
      obtain rfl := Option.some.inj hx
      exact .inr ⟨v, hq, hy⟩

theorem view {q x : Req} (h : SameAsk q x) {α : Type} (φ : Req → α) (hφ : ∀ y : Req, φ y.asked = φ y := by exact fun _ => rfl) : φ x = φ q := by
  rw [← hφ, h.asked, hφ]

theorem wave_none {q x : Req} (h : SameAsk q x) (hq : q.wave = none) : x.wave = none := by
  obtain hw | ⟨w, hw, -⟩ := h.wave
  · rw [hw, hq]
  · rw [hq] at hw
    exact absurd hw (by simp)

end SameAsk

theorem chainStage_unchained {q : Req} (h : q.wave = none) (s : State) : chainStage s q = { q with stage := .sent } := by
  rw [chainStage, h]

theorem chainStage_sameAsk (s : State) (q : Req) : SameAsk q (chainStage s q) := by
  unfold chainStage
  split
  · exact .of_asked rfl rfl
  next w hw =>
    split
    · exact .of_asked rfl rfl
    · split
      · exact .of_asked rfl rfl
      · split
        · exact .of_asked rfl rfl
        · split
          · exact ⟨rfl, .inr ⟨w, hw, rfl⟩⟩
          · exact .of_asked rfl rfl

/-- A view of a request that neither its stage nor its wave fields enter, a hold keeps. -/
theorem chainStage_keeps {α : Type} (φ : Req → α) (hφ : ∀ (q : Req) g w, φ { q with stage := g, wave := w } = φ q) (s : State) (q : Req) : φ (chainStage s q) = φ q := by
  unfold chainStage
  split
  · exact hφ q .sent q.wave
  · split
    · exact hφ q .sent q.wave
    · split
      · exact hφ q .held q.wave
      · split
        · exact hφ q .sent q.wave
        · split
          · exact hφ q .sent _
          · exact hφ q _ q.wave

theorem learnPred_sameAsk (known : List Nat) (t : Target) (page size : Nat) (q : Req) : SameAsk q (learnPred known t page size q) := by
  unfold learnPred
  split
  · split
    · exact .of_asked rfl rfl
    · split <;> exact .of_asked rfl rfl
  · exact .of_asked rfl rfl

/-- A view that a request's PRED, target and page do not enter, a learnt destination keeps. -/
theorem learnPred_keeps {α : Type} (φ : Req → α) {known : List Nat} {t : Target} {page size : Nat} {q : Req} (ht : q.target = t)
    (hφ : ∀ p a b, φ { q with pred := p, page := a, pageSize := b } = φ q) : φ (learnPred known t page size q) = φ q := by
  unfold learnPred
  split
  next p hp =>
    split
    · rfl
    · split
      · rw [← ht]
        exact hφ _ _ _
      · exact hφ _ _ _
  · rfl

/-! ### A translation (R83, R84, R341, R342) -/

/-- The pages that a request's translation spans: a void's block at least (R167). -/
def Req.span (q : Req) (size : Nat) : Nat :=
  match q.kind with
  | .void _ => max size (2 ^ 22)
  | _ => size

/-- A request with the target that a leaf gives it. -/
def Req.reaching (s : State) (q : Req) (leaf : Word) (size : Nat) (parts : List (Target × Nat)) : Req :=
  { q with
    target := leafTarget s (unitPart s q.src) leaf size q.addr, scope := targetScope q.src (leafTarget s (unitPart s q.src) leaf size q.addr), pl := leafPL leaf
    key := some (leafKey leaf), page := q.addr / q.span size * q.span size, pageSize := q.span size, parts := parts }

theorem translated_error {s p : State} {r : Nat} {q : Req} {leaf : Word} {size k : Nat} (h : mfind s.reqs r = some q) (hp : requestParts s q leaf size = (p, .error k)) :
    translated s r leaf size = p.setReq r { q with stage := .failed k } := by
  have h' : s.req? r = some q := h
  simp only [translated, h', hp]

theorem translated_ok {s p : State} {r : Nat} {q : Req} {leaf : Word} {size : Nat} {parts : List (Target × Nat)} (h : mfind s.reqs r = some q)
    (hp : requestParts s q leaf size = (p, .ok parts)) :
    translated s r leaf size = sendReq (retarget (p.setReq r (q.reaching p leaf size parts)) q.src r (leafTarget p (unitPart p q.src) leaf size q.addr)
      (q.addr / q.span size * q.span size) (q.span size)) r := by
  have h' : s.req? r = some q := h
  simp only [translated, h', hp]
  rfl

theorem translated_asks (s : State) (r : Nat) (leaf : Word) (size : Nat) : AskFrame s (translated s r leaf size) := by
  cases h : mfind s.reqs r with
  | none =>
    have h' : s.req? r = none := h
    simp only [translated, h']
    exact .refl s
  | some q =>
    obtain ⟨hf, -, -⟩ := requestParts_asks s q leaf size
    cases hp : requestParts s q leaf size with
    | mk p o =>
      rw [hp] at hf
      cases o with
      | error k =>
        rw [translated_error h hp]
        exact hf.trans (setReq_asks p _ _)
      | ok parts =>
        rw [translated_ok h hp]
        exact ((hf.trans (setReq_asks p _ _)).trans (retarget_asks _ _ _ _ _ _)).trans (sendReq_asks _ _)

theorem translated_nextReq (s : State) (r : Nat) (leaf : Word) (size : Nat) : (translated s r leaf size).nextReq = s.nextReq := by
  cases h : mfind s.reqs r with
  | none =>
    have h' : s.req? r = none := h
    simp only [translated, h']
  | some q =>
    obtain ⟨-, -, hn⟩ := requestParts_asks s q leaf size
    cases hp : requestParts s q leaf size with
    | mk p o =>
      rw [hp] at hn
      cases o with
      | error k =>
        rw [translated_error h hp]
        exact hn
      | ok parts =>
        rw [translated_ok h hp, sendReq_nextReq, retarget_nextReq]
        exact hn

/-- What a request is after its translation: it has the target of its leaf and what a void reaches, and, outside a chain, is on its way. -/
structure Translated (s : State) (q x : Req) (leaf : Word) (size : Nat) (parts : List (Target × Nat)) : Prop where
  same : SameAsk q x
  sent : q.wave = none → x.stage = .sent
  target : x.target = leafTarget s (unitPart s q.src) leaf size q.addr
  parts : x.parts = parts
  pl : x.pl = leafPL leaf

/-- A translation that is denied fails its request and touches no other. -/
theorem translated_fails {s : State} {r : Nat} {q : Req} {leaf : Word} {size k : Nat} (h : mfind s.reqs r = some q) (hk : (requestParts s q leaf size).2 = .error k) :
    mfind (translated s r leaf size).reqs r = some { q with stage := .failed k } ∧ requestsKept s (translated s r leaf size) r := by
  obtain ⟨-, hr, -⟩ := requestParts_asks s q leaf size
  rw [translated_error h (Prod.ext rfl hk)]
  refine ⟨mfind_mset_same _ _ _, fun x hx => ?_⟩
  rw [State.setReq, mfind_mset, if_neg hx, hr]

theorem requestsTold_of_kept {s u : State} {r : Nat} (h : requestsKept s u r) : requestsTold s u r :=
  fun x hx => ⟨fun hn => by rw [h x hx, hn], fun y hy _ => by rw [h x hx, hy]⟩

/-- A request that has its target is sent with it, and those that follow the request learn it. -/
theorem retarget_sends {v : State} {r page size : Nat} {y : Req} {t : Target} (h : mfind v.reqs r = some y) (ht : y.target = t) (u : UnitId) :
    (∃ x, mfind (sendReq (retarget v u r t page size) r).reqs r = some x ∧ SameAsk y x ∧ (y.wave = none → x.stage = .sent) ∧ x.target = t ∧ x.parts = y.parts ∧ x.pl = y.pl) ∧
    requestsTold v (sendReq (retarget v u r t page size) r) r := by
  have hself := retarget_find v u r t page size r
  rw [h, Option.map_some] at hself
  have hlearn := learnPred_sameAsk (learners v.reqs [r]) t page size y
  refine ⟨⟨_, by rw [sendReq_find hself, if_pos rfl], hlearn.trans (chainStage_sameAsk _ _), fun hy => ?_, ?_, ?_, ?_⟩, fun x hx => ?_⟩
  · rw [chainStage_unchained (hlearn.wave_none hy)]
  · rw [chainStage_keeps Req.target (fun _ _ _ => rfl), learnPred_keeps Req.target ht (fun _ _ _ => rfl), ht]
  · rw [chainStage_keeps Req.parts (fun _ _ _ => rfl), learnPred_keeps Req.parts ht (fun _ _ _ => rfl)]
  · rw [chainStage_keeps Req.pl (fun _ _ _ => rfl), learnPred_keeps Req.pl ht (fun _ _ _ => rfl)]
  · rw [sendReq_find hself, if_neg hx, retarget_find]
    refine ⟨fun hn => by rw [hn, Option.map_none], fun z hz hb => ?_⟩
    rw [hz, Option.map_some, learnPred_notBehind hb]

/-- What a state with one request set tells the others, it tells them of the state before. -/
theorem requestsTold_of_setReq {s v u : State} {r : Nat} {y : Req} (hv : v.reqs = mset s.reqs r y) (h : requestsTold v u r) : requestsTold s u r := by
  intro x hx
  have hfind : mfind v.reqs x = mfind s.reqs x := by rw [hv, mfind_mset, if_neg hx]
  obtain ⟨hnone, hsome⟩ := h x hx
  exact ⟨fun hn => hnone (hfind.trans hn), fun z hz hb => hsome z (hfind.trans hz) (notBehind_of_setReq (fun p hp => by rw [hv] at hp; exact mem_mset hp) hb)⟩

/-- A translation gives its request its target, and tells it to none but those that follow the request. -/
theorem translated_reaches {s : State} {r : Nat} {q : Req} {leaf : Word} {size : Nat} {parts : List (Target × Nat)} (h : mfind s.reqs r = some q)
    (hp : (requestParts s q leaf size).2 = .ok parts) :
    (∃ x, mfind (translated s r leaf size).reqs r = some x ∧ Translated s q x leaf size parts) ∧ requestsTold s (translated s r leaf size) r := by
  obtain ⟨p, hP⟩ : ∃ p, requestParts s q leaf size = (p, .ok parts) := ⟨_, Prod.ext rfl hp⟩
  obtain ⟨hf, hr, -⟩ := requestParts_asks s q leaf size
  rw [hP] at hf hr
  rw [translated_ok h hP]
  obtain ⟨⟨x, hx, hsame, hsent, htarget, hparts, hpl⟩, htold⟩ := retarget_sends (v := p.setReq r (q.reaching p leaf size parts)) (page := q.addr / q.span size * q.span size)
    (size := q.span size) (mfind_mset_same _ _ _) rfl q.src
  have hreach : SameAsk q (q.reaching p leaf size parts) := .of_asked rfl rfl
  exact ⟨⟨x, hx, hreach.trans hsame, hsent, htarget.trans (hf.leafTarget q.src leaf size q.addr), hparts, hpl⟩,
    requestsTold_of_setReq (by rw [State.setReq, hr]) htold⟩

theorem translated_told {s : State} {r : Nat} {q : Req} (h : mfind s.reqs r = some q) (leaf : Word) (size : Nat) : requestsTold s (translated s r leaf size) r := by
  cases hp : (requestParts s q leaf size).2 with
  | error k => exact requestsTold_of_kept (translated_fails h hp).2
  | ok parts => exact (translated_reaches h hp).2

/-- Whatever a translation comes to, its request asks for the same. -/
theorem translated_sameAsk {s : State} {r : Nat} {q : Req} (h : mfind s.reqs r = some q) (leaf : Word) (size : Nat) :
    ∃ x, mfind (translated s r leaf size).reqs r = some x ∧ SameAsk q x := by
  cases hp : (requestParts s q leaf size).2 with
  | error k => exact ⟨_, (translated_fails h hp).1, .of_asked rfl rfl⟩
  | ok parts =>
    obtain ⟨⟨x, hx, ht⟩, -⟩ := translated_reaches h hp
    exact ⟨x, hx, ht.same⟩

end Sys2Proof.Machine
end

section
/-! PROOFS. Loads (O33): a request that a word adds, with its chain and its translation, and the words that load (R73, R97, R161 to R164). -/

namespace Sys2Proof.Machine
open Sys2Proof.Claims

/-! ### What the translation of a word's request reads (R341) -/

/-- Between two states the TLBs, the tasks of groves and the contexts of tasks are the same. -/
structure XlateFrame (s u : State) : Prop where
  grove : ∀ g, (u.grove g).tlb = (s.grove g).tlb ∧ (u.grove g).task = (s.grove g).task ∧ (u.grove g).ctxno = (s.grove g).ctxno
  task : ∀ t, (u.task t).ctx = (s.task t).ctx

namespace XlateFrame

theorem trans {s u v : State} (h : XlateFrame s u) (h' : XlateFrame u v) : XlateFrame s v := by
  refine ⟨fun g => ?_, fun t => (h'.task t).trans (h.task t)⟩
  obtain ⟨h1, h2, h3⟩ := h.grove g
  obtain ⟨h1', h2', h3'⟩ := h'.grove g
  exact ⟨h1'.trans h1, h2'.trans h2, h3'.trans h3⟩

theorem of_fields {s u : State} (hg : u.groves = s.groves) (ht : u.tasks = s.tasks) : XlateFrame s u := by
  refine ⟨fun g => ?_, fun t => by rw [State.task, State.task, ht]⟩
  have hgrove : u.grove g = s.grove g := by rw [State.grove, State.grove, hg]
  exact ⟨by rw [hgrove], by rw [hgrove], by rw [hgrove]⟩

theorem of_issue {s u : State} (h : IssueFrame s u) : XlateFrame s u :=
  ⟨fun g => ⟨h.groveView Grove.tlb g, h.groveView Grove.task g, h.groveView Grove.ctxno g⟩, h.taskView Task.ctx⟩

theorem of_modGrove {s : State} {g : Nat} {f : Grove → Grove} (ht : (f (s.grove g)).tlb = (s.grove g).tlb) (hk : (f (s.grove g)).task = (s.grove g).task)
    (hc : (f (s.grove g)).ctxno = (s.grove g).ctxno) : XlateFrame s (s.modGrove g f) :=
  ⟨fun i => ⟨State.modGrove_keeps Grove.tlb ht i, State.modGrove_keeps Grove.task hk i, State.modGrove_keeps Grove.ctxno hc i⟩, fun _ => rfl⟩

theorem of_modTask {s : State} {t : Nat} {f : Task → Task} (h : (f (s.task t)).ctx = (s.task t).ctx) : XlateFrame s (s.modTask t f) :=
  ⟨fun g => by rw [State.modTask_grove]; exact ⟨rfl, rfl, rfl⟩, State.modTask_keeps Task.ctx h⟩

theorem tlbFind {s u : State} (h : XlateFrame s u) (v : UnitId) (va : Nat) :
    tlbFind u (groveOfUnit v) (unitCtx u v) va = tlbFind s (groveOfUnit v) (unitCtx s v) va := by
  have hctx : unitCtx u v = unitCtx s v := by
    unfold unitCtx State.taskOfGrove
    obtain ⟨-, hk, hc⟩ := h.grove (groveOfUnit v)
    rw [hk, hc]
    simp only [h.task]
  unfold Machine.tlbFind
  rw [hctx, (h.grove (groveOfUnit v)).1]

end XlateFrame

theorem payWord_xlate (s : State) (cost : Nat) : XlateFrame s (payWord s cost) := by
  unfold payWord
  split
  · extract_lets t n u
    have ht : XlateFrame s t := by
      simp only [t]
      split
      · exact .of_modTask rfl
      · exact .of_fields rfl rfl
    have hu : XlateFrame s u := ht.trans (.of_fields rfl rfl)
    split
    · exact hu.trans (.of_fields rfl rfl)
    · exact hu
  · split
    · exact .of_issue (noteStep_frame s _)
    · exact .of_issue (pay_frame s _ _)

/-- The issue of a word leaves what its request's translation reads (R32, R131). -/
theorem issued_xlate (s : State) (i : Instr) : XlateFrame s (issued s i) := by
  cases hc : s.cur with
  | slot e k n => exact .of_issue (issued_frame hc i)
  | word g a =>
    have hcur : (payWord s (wordCost s (wordSig i))).cur = .word g a := (payWord_elems_cur s _).2.trans hc
    rw [issued_word hc]
    refine (payWord_xlate s (wordCost s (wordSig i))).trans ?_
    simp only [advance, hcur]
    exact .of_modGrove rfl rfl rfl

theorem replyDest_xlate (s0 s1 : State) (d : BitVec 6) : XlateFrame s1 (replyDest s0 s1 d).1 := by
  unfold replyDest
  split <;> exact .of_fields rfl rfl

/-! ### What the others of a chain learn of a request that fires (R98) -/

/-- As requestsTold, where a request that waits for this one to fire takes it as its PRED request. -/
def toldInChain (s u : State) (r : Nat) : Prop :=
  ∀ x, x ≠ r → (mfind s.reqs x = none → mfind u.reqs x = none) ∧
    ∀ y, mfind s.reqs x = some y → notBehind s r y →
      ∃ p, mfind u.reqs x = some { y with pred := p } ∧ (p = y.pred ∨ y.pred = none ∧ p.map (fun z => z.req) = some r)

theorem noteChain_self (s : State) (r : Nat) (q : Req) : mfind (noteChain s r q).reqs r = mfind s.reqs r := by
  cases hw : q.wave with
  | none => rw [noteChain_unchained hw]
  | some w =>
    rw [noteChain_find hw]
    simp only [takePred_self, Option.map_id']

theorem noteChain_told {s v : State} {r : Nat} (h : requestsTold s v r) (q : Req) : toldInChain s (noteChain v r q) r := by
  intro x hx
  obtain ⟨hnone, hsome⟩ := h x hx
  cases hw : q.wave with
  | none =>
    rw [noteChain_unchained hw]
    exact ⟨hnone, fun y hy hb => ⟨y.pred, hsome y hy hb, .inl rfl⟩⟩
  | some w =>
    rw [noteChain_find hw]
    refine ⟨fun hn => by rw [hnone hn, Option.map_none], fun y hy hb => ?_⟩
    obtain ⟨p, hp, hpred⟩ := takePred_pred r q w.seq x y
    exact ⟨p, by rw [hsome y hy hb, Option.map_some, hp], hpred⟩

theorem requestsTold_setReq (s : State) (r : Nat) (y : Req) : requestsTold s (s.setReq r y) r :=
  requestsTold_of_kept fun x hx => by rw [State.setReq, mfind_mset, if_neg hx]

/-! ### One request more -/

/-- Between two states a request has been added under the next identity, which asks for the same as one that its unit made. -/
structure AddsAsk (s u : State) (q x : Req) : Prop where
  frame : AskFrame s u
  nextReq : u.nextReq = s.nextReq + 1
  find : mfind u.reqs s.nextReq = some x
  same : SameAsk q x
  chain : toldInChain s u s.nextReq
  plain : q.wave = none → requestsTold s u s.nextReq

/-- A request of a unit at what its address names. -/
def Req.at (q : Req) : AddrClass → Req
  | .bank _ _ => q
  | .global va => { q with addr := va }

/-- Where an added request goes: to its bank, outside a chain at once, or to its translation. -/
def headsFor (s : State) (q x : Req) : AddrClass → Prop
  | .bank e off => x.target = .bank e off ∧ x.scope = bankScope q.src e ∧ (q.wave = none → x.stage = .sent)
  | .global va => tlbFind s (groveOfUnit q.src) (unitCtx s q.src) va = none → x.stage = .xlate

/-- A request with the PRED request that its chain has for it (R98). -/
def Req.linked (s : State) (q : Req) : Req :=
  match q.wave with
  | some w => { q with pred := findPred { s with nextReq := s.nextReq + 1 } q s.nextReq w.pred }
  | none => q

theorem Req.linked_sameAsk (s : State) (q : Req) : SameAsk q (q.linked s) := by
  unfold Req.linked
  split <;> exact .of_asked rfl rfl

/-- A request whose destination is known is sent, or held, and noted in its chain. -/
theorem sent_addsAsk {s : State} {q y : Req} (h : SameAsk q y) :
    AddsAsk s (noteChain (sendReq ({ s with nextReq := s.nextReq + 1 }.setReq s.nextReq y) s.nextReq) s.nextReq y) q
      (chainStage ({ s with nextReq := s.nextReq + 1 }.setReq s.nextReq y) y) := by
  generalize hv : ({ s with nextReq := s.nextReq + 1 }.setReq s.nextReq y : State) = v
  have hfind : mfind v.reqs s.nextReq = some y := by rw [← hv]; exact mfind_mset_same _ _ _
  have hkept : requestsKept s (sendReq v s.nextReq) s.nextReq := fun x hx => by
    rw [sendReq_find hfind, if_neg hx, ← hv, State.setReq, mfind_mset, if_neg hx]
  have htold := requestsTold_of_kept hkept
  have hframe : AskFrame s v := by rw [← hv]; exact .of_requests s _ _
  refine ⟨(hframe.trans (sendReq_asks _ _)).trans (noteChain_asks _ _ _), ?_, ?_, h.trans (chainStage_sameAsk _ _), noteChain_told htold y, fun hq => ?_⟩
  · rw [noteChain_nextReq, sendReq_nextReq, ← hv]
    rfl
  · rw [noteChain_self, sendReq_find hfind, if_pos rfl]
  · rw [noteChain_unchained (h.wave_none hq)]
    exact htold

theorem addReq_bank_adds {s : State} {q : Req} (hk : ∀ n, q.kind ≠ .wait n) (e off : Nat) :
    ∃ x, AddsAsk s (addReq s q (.bank e off)) q x ∧ headsFor s q x (.bank e off) := by
  have hlink := q.linked_sameAsk s
  have he : addReq s q (.bank e off) = noteChain (sendReq ({ s with nextReq := s.nextReq + 1 }.setReq s.nextReq (toBank s (q.linked s) e off)) s.nextReq) s.nextReq
      (toBank s (q.linked s) e off) := by
    have hkind : (q.linked s).kind = q.kind := hlink.view Req.kind
    change (match (toBank s (q.linked s) e off).kind with
      | .wait _ => _
      | _ => _) = _
    split
    next n hn => exact absurd (hkind.symm.trans hn) (hk n)
    next => rfl
  rw [he]
  have hsame : SameAsk q (toBank s (q.linked s) e off) := hlink.trans (.of_asked rfl rfl)
  refine ⟨_, sent_addsAsk hsame, chainStage_keeps Req.target (fun _ _ _ => rfl) _ _, ?_, fun hq => ?_⟩
  · rw [chainStage_keeps Req.scope (fun _ _ _ => rfl)]
    exact congrArg (bankScope · e) (hlink.view Req.src)
  · rw [chainStage_unchained (hsame.wave_none hq)]

theorem addReq_global_adds (s : State) (q : Req) (va : Nat) : ∃ x, AddsAsk s (addReq s q (.global va)) (q.at (.global va)) x ∧ headsFor s q x (.global va) := by
  have hlink := q.linked_sameAsk s
  generalize hy : ({ q.linked s with addr := va, scope := 3, since := s.tb.toNat, stage := .xlate } : Req) = y
  generalize hv : ({ s with nextReq := s.nextReq + 1 }.setReq s.nextReq y : State) = v
  have he : addReq s q (.global va) = (match tlbFind v (groveOfUnit y.src) (unitCtx v y.src) va with
      | some t => noteChain (translated v s.nextReq t.leaf t.size) s.nextReq (((translated v s.nextReq t.leaf t.size).req? s.nextReq).getD y)
      | none => noteChain v s.nextReq y) := by
    subst hy hv
    rfl
  have hat : SameAsk q (q.linked s) → SameAsk (q.at (.global va)) y := fun h => by
    rw [← hy]
    exact .of_asked (congrArg (fun z : Req => { z with addr := va }) h.asked) (by unfold Req.linked Req.at; split <;> rfl)
  have hsame := hat hlink
  have hfind : mfind v.reqs s.nextReq = some y := by rw [← hv]; exact mfind_mset_same _ _ _
  have hframe : AskFrame s v := by rw [← hv]; exact .of_requests s _ _
  have hnext : v.nextReq = s.nextReq + 1 := by rw [← hv]; rfl
  have hreqs : v.reqs = mset s.reqs s.nextReq y := by rw [← hv]; rfl
  have hsrc : y.src = q.src := hsame.view Req.src
  have htlb : tlbFind v (groveOfUnit q.src) (unitCtx v q.src) va = tlbFind s (groveOfUnit q.src) (unitCtx s q.src) va := by rw [← hv]; rfl
  rw [he, hsrc, htlb]
  cases hf : tlbFind s (groveOfUnit q.src) (unitCtx s q.src) va with
  | none =>
    have htold : requestsTold s v s.nextReq := requestsTold_of_kept fun x hx => by rw [hreqs, mfind_mset, if_neg hx]
    refine ⟨y, ⟨hframe.trans (noteChain_asks _ _ _), ?_, ?_, hsame, noteChain_told htold y, fun hq => ?_⟩, fun _ => by rw [← hy]⟩
    · rw [noteChain_nextReq, hnext]
    · rw [noteChain_self, hfind]
    · rw [noteChain_unchained (hsame.wave_none hq)]
      exact htold
  | some t =>
    obtain ⟨x, hx, hxs⟩ := translated_sameAsk hfind t.leaf t.size
    have htold : requestsTold s (translated v s.nextReq t.leaf t.size) s.nextReq := requestsTold_of_setReq hreqs (translated_told hfind t.leaf t.size)
    have hgetD : ((translated v s.nextReq t.leaf t.size).req? s.nextReq).getD y = x := by
      rw [State.req?, hx, Option.getD_some]
    refine ⟨x, ⟨(hframe.trans (translated_asks _ _ _ _)).trans (noteChain_asks _ _ _), ?_, ?_, hsame.trans hxs, noteChain_told htold _, fun hq => ?_⟩,
      fun hn => absurd (hf.symm.trans hn) (by simp)⟩
    · rw [noteChain_nextReq, translated_nextReq, hnext]
    · rw [noteChain_self, hx]
    · simp only [hgetD]
      rw [noteChain_unchained ((hsame.trans hxs).wave_none hq)]
      exact htold

/-- A request that is no wait is added under the next identity, and heads for what its address names. -/
theorem addReq_addsAsk {s : State} {q : Req} (hk : ∀ n, q.kind ≠ .wait n) (c : AddrClass) : ∃ x, AddsAsk s (addReq s q c) (q.at c) x ∧ headsFor s q x c := by
  cases c with
  | bank e off => exact addReq_bank_adds hk e off
  | global va => exact addReq_global_adds s q va

/-! ### A word's one request -/

theorem notBehind_congr {s u : State} (h : u.reqs = s.reqs) {r : Nat} {y : Req} (hb : notBehind s r y) : notBehind u r y := by
  unfold notBehind
  rwa [h]

theorem isSentBy_of_sameAsk {s : State} {q x : Req} (h : SameAsk q x) (hs : isSentBy s q) : isSentBy s x := by
  obtain ⟨h1, h2, h3, h4⟩ := hs
  exact ⟨(h.view Req.src).trans h1, (h.view Req.strand).trans h2, (h.view Req.supervisor).trans h3, (h.view Req.gen).trans h4⟩

theorem AddsAsk.sends {s v u : State} {q x : Req} {p : Req → Prop} (hf : SendFrame s v) (h : AddsAsk v u q x) (hw : q.wave = none) (hs : isSentBy s q) (hp : p x) :
    sends s u p := by
  obtain ⟨hr, hpr, hst, hm⟩ := quiet_trans hf.quiet h.frame.quiet
  obtain ⟨h1, h2, h3, h4⟩ := isSentBy_of_sameAsk h.same hs
  have htold := h.plain hw
  rw [hf.nextReq] at htold
  refine ⟨by rw [h.nextReq, hf.nextReq], ⟨x, by rw [← hf.nextReq, h.find], h1, h2, h3, h4, hp⟩, fun r hne hnone => ?_, fun r y hne hy hb => ?_, hr, hpr, hst, hm⟩
  · exact (htold r hne).1 (by rw [hf.reqs, hnone])
  · exact (htold r hne).2 y (by rw [hf.reqs, hy]) (notBehind_congr hf.reqs hb)

theorem AddsAsk.sendsInChain {s v u : State} {q x : Req} {p : Req → Prop} (hf : SendFrame s v) (h : AddsAsk v u q x) (hs : isSentBy s q) (hp : p x) :
    sendsInChain s u p := by
  obtain ⟨hr, hpr, hst, hm⟩ := quiet_trans hf.quiet h.frame.quiet
  obtain ⟨h1, h2, h3, h4⟩ := isSentBy_of_sameAsk h.same hs
  have htold := h.chain
  rw [hf.nextReq] at htold
  refine ⟨by rw [h.nextReq, hf.nextReq], ⟨x, by rw [← hf.nextReq, h.find], h1, h2, h3, h4, hp⟩, fun r hne hnone => ?_, fun r y hne hy hb => ?_, hr, hpr, hst, hm⟩
  · exact (htold r hne).1 (by rw [hf.reqs, hnone])
  · exact (htold r hne).2 y (by rw [hf.reqs, hy]) (notBehind_congr hf.reqs hb)

theorem resolves_of_addressCause {s : State} {v : Word} {size : Nat} {bankOnly : Bool} (h : addressCause s v size bankOnly = none) :
    ∃ c, resolveAddr s (curUnit s.cur) v.toNat = some c := by
  unfold addressCause at h
  split at h
  next => exact absurd h (by simp)
  next c hc => exact ⟨c, hc⟩

theorem isSentBy_at {s : State} {q : Req} (h : isSentBy s q) (c : AddrClass) : isSentBy s (q.at c) := by
  cases c <;> exact h

theorem Req.at_wave (q : Req) (c : AddrClass) : (q.at c).wave = q.wave := by
  cases c <;> rfl

theorem aimed_of_headsFor {s v : State} {a : Word} {q x : Req} {c : AddrClass} (ha : resolveAddr s (curUnit s.cur) a.toNat = some c) (hx : XlateFrame s v)
    (hsrc : q.src = curUnit s.cur) (haddr : q.addr = a.toNat) (h : headsFor v q x c) (hs : SameAsk (q.at c) x) : aimed s a x := by
  have hxaddr : x.addr = (q.at c).addr := hs.view Req.addr
  rw [aimed, ha]
  cases c with
  | bank e off =>
    obtain ⟨ht, hsc, -⟩ := h
    exact ⟨hxaddr.trans haddr, ht, hsc.trans (congrArg (bankScope · e) hsrc)⟩
  | global va =>
    refine ⟨hxaddr, fun hn => h ?_⟩
    rwa [hx.tlbFind, hsrc]

theorem under_of_headsFor {s v : State} {a : Word} {q x : Req} {c : AddrClass} (ha : resolveAddr s (curUnit s.cur) a.toNat = some c) (hw : q.wave = none)
    (h : headsFor v q x c) (hs : SameAsk (q.at c) x) : under s a x := by
  refine ⟨hs.wave_none ((q.at_wave c).trans hw), fun e off he => ?_⟩
  rw [ha] at he
  obtain rfl := Option.some.inj he
  obtain ⟨-, -, hsent⟩ := h
  exact hsent hw

/-- An issuable word whose effect is an access adds the request that it asks with, and does nothing else. -/
theorem issueWord_asks {i : Instr} {s v : State} {a : Word} {size : Nat} {bankOnly : Bool} {kind : ReqKind} {build : Req → Req} {effect : State → State → Effect}
    (hi : issuable s i = true) (hcause : addressCause s a size bankOnly = none) (heff : effect s (issued s i) = access s v a size bankOnly kind build)
    (hk : ∀ n, (build (newReq s kind a size)).kind ≠ .wait n) :
    ∃ c x u, resolveAddr s (curUnit s.cur) a.toNat = some c ∧ issueWord i s effect = .next u ∧ AddsAsk v u ((build (newReq s kind a size)).at c) x ∧
      headsFor v (build (newReq s kind a size)) x c := by
  obtain ⟨c, hc⟩ := resolves_of_addressCause hcause
  obtain ⟨x, hadds, hheads⟩ := addReq_addsAsk (s := v) hk c
  refine ⟨c, x, _, hc, issueWord_noFlags hi (heff.trans ?_), hadds, hheads⟩
  simp only [access, hcause, hc]

/-! ### Loads (R161 to R164) -/

/-- The request of a load, with its destination. -/
theorem loadOp_sends {i : Instr} {s : State} {a : BitVec 6} {v off : Word} {size : Nat} (hi : issuable s i = true) (ha : srcVal s a = some v)
    (hcause : addressCause s (v + off) size false = none) (d : BitVec 6) (signed : Bool) :
    ∃ u, loadOp i s d a off size signed = .next u ∧
      sends s u (fun q => q.kind = .load signed ∧ q.size = size ∧ q.dest = Claims.replyTo s d ∧ aimed s (v + off) q ∧ under s (v + off) q) := by
  obtain ⟨hframe, hdest⟩ := replyDest_spec s (issued s i) d
  obtain ⟨c, x, u, hc, hu, hadds, hheads⟩ := issueWord_asks (kind := .load signed) (v := (replyDest s (issued s i) d).1)
    (build := fun q => { q with dest := (replyDest s (issued s i) d).2.1, tid := (replyDest s (issued s i) d).2.2 })
    (effect := fun s0 s1 => match srcVal s0 a with
      | none => .done (writeDst s1 d none) 0
      | some v => access s0 (replyDest s0 s1 d).1 (v + off) size false (.load signed) (fun q => { q with dest := (replyDest s0 s1 d).2.1, tid := (replyDest s0 s1 d).2.2 }))
    hi hcause (by simp only [ha]) nofun
  have hx : XlateFrame s (replyDest s (issued s i) d).1 := (issued_xlate s i).trans (replyDest_xlate _ _ _)
  have hview : x.kind = .load signed ∧ x.size = size ∧ x.dest = (replyDest s (issued s i) d).2.1 := by
    have hs := hadds.same
    refine ⟨(hs.view Req.kind).trans ?_, (hs.view Req.size).trans ?_, (hs.view Req.dest).trans ?_⟩
    all_goals cases c <;> rfl
  obtain ⟨hkind, hsize, hd⟩ := hview
  refine ⟨u, hu, hadds.sends ((issued_sendFrame s i).trans hframe) (Req.at_wave _ c) (isSentBy_at ⟨rfl, rfl, rfl, rfl⟩ c) ⟨hkind, hsize, hd.trans hdest, ?_, ?_⟩⟩
  · exact aimed_of_headsFor hc hx rfl rfl hheads hadds.same
  · exact under_of_headsFor hc rfl hheads hadds.same

/-- A load without its address sends nothing, and its result is absent (R69). -/
theorem loadOp_absent {i : Instr} {s : State} {a : BitVec 6} (hi : issuable s i = true) (ha : srcVal s a = none) (d : BitVec 6) (off : Word) (size : Nat) (signed : Bool) :
    loadOp i s d a off size signed = .next (writeDst (issued s i) d none) :=
  issueWord_noFlags hi (by simp only [ha])

theorem rawDetail_holds {b : Bool} (h : rawDetail b = []) : b = true := by
  cases b
  · exact absurd h (by simp [rawDetail])
  · rfl

/-- A narrow load is legal for the sizes of a byte, a half and a word alone (R115, R163). -/
theorem narrow_of_issuable {s : State} {i : Instr} {c : BitVec 6} (hi : issuable s i = true) (hd : (wordSig i).details = rawDetail (c.toNat < 3)) : c.toNat < 3 := by
  have h := details_of_sig hi
  rw [hd] at h
  exact of_decide_eq_true (rawDetail_holds h)

theorem exec_narrow_load_sends {s : State} {t d a c : BitVec 6} {sign : Bool} {i : Instr} {v : Word} (h : (i = .ldS t d a c ∧ sign = true) ∨ (i = .ldZ t d a c ∧ sign = false))
    (hi : issuable s i = true) (ha : srcVal s a = some v) (hcause : addressCause s v (2 ^ c.toNat) false = none) :
    c.toNat < 3 ∧ ∃ u, exec i s = .next u ∧ sends s u (fun q => q.kind = .load sign ∧ q.size = 2 ^ c.toNat ∧ q.dest = Claims.replyTo s d ∧ aimed s v q ∧ under s v q) := by
  have h0 : v + 0 = v := BitVec.add_zero v
  have hop := loadOp_sends (off := 0) hi ha (by rwa [h0]) d sign
  rw [h0] at hop
  obtain ⟨rfl, rfl⟩ | ⟨rfl, rfl⟩ := h
  · exact ⟨narrow_of_issuable hi rfl, hop⟩
  · exact ⟨narrow_of_issuable hi rfl, hop⟩

/-! ### ldg (R97, R164) -/

/-- The wave fields of a request that a hold may have changed. -/
theorem wave_of_sameAsk {q x : Req} {seq pre succ : BitVec 8} (h : SameAsk q x) (hq : q.wave = some ⟨seq, pre, succ⟩) :
    ∃ w, x.wave = some w ∧ w.seq = seq ∧ w.succ = succ ∧ (w.pred = pre ∨ w.pred = 0xFF) := by
  obtain hw | ⟨w, hw, hx⟩ := h.wave
  · exact ⟨_, hw.trans hq, rfl, rfl, .inl rfl⟩
  · rw [hq] at hw
    obtain rfl := Option.some.inj hw
    exact ⟨_, hx, rfl, rfl, .inr rfl⟩

theorem exec_ldg_sends {s : State} {t d a : BitVec 6} {seq pre succ : BitVec 8} {v : Word} (hi : issuable s (.ldg t d a seq pre succ) = true) (ha : srcVal s a = some v)
    (hcause : addressCause s v 8 false = none) :
    ∃ u, exec (.ldg t d a seq pre succ) s = .next u ∧ sendsInChain s u (fun q => q.kind = .load false ∧ q.size = 8 ∧ q.dest = Claims.replyTo s d ∧ aimed s v q ∧
      ∃ w, q.wave = some w ∧ w.seq = seq ∧ w.succ = succ ∧ (w.pred = pre ∨ w.pred = 0xFF)) := by
  obtain ⟨hframe, hdest⟩ := replyDest_spec s (issued s (.ldg t d a seq pre succ)) d
  obtain ⟨c, x, u, hc, hu, hadds, hheads⟩ := issueWord_asks (kind := .load false) (i := .ldg t d a seq pre succ)
    (v := (replyDest s (issued s (.ldg t d a seq pre succ)) d).1)
    (build := fun q => { q with wave := some ⟨seq, pre, succ⟩, dest := (replyDest s (issued s (.ldg t d a seq pre succ)) d).2.1, tid := (replyDest s (issued s (.ldg t d a seq pre succ)) d).2.2 })
    (effect := fun s0 s1 => match srcVal s0 a with
      | none => absentAccess s0 (replyDest s0 s1 d).1 a false ⟨seq, pre, succ⟩ (replyDest s0 s1 d).2.1 (replyDest s0 s1 d).2.2
      | some v => access s0 (replyDest s0 s1 d).1 v 8 false (.load false)
          (fun q => { q with wave := some ⟨seq, pre, succ⟩, dest := (replyDest s0 s1 d).2.1, tid := (replyDest s0 s1 d).2.2 }))
    hi hcause (by simp only [ha]) nofun
  have hx : XlateFrame s (replyDest s (issued s (.ldg t d a seq pre succ)) d).1 := (issued_xlate s _).trans (replyDest_xlate _ _ _)
  have hs := hadds.same
  refine ⟨u, hu, hadds.sendsInChain ((issued_sendFrame s _).trans hframe) (isSentBy_at ⟨rfl, rfl, rfl, rfl⟩ c)
    ⟨(hs.view Req.kind).trans ?_, (hs.view Req.size).trans ?_, (hs.view Req.dest).trans (Eq.trans ?_ hdest), aimed_of_headsFor hc hx rfl rfl hheads hs,
      wave_of_sameAsk hs (Req.at_wave _ c)⟩⟩
  all_goals cases c <;> rfl

/-- An absent request that has a destination, or a PRED request to have one from, is added under the next identity (R99, R164). -/
theorem sendAbsent_addsAsk {s : State} {q : Req} {t : Option Target} {p : Option PredRef} (h : t = none → p ≠ none) : ∃ x, AddsAsk s (sendAbsent s q t p) q x := by
  cases t with
  | some t => exact ⟨_, sent_addsAsk (y := { q with pred := p, since := s.tb.toNat, target := t, scope := targetScope q.src t, page := 2 ^ 52, pageSize := 1 }) (.of_asked rfl rfl)⟩
  | none =>
    cases p with
    | none => exact absurd rfl (h rfl)
    | some p =>
      generalize hy : ({ q with pred := some p, since := s.tb.toNat, scope := 3, stage := .after p.req } : Req) = y
      have hsame : SameAsk q y := by rw [← hy]; exact .of_asked rfl rfl
      have he : sendAbsent s q none (some p) = noteChain ({ s with nextReq := s.nextReq + 1 }.setReq s.nextReq y) s.nextReq y := by
        rw [← hy]
        rfl
      have htold : requestsTold s ({ s with nextReq := s.nextReq + 1 }.setReq s.nextReq y) s.nextReq := requestsTold_setReq s _ y
      rw [he]
      refine ⟨y, (AskFrame.of_requests s _ _).trans (noteChain_asks _ _ _), ?_, ?_, hsame, noteChain_told htold y, fun hq => ?_⟩
      · rw [noteChain_nextReq]
        rfl
      · rw [noteChain_self]
        exact mfind_mset_same _ _ _
      · rw [noteChain_unchained (hsame.wave_none hq)]
        exact htold

/-- A destination is unknown only while it is that of a PRED request (R164). -/
theorem absentPred_of_absentTarget {s : State} {m : Access} {p : BitVec 8} (h : absentTarget s m p = none) : absentPred s p ≠ none := by
  unfold absentTarget at h
  split at h
  next => exact absurd h (by simp)
  next r _ hr => rw [hr]; simp
  next => exact absurd h (by simp)

/-- A wave-ordered access without a source sends its absent request to keep its chain (R164). -/
theorem absentAccess_addsAsk (s v : State) (a : BitVec 6) (write : Bool) (w : Wave) (dest : Dest) (tid : Nat) :
    ∃ x u, absentAccess s v a write w dest tid = .done u 0 ∧ AddsAsk v u { newReq s .absent (valOf s a) 8 with wave := some w, dest := dest, tid := tid } x := by
  obtain ⟨x, hx⟩ := sendAbsent_addsAsk (s := v) (q := { newReq s .absent (valOf s a) 8 with wave := some w, dest := dest, tid := tid })
    (t := absentTarget s { addr := a, off := 0, atomic := false, pred := some w.pred, write := write } w.pred) (p := absentPred s w.pred) absentPred_of_absentTarget
  exact ⟨x, _, rfl, hx⟩

theorem exec_ldg_absent {s : State} {t d a : BitVec 6} {seq pre succ : BitVec 8} (hi : issuable s (.ldg t d a seq pre succ) = true) (ha : srcVal s a = none) :
    ∃ u, exec (.ldg t d a seq pre succ) s = .next u ∧ sendsInChain s u (fun q => q.kind = .absent ∧ q.dest = Claims.replyTo s d) := by
  obtain ⟨hframe, hdest⟩ := replyDest_spec s (issued s (.ldg t d a seq pre succ)) d
  obtain ⟨x, u, hu, hadds⟩ := absentAccess_addsAsk s (replyDest s (issued s (.ldg t d a seq pre succ)) d).1 a false ⟨seq, pre, succ⟩
    (replyDest s (issued s (.ldg t d a seq pre succ)) d).2.1 (replyDest s (issued s (.ldg t d a seq pre succ)) d).2.2
  refine ⟨u, ?_, hadds.sendsInChain ((issued_sendFrame s _).trans hframe) ⟨rfl, rfl, rfl, rfl⟩ ⟨hadds.same.view Req.kind, (hadds.same.view Req.dest).trans hdest⟩⟩
  rw [show exec (.ldg t d a seq pre succ) s = execLdg t d a seq pre succ s from rfl, execLdg]
  exact issueWord_noFlags hi (by simp only [ha, hu])

/-- Settles O33: a load with its address adds its one request to the state that its issue leaves; without it, ldg adds an absent one and the others none. -/
theorem loadsSendOneRequest : Obligations.LoadsSendOneRequest := by
  unfold Obligations.LoadsSendOneRequest
  refine ⟨fun t d a s ha => ⟨fun n hi => loadOp_absent hi ha _ _ _ _, fun c hi => loadOp_absent hi ha _ _ _ _, fun c hi => loadOp_absent hi ha _ _ _ _,
      fun seq pre succ hi => exec_ldg_absent hi ha⟩,
    fun t d a s v ha => ⟨fun n hi hcause => loadOp_sends hi ha hcause d false, fun c sign i h hi hcause => exec_narrow_load_sends h hi ha hcause,
      fun seq pre succ hi hcause => exec_ldg_sends hi ha hcause⟩⟩

end Sys2Proof.Machine
end

section
/-! PROOFS. Addresses (O36): the cause that a memory word raises at issue, what an address names, and the words that convert one (R73, R74, R161, R163, R172). -/

namespace Sys2Proof.Machine
open Sys2Proof.Claims

/-! ### The cause of an address (R73, R74, R161) -/

theorem addressCause_noWindow {s : State} {v : Word} (h : resolveAddr s (curUnit s.cur) v.toNat = none) (n : Nat) (bankOnly : Bool) :
    addressCause s v n bankOnly = some 0x080 := by
  rw [addressCause, h]

theorem addressCause_misaligned {s : State} {v : Word} {n : Nat} {c : AddrClass} (h : resolveAddr s (curUnit s.cur) v.toNat = some c) (hv : v.toNat % n ≠ 0) (bankOnly : Bool) :
    addressCause s v n bankOnly = some 0x081 := by
  simp only [addressCause, h, if_pos hv]

theorem addressCause_global {s : State} {v : Word} {n va : Nat} (h : resolveAddr s (curUnit s.cur) v.toNat = some (.global va)) (hv : v.toNat % n = 0) (bankOnly : Bool) :
    addressCause s v n bankOnly = if bankOnly then some 0x082 else none := by
  simp only [addressCause, h, hv, ne_eq, not_true_eq_false, if_false]

theorem addressCause_bank {s : State} {v : Word} {n e off : Nat} (h : resolveAddr s (curUnit s.cur) v.toNat = some (.bank e off)) (hv : v.toNat % n = 0) (bankOnly : Bool) :
    addressCause s v n bankOnly = none := by
  simp only [addressCause, h, hv, ne_eq, not_true_eq_false, if_false]

/-- The causes of an address are no translation causes, so that a retry of the word pays again (R352). -/
theorem addressCause_noTranslation {s : State} {v : Word} {n k : Nat} {bankOnly : Bool} (h : addressCause s v n bankOnly = some k) : k / 64 ≠ 3 := by
  cases hc : resolveAddr s (curUnit s.cur) v.toNat with
  | none =>
    rw [addressCause_noWindow hc] at h
    obtain rfl := Option.some.inj h
    decide
  | some c =>
    by_cases hv : v.toNat % n = 0
    case neg =>
      rw [addressCause_misaligned hc hv] at h
      obtain rfl := Option.some.inj h
      decide
    case pos =>
      cases c with
      | bank e off =>
        rw [addressCause_bank hc hv] at h
        exact absurd h (by simp)
      | global va =>
        rw [addressCause_global hc hv] at h
        split at h
        · obtain rfl := Option.some.inj h
          decide
        · exact absurd h (by simp)

/-! ### The cause that a word raises at issue (R163) -/

theorem keepPaid_of_noTranslation (s : State) {k : Nat} (h : k / 64 ≠ 3) : keepPaid s k = s := by
  unfold keepPaid
  split
  · rfl
  · rw [if_neg fun hk => h hk.1]

/-- An issuable word that ends in a cause, no translation cause, raises it in the state in which it has paid. -/
theorem issueWord_cause {i : Instr} {s : State} {k : Nat} {a info : Word} {effect : State → State → Effect} (hi : issuable s i = true)
    (h : effect s (issued s i) = .cause k a info) (hk : k / 64 ≠ 3) : issueWord i s effect = .next (causeAt (paid s i) k a info) := by
  rw [issueWord_issuable hi, h]
  simp only [conclude, keepPaid_of_noTranslation _ hk, paid]

/-- An issuable word whose effect is an access at an address with a cause raises that cause. -/
theorem issueWord_accessCause {i : Instr} {s v : State} {a : Word} {k n : Nat} {bankOnly : Bool} {kind : ReqKind} {build : Req → Req} {effect : State → State → Effect}
    (hi : issuable s i = true) (h : effect s (issued s i) = access s v a n bankOnly kind build) (hk : addressCause s a n bankOnly = some k) :
    issueWord i s effect = .next (causeAt (paid s i) k a 0) :=
  issueWord_cause hi (h.trans (by simp only [access, hk])) (addressCause_noTranslation hk)

section Operations

variable {i : Instr} {s : State} {a b d : BitVec 6} {v x off w : Word} {k n : Nat}

theorem loadOp_cause (hi : issuable s i = true) (ha : srcVal s a = some v) (hw : v + off = w) (hk : addressCause s w n false = some k) (signed : Bool) :
    loadOp i s d a off n signed = .next (causeAt (paid s i) k w 0) :=
  issueWord_accessCause (v := (replyDest s (issued s i) d).1) (n := n) (kind := .load signed) hi (by simp only [ha, hw]; rfl) hk

theorem storeOp_cause (hi : issuable s i = true) (hd : srcVal s d = some x) (ha : srcVal s a = some v) (hw : v + off = w) (hk : addressCause s w n false = some k) :
    storeOp i s d a off n = .next (causeAt (paid s i) k w 0) :=
  issueWord_accessCause (v := issued s i) (n := n) (kind := .store) hi (by simp only [ha, hd, hw]; rfl) hk

theorem tagOp_cause (hi : issuable s i = true) (ha : srcVal s a = some v) (hk : addressCause s v 8 true = some k) (kind : ReqKind) :
    tagOp i s a kind = .next (causeAt (paid s i) k v 0) :=
  issueWord_accessCause (v := issued s i) (kind := kind) hi (by simp only [ha]; rfl) hk

theorem atomicOp_cause (hi : issuable s i = true) (hb : srcVal s b = some x) (ha : srcVal s a = some v) (hk : addressCause s v 8 true = some k) (op : AtomicOp)
    (cmp : State → Word) : atomicOp i s d a b op cmp = .next (causeAt (paid s i) k v 0) :=
  issueWord_accessCause (v := (replyDest s (issued s i) d).1) (kind := .atomic op) hi (by simp only [ha, hb]; rfl) hk

theorem execLdg_cause {t : BitVec 6} {seq pre succ : BitVec 8} (hi : issuable s (.ldg t d a seq pre succ) = true) (ha : srcVal s a = some v)
    (hk : addressCause s v 8 false = some k) : execLdg t d a seq pre succ s = .next (causeAt (paid s (.ldg t d a seq pre succ)) k v 0) :=
  issueWord_accessCause (v := (replyDest s (issued s (.ldg t d a seq pre succ)) d).1) (kind := .load false) hi (by simp only [ha]; rfl) hk

theorem execStg_cause {t : BitVec 6} {seq pre succ : BitVec 8} (hi : issuable s (.stg t d a seq pre succ) = true) (hd : srcVal s d = some x) (ha : srcVal s a = some v)
    (hk : addressCause s v 8 false = some k) : execStg t d a seq pre succ s = .next (causeAt (paid s (.stg t d a seq pre succ)) k v 0) :=
  issueWord_accessCause (v := issued s (.stg t d a seq pre succ)) (kind := .store) hi (by simp only [ha, hd]; rfl) hk

theorem execAcc_cause {t : BitVec 6} (hi : issuable s (.acc t a b) = true) (hb : srcVal s b = some x) (ha : srcVal s a = some v)
    (hk : addressCause s v 8 true = some k) : execAcc t a b s = .next (causeAt (paid s (.acc t a b)) k v 0) :=
  issueWord_accessCause (v := issued s (.acc t a b)) (kind := .contribute) hi (by simp only [ha, hb]; rfl) hk

theorem execBarArrive_cause {t : BitVec 6} (hi : issuable s (.barArrive t a b) = true) (ha : srcVal s a = some v)
    (hk : addressCause s v 8 true = some k) : execBarArrive t a b s = .next (causeAt (paid s (.barArrive t a b)) k v 0) :=
  issueWord_accessCause (v := issued s (.barArrive t a b)) (kind := .arrive (srcVal s b).isSome) hi (by simp only [ha]; rfl) hk

theorem execBarWait_cause {t : BitVec 6} (hi : issuable s (.barWait t a b) = true) (ha : srcVal s a = some v)
    (hk : addressCause s v 8 true = some k) : execBarWait t a b s = .next (causeAt (paid s (.barWait t a b)) k v 0) :=
  issueWord_accessCause (v := issued s (.barWait t a b)) (kind := .wait 0) hi (by simp only [ha]; rfl) hk

end Operations

/-- Both operands of a word are present where it makes an access of the second. -/
theorem operands_of_access {o p : Option Word} {f : Word → Word × Nat × Bool} {y : Word × Nat × Bool} (h : (if o.isSome then p.map f else none) = some y) :
    ∃ x v, o = some x ∧ p = some v ∧ f v = y := by
  cases o with
  | none => exact absurd h (by simp)
  | some x =>
    obtain ⟨v, hp, hv⟩ := Option.map_eq_some_iff.mp h
    exact ⟨x, v, rfl, hp, hv⟩

/-- A memory word whose address has a cause raises it, and does nothing else (R163). -/
theorem exec_accessCause {i : Instr} {s : State} {v : Word} {n k : Nat} {bankOnly : Bool} (h : accessOf s i = some (v, n, bankOnly)) (hi : issuable s i = true)
    (hk : addressCause s v n bankOnly = some k) : exec i s = .next (causeAt (paid s i) k v 0) := by
  unfold accessOf at h
  split at h
  case h_1 => obtain ⟨y, ha, hy⟩ := Option.map_eq_some_iff.mp h; cases hy; change execLd _ _ _ _ _ = _; exact loadOp_cause hi ha rfl hk _
  case h_2 => obtain ⟨x, y, hd, ha, hy⟩ := operands_of_access h; cases hy; change execSt _ _ _ _ _ = _; exact storeOp_cause hi hd ha rfl hk
  case h_3 => obtain ⟨y, ha, hy⟩ := Option.map_eq_some_iff.mp h; cases hy; change execLdS _ _ _ _ _ = _; exact loadOp_cause hi ha (BitVec.add_zero _) hk _
  case h_4 => obtain ⟨y, ha, hy⟩ := Option.map_eq_some_iff.mp h; cases hy; change execLdZ _ _ _ _ _ = _; exact loadOp_cause hi ha (BitVec.add_zero _) hk _
  case h_5 => obtain ⟨x, y, hd, ha, hy⟩ := operands_of_access h; cases hy; change execStNarrow _ _ _ _ _ = _; exact storeOp_cause hi hd ha (BitVec.add_zero _) hk
  case h_6 => obtain ⟨y, ha, hy⟩ := Option.map_eq_some_iff.mp h; cases hy; change execLdg _ _ _ _ _ _ _ = _; exact execLdg_cause hi ha hk
  case h_7 => obtain ⟨x, y, hd, ha, hy⟩ := operands_of_access h; cases hy; change execStg _ _ _ _ _ _ _ = _; exact execStg_cause hi hd ha hk
  case h_8 => obtain ⟨x, y, hb, ha, hy⟩ := operands_of_access h; cases hy; change execAcc _ _ _ _ = _; exact execAcc_cause hi hb ha hk
  case h_9 => obtain ⟨y, ha, hy⟩ := Option.map_eq_some_iff.mp h; cases hy; change execTfull _ _ _ = _; exact tagOp_cause hi ha hk _
  case h_10 => obtain ⟨y, ha, hy⟩ := Option.map_eq_some_iff.mp h; cases hy; change execTempty _ _ _ = _; exact tagOp_cause hi ha hk _
  case h_11 => obtain ⟨y, ha, hy⟩ := Option.map_eq_some_iff.mp h; cases hy; change execBarArrive _ _ _ _ = _; exact execBarArrive_cause hi ha hk
  case h_12 => obtain ⟨y, ha, hy⟩ := Option.map_eq_some_iff.mp h; cases hy; change execBarWait _ _ _ _ = _; exact execBarWait_cause hi ha hk
  case h_13 => obtain ⟨x, y, hb, ha, hy⟩ := operands_of_access h; cases hy; change execAadd _ _ _ _ _ = _; exact atomicOp_cause hi hb ha hk .add (fun _ => 0)
  case h_14 => obtain ⟨x, y, hb, ha, hy⟩ := operands_of_access h; cases hy; change execAaddf _ _ _ _ _ = _; exact atomicOp_cause hi hb ha hk .addf (fun _ => 0)
  case h_15 => obtain ⟨x, y, hb, ha, hy⟩ := operands_of_access h; cases hy; change execAmin _ _ _ _ _ = _; exact atomicOp_cause hi hb ha hk .min (fun _ => 0)
  case h_16 => obtain ⟨x, y, hb, ha, hy⟩ := operands_of_access h; cases hy; change execAmax _ _ _ _ _ = _; exact atomicOp_cause hi hb ha hk .max (fun _ => 0)
  case h_17 => obtain ⟨x, y, hb, ha, hy⟩ := operands_of_access h; cases hy; change execAminu _ _ _ _ _ = _; exact atomicOp_cause hi hb ha hk .minu (fun _ => 0)
  case h_18 => obtain ⟨x, y, hb, ha, hy⟩ := operands_of_access h; cases hy; change execAmaxu _ _ _ _ _ = _; exact atomicOp_cause hi hb ha hk .maxu (fun _ => 0)
  case h_19 => obtain ⟨x, y, hb, ha, hy⟩ := operands_of_access h; cases hy; change execAand _ _ _ _ _ = _; exact atomicOp_cause hi hb ha hk .and (fun _ => 0)
  case h_20 => obtain ⟨x, y, hb, ha, hy⟩ := operands_of_access h; cases hy; change execAor _ _ _ _ _ = _; exact atomicOp_cause hi hb ha hk .or (fun _ => 0)
  case h_21 => obtain ⟨x, y, hb, ha, hy⟩ := operands_of_access h; cases hy; change execAxch _ _ _ _ _ = _; exact atomicOp_cause hi hb ha hk .xchg (fun _ => 0)
  case h_22 => obtain ⟨x, y, hb, ha, hy⟩ := operands_of_access h; cases hy; change execAcas _ _ _ _ _ = _; exact atomicOp_cause hi hb ha hk .cas _
  case h_23 => exact absurd h (by simp)

/-! ### What an address names (R73) -/

section Windows

variable {s : State} {e v : Nat}

theorem window_div {h v : Nat} (hv : v < 2 ^ 52) : (h * 2 ^ 52 + v) / 2 ^ 52 = h := by omega

theorem window_mod {h v : Nat} (hv : v < 2 ^ 52) : (h * 2 ^ 52 + v) % 2 ^ 52 = v := by omega

theorem resolveAddr_global (u : UnitId) (hv : v < 2 ^ 52) : resolveAddr s u v = some (.global v) := by
  simp only [resolveAddr, Nat.div_eq_of_lt hv, if_true]

theorem resolveAddr_own (hv : v < 0x60000) : resolveAddr s (.elem e) (0xFF0 * 2 ^ 52 + v) = some (.bank e v) := by
  have h52 : v < 2 ^ 52 := by omega
  simp only [resolveAddr, window_div h52, window_mod h52]
  exact if_pos hv

theorem resolveAddr_pastOwn (hv : 0x60000 ≤ v) (h52 : v < 2 ^ 52) : resolveAddr s (.elem e) (0xFF0 * 2 ^ 52 + v) = none := by
  simp only [resolveAddr, window_div h52, window_mod h52]
  exact if_neg (Nat.not_lt.mpr hv)

theorem resolveAddr_own_seq (hv : v < 0x60000) (g : Nat) : resolveAddr s (.seq g) (0xFF0 * 2 ^ 52 + v) = none := by
  have h52 : v < 2 ^ 52 := by omega
  unfold resolveAddr
  rw [window_div h52]
  rfl

theorem resolveAddr_grove {m : Nat} (hm : m < 128) (hv : v < 0x60000) :
    resolveAddr s (.elem e) (0xFF1 * 2 ^ 52 + m * 0x60000 + v) = some (.bank (mElem (groveOf e) m) v) := by
  have h52 : m * 0x60000 + v < 2 ^ 52 := by omega
  have hlt : m * 0x60000 + v < 128 * elemBytes := by unfold elemBytes; omega
  have hdiv : (m * 0x60000 + v) / elemBytes = m := by unfold elemBytes; omega
  have hmod : (m * 0x60000 + v) % elemBytes = v := by unfold elemBytes; omega
  rw [Nat.add_assoc]
  simp only [resolveAddr, window_div h52, window_mod h52, hdiv, hmod, if_pos hlt]
  rfl

theorem resolveAddr_region {j x g : Nat} (hg : (unitRegion s (.elem e))[j]? = some g) (hx : x < 256) (hv : v < 0x60000) (hj : j < 2 ^ 20) :
    resolveAddr s (.elem e) (0xFF2 * 2 ^ 52 + (j * 256 + x) * 0x60000 + v) = some (.bank (elemAt g x) v) := by
  have h52 : (j * 256 + x) * 0x60000 + v < 2 ^ 52 := by omega
  have hgrove : ((j * 256 + x) * 0x60000 + v) / (256 * elemBytes) = j := by unfold elemBytes; omega
  have helem : ((j * 256 + x) * 0x60000 + v) / elemBytes % 256 = x := by unfold elemBytes; omega
  have hmod : ((j * 256 + x) * 0x60000 + v) % elemBytes = v := by unfold elemBytes; omega
  rw [Nat.add_assoc]
  simp only [resolveAddr, window_div h52, window_mod h52, hgrove, helem, hmod, hg]
  rfl

theorem resolveAddr_nothing (u : UnitId) {h : Nat} (h0 : h ≠ 0) (h1 : h ≠ 0xFF0) (h2 : h ≠ 0xFF1) (h3 : h ≠ 0xFF2) (hv : v < 2 ^ 52) :
    resolveAddr s u (h * 2 ^ 52 + v) = none := by
  simp only [resolveAddr, window_div hv, if_neg h0, if_neg h1, if_neg h2, if_neg h3]

end Windows

/-! ### Conversions (R172) -/

section Conversions

variable {i : Instr} {s : State} {a d : BitVec 6} {v : Word}

theorem convert_valid (hi : issuable s i = true) (ha : srcVal s a = some v) {ok : State → Word → Bool} (hok : ok s v = true) (f : Word → Word) :
    convert i s d a ok f = .next (writeDst (issued s i) d (some (f v))) :=
  issueWord_noFlags hi (by simp only [ha, hok, if_true])

theorem convert_invalid (hi : issuable s i = true) (ha : srcVal s a = some v) {ok : State → Word → Bool} (hok : ok s v = false) (f : Word → Word) :
    convert i s d a ok f = .next (causeAt (paid s i) 0x080 v 0) :=
  issueWord_cause hi (by simp only [ha, hok, Bool.false_eq_true, if_false]) (by decide)

end Conversions

theorem spaceBase_lt (n : Nat) : spaceBase n < 2 ^ 64 := by
  unfold spaceBase
  split <;> decide

theorem inSpace_eq (s : State) (n : Nat) (v : Word) : inSpace s n v = decide (spaceBase n ≤ v.toNat ∧ v.toNat < spaceBase n + spaceSize s n) := by
  rw [inSpace, ← Bool.decide_and]
  exact decide_eq_decide.mpr (by omega)

theorem add_spaceBase (v : Word) (n : Nat) : v + BitVec.ofNat 64 (spaceBase n) = BitVec.ofNat 64 (spaceBase n + v.toNat) := by
  rw [Nat.add_comm, BitVec.ofNat_add, BitVec.ofNat_toNat, BitVec.setWidth_eq]

theorem sub_spaceBase {v : Word} {n : Nat} (h : spaceBase n ≤ v.toNat) : v - BitVec.ofNat 64 (spaceBase n) = BitVec.ofNat 64 (v.toNat - spaceBase n) := by
  have hbase := spaceBase_lt n
  apply BitVec.eq_of_toNat_eq
  rw [BitVec.toNat_sub, BitVec.toNat_ofNat, BitVec.toNat_ofNat]
  have := v.isLt
  omega

theorem execAin_present {t : BitVec 6} {k : BitVec 3} {a b : BitVec 6} {s : State} {v : Word} (hi : issuable s (.ain t k a b) = true) (ha : srcVal s a = some v) :
    execAin t k a b s = .next (setPred (issued s (.ain t k a b)) k.toNat (inSpace s b.toNat v)) :=
  issueWord_noFlags hi (by simp only [ha])

/-- Settles O36: the three causes of an address, each raised in the state in which the word has paid; the windows by division of the address; conversions by the bounds of their space. -/
theorem addressesAndTheirCauses : Obligations.AddressesAndTheirCauses := by
  unfold Obligations.AddressesAndTheirCauses
  refine ⟨⟨fun i s v n bankOnly k h hi hk => exec_accessCause h hi hk, fun s v n bankOnly => ⟨fun h => addressCause_noWindow h n bankOnly,
      fun c h hv => addressCause_misaligned h hv bankOnly, fun va h hv => addressCause_global h hv bankOnly, fun e off h hv => addressCause_bank h hv bankOnly⟩⟩,
    fun s e v => ⟨resolveAddr_global _, resolveAddr_own, resolveAddr_pastOwn, resolveAddr_own_seq, fun m => resolveAddr_grove, fun j x g => resolveAddr_region,
      fun h => resolveAddr_nothing _⟩,
    fun t d a b s v ha => ⟨fun hi hv => ?_, fun hi hv => ?_, fun hi hlo hhi => ?_, fun hi hv => ?_, fun k hi => ?_⟩⟩
  · rw [← add_spaceBase]
    exact convert_valid hi ha (ok := fun s v => decide (v.toNat < spaceSize s b.toNat)) (decide_eq_true hv) _
  · exact convert_invalid hi ha (ok := fun s v => decide (v.toNat < spaceSize s b.toNat)) (decide_eq_false (Nat.not_lt.mpr hv)) _
  · rw [← sub_spaceBase hlo]
    exact convert_valid hi ha (ok := fun s v => inSpace s b.toNat v) ((inSpace_eq s _ v).trans (decide_eq_true ⟨hlo, hhi⟩)) _
  · exact convert_invalid hi ha (ok := fun s v => inSpace s b.toNat v) ((inSpace_eq s _ v).trans (decide_eq_false hv)) _
  · rw [← inSpace_eq]
    exact execAin_present hi ha

end Sys2Proof.Machine
end

section
/-! PROOFS. Requests on their way (O43): admission at a port, the release of a held request, the table walk and the timeout of another module (R96 to R99, R340 to R342, R395). -/

namespace Sys2Proof.Machine
open Sys2Proof.Claims

/-! ### Admission (R96, R99, R402) -/

@[simp] theorem State.noteArrival_reqs (s : State) (e : Nat) : (s.noteArrival e).reqs = s.reqs := by
  unfold State.noteArrival
  split <;> rfl

@[simp] theorem State.noteArrival_port (s : State) (e p : Nat) : (s.noteArrival e).port p = s.port p := by
  unfold State.noteArrival
  split <;> rfl

@[simp] theorem State.noteArrival_staleRids (s : State) (e : Nat) : (s.noteArrival e).staleRids = s.staleRids := by
  unfold State.noteArrival
  split <;> rfl

theorem quiet_noteArrival (s : State) (e : Nat) : quiet s (s.noteArrival e) := (noteArrival_spec s e).2.1

theorem quiet_modPort (s : State) (p : Nat) (f : Port → Port) : quiet s (s.modPort p f) := quiet_of_fields rfl rfl rfl rfl rfl rfl rfl

theorem quiet_setReq (s : State) (r : Nat) (q : Req) : quiet s (s.setReq r q) := (setReq_asks s r q).quiet

theorem requestsKept_setReq {s v : State} (h : v.reqs = s.reqs) (r : Nat) (q : Req) : requestsKept s (v.setReq r q) r :=
  fun x hx => by rw [State.setReq, mfind_mset, if_neg hx, h]

/-- A request that joins its port's queue is told to its element, and to nothing else. -/
theorem joinPort_queues (s : State) (r : Nat) (q : Req) :
    ((joinPort s r q).port (portOf q.target)).queue = (s.port (portOf q.target)).queue ++ [r] ∧ mfind (joinPort s r q).reqs r = some { q with stage := .queued } ∧
      (∀ p, p ≠ portOf q.target → (joinPort s r q).port p = s.port p) ∧ requestsKept s (joinPort s r q) r ∧ quiet s (joinPort s r q) := by
  generalize hv : (s.modPort (portOf q.target) (fun p => { p with queue := p.queue ++ [r] })).setReq r { q with stage := .queued } = v
  have hport : ∀ p, v.port p = if p = portOf q.target then { s.port (portOf q.target) with queue := (s.port (portOf q.target)).queue ++ [r] } else s.port p := by
    rw [← hv]
    exact State.modPort_port s (portOf q.target) (fun p => { p with queue := p.queue ++ [r] })
  have hfind : mfind v.reqs r = some { q with stage := .queued } := by rw [← hv]; exact mfind_mset_same _ _ _
  have hkept : requestsKept s v r := by rw [← hv]; exact requestsKept_setReq rfl _ _
  have hquiet : quiet s v := by rw [← hv]; exact quiet_trans (quiet_modPort s _ _) (quiet_setReq _ _ _)
  have hself : (v.port (portOf q.target)).queue = (s.port (portOf q.target)).queue ++ [r] := by rw [hport, if_pos rfl]
  have hothers : ∀ p, p ≠ portOf q.target → v.port p = s.port p := fun p hp => by rw [hport, if_neg hp]
  rw [joinPort, hv]
  split
  next e off _ =>
    refine ⟨?_, ?_, fun p hp => ?_, fun x hx => ?_, quiet_trans hquiet (quiet_noteArrival v e)⟩
    · rw [State.noteArrival_port, hself]
    · rw [State.noteArrival_reqs, hfind]
    · rw [State.noteArrival_port, hothers p hp]
    · rw [State.noteArrival_reqs, hkept x hx]
  next => exact ⟨hself, hfind, hothers, hkept, hquiet⟩

theorem exec_requestAdmit {s : State} {r : Nat} {q : Req} (hq : mfind s.reqs r = some q) (hs : q.stage = .sent) (hp : pathBlocked s r q = false) (hroom : portRoom s r q = true)
    (hstop : portStopped s q = false) : exec (.requestAdmit r) s = .next (joinPort s r q) := by
  have hq' : s.req? r = some q := hq
  change execRequestAdmit r s = _
  simp only [execRequestAdmit, hq', hs, hp, hroom, hstop, Bool.false_eq_true, not_false_eq_true, and_self, if_true]

theorem exec_requestAdmit_waits {s : State} {r : Nat} {q : Req} (hq : mfind s.reqs r = some q) (h : pathBlocked s r q = true ∨ portRoom s r q = false ∨ portStopped s q = true) :
    exec (.requestAdmit r) s = .next s := by
  have hq' : s.req? r = some q := hq
  change execRequestAdmit r s = _
  simp only [execRequestAdmit, hq']
  rw [if_neg]
  rintro ⟨-, hp, hroom, hstop⟩
  obtain h | h | h := h
  · exact hp h
  · rw [h] at hroom
    exact absurd hroom (by decide)
  · exact hstop h

/-! ### The release of a held request (R98, R164) -/

/-- What a request that is sent again comes to, in its chain. -/
theorem sendReq_moves {s : State} {r : Nat} {q : Req} (hq : mfind s.reqs r = some q) :
    mfind (sendReq s r).reqs r = some (chainStage s q) ∧ requestsKept s (sendReq s r) r ∧ quiet s (sendReq s r) :=
  ⟨by rw [sendReq_find hq, if_pos rfl], fun x hx => by rw [sendReq_find hq, if_neg hx], (sendReq_asks s r).quiet⟩

section Chains

variable {s : State} {q : Req} {w : Wave} (hw : q.wave = some w) (hpred : w.pred ≠ 0xFF)
include hw hpred

theorem chainStage_samePort {p : Nat} {t : Target} (hq : q.pred = some ⟨p, some t⟩) (ht : portOf t = portOf q.target) : chainStage s q = { q with stage := .sent } := by
  simp only [chainStage, hw, if_neg hpred, hq, Option.map_some, ht, if_true]

theorem chainStage_unknown (hq : q.pred = none) : chainStage s q = { q with stage := .held } := by
  simp only [chainStage, hw, if_neg hpred, hq]

theorem chainStage_otherPort {p : Nat} {t : Option Target} (hq : q.pred = some ⟨p, t⟩) (ht : t.map portOf ≠ some (portOf q.target)) :
    chainStage s q = if performed s p = true then { q with stage := .sent, wave := some { w with pred := 0xFF } } else { q with stage := .after p } := by
  simp only [chainStage, hw, if_neg hpred, hq, if_neg ht]

end Chains

theorem exec_waveRequestRelease (s : State) (r : Nat) : exec (.waveRequestRelease r) s = .next (resendReq s r) := rfl

theorem resendReq_held {s : State} {r : Nat} {q : Req} (hq : mfind s.reqs r = some q) (hs : q.stage = .held) : resendReq s r = sendReq s r := by
  have hq' : s.req? r = some q := hq
  simp only [resendReq, hq', hs]

/-- A held request is sent as its chain allows. -/
theorem held_moves {s : State} {r : Nat} {q y : Req} (hq : mfind s.reqs r = some q) (hs : q.stage = .held) (hy : chainStage s q = y) :
    ∃ u, exec (.waveRequestRelease r) s = .next u ∧ mfind u.reqs r = some y ∧ requestsKept s u r ∧ quiet s u := by
  obtain ⟨hfind, hkept, hquiet⟩ := sendReq_moves hq
  exact ⟨_, (exec_waveRequestRelease s r).trans (congrArg _ (resendReq_held hq hs)), hfind.trans (congrArg _ hy), hkept, hquiet⟩

theorem resendReq_after {s : State} {r p : Nat} {q : Req} (hq : mfind s.reqs r = some q) (hs : q.stage = .after p) :
    resendReq s r = if q.destination.isSome = true then sendReq s r else if performed s p = true then s.setReq r { q with stage := .done 0 0 } else s := by
  have hq' : s.req? r = some q := hq
  simp only [resendReq, hq', hs]

/-- A request of a chain whose destination stays unknown ends once the one that it waits for is performed (R164). -/
theorem resendReq_unknown {s : State} {r p : Nat} {q : Req} (hq : mfind s.reqs r = some q) (hs : q.stage = .after p) (hd : q.destination = none) :
    requestsKept s (resendReq s r) r ∧ quiet s (resendReq s r) ∧ mfind (resendReq s r).reqs r = some (if performed s p = true then { q with stage := .done 0 0 } else q) := by
  rw [resendReq_after hq hs, hd, if_neg (by simp)]
  split
  · exact ⟨requestsKept_setReq rfl _ _, quiet_setReq _ _ _, mfind_mset_same _ _ _⟩
  · exact ⟨fun _ _ => rfl, (AskFrame.refl s).quiet, hq⟩

/-- A request that waits for one of another unit goes once that one is performed, as the first of its chain. -/
theorem resendReq_otherPort {s : State} {r p : Nat} {q : Req} {w : Wave} {t : Option Target} (hq : mfind s.reqs r = some q) (hs : q.stage = .after p) (hw : q.wave = some w)
    (hpred : w.pred ≠ 0xFF) (hd : q.destination.isSome = true) (hp : q.pred = some ⟨p, t⟩) (ht : t.map portOf ≠ some (portOf q.target)) :
    requestsKept s (resendReq s r) r ∧ quiet s (resendReq s r) ∧
      (performed s p = true → mfind (resendReq s r).reqs r = some { q with stage := .sent, wave := some { w with pred := 0xFF } }) ∧
      (performed s p = false → mfind (resendReq s r).reqs r = some q) := by
  obtain ⟨hfind, hkept, hquiet⟩ := sendReq_moves hq
  rw [chainStage_otherPort hw hpred hp ht] at hfind
  rw [resendReq_after hq hs, if_pos hd]
  refine ⟨hkept, hquiet, fun h => ?_, fun h => ?_⟩
  · rw [hfind, if_pos h]
  · rw [hfind, if_neg (by simp [h]), ← hs]

/-! ### The table walk (R340 to R342) -/

theorem retarget_tlb (s : State) (u : UnitId) (r : Nat) (t : Target) (page size g : Nat) : ((retarget s u r t page size).grove g).tlb = (s.grove g).tlb := by
  unfold retarget
  extract_lets known fix s1
  split
  · rfl
  · exact State.modGrove_keeps Grove.tlb rfl g
  · rfl

theorem sendReq_grove (s : State) (r g : Nat) : (sendReq s r).grove g = s.grove g := by
  unfold sendReq
  split <;> rfl

theorem patchBack_asks (s : State) (q : Req) (leaf : Word) (size : Nat) : AskFrame s (patchBack s q leaf size) := by
  unfold patchBack
  split
  · split
    · exact .refl s
    · exact .of_modGrove rfl
  · exact .refl s

theorem patchBack_reqs (s : State) (q : Req) (leaf : Word) (size : Nat) : (patchBack s q leaf size).reqs = s.reqs := by
  unfold patchBack
  split
  · split <;> rfl
  · rfl

theorem patchBack_tlb (s : State) (q : Req) (leaf : Word) (size g : Nat) : ((patchBack s q leaf size).grove g).tlb = (s.grove g).tlb := by
  unfold patchBack
  split
  · split
    · rfl
    · exact State.modGrove_keeps Grove.tlb rfl g
  · rfl

/-- A leaf that is installed stands in the TLB, at its end or in the place of the victim (R341). -/
theorem mem_tlbFill (s : State) (g victim : Nat) (t : TlbEntry) : t ∈ ((tlbFill s g victim t).grove g).tlb := by
  rw [tlbFill, State.modGrove_grove, if_pos rfl]
  dsimp only
  split
  · exact List.mem_append_right _ (List.mem_singleton_self t)
  next h => exact List.mem_set (by omega) t

/-- The translation of a request that is no void fills no further entry of the TLB. -/
theorem translated_tlb {s : State} {r : Nat} {q : Req} {leaf : Word} {size : Nat} {parts : List (Target × Nat)} (hq : mfind s.reqs r = some q)
    (hp : (requestParts s q leaf size).2 = .ok parts) (hk : ∀ n, q.kind ≠ .void n) (g : Nat) : ((translated s r leaf size).grove g).tlb = (s.grove g).tlb := by
  rw [translated_ok hq (Prod.ext (requestParts_same hk leaf size) hp), sendReq_grove, retarget_tlb]
  rfl

/-- A table walk that comes to a translation, by an entry of the TLB or by a walk, gives the request what its leaf says. -/
theorem translates_of_translated {s p : State} {r v : Nat} {q : Req} {leaf : Word} {size : Nat} (hq : mfind s.reqs r = some q) (hf : AskFrame s p) (hr : p.reqs = s.reqs)
    (he : exec (.tableWalk r v) s = .next (translated p r leaf size)) : translates s p r v q leaf size := by
  have hqp : mfind p.reqs r = some q := by rw [hr, hq]
  have hquiet := (hf.trans (translated_asks p r leaf size)).quiet
  refine ⟨fun k hk => ?_, fun parts hparts => ?_⟩
  · obtain ⟨hfind, hkept⟩ := translated_fails hqp hk
    exact ⟨_, he, hfind, fun x hx => by rw [hkept x hx, hr], hquiet⟩
  · obtain ⟨⟨x, hx, ht⟩, htold⟩ := translated_reaches hqp hparts
    refine ⟨_, x, he, hx, ht.sent, ht.target.trans (hf.leafTarget _ _ _ _), ht.same.view Req.addr, ht.same.view Req.data, ht.same.view Req.kind, ht.parts, ht.pl,
      fun hk => translated_tlb hqp hparts hk _, fun y hy => ?_, hquiet⟩
    obtain ⟨hnone, hsome⟩ := htold y hy
    rw [← hr]
    exact ⟨hnone, fun z hz hb => hsome z hz (notBehind_congr hr hb)⟩

section Walks

variable {s : State} {r : Nat} {q : Req} (hq : mfind s.reqs r = some q) (hs : q.stage = .xlate)
include hq hs

theorem exec_tableWalk_hit {t : TlbEntry} (ht : tlbFind s (groveOfUnit q.src) (unitCtx s q.src) q.addr = some t) (v : Nat) :
    exec (.tableWalk r v) s = .next (translated (patchBack s q t.leaf t.size) r t.leaf t.size) := by
  have hq' : s.req? r = some q := hq
  have hstage : ¬ q.stage ≠ .xlate := not_not_intro hs
  change execTableWalk r v s = _
  simp only [execTableWalk, hq', if_neg hstage, ht]

/-- A TLB entry gives its leaf without a walk. -/
theorem tableWalk_hit {t : TlbEntry} (ht : tlbFind s (groveOfUnit q.src) (unitCtx s q.src) q.addr = some t) (v : Nat) :
    translates s (patchBack s q t.leaf t.size) r v q t.leaf t.size :=
  translates_of_translated hq (patchBack_asks _ _ _ _) (patchBack_reqs _ _ _ _) (exec_tableWalk_hit hq hs ht v)

variable (ht : tlbFind s (groveOfUnit q.src) (unitCtx s q.src) q.addr = none)
include ht

theorem exec_tableWalk_noMemory (hroot : hbmEnd ≤ (s.ctx (unitCtx s q.src)).root) (v : Nat) :
    exec (.tableWalk r v) s = .fault (.noSuchMemory (s.ctx (unitCtx s q.src)).root) := by
  have hq' : s.req? r = some q := hq
  have hstage : ¬ q.stage ≠ .xlate := not_not_intro hs
  change execTableWalk r v s = _
  simp only [execTableWalk, hq', if_neg hstage, ht, if_pos hroot]

variable (hroot : (s.ctx (unitCtx s q.src)).root < hbmEnd)
include hroot

theorem exec_tableWalk_cause {k : Nat} (hk : walk s (unitCtx s q.src) q.addr = .error k) (v : Nat) :
    exec (.tableWalk r v) s = .next (s.setReq r { q with stage := .failed k }) := by
  have hq' : s.req? r = some q := hq
  have hstage : ¬ q.stage ≠ .xlate := not_not_intro hs
  change execTableWalk r v s = _
  simp only [execTableWalk, hq', if_neg hstage, ht, if_neg (Nat.not_le.mpr hroot), hk]

theorem exec_tableWalk_leaf {leaf : Word} {size : Nat} (hk : walk s (unitCtx s q.src) q.addr = .ok (leaf, size)) (v : Nat) :
    exec (.tableWalk r v) s =
      .next (translated (patchBack (tlbFill s (groveOfUnit q.src) v { ctx := unitCtx s q.src, va := q.addr / size * size, size := size, leaf := leaf }) q leaf size) r leaf size) := by
  have hq' : s.req? r = some q := hq
  have hstage : ¬ q.stage ≠ .xlate := not_not_intro hs
  change execTableWalk r v s = _
  simp only [execTableWalk, hq', if_neg hstage, ht, if_neg (Nat.not_le.mpr hroot), hk]

/-- A walk that ends in a leaf installs it, and gives its request what the leaf says. -/
theorem tableWalk_fills {leaf : Word} {size : Nat} (hk : walk s (unitCtx s q.src) q.addr = .ok (leaf, size)) {v : Nat} {p : State}
    (hp : p = patchBack (tlbFill s (groveOfUnit q.src) v { ctx := unitCtx s q.src, va := q.addr / size * size, size := size, leaf := leaf }) q leaf size) :
    (∃ x ∈ (p.grove (groveOfUnit q.src)).tlb, x.ctx = unitCtx s q.src ∧ x.va = q.addr / size * size ∧ x.size = size ∧ x.leaf = leaf) ∧ translates s p r v q leaf size := by
  subst hp
  refine ⟨⟨{ ctx := unitCtx s q.src, va := q.addr / size * size, size := size, leaf := leaf }, ?_, rfl, rfl, rfl, rfl⟩,
    translates_of_translated hq ((tlbFill_asks s _ _ _).trans (patchBack_asks _ _ _ _)) (patchBack_reqs _ _ _ _) (exec_tableWalk_leaf hq hs ht hroot hk v)⟩
  rw [patchBack_tlb]
  exact mem_tlbFill _ _ _ _

end Walks

/-! ### The timeout of another module (R393, R395) -/

@[simp] theorem replyArrives_reqs (s : State) (q : Req) : (replyArrives s q).reqs = s.reqs := by
  unfold replyArrives
  split
  · exact State.noteArrival_reqs _ _
  · rfl

@[simp] theorem replyArrives_staleRids (s : State) (q : Req) : (replyArrives s q).staleRids = s.staleRids := by
  unfold replyArrives
  split
  · exact State.noteArrival_staleRids _ _
  · rfl

theorem quiet_replyArrives (s : State) (q : Req) : quiet s (replyArrives s q) := by
  unfold replyArrives
  split
  · exact quiet_noteArrival _ _
  · exact (AskFrame.refl s).quiet

/-- Between two states a request, ports and what an element notes of arrivals have changed. -/
structure ServeFrame (s u : State) (r : Nat) : Prop where
  kept : requestsKept s u r
  quiet : quiet s u
  staleRids : u.staleRids = s.staleRids

theorem failReq_serves (s : State) (r : Nat) (q : Req) (k : Nat) : ServeFrame s (failReq s r q k) r := by
  refine ⟨fun x hx => ?_, quiet_trans (quiet_setReq s r _) (quiet_replyArrives _ _), ?_⟩
  · rw [failReq, replyArrives_reqs]
    exact requestsKept_setReq rfl _ _ x hx
  · rw [failReq, replyArrives_staleRids]
    rfl

theorem failReq_find (s : State) (r : Nat) (q : Req) (k : Nat) : mfind (failReq s r q k).reqs r = some { q with stage := .failed k } := by
  rw [failReq, replyArrives_reqs]
  exact mfind_mset_same _ _ _

theorem noteServed_serves (s : State) (q : Req) : (noteServed s q).reqs = s.reqs ∧ Claims.quiet s (noteServed s q) ∧ (noteServed s q).staleRids = s.staleRids := by
  unfold noteServed
  split
  · exact ⟨rfl, (AskFrame.refl s).quiet, rfl⟩
  · exact ⟨rfl, (AskFrame.refl s).quiet, rfl⟩
  · exact ⟨rfl, quiet_modPort _ _ _, rfl⟩

/-- A request that has been performed ends, or answers, and touches no other. -/
theorem finishReq_serves (s : State) (r : Nat) (q : Req) (v : Word) (f : Flags) : ServeFrame s (finishReq s r q v f) r := by
  unfold finishReq
  extract_lets q1 q2 s1
  obtain ⟨hreqs, hquiet, hstale⟩ : s1.reqs = s.reqs ∧ Claims.quiet s s1 ∧ s1.staleRids = s.staleRids := noteServed_serves s q2
  split
  · exact ⟨fun x hx => by rw [State.dropReq, mfind_merase, if_neg hx, hreqs], quiet_trans hquiet (AskFrame.of_requests s1 _ _).quiet, hstale⟩
  · refine ⟨fun x hx => ?_, quiet_trans (quiet_trans hquiet (quiet_setReq s1 r _)) (quiet_replyArrives _ _), ?_⟩
    · rw [replyArrives_reqs]
      exact requestsKept_setReq hreqs _ _ x hx
    · rw [replyArrives_staleRids]
      exact hstale

/-- A request that has a reply answers with its value. -/
theorem finishReq_answers {s : State} {r : Nat} {q : Req} (h : noReply q = false) (v : Word) (f : Flags) : ∃ x, mfind (finishReq s r q v f).reqs r = some x ∧ x.stage = .done v f := by
  unfold finishReq
  extract_lets q1 q2 s1
  have h2 : noReply q2 = false := by
    have hview : noReply q2 = noReply q := by
      simp only [q2, q1]
      split <;> split <;> rfl
    rw [hview, h]
  rw [h2, if_neg (by simp), replyArrives_reqs]
  exact ⟨_, mfind_mset_same _ _ _, rfl⟩

theorem failRemote_serves (s : State) (r : Nat) (q : Req) (k : Nat) : ServeFrame s (failRemote s r q k) r := by
  unfold failRemote
  extract_lets q1
  split
  · exact finishReq_serves _ _ _ _ _
  · exact failReq_serves _ _ _ _

theorem failRemote_fails {q : Req} (h : q.kind ≠ .absent) (s : State) (r k : Nat) :
    mfind (failRemote s r q k).reqs r = some { q with stage := .failed k, rid := 0, left := none } := by
  rw [failRemote, if_neg h, failReq_find]

theorem noReply_absent {q : Req} (hk : q.kind = .absent) (hd : q.dest ≠ .none) : noReply q = false := by
  simp [noReply, hk, hd]

theorem failRemote_absent {q : Req} (hk : q.kind = .absent) (hd : q.dest ≠ .none) (s : State) (r k : Nat) :
    ∃ x, mfind (failRemote s r q k).reqs r = some x ∧ x.stage = .done 0 0 := by
  rw [failRemote, if_pos hk]
  exact finishReq_answers (noReply_absent (q := { q with rid := 0, left := none }) hk hd) 0 0

/-- The id that a request waits under becomes stale with it. -/
theorem mem_staleIds {s : State} {q : Req} (h : q.rid ≠ 0) : ((s.task q.tag).serial, q.rid) ∈ (staleIds s q).staleRids := by
  simp only [staleIds, if_neg h]
  exact List.mem_append_right _ (List.mem_map_of_mem (List.mem_append_left _ (List.mem_singleton_self _)))

theorem exec_remoteAccessTimeout {s : State} {r m pa : Nat} {q : Req} (hq : mfind s.reqs r = some q) (ht : q.target = .module m pa) (hs : q.stage = .deferred) :
    exec (.remoteAccessTimeout r) s = .next (if q.since + 1000000 ≤ s.tb.toNat then failRemote (leavePort (staleIds s q) r q) r q 0x0C5 else s) := by
  have hq' : s.req? r = some q := hq
  change execRemoteAccessTimeout r s = _
  simp only [execRemoteAccessTimeout, hq', ht, hs]

/-- Its request's ids noted as stale, a request has left its port, and nothing more. -/
theorem leavePort_staleIds (s : State) (r : Nat) (q : Req) : (leavePort (staleIds s q) r q).reqs = s.reqs ∧ quiet s (leavePort (staleIds s q) r q) :=
  ⟨rfl, quiet_of_fields rfl rfl rfl rfl rfl rfl rfl⟩

/-- Settles O43: each move sets its one request, in the state that its port, its chain or its translation leaves. -/
theorem requestMoves : Obligations.RequestMoves := by
  unfold Obligations.RequestMoves
  intro s r q hq
  refine ⟨fun hs hp hroom hstop => ⟨_, exec_requestAdmit hq hs hp hroom hstop, joinPort_queues s r q⟩, fun _ h => exec_requestAdmit_waits hq h, fun w p t hs hw hpred hp ht => held_moves hq hs (chainStage_samePort hw hpred hp ht),
    fun w hs hw hpred hp => held_moves hq hs ((chainStage_unknown hw hpred hp).trans (by rw [← hs])),
    fun w p t hs hw hpred hd hp ht => ⟨_, exec_waveRequestRelease s r, resendReq_otherPort hq hs hw hpred hd hp ht⟩, fun p hs hd => ⟨_, exec_waveRequestRelease s r, resendReq_unknown hq hs hd⟩,
    fun t hs ht v => tableWalk_hit hq hs ht v, fun hs ht v => ⟨fun hroot => exec_tableWalk_noMemory hq hs ht hroot v, fun hroot => ⟨fun k hk => ?_,
      fun leaf size p hk hp => tableWalk_fills hq hs ht hroot hk hp⟩⟩, fun m pa ht hs => ⟨fun hsince => ?_, fun hsince => ?_⟩⟩
  · exact ⟨_, exec_tableWalk_cause hq hs ht hroot hk v, mfind_mset_same _ _ _, requestsKept_setReq rfl _ _, quiet_setReq _ _ _⟩
  · obtain ⟨hreqs, hleft⟩ := leavePort_staleIds s r q
    obtain ⟨hkept, hfails, hstale⟩ := failRemote_serves (leavePort (staleIds s q) r q) r q 0x0C5
    refine ⟨_, (exec_remoteAccessTimeout hq ht hs).trans (congrArg _ (if_pos hsince)), fun x hx => by rw [hkept x hx, hreqs], quiet_trans hleft hfails,
      fun hk => failRemote_fails hk _ _ _, fun hk hd => failRemote_absent hk hd _ _ _, fun hrid => ?_⟩
    rw [hstale]
    exact mem_staleIds hrid
  · exact (exec_remoteAccessTimeout hq ht hs).trans (congrArg _ (if_neg (Nat.not_le.mpr hsince)))

end Sys2Proof.Machine
end

section
/-! PROOFS. What a report, a write from outside any task and the staging of an entry leave alone (R319 to R334, R391, R411): the units, the groves and the tasks. -/

namespace Sys2Proof.Machine
open Sys2Proof.Claims

/-! ### Reports: the logs, the measurements and what is sent over links (R384, R391, R411) -/

/-- A state without its links, its logs and what has left it. -/
def State.unreported (s : State) : State := { s with berovo := [], outputs := [], eventLog := [], measures := [], measureLog := [] }

/-- Between two states only links, logs and what has left the module have changed. -/
def Reports (s u : State) : Prop := u.unreported = s.unreported

namespace Reports

theorem refl (s : State) : Reports s s := rfl

theorem of_logs (s : State) (l : SMap BerovoPort) (o : List Output) (e : List (List Word)) (m : SMap (BitVec 512)) (d : List (List Word)) :
    Reports s { s with berovo := l, outputs := o, eventLog := e, measures := m, measureLog := d } := rfl

theorem trans {s u v : State} (h : Reports s u) (h' : Reports u v) : Reports s v := Eq.trans h' h

theorem view {s u : State} (h : Reports s u) {α : Type} (φ : State → α) (hφ : ∀ v : State, φ v.unreported = φ v := by exact fun _ => rfl) : φ u = φ s := by
  rw [← hφ, h, hφ]

theorem grove {s u : State} (h : Reports s u) (g : Nat) : u.grove g = s.grove g := h.view (fun v => v.grove g)

theorem memoryKept {s u : State} (h : Reports s u) : memoryKept s u :=
  memoryKept_of (h.view State.mem) (h.view State.words) (h.view State.sectors) (h.view State.windows) (h.view State.banks)

theorem quiet {s u : State} (h : Reports s u) : quiet s u :=
  quiet_of_fields (h.view State.elems) (h.view State.groves) (h.view State.mem) (h.view State.words) (h.view State.sectors) (h.view State.windows) (h.view State.banks)

theorem foldl {α : Type} {f : State → α → State} (hf : ∀ s a, Reports s (f s a)) (l : List α) (s : State) : Reports s (l.foldl f s) := by
  induction l generalizing s with
  | nil => exact refl s
  | cons a l ih => exact (hf s a).trans (ih (f s a))

end Reports

theorem unitsKept_of_quiet {s u : State} (h : quiet s u) : unitsKept s u := by
  obtain ⟨hr, hp, -, hm⟩ := h
  exact ⟨hr, hp, hm⟩

theorem drainWindow_reports (s : State) (port vc : Nat) : Reports s (drainWindow s port vc) := by
  unfold drainWindow
  simp only []
  split <;> exact rfl

theorem sendLink_reports (s : State) (m vc beats : Nat) (msg : LinkMsg) : Reports s (sendLink s m vc beats msg) := by
  unfold sendLink sendPort
  refine .trans ?_ (drainWindow_reports _ _ _)
  exact rfl

theorem logEvent_reports (s : State) (kind cause p g : Nat) (detail : Word) : Reports s (logEvent s kind cause p g detail) :=
  .of_logs s _ _ _ _ _

theorem measure_reports (s : State) (index type vaddr : Nat) (data : List Byte) : Reports s (measure s index type vaddr data) := .of_logs s _ _ _ _ _

theorem noteChange_reports (s : State) (p : Nat) : Reports s (noteChange s p) := (logEvent_reports s _ _ _ _ _).trans (measure_reports _ _ _ _ _)

theorem askFor_reports (ps : List DevicePlace) (s : State) : Reports s (askFor ps s) := by
  refine .foldl (fun u p => ?_) ps s
  split
  · split
    · exact sendLink_reports u _ _ _ _
    · exact .refl u
  · exact .refl u

/-! ### Writes from outside any task (R321, R330) -/

/-- A state without its links and logs, its partitions' interrupts, and the memory that the device writes. -/
def State.unwritten (s : State) : State := { s.unreported with mem := [], sectors := [], waiting := [], parts := [], sectorKeys := [], badMacs := [] }

/-- Between two states only what the device writes from outside any task has changed. -/
def Writes (s u : State) : Prop := u.unwritten = s.unwritten

namespace Writes

theorem refl (s : State) : Writes s s := rfl

theorem trans {s u v : State} (h : Writes s u) (h' : Writes u v) : Writes s v := Eq.trans h' h

theorem view {s u : State} (h : Writes s u) {α : Type} (φ : State → α) (hφ : ∀ v : State, φ v.unwritten = φ v := by exact fun _ => rfl) : φ u = φ s := by
  rw [← hφ, h, hφ]

theorem of_reports {s u : State} (h : Reports s u) : Writes s u := h.view State.unwritten

theorem foldl {α : Type} {f : State → α → State} (hf : ∀ s a, Writes s (f s a)) (l : List α) (s : State) : Writes s (l.foldl f s) := by
  induction l generalizing s with
  | nil => exact refl s
  | cons a l ih => exact (hf s a).trans (ih (f s a))

end Writes

theorem deviceWrite_writes (s : State) (whole : Bool) (p : DevicePlace) (v : Word) : Writes s (deviceWrite s whole p v) := by
  unfold deviceWrite
  split
  next pa _ =>
    extract_lets n empty s1 s2
    have h1 : Writes s s1 := by
      simp only [s1]
      split <;> exact rfl
    have h2 : Writes s1 s2 := by
      simp only [s2]
      split <;> exact rfl
    exact (h1.trans h2).trans rfl
  · exact rfl
  · exact .of_reports (sendLink_reports s _ _ _ _)
  · exact .refl s

theorem signal_writes (s : State) (p vec : Nat) : Writes s (signal s p vec) := by
  unfold signal
  extract_lets x
  split
  · exact .refl s
  · split <;> exact rfl

theorem dropRecord_writes (s : State) (k : Nat) (o : DeviceOp) : Writes s (dropRecord s k o) := by
  unfold dropRecord
  extract_lets s1
  have h : Writes s s1 := by
    simp only [s1]
    split
    · exact .of_reports (logEvent_reports s _ _ _ _ _)
    · exact .refl s
  split
  · exact h.trans (.of_reports (logEvent_reports _ _ _ _ _ _))
  · exact h

theorem deviceDo_writes (s : State) (o : DeviceOp) : Writes s (deviceDo s o) := by
  unfold deviceDo
  split
  · exact .refl s
  · exact dropRecord_writes s _ o
  next ts ws _ =>
    split
    · exact rfl
    · refine .trans (u := deviceWrites s ts ws) (.foldl (fun u x => deviceWrite_writes u _ _ _) _ s) ?_
      unfold afterOp
      split
      · exact signal_writes _ _ _
      · exact .refl _

theorem skipStart_writes (s : State) (e : Entry) : Writes s (skipStart s e) := deviceDo_writes s _

theorem clearV_writes (s : State) (p n : Nat) : Writes s (clearV s p n) := deviceDo_writes s _

/-! ### What staging and skipped starts come to (R321, R325) -/

/-- A state without what the device writes, its entries and its contexts. -/
def State.unplanned (s : State) : State := { s.unwritten with ctxs := [], staged := [] }

/-- Between two states only what the scheduler and the device keep and write has changed. -/
def Plans (s u : State) : Prop := u.unplanned = s.unplanned

namespace Plans

theorem refl (s : State) : Plans s s := rfl

theorem trans {s u v : State} (h : Plans s u) (h' : Plans u v) : Plans s v := Eq.trans h' h

theorem view {s u : State} (h : Plans s u) {α : Type} (φ : State → α) (hφ : ∀ v : State, φ v.unplanned = φ v := by exact fun _ => rfl) : φ u = φ s := by
  rw [← hφ, h, hφ]

theorem of_staged (s : State) (m : SMap Staged) : Plans s { s with staged := m } := rfl

theorem of_ctxs (s : State) (m : SMap Ctx) : Plans s { s with ctxs := m } := rfl

theorem of_writes {s u : State} (h : Writes s u) : Plans s u := h.view State.unplanned

theorem of_reports {s u : State} (h : Reports s u) : Plans s u := .of_writes (.of_reports h)

theorem foldl {α : Type} {f : State → α → State} (hf : ∀ s a, Plans s (f s a)) (l : List α) (s : State) : Plans s (l.foldl f s) := by
  induction l generalizing s with
  | nil => exact refl s
  | cons a l ih => exact (hf s a).trans (ih (f s a))

end Plans

theorem stopNoLog_plans (s : State) (p n : Nat) : Plans s (stopNoLog s p n) :=
  ((Plans.of_reports (logEvent_reports s _ _ _ _ _)).trans (.of_writes (clearV_writes _ p n))).trans (.of_staged _ _)

theorem reject_plans (s : State) (p n reason : Nat) (info : Word) (e : Entry) (clear : Bool) : Plans s (reject s p n reason info e clear) := by
  unfold reject
  extract_lets s1
  have h : Plans s s1 := .of_writes (deviceDo_writes s _)
  split
  · exact (h.trans (.of_writes (clearV_writes _ p n))).trans (.of_staged _ _)
  · exact h

theorem stage_plans (s : State) (p n : Nat) (e : Entry) (soon : Nat) : Plans s (stage s p n e soon) := by
  unfold stage
  extract_lets c k
  split
  · exact stopNoLog_plans s p n
  split
  split
  · exact stopNoLog_plans s p n
  extract_lets s1 len
  have h1 : Plans s s1 := by
    simp only [s1]
    split
    · exact .trans (.of_ctxs s _) (.of_writes (deviceDo_writes _ _))
    · exact .refl s
  refine h1.trans ?_
  split
  · exact .of_staged _ _
  split
  · exact reject_plans s1 p n _ _ e _
  split
  · exact .of_staged _ _
  refine .trans ?_ (.of_reports (askFor_reports _ _))
  split
  · exact (Plans.of_reports (logEvent_reports s1 _ _ _ _ _)).trans (.of_staged _ _)
  split
  · exact reject_plans s1 p n _ _ e _
  · exact (Plans.of_reports (measure_reports s1 _ _ _ _)).trans (.of_staged _ _)

theorem restage_plans (s : State) (p n start : Nat) : Plans s (restage s p n start) := by
  unfold restage
  split
  · exact .refl s
  · split
    · exact .trans (.of_staged s _) (stage_plans _ p n _ _)
    · exact .of_staged _ _

/-! ### A step of the time base (R319) -/

theorem passStarts_plans (s : State) (k tb : Nat) : Plans s (passStarts s k tb) := by
  unfold passStarts
  extract_lets x P m s1
  split
  · have h : Plans s s1 := .foldl (fun u _ => .of_writes (skipStart_writes u _)) _ s
    exact h.trans (.of_staged _ _)
  · exact .refl s

theorem passEntry_plans (s : State) (k tb : Nat) : Plans s (passEntry s k tb) := by
  unfold passEntry
  extract_lets x due u
  have hu : Plans s u := restage_plans s _ _ _
  split
  · split
    · exact (hu.trans (.of_writes (skipStart_writes _ _))).trans (passStarts_plans _ k tb)
    · exact .refl s
  · exact passStarts_plans s k tb

theorem adjustTime_slew (s : State) {offset : Int} (h : offset ≤ 1000000) : adjustTime s offset = s := if_pos h

/-- The slot starts that have come are taken, and then the time is stepped and the starts passed over are skipped. -/
theorem adjustTime_step (s : State) {offset : Int} (h : 1000000 < offset) :
    Plans { s.staged.foldl (fun u x => takeStarts ((u.tb.toNat - x.2.start) / 1000 + 1) u x.1) s with tb := laterTime s.tb offset.toNat } (adjustTime s offset) := by
  rw [adjustTime, if_neg (Int.not_le.mpr h)]
  exact .foldl (fun u x => passEntry_plans u _ _) _ _

theorem adjustTime_tb (s : State) {offset : Int} (h : 1000000 < offset) : (adjustTime s offset).tb = laterTime s.tb offset.toNat := (adjustTime_step s h).view State.tb

end Sys2Proof.Machine
end

section
/-! PROOFS. Monitor calls and Zwitex commands (O59, R412, R413). -/

namespace Sys2Proof.Machine
open Sys2Proof.Claims

/-! ### Answered calls (R412) -/

/-- A sequencer's monitor call has been answered in w0 of its supervisor bank, and nothing else of its registers and no memory has changed. -/
def answered (s u : State) (g : Nat) (v : Word) : Prop :=
  reg (u.grove g).superBank.w 0 = v ∧ (∀ j, j < 16 → j ≠ 0 → reg (u.grove g).superBank.w j = reg (s.grove g).superBank.w j) ∧ (u.grove g).superBank.hold = .none ∧
    (u.grove g).taskBank = (s.grove g).taskBank ∧ (u.grove g).pc = (s.grove g).pc ∧ memoryKept s u

theorem answerCall_grove (s : State) (g : Nat) (v : Word) :
    (answerCall s g v).grove g = { s.grove g with superBank := { (s.grove g).superBank with w := setAt (s.grove g).superBank.w 0 v, hold := .none } } := by
  rw [answerCall, State.modGrove_grove, if_pos rfl]

/-- The answer to a call, in a state that has the registers, the PC and the memory of the call. -/
theorem answerCall_answered {s u : State} {g : Nat} (hw : (u.grove g).superBank.w = (s.grove g).superBank.w) (hb : (u.grove g).taskBank = (s.grove g).taskBank)
    (hpc : (u.grove g).pc = (s.grove g).pc) (hm : memoryKept s u) (v : Word) : answered s (answerCall u g v) g v := by
  rw [answered, answerCall_grove]
  refine ⟨?_, fun j _ hj => ?_, rfl, hb, hpc, memoryKept_trans hm (memoryKept_modGrove u g _)⟩
  · rw [reg_setAt, if_pos ⟨rfl, by decide⟩]
  · rw [reg_setAt, if_neg fun h => hj h.1, hw]

theorem answered_now (s : State) (g : Nat) (v : Word) : answered s (answerCall s g v) g v :=
  answerCall_answered rfl rfl rfl (Reports.refl s).memoryKept v

theorem answered_of_reports {s u w : State} {g : Nat} {v : Word} (h : answered s u g v) (hr : Reports u w) : answered s w g v := by
  obtain ⟨h0, hj, hhold, hb, hpc, hm⟩ := h
  rw [answered, hr.grove]
  exact ⟨h0, hj, hhold, hb, hpc, memoryKept_trans hm hr.memoryKept⟩

theorem callNo_of_hold {s : State} {g : Nat} {c : BitVec 6} (h : (s.grove g).superBank.hold = .monitor c) : callNo s g = some c.toNat := by
  rw [callNo, h]

section Calls

variable {s : State} {g : Nat}

theorem exec_monitorCallFeatures_low (h : callNo s g = some 0) : exec (.monitorCallFeatures g) s = .next (answerCall s g s.ack) := by
  change execMonitorCallFeatures g s = _
  simp only [execMonitorCallFeatures, h]

theorem exec_monitorCallFeatures_high (h : callNo s g = some 1) : exec (.monitorCallFeatures g) s = .next (answerCall s g 0) := by
  change execMonitorCallFeatures g s = _
  simp only [execMonitorCallFeatures, h]

theorem exec_monitorCallGroveMap (h : callNo s g = some 2) : exec (.monitorCallGroveMap g) s = .next (answerCall s g (mapWord s (reg (s.grove g).superBank.w 1).toNat)) := by
  change execMonitorCallGroveMap g s = _
  rw [execMonitorCallGroveMap, if_pos h]

theorem exec_monitorCallGuardDrops (h : callNo s g = some 3) {p : Nat} (hp : s.partOfGrove g = some p) :
    exec (.monitorCallGuardDrops g) s = .next (answerCall s g (BitVec.ofNat 64 (s.part p).guard)) := by
  change execMonitorCallGuardDrops g s = _
  rw [execMonitorCallGuardDrops, if_pos h, hp]

theorem exec_monitorCallReplaceImage (h : callNo s g = some 4) (hg : (s.grove g).task = none) :
    exec (.monitorCallReplaceImage g) s = .next (replaceImage s g (unitCtx s (.seq g)) (reg (s.grove g).superBank.w 1).toNat) := by
  change execMonitorCallReplaceImage g s = _
  rw [execMonitorCallReplaceImage, if_pos ⟨h, by rw [hg]; rfl⟩]

theorem exec_monitorCallReplaceImage_held (hg : (s.grove g).task.isSome = true) : exec (.monitorCallReplaceImage g) s = .next s := by
  change execMonitorCallReplaceImage g s = _
  rw [execMonitorCallReplaceImage, if_neg]
  rintro ⟨-, h⟩
  rw [Option.isNone_iff_eq_none.mp h] at hg
  exact absurd hg (by decide)

theorem exec_monitorCallInvalid {n : Nat} (h : callNo s g = some n) (hn : 5 ≤ n) : exec (.monitorCallInvalid g) s = .next (answerCall s g (BitVec.allOnes 64)) := by
  change execMonitorCallInvalid g s = _
  simp only [execMonitorCallInvalid, h, if_pos hn]

/-! ### The supervisor image (R83, R388, R412) -/

variable {c va : Nat}

theorem replaceImage_waits (h : deviceWaits s c va 64 = true) : replaceImage s g c va = s := by
  simp only [replaceImage, h, if_true]

theorem putImage_grove (s : State) (g : Nat) (m : SuperImage) : ((putImage s g m).grove g).superBank.w = (s.grove g).superBank.w ∧
    ((putImage s g m).grove g).taskBank = (s.grove g).taskBank ∧ ((putImage s g m).grove g).pc = (s.grove g).pc := by
  rw [putImage, State.modGrove_grove, if_pos rfl]
  exact ⟨rfl, rfl, rfl⟩

variable (h64 : deviceWaits s c va 64 = false) (hall : deviceWaits s c va (superSize s c va) = false)
include h64 hall

/-- An image that reads is put in its place and the call answered with 0. -/
theorem replaceImage_answers (hf : deviceFault s c va (superSize s c va) = none) : answered s (replaceImage s g c va) g 0 := by
  simp only [replaceImage, h64, hall, hf, Bool.false_eq_true, if_false]
  refine answered_of_reports ?_ (askFor_reports _ _)
  generalize readSuper (fun i => deviceByte s c (va + i)) = m
  have hr : Reports s (measure s (0x80 + (s.partOfGrove g).getD 0) 3 0 (superBytes m)) := measure_reports s _ _ _ _
  obtain ⟨hw, hb, hpc⟩ := putImage_grove (measure s (0x80 + (s.partOfGrove g).getD 0) 3 0 (superBytes m)) g m
  rw [hr.grove] at hw hb hpc
  exact answerCall_answered hw hb hpc (memoryKept_trans hr.memoryKept (memoryKept_modGrove _ g _)) 0

/-- An image of which a sector fails its check is left, and the call answered with all ones. -/
theorem replaceImage_fails {cause : Nat} (hf : deviceFault s c va (superSize s c va) = some cause) :
    answered s (replaceImage s g c va) g (BitVec.allOnes 64) ∧ ((replaceImage s g c va).grove g).imem = (s.grove g).imem := by
  have hr : Reports s (noteFailedRead s ((s.partOfGrove g).getD 0) cause) := logEvent_reports s _ _ _ _ _
  have hg := hr.grove g
  simp only [replaceImage, h64, hall, hf, Bool.false_eq_true, if_false]
  refine ⟨answered_of_reports (answerCall_answered (by rw [hg]) (by rw [hg]) (by rw [hg]) hr.memoryKept _) (askFor_reports _ _), ?_⟩
  rw [(askFor_reports _ _).grove, answerCall_grove, hg]

end Calls

/-- What the waiting call of a grove is answered with, and by which move. -/
theorem monitorCall_answered {s : State} {g n : Nat} {c : BitVec 6} (hhold : (s.grove g).superBank.hold = .monitor c) (hn : n = c.toNat) {i : Instr} {v : Word}
    (h : (i = .monitorCallFeatures g ∧ n = 0 ∧ v = s.ack) ∨ (i = .monitorCallFeatures g ∧ n = 1 ∧ v = 0) ∨
      (i = .monitorCallGroveMap g ∧ n = 2 ∧ v = mapWord s (reg (s.grove g).superBank.w 1).toNat) ∨
      (i = .monitorCallGuardDrops g ∧ n = 3 ∧ ∃ p, s.partOfGrove g = some p ∧ v = BitVec.ofNat 64 (s.part p).guard) ∨
      (i = .monitorCallReplaceImage g ∧ n = 4 ∧ (s.grove g).task = none ∧ imageReads s g ∧ v = 0) ∨ (i = .monitorCallInvalid g ∧ 5 ≤ n ∧ v = BitVec.allOnes 64)) :
    ∃ u, exec i s = .next u ∧ answered s u g v := by
  have hcall : callNo s g = some n := by rw [callNo_of_hold hhold, hn]
  obtain ⟨rfl, rfl, rfl⟩ | ⟨rfl, rfl, rfl⟩ | ⟨rfl, rfl, rfl⟩ | ⟨rfl, rfl, p, hp, rfl⟩ | ⟨rfl, rfl, hg, hreads, rfl⟩ | ⟨rfl, h5, rfl⟩ := h
  · exact ⟨_, exec_monitorCallFeatures_low hcall, answered_now s g _⟩
  · exact ⟨_, exec_monitorCallFeatures_high hcall, answered_now s g _⟩
  · exact ⟨_, exec_monitorCallGroveMap hcall, answered_now s g _⟩
  · exact ⟨_, exec_monitorCallGuardDrops hcall hp, answered_now s g _⟩
  · obtain ⟨h64, hall, hf⟩ := hreads _ _ rfl rfl
    exact ⟨_, exec_monitorCallReplaceImage hcall hg, replaceImage_answers h64 hall hf⟩
  · exact ⟨_, exec_monitorCallInvalid hcall h5, answered_now s g _⟩

/-! ### The grove map (R410) -/

/-- The first bits of a word of the grove map are those of the groves in service. -/
theorem mapBits (s : State) (n k b : Nat) (hb : b < 64) :
    ((List.range k).foldl (fun w j => if s.retired.contains (64 * n + j) then w else w ||| ((1 : Word) <<< j)) (0 : Word)).getLsbD b = decide (b < k ∧ 64 * n + b ∉ s.retired) := by
  induction k with
  | zero => simp
  | succ k ih =>
    have hone : ((1 : Word) <<< k).getLsbD b = decide (b = k) := by
      have h1 : (1 : Word).getLsbD (b - k) = (decide (0 < 64) && decide (b - k = 0)) := BitVec.getLsbD_one
      rw [BitVec.getLsbD_shiftLeft, h1, decide_eq_true hb, ← decide_not, Bool.true_and, ← Bool.decide_and, ← Bool.decide_and, decide_eq_decide]
      omega
    have hlt : b < k + 1 ↔ b < k ∨ b = k := by omega
    rw [List.range_succ, List.foldl_append, List.foldl_cons, List.foldl_nil]
    split
    next hr =>
      rw [ih, decide_eq_decide, hlt]
      have hmem : 64 * n + k ∈ s.retired := by simpa using hr
      constructor
      · exact fun ⟨h, hs⟩ => ⟨.inl h, hs⟩
      · rintro ⟨h | rfl, hs⟩
        · exact ⟨h, hs⟩
        · exact absurd hmem hs
    next hr =>
      rw [BitVec.getLsbD_or, ih, hone, ← Bool.decide_or, decide_eq_decide, hlt]
      have hmem : 64 * n + k ∉ s.retired := by simpa using hr
      constructor
      · rintro (⟨h, hs⟩ | rfl)
        · exact ⟨.inl h, hs⟩
        · exact ⟨.inr rfl, hmem⟩
      · rintro ⟨h | rfl, hs⟩
        · exact .inl ⟨h, hs⟩
        · exact .inr rfl

theorem mapWord_inService (s : State) {n b : Nat} (hb : b < 64) (hn : n ≤ 41) : (mapWord s n).getLsbD b = decide (64 * n + b ∉ s.retired) := by
  rw [mapWord, if_neg (Nat.not_lt.mpr hn), mapBits s n 64 b hb]
  simp [hb]

theorem mapWord_beyond (s : State) {n b : Nat} (hb : b < 64) (hn : 41 < n) : (mapWord s n).getLsbD b = true := by
  rw [mapWord, if_pos hn, BitVec.getLsbD_allOnes]
  exact decide_eq_true hb

/-! ### Zwitex commands (R319, R392, R403, R413) -/

theorem laterTime_ahead {tb : Word} {t : Nat} (h : tb.toNat ≤ t) (ht : t < 2 ^ 64) : (laterTime tb ((t : Int) - tb.toNat).toNat).toNat = t := by
  have hoff : ((t : Int) - tb.toNat).toNat = t - tb.toNat := by omega
  rw [laterTime, hoff, BitVec.toNat_ofNat]
  omega

/-- The reference's time is taken where it is more than 1 ms ahead. -/
theorem zwitexTime_sets (s : State) {t : Nat} (h : s.tb.toNat + 1000000 < t) (ht : t < 2 ^ 64) : (adjustTime s ((t : Int) - s.tb.toNat)).tb.toNat = t := by
  rw [adjustTime_tb s (by omega), laterTime_ahead (by omega) ht]

theorem exec_zwitexTime (s : State) (t : Nat) : exec (.zwitexTime t) s = .next (adjustTime s ((t : Int) - s.tb.toNat)) := rfl

theorem unitsKept_of_reports {s u : State} (h : Reports s u) : unitsKept s u := unitsKept_of_quiet h.quiet

theorem exec_zwitexModuleNumber (s : State) (n : Nat) : exec (.zwitexModuleNumber n) s = .next (if n ≤ 4607 then { s with moduleNo := n } else s) := rfl

theorem exec_zwitexHopTable_refused {s : State} (h : ∃ t ∈ s.tasks, isLive s t.1 = true) (m hops : Nat) : exec (.zwitexHopTable m hops) s = .next s :=
  congrArg _ (if_pos (List.any_eq_true.mpr h))

theorem exec_zwitexHopTable_sets {s : State} (h : ∀ t ∈ s.tasks, isLive s t.1 = false) (m hops : Nat) :
    exec (.zwitexHopTable m hops) s = .next { s with hops := mset s.hops m hops } := by
  refine congrArg _ (if_neg fun hany => ?_)
  obtain ⟨t, ht, hl⟩ := List.any_eq_true.mp hany
  rw [h t ht] at hl
  exact absurd hl (by decide)

theorem sensorOf_setSensor (x : Grove) (k : SensorKind) (v : Sensor) : sensorOf (setSensor x k v) k = v := by
  cases k <;> rfl

theorem quiet_setSensor (s : State) (g : Nat) (k : SensorKind) (v : Grove → Sensor) : quiet s (s.modGrove g (fun x => setSensor x k (v x))) := by
  cases k <;> exact quiet_modGrove rfl rfl

section Commands

variable {s : State} {p : Nat} (hp : mfind s.parts p ≠ none)
include hp

theorem exec_zwitexContext {n root : Nat} (hn : n < 65536) (hc : mfind s.ctxs n = none) (ha : root % 8192 = 0) (hin : inPartition s p root = true) (boost : Nat) :
    exec (.zwitexPartitionCommand (.context p n root boost)) s = .next (noteChange { s with ctxs := mset s.ctxs n { part := p, root := root, boost := boost } } p) := by
  have ha' : (root % tableAlign 1 == 0) = true := beq_iff_eq.mpr ha
  refine congrArg _ (if_pos ?_)
  beta_reduce
  rw [Option.isSome_iff_ne_none.mpr hp, hc, ha', hin, decide_eq_true hn]
  rfl

theorem exec_zwitexService (hidle : partTasks s p = []) (ev : Bool) :
    exec (.zwitexPartitionCommand (.service p ev)) s = .next (noteChange (s.modPart p (fun x => { x with service := ev })) p) := by
  refine congrArg _ (if_pos ?_)
  beta_reduce
  rw [Option.isSome_iff_ne_none.mpr hp, hidle]
  rfl

end Commands

theorem exec_zwitexService_refused {s : State} {p : Nat} (h : partTasks s p ≠ []) (ev : Bool) : exec (.zwitexPartitionCommand (.service p ev)) s = .next s := by
  refine congrArg _ (if_neg ?_)
  beta_reduce
  rw [Bool.eq_false_iff.mpr (mt List.isEmpty_iff.mp h), Bool.false_and]
  exact Bool.false_ne_true

/-- A context that is made has what its command names, and an empty reserve (R413; assumption 11). -/
theorem zwitexContext_makes (s : State) (p n root boost : Nat) :
    ((noteChange { s with ctxs := mset s.ctxs n { part := p, root := root, boost := boost } } p).ctx n) = { part := p, root := root, boost := boost } ∧
      unitsKept s (noteChange { s with ctxs := mset s.ctxs n { part := p, root := root, boost := boost } } p) := by
  have hr := noteChange_reports { s with ctxs := mset s.ctxs n { part := p, root := root, boost := boost } } p
  refine ⟨(hr.view (fun v => v.ctx n)).trans (mget_mset_same _ _ _ _), unitsKept_of_quiet (quiet_trans ?_ hr.quiet)⟩
  exact quiet_of_fields rfl rfl rfl rfl rfl rfl rfl

theorem zwitexService_sets (s : State) (p : Nat) (ev : Bool) : ((noteChange (s.modPart p (fun x => { x with service := ev })) p).part p).service = ev ∧
    unitsKept s (noteChange (s.modPart p (fun x => { x with service := ev })) p) := by
  have hr := noteChange_reports (s.modPart p (fun x => { x with service := ev })) p
  refine ⟨(hr.view (fun v => (v.part p).service)).trans ?_, unitsKept_of_quiet (quiet_trans ?_ hr.quiet)⟩
  · rw [State.modPart_part, if_pos rfl]
  · exact quiet_of_fields rfl rfl rfl rfl rfl rfl rfl

/-- Settles O59: each call by the answer it gets, each command by the fields it sets. -/
theorem managementMoves : Obligations.ManagementMoves := by
  unfold Obligations.ManagementMoves
  refine ⟨fun s g n c hhold hn i v h => monitorCall_answered hhold hn h, fun s n b hb => ⟨mapWord_inService s hb, mapWord_beyond s hb⟩, fun s g hg => exec_monitorCallReplaceImage_held hg,
    fun s g c va hcall hg hc hva => ⟨fun h64 => ?_, fun cause h64 hall hf => ?_⟩, fun s t => ⟨fun h => ?_, fun h ht => ⟨_, exec_zwitexTime s t, zwitexTime_sets s h ht⟩⟩,
    fun s n => ⟨fun hn => ⟨_, (exec_zwitexModuleNumber s n).trans (congrArg _ (if_pos hn)), rfl, ?_⟩,
      fun hn => (exec_zwitexModuleNumber s n).trans (congrArg _ (if_neg (Nat.not_le.mpr hn)))⟩,
    fun s m h => ⟨fun hidle => ⟨_, exec_zwitexHopTable_sets hidle m h, mget_mset_same _ _ _ _, fun x hx => mget_mset_other _ _ _ hx, ?_⟩, fun hlive => exec_zwitexHopTable_refused hlive m h⟩,
    fun s => ⟨_, rfl, rfl, rfl, unitsKept_of_reports (.of_logs s _ _ _ _ _)⟩, fun s g k => ⟨_, rfl, ?_, ?_, unitsKept_of_quiet (quiet_setSensor s g k _)⟩,
    fun s p n root boost ev hp => ⟨fun hn hc ha hin => ⟨_, exec_zwitexContext hp hn hc ha hin boost, ?_⟩, fun hidle => ⟨_, exec_zwitexService hp hidle ev, zwitexService_sets s p ev⟩,
      fun h => exec_zwitexService_refused h ev⟩⟩
  · rw [exec_monitorCallReplaceImage hcall hg, ← hc, ← hva, replaceImage_waits h64]
  · obtain ⟨⟨h0, -, hhold, -, -, hm⟩, himem⟩ := replaceImage_fails (g := g) h64 hall hf
    exact ⟨_, exec_monitorCallReplaceImage hcall hg, hc ▸ hva ▸ ⟨h0, hhold, himem, hm⟩⟩
  · rw [exec_zwitexTime, adjustTime_slew s (by omega)]
  · exact unitsKept_of_quiet (quiet_of_fields rfl rfl rfl rfl rfl rfl rfl)
  · exact unitsKept_of_quiet (quiet_of_fields rfl rfl rfl rfl rfl rfl rfl)
  · rw [State.modGrove_grove, if_pos rfl, sensorOf_setSensor]
  · rw [State.modGrove_grove, if_pos rfl, sensorOf_setSensor]
  · obtain ⟨hx, hunits⟩ := zwitexContext_makes s p n root boost
    rw [hx]
    exact ⟨rfl, rfl, rfl, rfl, hunits⟩

end Sys2Proof.Machine
end

section
/-! PROOFS. The moves of an AG (O51): its head command, a burst's start, one access as one request, and tokens taken and enqueued (R90, R223 to R228, R345). -/

namespace Sys2Proof.Machine
open Sys2Proof.Claims

/-! ### The head command of an AG -/

theorem modHead_asks (s : State) (g n : Nat) (f : AgCmd → AgCmd) : AskFrame s (modHead s g n f) := .of_modGrove rfl

theorem modHead_ag (s : State) (g n : Nat) (f : AgCmd → AgCmd) (m : Nat) : ((modHead s g n f).grove g).ag m =
    if m = n then { (s.grove g).ag n with queue := match ((s.grove g).ag n).queue with
      | c :: cs => f c :: cs
      | [] => [] } else (s.grove g).ag m := by
  rw [modHead, State.modGrove_grove, if_pos rfl]
  exact mget_mset _ _ _ _ _

theorem modHead_queue {s : State} {g n : Nat} {c : AgCmd} {cs : List AgCmd} (h : ((s.grove g).ag n).queue = c :: cs) (f : AgCmd → AgCmd) :
    (((modHead s g n f).grove g).ag n).queue = f c :: cs := by
  rw [modHead_ag, if_pos rfl, h]

theorem modHead_other (s : State) (g : Nat) {n m : Nat} (h : m ≠ n) (f : AgCmd → AgCmd) : ((modHead s g n f).grove g).ag m = (s.grove g).ag m := by
  rw [modHead_ag, if_neg h]

theorem headCmd_of_queue {s : State} {g n : Nat} {c : AgCmd} {cs : List AgCmd} (h : ((s.grove g).ag n).queue = c :: cs) : headCmd s g n = some c := by
  rw [headCmd, h, List.head?_cons]

/-- A command that has started is not started again. -/
theorem startCmd_started {s : State} {g n : Nat} {c : AgCmd} (h : headCmd s g n = some c) (hs : c.started = true) : startCmd s g n = s := by
  unfold startCmd
  split
  next d x hd _ =>
    rw [h] at hd
    obtain rfl := Option.some.inj hd
    rw [if_pos hs]
  next => rfl

theorem agRuns_of_head {s : State} {g n : Nat} {c : AgCmd} (h : headCmd s g n = some c) (hs : c.started = true) (hstop : ((s.grove g).ag n).stopped = false)
    (hfloor : atFloor s g = false) (hfrozen : (s.elem (agElem g n)).frozen = false) : agRuns s g n = true := by
  simp [agRuns, h, hs, hstop, hfloor, hfrozen]

/-! ### Frames -/

theorem pay_tokens (s : State) (g cost q : Nat) : (pay s g cost).tokens q = s.tokens q := (pay_frame s g cost).tokens q

theorem unitsKept_asks {s u : State} (h : AskFrame s u) : unitsKept s u := unitsKept_of_quiet h.quiet

theorem resolveAddr_asks {s u : State} (h : AskFrame s u) (v : UnitId) (a : Nat) : resolveAddr u v a = resolveAddr s v a := by
  have hregion : unitRegion u v = unitRegion s v := by
    unfold unitRegion
    rw [h.taskOfGrove]
    simp only [h.task]
  unfold resolveAddr
  rw [hregion]

theorem noteStep_ag (s : State) (g i n : Nat) : ((noteStep s g).grove i).ag n = (s.grove i).ag n := (noteStep_frame s g).groveView (fun x => x.ag n) i

theorem noteStep_reqs (s : State) (g : Nat) : (noteStep s g).reqs = s.reqs := (noteStep_frame s g).view State.reqs

theorem noteStep_elem (s : State) (g e : Nat) : (noteStep s g).elem e = s.elem e := by
  obtain ⟨he, -⟩ := noteStep_elems_cur s g
  rw [State.elem, State.elem, he]

/-- An AG that takes a head moves no armed swap, and else what an issue moves. -/
theorem agTake_frame (s : State) (e ch : Nat) : IssueFrame s (agTake s e ch) :=
  (takeHead_frame s e ch none).trans (.of_modElem (f := fun x => { x with passed := (s.elem e).passed }) rfl)

theorem agTake_takesHead (s : State) (e ch : Nat) : takesHead s (agTake s e ch) e ch :=
  takesHead_congr (takeHead_takesHead s e ch) (by rw [agTake, State.modElem_elem, if_pos rfl])

theorem takeToken_frame (s : State) (g e ch : Nat) (t : Token) : IssueFrame s (takeToken s g e ch t) := by
  unfold takeToken
  extract_lets u k
  have hu : IssueFrame s u := (agTake_frame s e ch).trans (noteStep_frame _ g)
  split
  · exact hu.trans (.of_modGrove rfl)
  · exact hu

theorem takeToken_takesHead (s : State) (g e ch : Nat) (t : Token) : takesHead s (takeToken s g e ch t) e ch := by
  refine takesHead_congr (agTake_takesHead s e ch) ?_
  unfold takeToken
  extract_lets u k
  have hu : u.elem e = (agTake s e ch).elem e := noteStep_elem _ g e
  split
  · rw [State.modGrove_elem, hu]
  · rw [hu]

/-- A head that is taken once an access has been made is that of the state before. -/
theorem takesHead_of_active {s v u : State} {e ch : Nat} (hv : (v.elem e).active = (s.elem e).active) (h : takesHead v u e ch) : takesHead s u e ch := by
  unfold takesHead at h ⊢
  rwa [hv] at h

/-! ### One access (R162, R225) -/

/-- The request of an AG for eight bytes at an offset of its element's banks. -/
def bankRequest (s : State) (g n off : Nat) (c : AgCmd) (a : Word) (words : List (Option Word)) : Req :=
  { src := .ag g n, supervisor := c.supervisor, tag := c.tag, kind := (if accessWrites c c.next then .store else .load false)
    addr := a.toNat, size := accessSize c c.next, data := (words.headD none).getD 0, sectorWords := words, target := .bank (agElem g n) off
    scope := targetScope (.ag g n) (.bank (agElem g n) off), pos := c.next, since := s.tb.toNat
    carry := !accessWrites c c.next && carriesMeta s g n c c.next
    sectorMeta := (if accessWrites c c.next && carriesMeta s g n c c.next then metaToWrite c c.next else none) }

/-- An address that names a bank lies in no GLOBAL window (R73). -/
theorem isGlobal_of_bank {s : State} {u : UnitId} {a : Word} {e off : Nat} (h : resolveAddr s u a.toNat = some (.bank e off)) : isGlobal a = false := by
  cases hg : isGlobal a with
  | false => rfl
  | true =>
    have hhi : a.toNat / 2 ^ 52 = 0 := beq_iff_eq.mp hg
    simp only [resolveAddr, hhi, if_true] at h
    exact absurd (Option.some.inj h) (by simp)

theorem accessTarget_bank {s : State} {g n off : Nat} {a : Word} (ha : a.toNat % 8 = 0) (hr : resolveAddr s (.ag g n) a.toNat = some (.bank (agElem g n) off)) (c : AgCmd) :
    accessTarget s g n c a = (s, .ok (.bank (agElem g n) off, none)) := by
  simp only [accessTarget, isGlobal_of_bank hr, Bool.and_false, Bool.false_and, Bool.false_eq_true, if_false, agTarget, ha, hr, ne_eq, not_true_eq_false, if_true]

/-- The state after an AG has sent its access and gone on to the next. -/
def afterAccess (s : State) (g n : Nat) (q : Req) : State :=
  noteStep (modHead (sendReq ({ s with nextReq := s.nextReq + 1 }.setReq s.nextReq q) s.nextReq) g n (fun c => { c with next := c.next + 1 })) g

theorem makeAccess_bank {s : State} {g n off : Nat} {a : Word} (ha : a.toNat % 8 = 0) (hr : resolveAddr s (.ag g n) a.toNat = some (.bank (agElem g n) off)) (c : AgCmd)
    (words : List (Option Word)) : makeAccess s g n c a words = (afterAccess s g n (bankRequest s g n off c a words), true) := by
  simp only [makeAccess, accessTarget_bank ha hr]
  rfl

/-- An AG's access has been sent as one request, the next of its command. -/
structure Accessed (s u : State) (g n : Nat) (q : Req) : Prop where
  find : mfind u.reqs s.nextReq = some q
  kept : requestsKept s u s.nextReq
  queue : ∀ c cs, ((s.grove g).ag n).queue = c :: cs → ((u.grove g).ag n).queue = { c with next := c.next + 1 } :: cs
  units : unitsKept s u
  active : ∀ e, (u.elem e).active = (s.elem e).active

theorem afterAccess_accessed (s : State) (g n : Nat) {q : Req} (hw : q.wave = none) (hs : q.stage = .sent) : Accessed s (afterAccess s g n q) g n q := by
  generalize hv : ({ s with nextReq := s.nextReq + 1 }.setReq s.nextReq q : State) = v
  have hreqs : v.reqs = mset s.reqs s.nextReq q := by rw [← hv]; rfl
  have hgrove : v.grove g = s.grove g := by rw [← hv]; rfl
  have hvs : AskFrame s v := by rw [← hv]; exact .of_requests s _ _
  have hself : mfind v.reqs s.nextReq = some q := by rw [hreqs]; exact mfind_mset_same _ _ _
  have hframe : AskFrame s (modHead (sendReq v s.nextReq) g n (fun c => { c with next := c.next + 1 })) := (hvs.trans (sendReq_asks _ _)).trans (modHead_asks _ _ _ _)
  rw [afterAccess, hv]
  refine ⟨?_, fun x hx => ?_, fun c cs hq => ?_, unitsKept_trans (unitsKept_asks hframe) (unitsKept_issue (noteStep_frame _ g)), fun e => ?_⟩
  · rw [noteStep_reqs]
    change mfind (sendReq v s.nextReq).reqs s.nextReq = _
    rw [sendReq_find hself, if_pos rfl, chainStage_unchained hw, ← hs]
  · rw [noteStep_reqs]
    change mfind (sendReq v s.nextReq).reqs x = _
    rw [sendReq_find hself, if_neg hx, hreqs, mfind_mset, if_neg hx]
  · rw [noteStep_ag, modHead_queue]
    rw [sendReq_grove, hgrove, hq]
  · rw [noteStep_elem]
    exact hframe.elemView Elem.active e

/-! ### The start of a burst (R184, R223, R345) -/

/-- A head command whose burst has been checked: one that was not is checked to the end of what it has paid for. -/
def AgCmd.burst (c : AgCmd) : AgCmd :=
  { c with checked := if c.next < c.checked then c.checked else c.charged, leaves := if c.next < c.checked then c.leaves else [] }

theorem checkBurst_banks {s : State} {g n : Nat} {c : AgCmd} {cs : List AgCmd} (hq : ((s.grove g).ag n).queue = c :: cs) {writes : List Word}
    (hw : writes.filter isGlobal = [] ∨ c.next < c.checked) :
    ∃ u, checkBurst s g n c writes = (u, true) ∧ AskFrame s u ∧ u.reqs = s.reqs ∧ u.nextReq = s.nextReq ∧ ((u.grove g).ag n).queue = c.burst :: cs := by
  by_cases hc : c.next < c.checked
  case pos =>
    refine ⟨s, if_pos hc, .refl s, rfl, rfl, ?_⟩
    rw [hq, AgCmd.burst, if_pos hc, if_pos hc]
  case neg =>
    have hnone := hw.resolve_right hc
    refine ⟨modHead s g n (fun c => { c with checked := c.charged, leaves := [] }), ?_, modHead_asks _ _ _ _, rfl, rfl, ?_⟩
    · rw [checkBurst, if_neg hc, hnone]
      rfl
    · rw [modHead_queue hq, AgCmd.burst, if_neg hc, if_neg hc]

theorem payBurst_paid {s : State} {g n : Nat} {c : AgCmd} (h : c.next < c.charged) : payBurst s g n c = (s, true) := if_pos h

/-- The burst of a command whose pattern fixes its addresses, paid for and free to go, is checked and may begin. -/
theorem startBurst_planned {s : State} {g n : Nat} {c : AgCmd} {cs : List AgCmd} {a : Word} (hq : ((s.grove g).ag n).queue = c :: cs) (hf : portFree s g n c a = true)
    (hp : c.next < c.charged) (ht : (totalAccesses c).isNone = false) (hw : (burstWrites c).filter isGlobal = [] ∨ c.next < c.checked) :
    ∃ u, startBurst s g n c (some a) = (u, true) ∧ AskFrame s u ∧ u.reqs = s.reqs ∧ u.nextReq = s.nextReq ∧ ((u.grove g).ag n).queue = c.burst :: cs := by
  have h := checkBurst_banks hq hw
  simp only [startBurst, hf, payBurst_paid hp, ht, headCmd_of_queue hq, Bool.not_true, Bool.false_eq_true, if_false]
  exact h

/-- An indexed command's burst is not checked before its access. -/
theorem startBurst_indexed {s : State} {g n : Nat} {c : AgCmd} {a : Word} (hf : portFree s g n c a = true) (hp : c.next < c.charged) (ht : (totalAccesses c).isNone = true) :
    startBurst s g n c (some a) = (s, true) := by
  simp only [startBurst, hf, payBurst_paid hp, ht, Bool.not_true, Bool.false_eq_true, if_false, if_true]

/-- A burst whose cost cannot be taken is a refused issue. -/
theorem startBurst_refused {s : State} {g n : Nat} {c : AgCmd} {a : Word} (hf : portFree s g n c a = true) (hp : c.charged ≤ c.next) (hpause : ((s.grove g).ag n).paused = false)
    (hpoint : (s.grove g).atPoint = false) (hsup : c.supervisor = false) (hcost : canPay s g (burstCost s g n c c.next) = false) :
    startBurst s g n c (some a) = (refuse s g (burstCost s g n c c.next), false) := by
  have hpay : payBurst s g n c = (refuse s g (burstCost s g n c c.next), false) := by
    simp only [payBurst, if_neg (Nat.not_lt.mpr hp), hpause, hpoint, hsup, hcost, Bool.and_false, Bool.or_false, Bool.false_eq_true, if_false]
  simp only [startBurst, hf, hpay, Bool.not_true, Bool.false_eq_true, if_false]

/-- What an access after the start of its burst leaves, seen from before the start. -/
theorem Accessed.after_start {s v u : State} {g n : Nat} {q : Req} {c : AgCmd} {cs : List AgCmd} (hv : AskFrame s v) (hr : v.reqs = s.reqs) (hn : v.nextReq = s.nextReq)
    (hq : ((v.grove g).ag n).queue = c :: cs) (h : Accessed v u g n q) :
    mfind u.reqs s.nextReq = some q ∧ ((u.grove g).ag n).queue = { c with next := c.next + 1 } :: cs ∧ requestsKept s u s.nextReq ∧ unitsKept s u ∧
      (∀ e, (u.elem e).active = (s.elem e).active) := by
  obtain ⟨hfind, hkept, hqueue, hunits, hactive⟩ := h
  refine ⟨by rw [← hn, hfind], hqueue c cs hq, fun x hx => ?_, unitsKept_trans (unitsKept_asks hv) hunits, fun e => (hactive e).trans (hv.elemView Elem.active e)⟩
  rw [hkept x (by rwa [hn]), hr]

/-! ### The access of the head command (R225 to R227) -/

section Affine

variable {c : AgCmd} {k : BitVec 2} (hk : c.kind = .affine k) (hb : bySector c.stage = false)
include hk hb

theorem accessesMade_affine (he : c.ended = false) (hn : c.next < patternWords c.stage) : accessesMade c = false := by
  simp only [accessesMade, totalAccesses, hk, hb, he, Bool.false_or, Bool.false_eq_true, if_false]
  exact decide_eq_false (Nat.not_le.mpr hn)

omit hb in
theorem totalAccesses_affine : (totalAccesses c).isNone = false := by
  simp only [totalAccesses, hk, Option.isNone_some]

theorem plannedAddr_affine (i : Nat) : plannedAddr c i = patternAddr c.stage i := by
  simp only [plannedAddr, hk, hb, Bool.false_eq_true, if_false]

theorem accessSize_affine (i : Nat) : accessSize c i = 8 := by
  simp only [accessSize, hk, hb, Bool.false_eq_true, if_false]

omit hb in
theorem accessWrites_affine (i : Nat) : accessWrites c i = c.stage.inbound := by
  simp only [accessWrites, hk]

omit hb in
/-- A read stream writes nowhere, so that its bursts have nothing to check (R345). -/
theorem burstWrites_read (hin : c.stage.inbound = false) : burstWrites c = [] := by
  have hnone : (burstAccesses c c.next).filter (accessWrites c) = [] := List.filter_eq_nil_iff.mpr fun i _ => by
    rw [accessWrites_affine hk, hin]
    exact Bool.false_ne_true
  rw [burstWrites, hnone, List.map_nil]

end Affine

/-- A head command of a running AG enqueues a token that is due, or else makes its access. -/
theorem exec_agAccess {s : State} {g n : Nat} {c : AgCmd} {cs : List AgCmd} (hq : ((s.grove g).ag n).queue = c :: cs) (hs : c.started = true)
    (hstop : ((s.grove g).ag n).stopped = false) (hfloor : atFloor s g = false) (hfrozen : (s.elem (agElem g n)).frozen = false) :
    exec (.agAccess g n) s = .next ((agEnqueue s g n c).getD (agStep s g n c)) := by
  have hhead := headCmd_of_queue hq
  change execAgAccess g n s = _
  simp only [execAgAccess, startCmd_started hhead hs, agRuns_of_head hhead hs hstop hfloor hfrozen, if_true, hhead]
  cases agEnqueue s g n c <;> rfl

theorem agEnqueue_nothing {s : State} {g n : Nat} {c : AgCmd} (h : nextToken c = none) : agEnqueue s g n c = none := by
  rw [agEnqueue, h]

section Read

variable {s : State} {g n : Nat} {c : AgCmd} {cs : List AgCmd} {k : BitVec 2} (hq : ((s.grove g).ag n).queue = c :: cs) (hk : c.kind = .affine k)
  (hin : c.stage.inbound = false) (hb : bySector c.stage = false) (he : c.ended = false) (hn : c.next < patternWords c.stage)
include hk hin hb he hn

theorem agStep_read_refused (hsup : c.supervisor = false) (hp : c.charged ≤ c.next) (hpause : ((s.grove g).ag n).paused = false)
    (hf : portFree s g n c (patternAddr c.stage c.next) = true) (hpoint : (s.grove g).atPoint = false) (hcost : canPay s g (burstCost s g n c c.next) = false) :
    agStep s g n c = refuse s g (burstCost s g n c c.next) := by
  simp only [agStep, hk, hin, readStep, accessesMade_affine hk hb he hn, plannedAddr_affine hk hb, startBurst_refused hf hp hpause hpoint hsup hcost, Bool.false_eq_true, if_false]

include hq

/-- A read stream sends its next word's load. -/
theorem agStep_read {off : Nat} (hp : c.next < c.charged) (ha : (patternAddr c.stage c.next).toNat % 8 = 0) (hf : portFree s g n c (patternAddr c.stage c.next) = true)
    (hr : resolveAddr s (.ag g n) (patternAddr c.stage c.next).toNat = some (.bank (agElem g n) off)) :
    ∃ q, mfind (agStep s g n c).reqs s.nextReq = some q ∧ q.src = .ag g n ∧ q.kind = .load false ∧ q.size = 8 ∧ q.target = .bank (agElem g n) off ∧ q.pos = c.next ∧ q.stage = .sent ∧
      (((agStep s g n c).grove g).ag n).queue = { c.burst with next := c.next + 1 } :: cs ∧ requestsKept s (agStep s g n c) s.nextReq ∧ unitsKept s (agStep s g n c) := by
  obtain ⟨v, hv, hframe, hreqs, hnext, hqueue⟩ := startBurst_planned hq hf hp (totalAccesses_affine hk) (.inl (by rw [burstWrites_read hk hin, List.filter_nil]))
  have hburst : c.burst.kind = .affine k := hk
  have hplan : plannedAddr c.burst c.next = patternAddr c.stage c.next := plannedAddr_affine (c := c.burst) hk hb c.next
  have hstep : agStep s g n c = afterAccess v g n (bankRequest v g n off c.burst (patternAddr c.stage c.next) []) := by
    simp only [agStep, hk, hin, readStep, accessesMade_affine hk hb he hn, plannedAddr_affine hk hb, hv, headCmd_of_queue hqueue, Bool.false_eq_true, if_false]
    change (makeAccess v g n c.burst (plannedAddr c.burst c.next) []).1 = _
    rw [hplan, makeAccess_bank ha (by rw [resolveAddr_asks hframe, hr])]
  have hwrites : accessWrites c.burst c.next = false := (accessWrites_affine (c := c.burst) hk c.next).trans hin
  rw [hstep]
  obtain ⟨hfind, hqu, hkept, hunits, -⟩ := (afterAccess_accessed v g n (q := bankRequest v g n off c.burst (patternAddr c.stage c.next) []) rfl rfl).after_start hframe hreqs hnext hqueue
  refine ⟨_, hfind, rfl, ?_, accessSize_affine (c := c.burst) hk hb c.next, rfl, rfl, rfl, hqu, hkept, hunits⟩
  change (if accessWrites c.burst c.next = true then ReqKind.store else .load false) = _
  rw [hwrites]
  rfl

end Read

section Write

variable {s : State} {g n : Nat} {c : AgCmd} {cs : List AgCmd} {k : BitVec 2} {t : Token} {rest : List Token} (hq : ((s.grove g).ag n).queue = c :: cs) (hk : c.kind = .affine k)
  (hin : c.stage.inbound = true) (hb : bySector c.stage = false) (he : c.ended = false) (hn : c.next < patternWords c.stage)
  (ht : (s.elem (agElem g n)).active.fifo c.stage.ch.toNat = t :: rest)

/-- A head that bounds no element is visible. -/
theorem visibleHead_of_mark {t : Token} (h1 : t.mark ≠ 1) (h2 : t.mark ≠ 2) (rest : List Token) : visibleHead (t :: rest) = some t := by
  cases rest with
  | nil =>
    rw [visibleHead, if_neg]
    rintro (h | h)
    · exact h1 h
    · exact h2 h
  | cons x xs => rfl

include hq hk hin hb he hn ht

/-- A write stream sends its next word's store with the word that it takes. -/
theorem agStep_write {off : Nat} (hmark : t.mark = 0) (hpres : t.pres = true) (hp : c.next < c.charged) (hw : (burstWrites c).filter isGlobal = [] ∨ c.next < c.checked)
    (ha : (patternAddr c.stage c.next).toNat % 8 = 0) (hf : portFree s g n c (patternAddr c.stage c.next) = true)
    (hr : resolveAddr s (.ag g n) (patternAddr c.stage c.next).toNat = some (.bank (agElem g n) off)) :
    ∃ q, mfind (agStep s g n c).reqs s.nextReq = some q ∧ q.kind = .store ∧ q.size = 8 ∧ q.data = t.payload ∧ q.target = .bank (agElem g n) off ∧ q.stage = .sent ∧
      (((agStep s g n c).grove g).ag n).queue = { c.burst with next := c.next + 1 } :: cs ∧ takesHead s (agStep s g n c) (agElem g n) c.stage.ch.toNat ∧ unitsKept s (agStep s g n c) := by
  obtain ⟨v, hv, hframe, hreqs, hnext, hqueue⟩ := startBurst_planned hq hf hp (totalAccesses_affine hk) hw
  have hhead : headOf s (agElem g n) c.stage.ch.toNat = some t := by
    rw [headOf, ht]
    exact visibleHead_of_mark (by rw [hmark]; decide) (by rw [hmark]; decide) rest
  have hwave : t.isWave = false := by rw [Token.isWave, hmark]; rfl
  have hend : t.isEnd = false := by rw [Token.isEnd, hmark]; rfl
  have h3 : t.mark ≠ 3 := by rw [hmark]; decide
  have hplan : plannedAddr c.burst c.next = patternAddr c.stage c.next := plannedAddr_affine (c := c.burst) hk hb c.next
  generalize hqr : bankRequest v g n off c.burst (patternAddr c.stage c.next) [some t.payload] = q
  have hstep : agStep s g n c = takeToken (afterAccess v g n q) g (agElem g n) c.stage.ch.toNat t := by
    simp only [agStep, hk, hin, writeStep, accessesMade_affine hk hb he hn, plannedAddr_affine hk hb, hb, hhead, hwave, hend, h3, hpres, hv, headCmd_of_queue hqueue,
      Bool.false_and, Bool.false_eq_true, if_false, if_true]
    change (match makeAccess v g n c.burst (plannedAddr c.burst c.next) [some t.payload] with
      | (s, true) => takeToken s g (agElem g n) c.stage.ch.toNat t
      | (s, false) => s) = _
    rw [hplan, makeAccess_bank ha (by rw [resolveAddr_asks hframe, hr]), hqr]
  have hwrites : accessWrites c.burst c.next = true := (accessWrites_affine (c := c.burst) hk c.next).trans hin
  obtain ⟨hfind, hqu, -, hunits, hactive⟩ := (afterAccess_accessed v g n (q := q) (by rw [← hqr]; rfl) (by rw [← hqr]; rfl)).after_start hframe hreqs hnext hqueue
  have htake := takeToken_frame (afterAccess v g n q) g (agElem g n) c.stage.ch.toNat t
  rw [hstep]
  refine ⟨q, ?_, ?_, ?_, ?_, ?_, ?_, ?_, takesHead_of_active (hactive _) (takeToken_takesHead _ _ _ _ _), unitsKept_trans hunits (unitsKept_issue htake)⟩
  · rw [htake.view State.reqs, hfind]
  · rw [← hqr]
    change (if accessWrites c.burst c.next = true then ReqKind.store else .load false) = _
    rw [if_pos hwrites]
  · rw [← hqr]
    exact accessSize_affine (c := c.burst) hk hb c.next
  · rw [← hqr]
    rfl
  · rw [← hqr]
    rfl
  · rw [← hqr]
    rfl
  · rw [htake.groveView (fun x => x.ag n), hqu]
    rfl

/-- A write stream ends at end.3. -/
theorem agStep_ends (hmark : t.mark = 3) (hbuf : c.buffer = []) :
    (((agStep s g n c).grove g).ag n).queue = { c with ended := true } :: cs ∧ takesHead s (agStep s g n c) (agElem g n) c.stage.ch.toNat ∧ unitsKept s (agStep s g n c) := by
  have hhead : headOf s (agElem g n) c.stage.ch.toNat = some t := by
    rw [headOf, ht]
    exact visibleHead_of_mark (by rw [hmark]; decide) (by rw [hmark]; decide) rest
  have hwave : t.isWave = false := by rw [Token.isWave, hmark]; rfl
  have hstep : agStep s g n c = modHead (takeToken s g (agElem g n) c.stage.ch.toNat t) g n (fun c => { c with ended := true }) := by
    simp only [agStep, hk, hin, writeStep, accessesMade_affine hk hb he hn, hb, hhead, hwave, hmark, hbuf, Bool.false_and, Bool.false_eq_true, if_false, if_true, List.isEmpty_nil]
  have htake := takeToken_frame s g (agElem g n) c.stage.ch.toNat t
  have hmod := modHead_asks (takeToken s g (agElem g n) c.stage.ch.toNat t) g n (fun c => { c with ended := true })
  rw [hstep]
  refine ⟨modHead_queue ?_ _, takesHead_congr (takeToken_takesHead s g _ _ t) (hmod.elemView Elem.active _), unitsKept_trans (unitsKept_issue htake) (unitsKept_asks hmod)⟩
  rw [htake.groveView (fun x => x.ag n), hq]

end Write

/-- A gather reads at its base plus eight times the index that it takes. -/
theorem agStep_gather {s : State} {g n off : Nat} {c : AgCmd} {cs : List AgCmd} {ch : BitVec 5} {f : Bool} {t : Token} {rest : List Token}
    (hq : ((s.grove g).ag n).queue = c :: cs) (hk : c.kind = .gather ch f) (he : c.ended = false) (ht : (s.elem (agElem g n)).active.fifo ch.toNat = t :: rest) (hmark : t.mark = 0)
    (hpres : t.pres = true) (hp : c.next < c.charged) (ha : (c.stage.base + 8 * t.payload).toNat % 8 = 0) (hf : portFree s g n c (c.stage.base + 8 * t.payload) = true)
    (hr : resolveAddr s (.ag g n) (c.stage.base + 8 * t.payload).toNat = some (.bank (agElem g n) off)) :
    ∃ q, mfind (agStep s g n c).reqs s.nextReq = some q ∧ q.kind = .load false ∧ q.size = 8 ∧ q.target = .bank (agElem g n) off ∧ q.stage = .sent ∧
      takesHead s (agStep s g n c) (agElem g n) ch.toNat ∧ unitsKept s (agStep s g n c) := by
  have hhead : headOf s (agElem g n) ch.toNat = some t := by
    rw [headOf, ht]
    exact visibleHead_of_mark (by rw [hmark]; decide) (by rw [hmark]; decide) rest
  have hwave : t.isWave = false := by rw [Token.isWave, hmark]; rfl
  have hend : t.isEnd = false := by rw [Token.isEnd, hmark]; rfl
  have h3 : t.mark ≠ 3 := by rw [hmark]; decide
  have htotal : (totalAccesses c).isNone = true := by simp only [totalAccesses, hk, Option.isNone_none]
  have hstart : startBurst s g n c (some (indexed c t)) = (s, true) := startBurst_indexed hf hp htotal
  have hmake := makeAccess_bank (c := c) (words := []) ha hr
  have hstep : agStep s g n c = agTake (afterAccess s g n (bankRequest s g n off c (c.stage.base + 8 * t.payload) [])) (agElem g n) ch.toNat := by
    simp only [agStep, hk, gatherStep, he, hhead, hwave, hend, h3, hpres, hstart, headCmd_of_queue hq, Bool.false_eq_true, if_false, if_true]
    rw [show indexed c t = c.stage.base + 8 * t.payload from rfl, hmake]
  obtain ⟨hfind, -, -, hunits, hactive⟩ := afterAccess_accessed s g n (q := bankRequest s g n off c (c.stage.base + 8 * t.payload) []) rfl rfl
  have htake := agTake_frame (afterAccess s g n (bankRequest s g n off c (c.stage.base + 8 * t.payload) [])) (agElem g n) ch.toNat
  rw [hstep]
  refine ⟨bankRequest s g n off c (c.stage.base + 8 * t.payload) [], ?_, ?_, ?_, rfl, rfl, takesHead_of_active (hactive _) (agTake_takesHead _ _ _),
    unitsKept_trans hunits (unitsKept_issue htake)⟩
  · rw [htake.view State.reqs, hfind]
  · simp only [bankRequest, accessWrites, hk, Bool.false_eq_true, if_false]
  · simp only [bankRequest, accessSize, hk]

/-- A token that is due goes to the stream's channel, and its command goes on. -/
theorem agEnqueue_sends {s : State} {g n : Nat} {c d : AgCmd} {cs : List AgCmd} {t : Token} (hq : ((s.grove g).ag n).queue = c :: cs) (ht : nextToken c = some (t, d))
    (h3 : t.mark ≠ 3) (hroom : hasRoom s (agElem g n) c.stage.ch.toNat [] = true) :
    ∃ u, agEnqueue s g n c = some u ∧ sendsToken s u (agElem g n) c.stage.ch.toNat (fun x => x.payload = t.payload ∧ x.mark = t.mark ∧ x.frame = t.frame ∧ x.pres = t.pres) ∧
      ((u.grove g).ag n).queue = d :: cs ∧ unitsKept s u := by
  have hmod := modHead_asks s g n (fun _ => d)
  generalize hv : modHead s g n (fun _ => d) = v at hmod
  have hqueue : ((v.grove g).ag n).queue = d :: cs := by rw [← hv]; exact modHead_queue hq _
  have hstep := noteStep_frame (enqueue v (agElem g n) c.stage.ch.toNat 4 t) g
  obtain ⟨-, hmark, hframe, hpres, hpay⟩ := enqueued_fields v (agElem g n) c.stage.ch.toNat t
  refine ⟨noteStep (enqueue v (agElem g n) c.stage.ch.toNat 4 t) g, ?_, ?_, ?_, unitsKept_trans (unitsKept_asks hmod) (unitsKept_trans (unitsKept_enqueued v _ _ t) (unitsKept_issue hstep))⟩
  · simp only [agEnqueue, ht, hroom, if_true, hv]
  · refine ⟨enqueued v (agElem g n) c.stage.ch.toNat t, ?_, hpay h3, hmark, hframe, hpres⟩
    rw [hstep.tokens, enqueue_tokens, if_pos rfl, hmod.view (fun w => w.tokens (queueKey (agElem g n) (.out (BitVec.ofNat 5 c.stage.ch.toNat))))]
  · rw [hstep.groveView (fun x => x.ag n), (enqueue_system v _ _ 4 t).groveView (fun x => x.ag n), hqueue]

/-- An answered word of a read stream is due next, with its frame, and behind it the mark that its place in the pattern asks for (R226). -/
theorem nextToken_read {c : AgCmd} {k : BitVec 2} {w : Word} (hk : c.kind = .affine k) (hin : c.stage.inbound = false) (hi : c.index = none) (hw : mfind c.replies c.sent = some (some w)) :
    ∃ t d, nextToken c = some (t, d) ∧ t.payload = w ∧ t.mark = 0 ∧ d.sent = c.sent + 1 ∧ (k = 0 → d.index = none ∧ t.frame = 0) ∧
      (k ≠ 0 → c.sent + 1 = patternWords c.stage → ∃ m, d.index = some m ∧ m.mark = 3) := by
  have h : nextToken c = some ({ payload := w, frame := BitVec.ofNat 2 (wordFrame k.toNat (countOf c.stage 0) (c.sent + 1)) },
      { c with
        sent := c.sent + 1, replies := merase c.replies c.sent
        index := if addedMark k.toNat (countOf c.stage 0) (countOf c.stage 1) (patternWords c.stage) (c.sent + 1) = 0 then none
          else some { mark := BitVec.ofNat 3 (addedMark k.toNat (countOf c.stage 0) (countOf c.stage 1) (patternWords c.stage) (c.sent + 1)) } }) := by
    simp only [nextToken, hk, hin, hi, hw, Bool.false_eq_true, if_false, Option.getD_some]
  refine ⟨_, _, h, rfl, rfl, rfl, fun h0 => ?_, fun h0 hlast => ?_⟩
  · subst h0
    have hmark : addedMark (0 : BitVec 2).toNat (countOf c.stage 0) (countOf c.stage 1) (patternWords c.stage) (c.sent + 1) = 0 := if_pos rfl
    exact ⟨by rw [hmark]; rfl, rfl⟩
  · have hk0 : k.toNat ≠ 0 := fun hk0 => h0 (BitVec.eq_of_toNat_eq hk0)
    have hmark : addedMark k.toNat (countOf c.stage 0) (countOf c.stage 1) (patternWords c.stage) (c.sent + 1) = 3 := by
      rw [addedMark, if_neg hk0, if_pos hlast]
    exact ⟨{ mark := 3 }, by rw [hmark]; rfl, rfl⟩

end Sys2Proof.Machine
end

section
/-! PROOFS. Ends of stream commands and sparse sets (O51, R223, R229 to R231, R258). -/

namespace Sys2Proof.Machine
open Sys2Proof.Claims

/-! ### The commands of an AG that have not retired (R229, R258) -/

/-- A frame that an element keeps. -/
def keepsFrame (s : State) (e : Nat) (f : Frame) : Prop := ∃ x ∈ s.elems, x.1 = e ∧ f ∈ keptFrames x.2

theorem haveRetired_iff (s : State) (g n : Nat) : haveRetired s g n ↔
    (∀ a ∈ (s.grove g).ags, a.1 = n → a.2.queue = []) ∧ ∀ e f, groveOf e = g → keepsFrame s e f → ∀ a ∈ f.flight.ags, a.1 = n → a.2.queue = [] := by
  refine and_congr_right fun _ => ⟨fun h e f he hk => ?_, fun h x hx hg f hf => h x.1 f hg ⟨x, hx, rfl, hf⟩⟩
  obtain ⟨x, hx, rfl, hf⟩ := hk
  exact h x hx he f hf

/-- No command of a table is one of an AG where the queue of that AG is empty. -/
theorem queued_none (m : SMap Ag) (n : Nat) :
    (∀ c ∈ m.flatMap (fun a => a.2.queue.map (fun c => (a.1, c))), c.1 ≠ n) ↔ ∀ a ∈ m, a.1 = n → a.2.queue = [] := by
  constructor
  · intro h a ha hn
    refine List.eq_nil_iff_forall_not_mem.mpr fun c hc => ?_
    exact h (a.1, c) (List.mem_flatMap.mpr ⟨a, ha, List.mem_map.mpr ⟨c, hc, rfl⟩⟩) hn
  · intro h c hc hn
    obtain ⟨a, ha, hca⟩ := List.mem_flatMap.mp hc
    obtain ⟨d, hd, rfl⟩ := List.mem_map.mp hca
    rw [h a ha hn] at hd
    exact absurd hd (by simp)

theorem agRetired_iff (s : State) (g n : Nat) : agRetired s g n = true ↔ haveRetired s g n := by
  have hany : agRetired s g n = true ↔ ∀ c ∈ commandsOf s g, c.1 ≠ n := by
    rw [agRetired, Bool.not_eq_true', List.any_eq_false]
    exact forall₂_congr fun c _ => not_congr beq_iff_eq
  rw [hany, haveRetired, ← queued_none]
  unfold commandsOf
  constructor
  · intro h
    refine ⟨fun c hc => h c (List.mem_append_left _ hc), fun x hx hg f hf => (queued_none _ n).mp fun c hc => h c (List.mem_append_right _ ?_)⟩
    refine List.mem_flatMap.mpr ⟨x, hx, ?_⟩
    rw [if_pos hg]
    exact List.mem_flatMap.mpr ⟨f, hf, hc⟩
  · rintro ⟨hags, hframes⟩ c hc
    obtain hc | hc := List.mem_append.mp hc
    · exact hags c hc
    · obtain ⟨x, hx, hcx⟩ := List.mem_flatMap.mp hc
      split at hcx
      next hg =>
        obtain ⟨f, hf, hcf⟩ := List.mem_flatMap.mp hcx
        exact (queued_none _ n).mpr (hframes x hx hg f hf) c hcf
      next => exact absurd hcx (by simp)

/-! ### What discarded tokens leave alone (R133) -/

/-- An entry of a table stands in it after a change, or was the one that the changed key found. -/
theorem mem_mset_of_mem {α : Type} {m : SMap α} {p : Nat × α} (h : p ∈ m) (i : Nat) (x : α) : p ∈ mset m i x ∨ p.1 = i ∧ mfind m i = some p.2 := by
  induction m with
  | nil => exact absurd h (by simp)
  | cons q m ih =>
    obtain ⟨k, v⟩ := q
    rw [mset, mfind]
    split
    · exact .inl (List.mem_cons_of_mem _ h)
    · split
      next hik =>
        obtain rfl | h := List.mem_cons.mp h
        · exact .inr ⟨hik.symm, rfl⟩
        · exact .inl (List.mem_cons_of_mem _ h)
      next =>
        obtain rfl | h := List.mem_cons.mp h
        · exact .inl List.mem_cons_self
        · exact (ih h).imp_left (List.mem_cons_of_mem _)

theorem mem_of_mfind {α : Type} {m : SMap α} {i : Nat} {x : α} (h : mfind m i = some x) : (i, x) ∈ m := by
  induction m with
  | nil => exact absurd h (by simp [mfind])
  | cons q m ih =>
    obtain ⟨k, v⟩ := q
    rw [mfind] at h
    split at h
    next hik =>
      obtain rfl := Option.some.inj h
      rw [hik]
      exact List.mem_cons_self
    next => exact List.mem_cons_of_mem _ (ih h)

/-- A change of an element that keeps its frames keeps those of every element. -/
theorem keepsFrame_modElem {s : State} {e : Nat} {f : Elem → Elem} (h : keptFrames (f (s.elem e)) = keptFrames (s.elem e)) (i : Nat) (y : Frame) :
    keepsFrame (s.modElem e f) i y ↔ keepsFrame s i y := by
  change (∃ x ∈ mset s.elems e (f (s.elem e)), x.1 = i ∧ y ∈ keptFrames x.2) ↔ _
  constructor
  · rintro ⟨x, hx, rfl, hy⟩
    obtain rfl | hx := mem_mset hx
    · rw [h] at hy
      cases hm : mfind s.elems e with
      | none =>
        have hnone : keptFrames ({} : Elem) = [] := rfl
        rw [State.elem, mget, hm, Option.getD_none, hnone] at hy
        exact absurd hy (List.not_mem_nil)
      | some z =>
        rw [State.elem, mget, hm] at hy
        exact ⟨(e, z), mem_of_mfind hm, rfl, hy⟩
    · exact ⟨x, hx, rfl, hy⟩
  · rintro ⟨x, hx, rfl, hy⟩
    obtain hx | ⟨he, hm⟩ := mem_mset_of_mem hx e (f (s.elem e))
    · exact ⟨x, hx, rfl, hy⟩
    · refine ⟨(e, f (s.elem e)), mem_of_mfind (mfind_mset_same _ _ _), he.symm, ?_⟩
      rw [h, State.elem, mget, hm]
      exact hy

/-- Between two states only queues, exits and what waits for markers have changed. -/
structure DiscardFrame (s u : State) : Prop where
  units : UnitFrame s u
  grove : ∀ g, (u.grove g).still = (s.grove g).still
  frames : ∀ e f, keepsFrame u e f ↔ keepsFrame s e f
  memory : memoryKept s u

namespace DiscardFrame

theorem refl (s : State) : DiscardFrame s s := ⟨⟨fun _ _ => rfl, fun _ => rfl, fun _ => rfl⟩, fun _ => rfl, fun _ _ => .rfl, (Reports.refl s).memoryKept⟩

theorem trans {s u v : State} (h : DiscardFrame s u) (h' : DiscardFrame u v) : DiscardFrame s v :=
  ⟨h.units.trans h'.units, fun g => (h'.grove g).trans (h.grove g), fun e f => (h'.frames e f).trans (h.frames e f), memoryKept_trans h.memory h'.memory⟩

theorem foldl {α : Type} {f : State → α → State} (hf : ∀ s a, DiscardFrame s (f s a)) (l : List α) (s : State) : DiscardFrame s (l.foldl f s) := by
  induction l generalizing s with
  | nil => exact refl s
  | cons a l ih => exact (hf s a).trans (ih (f s a))

theorem of_issue {s u : State} (h : IssueFrame s u) (he : u.elems = s.elems) : DiscardFrame s u :=
  ⟨.of_issue h, h.grove, fun e f => by rw [keepsFrame, keepsFrame, he], h.memoryKept⟩

theorem groveView {s u : State} (h : DiscardFrame s u) {α : Type} (φ : Grove → α) (g : Nat) (hφ : ∀ x : Grove, φ x.still = φ x := by exact fun _ => rfl) :
    φ (u.grove g) = φ (s.grove g) := by
  rw [← hφ, h.grove, hφ]

theorem haveRetired {s u : State} (h : DiscardFrame s u) (g n : Nat) : haveRetired u g n ↔ haveRetired s g n := by
  rw [haveRetired_iff, haveRetired_iff, h.groveView Grove.ags]
  simp only [h.frames]

end DiscardFrame

theorem consumeCopy_elems (s : State) (tid : Nat) : (consumeCopy s tid).elems = s.elems := by
  unfold consumeCopy
  split
  · rfl
  · split <;> rfl

theorem endExit_elems (s : State) (e ch : Nat) (t : Token) : (endExit s e ch t).elems = s.elems := by
  unfold endExit
  split <;> rfl

theorem emptyChannel_discards (s : State) (e ch : Nat) (m : Elem → BitVec 32) :
    DiscardFrame s (s.modElem e (fun x => { x with active := x.active.setFifo ch [], markSeen := m x })) := by
  refine ⟨⟨fun i k => ?_, fun i => ?_, fun _ => rfl⟩, fun _ => rfl, fun i f => keepsFrame_modElem (by rfl) i f, memoryKept_modElem s e _⟩
  all_goals
    rw [State.modElem_elem]
    split
    next hi => subst hi; rfl
    next => rfl

theorem discardQueued_discards (s : State) (e : Nat) : DiscardFrame s (discardQueued s e) := by
  refine .foldl (fun u ch => ?_) _ s
  split
  · refine .trans (.foldl (fun v t => ?_) _ u) (emptyChannel_discards _ e ch _)
    split
    · exact .refl v
    · exact .of_issue ((endExit_frame v e ch t).trans (consumeCopy_frame _ _)) ((consumeCopy_elems _ _).trans (endExit_elems v e ch t))
  · exact .refl u

/-! ### A command that retires (R90, R223, R229) -/

/-- The state after a command has pushed its sync-FIFO token. -/
def fifoPushed (s : State) (g : Nat) (c : AgCmd) : State :=
  match c.push with
  | some f => s.modGrove g (fun x => { x with fifos := mset x.fifos f.toNat (mget 0 x.fifos f.toNat + 1) })
  | none => s

/-- The state after a command has left its queue. -/
def headDropped (s : State) (g n : Nat) : State := s.modGrove g (fun x => x.setAg n { x.ag n with queue := (x.ag n).queue.drop 1 })

/-- A bank of a sequencer that waits for an AG's commands no longer once they have retired. -/
def SeqBank.awake (b : SeqBank) (s : State) (g : Nat) : SeqBank :=
  match b.hold with
  | .streams n => if agRetired s g n then { b with hold := .none } else b
  | _ => b

/-- The state after a grove's sequencer has looked at what it waits for. -/
def streamsSeen (s : State) (g : Nat) : State := s.modGrove g (fun x => { x with taskBank := x.taskBank.awake s g, superBank := x.superBank.awake s g })

theorem exec_streamCommandRetire {s : State} {g n : Nat} {c : AgCmd} {cs : List AgCmd} {k : BitVec 2} (hq : ((s.grove g).ag n).queue = c :: cs) (hs : c.started = true)
    (hk : c.kind = .affine k) (hd : cmdDone s g n c = true) (hroom : ∀ f, c.push = some f → mget 0 (s.grove g).fifos f.toNat < 15) :
    exec (.streamCommandRetire g n) s = .next (discardQueued (streamsSeen (headDropped (fifoPushed s g c) g n) g) (agElem g n)) := by
  have hreqs : agRequests s g n = false := by
    cases h : agRequests s g n with
    | false => rfl
    | true => simp [cmdDone, h] at hd
  have hroom' : (match c.push with
      | some f => decide (mget 0 (s.grove g).fifos f.toNat < 15)
      | none => true) = true := by
    split
    next f hf => exact decide_eq_true (hroom f hf)
    next => rfl
  have hags : cmdAgs n c = [n] := by simp only [cmdAgs, hk]
  change execStreamCommandRetire g n s = _
  simp only [execStreamCommandRetire, headCmd_of_queue hq, hs, hd, hags, hk, List.all_cons, List.all_nil, hreqs, Bool.not_false, Bool.and_self, Bool.true_and]
  refine congrArg _ ((if_pos ?_).trans ?_)
  · exact hroom'
  · rfl

theorem exec_streamCommandRetire_waits {s : State} {g n : Nat} {c : AgCmd} {cs : List AgCmd} {f : BitVec 4} (hq : ((s.grove g).ag n).queue = c :: cs) (hf : c.push = some f)
    (hfull : 15 ≤ mget 0 (s.grove g).fifos f.toNat) : exec (.streamCommandRetire g n) s = .next s := by
  change execStreamCommandRetire g n s = _
  simp only [execStreamCommandRetire, headCmd_of_queue hq, hf, decide_eq_false (Nat.not_lt.mpr hfull), Bool.and_false, Bool.false_eq_true, if_false]

theorem fifoPushed_grove (s : State) (g : Nat) (c : AgCmd) : ∃ m, (fifoPushed s g c).grove g = { s.grove g with fifos := m } ∧
    (∀ f, c.push = some f → mget 0 m f.toNat = mget 0 (s.grove g).fifos f.toNat + 1) ∧ (c.push = none → m = (s.grove g).fifos) := by
  unfold fifoPushed
  split
  next f hf =>
    refine ⟨mset (s.grove g).fifos f.toNat (mget 0 (s.grove g).fifos f.toNat + 1), ?_, fun x hx => ?_, fun h => ?_⟩
    · rw [State.modGrove_grove, if_pos rfl]
    · obtain rfl := Option.some.inj (hf.symm.trans hx)
      exact mget_mset_same _ _ _ _
    · rw [hf] at h
      exact absurd h (by simp)
  next hf =>
    refine ⟨(s.grove g).fifos, rfl, fun x hx => ?_, fun _ => rfl⟩
    rw [hf] at hx
    exact absurd hx (by simp)

theorem quiet_fifoPushed (s : State) (g : Nat) (c : AgCmd) : quiet s (fifoPushed s g c) := by
  unfold fifoPushed
  split
  · exact quiet_modGrove rfl rfl
  · exact (Reports.refl s).quiet

theorem headDropped_grove (s : State) (g n : Nat) :
    (headDropped s g n).grove g = (s.grove g).setAg n { (s.grove g).ag n with queue := ((s.grove g).ag n).queue.drop 1 } := by
  rw [headDropped, State.modGrove_grove, if_pos rfl]

/-- A bank that has looked at what it waits for has its registers, and waits on only for commands that have not retired. -/
theorem awake_spec (b : SeqBank) (s : State) (g : Nat) : (b.awake s g).w = b.w ∧ (b.awake s g).a = b.a ∧ (b.awake s g).p = b.p ∧
    ∀ n, b.hold = .streams n → (b.awake s g).hold = if agRetired s g n then .none else .streams n := by
  unfold SeqBank.awake
  split
  next m hm =>
    split
    next hr =>
      refine ⟨rfl, rfl, rfl, fun n hn => ?_⟩
      rw [hm] at hn
      cases hn
      rw [if_pos hr]
    next hr =>
      refine ⟨rfl, rfl, rfl, fun n hn => ?_⟩
      rw [hm] at hn
      cases hn
      rw [if_neg hr, hm]
  next hm => exact ⟨rfl, rfl, rfl, fun n hn => absurd hn (hm n)⟩

theorem streamsSeen_bank (s : State) (g : Nat) : ((streamsSeen s g).grove g).bank = (s.grove g).bank.awake s g := by
  rw [streamsSeen, State.modGrove_grove, if_pos rfl, Grove.bank, Grove.bank]
  split <;> rfl

theorem unitsKept_streamsSeen (s : State) (g : Nat) : unitsKept s (streamsSeen s g) := by
  have hbank := streamsSeen_bank s g
  rw [streamsSeen, State.modGrove_grove, if_pos rfl] at hbank
  obtain ⟨hw, ha, hp, -⟩ := awake_spec (s.grove g).bank s g
  exact ⟨registersKept_modGrove none ((congrArg SeqBank.w hbank).trans hw) ((congrArg SeqBank.a hbank).trans ha),
    predicatesKept_modGrove ((congrArg SeqBank.p hbank).trans hp), memoryKept_modGrove s g _⟩

theorem haveRetired_streamsSeen (s : State) (g n : Nat) : haveRetired (streamsSeen s g) g n ↔ haveRetired s g n := by
  rw [haveRetired_iff, haveRetired_iff]
  have hags : ((streamsSeen s g).grove g).ags = (s.grove g).ags := by rw [streamsSeen, State.modGrove_grove, if_pos rfl]
  rw [hags]
  rfl

/-- What a retired command leaves: the queue behind it, its sync-FIFO's token, and its sequencer as the AG's other commands say. -/
theorem retired_spec (s : State) (g n : Nat) {c : AgCmd} {cs : List AgCmd} (hq : ((s.grove g).ag n).queue = c :: cs) {u : State}
    (hu : u = discardQueued (streamsSeen (headDropped (fifoPushed s g c) g n) g) (agElem g n)) :
    ((u.grove g).ag n).queue = cs ∧ (∀ f, c.push = some f → mget 0 (u.grove g).fifos f.toNat = mget 0 (s.grove g).fifos f.toNat + 1) ∧
      (c.push = none → (u.grove g).fifos = (s.grove g).fifos) ∧
      ((s.grove g).bank.hold = .streams n → (haveRetired u g n → (u.grove g).bank.hold = .none) ∧ (¬ haveRetired u g n → (u.grove g).bank.hold = .streams n)) ∧ unitsKept s u := by
  obtain ⟨m, hpush, hsome, hnone⟩ := fifoPushed_grove s g c
  generalize hv : headDropped (fifoPushed s g c) g n = v at hu
  have hgrove : v.grove g = ({ s.grove g with fifos := m } : Grove).setAg n { (s.grove g).ag n with queue := cs } := by
    rw [← hv, headDropped_grove, hpush]
    exact congrArg (fun l => ({ s.grove g with fifos := m } : Grove).setAg n { (s.grove g).ag n with queue := l }) (by rw [show ({ s.grove g with fifos := m } : Grove).ag n = (s.grove g).ag n from rfl, hq, List.drop_one, List.tail_cons])
  have hquiet : quiet s v := by rw [← hv]; exact quiet_trans (quiet_fifoPushed s g c) (quiet_modGrove rfl rfl)
  have hframe : DiscardFrame (streamsSeen v g) u := by rw [hu]; exact discardQueued_discards _ _
  have hseen : (streamsSeen v g).grove g = { v.grove g with taskBank := (v.grove g).taskBank.awake v g, superBank := (v.grove g).superBank.awake v g } := by
    rw [streamsSeen, State.modGrove_grove, if_pos rfl]
  have hfifos : (u.grove g).fifos = m := by rw [hframe.groveView Grove.fifos, hseen, hgrove]; rfl
  have hretired : haveRetired u g n ↔ agRetired v g n = true := by rw [hframe.haveRetired, haveRetired_streamsSeen, agRetired_iff]
  have hbank : (u.grove g).bank = (s.grove g).bank.awake v g := by rw [hframe.units.bank, streamsSeen_bank, hgrove]; rfl
  refine ⟨?_, fun f hf => by rw [hfifos, hsome f hf], fun hn => by rw [hfifos, hnone hn], fun hhold => ?_,
    unitsKept_trans (unitsKept_of_quiet hquiet) (unitsKept_trans (unitsKept_streamsSeen v g) (hframe.units.unitsKept hframe.memory))⟩
  · rw [hframe.groveView (fun x => x.ag n), hseen, hgrove]
    exact congrArg Ag.queue (mget_mset_same _ _ _ _)
  · obtain ⟨-, -, -, hawake⟩ := awake_spec (s.grove g).bank v g
    rw [hretired, hbank, hawake n hhold]
    exact ⟨fun h => if_pos h, fun h => if_neg h⟩

/-! ### Sparse sets (R231) -/

theorem takeKey_present {c : AgCmd} (h : c.key.isSome = true) : takeKey c = none := by
  rw [takeKey, h, Bool.true_or, if_pos rfl]

theorem takeStep_present {s : State} {g n m : Nat} {c : AgCmd} (h : c.key.isSome = true) : takeStep s g n m c = none := by
  rw [takeStep, takeKey_present h]

theorem agElem_pair {n : Nat} (h : n % 2 = 0) (g : Nat) : agElem g (n + 1) = agElem g n := by
  have hdiv : (n + 1) / 4 = n / 4 := by omega
  rw [agElem, agElem, hdiv]

theorem even_of_pairDesc {s : State} {g n : Nat} {d : Desc} (h : pairDesc s g n = some d) : n % 2 = 0 := by
  unfold pairDesc at h
  split at h
  · exact absurd h (by simp)
  · omega

section Sets

variable {s : State} {g n : Nat} {a b : AgCmd} {as bs : List AgCmd} {d : Desc} {merge : Bool} {r : BitVec 6}
  (ha : ((s.grove g).ag n).queue = a :: as) (hb : ((s.grove g).ag (n + 1)).queue = b :: bs)

/-- The sparse set unit of a running pair emits, compares or closes as its command says. -/
theorem exec_sparseSetStep (ha : ((s.grove g).ag n).queue = a :: as) (hb : ((s.grove g).ag (n + 1)).queue = b :: bs) (has : a.started = true) (hbs : b.started = true)
    (hstop : ((s.grove g).ag n).stopped = false) (hfloor : atFloor s g = false)
    (hstop' : ((s.grove g).ag (n + 1)).stopped = false) (hfrozen : (s.elem (agElem g n)).frozen = false) (hd : pairDesc s g n = some d) (hk : a.kind = .set merge true r) :
    exec (.sparseSetStep g n) s = .next (if a.phase = 0 then
        (takeStep s g n n a).getD (if a.key.isNone && !a.exhausted then s
          else if a.exhausted && !merge then modHead s g n (fun c => { c with phase := 1 })
          else (takeStep s g n (n + 1) b).getD (if b.key.isNone && !b.exhausted then s else mergeStep s g n d merge a b))
      else closeSet s g n d a) := by
  have hheada := headCmd_of_queue ha
  have hheadb := headCmd_of_queue hb
  have hfrozen' : (s.elem (agElem g (n + 1))).frozen = false := by rw [agElem_pair (even_of_pairDesc hd), hfrozen]
  change execSparseSetStep g n s = _
  simp only [execSparseSetStep, startCmd_started hheada has, agRuns_of_head hheada has hstop hfloor hfrozen, agRuns_of_head hheadb hbs hstop' hfloor hfrozen', hheada, hheadb, hd, hk,
    Bool.and_self, if_true]
  cases takeStep s g n n a <;> cases takeStep s g n (n + 1) b <;> rfl

theorem emitKey_data {och cost : Nat} {t : Token} (ht : t.mark = 0) (hroom : hasRoom s (agElem g n) och [] = true)
    (hcost : canPay s g (cost + 1 + pathCost s (agElem g n) och) = true) :
    emitKey s g n och false t (cost + 1) = some (enqueue (pay s g (cost + 1 + pathCost s (agElem g n) och)) (agElem g n) och 4 t) := by
  have hdata : t.isData = true := beq_iff_eq.mpr ht
  have hne : ¬ cost + 1 + pathCost s (agElem g n) och = 0 := by omega
  simp only [emitKey, hdata, hroom, hcost, hne, if_true, Bool.not_true, Bool.false_or, decide_false, Bool.false_eq_true, if_false]

theorem emitKey_end {och : Nat} (hroom : hasRoom s (agElem g n) och [] = true) (sup : Bool) : emitKey s g n och sup { mark := 3 } 0 = some (enqueue s (agElem g n) och 4 { mark := 3 }) := by
  have hdata : ({ mark := 3 } : Token).isData = false := rfl
  simp only [emitKey, hdata, hroom, Bool.not_true, Bool.false_eq_true, if_false, decide_true, Bool.or_true, if_true]

/-- After a merge step the keys that it used are gone. -/
def keysDropped (s : State) (g n : Nat) (x y : Bool) : State :=
  modHead (modHead s g n (fun c => { c with key := if x then none else c.key })) g (n + 1) (fun c => { c with key := if y then none else c.key })

theorem keysDropped_asks (s : State) (g n : Nat) (x y : Bool) : AskFrame s (keysDropped s g n x y) := (modHead_asks _ _ _ _).trans (modHead_asks _ _ _ _)

include ha hb

theorem keysDropped_queues (x y : Bool) : (((keysDropped s g n x y).grove g).ag n).queue = { a with key := if x then none else a.key } :: as ∧
    (((keysDropped s g n x y).grove g).ag (n + 1)).queue = { b with key := if y then none else b.key } :: bs := by
  have hne : n ≠ n + 1 := by omega
  refine ⟨?_, ?_⟩
  · rw [keysDropped, modHead_other _ _ hne, modHead_queue ha]
  · rw [keysDropped, modHead_queue]
    rw [modHead_other _ _ hne.symm, hb]

omit hb in
/-- A key that both lists have is emitted, counted, and dropped from both. -/
theorem mergeStep_emits (hb : ((s.grove g).ag (n + 1)).queue = b :: bs) {x : Word} (hx : a.key = some x) (hy : b.key = some x) (hsup : a.supervisor = false)
    (hroom : hasRoom s (agElem g n) (wbits d.w0 22 5) [] = true) (hcost : canPay s g (1 + pathCost s (agElem g n) (wbits d.w0 22 5)) = true) :
    sendsToken s (mergeStep s g n d merge a b) (agElem g n) (wbits d.w0 22 5) (fun t => t.payload = x ∧ t.mark = 0) ∧
      (((mergeStep s g n d merge a b).grove g).ag n).queue = { a with key := none, count := a.count + 1 } :: as ∧
      (((mergeStep s g n d merge a b).grove g).ag (n + 1)).queue = { b with key := none } :: bs ∧ unitsKept s (mergeStep s g n d merge a b) := by
  generalize hv : enqueue (pay s g (1 + pathCost s (agElem g n) (wbits d.w0 22 5))) (agElem g n) (wbits d.w0 22 5) 4 { payload := x } = v
  have hemit : emitKey s g n (wbits d.w0 22 5) false { payload := x } 1 = some v := by rw [← hv]; exact emitKey_data (cost := 0) rfl hroom hcost
  have hstep : mergeStep s g n d merge a b = noteStep (keysDropped (modHead v g n (fun c => { c with count := c.count + 1 })) g n true true) g := by
    simp only [mergeStep, hx, hy, hsup, hemit, if_true]
    rfl
  have hpay := pay_frame s g (1 + pathCost s (agElem g n) (wbits d.w0 22 5))
  have hag : ∀ m, (v.grove g).ag m = (s.grove g).ag m := fun m => by
    rw [← hv, (enqueue_system _ _ _ 4 _).groveView (fun x => x.ag m), hpay.groveView (fun x => x.ag m)]
  have hunits : unitsKept s v := by rw [← hv]; exact unitsKept_trans (unitsKept_issue hpay) (unitsKept_enqueued _ _ _ _)
  have hne : n ≠ n + 1 := by omega
  have hcount := modHead_asks v g n (fun c => { c with count := c.count + 1 })
  have hasks := hcount.trans (keysDropped_asks (modHead v g n (fun c => { c with count := c.count + 1 })) g n true true)
  obtain ⟨hqa, hqb⟩ := keysDropped_queues (s := modHead v g n (fun c => { c with count := c.count + 1 })) (modHead_queue ((congrArg Ag.queue (hag n)).trans ha) _)
    ((congrArg Ag.queue (modHead_other v g hne.symm _)).trans ((congrArg Ag.queue (hag (n + 1))).trans hb)) true true
  obtain ⟨-, hmark, -, -, hpl⟩ := enqueued_fields (pay s g (1 + pathCost s (agElem g n) (wbits d.w0 22 5))) (agElem g n) (wbits d.w0 22 5) { payload := x }
  rw [hstep]
  refine ⟨⟨_, ?_, hpl (show (0 : BitVec 3) ≠ 3 by decide), hmark⟩, ?_, ?_, unitsKept_trans hunits (unitsKept_trans (unitsKept_asks hasks) (unitsKept_issue (noteStep_frame _ g)))⟩
  · rw [(noteStep_frame _ g).tokens, hasks.view (fun w => w.tokens (queueKey (agElem g n) (.out (BitVec.ofNat 5 (wbits d.w0 22 5))))), ← hv, enqueue_tokens, if_pos rfl, pay_tokens]
  · rw [noteStep_ag]
    exact hqa
  · rw [noteStep_ag]
    exact hqb

omit hb in
/-- An intersection drops the smaller key. -/
theorem mergeStep_drops (hb : ((s.grove g).ag (n + 1)).queue = b :: bs) {x y : Word} (hx : a.key = some x) (hy : b.key = some y) (hlt : x.toNat < y.toNat) :
    (((mergeStep s g n d false a b).grove g).ag n).queue = { a with key := none } :: as ∧ (((mergeStep s g n d false a b).grove g).ag (n + 1)).queue = b :: bs ∧
      (mergeStep s g n d false a b).fabric = s.fabric ∧ unitsKept s (mergeStep s g n d false a b) := by
  have hne : x ≠ y := fun h => by subst h; omega
  have hult : x.ult y = true := decide_eq_true hlt
  have hstep : mergeStep s g n d false a b = noteStep (keysDropped s g n true false) g := by
    simp only [mergeStep, hx, hy, hne, hult, if_true, Bool.false_eq_true, if_false]
    rfl
  have hasks := keysDropped_asks s g n true false
  obtain ⟨hqa, hqb⟩ := keysDropped_queues ha hb true false
  rw [hstep]
  refine ⟨?_, ?_, ?_, unitsKept_trans (unitsKept_asks hasks) (unitsKept_issue (noteStep_frame _ g))⟩
  · rw [noteStep_ag, hqa]
    rfl
  · rw [noteStep_ag, hqb]
    rfl
  · rw [(noteStep_frame _ g).view State.fabric, hasks.view State.fabric]

omit hb in
/-- A merge that has emitted its count closes with end.3. -/
theorem closeSet_ends (hphase : a.phase = 2) (hroom : hasRoom s (agElem g n) (wbits d.w0 22 5) [] = true) :
    sendsToken s (closeSet s g n d a) (agElem g n) (wbits d.w0 22 5) (fun t => t.mark = 3) ∧ (((closeSet s g n d a).grove g).ag n).queue = { a with phase := 3 } :: as := by
  generalize hv : enqueue s (agElem g n) (wbits d.w0 22 5) 4 { mark := 3 } = v
  have hstep : closeSet s g n d a = noteStep (modHead v g n (fun c => { c with phase := 3 })) g := by
    have h1 : ¬ (2 = 1) := by decide
    simp only [closeSet, hphase, h1, if_false, if_true, emitKey_end hroom, hv]
  have hasks := modHead_asks v g n (fun c => { c with phase := 3 })
  obtain ⟨-, hmark, -⟩ := enqueued_fields s (agElem g n) (wbits d.w0 22 5) { mark := 3 }
  rw [hstep]
  refine ⟨⟨_, ?_, hmark⟩, ?_⟩
  · rw [(noteStep_frame _ g).tokens, hasks.view (fun w => w.tokens (queueKey (agElem g n) (.out (BitVec.ofNat 5 (wbits d.w0 22 5))))), ← hv, enqueue_tokens, if_pos rfl]
  · rw [noteStep_ag, modHead_queue]
    rw [← hv, (enqueue_system _ _ _ 4 _).groveView (fun x => x.ag n), ha]

end Sets

/-- Settles O51: a running AG by the step of its head command, the end of a command by what it leaves, and a sparse set by the phase of its merge. -/
theorem streamMoves : Obligations.StreamMoves := by
  unfold Obligations.StreamMoves
  refine ⟨fun s g n off c cs k hq hs hstop hfloor hfrozen hk hin hb hnext he hn hsup => ⟨fun hp ha hf hr => ?_, fun hp hpause hf hpoint hcost => ?_⟩,
    fun s g n off c cs k t rest hq hs hstop hfloor hfrozen hk hin hb he hn ht => ⟨fun hmark hpres hp hw ha hf hr => ?_, fun hmark hbuf => ?_⟩,
    fun s g n off c cs ch f t rest hq hs hstop hfloor hfrozen hk hnext he ht hmark hpres hp ha hf hr => ?_,
    fun s g n c d cs t hq hs hstop hfloor hfrozen hnext h3 hroom => ?_, fun c k w hk hin hi hw => nextToken_read hk hin hi hw,
    fun s g n c cs k hq hs hk hd => ⟨fun hroom => ⟨_, exec_streamCommandRetire hq hs hk hd hroom, retired_spec s g n hq rfl⟩,
      fun f hf hfull => exec_streamCommandRetire_waits hq hf hfull⟩,
    fun s g n a b as bs d merge r ha hb has hbs hstop hfloor hstop' hfrozen hd hk hsup hex => ?_⟩
  · obtain ⟨q, hq'⟩ := agStep_read hq hk hin hb he hn hp ha hf hr
    exact ⟨_, q, by rw [exec_agAccess hq hs hstop hfloor hfrozen, agEnqueue_nothing hnext, Option.getD_none], hq'⟩
  · rw [exec_agAccess hq hs hstop hfloor hfrozen, agEnqueue_nothing hnext, Option.getD_none, agStep_read_refused hk hin hb he hn hsup hp hpause hf hpoint hcost]
  · have hnext : nextToken c = none := by simp only [nextToken, hk, hin, if_true]
    obtain ⟨q, hq'⟩ := agStep_write hq hk hin hb he hn ht hmark hpres hp hw ha hf hr
    exact ⟨_, q, by rw [exec_agAccess hq hs hstop hfloor hfrozen, agEnqueue_nothing hnext, Option.getD_none], hq'⟩
  · have hnext : nextToken c = none := by simp only [nextToken, hk, hin, if_true]
    exact ⟨_, by rw [exec_agAccess hq hs hstop hfloor hfrozen, agEnqueue_nothing hnext, Option.getD_none], agStep_ends hq hk hin hb he hn ht hmark hbuf⟩
  · obtain ⟨q, hq'⟩ := agStep_gather hq hk he ht hmark hpres hp ha hf hr
    exact ⟨_, q, by rw [exec_agAccess hq hs hstop hfloor hfrozen, agEnqueue_nothing hnext, Option.getD_none], hq'⟩
  · obtain ⟨u, hu, hspec⟩ := agEnqueue_sends hq hnext h3 hroom
    exact ⟨u, by rw [exec_agAccess hq hs hstop hfloor hfrozen, hu, Option.getD_some], hspec⟩
  · have hstep := exec_sparseSetStep ha hb has hbs hstop hfloor hstop' hfrozen hd hk
    have hmerge : ∀ x y, a.phase = 0 → a.key = some x → b.key = some y → exec (.sparseSetStep g n) s = .next (mergeStep s g n d merge a b) := fun x y hphase hx hy => by
      rw [hstep, if_pos hphase, takeStep_present (by rw [hx]; rfl), takeStep_present (by rw [hy]; rfl), hx, hy, hex]
      rfl
    refine ⟨fun x hphase hx hy hroom hcost => ⟨_, hmerge x x hphase hx hy, mergeStep_emits ha hb hx hy hsup hroom hcost⟩, fun x y hphase hm hx hy hlt => ?_, fun hphase hroom => ?_⟩
    · subst hm
      exact ⟨_, hmerge x y hphase hx hy, mergeStep_drops ha hb hx hy hlt⟩
    · exact ⟨_, by rw [hstep, if_neg (by rw [hphase]; decide)], closeSet_ends ha hphase hroom⟩

end Sys2Proof.Machine
end

section
/-! PROOFS. The scheduler (O54): reads of the slot table, slot starts, launches and the time base (R319 to R328, R333). -/

namespace Sys2Proof.Machine
open Sys2Proof.Claims

/-! ### Reads of the slot table (R83, R320, R321) -/

section Reads

variable {s : State} {p n : Nat} (hst : s.stage = 8) (hn : n < (s.part p).tableLen) (hp : (mfind s.parts p).isSome = true)
include hst hn hp

/-- The scheduler reads the entries that a partition's table has. -/
theorem slotTable_read : ¬ (s.stage ≠ 8 ∨ (s.part p).tableLen ≤ n ∨ (mfind s.parts p).isNone = true) := by
  rintro (h | h | h)
  · exact h hst
  · omega
  · rw [Option.isNone_iff_eq_none.mp h] at hp
    exact absurd hp (by decide)

theorem exec_slotTableRead_held (hh : entryHeld s p n = true) : exec (.slotTableRead p n) s = .next s := by
  change execSlotTableRead p n s = _
  simp only [execSlotTableRead, if_neg (slotTable_read hst hn hp), hh, if_true]

variable (hh : entryHeld s p n = false)
include hh

theorem exec_slotTableRead_fails {cause : Nat} (hc : deviceCheck s (entryPlace s p n) = some cause) : exec (.slotTableRead p n) s = .next (noteFailedRead s p cause) := by
  change execSlotTableRead p n s = _
  simp only [execSlotTableRead, if_neg (slotTable_read hst hn hp), hh, hc, Bool.false_eq_true, if_false]

variable (hc : deviceCheck s (entryPlace s p n) = none)
include hc

theorem exec_slotTableRead_staged (hv : (mget {} s.staged (entryKey p n)).valid = true) :
    exec (.slotTableRead p n) s = .next { s with staged := mset s.staged (entryKey p n) { mget {} s.staged (entryKey p n) with
      next := if readEntry s p n = (mget {} s.staged (entryKey p n)).entry then none else some (readEntry s p n) } } := by
  change execSlotTableRead p n s = _
  simp only [execSlotTableRead, if_neg (slotTable_read hst hn hp), hh, hc, hv, Bool.false_eq_true, if_false, if_true]

variable (hv : (mget {} s.staged (entryKey p n)).valid = false)
include hv

theorem exec_slotTableRead_unset (he : enBit (readEntry s p n) 63 = false) :
    exec (.slotTableRead p n) s = .next (if (mget {} s.staged (entryKey p n)).spent || (mget {} s.staged (entryKey p n)).soon.isSome then
      { s with staged := mset s.staged (entryKey p n) { mget {} s.staged (entryKey p n) with spent := false, soon := none } } else s) := by
  change execSlotTableRead p n s = _
  simp only [execSlotTableRead, if_neg (slotTable_read hst hn hp), hh, hc, hv, he, Bool.false_eq_true, if_false]

theorem exec_slotTableRead_spent (he : enBit (readEntry s p n) 63 = true) (hspent : (mget {} s.staged (entryKey p n)).spent = true) : exec (.slotTableRead p n) s = .next s := by
  change execSlotTableRead p n s = _
  simp only [execSlotTableRead, if_neg (slotTable_read hst hn hp), hh, hc, hv, he, hspent, Bool.false_eq_true, if_false, if_true]

theorem exec_slotTableRead_stages (he : enBit (readEntry s p n) 63 = true) (hspent : (mget {} s.staged (entryKey p n)).spent = false) :
    exec (.slotTableRead p n) s = .next (stage s p n (readEntry s p n) ((mget {} s.staged (entryKey p n)).soon.getD (s.tb.toNat + 50000))) := by
  change execSlotTableRead p n s = _
  simp only [execSlotTableRead, if_neg (slotTable_read hst hn hp), hh, hc, hv, he, hspent, Bool.false_eq_true, if_false, if_true]

end Reads

/-- A failed read is logged, and nothing else changes. -/
theorem noteFailedRead_eq (s : State) (p cause : Nat) : ∃ l, noteFailedRead s p cause = { s with eventLog := l } := ⟨_, rfl⟩

theorem unitsKept_staged (s : State) (m : SMap Staged) : unitsKept s { s with staged := m } := unitsKept_of_quiet (quiet_of_fields rfl rfl rfl rfl rfl rfl rfl)

/-- An entry whose V bit reads 0 is neither spent nor waited for. -/
theorem slotTableRead_clears {s : State} {k : Nat} {x : Staged} (hx : x = mget {} s.staged k) (hv : x.valid = false) {u : State}
    (hu : u = if x.spent || x.soon.isSome then { s with staged := mset s.staged k { x with spent := false, soon := none } } else s) :
    (mget {} u.staged k).valid = false ∧ (mget {} u.staged k).spent = false ∧ (mget {} u.staged k).soon = none ∧ unitsKept s u ∧ restKept s u := by
  subst hu
  split
  · refine ⟨?_, ?_, ?_, unitsKept_staged s _, rfl, rfl, rfl, rfl, rfl, rfl⟩
    all_goals rw [mget_mset_same]
    exact hv
  next h =>
    obtain ⟨hspent, hsoon⟩ := Bool.or_eq_false_iff.mp (Bool.eq_false_iff.mpr h)
    rw [← hx]
    exact ⟨hv, hspent, Option.isSome_eq_false_iff.mp hsoon |> Option.isNone_iff_eq_none.mp, unitsKept_of_quiet (Reports.refl s).quiet, rfl, rfl, rfl, rfl, rfl, rfl⟩

/-- An entry that no reason rejects, and whose reads neither wait nor fail, is staged with its image and its first start (R321, R325). -/
theorem stage_stages {s : State} {p n base size soon : Nat} {e : Entry} {i : LoadImage} (hctx : s.ctxs.any (fun x => x.1 == enCtx e && x.2.part == p) = true)
    (hlog : (s.ctx (enCtx e)).log = some (base, size)) (hpages : logPages s (enCtx e) base size = true) (hnext : nextHeld s p e = false)
    (hreads : deviceReads s (enCtx e) (enImage e) 64 = true) (hw : deviceWaits s (enCtx e) (enImage e) 64 = false) (hreason : entryReason s e (imageSize s e) = none)
    (hwall : deviceWaits s (enCtx e) (enImage e) (imageSize s e) = false) (hfault : stageFault s p e (imageSize s e) = none)
    (himage : readImage (fun j => deviceByte s (enCtx e) (enImage e + j)) = some i) (hstaging : stagingReason s p e (some i) = none) :
    ∃ v, Reports s v ∧ Reports { v with staged := mmod {} v.staged (entryKey p n) (fun x =>
      { x with soon := none, entry := e, image := i, valid := true, spent := false, next := none, start := firstStart e soon }) } (stage s p n e soon) := by
  refine ⟨measure s (0x80 + p) 4 (enImage e) ((List.range (imageSize s e)).map (fun j => deviceByte s (enCtx e) (enImage e + j))), measure_reports s _ _ _ _, ?_⟩
  simp only [stage, hctx, hlog, hpages, hreads, hw, hreason, hwall, hnext, hfault, himage, hstaging, Bool.not_true, Bool.false_eq_true, if_false, if_true, Option.getD_some,
    Option.isNone_some, Bool.and_false, Bool.or_false]
  exact askFor_reports _ _

theorem firstStart_later (e : Entry) (t : Nat) : t ≤ firstStart e t := by
  unfold firstStart
  extract_lets P
  split
  · omega
  next hP =>
    split
    · assumption
    · have hlt := Nat.lt_div_mul_add (a := t - enStart e + P - 1) (Nat.pos_of_ne_zero hP)
      omega

/-- The first start of a periodic entry is one of its starts. -/
theorem firstStart_inStep {e : Entry} (h : enPeriod e ≠ 0) (t : Nat) : enStart e ≤ firstStart e t ∧ (firstStart e t - enStart e) % enPeriod e = 0 := by
  simp only [firstStart, if_neg h]
  split
  · exact ⟨Nat.le_refl _, by rw [Nat.sub_self, Nat.zero_mod]⟩
  · exact ⟨Nat.le_add_right _ _, by rw [Nat.add_sub_cancel_left, Nat.mul_mod_left]⟩

/-! ### Slot starts (R321, R327) -/

theorem mfind_of_valid {s : State} {k : Nat} (h : (mget {} s.staged k).valid = true) : mfind s.staged k = some (mget {} s.staged k) := by
  cases hm : mfind s.staged k with
  | none =>
    rw [mget, hm] at h
    exact absurd h (by decide)
  | some x => rw [mget, hm, Option.getD_some]

/-- The launch that a slot start of an entry makes due. -/
def dueAt (s : State) (x : Staged) (start : Nat) : Due := { start := start, entry := x.entry, image := x.image, blocked := !eventsMet s x.entry, pred := none }

/-- A slot start of an entry that neither runs nor waits makes its launch pending. -/
theorem entryDue_pends {s : State} {k start : Nat} {x : Staged} (hx : x = mget {} s.staged k) (hv : x.valid = true) (hpend : x.pending = none) (hrun : x.running = none) :
    entryDue s k start none = { s with staged := mmod {} s.staged k (fun e => { e with pending := some (dueAt s x start) }) } := by
  have hm : mfind s.staged k = some x := by rw [hx]; exact mfind_of_valid (by rw [← hx, hv])
  simp only [entryDue, hm, Option.filter_some, hv, if_true, hpend, hrun, Option.isNone_none, Bool.and_self]
  rfl

/-- A slot start that has come, of an entry that has not changed, is taken: its launch is due, and the start moves on. -/
theorem takeStart_pends {s : State} {p n : Nat} {x : Staged} (hx : x = mget {} s.staged (entryKey p n)) (hv : x.valid = true) (hchain : enChained x.entry = false)
    (hcame : x.start ≤ s.tb.toNat) (hpend : x.pending = none) (hrun : x.running = none) (hnext : x.next = none) :
    takeStart s p n = nextStart { s with staged := mmod {} s.staged (entryKey p n) (fun e => { e with pending := some (dueAt s x x.start) }) } (entryKey p n) := by
  have hstart : startCame s x = true := by
    rw [startCame, hv, hchain, decide_eq_true hcame]
    rfl
  have hkept : (mget {} (nextStart { s with staged := mmod {} s.staged (entryKey p n) (fun e => { e with pending := some (dueAt s x x.start) }) } (entryKey p n)).staged (entryKey p n)).next = none := by
    simp only [nextStart, mget_mmod, if_true, ← hx]
    split
    · rfl
    · exact hnext
  rw [takeStart, ← hx, if_pos hstart, entryDue_pends hx hv hpend hrun, restage, hkept]

theorem nextStart_spec {s : State} {k : Nat} {x : Staged} (hx : x = mget {} s.staged k) (hv : x.valid = true) (d : Due) {u : State}
    (hu : u = nextStart { s with staged := mmod {} s.staged k (fun e => { e with pending := some d }) } k) :
    (mget {} u.staged k).pending = some d ∧ (enPeriod x.entry ≠ 0 → (mget {} u.staged k).start = x.start + enPeriod x.entry ∧ (mget {} u.staged k).valid = true) ∧
      (enPeriod x.entry = 0 → (mget {} u.staged k).valid = false ∧ (mget {} u.staged k).spent = true) ∧ unitsKept s u := by
  have hentry : mget {} u.staged k = if enPeriod x.entry = 0 then { x with pending := some d, valid := false, spent := true, next := none }
      else { x with pending := some d, start := x.start + enPeriod x.entry } := by
    rw [hu]
    simp only [nextStart, mget_mmod, if_true, ← hx]
  rw [hentry]
  refine ⟨?_, fun h => ?_, fun h => ?_, ?_⟩
  · split <;> rfl
  · rw [if_neg h]
    exact ⟨rfl, hv⟩
  · rw [if_pos h]
    exact ⟨rfl, rfl⟩
  · rw [hu]
    exact unitsKept_staged s _

/-! ### Launches (R85 to R88, R324, R326) -/

/-- A task without its ties to the tasks before and after it (R85, R334). -/
def Task.unbound (x : Task) : Task := { x with producers := [], successor := none }

/-- Between two states contexts, entries, tags and the tasks of groves are the same, and so are tasks but for their ties. -/
structure LaunchFrame (s u : State) : Prop where
  ctxs : u.ctxs = s.ctxs
  staged : u.staged = s.staged
  tags : u.tags = s.tags
  task : ∀ t, (u.task t).unbound = (s.task t).unbound
  known : ∀ t, mfind s.tasks t ≠ none → mfind u.tasks t ≠ none
  grove : ∀ g, (u.grove g).task = (s.grove g).task

namespace LaunchFrame

theorem refl (s : State) : LaunchFrame s s := ⟨rfl, rfl, rfl, fun _ => rfl, fun _ h => h, fun _ => rfl⟩

theorem trans {s u v : State} (h : LaunchFrame s u) (h' : LaunchFrame u v) : LaunchFrame s v :=
  ⟨h'.ctxs.trans h.ctxs, h'.staged.trans h.staged, h'.tags.trans h.tags, fun t => (h'.task t).trans (h.task t), fun t ht => h'.known t (h.known t ht),
    fun g => (h'.grove g).trans (h.grove g)⟩

theorem foldl {α : Type} {f : State → α → State} (hf : ∀ s a, LaunchFrame s (f s a)) (l : List α) (s : State) : LaunchFrame s (l.foldl f s) := by
  induction l generalizing s with
  | nil => exact refl s
  | cons a l ih => exact (hf s a).trans (ih (f s a))

theorem of_fields {s u : State} (hc : u.ctxs = s.ctxs) (hs : u.staged = s.staged) (hl : u.tags = s.tags) (ht : u.tasks = s.tasks) (hg : u.groves = s.groves) : LaunchFrame s u :=
  ⟨hc, hs, hl, fun t => by rw [State.task, State.task, ht], fun t h => by rwa [ht], fun g => by rw [State.grove, State.grove, hg]⟩

theorem of_modGrove {s : State} {g : Nat} {f : Grove → Grove} (h : (f (s.grove g)).task = (s.grove g).task) : LaunchFrame s (s.modGrove g f) :=
  ⟨rfl, rfl, rfl, fun _ => rfl, fun _ ht => ht, State.modGrove_keeps Grove.task h⟩

theorem of_modTask {s : State} {t : Nat} {f : Task → Task} (h : (f (s.task t)).unbound = (s.task t).unbound) : LaunchFrame s (s.modTask t f) :=
  ⟨by unfold State.modTask; split <;> rfl, State.modTask_staged s t f, State.modTask_tags s t f, State.modTask_keeps Task.unbound h, fun _ hi => State.modTask_exists t f hi,
    fun g => by rw [State.modTask_grove]⟩

theorem taskView {s u : State} (h : LaunchFrame s u) {α : Type} (φ : Task → α) (t : Nat) (hφ : ∀ x : Task, φ x.unbound = φ x := by exact fun _ => rfl) :
    φ (u.task t) = φ (s.task t) := by
  rw [← hφ, h.task, hφ]

end LaunchFrame

theorem takeBank_launch (gs : List Nat) (c tag : Nat) (i : LoadImage) (lost : List (Nat × Nat)) (s : State) (v : Nat × Nat) : LaunchFrame s (takeBank gs c tag i lost s v) := by
  unfold takeBank
  extract_lets b hold
  split
  · exact .of_fields rfl rfl rfl rfl rfl
  · split
    · exact .of_fields rfl rfl rfl rfl rfl
    · split
      · exact .of_fields rfl rfl rfl rfl rfl
      · exact .refl s
  · split
    · exact .of_fields rfl rfl rfl rfl rfl
    · split
      · exact .of_fields rfl rfl rfl rfl rfl
      · exact .refl s
  · exact .refl s

theorem takeReserved_launch (s : State) (serial tag : Nat) : LaunchFrame s (takeReserved s serial tag) := by
  unfold takeReserved
  extract_lets banks preds
  refine .trans (.of_fields (u := { s with banks := banks }) rfl rfl rfl rfl rfl) (.foldl (fun v p => ?_) preds _)
  exact (LaunchFrame.of_modTask rfl).trans (.of_modTask rfl)

theorem spendFee_launch (s : State) (gs : List Nat) : LaunchFrame s (spendFee s gs) := .foldl (fun _ _ => .of_modGrove rfl) gs s

theorem enableSegments_launch (s : State) (t n : Nat) : LaunchFrame s (enableSegments s t n) := by
  refine .foldl (fun v g => ?_) _ s
  exact .trans (u := v.modGrove g (fun x => { x with segments := min 256 (x.segments + _), isolated := false, margin := guardMargin })) (.of_modGrove rfl)
    (.of_fields rfl rfl rfl rfl rfl)

/-- The sequencers of a region have their task once their registers are set. -/
theorem setRegisters_task (tag c o rows cols : Nat) (args cellar cellarn : Word) (l : List (Nat × Nat)) (s : State) (g : Nat) :
    ((l.foldl (setRegisters tag c o rows cols args cellar cellarn) s).grove g).task = if g ∈ l.map Prod.fst then some tag else (s.grove g).task := by
  induction l generalizing s with
  | nil => rfl
  | cons x l ih =>
    have hx : ((setRegisters tag c o rows cols args cellar cellarn s x).grove g).task = if g = x.1 then some tag else (s.grove g).task := by
      rw [setRegisters, State.modGrove_grove]
      split <;> rfl
    rw [List.foldl_cons, ih, hx, List.map_cons]
    simp only [List.mem_cons]
    by_cases hl : g ∈ l.map Prod.fst
    · rw [if_pos hl, if_pos (.inr hl)]
    · by_cases hg : g = x.1
      · rw [if_neg hl, if_pos hg, if_pos (.inl hg)]
      · rw [if_neg hl, if_neg hg, if_neg (by simp [hl, hg])]

theorem setRegisters_fields (tag c o rows cols : Nat) (args cellar cellarn : Word) (l : List (Nat × Nat)) (s : State) :
    (l.foldl (setRegisters tag c o rows cols args cellar cellarn) s).ctxs = s.ctxs ∧ (l.foldl (setRegisters tag c o rows cols args cellar cellarn) s).staged = s.staged ∧
      (l.foldl (setRegisters tag c o rows cols args cellar cellarn) s).tags = s.tags ∧ (l.foldl (setRegisters tag c o rows cols args cellar cellarn) s).tasks = s.tasks := by
  induction l generalizing s with
  | nil => exact ⟨rfl, rfl, rfl, rfl⟩
  | cons x l ih => exact ih _

/-- A task that takes its region: it has its groves, they have it, and contexts, entries and tags stay. -/
theorem takeRegion_spec {s : State} {tag : Nat} (ht : mfind s.tasks tag ≠ none) (x : Task) (o : Nat × Nat) :
    ((takeRegion s tag x o).task tag).unbound = { (s.task tag).unbound with groves := rectangle o.1 o.2 x.rows x.cols } ∧
      (∀ g ∈ rectangle o.1 o.2 x.rows x.cols, ((takeRegion s tag x o).grove g).task = some tag) ∧
      (takeRegion s tag x o).ctxs = s.ctxs ∧ (takeRegion s tag x o).staged = s.staged ∧ (takeRegion s tag x o).tags = s.tags := by
  unfold takeRegion
  extract_lets gs u v
  obtain ⟨hctxs, hstaged, htags, htasks⟩ : u.ctxs = s.ctxs ∧ u.staged = s.staged ∧ u.tags = s.tags ∧ u.tasks = s.tasks := setRegisters_fields _ _ _ _ _ _ _ _ _ _
  have hframe : LaunchFrame u v := .foldl (fun w b => takeBank_launch _ _ _ _ _ w b) _ u
  have hknown : mfind v.tasks tag ≠ none := hframe.known tag (by rwa [htasks])
  refine ⟨?_, fun g hg => ?_, ?_, ?_, ?_⟩
  · rw [State.modTask_task_self hknown]
    have htask := hframe.task tag
    rw [State.task, State.task, htasks] at htask
    exact congrArg (fun y : Task => { y with groves := gs }) htask
  · rw [State.modTask_grove, hframe.grove]
    refine (setRegisters_task _ _ _ _ _ _ _ _ _ s g).trans (if_pos ?_)
    rw [List.zipIdx_map_fst]
    exact hg
  · rw [show (v.modTask tag (fun y => { y with groves := gs })).ctxs = v.ctxs by unfold State.modTask; split <;> rfl, hframe.ctxs, hctxs]
  · rw [State.modTask_staged, hframe.staged, hstaged]
  · rw [State.modTask_tags, hframe.tags, htags]

/-- A launch has its region, its tag, its meter and its entry's slot. -/
structure Launched (s u : State) (p n : Nat) (d : Due) (o : Nat × Nat) (tag : Nat) : Prop where
  live : mget TagState.free u.tags tag = .live
  central : (u.task tag).central = 16 * enBudget d.entry - enFee d.entry
  reserve : (u.ctx (enCtx d.entry)).reserve = (s.ctx (enCtx d.entry)).reserve - enBudget d.entry
  starting : (u.task tag).starting = true
  groves : (u.task tag).groves = rectangle o.1 o.2 (enRows d.entry) (enCols d.entry)
  held : ∀ g ∈ rectangle o.1 o.2 (enRows d.entry) (enCols d.entry), (u.grove g).task = some tag
  pending : (mget {} u.staged (entryKey p n)).pending = none
  running : (mget {} u.staged (entryKey p n)).running = some tag

theorem Launched.of_writes {s u v : State} {p n : Nat} {d : Due} {o : Nat × Nat} {tag : Nat} (h : Launched s u p n d o tag) (hw : Writes u v) : Launched s v p n d o tag := by
  have htask : v.task tag = u.task tag := hw.view (fun w => w.task tag)
  have hstaged : v.staged = u.staged := hw.view State.staged
  refine ⟨?_, ?_, ?_, ?_, ?_, fun g hg => ?_, ?_, ?_⟩
  · rw [hw.view State.tags, h.live]
  · rw [htask, h.central]
  · rw [hw.view (fun w => w.ctx (enCtx d.entry)), h.reserve]
  · rw [htask, h.starting]
  · rw [htask, h.groves]
  · rw [hw.view (fun w => w.grove g), h.held g hg]
  · rw [hstaged, h.pending]
  · rw [hstaged, h.running]

/-- The boost of a pour fee changes a task's counts of it alone (R202). -/
theorem addBoost_keeps {α : Type} (φ : Task → α) (hφ : ∀ (x : Task) a b c, φ { x with boostDrops := a, boosting := b, fellBack := c } = φ x) (allowance cost : Nat) (x : Task) :
    φ (addBoost allowance cost x) = φ x := by
  unfold addBoost
  split
  · rfl
  · extract_lets y
    split
    · exact hφ x _ _ _
    · exact hφ x _ x.boosting x.fellBack

/-- The task of a launch (R324). -/
def launchTask (s : State) (p n : Nat) (d : Due) : Task :=
  addBoost (s.ctx (enCtx d.entry)).boost (enFee d.entry)
    { serial := (s.serial + 1) % 2 ^ 32, ctx := enCtx d.entry, part := p, entryIndex := n, entry := d.entry, image := d.image, due0 := d.start
      rows := enRows d.entry, cols := enCols d.entry, seed := deviceWord s (enCtx d.entry) (enArgs d.entry)
      cellar := deviceWord s (enCtx d.entry) (enArgs d.entry + 8), cellarn := deviceWord s (enCtx d.entry) (enArgs d.entry + 16) &&& 0xFFFFFFFF
      central := 16 * enBudget d.entry - enFee d.entry, issued := enFee d.entry, packets := enBudget d.entry, boosting := enBit d.entry 59, starting := true }

/-- The state in which the task of a launch exists, its budget taken from the reserve. -/
def launchMade (s : State) (p n : Nat) (d : Due) (tag : Nat) : State :=
  { s.modCtx (enCtx d.entry) (fun x => { x with reserve := x.reserve - enBudget d.entry }) with
    serial := (s.serial + 1) % 2 ^ 32, tags := mset s.tags tag .live, tasks := mset s.tasks tag (launchTask s p n d) }

/-- The state in which a launch has its region, its predecessor's banks and its casks. -/
def launchPlaced (s : State) (p n : Nat) (d : Due) (o : Nat × Nat) (tag : Nat) : State :=
  let s1 := takeRegion (launchMade s p n d tag) tag (launchTask s p n d) o
  let s2 := match d.pred with
    | some serial => takeReserved s1 serial tag
    | none => s1
  spendFee (enableSegments s2 tag (enBudget d.entry)) (s2.task tag).groves

theorem launchPlaced_launch (s : State) (p n : Nat) (d : Due) (o : Nat × Nat) (tag : Nat) :
    LaunchFrame (takeRegion (launchMade s p n d tag) tag (launchTask s p n d) o) (launchPlaced s p n d o tag) := by
  unfold launchPlaced
  extract_lets s1 s2
  have h2 : LaunchFrame s1 s2 := by
    simp only [s2]
    split
    · exact takeReserved_launch s1 _ tag
    · exact .refl s1
  exact (h2.trans (enableSegments_launch s2 tag _)).trans (spendFee_launch _ _)

/-- The entry of a launch that runs under a tag. -/
def Staged.launched (x : Staged) (tag : Nat) (e : Entry) : Staged :=
  { x with pending := none, running := some tag, spent := x.spent && !(enPeriod e == 0), valid := x.valid && !(enPeriod e == 0 && enChained e), next := if enPeriod e == 0 && enChained e then none else x.next }

theorem launchAt_writes (s : State) (p n : Nat) (d : Due) (o : Nat × Nat) (tag : Nat) :
    Writes { launchPlaced s p n d o tag with staged := mmod {} (launchPlaced s p n d o tag).staged (entryKey p n) (fun x => x.launched tag d.entry) } (launchAt s p n d o tag) := by
  have heq : launchAt s p n d o tag = if (enPeriod d.entry == 0) = true then
      clearV { launchPlaced s p n d o tag with staged := mmod {} (launchPlaced s p n d o tag).staged (entryKey p n) (fun x => x.launched tag d.entry) } p n
      else { launchPlaced s p n d o tag with staged := mmod {} (launchPlaced s p n d o tag).staged (entryKey p n) (fun x => x.launched tag d.entry) } := rfl
  rw [heq]
  split
  · exact clearV_writes _ p n
  · exact .refl _

theorem launchAt_launched (s : State) (p n : Nat) (d : Due) (o : Nat × Nat) (tag : Nat) : Launched s (launchAt s p n d o tag) p n d o tag := by
  refine .of_writes ?_ (launchAt_writes s p n d o tag)
  have hmade : mfind (launchMade s p n d tag).tasks tag = some (launchTask s p n d) := mfind_mset_same _ _ _
  have htask : (launchMade s p n d tag).task tag = launchTask s p n d := by rw [State.task, mget, hmade, Option.getD_some]
  have hrows : (launchTask s p n d).rows = enRows d.entry := addBoost_keeps Task.rows (fun _ _ _ _ => rfl) _ _ _
  have hcols : (launchTask s p n d).cols = enCols d.entry := addBoost_keeps Task.cols (fun _ _ _ _ => rfl) _ _ _
  obtain ⟨htaken, hheld, hctxs, hstaged, htags⟩ := takeRegion_spec (s := launchMade s p n d tag) (by rw [hmade]; simp) (launchTask s p n d) o
  have hframe := launchPlaced_launch s p n d o tag
  have hplaced := (hframe.task tag).trans htaken
  rw [hrows, hcols, htask] at hplaced
  rw [hrows, hcols] at hheld
  have hview : ∀ {α : Type} (φ : Task → α), (∀ x : Task, φ x.unbound = φ x) → φ ((launchPlaced s p n d o tag).task tag) = φ { (launchTask s p n d).unbound with groves := rectangle o.1 o.2 (enRows d.entry) (enCols d.entry) } :=
    fun φ hφ => by rw [← hφ, hplaced]
  refine ⟨?_, ?_, ?_, ?_, ?_, fun g hg => (hframe.grove g).trans (hheld g hg), ?_, ?_⟩
  · change mget TagState.free (launchPlaced s p n d o tag).tags tag = _
    rw [hframe.tags, htags]
    exact mget_mset_same _ _ _ _
  · exact (hview Task.central (fun _ => rfl)).trans (addBoost_keeps Task.central (fun _ _ _ _ => rfl) _ _ _)
  · change ((launchPlaced s p n d o tag).ctx _).reserve = _
    rw [State.ctx, hframe.ctxs, hctxs]
    exact congrArg Ctx.reserve ((State.modCtx_ctx s (enCtx d.entry) (fun x => { x with reserve := x.reserve - enBudget d.entry }) (enCtx d.entry)).trans (if_pos rfl))
  · exact (hview Task.starting (fun _ => rfl)).trans (addBoost_keeps Task.starting (fun _ _ _ _ => rfl) _ _ _)
  · exact hview Task.groves (fun _ => rfl)
  · rw [mget_mmod, if_pos rfl, Staged.launched]
  · rw [mget_mmod, if_pos rfl, Staged.launched]

/-- A launch that is its partition's next, with a region, a tag and an argument block that reads, starts under a free tag. -/
theorem exec_launch {s : State} {p n : Nat} {d : Due} {o : Nat × Nat} (hpend : (mget {} s.staged (entryKey p n)).pending = some d) (hblock : d.blocked = false)
    (herror : inError s p = false) (hfirst : anotherFirst s p (enPrio d.entry, d.start, n) = false) (hreason : regionReason s p d.entry d.image = none)
    (hregion : findRegion s p d.entry d.image = some o) (hw : deviceWaits s (enCtx d.entry) (enArgs d.entry) 32 = false)
    (hfails : deviceFails s (enCtx d.entry) (enArgs d.entry) 32 = false) (hargs : reservedArgs s d.entry = false) (hres : enBudget d.entry ≤ (s.ctx (enCtx d.entry)).reserve)
    (hbad : badArgs s d.entry = false) (htags : freeTags s ≠ []) :
    ∃ tag ∈ freeTags s, exec (.launch p n) s = .next (askFor (sectorPlaces s (enCtx d.entry) (enArgs d.entry) 32) (launchAt s p n d o tag)) := by
  have hfault : deviceFault s (enCtx d.entry) (enArgs d.entry) 32 = none := Option.isNone_iff_eq_none.mp (by rw [← Option.not_isSome, Bool.not_eq_true']; exact hfails)
  have hres' : ¬ (s.ctx (enCtx d.entry)).reserve < enBudget d.entry := Nat.not_lt.mpr hres
  cases hfree : freeTags s with
  | nil => exact absurd hfree htags
  | cons t ts =>
    have hlt : Config.tagChoice s.moveNo % (ts.length + 1) < (t :: ts).length := Nat.mod_lt _ (Nat.succ_pos _)
    refine ⟨(t :: ts).getD (Config.tagChoice s.moveNo % (ts.length + 1)) t, ?_, ?_⟩
    · rw [List.getD_eq_getElem _ _ hlt]
      exact List.getElem_mem hlt
    · change execLaunch p n s = _
      simp only [execLaunch, hpend, hblock, herror, hfirst, hreason, hregion, hfree, argsWait, hw, hfault, hargs, hres', hbad, Bool.or_self, Bool.false_eq_true, if_false]

/-! ### The time base (R319) -/

theorem exec_timeBaseAdjust (s : State) (offset : Int) : exec (.timeBaseAdjust offset) s = .next (adjustTime s offset) := rfl

theorem takeStarts_none {s : State} {k : Nat} (h : startCame s (mget {} s.staged k) = false) (n : Nat) : takeStarts n s k = s := by
  cases n with
  | zero => rfl
  | succ n => rw [takeStarts, h, if_neg Bool.false_ne_true]

theorem startCame_of_entries {s : State} (h : ∀ x ∈ s.staged, startCame s x.2 = false) (k : Nat) : startCame s (mget {} s.staged k) = false := by
  cases hm : mfind s.staged k with
  | none =>
    rw [mget, hm]
    rfl
  | some x =>
    rw [mget, hm]
    exact h (k, x) (mem_of_mfind hm)

/-- Where no slot start has come, a step of the time base leaves tasks and units. -/
theorem adjustTime_units {s : State} {offset : Int} (ho : 1000000 < offset) (h : ∀ x ∈ s.staged, startCame s x.2 = false) :
    (adjustTime s offset).tasks = s.tasks ∧ registersKept s (adjustTime s offset) none ∧ predicatesKept s (adjustTime s offset) := by
  have hstep := adjustTime_step s ho
  rw [List.foldl_fixed' fun x => takeStarts_none (startCame_of_entries h x.1) _] at hstep
  have hunits : UnitFrame s (adjustTime s offset) := .of_fields (hstep.view State.elems) (hstep.view State.groves)
  exact ⟨hstep.view State.tasks, hunits.registersKept, hunits.predicatesKept⟩

/-- A read stages an entry that no reason rejects, under its own image and first start (R321, R325). -/
theorem slotTableRead_staging {s : State} {p n base size : Nat} {e : Entry} (hst : s.stage = 8) (hn : n < (s.part p).tableLen) (hp : (mfind s.parts p).isSome = true)
    (hh : entryHeld s p n = false) (hc : deviceCheck s (entryPlace s p n) = none) (hv : (mget {} s.staged (entryKey p n)).valid = false)
    (hspent : (mget {} s.staged (entryKey p n)).spent = false) (he : e = readEntry s p n) (hbit : enBit e 63 = true) (hnext : nextHeld s p e = false)
    (hctx : s.ctxs.any (fun x => x.1 == enCtx e && x.2.part == p) = true) (hlog : (s.ctx (enCtx e)).log = some (base, size)) (hpages : logPages s (enCtx e) base size = true) :
    ∃ u, exec (.slotTableRead p n) s = .next u ∧ ∀ i, deviceReads s (enCtx e) (enImage e) 64 = true → deviceWaits s (enCtx e) (enImage e) 64 = false →
      entryReason s e (imageSize s e) = none → deviceWaits s (enCtx e) (enImage e) (imageSize s e) = false → stageFault s p e (imageSize s e) = none →
      readImage (fun j => deviceByte s (enCtx e) (enImage e + j)) = some i → stagingReason s p e (some i) = none →
      (mget {} u.staged (entryKey p n)).valid = true ∧ (mget {} u.staged (entryKey p n)).entry = e ∧ (mget {} u.staged (entryKey p n)).image = i ∧
        (mget {} u.staged (entryKey p n)).start = firstStart e ((mget {} s.staged (entryKey p n)).soon.getD (s.tb.toNat + 50000)) ∧
        (mget {} u.staged (entryKey p n)).soon = none ∧ unitsKept s u := by
  subst he
  refine ⟨_, exec_slotTableRead_stages hst hn hp hh hc hv hbit hspent, fun i hreads hw hreason hwall hfault himage hstaging => ?_⟩
  obtain ⟨v, hbefore, hafter⟩ := stage_stages (n := n) (soon := (mget {} s.staged (entryKey p n)).soon.getD (s.tb.toNat + 50000)) hctx hlog hpages hnext hreads hw hreason hwall
    hfault himage hstaging
  have hentry := congrArg (fun m => mget {} m (entryKey p n)) (hafter.view State.staged)
  simp only [mget_mmod, if_true] at hentry
  rw [hentry]
  exact ⟨rfl, rfl, rfl, rfl, rfl, unitsKept_trans (unitsKept_of_reports hbefore) (unitsKept_trans (unitsKept_staged v _) (unitsKept_of_reports hafter))⟩

/-- Settles O54: each read, start and launch by the state that its branch of the move makes; a step of the time base by what passed starts leave. -/
theorem schedulerMoves : Obligations.SchedulerMoves := by
  unfold Obligations.SchedulerMoves
  refine ⟨fun s p n hst hn hp => ⟨exec_slotTableRead_held hst hn hp, fun cause hh hc => ?_, fun hc => ⟨fun hv hh => ?_, fun hv => ⟨fun he hh => ?_, fun he hspent => ?_⟩,
      fun e base size hv hspent he hbit hh hnext hctx hlog hpages => slotTableRead_staging hst hn hp hh hc hv hspent he hbit hnext hctx hlog hpages⟩⟩,
    fun e t => ⟨firstStart_later e t, fun h => firstStart_inStep h t⟩,
    fun s p n x hx hv hchain hcame hpend hrun hnext => ⟨takeStart s p n, dueAt s x x.start, rfl, ?_⟩,
    fun s p n d o hpend hblock herror hfirst hreason hregion hw hfails hargs hres hbad htags => ?_,
    fun s offset => ⟨fun ho => (exec_timeBaseAdjust s offset).trans (congrArg Host.Outcome.next (adjustTime_slew s ho)), fun ho => ⟨_, rfl, adjustTime_tb s ho, adjustTime_units ho⟩⟩⟩
  · obtain ⟨l, hl⟩ := noteFailedRead_eq s p cause
    refine ⟨_, exec_slotTableRead_fails hst hn hp hh hc, ?_⟩
    rw [hl]
    exact ⟨rfl, unitsKept_of_quiet (quiet_of_fields rfl rfl rfl rfl rfl rfl rfl), rfl, rfl, rfl, rfl, rfl, rfl⟩
  · refine ⟨_, exec_slotTableRead_staged hst hn hp hh hc hv, ?_⟩
    rw [mget_mset_same]
    exact ⟨rfl, rfl, unitsKept_staged s _⟩
  · exact ⟨_, exec_slotTableRead_unset hst hn hp hh hc hv he, slotTableRead_clears rfl hv rfl⟩
  · cases hh : entryHeld s p n with
    | true => exact exec_slotTableRead_held hst hn hp hh
    | false => exact exec_slotTableRead_spent hst hn hp hh hc hv he hspent
  · obtain ⟨hpending, hperiod, honce, hunits⟩ := nextStart_spec hx hv (dueAt s x x.start) (takeStart_pends hx hv hchain hcame hpend hrun hnext)
    exact ⟨hpending, rfl, rfl, rfl, hperiod, honce, hunits⟩
  · obtain ⟨tag, htag, hexec⟩ := exec_launch hpend hblock herror hfirst hreason hregion hw hfails hargs hres hbad htags
    obtain ⟨hlive, hcentral, hreserve, hstarting, hgroves, hheld, hpending, hrunning⟩ := (launchAt_launched s p n d o tag).of_writes (.of_reports (askFor_reports _ _))
    exact ⟨_, tag, hexec, htag, hlive, hcentral, hreserve, hstarting, hgroves, hheld, hpending, hrunning⟩

end Sys2Proof.Machine
end
